-- ==== Sys2Proof/Word.lean ====
section
/-! DEFINITION. The words of the block: bytes, wrapping counters and the little-endian byte order of
R3. Quantities that the manual adds exactly are `Nat` or `Int`; only values that wrap or are read as
bits are bit vectors. -/

namespace Sys2Proof

/-- One byte (R3). -/
abbrev Byte := BitVec 8

/-- A wrapping 32-bit counter or stamp (R5, R52). -/
abbrev U32 := BitVec 32

/-- A wrapping 16-bit counter (R369 term, R451 generation). -/
abbrev U16 := BitVec 16

/-- Outlets 0 to 3 ("The following names and numbering are fixed", chapter 00). -/
abbrev Outlet := Fin 4

/-- Sensor channels 0 to 23 (R71). -/
abbrev Chan := Fin 24

/-- Switch channels SW0 to SW15 (R243). -/
abbrev SwCh := Fin 16

/-- Stack slots 0 to 15 (R367). -/
abbrev Slot := Fin 16

end Sys2Proof
end

