-- ==== Sys2Proof/Syntax.lean ====
section
/-! DEFINITION. The commands of the block, one constructor per row of spec/opcode_table.json, with the
operands the manual gives the step: the fields of a host packet, a measured value, a received frame, the
outcome of a check that another party's data decide. The table gives no bits, so a command has no word. -/

namespace Sys2Proof

/-- The three host origins with a sequence state (R52, R59). -/
inductive Port where
  | e0 | e1 | spi
  deriving DecidableEq, Repr

/-- A host packet that has passed steps 1 to 3 of R51 and carries a defined opcode: its header fields
(R49), its payload and the first 16 bytes of its trailer (R50). `load` is HST's estimate of the last
100 ms period in units of 0.1 % and `queued` the requests waiting in its class queue (R491). -/
structure Request where
  port     : Port
  src      : Nat
  cls      : Nat
  seq      : U32
  flags    : Byte
  status   : Byte
  reserved : Nat
  payload  : List Byte
  mac      : BitVec 128
  load     : Nat
  queued   : Nat
  deriving DecidableEq, Repr

/-- A request whose payload goes on with more bytes. -/
def Request.append (r : Request) (more : List Byte) : Request := { r with payload := r.payload ++ more }

/-- What Sundial measured of the grid over the dial cycle that has just ended (R27, R28, R32). -/
structure CycleMeasure where
  /-- The metrology codes of GV1, GV2 and GV3 over the cycle, 10,240 clocks apart (R76). -/
  gv1      : List Int
  gv2      : List Int
  gv3      : List Int
  /-- 400 MHz clocks from angle 0 of the cycle to the first of them. -/
  first    : Nat
  /-- Measured grid frequency, mHz. -/
  freq     : Nat
  /-- The 400 MHz clocks of the cycle (Tc of R81). -/
  tc       : Nat
  deriving DecidableEq, Repr

/-- What a filter chain takes in: codes that it has formed, or the bits of the modulator that it forms them of (R70, R74,
R76). Codes are as before the polarity of record 0x0302. -/
inductive Feed where
  | codes (l : List Int)
  | bits (l : List Bool)
  deriving DecidableEq, Repr

/-- The streams of one channel around a sample (R74 to R79): the metrology stream from index `first` on, the protection
stream since the sample before, and whether the span overlaps a stuck run (R98). -/
structure ChanStream where
  chan      : Chan
  first     : Int
  metrology : Feed
  protect   : Feed
  stuckSpan : Bool
  deriving DecidableEq, Repr

/-- What an element asks of a memory bank (R13, R14, R16): `wide` tells 64-bit words from 32-bit words. -/
inductive Access where
  | read (wide : Bool)
  | write (bytes : List Byte)
  | fetchAdd (wide : Bool) (value : Nat)
  | swap (wide : Bool) (value : Nat)
  | compareSwap (wide : Bool) (expected value : Nat)
  deriving DecidableEq, Repr

/-- What happens at a doorbell slot (R36): an element arms it, or disarms it with a period of 0; the element waits for its
doorbells; the dial reaches the armed angle. -/
inductive DoorbellAct where
  | arm (angle : U16) (period : Byte)
  | wait
  | reach
  deriving DecidableEq, Repr

/-- What happens at which of the four slots of an element (R36). -/
structure DoorbellEvent where
  slot : Fin 4
  act  : DoorbellAct
  deriving DecidableEq, Repr

/-- The plateaus, mV, that Hedge's comparators have seen on an outlet's pilot for the time of a rule (R218). -/
structure PilotLevels where
  outlet : Outlet
  high   : Int
  low    : Int
  deriving DecidableEq, Repr

/-- Protection samples of one phase current in a row (R209), and the current at the trip, mA. -/
structure OvercurrentInput where
  phase   : Fin 3
  samples : Feed
  value   : Int
  deriving DecidableEq, Repr

/-- The 100 ms mean of a channel's current, µA, and VSWg, 10 mV (R252). -/
structure LoadMean where
  mean   : Nat
  supply : Nat
  deriving DecidableEq, Repr

/-- What the residue check of a metrology engine found in the window (R19). -/
inductive ResidueOutcome where
  | pass | corrected | failed | unreadable
  deriving DecidableEq, Repr

/-- The measured inputs of a commit: durations of the two halves in 400 MHz clocks (R97) and of the half cycles before them,
the newest first, that a window after HOLD may take in (R121); the outcome of the
residue checks (R19) and the registers whose committed value failed its residue when read (R19). -/
structure WindowInput where
  h1      : Nat
  h2      : Nat
  earlier : List Nat
  met0    : ResidueOutcome
  met1    : ResidueOutcome
  badRegs : List Nat
  deriving DecidableEq, Repr

/-- What ROM finds at a start: outcomes of the start test, of verifying the images, of reading OTP and of the random generator. -/
structure StartInput where
  /-- Result codes of the six groups if the long start test runs (R462). -/
  groups    : List Nat
  /-- Each domain's core check, the ROM check and Hedge's self-check of the short start test (R466). -/
  coreA     : Bool
  coreB     : Bool
  romOk     : Bool
  hedgeOk   : Bool
  /-- Hedge's check value of its parameter store agrees with the one the domain computes (R230). -/
  blockOk   : Bool
  /-- Image hash of each region's booted slot verified (R418 step 4). -/
  imagesOk  : Bool
  /-- OTP pairs found in error: offset, bit, pair value 0 or 3 (R318). -/
  otpErrors : List (Nat × Nat × Nat)
  /-- Read-back of the root secret agrees (R319 step 3). -/
  rootOk    : Bool
  /-- Registers of the restored commit slot that fail their SECDED or residue check (R116). -/
  badRegs   : List Nat
  /-- Tariff values (3k + q) and session costs (48 + n) that fail their residue check (R267). -/
  badTariffs : List Nat
  /-- Duration of the test in ms and peak power in 10 mW (R472). -/
  duration  : Nat
  peak      : Nat
  deriving DecidableEq, Repr

/-- Causes of a brown-out reset (R476). -/
inductive BrownOutCause where
  | rail | pll | holdup
  deriving DecidableEq, Repr

/-- Sources of a warm reset (R476, cause codes of R488). -/
inductive WarmCause where
  | opcode | button | restartFailed | bootTimeout | recoveryExit | activation | fallback
  deriving DecidableEq, Repr

/-- Causes of recovery entry (R434, R437). -/
inductive RecoveryCause where
  | strap | button | failedBoots
  deriving DecidableEq, Repr

/-- Pilot states (R136, R137) as opcode 0x0501 codes them. -/
inductive PilotState where
  | a | b | c | d | e | f | invalid
  deriving DecidableEq, Repr

/-- Commands to the pilot generator (R138): a duty in 0.1 %, a static level, or state F. -/
inductive Generator where
  | static12 | zero | stateF | duty (d : Nat)
  deriving DecidableEq, Repr

/-- Protocols as opcode 0x0501 codes them (R163). -/
inductive Protocol where
  | din | iso2 | iso20
  deriving DecidableEq, Repr

/-- One offer of supportedAppProtocol (R148); `ac` tells ISO 15118-20 AC from DC. -/
structure AppOffer where
  protocol : Protocol
  ac       : Bool
  major    : Nat
  minor    : Nat
  priority : Nat
  schema   : Nat
  deriving DecidableEq, Repr

/-- What a vehicle offers in a TLS handshake (R151). -/
structure TlsOffer where
  tls12   : Bool
  tls13   : Bool
  /-- A suite, group and signature of R151 are among the offers for the version settled. -/
  params  : Bool
  /-- Chain of the vehicle certificate in DER, leaf first; none where the vehicle sends none. -/
  cert    : Option (List (List Byte))
  /-- The alert sent on failure. -/
  alert   : Nat
  deriving DecidableEq, Repr

/-- Energy services of ISO 15118-20 and the single service of the other protocols (R150). -/
inductive EnergyService where
  | dc | dcBpt | ac | acBpt
  deriving DecidableEq, Repr

/-- A contract credential: EMAID in ASCII and the certificate chain in DER, leaf first (R152, R173, R177). -/
structure Contract where
  emaid   : List Byte
  chain   : List (List Byte)
  deriving DecidableEq, Repr

/-- The vehicle's parameters (R181, R183, R191). Units of R4; 0 where the vehicle gives none. -/
structure EvParams where
  maxVoltage    : Nat
  maxCurrent    : Nat
  maxPower      : Nat
  targetVoltage : Nat
  targetCurrent : Nat
  deriving DecidableEq, Repr

/-- Answers that the active domain gives to a held request (R155). -/
inductive DomainReply where
  | ok | ongoing | failed | certificate
  deriving DecidableEq, Repr

/-- The fields of a standing reply (R154). -/
structure StandingFields where
  validUntil  : U32
  maxVoltage  : Nat
  maxCurrent  : Int
  maxPower    : Int
  maxDisCurrent : Int
  maxDisPower : Int
  acDuty      : Nat
  notification : Nat
  flags       : Nat
  deriving DecidableEq, Repr

/-- A setpoint (R186): mode 0 off, 1 voltage control, 2 current control, 3 discharge. -/
structure Setpoint where
  mode    : Nat
  voltage : Nat
  current : Int
  power   : Int
  deriving DecidableEq, Repr

/-- A received CAN FD frame (R185, R190). -/
structure CanFrame where
  channel : Fin 2
  ext     : Bool
  id      : Nat
  data    : List Byte
  deriving DecidableEq, Repr

/-- What Hedge measured over a half-period of the insulation injection (R216), voltages in µV. -/
structure ImdInput where
  /-- Mean of Um over the last ⌊H/4⌋ whole cycles. -/
  plateau  : Int
  /-- Mean over the ⌊H/4⌋ cycles before. -/
  before   : Int
  /-- Measured amplitude Vi. -/
  vi       : Nat
  deriving DecidableEq, Repr

/-- The means Scarecrow reads each millisecond (R221), units of R4. -/
structure ScrInput where
  onV1   : Int
  onV100 : Int
  onL    : Int
  onI1   : Int
  onI100 : Int
  /-- Vehicle-reported present voltage, where one exists. -/
  evV    : Option Nat
  deriving DecidableEq, Repr

/-- Safe-frame paths (R225). -/
inductive Path where
  | trellis | e0
  deriving DecidableEq, Repr

/-- Standards of the reader ports (R438). -/
inductive CardStd where
  | a | b | v
  deriving DecidableEq, Repr

/-- What one anticollision run of a standard found (R440, R441). -/
inductive PollResult where
  | none
  | one (id : List Byte)
  | several
  deriving DecidableEq, Repr

/-- The steps of a block write at which a field collapse can fall (R452). -/
inductive Collapse where
  | never | step1 | step2 | step3 | step4 | beforeMarker | afterMarker
  deriving DecidableEq, Repr

/-- A Wadi frame on one of the inputs WAD1 to WAD3 (R388, R389, R393): its SNR on the preamble in dB, the bits of its frame
control, the samples up to the preamble's end and from the first frame-control symbol on, and the payload that they decode to. -/
structure WadiHeard where
  snr       : Int
  control   : BitVec 24
  preamble  : List Int
  samples   : List Int
  payload   : List Byte
  deriving DecidableEq, Repr

/-- A received Wadi frame after the physical layer (R389, R392, R393). -/
structure WadiRx where
  inputs    : List WadiHeard
  /-- Dial angle at the end of the SYNCM symbol. -/
  syncAngle : Fin 65536
  deriving DecidableEq, Repr

/-- Results of the items of a standby sweep (R355). -/
structure SweepResult where
  core   : Bool
  memory : Bool
  code   : Bool
  seed   : Bool
  clock  : Bool
  deriving DecidableEq, Repr

/-- Results of a shutdown Rake (R460) and of its stress save (R312). -/
structure RakeOutcome where
  groups   : List Nat
  duration : Nat
  peak     : Nat
  saveOk   : Bool
  deriving DecidableEq, Repr

/-- One command per row of spec/opcode_table.json, in the table's order. -/
inductive Instr where
  | identity (r : Request)
  | keepalive (r : Request)
  | configurationReport (r : Request)
  | generalLogRead (r : Request)
  | legalLogRead (r : Request)
  | bulkTransferStatus (r : Request)
  | legalLogArchive (r : Request)
  | hostPacketUndefined (port : Port) (src frameLen : Nat) (bytes : List Byte) (load queued : Nat)
  | bulkTransferTimeout (id : Nat)
  | keepalivePeriod
  | hostAbsenceTimeout
  | sundialStatus (r : Request)
  | dialCycleBoundary (m : CycleMeasure)
  | gridCoherentSample (k : Fin 256) (tk : Nat) (streams : List ChanStream)
  | stuckDetected (ch : Chan) (run : Nat)
  | retentionScrub (corrected : List Nat)
  | scrubAccess (array addr : Nat) (singleBit : Bool)
  | doubleBitError (array elem addr : Nat) (access : Access) (i : StartInput)
  | permissionViolation (elem : Fin 14) (access : Access) (addr : Nat)
  | energyCommit (w : WindowInput)
  | coolantTemperatureTimeout (o : Outlet)
  | pulseEmit (m : Fin 8)
  | pulseEnd (m : Fin 8)
  | snapshotPeriod
  | channelMeasure (r : Request)
  | channelMeasureComplete
  | trialCalibration (r : Request)
  | acquisitionStatus (r : Request)
  | registerRead (r : Request)
  | signedRegisterSnapshot (r : Request)
  | instantaneousValues (r : Request)
  | pulseStatus (r : Request)
  | registerRestore (r : Request)
  | holdEntry (v24 : Nat)
  | partialCommit (w : WindowInput) (lastSample : Fin 256)
  | holdReturn (v24 : Nat)
  | holdupEnd (vbat : Nat)
  | vbatLoss (vbat : Nat)
  | powerOnReset (v24 vbat : Nat) (straps : Slot) (recover buttonPressed : Bool)
  | brownOut (cause : BrownOutCause)
  | pllLockWaitExpiry
  | holdupCharged (i : StartInput)
  | bootTimeout (i : StartInput)
  | warmReset (cause : WarmCause) (i : StartInput)
  | engineReset (elem : Fin 14)
  | recoveryEntry (cause : RecoveryCause)
  | recoveryTimeout (i : StartInput)
  | idleEntry
  | idleExit
  | resetButtonPress
  | resetButtonRelease (held : Nat)
  | resetButtonStuck
  | powerStatus (r : Request)
  | reset (r : Request)
  | shutdown (r : Request)
  | shutdownSequence (w : WindowInput) (lastSample : Fin 256) (k : RakeOutcome)
  | doorbell (elem : Fin 14) (event : DoorbellEvent)
  | utcSecond
  | crystalTrim (ppm : Int)
  | clockSlewComplete
  | pilotStateRecognised (o : Outlet) (high low : Int)
  | pilotInvalid (levels : PilotLevels)
  | proximityClassified (o : Outlet) (ohms : Nat)
  | generatorCommand (o : Outlet) (g : Generator)
  | cmSlacParamReq (o : Outlet) (runId : BitVec 64)
  | cmStartAttenCharInd (o : Outlet) (runId : BitVec 64)
  | cmMnbcSoundInd (o : Outlet) (runId : BitVec 64) (att : List Nat)
  | cmAttenCharInd (o : Outlet)
  | cmAttenCharRsp (o : Outlet) (runId : BitVec 64)
  | cmValidateReq (o : Outlet) (runId : BitVec 64)
  | cmSlacMatchReq (o : Outlet) (runId : BitVec 64)
  | vehicleJoined (o : Outlet)
  | matchingTimeout (o : Outlet)
  | slacRetryStateFEnd (o : Outlet)
  | t1sFirstFrame (o : Outlet) (mac : BitVec 48)
  | sdpRequest (o : Outlet) (security : Nat)
  | tcpConnect (o : Outlet)
  | tcpClose (o : Outlet)
  | v2gtpInvalid (o : Outlet)
  | tlsHandshake (o : Outlet) (t : TlsOffer)
  | supportedAppProtocol (o : Outlet) (offers : List AppOffer)
  | sessionSetup (o : Outlet) (evccid : List Byte)
  | serviceDiscovery (o : Outlet)
  | serviceDetail (o : Outlet) (certificateService : Bool)
  | paymentServiceSelection (o : Outlet) (contract : Bool) (service : EnergyService) (dynamic : Bool)
  | paymentDetails (o : Outlet) (c : Contract)
  | authorizationSetup (o : Outlet)
  | authorization (o : Outlet) (c : Option Contract)
  | chargeParameterDiscovery (o : Outlet) (p : EvParams)
  | scheduleExchange (o : Outlet) (dynamic : Bool)
  | cableCheck (o : Outlet)
  | cableCheckFinished (o : Outlet)
  | preCharge (o : Outlet) (targetVoltage : Nat)
  | powerDelivery (o : Outlet) (start : Bool)
  | currentDemand (o : Outlet) (targetVoltage targetCurrent presentVoltage : Nat)
  | chargingStatus (o : Outlet)
  | weldingDetection (o : Outlet)
  | meteringReceipt (o : Outlet)
  | certificateInstallation (o : Outlet)
  | certificateUpdate (o : Outlet)
  | sessionStop (o : Outlet)
  | unsupportedMessage (o : Outlet)
  | domainAnswer (o : Outlet) (a : DomainReply)
  | v2gSeccSequenceTimeout (o : Outlet)
  | communicationsetupTimeout (o : Outlet)
  | readytochargeTimeout (o : Outlet)
  | cpstateDetectionTimeout (o : Outlet)
  | tcpConnectionWaitTimeout (o : Outlet)
  | responseTimeout (o : Outlet) (loop : Bool)
  | standingReplyWrite (o : Outlet) (f : StandingFields)
  | standingReplyExpiry (o : Outlet)
  | cardWaitExpiry (o : Outlet)
  | hostAnswerTimeout (o : Outlet)
  | heldCredentialExpiry
  | preAuthorisationExpiry (o : Outlet)
  | authorisationAnswer (r : Request)
  | remoteAuthorise (r : Request)
  | stopSession (r : Request)
  | sieveLoad (r : Request)
  | sieveStatus (r : Request)
  | sessionStatus (r : Request)
  | outletAvailability (r : Request)
  | powerTarget (r : Request)
  | rampDownStep (o : Outlet)
  | openThresholdReached (o : Outlet)
  | rampDownTimeout (o : Outlet)
  | cableCheckTimeout (o : Outlet)
  | prechargeTimeout (o : Outlet)
  | weldCheckTimeEnd (o : Outlet)
  | converterStatusFrame (f : CanFrame)
  | converterLimitsFrame (f : CanFrame)
  | converterLost (o : Outlet)
  | sequenceEchoLag (o : Outlet) (lag : Nat)
  | heartbeat
  | setpointRepeat (o : Outlet)
  | setpointSend (o : Outlet) (p : Setpoint)
  | tripFrame (started : Bool)
  | powerAllocation
  | acReductionExpiry (slot : Slot) (o : Outlet)
  | allocationMissing
  | siteBudgetTimeout
  | estopOpen (channelB : Bool)
  | estopClosed
  | testPulse (lineB seenA seenB : Bool)
  | estopDiscrepancy
  | overcurrentTrip (o : Outlet) (input : OvercurrentInput)
  | contactorDelayEnd (o : Outlet)
  | residualCurrentCheck (o : Outlet) (before latest : Feed)
  | insulationPolarityChange (o : Outlet) (m : ImdInput)
  | insulationSelfTimed (o : Outlet) (m : ImdInput)
  | insulationNoValue (o : Outlet)
  | pilotLoss (levels : PilotLevels)
  | pilotBTimeout (levels : PilotLevels)
  | weldCheckStart (o : Outlet)
  | weldDetected (o : Outlet) (onV onL : Int)
  | hedgeFault
  | tripResetAutomatic (o : Option Outlet)
  | safeFrameCyclic
  | safeFrameTripSend
  | safeFrameReceive (p : Path) (bytes : List Byte)
  | safeFrameCopyMissing (slot : Slot)
  | safeFramePairTimeout (slot : Slot)
  | safeFrameSequenceClear (slot : Slot)
  | safeFrameFaultClear
  | groupTripClear
  | safetyStatus (r : Request)
  | confirmCheckValue (r : Request)
  | confirmationLockExpiry
  | tripReset (r : Request)
  | weldClear (r : Request)
  | parameterBlockLoad (agrees : Bool)
  | scarecrowCheck (o : Outlet) (m : ScrInput)
  | scarecrowRampWithdraw (o : Outlet)
  | scarecrowPermitTimeout (o : Outlet)
  | channelCommandWrite (ch : SwCh) (on : Bool)
  | channelShort (ch : SwCh) (sample : Nat)
  | channelOvercurrent (ch : SwCh) (samples : List Nat)
  | inrushWindowEnd (ch : SwCh)
  | channelThermal (ch : SwCh) (dT tj : Int)
  | thermalRestart (ch : SwCh) (dT tj : Int)
  | openLoadSet (ch : SwCh) (m : LoadMean)
  | openLoadClear (ch : SwCh) (m : LoadMean)
  | groupMeanCheck (g0 g1 g2 g3 : Nat)
  | undervoltageRelease (g : Fin 4) (v : Nat)
  | undervoltageReturn (g : Fin 4) (v : Nat)
  | switchStatus (r : Request)
  | switchCommand (r : Request)
  | currentCapture (r : Request)
  | currentCaptureComplete (samples : List Nat)
  | tariffEvaluation
  | accountStoreWrite
  | tamperSample (opened : BitVec 4)
  | billingStatus (r : Request)
  | clockSet (r : Request)
  | sessionRecordRead (r : Request)
  | billingPeriodRead (r : Request)
  | billingPeriodClose (r : Request)
  | tariffRegisters (r : Request)
  | tariffLoad (r : Request)
  | accountLoad (r : Request)
  | accountCredit (r : Request)
  | accountRead (r : Request)
  | tamperRead (r : Request)
  | vppInRange (v : Nat)
  | vppStartTimeout (v : Nat)
  | vppFault (v : Nat)
  | vppFaultRestart
  | displayFrame
  | dwellStep
  | gainRecompute
  | stressSave (ok : Bool)
  | displayStatus (r : Request)
  | applicationRows (r : Request)
  | stressRead (r : Request)
  | stressRestore (r : Request)
  | displayTest (r : Request)
  | displayTestEnd
  | trngTestFail (test : Fin 2)
  | trngRetest (ok : Bool)
  | cisRequest (cls : Fin 7) (elem : Fin 14)
  | cisternStatus (r : Request)
  | publicKeyRead (r : Request)
  | keyUpdate (r : Request) (key sig : List Byte)
  | tlsKeyGenerate (r : Request)
  | lifeCycleChange (r : Request) (sig : List Byte)
  | attest (r : Request)
  | miscompare (i : StartInput)
  | watchdogExpiry (i : StartInput)
  | seedWrite (clocks : Nat)
  | handback
  | standbySweep (x : SweepResult)
  | domainTestComplete (result duration : Nat)
  | takeoverStatus (r : Request)
  | domainSwitch (r : Request)
  | stackStatus (r : Request)
  | mastershipTransfer (r : Request)
  | trellisFrameStart (k : Fin 20)
  | syncReceived (bytes : List Byte)
  | slotFrameReceived (slot : Slot) (bytes : List Byte)
  | slotAbsent (slot : Slot)
  | spareTakeover
  | memberSilence
  | listenTimeExpiry
  | syncReadbackMismatch
  | trellisPairFailed (pairB failed : Bool) (errors : Nat)
  | wadiFrameStart (position : Fin 256)
  | wadiFrameReceived (inputs : List WadiHeard) (syncAngle : Fin 65536)
  | wadiAllocation
  | nodeAbsent (node : Nat)
  | masterLost
  | masterCandidateStart
  | joinTimeout
  | indexFree (index : Fin 256)
  | wadiStatus (r : Request)
  | neighbourTable (r : Request)
  | transmitTest (r : Request)
  | updateWrite (r : Request) (data : List Byte)
  | updateStatus (r : Request)
  | activate (r : Request) (i : StartInput)
  | activationWhenIdle (i : StartInput)
  | idleWaitExpiry
  | engineSafePoint (elem : Fin 14)
  | confirm (r : Request)
  | reject (r : Request) (i : StartInput)
  | trialLimitExpiry (i : StartInput)
  | sow (r : Request)
  | ownerLock (r : Request)
  | recoveryExit (r : Request) (i : StartInput)
  | sowingStatus (r : Request)
  | antennaSense (port : Fin 2) (load : Int)
  | guardTimeEnd (port : Fin 2) (a b v : PollResult)
  | repoll (port : Fin 2) (a b v : PollResult)
  | cardRemoval (port : Fin 2)
  | pairingWaitExpiry (port : Fin 2)
  | tagFieldOn
  | tagFieldOff
  | tagCommandRead (first count : Nat)
  | tagCommandWrite (block : Nat) (data : List Byte) (collapse : Collapse)
  | password (value : U32)
  | challenge
  | respond (slot : Nat) (nr : BitVec 128) (sigR sigS : BitVec 256)
  | leave
  | tagState
  | tagRequest (requestBlock : Bool)
  | tagStatusUpdate
  | tagLogMirror
  | wiredWriteRetryExpiry (block : Fin 256) (retries : Nat)
  | contactlessStatus (r : Request)
  | tagRead (r : Request)
  | tagWrite (r : Request) (committed : Bool)
  | tagSecurity (r : Request)
  | maintenanceWindow (w : WindowInput) (lastSample : Fin 256)
  | maintenanceWindowEnd
  | rakeGroupComplete (result : Nat)
  | rakePowerLimit
  | rakeConditionTimeout
  | rakeRestart (straps : Slot) (recover : Bool)
  | rakeStatus (r : Request)
  | rakeRun (r : Request) (w : WindowInput) (lastSample : Fin 256)
  | linkStatus (r : Request)
  | linkCounters (r : Request)
  | pilotTest (r : Request)
  | pilotTestEnd (o : Outlet)
  | transmitTestEnd
  | orderlyResetTimeout (i : StartInput)
  | holdupChargeTimeout (v : Nat)
  | vbatLow (v : Nat)
  | neighbourDiscovery (o : Outlet) (echo : Bool)
  deriving DecidableEq, Repr

end Sys2Proof
end

