-- ==== Sys2Proof/Config.lean ====
section
/-! DEFINITION. What the manual leaves open and what published standards compute. Every constant here has no
body: no proof can see its value, so a statement holds whatever the value is. A free value is one of these
applied to the counter `State.freeCount`, which each use advances (log entry 1). -/

namespace Sys2Proof.Config

/-! ### Free values (log entry 1): a fresh value for each draw -/

opaque free16 : Nat → BitVec 16
opaque free32 : Nat → BitVec 32
opaque free48 : Nat → BitVec 48
opaque free56 : Nat → BitVec 56
opaque free64 : Nat → BitVec 64
opaque free128 : Nat → BitVec 128
opaque free256 : Nat → BitVec 256
opaque freeNat : Nat → Nat
opaque freeInt : Nat → Int
opaque freeBool : Nat → Bool

/-! ### Roundings and constants that the manual leaves open (log entry 6) -/

/-- Whether a value that no rounding is stated for is rounded up. -/
opaque roundsUp : Rat → Bool

/-- The taps of the FIR decimator of an MCLK code (R76): the manual gives their number and the response. -/
opaque firTap : (mclk tap : Nat) → Rat

/-- The element whose request queue an address of bank 8 belongs to, and the element whose region an address of bank 9 lies
in (R12): the manual gives the windows, and not the places in them. -/
opaque queueOf : (addr : Nat) → Nat
opaque regionOf : (addr : Nat) → Nat

/-- Whether Hedge's comparators read a high plateau between 7.0 V and 8.0 V as state B (R218): the manual gives no thresholds of
Hedge's own between B and C. -/
opaque hedgeSeesB : (mV : Int) → Bool

/-- The font that a LEGAL image of a measurement holds, and the check beside it (R305): the manual names the image as their source,
and not their place in it. -/
opaque fontOf : (image : BitVec 256) → List Byte
opaque fontCheckOf : (image : BitVec 256) → BitVec 32

/-- The order of a byte's bits on the Wadi, the interleaver's direction, the phase step that the bits of a carrier spell, and
the mixer's phase at a frame's start, in 2^-32 of a turn (R385, R387). -/
opaque lsbFirst : Bool
opaque interleaveByRows : Bool
opaque phaseStep : List Bool → Nat
opaque mixerPhase : Int

/-- The label and unit of a register on line 0 of the legal panel (R305). -/
opaque registerLabel : Nat → List Byte

/-- The grey level of a pixel in the ramp and checkerboard patterns (R315). -/
opaque testLevel : (pattern pixel : Nat) → Nat

/-- The version of the ROM pattern set (R465). -/
opaque patternSet : Byte

/-! ### Published functions that the manual names and does not define (log entry 4). A digest or a signature
holds its byte i at bits 8i+7 to 8i. -/

/-- SHA-256. -/
opaque sha256 : List Byte → BitVec 256

/-- HMAC-SHA-256 of a message under a key. -/
opaque hmac : (key : BitVec 256) → (msg : List Byte) → BitVec 256

/-- ECDSA P-256 signature, r in the low half; the last argument is the draw of the signature's nonce. -/
opaque sign : (key : BitVec 256) → (msg : List Byte) → (draw : Nat) → BitVec 512

/-- Whether an ECDSA P-256 signature, r in the low half, verifies under a public key. -/
opaque verifies : (key : BitVec 512) → (msg : List Byte) → (sig : BitVec 512) → Bool

/-- The P-256 public key of a private key. -/
opaque publicKey : (key : BitVec 256) → BitVec 512

/-- HKDF with SHA-256 and a salt of zeros (R322): the first 48 bytes of output from a secret and an info string. -/
opaque derive : (secret : BitVec 256) → (info : List Byte) → BitVec 384

/-- The key in the payload of a key update message, by R339 with the identity key; none where the GCM tag does not verify. -/
opaque unwrap : (identity : BitVec 256) → (message : List Byte) → Option (BitVec 256)

/-- The content of a DEFLATE stream (RFC 1951, R419); none where it is not one. -/
opaque inflate : (stream : List Byte) → Option (List Byte)

/-- The AES-256-GCM tag of an empty plaintext, first 8 bytes (R395). -/
opaque gcmTag : (key : BitVec 256) → (nonce : List Byte) → (additional : List Byte) → BitVec 64

/-- A byte of flash of which the manual gives the contents and not the place (log entry 58). -/
opaque flashOpen : (draw place : Nat) → BitVec 8

/-- AES-256-GCM of a 32-byte plaintext: the ciphertext and its 16-byte tag (R330). -/
opaque gcmSeal : (key : BitVec 256) → (nonce : List Byte) → (additional : List Byte) → (plain : List Byte) → BitVec 384

/-- Which addresses of bank 9 hold the stress counters (R304): the manual gives the bank, and not the place in it. -/
opaque counterArea : (addr : Nat) → Bool

/-- A certificate in DER meets R152 as far as the manual leaves it to X.509. -/
opaque certOk : (der : List Byte) → Bool

/-- A server chain verifies to one of the root certificates, and its leaf key is the given public key (R162). -/
opaque chainOk : (roots : List (List Byte)) → (chain : List Byte) → (key : BitVec 512) → Bool

/-- A chain of certificates, leaf first, verifies to one of the root certificates; with a UTC second, it lies in every one's
validity period (R152). -/
opaque chainVerifies : (roots chain : List (List Byte)) → (utc : Option Nat) → Bool

end Sys2Proof.Config
end

