-- ==== Sys2Proof/Machine/Operands.lean ====
section
/-! DEFINITION. How fields are read from and written to byte strings (R3, R4), the check values that the manual
names, and the roundings of its exact quantities. -/

namespace Sys2Proof.Machine

/-! ### Byte order (R3) -/

/-- The low `n` bytes of a number, least significant first. -/
def leBytes : Nat → Nat → List Byte
  | 0, _ => []
  | n + 1, v => BitVec.ofNat 8 v :: leBytes n (v / 256)

/-- A signed number in `n` bytes, two's complement. -/
def leInt (n : Nat) (v : Int) : List Byte := leBytes n (v % (256 ^ n : Nat)).toNat

/-- The number that a byte string spells, least significant byte first. -/
def leNat : List Byte → Nat
  | [] => 0
  | b :: bs => b.toNat + 256 * leNat bs

/-- The `n` bytes at an offset; bytes past the end are not there. -/
def slice (bs : List Byte) (off n : Nat) : List Byte := (bs.drop off).take n

/-- The unsigned field of `n` bytes at an offset. -/
def fieldN (bs : List Byte) (off n : Nat) : Nat := leNat (slice bs off n)

/-- A number of `n` bytes read as two's complement. -/
def asSigned (n v : Nat) : Int := if 2 * v < 256 ^ n then (v : Int) else (v : Int) - (256 ^ n : Nat)

/-- The signed field of `n` bytes at an offset. -/
def fieldI (bs : List Byte) (off n : Nat) : Int := asSigned n (fieldN bs off n)

/-- The bytes of a word, least significant first. -/
def wordBytes (n : Nat) {w : Nat} (v : BitVec w) : List Byte := leBytes n v.toNat

/-- `n` bytes of 0. -/
def zeros (n : Nat) : List Byte := List.replicate n 0

/-- A byte string cut or filled with 0 to `n` bytes. -/
def padTo (n : Nat) (bs : List Byte) : List Byte := bs.take n ++ zeros (n - bs.length)

/-- One byte of a number. -/
def byte (v : Nat) : Byte := BitVec.ofNat 8 v

/-- A Bool as 0 or 1. -/
def flag (b : Bool) : Nat := if b then 1 else 0

/-- The Bools as the bits of a number, the first as bit 0. -/
def flags : List Bool → Nat
  | [] => 0
  | b :: bs => flag b + 2 * flags bs

/-- A text of ASCII characters as bytes. -/
def ascii (t : String) : List Byte := t.toList.map (fun c => BitVec.ofNat 8 c.toNat)

/-! ### Wrapping order (R5) -/

/-- The half-range rule: `a` is later than `b`. -/
def later (a b : U32) : Bool := 1 ≤ (a - b).toNat ∧ (a - b).toNat < 2 ^ 31

/-! ### Check values -/

/-- One bit of a reflected CRC-32 with the given polynomial. -/
def crcBit (poly c : BitVec 32) : BitVec 32 :=
  if c.getLsbD 0 then (c >>> 1) ^^^ poly else c >>> 1

/-- One byte of a reflected CRC-32. -/
def crcByte (poly c : BitVec 32) (b : Byte) : BitVec 32 :=
  (List.range 8).foldl (fun c _ => crcBit poly c) (c ^^^ b.setWidth 32)

/-- CRC-32C. PRESUMED (log entry 5): the manual names it and gives no polynomial. -/
def crc32c (bs : List Byte) : BitVec 32 :=
  ~~~ (bs.foldl (crcByte 0x82F63B78#32) 0xFFFFFFFF#32)

/-- One bit of the CRC-16 of R58. -/
def crc16Bit (c : BitVec 16) : BitVec 16 :=
  if c.getLsbD 15 then (c <<< 1) ^^^ 0x1021#16 else c <<< 1

/-- The CRC-16 of R58: polynomial 0x1021, initial value 0xFFFF, no reflection. -/
def crc16 (bs : List Byte) : BitVec 16 :=
  bs.foldl (fun c b => (List.range 8).foldl (fun c _ => crc16Bit c) (c ^^^ (BitVec.setWidth 16 b) <<< (8 : Nat))) 0xFFFF#16

/-! ### Exact quantities and their rounding -/

/-- The nearest integer, ties away from zero (R79, R80, R108). -/
def roundAway (q : Rat) : Int := if 0 ≤ q then (q + 1 / 2).floor else -((1 / 2 - q).floor)

/-- The integer square root, rounded down, by bisection on the given number of bits. -/
def isqrtBits : Nat → Nat → Nat → Nat
  | 0, r, _ => r
  | k + 1, r, v => if (r + 2 ^ k) * (r + 2 ^ k) ≤ v then isqrtBits k (r + 2 ^ k) v else isqrtBits k r v

/-- ⌊√v⌋. -/
def isqrt (v : Nat) : Nat := isqrtBits (v.log2 / 2 + 1) 0 v

/-- √q rounded to the nearest integer, ties up, for q ≥ 0. -/
def roundSqrt (q : Rat) : Int :=
  let v := (4 * q).floor.toNat
  (isqrt v + 1) / 2

/-- The value of `q` as an integer where the manual states no rounding: exact where `q` is one, and otherwise
one of its two neighbours, which of them is open (log entry 6). -/
def openRound (q : Rat) : Int :=
  if (q.floor : Rat) = q then q.floor else if Config.roundsUp q then q.floor + 1 else q.floor

/-- The nearest integer where the manual says so and is silent on a tie: then either neighbour (log entry 6). -/
def openNearest (q : Rat) : Int := if q - q.floor = 1 / 2 then openRound q else roundAway q

/-- √q as an integer where the manual states no rounding (log entry 6). -/
def openSqrt (q : Rat) : Int :=
  let r := isqrt q.floor.toNat
  if ((r * r : Nat) : Rat) = q then r else if Config.roundsUp q then r + 1 else r

/-- ⌈a / b⌉. -/
def ceilDiv (a b : Nat) : Nat := (a + b - 1) / b

/-- A number held between two limits. -/
def clamp (lo hi v : Int) : Int := max lo (min hi v)

/-- The sum of a list of rationals. -/
def sumRat (l : List Rat) : Rat := l.foldl (· + ·) 0

/-- The sum of a list of integers. -/
def sumInt (l : List Int) : Int := l.foldl (· + ·) 0

/-- The sum of a list of naturals. -/
def sumNat (l : List Nat) : Nat := l.foldl (· + ·) 0

/-- Change one element of a list. -/
def modifyAt {α : Type} (l : List α) (i : Nat) (f : α → α) : List α := l.modify i f

/-- The 32 bytes of a digest. -/
def digestBytes (d : BitVec 256) : List Byte := wordBytes 32 d

end Sys2Proof.Machine
end

