-- ==== Sys2Proof/Machine/Flags.lean ====
section
/-! DEFINITION. The flag and status words of the manual: the quality word (R32), the channel flag word (R81), the
register status (R109) and the status codes (R56). -/

namespace Sys2Proof.Machine

/-! ### Status codes (R56) -/

namespace St
def ok : Nat := 0
def busy : Nat := 1
def refusedState : Nat := 2
def authFail : Nat := 3
def counterStale : Nat := 4
def range : Nat := 5
def lenZero : Nat := 6
def lenBad : Nat := 7
def unknown : Nat := 8
def locked : Nat := 9
def noSpace : Nat := 10
def superseded : Nat := 11
def timeout : Nat := 12
def checkFail : Nat := 13
def level : Nat := 14
end St

/-- A 16-bit word from its bits, the first as bit 0. -/
def word16 (bs : List Bool) : BitVec 16 := BitVec.ofNat 16 (flags bs)

/-! ### The quality word (R32) -/

/-- The quality word from its conditions, in bit order. -/
def qualityWord (locked slewing hold freewheel outOfRange rotation utcInvalid xtalFault : Bool) : BitVec 16 :=
  word16 [locked, slewing, hold, freewheel, outOfRange, rotation, utcInvalid, xtalFault]

/-! ### The channel flag word (R81) -/

/-- The channel flag word from its conditions, in bit order. -/
def channelWord (enabled stuck overrange clip trial uncalibrated cover restart : Bool) : BitVec 16 :=
  word16 [enabled, stuck, overrange, clip, trial, uncalibrated, cover, restart]

/-! ### The register status (R109) -/

namespace Reg
def notCoherent : Nat := 0
def partialCommit : Nat := 1
def lost : Nat := 2
def corrupt : Nat := 3
def cover : Nat := 4
def uncalibrated : Nat := 5
def trial : Nat := 6
def excluded : Nat := 7
def rangeEvent : Nat := 8
def tempFallback : Nat := 9
def rollover : Nat := 10
def noData : Nat := 11
end Reg

/-- A status word from its conditions, in bit order. -/
def registerStatus (notCoherent partialCommit lost corrupt cover uncalibrated trial excluded rangeEvent
    tempFallback rollover noData : Bool) : BitVec 16 :=
  word16 [notCoherent, partialCommit, lost, corrupt, cover, uncalibrated, trial, excluded, rangeEvent,
    tempFallback, rollover, noData]

/-- A word with one bit set. -/
def withBit {w : Nat} (v : BitVec w) (i : Nat) : BitVec w := v ||| BitVec.ofNat w (2 ^ i)

/-- A word with one bit cleared. -/
def withoutBit {w : Nat} (v : BitVec w) (i : Nat) : BitVec w := v &&& ~~~ (BitVec.ofNat w (2 ^ i))

/-- The residue of a value (R18): v mod 7 of its mathematical value. -/
def residueOf (v : Int) : Nat := (v % 7).toNat

end Sys2Proof.Machine
end

