-- ==== Sys2Proof/Machine/State.lean ====
section
/-! DEFINITION. The state of the block: every register, table, buffer, counter, mode and pin that the manual
gives the module, one structure per chapter, the queue of waiting commands, and the machine right after reset.
Retention SRAM, flash, OTP and the SRAM banks are held as the fields the manual lays out in them. -/

namespace Sys2Proof.Machine

/-- A dial stamp (R5): cycle count and angle. -/
structure Stamp where
  cycle : U32
  angle : Nat
  deriving DecidableEq, Repr

/-- One value per outlet. -/
structure PerOutlet (α : Type) where
  o0 : α
  o1 : α
  o2 : α
  o3 : α
  deriving DecidableEq, Repr

/-- The value of an outlet. -/
def PerOutlet.get {α : Type} (p : PerOutlet α) : Outlet → α
  | 0 => p.o0
  | 1 => p.o1
  | 2 => p.o2
  | 3 => p.o3

/-- The same with the value of one outlet replaced. -/
def PerOutlet.set {α : Type} (p : PerOutlet α) (o : Outlet) (a : α) : PerOutlet α :=
  match o with
  | 0 => { p with o0 := a }
  | 1 => { p with o1 := a }
  | 2 => { p with o2 := a }
  | 3 => { p with o3 := a }

/-- The same value for every outlet. -/
def PerOutlet.all {α : Type} (a : α) : PerOutlet α := ⟨a, a, a, a⟩

/-! ### Outputs -/

/-- A packet the module sends to a host (R49, R50). `kind` bit 0 RESPONSE, bit 1 EVENT, as the flags byte. -/
structure Packet where
  port    : Port
  cls     : Nat
  opcode  : Nat
  seq     : U32
  flags   : Nat
  status  : Nat
  payload : List Byte
  mac     : BitVec 128
  /-- The IPv4 address it leaves from, 0 on SPI (R65). -/
  source  : Nat
  deriving DecidableEq, Repr

/-- Answers of an outlet to its vehicle (chapter 06), with the fields the manual fixes. `code` is the response
code: 0 OK, 1 FAILED, 2 sequence error, 3 certificate error, 4 payment selection invalid, 5 no negotiation. -/
structure V2gRes where
  /-- The request answered, by the number of its row in R149 (`Link.msg…`). -/
  msg      : Nat
  code     : Nat
  /-- 0 Finished, 1 Ongoing. -/
  ongoing  : Bool
  /-- Notification 0 none, 1 StopCharging, 2 Renegotiation, 3 Terminate (R154). -/
  notification : Nat
  /-- Numbers the answer carries, in the manual's order. -/
  values   : List Int
  /-- The meter signature, where the protocol carries one (R150). -/
  signature : Option (BitVec 512)
  deriving DecidableEq, Repr

/-- A CAN FD frame the module sends (R185, R186, R190, R211). -/
structure CanOut where
  channel : Nat
  ext     : Bool
  id      : Nat
  data    : List Byte
  /-- Put ahead of every waiting frame (R211). -/
  urgent  : Bool
  deriving DecidableEq, Repr

/-- HomePlug Green PHY management messages an outlet sends (R143). -/
inductive SlacOut where
  | paramCnf (runId : BitVec 64)
  | attenCharInd (runId : BitVec 64) (sounds : Nat) (groups : List Nat)
  | validateCnf (result : Nat)
  | matchCnf (runId : BitVec 64) (nmk : BitVec 128) (nid : BitVec 56)
  | setKey (nmk : BitVec 128)
  deriving DecidableEq, Repr

/-- A Wadi frame on the medium (R385, R388): the outputs driven, the transmit level in percent, the symbols as the phases of
their carriers in 72nds of a turn, and the samples in V. -/
structure WadiAir where
  outputs : List Nat
  level   : Nat
  symbols : List (List Nat)
  samples : List Rat
  deriving DecidableEq, Repr

/-- Everything a partner of the module sees it send, newest first in `State.out` (log entry 3). -/
inductive Out where
  | packet (p : Packet)
  | can (f : CanOut)
  /-- A message of an outlet's modem, at a transmit power spectral density in dBm/Hz (R142). -/
  | slac (o : Outlet) (psd : Int) (m : SlacOut)
  /-- The PHY of a type 2 outlet coordinates its segment (R145). -/
  | plca (o : Outlet) (node count : Nat)
  /-- The SDP response: link-local address, TCP port, security byte, transport byte (R147). -/
  | sdp (o : Outlet) (addr : BitVec 128) (port security transport : Nat)
  | tcpReset (o : Outlet)
  | tcpClosed (o : Outlet)
  | tlsAlert (o : Outlet) (alert : Nat)
  /-- The answer to Neighbour Discovery or to an echo, from the outlet's link-local address (R146). -/
  | neighbour (o : Outlet) (addr : BitVec 128) (echo : Bool)
  | v2g (o : Outlet) (r : V2gRes)
  /-- A safe frame on a path; on E0 a datagram to an IPv4 address and port. -/
  | safeFrame (p : Path) (dest : Option (Nat × Nat)) (bytes : List Byte)
  | trellisSync (bytes : List Byte)
  | trellisSlot (slot : Nat) (bytes : List Byte)
  | wadi (cls mode : Nat) (bytes : List Byte) (air : WadiAir)
  /-- Back-to-back test frames of a mode start, on the outputs driven and at a transmit level in percent. -/
  | wadiTest (mode : Nat) (outputs : List Nat) (level : Nat)
  | tag (bytes : List Byte)
  /-- The tag's activation in a field (R444): ATQA, UID, SAK, and FSCI and FWI of its ATS. -/
  | tagActive (atqa : Nat) (uid : U32) (sak fsci fwi : Nat)
  | doorbell (elem slot : Nat)
  | cis (elem cls : Nat) (granted : Bool)
  deriving DecidableEq, Repr

/-! ### Chapters 01 to 03: fabric, Sundial, configuration, host link, logs -/

/-- Single-bit corrections of one array (R16, R20): count since start, those not yet logged, time of the last entry. -/
structure ArrayErrors where
  array    : Nat
  total    : Nat
  unlogged : Nat
  lastLog  : Option Nat
  deriving DecidableEq, Repr

/-- A doorbell slot that is armed (R36): element, slot, angle and period in cycles; the dial cycles until the cycle in which
it is due, and whether it is done with in this one. -/
structure Doorbell where
  elem   : Nat
  slot   : Nat
  angle  : Nat
  period : Nat
  left   : Nat
  rung   : Bool
  deriving DecidableEq, Repr

/-- A Sieve entry with its place (R24, R25); `bad` is the uncorrectable mark of R20. -/
structure SieveEntry where
  bucket  : Nat
  pos     : Nat
  hash    : BitVec 96
  account : Nat
  flags   : Byte
  bad     : Bool
  deriving DecidableEq, Repr

/-- Integrity and fabric state of chapter 01. -/
structure Fabric where
  arrays    : List ArrayErrors
  /-- In the order of angle, element and slot. -/
  doorbells : List Doorbell
  /-- Elements that wait for a doorbell (R36), bit i = element i. -/
  waiting   : BitVec 14
  /-- The words of the memory map that the elements' own accesses have written (R11, R14), and what the bank returned to the
  latest access; `marked` is the uncorrectable mark of that answer (R16). -/
  mem       : List Host.Cell
  answer    : Nat
  marked    : Bool
  /-- A synchronous exception is pending at the active domain (R13). -/
  domainException : Bool
  sieve     : List SieveEntry
  deriving DecidableEq, Repr

/-- Sundial's modes (R29). -/
inductive SunMode where
  | lock | slew | hold | freewheel
  deriving DecidableEq, Repr

/-- Sundial and the UTC clock (chapter 02). Frequencies in mHz. -/
structure Sundial where
  mode      : SunMode
  cycle     : U32
  /-- The oscillator (R27): angle, 32 fractional bits, and its frequency in steps of 400 MHz / 2^48. -/
  angle     : Nat
  frac      : U32
  freqWord  : Nat
  epoch     : Nat
  /-- The quality word in force (R32). -/
  quality   : BitVec 16
  /-- Measured grid frequency of the cycle just ended, 0 if it was missing (R41). -/
  gridFreq  : Nat
  dialFreq  : Nat
  /-- The last frequency before the first missing cycle (HOLD of R29). -/
  heldFreq  : Nat
  phaseErr  : Int
  /-- The phase error was within the lock tolerance at the latest boundary (R29). -/
  within    : Bool
  /-- Consecutive good and missing cycles (R29). -/
  goodRun   : Nat
  missRun   : Nat
  /-- 400 MHz clocks of the cycle just ended (R81). -/
  tc        : Nat
  /-- UTC second and whether the clock is valid (R37). -/
  utc       : Nat
  /-- When the present UTC second began, ms (log entry 2). -/
  utcMark   : Int
  utcValid  : Bool
  /-- The 32.768 kHz crystal's trim in ppm, as last measured (R37). -/
  trim      : Int
  /-- The UTC pair (R38). -/
  pairUtc   : Nat
  pairStamp : Stamp
  /-- The pair before it. -/
  lastUtc   : Nat
  lastStamp : Stamp
  deriving DecidableEq, Repr

/-- A record of the configuration image in force (R46, R47) with its status in the report. `defined` is false
for an unknown type that was skipped. -/
structure Rec where
  type    : Nat
  key     : Nat
  flags   : Nat
  level   : Nat
  status  : Nat
  defined : Bool
  padOk   : Bool
  body    : List Byte
  deriving DecidableEq, Repr

/-- One entry of the configuration digest (R61). -/
structure DigestEntry where
  type   : Nat
  key    : Nat
  status : Nat
  check  : BitVec 32
  deriving DecidableEq, Repr

/-- A copy of the configuration digest (R61). -/
structure Digest where
  generation : U32
  serial     : Nat
  slot       : Nat
  entries    : List DigestEntry
  deriving DecidableEq, Repr

/-- The configuration in force (R42) and the digest copies in the LOG partition. `slot` 0 = A, 1 = B,
2 = unconfigured. -/
structure Configuration where
  slot    : Nat
  serial  : Nat
  recs    : List Rec
  /-- Outlets whose record 0x0702 failed its own check (R236). -/
  disabled : List Nat
  /-- Records 0x0501 and 0x0703 from before a warm reset that stay in force until their outlet next enters S0 (R476); one
  whose status is not 0 stands for the defaults. -/
  held     : List Rec
  digestA : Option Digest
  digestB : Option Digest
  deriving DecidableEq, Repr

/-- A general-log entry (R58); its CRC-16 is formed when it is read. `utc` is none while the clock is not valid. -/
structure LogEntry where
  index  : Nat
  utc    : Option Nat
  stamp  : Stamp
  origin : Nat
  sub    : Nat
  code   : Nat
  detail : List Byte
  deriving DecidableEq, Repr

/-- A legal-log entry with its chain value (R62). -/
structure LegalEntry where
  entry : LogEntry
  chain : BitVec 256
  deriving DecidableEq, Repr

/-- The two logs, newest first (R57 to R63). -/
structure Logs where
  general  : List LogEntry
  /-- Index of the next entry (R60). -/
  next     : Nat
  legal    : List LegalEntry
  /-- Overflow counter of the legal log (R63). -/
  overflow : Nat
  /-- Entries made since HOLD entry (R60). -/
  inHold   : Nat
  /-- Entries lost at the last holdup end (R60, R488). -/
  lost     : Nat
  deriving DecidableEq, Repr

/-- An accepted request whose response is still to come (R52), with the number of copies received. -/
structure InProgress where
  seq    : U32
  cls    : Nat
  opcode : Nat
  copies : Nat
  deriving DecidableEq, Repr

/-- Sequence state, counters and rate limits of one host origin (R51, R52). -/
structure Origin where
  lastSeq   : U32
  progress  : List InProgress
  /-- Sequences of the last 16 accepted requests, newest first, and the responses to them. -/
  recent    : List U32
  cache     : List Packet
  drops     : Nat
  eventSeq  : U32
  /-- Authentication failures since the last entry 0x0003 and the time of that entry, ms. -/
  authFails : Nat
  authLog   : Option Nat
  /-- Times of the AUTH_FAIL responses of the last second, ms. -/
  authTimes : List Nat
  deriving DecidableEq, Repr

/-- States of a bulk transfer (opcode 0x0106). -/
inductive TransferState where
  | receiving | applied | refused | inactive | byReset
  deriving DecidableEq, Repr

/-- A bulk transfer held by HST (R55, R519). `object` is the opcode that opened it. -/
structure Transfer where
  id       : Nat
  object   : Nat
  port     : Port
  total    : Nat
  /-- Received blocks: offset and data. -/
  blocks   : List (Nat × List Byte)
  /-- Bytes received, for objects whose blocks are written through and not kept (R422). -/
  received : Nat
  state    : TransferState
  status   : Nat
  deriving DecidableEq, Repr

/-- The host link (chapter 03). -/
structure HostLink where
  e0        : Origin
  e1        : Origin
  spi       : Origin
  /-- The 32 transfers most recently opened, newest first. -/
  transfers : List Transfer
  /-- The host counts as absent (R64). -/
  absent    : Bool
  /-- Packets queued for the SPI origin, oldest first; HOST_IRQ_N is low while there is one (R504). -/
  spiQueue  : List Packet
  deriving DecidableEq, Repr

/-! ### Chapter 04: metrology acquisition -/

/-- A trial calibration (R91): the fields of record 0x0303. -/
structure Trial where
  gain   : Nat
  offset : Int
  delay  : Int
  deriving DecidableEq, Repr

/-- Grid-coherent sample k: the corrected value in 2^-8 code (R80) and whether R98 excludes it. -/
structure Sample where
  k    : Nat
  y    : Int
  excl : Bool
  deriving DecidableEq, Repr

/-- Acquisition state of one channel. -/
structure ChanState where
  trial     : Option Trial
  /-- A trial accepted and not yet in force: none, or the set (R91). -/
  nextTrial : Option Trial
  /-- The trial ends at the next boundary (R91). -/
  dropTrial : Bool
  /-- STUCK stands (R75), and the whole dial cycles since the last stuck run. -/
  stuck     : Bool
  sinceStuck : Nat
  stuckEvents : Nat
  /-- Events of the running cycle: stuck run, overrange, clip. -/
  stuckRun  : Bool
  overrange : Bool
  clip      : Bool
  /-- The latest sample of the protection path, its polarity applied (R74). -/
  prot      : Int
  /-- Flag word of the last complete dial cycle (R81, R92). -/
  flagsLast : BitVec 16
  /-- Samples of the running and of the previous dial cycle in bank 6. -/
  cur       : List Sample
  prev      : List Sample
  /-- Samples and flag words of cycles before the previous one that an open window still takes, the newest first (R121). -/
  older     : List (List Sample)
  olderWord : BitVec 16
  deriving DecidableEq, Repr

/-- The measurement of opcode 0x0301 (R90). -/
structure Measure where
  port      : Port
  seq       : U32
  cls       : Nat
  channel   : Nat
  reference : Nat
  mode      : Nat
  wanted    : Nat
  started   : Bool
  flags     : BitVec 16
  /-- Raw samples of the running cycle, mode 0 only. -/
  rawCur    : List (Nat × Int)
  /-- Samples of channel and reference in each whole cycle so far, each with its number k, newest cycle first. -/
  cycles    : List (List (Nat × Int) × List (Nat × Int))
  deriving DecidableEq, Repr

/-- The metrology path (chapter 04). -/
structure Acquisition where
  /-- The records of subsystem 0x03 in force on the path (R84). -/
  recs       : List Rec
  /-- A new image waits for the next boundary (R84). -/
  reload     : Bool
  mclkOn     : Bool
  mclkCode   : Nat
  /-- MCLK is stopped for the running cycle (R84). -/
  mclkStop   : Bool
  restartLeft : Nat
  /-- t0 of R77 in 400 MHz clocks. -/
  t0         : Nat
  held0      : Bool
  held1      : Bool
  /-- The LEGAL slot that MET0 and MET1 run; the engines that still have to load it, in turn, and the one that does so in the
  running cycle (R424). -/
  legalB     : Bool
  toLoad     : List Nat
  loading    : Option Nat
  /-- A covered engine's channels are processed in this cycle (R83). -/
  coverNow   : Bool
  chans      : List ChanState
  /-- Cycle count, quality word and Tc placed with the last complete cycle (R81). -/
  lastCycle  : U32
  lastQuality : BitVec 16
  lastTc     : Nat
  /-- Every cycle of an open window before the previous cycle carried LOCKED (R121). -/
  olderLocked : Bool
  measure    : Option Measure
  deriving DecidableEq, Repr

/-! ### Chapter 05: energy registers -/

/-- A register of the working set (R108, R109). `run` counts the windows of a run of EXCLUDED or NO_DATA (R110). -/
structure Register where
  acc     : Int
  residue : Nat
  window  : BitVec 16
  sticky  : BitVec 16
  session : BitVec 16
  run     : Nat
  deriving DecidableEq, Repr

/-- A register as a commit slot holds it (R114). -/
structure SlotRegister where
  acc     : Int
  residue : Nat
  window  : BitVec 16
  sticky  : BitVec 16
  deriving DecidableEq, Repr

/-- State of a pulse output (R122, R123); `conducting` is the output pin. -/
structure Pulse where
  counter    : U32
  remainder  : Int
  backlog    : Nat
  conducting : Bool
  deriving DecidableEq, Repr

/-- A commit slot of the energy area (R114). -/
structure CommitSlot where
  number   : U32
  stamp    : Stamp
  epoch    : Nat
  utc      : Option Nat
  partialKind : Bool
  part0    : Bool
  part1    : Bool
  regs     : List SlotRegister
  pulses   : List Pulse
  deriving DecidableEq, Repr

/-- Values of the last committed window (R132): four per outlet, four per grid phase. -/
structure WindowValues where
  outlets   : List Int
  phases    : List Int
  frequency : Nat
  neutral   : Int
  cycle     : U32
  deriving DecidableEq, Repr

/-- Energy and quantities (chapter 05). -/
structure Energy where
  /-- The records of subsystem 0x04 in force on the path, and a new image waiting (R129). -/
  recs       : List Rec
  reload     : Bool
  regs       : List Register
  slot0      : CommitSlot
  slot1      : CommitSlot
  markStamp  : Stamp
  markEpoch  : Nat
  /-- Marker state: 0 running, 1 HOLD entered, 2 partial commit done (R114). -/
  markState  : Nat
  pulses     : List Pulse
  /-- Outputs stay released until the first regular commit (R125). -/
  pulsesHeld : Bool
  /-- The first sample that the open window takes: how many dial cycles before the running one, and its index (R97, R121). -/
  openAge    : Nat
  openK      : Nat
  /-- The open window carries PARTIAL or LOST (R121, R116). -/
  nextPartial : Bool
  nextLost   : Bool
  /-- In HOLD, the partial commit is still to come (R119). -/
  tail       : Bool
  /-- Restores accepted by opcode 0x0405 and not yet in force (R133). -/
  restore    : List (Nat × Int)
  values     : WindowValues
  /-- Coolant temperature received over the converter bus, 0.1 °C, while not timed out (R104). -/
  coolant    : PerOutlet (Option Int)
  /-- A register changed since the last snapshot (R117). -/
  changed    : Bool
  deriving DecidableEq, Repr

/-! ### Chapter 06: vehicle links -/

/-- The protocol timers of R153 that are running, in the order of its rows. -/
structure Timers where
  sequence   : Bool
  commSetup  : Bool
  ready      : Bool
  cpState    : Bool
  tcpWait    : Bool
  respLoop   : Bool
  respOther  : Bool
  deriving DecidableEq, Repr

/-- A matching run (R143): the step waited at (0: no run), the run identifier, the sounds and their sums per
carrier group. -/
structure Matching where
  step    : Nat
  runId   : Option (BitVec 64)
  /-- TT_EVSE_match_MNBC has been started. -/
  mnbc    : Bool
  sounds  : Nat
  sums    : List Nat
  retries : Nat
  /-- State F of a retry is applied (R144). -/
  inRetry : Bool
  deriving DecidableEq, Repr

/-- Counters of opcode 0x0502. -/
structure LinkCounters where
  runs     : Nat
  failures : Nat
  tlsFails : Nat
  timers   : Nat
  invalid  : Nat
  dropped  : Nat
  deriving DecidableEq, Repr

/-- The vehicle link of one outlet (chapter 06). -/
structure Link where
  /-- The generator's output; held at 0 V while the module is absent (R135). -/
  gen       : Generator
  /-- The commanded output, restored after HOLD (R474). -/
  commanded : Generator
  /-- The output that begins with the next PWM period (R138). -/
  next      : Option Generator
  /-- Recognised pilot state (R137); none while recognition starts afresh (R136). -/
  pilot     : Option PilotState
  diodeFault : Bool
  matchFail : Bool
  certUnchecked : Bool
  /-- Proximity report (R140): 0, 13, 20, 32, 63 or 255. -/
  prox      : Nat
  /-- 0 down, 1 matching, 2 up. -/
  link      : Nat
  matching  : Matching
  meanAtten : Nat
  pwmOnly   : Bool
  nmk       : BitVec 128
  t1sMac    : Option (BitVec 48)
  security  : Nat
  tcpPort   : Nat
  tcpOpen   : Bool
  /-- 0 none, 1 = 1.2, 2 = 1.3. -/
  tls       : Nat
  protocol  : Option Protocol
  timers    : Timers
  /-- The non-loop request held for the domain (R155). -/
  held      : Option Nat
  /-- Its response timer has expired. -/
  heldLate  : Bool
  /-- The standing reply (R154), its generation count, and whether its validity has passed (R157). -/
  reply     : StandingFields
  replyGen  : U32
  replyOver : Bool
  counters  : LinkCounters
  /-- A pilot test runs (R163). -/
  test      : Bool
  deriving DecidableEq, Repr

/-! ### Chapter 07: sessions -/

/-- Session states (R167). -/
inductive SState where
  | s0 | s1 | s2 | s3 | s4 | s5 | s6 | s7 | s8 | s9 | se
  deriving DecidableEq, Repr

/-- The host query of a session (R175, R201). -/
inductive Query where
  | none | pending | byPolicy | answered
  deriving DecidableEq, Repr

/-- A credential: kind (R173), identifier and the Sieve's 12 hash bytes. -/
structure Credential where
  kind : Nat
  ident : List Byte
  hash : BitVec 96
  /-- Reader port 0 or 1, 0xFF from the vehicle. -/
  port : Nat
  deriving DecidableEq, Repr

/-- Account reference and energy limit that an authorisation carries (R176, R200). -/
structure Grant where
  account : Nat
  limit   : Int
  deriving DecidableEq, Repr

/-- What the converter of an outlet last reported (R187, R189). -/
structure Converter where
  state    : Nat
  echo     : Nat
  fault    : Nat
  voltage  : Nat
  current  : Int
  power    : Int
  lost     : Bool
  coolant  : Option Int
  temperature : Option Int
  maxVoltage : Nat
  maxCurrent : Int
  maxPower : Int
  /-- Echo lags since the last entry 0x0606, the longest in ms, and that entry's time. -/
  lags     : Nat
  longest  : Nat
  lagLog   : Option Nat
  deriving DecidableEq, Repr

/-- The session of one outlet (chapter 07). -/
structure Session where
  state     : SState
  number    : Nat
  /-- Last end reason, 0 none yet (R170); the cause that ramps the session down. -/
  reason    : Nat
  cause     : Nat
  closed    : Bool
  /-- Causes of the running grid cycle and the cycle they arose in (R170). -/
  causes    : List Nat
  causeCycle : U32
  /-- 0 none, 1 pending, 2 accepted, 3 refused. -/
  auth      : Nat
  /-- The path of the authorisation in force, as entry 0x0602 codes it. -/
  authPath  : Option Nat
  grant     : Grant
  /-- The Sieve accepted a prepaid entry (R281). -/
  prepaid   : Bool
  cred      : Option Credential
  query     : Query
  informational : Bool
  preAuth   : Option Grant
  /-- Origin of the pre-authorisation (R202). -/
  preOrigin : Nat
  startUtc  : Option Nat
  startStamp : Stamp
  s2Order   : Nat
  s2Cycle   : U32
  s6Order   : Nat
  s6Cycle   : U32
  ev        : EvParams
  /-- Allocation in force and, when received, that of the next cycle (R191), W. -/
  alloc     : Int
  nextAlloc : Option Int
  /-- When the allocation last changed, ms (R365), and since when it has been more than 10 % off the schedule offered (R198). -/
  allocSince : Nat
  offSince  : Option Nat
  /-- Contactor drive request (R203). -/
  drive     : Bool
  checkDone : Bool
  /-- PowerDelivery with start seen (R169). -/
  started   : Bool
  /-- The vehicle's target voltage of precharge, 10 mV (R182). -/
  preVoltage : Nat
  /-- An AC outlet's vehicle has paused in S6 (R169). -/
  paused    : Bool
  /-- Phase currents above 1 A in the last window of S6, none before one (R191). -/
  phases    : Option Nat
  setpoint  : Setpoint
  setSeq    : Byte
  /-- The setpoint the converter last received (R222). -/
  inForce   : Setpoint
  bpt       : Bool
  dynamic   : Bool
  /-- Power target of a BPT session once opcode 0x0609 has set one (R197). -/
  target    : Option Int
  offered   : Option Int
  outOfService : Bool
  /-- An availability command that waits for S9 or S0 (R201). -/
  availLater : Option Bool
  deriving DecidableEq, Repr

/-- Result of the last Sieve load (opcode 0x0606). -/
structure SieveResult where
  transfer : Nat
  written  : Nat
  noSpace  : Nat
  skipped  : Nat
  deleted  : Nat
  notFound : Nat
  state    : Nat
  status   : Nat
  deriving DecidableEq, Repr

/-- A complete Sieve load that is being applied (R180): its origin, transfer ID and object. -/
structure SieveLoad where
  origin   : Nat
  transfer : Nat
  bytes    : List Byte
  deriving DecidableEq, Repr

/-- A trip frame that waits at the head of the queues (R211). -/
structure TripWait where
  mask   : Nat
  reason : Nat
  counter : Byte
  deriving DecidableEq, Repr

/-- Session state of the module as a whole. -/
structure Sessions where
  out       : PerOutlet Session
  conv      : PerOutlet Converter
  /-- The latest session number (R200) and the counter that orders entries into S2 and S6. -/
  lastNumber : Nat
  order     : Nat
  heldCard  : Option Credential
  sieve     : SieveResult
  loading   : Option SieveLoad
  heartbeat : Byte
  tripCount : Byte
  tripWait  : Option TripWait
  /-- Frames queued behind a trip frame that waits, oldest first (R211). -/
  canQueue  : List CanOut
  /-- Site budget of the stack in W once received, and whether it is stale (R195). -/
  siteBudget : Option Int
  /-- When the site budget arrived, ms. -/
  siteAt    : Nat
  siteStale : Bool
  /-- Cycles without an allocation (R195). -/
  noAlloc   : Nat
  deriving DecidableEq, Repr

/-! ### Chapter 08: Hedge and Scarecrow -/

/-- Insulation status (R217). -/
inductive Insul where
  | none | valid | warning | fault
  deriving DecidableEq, Repr

/-- Insulation monitor of one outlet (R215 to R217). Plateaus in µV. -/
structure Imd where
  running   : Bool
  positive  : Bool
  selfTimed : Bool
  /-- The latest plateau of each polarity and the mean of the cycles before it. -/
  plus      : Option (Int × Int)
  minus     : Option (Int × Int)
  /-- Half-periods since drive came on; half-periods without a value. -/
  halves    : Nat
  noValue   : Nat
  /-- Dial cycle boundaries since the polarity changed (R215). -/
  cycles    : Nat
  /-- The latest value in kΩ and the values of this session. -/
  value     : Option Nat
  count     : Nat
  status    : Insul
  /-- Consecutive values below the warning and fault thresholds, and at or above the warning threshold. -/
  belowWarn : Nat
  belowFault : Nat
  aboveWarn : Nat
  deriving DecidableEq, Repr

/-- Hedge's state for one outlet. -/
structure HedgeOutlet where
  /-- Latched trip bits 0 to 6 (R209), and those whose cause remains. -/
  latched   : BitVec 7
  causes    : BitVec 7
  permit    : Bool
  /-- A permit has been granted since the request came (R207). -/
  granted   : Bool
  /-- The Hedge-owned series switches are closed (R203). -/
  closed    : Bool
  /-- A trip has removed the permit and the contactor delay runs (R209). -/
  delaying  : Bool
  /-- A trip that the active domain has not seen yet, and whether it was a weld (R209). -/
  newTrip   : Bool
  newWeld   : Bool
  imd       : Imd
  weldRun   : Bool
  /-- Highest |OnV| of the weld check, 10 mV. -/
  weldHigh  : Nat
  weldInconclusive : Bool
  /-- The residual readings of an AC outlet, µA (R214). -/
  residualDc : Int
  residualAc : Int
  /-- High and low plateau of the pilot at Hedge's own comparators, mV (R218). -/
  high      : Int
  low       : Int
  deriving DecidableEq, Repr

/-- Scarecrow's state for one outlet. -/
structure Scarecrow where
  permit    : Bool
  /-- A permit has been granted since the request came (R208); it has not been renewed for 50 ms (R206). -/
  granted   : Bool
  lapsed    : Bool
  ramp      : Bool
  cut       : Bool
  /-- Milliseconds each check of R221 has persisted, rows 1 to 7. -/
  persist   : List Nat
  /-- Milliseconds since drive came on. -/
  closedFor : Nat
  iDer      : Int
  /-- The previous I_alloc and how many ms of the 2 ms of R222 are left. -/
  prevAlloc : Int
  prevLeft  : Nat
  deriving DecidableEq, Repr

/-- Safe-frame state of one source (R227). `seq` is S. -/
structure SafeSource where
  slot    : Nat
  seq     : Option U32
  /-- Copies that wait for their pair, oldest first: path and bytes. -/
  waiting : List (Path × List Byte)
  /-- The group trip request of its last frame. -/
  group   : Bool
  /-- A mismatch, a missing copy or a missing pair since its last matched pair. -/
  fault   : Bool
  deriving DecidableEq, Repr

/-- Hedge's module state (chapter 08). -/
structure Hedge where
  out       : PerOutlet HedgeOutlet
  scr       : PerOutlet Scarecrow
  /-- Module latches of R209 and those whose cause remains. -/
  estop     : Bool
  wiring    : Bool
  safeFault : Bool
  group     : Bool
  fault     : Bool
  /-- No request of a member has come for 1 s since the group trip (R209). -/
  groupGone : Bool
  /-- Filtered contacts (R213). -/
  openA     : Bool
  openB     : Bool
  /-- Both channels have been open together since the wiring fault (R209). -/
  bothOpened : Bool
  /-- Consecutive periods without the own pulse. -/
  missA     : Nat
  missB     : Nat
  /-- Test-pulse outputs ESTOP_TA and ESTOP_TB are high. -/
  pinTA     : Bool
  pinTB     : Bool
  /-- The 300-byte block in Hedge's store (R229), none before it is loaded; a block that waits (R232). -/
  block     : Option (List Byte)
  nextBlock : Option (List Byte)
  mismatch  : Bool
  confirmed : Bool
  /-- Stored confirmed value in retention SRAM (R231, R483). -/
  stored    : Option (BitVec 32)
  wrongTimes : List Nat
  lockedOut : Bool
  safeOk    : Bool
  /-- Sequence of the own safe frame sent next, state byte last sent, and the frame that waits for a slot (R226). -/
  safeSeq   : U32
  lastState : Byte
  safeWait  : Option (List Byte)
  safeDiscards : Nat
  sources   : List SafeSource
  deriving DecidableEq, Repr

/-! ### Chapter 09: switch channels -/

/-- One protected switch channel (R243 to R260). -/
structure Switch where
  commanded : Bool
  /-- Latches of R250: SHORT, OVERCURRENT, THERMAL_LATCH, GROUP_SHED. -/
  short     : Bool
  overcur   : Bool
  thermalLatch : Bool
  shed      : Bool
  /-- Off for temperature with a restart pending (R251). -/
  thermal   : Bool
  openLoad  : Bool
  undervoltage : Bool
  /-- The channel waits for its request to be withdrawn and made again (R250, R254). -/
  needsCycle : Bool
  inrush    : Bool
  /-- Consecutive thermal switch-offs, and when the channel last switched on again after one, ms. -/
  restarts  : Nat
  onSince   : Option Nat
  /-- Consecutive normal-path samples at or above the threshold in force (R248). -/
  overCount : Nat
  /-- When the inrush window ended, ms (R252). -/
  inrushEnd : Nat
  /-- Output conducting. -/
  on        : Bool
  /-- Thresholds and use in force: the payload of record 0x0801 as read (R255, R256). -/
  setup     : List Byte
  /-- Those of a new image that wait until the channel's drive is off (R255). -/
  nextSetup : Option (List Byte)
  deriving DecidableEq, Repr

/-- A current capture (R259). -/
structure Capture where
  port    : Port
  seq     : U32
  cls     : Nat
  channel : Nat
  count   : Nat
  cycle   : U32
  deriving DecidableEq, Repr

/-- The switch controller (chapter 09). -/
structure Switches where
  chans    : List Switch
  /-- 1 s means of the groups in mA and GROUP_OVER (R253). -/
  means    : List Nat
  overFlags : List Bool
  /-- Groups released by undervoltage (R254). -/
  released : List Bool
  /-- Lowest VSWg of the release that stands or stood last, 10 mV. -/
  lowest   : List Nat
  /-- Group checks above 10 A up to and since the latest shedding, 0 while the mean is not above (R253). -/
  overChecks : List Nat
  capture  : Option Capture
  deriving DecidableEq, Repr

/-! ### Chapter 10: tariffs, demand, accounts, records, tamper -/

/-- Billing state of one outlet (R266). -/
structure OutletBill where
  cost      : Int
  remainder : Nat
  /-- The prepaid account, when the session is prepaid. -/
  account   : Option Nat
  opened    : Bool
  emergency : Bool
  friendly  : Bool
  reported  : Bool
  /-- Residue of the session cost (R18, R266). -/
  residue   : Nat
  /-- The session cost failed its residue check (R267). -/
  stopped   : Bool
  deriving DecidableEq, Repr

/-- A billing slot (R266); `complete` is its last byte. Tariff values are in the order 3k + q. -/
structure BillingSlot where
  number   : U32
  tariff   : Nat
  complete : Bool
  forced   : Bool
  partialCommit : Bool
  onRestore : Bool
  period   : Nat
  values   : List Int
  /-- Residues of the values, in the same order. -/
  residues : List Nat
  outlets  : PerOutlet OutletBill
  deriving DecidableEq, Repr

/-- A demand block (R273). -/
structure DemandBlock where
  update   : U32
  start    : Nat
  pos      : Nat
  filled   : Nat
  incomplete : Bool
  stepped  : Bool
  clockInvalid : Bool
  maxMask  : BitVec 16
  ringMask : BitVec 16
  source   : Int
  ring     : List Int
  /-- Maximum demand of each tariff and its UTC second. -/
  maxima   : List (Int × Nat)
  /-- CRC-32C of the fields before it, as of its writing. -/
  crc      : U32
  deriving DecidableEq, Repr

/-- A prepaid account (R280). Windows are (start, end) in local minutes. -/
structure Account where
  index     : Nat
  emergencyAllowed : Bool
  emergencyInUse : Bool
  balance   : Int
  limit     : Int
  windows   : List (Nat × Nat)
  deriving DecidableEq, Repr

/-- A copy of the account store in flash (R284). -/
structure AccountStore where
  generation : Nat
  lastRecord : Nat
  accounts  : List Account
  /-- CRC-32C of the entries. -/
  crc       : U32
  deriving DecidableEq, Repr

/-- What a session record says of its outlet and its authorisation (R285): outlet type, protocol code, path, credential
kind, account reference and hash. -/
structure RecordInfo where
  otype    : Nat
  protocol : Nat
  path     : Option Nat
  kind     : Nat
  account  : Nat
  hash     : BitVec 96
  deriving DecidableEq, Repr

/-- What an open session fixed at its start (R285), and its segments. -/
structure OpenRecord where
  number    : Nat
  startUtc  : Option Nat
  startStamp : Stamp
  startEpoch : Nat
  /-- Import, export at the meter point and at the connector at the start. -/
  starts    : List Int
  /-- Tariff and energy of each segment, in the order of first energy (R285). -/
  segments  : List (Nat × Int)
  moreTariffs : Bool
  clockStep : Bool
  friendly  : Bool
  emergency : Bool
  /-- Set when a power cut closed off the session: what its record says of it (R285). -/
  cut       : Option RecordInfo
  deriving DecidableEq, Repr

/-- A session record in RECORDS: its number, the account it debits with its cost, and its 256 bytes (R285). -/
structure SessionRecord where
  number  : Nat
  debit   : Option (Nat × Int)
  bytes   : List Byte
  deriving DecidableEq, Repr

/-- A billing period record in RECORDS (R270): period, end UTC, tariff values, and its 616 bytes. -/
structure PeriodRecord where
  number  : Nat
  endUtc  : Option Nat
  values  : List Int
  bytes   : List Byte
  deriving DecidableEq, Repr

/-- An event of the tamper store (R288). -/
structure TamperEvent where
  utc     : Option Nat
  input   : Nat
  opened  : Bool
  battery : Bool
  deriving DecidableEq, Repr

/-- The tamper inputs and their store (R287, R288). `differs` marks inputs whose last sample differed. -/
structure Tamper where
  opened   : BitVec 4
  differs  : BitVec 4
  enabled  : BitVec 4
  events   : List TamperEvent
  writePos : Nat
  overflow : Nat
  unacked  : Bool
  deriving DecidableEq, Repr

/-- The billing control block in bank 10 (R265): generation, tariff in force, whether the invalid clock forces T0, the price
table, and each outlet's prepaid account. -/
structure ControlBlock where
  generation : U32
  tariff   : Nat
  forced   : Bool
  prices   : List Nat
  accounts : PerOutlet (Option Nat)
  deriving DecidableEq, Repr

/-- Billing state (chapter 10). -/
structure Billing where
  /-- The billing control block as the last evaluation wrote it, and as commits of this cycle read it (R265, R35). -/
  control   : ControlBlock
  inUse     : ControlBlock
  season    : Option Nat
  profile   : Option Nat
  values    : List Int
  /-- Values that failed their residue check (R267). -/
  stopped   : List Nat
  outlets   : PerOutlet OutletBill
  slot0     : BillingSlot
  slot1     : BillingSlot
  /-- Increments were added on restore; the next slot says so (R267). -/
  onRestore : Bool
  period    : Nat
  periodStart : Option Nat
  /-- End UTC of the last closed period (R268). -/
  lastEnd   : Option Nat
  pStep     : Bool
  pIncomplete : Bool
  pLost     : Bool
  deferred  : Bool
  /-- The catch-up of R276 waits for the first evaluation after a power-on or brown-out reset. -/
  afterCut  : Bool
  /-- The clock was stepped since the last evaluation (R277, R278). -/
  stepPending : Bool
  /-- The demand measurement that runs; the blocks below hold it as it was at a sub-interval end (R273). -/
  demand    : DemandBlock
  /-- Why the running sub-interval is incomplete: 0 it is not, else the cause of entry 0x0904. -/
  demandCause : Nat
  /-- The same for each power in the ring. -/
  ringCauses : List Nat
  demand0   : DemandBlock
  demand1   : DemandBlock
  lastDemand : Int
  /-- The sub-interval found by the previous evaluation; none before the first or while the clock is invalid. -/
  subInterval : Option Int
  /-- Slew remaining, ms (R277). -/
  slew      : Int
  accounts  : List Account
  accountsChanged : Bool
  storeA    : Option AccountStore
  storeB    : Option AccountStore
  lastRecord : Nat
  records   : List SessionRecord
  openRecs  : PerOutlet (Option OpenRecord)
  periods   : List PeriodRecord
  /-- The tariff table loaded by opcode 0x0907 and the serial stored with it (R296). -/
  table     : Option (Nat × List Rec)
  /-- The two copies of the tariff table store (R269, R296), and which was written last, copy B as true. -/
  tableA    : Option (Nat × List Rec)
  tableB    : Option (Nat × List Rec)
  tableLastB : Bool
  /-- A loaded table waits for the next evaluation. -/
  nextTable : Option (Nat × List Rec)
  /-- Origin of the loaded table that waits (R59). -/
  tableBy   : Nat
  tamper    : Tamper
  deriving DecidableEq, Repr

/-! ### Chapter 11: the legal display -/

/-- Display state (R315). -/
inductive DispState where
  | off | starting | scanning | vppFault | fontFault
  deriving DecidableEq, Repr

/-- The legal lane (R305): lines of 16 characters, the font of 1,536 bytes and its CRC-32C. -/
structure Lane where
  generation : U32
  cycle     : U32
  lines     : List (List Byte)
  marks     : BitVec 16
  font      : List Byte
  fontCheck : U32
  deriving DecidableEq, Repr

/-- Stress of one pixel that has any: its index 8,192p + 128r + k, counter, sub-accumulator, column current code, WORN. -/
structure Pixel where
  index   : Nat
  counter : Nat
  sub     : Nat
  code    : Nat
  worn    : Bool
  deriving DecidableEq, Repr

/-- A copy of the STRESS partition (R312). -/
structure StressCopy where
  generation : Nat
  serial    : List Byte
  utc       : Option Nat
  counters  : List (Nat × Nat)
  worn      : List Nat
  /-- CRC-32C of the counters, the worn bitmap and the reserved bytes (R312). -/
  check      : U32
  deriving DecidableEq, Repr

/-- The displays (chapter 11). -/
structure Display where
  state    : DispState
  dispEn   : Bool
  vpp      : Nat
  lane     : Lane
  /-- PNL's stable copy of the lane, once it has one (R306). -/
  shown    : Option Lane
  /-- Position in the legal list (R307). -/
  position : Nat
  /-- Rows of panel 1 that have been written: row and its 64 bytes, and those for the next frame. -/
  rows     : List (Nat × List Byte)
  nextRows : List (Nat × List Byte)
  test     : Option Nat
  pixels   : List Pixel
  copyA    : Option StressCopy
  copyB    : Option StressCopy
  /-- Newly WORN pixels not yet logged, and the time of the last entry 0x0A02, per panel. -/
  newWorn  : Nat × Nat
  wornLog  : Option Nat × Option Nat
  deriving DecidableEq, Repr

/-! ### Chapter 12: OTP and the Cistern -/

/-- The OTP (R317), the thermometer fields as counts. `floors` are the version floors of BOOT, LEGAL, APP,
ENGINE and CONFIG (R428). OTP is outside every reset. -/
structure Otp where
  serial      : List Byte
  macBase     : List Byte
  factoryDone : Bool
  rootValid   : Bool
  retired     : Bool
  root        : BitVec 256
  /-- Every root-secret pair reads 0b11 (R335). -/
  rootDestroyed : Bool
  updateKeys  : List (BitVec 512)
  programmed  : BitVec 4
  revoked     : BitVec 4
  entriesY    : Nat
  exitsX      : Nat
  keyCounter  : Nat
  floors      : List Nat
  deriving DecidableEq, Repr

/-- A wrapped key in a key block (R330): class, generation, the measurement it is wrapped under, its nonce, the key. -/
structure Blob where
  cls  : Nat
  gen  : Nat
  meas : BitVec 256
  nonce : BitVec 96
  key  : BitVec 256
  deriving DecidableEq, Repr

/-- A metrology key statement (R346) with its state: 0 pending, 1 in force, 2 superseded (R329). -/
structure Statement where
  state  : Nat
  kind   : Nat
  signer : Nat
  number : Nat
  utc    : Option Nat
  cycle  : U32
  epoch  : Nat
  gen    : Nat
  meas   : BitVec 256
  pub    : BitVec 512
  prev   : BitVec 256
  sig    : BitVec 512
  deriving DecidableEq, Repr

/-- A key block (R329). -/
structure KeyBlock where
  writeGen   : Nat
  gen        : Nat
  blobs      : List Blob
  statements : List Statement
  deriving DecidableEq, Repr

/-- The key tail of an APP slot: two copies of the key block (R328); none: erased. -/
structure KeyTail where
  copy0 : Option KeyBlock
  copy1 : Option KeyBlock
  deriving DecidableEq, Repr

/-- The Cistern (chapter 12): the key store, fault flags, measurement registers and key blocks. -/
structure Cistern where
  identity  : Option (BitVec 256)
  metrology : Option (BitVec 256)
  tls       : Option (BitVec 256)
  wadi      : Option (BitVec 256)
  trellis   : Option (BitVec 256)
  hostKey   : Option (BitVec 256)
  cisFault  : Bool
  lcFault   : Bool
  trngFault : Bool
  /-- The life-cycle state read or entered last: 0 BLANK to 4 RETIRED (R332, R333). -/
  lifecycle : Nat
  /-- The one-way measurement registers (R323). -/
  legalMeas : BitVec 256
  appMeas   : BitVec 256
  scramble  : BitVec 64
  maskSeed  : BitVec 64
  tailA     : KeyTail
  tailB     : KeyTail
  keyNumber : Nat
  /-- The region whose migration runs or whose image awaits confirmation (R344). -/
  migrating : Option Nat
  /-- OTP pair errors since start (R350). -/
  pairErrors : Nat
  deriving DecidableEq, Repr

/-! ### Chapter 13: domain takeover and the Trellis link -/

/-- A demand entry (R373) of the stack. -/
structure Demand where
  slot     : Nat
  outlet   : Nat
  state    : Nat
  type     : Nat
  weight   : Nat
  demand   : Int
  order    : U32
  rotation : Nat
  phases   : Nat
  bpt      : Bool
  target   : Int
  deriving DecidableEq, Repr

/-- Allocations of one slot's outlets 0 to 3, W. -/
structure SlotAlloc where
  slot  : Nat
  watts : List Int
  deriving DecidableEq, Repr

/-- A member status message (R372). -/
structure MemberStatus where
  slot   : Nat
  health : Nat
  flags  : Nat
  check  : Nat
  deriving DecidableEq, Repr

/-- The Trellis link and the stack (R367 to R379). -/
structure Trellis where
  /-- 0 alone, 1 member, 2 spare, 3 master. -/
  role      : Nat
  /-- The module listens before it takes a role, or after it stopped sending sync. -/
  listening : Bool
  masterSlot : Nat
  spareSlot : Nat
  term      : U16
  highTerm  : U16
  frame     : U32
  index     : Nat
  frames    : Nat
  /-- Frame starts since the last valid sync; the module sends nothing. -/
  missed    : Nat
  silent    : Bool
  present   : BitVec 16
  /-- Frame starts since the last valid frame in each slot. -/
  absentRun : List Nat
  /-- Frames left in which the own slot frame carries joining. -/
  joining   : Nat
  failedA   : Bool
  failedB   : Bool
  errorsA   : U32
  errorsB   : U32
  macFails  : U32
  shadowDiffs : U32
  budgetDiffers : Bool
  masterCheck : Nat
  /-- Target of a transfer and the frames in which transfer pending is still sent. -/
  transfer  : Option (Nat × Nat)
  readback  : Nat
  /-- Frames to wait before listening again (R377). -/
  backoff   : Nat
  demands   : List Demand
  allocs    : List SlotAlloc
  rotation  : Nat
  shadow    : List SlotAlloc
  /-- AC reductions held off the budget (R193): slot, outlet, W, oldest first. -/
  reductions : List (Nat × Nat × Int)
  statuses  : List MemberStatus
  /-- Site budget, its age and the export limit of the latest master state message. -/
  siteState : Option (Int × Nat × Int)
  /-- Dial cycle of the allocations in `allocs` or `shadow` (R374). -/
  allocCycle : Option U32
  /-- Site budget that a new master knew as a member, and the ms at which it arrived (R195). -/
  adopted   : Option (Int × Nat)
  /-- Budget in force, as the sync frames carry it. -/
  budget    : Int
  takeoverCycle : Option U32
  deriving DecidableEq, Repr

/-! ### Chapter 14: the Wadi -/

/-- Replay state of a source (R395). -/
structure Replay where
  node    : Nat
  slot    : Nat
  epoch   : U16
  counter : U32
  deriving DecidableEq, Repr

/-- A neighbour of the Wadi (R414), with what the receiver keeps of it: its frames' class run (R392) and its latest node
beacon (R400). -/
structure Neighbour where
  node     : Nat
  index    : Nat
  q        : Nat
  runQ     : Nat
  runLen   : Nat
  counter  : U32
  heard    : Nat
  snr      : Int
  mode     : Nat
  present  : Bool
  master   : Bool
  stack    : Bool
  slot     : Nat
  weight   : Nat
  beaconSnr : Int
  demand   : Int
  dcDemand : Int
  acDemand : List Nat
  priority : Nat
  budget   : Int
  caps     : List Nat
  /-- Superframe in which its allocation entry was last sent (R408). -/
  renewed  : Nat
  deriving DecidableEq, Repr

/-- A frame this node sent, kept for resends (R401): counter, destination, type, body, resends so far. -/
structure SentFrame where
  counter : U32
  dest    : Nat
  type    : Nat
  mode    : Nat
  body    : List Byte
  resends : Nat
  deriving DecidableEq, Repr

/-- A resend request (R400). -/
structure Resend where
  source : Nat
  slot   : Nat
  low    : Nat
  deriving DecidableEq, Repr

/-- The Wadi (chapter 14). -/
structure Wadi where
  /-- 0 off, 1 listening, 2 joining, 3 member, 4 site master. -/
  role      : Nat
  index     : Option Nat
  masterNode : Nat
  masterSlot : Nat
  masterPriority : Nat
  superframe : U32
  /-- Site cycle within the superframe; none before a beacon is heard. -/
  position  : Option Nat
  ownQ      : Nat
  ownMode   : Nat
  beaconSnr : Int
  siteBudget : Option Int
  caps      : List Nat
  sent      : U32
  received  : U32
  checkFails : U32
  blanked   : U32
  resends   : U32
  txEpoch   : U16
  txCounter : U32
  history   : List SentFrame
  /-- Resend requests to place in the next node beacon, and frames to send again. -/
  requests  : List Resend
  again     : List SentFrame
  neighbours : List Neighbour
  replays   : List Replay
  /-- The beacon of the running superframe (R397). -/
  count     : Nat
  rotation  : Nat
  owner     : Option Nat
  windows   : Nat
  /-- Superframes without a beacon and, for a joining node, without an entry. -/
  silent    : Nat
  /-- Superframes since a join request was sent, from 1; 0: none was (R399). -/
  joinWait  : Nat
  joinAt    : Option Nat
  /-- Indices the master has assigned: node and index. -/
  indices   : List (Nat × Nat)
  /-- The node beacon's content in bank 7, as a domain last wrote it (R410). -/
  beacon    : List Byte
  /-- The stack's mastership came to this module in the running superframe (R404). -/
  heldBack  : Bool
  /-- The previous own window carried a node beacon (R398). -/
  lastBeacon : Bool
  /-- A duplicate of the own node was heard (R415). -/
  duplicate : Bool
  /-- Mode of a transmit test that runs (R414). -/
  test      : Option Nat
  deriving DecidableEq, Repr

/-! ### Chapter 15: updates, the slot directory, sowing -/

/-- A region slot (R416): the package header kept in the directory, and the stored bytes. -/
structure RegionSlot where
  header : Option (List Byte)
  data   : List Byte
  deriving DecidableEq, Repr

/-- An updatable region (R417, R436): its slots and its update. -/
structure Region where
  slotA    : RegionSlot
  slotB    : RegionSlot
  status   : Nat
  transfer : Nat
  received : Nat
  /-- Header of the package being received; path 0 host, 1 sowing, 2 recovery. -/
  incoming : Option (List Byte)
  path     : Nat
  deriving DecidableEq, Repr

/-- A target of a sowing (R430, opcode 0x0E09). -/
structure SowTarget where
  node   : Nat
  status : Nat
  hop    : Nat
  held   : Nat
  deriving DecidableEq, Repr

/-- A sowing that this module runs as master (R430) or passes on as a target (R431 to R433). -/
structure Sowing where
  id       : Nat
  region   : Nat
  slot     : Nat
  policy   : Nat
  master   : Bool
  /-- Still running; a finished one is kept for opcode 0x0E09. -/
  running  : Bool
  targets  : List SowTarget
  /-- The package header, the block stream received without a gap, how much of it is verified, and bytes beyond a gap. -/
  header   : List Byte
  stream   : List Byte
  verified : Nat
  ahead    : List (Nat × List Byte)
  /-- The receiver of the own hop (0 none), the offset sent next, and how much of the sowing header it has been sent. -/
  next     : Nat
  position : Nat
  headerSent : Nat
  /-- The image is stored here too; the own update's status, 0xFF pending. -/
  storing  : Bool
  status   : Nat
  /-- The master's rotation over the chain's senders; the last target owes its report. -/
  turn     : Nat
  deriving DecidableEq, Repr

/-- Updates (chapter 15). -/
structure Update where
  boot     : Region
  legal    : Region
  app      : Region
  engine   : Region
  config   : Region
  /-- The directory's copy in use, generation, confirmed and trial masks, owner lock and trial start (R417). -/
  copyB    : Bool
  generation : U32
  confirmed : BitVec 5
  trial    : BitVec 5
  lock     : Bool
  trialStart : Option Nat
  /-- The boot ledger (R417), newest entry first. -/
  ledger   : List Nat
  /-- The ENGINE slot in force of each engine in the order VL0 to VL3, WAD, SCR, FLD, PNL, CIS, HST (R425), B = true. -/
  inForce  : List Bool
  /-- The ENGINE slot that the last start settled. -/
  engineB  : Bool
  /-- Mask of an activation that waits for idle (R423). -/
  waiting  : Option Nat
  /-- Origins of the activation and of the fall back that wait (R59). -/
  waitingBy : Nat
  fallbackBy : Nat
  /-- Mask of an activation that proceeds once its response is sent. -/
  go       : Option Nat
  /-- A fall back that waits for its state conditions (R427): its cause. -/
  fallback : Option Nat
  completed : Bool
  /-- A sowing header that arrives in pieces (R431): its sowing ID and its bytes so far. -/
  sowHeader : Nat × List Byte
  sowing   : Option Sowing
  deriving DecidableEq, Repr

/-! ### Seeds and domains (chapter 13) -/

/-- What a seed's state image holds (R35, R360): the results of the cycle's commit and evaluation, and the areas of sessions,
allocation, billing, host, site and update. -/
structure SeedImage where
  /-- Number of the newest energy commit. -/
  commit    : U32
  sessions  : PerOutlet Session
  replies   : PerOutlet StandingFields
  replyGens : PerOutlet U32
  siteBudget : Option Int
  siteAt    : Nat
  siteStale : Bool
  role      : Nat
  term      : U16
  budget    : Int
  demands   : List Demand
  allocs    : List SlotAlloc
  reductions : List (Nat × Nat × Int)
  control   : ControlBlock
  subInterval : Option Int
  period    : Nat
  lastEnd   : Option Nat
  deferred  : Bool
  slew      : Int
  bills     : PerOutlet OutletBill
  transfers : List Transfer
  loading   : Option SieveLoad
  wadiRole  : Nat
  waiting   : Option Nat
  fallback  : Option Nat
  sowing    : Option Sowing
  migrating : Option Nat
  deriving DecidableEq, Repr

/-- A seed slot of bank 11 (R357, R358): whether its header check stands, the header fields, the state image, and the check
latch (none: its maximum value). -/
structure Seed where
  good    : Bool
  writer  : Nat
  flags   : Nat
  cycle   : U32
  epoch   : Nat
  first   : Nat
  version : Nat
  serial  : Nat
  image   : Option SeedImage
  latch   : Option Nat
  deriving DecidableEq, Repr

/-- A journal entry (R361). -/
structure JournalEntry where
  number : Nat
  stamp  : Stamp
  kind   : Nat
  object : Nat
  seq    : Nat
  deriving DecidableEq, Repr

/-- The two application domains (R353 to R366). Domain 0 is A, 1 is B. -/
structure Domains where
  active    : Nat
  /-- Health words (R356). -/
  healthA   : BitVec 32
  healthB   : BitVec 32
  /-- The domain that failed last, and the last cause (entry 0x0C01). -/
  failed    : Option Nat
  lastCause : Nat
  takeovers : Nat
  /-- Times of the restarts in place of the last hour, ms. -/
  restarts  : List Nat
  seed0     : Seed
  seed1     : Seed
  newest    : Nat
  /-- Entries since the older seed, newest first, and the number of the next one. -/
  journal   : List JournalEntry
  nextEntry : Nat
  /-- A commanded switch waits for a steady point; handback is suspended (R366). -/
  switchTo  : Bool
  suspended : Bool
  deriving DecidableEq, Repr

/-! ### Chapter 16: reader ports and the service tag -/

/-- A card delivered before (R441): its identifier and when it was removed, ms; none while it is present. -/
structure Delivered where
  ident   : List Byte
  removed : Option Nat
  deriving DecidableEq, Repr

/-- A reader port (R438 to R443). `state` is the code of opcode 0x0F01. -/
structure Reader where
  state    : Nat
  std      : Nat
  baseline : Int
  /-- The load as last measured. -/
  load     : Int
  /-- Consecutive deviating measurements; the port waits for its turn (R443). -/
  run      : Nat
  waiting  : Bool
  delivered : Nat
  empty    : Nat
  cards    : List Delivered
  deriving DecidableEq, Repr

/-- A copy of a tag block (R451): 32 data bytes, generation, and CRC-16. -/
structure TagCopy where
  data  : List Byte
  gen   : U16
  crc   : U16
  deriving DecidableEq, Repr

/-- A tag block that has been written: its copies, and the copy the marker names with the generation byte it holds. -/
structure TagBlock where
  index  : Nat
  copy0  : TagCopy
  copy1  : TagCopy
  marker : Option (Bool × Byte)
  deriving DecidableEq, Repr

/-- The service tag (R444 to R454). -/
structure Tag where
  blocks   : List TagBlock
  password : U32
  attempts : Nat
  locked   : Bool
  field    : Bool
  uid      : BitVec 32
  secured  : Bool
  /-- Nonce of a standing challenge (R449). -/
  nonce    : Option (BitVec 128 × Nat)
  fieldWrites : Nat
  abandoned : Nat
  /-- Opcode writes that are abandoned and tried again (R453): block, port, sequence, class. -/
  retrying : List (Nat × Port × U32 × Nat)
  /-- Request block 3 was written while the module was powered (R450). -/
  poweredRequest : Bool
  /-- Mirrored log entries: the next ring position and the index of the last one mirrored (R445). -/
  ring     : Nat
  mirrored : Nat
  deriving DecidableEq, Repr

/-! ### Chapter 17: the Rake -/

/-- The pass signature (R465). -/
structure PassSignature where
  utc     : Nat
  cycle   : U32
  epoch   : Nat
  kind    : Nat
  pattern : Nat
  serial  : List Byte
  deriving DecidableEq, Repr

/-- The states of the test access port's controller (R469, IEEE 1149.1). -/
inductive TapState where
  | testLogicReset | runTestIdle
  | selectDr | captureDr | shiftDr | exit1Dr | pauseDr | exit2Dr | updateDr
  | selectIr | captureIr | shiftIr | exit1Ir | pauseIr | exit2Ir | updateIr
  deriving DecidableEq, Repr

/-- The instructions of the test access port (R469). -/
inductive TapInstr where
  | bypass | idcode | samplePreload | extest
  deriving DecidableEq, Repr

/-- The test access port. -/
structure TestPort where
  state : TapState
  instr : TapInstr
  deriving DecidableEq, Repr

/-- The Rake (chapter 17). -/
structure Rake where
  tap       : TestPort
  signature : Option PassSignature
  /-- The magic of the signature block stands (R465). -/
  magic     : Bool
  lastKind  : Nat
  lastResults : List Nat
  lastUtc   : Option Nat
  /-- The run in progress: groups left, results so far, and whether the running group is run again (R460). -/
  left      : List Nat
  results   : List (Nat × Nat)
  repeated  : Bool
  /-- Entry 0x1001 of the last run is written at the next start (R472). -/
  unlogged  : Bool
  /-- Its duration in ms and peak power in 10 mW, where the step gave them. -/
  measured  : Option (Nat × Nat)
  /-- No start test forbids Hedge's permits (R467). -/
  permitOk  : Bool
  deriving DecidableEq, Repr

/-! ### Chapter 18: power and resets -/

/-- Power states (R473). -/
inductive PowerState where
  | run | idle | hold | battery | off
  deriving DecidableEq, Repr

/-- Where the module stands in a start (R475) or outside one: waiting for the holdup storage, waiting for PLL lock, booted and
not yet complete, an image that failed its check (R418), running, in ROM recovery, shut down (R479), in a Rake (R464), held in
reset (R20). -/
inductive Phase where
  | charging | pllWait | booting | bootFailed | running | recovery | shutDown | rake | heldReset | unpowered
  deriving DecidableEq, Repr

/-- A copy of the system block in retention SRAM (R483). -/
structure SystemBlock where
  generation : U32
  lastE0    : U32
  lastE1    : U32
  lastSpi   : U32
  session   : Nat
  check     : Nat
  confirmed : Bool
  weld      : Nat
  overflow  : Nat
  nextIndex : Nat
  deriving DecidableEq, Repr

/-- Power, resets and the reset button (chapter 18). Voltages in 10 mV. -/
structure Power where
  state     : PowerState
  phase     : Phase
  /-- Cause of the last start (R488), and the power state before it. -/
  cause     : Nat
  before    : Nat
  warmResets : Nat
  v24       : Nat
  lowest24  : Nat
  vbat      : Nat
  charged   : Bool
  vbatLow   : Bool
  retention : Bool
  retentionAtStart : Bool
  /-- STRAP_SLOT0 to 3 and the RECOVER strap, read at power-on. -/
  straps    : Slot
  recover   : Bool
  pressed   : Bool
  stuck     : Bool
  /-- An orderly reset that is pending: true for a recovery entry (R478), and whether the button asked for it. -/
  orderly   : Option (Bool × Bool)
  shutting  : Bool
  /-- The 10 s in which sessions may end before the shutdown have passed (R478, R479). -/
  expired   : Bool
  /-- A recovery entry that the button asked for (R484), for entry 0x0E08. -/
  byButton  : Bool
  /-- Outlets marked cut at HOLD entry (R474). -/
  cut       : PerOutlet Bool
  /-- The two copies of the system block (R483); none: no valid magic and CRC. -/
  system0   : Option SystemBlock
  system1   : Option SystemBlock
  startMs   : Nat
  startUtc  : Option Nat
  deriving DecidableEq, Repr

/-! ### The block -/

/-- The reasons a command can stop with a fault. There are none: every command of the table has an effect that the
manual gives. -/
inductive Fault where
  deriving DecidableEq, Repr

/-- The reasons a command is refused by the model. -/
inductive Refusal where
  /-- Raised by an arm of `exec` whose command has no meaning yet. Safe: the model stops. -/
  | notModelled (mnemonic : String)
  deriving DecidableEq, Repr

/-- The state of the block. `pending` is the queue of commands that wait, first in, first out. `clockMs` and
`freeCount` are the model's own (log entries 2 and 1): the milliseconds that idle steps count, and the free values
drawn so far. `out` is everything sent, newest first (log entry 3). -/
structure State where
  pending   : List Instr
  clockMs   : Nat
  freeCount : Nat
  out       : List Out
  power     : Power
  fabric    : Fabric
  sun       : Sundial
  cfg       : Configuration
  logs      : Logs
  host      : HostLink
  acq       : Acquisition
  energy    : Energy
  link      : PerOutlet Link
  sess      : Sessions
  hedge     : Hedge
  sw        : Switches
  bill      : Billing
  disp      : Display
  otp       : Otp
  cis       : Cistern
  dom       : Domains
  trellis   : Trellis
  wadi      : Wadi
  update    : Update
  reader0   : Reader
  reader1   : Reader
  tag       : Tag
  rake      : Rake
  deriving DecidableEq, Repr

/-! ### The machine right after reset

`State.reset` is the state at t = 0 of R475 after a power-on reset: nothing in flash or OTP beyond the table
defaults, retention not valid, the holdup storage not yet charged, every outlet absent (R485). Values that no rule
gives are named in log entry 10. -/

/-- A dial stamp of 0. -/
def Stamp.zero : Stamp := ⟨0, 0⟩

/-- Sundial at reset, FREEWHEEL, count and angle 0, UTC not valid at reset. -/
def Sundial.init : Sundial :=
  { mode := .freewheel, cycle := 0, angle := 0, frac := 0, freqWord := 0, epoch := 0, quality := 0x0048, gridFreq := 0,
    dialFreq := 50000, heldFreq := 50000, phaseErr := 0, within := false, goodRun := 0, missRun := 0, tc := 0, utc := 0,
    utcMark := 0, utcValid := false, trim := 0, pairUtc := 0xFFFFFFFF, pairStamp := .zero, lastUtc := 0xFFFFFFFF
    lastStamp := .zero }

/-- `Origin` at reset. -/
def Origin.init : Origin :=
  { lastSeq := 0, progress := [], recent := [], cache := [], drops := 0, eventSeq := 0, authFails := 0, authLog := none,
    authTimes := [] }

/-- `ChanState` at reset. -/
def ChanState.init : ChanState :=
  { trial := none, nextTrial := none, dropTrial := false, stuck := false, sinceStuck := 0, stuckEvents := 0,
    stuckRun := false, overrange := false, clip := false, prot := 0, flagsLast := 0, cur := [], prev := [],
    older := [], olderWord := 0 }

/-- `Acquisition` at reset. -/
def Acquisition.init : Acquisition :=
  { recs := [], reload := false, mclkOn := false, mclkCode := 0, mclkStop := false, restartLeft := 0, t0 := 0,
    held0 := false, held1 := false, legalB := false, toLoad := [], loading := none, coverNow := false
    chans := List.replicate 24 .init, lastCycle := 0,
    lastQuality := 0, lastTc := 0, olderLocked := true, measure := none }

/-- `Register` at reset. -/
def Register.init : Register := { acc := 0, residue := 0, window := 0, sticky := 0, session := 0, run := 0 }

/-- `Pulse` at reset. -/
def Pulse.init : Pulse := { counter := 0, remainder := 0, backlog := 0, conducting := false }

/-- `CommitSlot` at reset. -/
def CommitSlot.init : CommitSlot :=
  { number := 0, stamp := .zero, epoch := 0, utc := none, partialKind := false, part0 := false, part1 := false,
    regs := List.replicate 53 ⟨0, 0, 0, 0⟩, pulses := List.replicate 8 .init }

/-- `Energy` at reset. -/
def Energy.init : Energy :=
  { recs := [], reload := false, regs := List.replicate 53 .init, slot0 := .init, slot1 := .init, markStamp := .zero,
    markEpoch := 0, markState := 0, pulses := List.replicate 8 .init, pulsesHeld := true, openAge := 0,
    openK := 0, nextPartial := false, nextLost := false, tail := false, restore := [],
    values := { outlets := List.replicate 16 0, phases := List.replicate 12 0, frequency := 0, neutral := 0, cycle := 0 },
    coolant := .all none, changed := false }

/-- `Timers` at reset. -/
def Timers.init : Timers := ⟨false, false, false, false, false, false, false⟩

/-- `Matching` at reset. -/
def Matching.init : Matching :=
  { step := 0, runId := none, mnbc := false, sounds := 0, sums := [], retries := 0, inRetry := false }

/-- `standingInit` at reset. -/
def standingInit : StandingFields :=
  { validUntil := 0, maxVoltage := 0, maxCurrent := 0, maxPower := 0, maxDisCurrent := 0, maxDisPower := 0,
    acDuty := 0, notification := 0, flags := 0 }

/-- `Link` at reset. -/
def Link.init : Link :=
  { gen := .zero, commanded := .zero, next := none, pilot := none, diodeFault := false, matchFail := false, certUnchecked := false,
    prox := 255, link := 0, matching := .init, meanAtten := 0, pwmOnly := false, nmk := 0, t1sMac := none,
    security := 0, tcpPort := 0, tcpOpen := false, tls := 0, protocol := none, timers := .init, held := none,
    heldLate := false, reply := standingInit, replyGen := 0, replyOver := false, counters := ⟨0, 0, 0, 0, 0, 0⟩,
    test := false }

/-- `evZero` at reset. -/
def evZero : EvParams := ⟨0, 0, 0, 0, 0⟩

/-- `setpointOff` at reset. -/
def setpointOff : Setpoint := { mode := 0, voltage := 0, current := 0, power := 0 }

/-- `Session` at reset. -/
def Session.init : Session :=
  { state := .s0, number := 0, reason := 0, cause := 0, closed := true, causes := [], causeCycle := 0, auth := 0, authPath := none,
    grant := ⟨0, 0⟩, prepaid := false, cred := none, query := .none, informational := false, preAuth := none, preOrigin := 0,
    startUtc := none, startStamp := .zero, s2Order := 0, s2Cycle := 0, s6Order := 0, s6Cycle := 0, ev := evZero,
    alloc := 0, nextAlloc := none, allocSince := 0, offSince := none, drive := false, checkDone := false, started := false
    preVoltage := 0,
    paused := false, phases := none,
    setpoint := setpointOff, setSeq := 0, inForce := setpointOff, bpt := false, dynamic := false, target := none, offered := none,
    outOfService := false, availLater := none }

/-- `Converter` at reset. -/
def Converter.init : Converter :=
  { state := 0, echo := 0, fault := 0, voltage := 0, current := 0, power := 0, lost := false, coolant := none,
    temperature := none, maxVoltage := 0, maxCurrent := 0, maxPower := 0, lags := 0, longest := 0, lagLog := none }

/-- `Sessions` at reset. -/
def Sessions.init : Sessions :=
  { out := .all .init, conv := .all .init, lastNumber := 0, order := 0, heldCard := none,
    sieve := ⟨0, 0, 0, 0, 0, 0, 0, 0⟩, loading := none, heartbeat := 0, tripCount := 0, tripWait := none
    canQueue := [], siteBudget := none, siteAt := 0,
    siteStale := false, noAlloc := 0 }

/-- `Imd` at reset. -/
def Imd.init : Imd :=
  { running := false, positive := true, selfTimed := false, plus := none, minus := none, halves := 0, noValue := 0, cycles := 0,
    value := none, count := 0, status := .none, belowWarn := 0, belowFault := 0, aboveWarn := 0 }

/-- `HedgeOutlet` at reset. -/
def HedgeOutlet.init : HedgeOutlet :=
  { latched := 0, causes := 0, permit := false, granted := false, closed := false, delaying := false
    newTrip := false, newWeld := false, imd := .init, weldRun := false,
    weldHigh := 0, weldInconclusive := false, residualDc := 0, residualAc := 0, high := 0, low := 0 }

/-- `Scarecrow` at reset. -/
def Scarecrow.init : Scarecrow :=
  { permit := false, granted := false, lapsed := false, ramp := false, cut := false, persist := List.replicate 7 0
    closedFor := 0, iDer := 0,
    prevAlloc := 0, prevLeft := 0 }

/-- `Hedge` at reset. -/
def Hedge.init : Hedge :=
  { out := .all .init, scr := .all .init, estop := false, wiring := false, safeFault := false, group := false,
    fault := false, groupGone := false, openA := false, openB := false, bothOpened := false, missA := 0, missB := 0,
    pinTA := false, pinTB := false, block := none, nextBlock := none, mismatch := false, confirmed := false,
    stored := none, wrongTimes := [], lockedOut := false, safeOk := false, safeSeq := 0, lastState := 0,
    safeWait := none, safeDiscards := 0, sources := [] }

/-- `Switch` at reset. -/
def Switch.init : Switch :=
  { commanded := false, short := false, overcur := false, thermalLatch := false, shed := false, thermal := false,
    openLoad := false, undervoltage := false, needsCycle := false, inrush := false,
    restarts := 0, onSince := none, overCount := 0, inrushEnd := 0, on := false, setup := [], nextSetup := none }

/-- `Switches` at reset. -/
def Switches.init : Switches :=
  { chans := List.replicate 16 .init, means := [0, 0, 0, 0], overFlags := [false, false, false, false],
    released := [false, false, false, false], lowest := [0, 0, 0, 0], overChecks := [0, 0, 0, 0], capture := none }

/-- `OutletBill` at reset. -/
def OutletBill.init : OutletBill :=
  { cost := 0, remainder := 0, account := none, opened := false, emergency := false, friendly := false,
    reported := false, residue := 0, stopped := false }

/-- `BillingSlot` at reset. -/
def BillingSlot.init : BillingSlot :=
  { number := 0, tariff := 0, complete := false, forced := false, partialCommit := false, onRestore := false,
    period := 0, values := [], residues := [], outlets := .all .init }

/-- `DemandBlock` at reset. -/
def DemandBlock.init : DemandBlock :=
  { update := 0, start := 0, pos := 0, filled := 0, incomplete := false, stepped := false, clockInvalid := false,
    maxMask := 0, ringMask := 0, source := 0, ring := List.replicate 15 0, maxima := List.replicate 16 (0, 0), crc := 0 }

/-- `Tamper` at reset. -/
def Tamper.init : Tamper :=
  { opened := 0, differs := 0, enabled := 0, events := [], writePos := 0, overflow := 0, unacked := false }

/-- `ControlBlock` at reset: T0, as before any evaluation. -/
def ControlBlock.init : ControlBlock :=
  { generation := 0, tariff := 0, forced := true, prices := [], accounts := .all none }

/-- `Billing` at reset. -/
def Billing.init : Billing :=
  { control := .init, inUse := .init, season := none, profile := none, values := List.replicate 48 0,
    stopped := [], outlets := .all .init, slot0 := .init, slot1 := .init, onRestore := false, period := 0,
    periodStart := none, lastEnd := none, pStep := false, pIncomplete := false, pLost := false,
    deferred := false, afterCut := false, stepPending := false, demand := .init, demandCause := 4, ringCauses := List.replicate 15 0,
    demand0 := .init, demand1 := .init, lastDemand := 0, subInterval := none,
    slew := 0, accounts := [], accountsChanged := false, storeA := none, storeB := none, lastRecord := 0,
    records := [], openRecs := .all none, periods := [], table := none
    tableA := none, tableB := none, tableLastB := false, nextTable := none, tableBy := 0, tamper := .init }

/-- `Lane` at reset. -/
def Lane.init : Lane :=
  { generation := 0, cycle := 0, lines := List.replicate 4 (List.replicate 16 0x20), marks := 0
    font := List.replicate 1536 0, fontCheck := 0 }

/-- `Display` at reset. -/
def Display.init : Display :=
  { state := .off, dispEn := false, vpp := 0, lane := .init, shown := none, position := 0, rows := [], nextRows := [],
    test := none, pixels := [], copyA := none, copyB := none, newWorn := (0, 0), wornLog := (none, none) }

/-- `Otp` at reset. -/
def Otp.init : Otp :=
  { serial := List.replicate 8 0, macBase := List.replicate 6 0, factoryDone := false, rootValid := false,
    retired := false, root := 0, rootDestroyed := false, updateKeys := List.replicate 4 0, programmed := 0,
    revoked := 0, entriesY := 0, exitsX := 0, keyCounter := 0, floors := [0, 0, 0, 0, 0] }

/-- `Cistern` at reset. -/
def Cistern.init : Cistern :=
  { identity := none, metrology := none, tls := none, wadi := none, trellis := none, hostKey := none,
    cisFault := false, lcFault := false, trngFault := false, lifecycle := 0, legalMeas := 0, appMeas := 0,
    scramble := 0, maskSeed := 0, tailA := ⟨none, none⟩, tailB := ⟨none, none⟩, keyNumber := 0, migrating := none, pairErrors := 0 }

/-- `Seed` at reset. -/
def Seed.init : Seed :=
  { good := false, writer := 0, flags := 0, cycle := 0, epoch := 0, first := 0, version := 0, serial := 0,
    image := none, latch := none }

/-- `Domains` at reset. -/
def Domains.init : Domains :=
  { active := 0, healthA := 0, healthB := 0, failed := none, lastCause := 0, takeovers := 0, restarts := [],
    seed0 := .init, seed1 := .init, newest := 0, journal := [], nextEntry := 0, switchTo := false,
    suspended := false }

/-- `Trellis` at reset. -/
def Trellis.init : Trellis :=
  { role := 0, listening := false, masterSlot := 0, spareSlot := 255, term := 0, highTerm := 0, frame := 0, index := 0,
    frames := 20, missed := 0, silent := false, present := 0, absentRun := List.replicate 16 0, joining := 0,
    failedA := false, failedB := false, errorsA := 0, errorsB := 0, macFails := 0, shadowDiffs := 0,
    budgetDiffers := false, masterCheck := 0, transfer := none, readback := 0, backoff := 0, demands := [],
    allocs := [], rotation := 0, shadow := [], reductions := [], statuses := [], siteState := none, allocCycle := none, adopted := none
    budget := 0, takeoverCycle := none }

/-- `Wadi` at reset. -/
def Wadi.init : Wadi :=
  { role := 0, index := none, masterNode := 0, masterSlot := 0, masterPriority := 0, superframe := 0, position := none,
    ownQ := 255, ownMode := 0, beaconSnr := 0, siteBudget := none, caps := [], sent := 0, received := 0,
    checkFails := 0, blanked := 0, resends := 0, txEpoch := 0, txCounter := 0, history := [], requests := [],
    again := [], neighbours := [], replays := [], count := 1, rotation := 0, owner := none, windows := 0, silent := 0, joinWait := 0,
    joinAt := none, indices := [], beacon := [], heldBack := false, lastBeacon := false, duplicate := false, test := none }

/-- `RegionSlot` at reset. -/
def RegionSlot.empty : RegionSlot := ⟨none, []⟩

/-- `Region` at reset. -/
def Region.init : Region :=
  { slotA := .empty, slotB := .empty, status := 0, transfer := 0, received := 0, incoming := none,
    path := 0 }

/-- `Update` at reset. -/
def Update.init : Update :=
  { boot := .init, legal := .init, app := .init, engine := .init, config := .init, copyB := false, generation := 0,
    confirmed := 0, trial := 0, lock := false, trialStart := none, ledger := [], inForce := List.replicate 10 false,
    engineB := false, waiting := none, waitingBy := 0, fallbackBy := 0, go := none, fallback := none, completed := false,
    sowHeader := (0, []), sowing := none }

/-- `Reader` at reset. -/
def Reader.init : Reader :=
  { state := 0, std := 255, baseline := 0, load := 0, run := 0, waiting := false, delivered := 0, empty := 0, cards := [] }

/-- `Tag` at reset. -/
def Tag.init : Tag :=
  { blocks := [], password := 0, attempts := 0, locked := false, field := false, uid := 0, secured := false,
    nonce := none, fieldWrites := 0, abandoned := 0, retrying := [], poweredRequest := false, ring := 0, mirrored := 0 }

/-- `TestPort` at reset: an open port stays reset (R502). -/
def TestPort.init : TestPort := ⟨.testLogicReset, .idcode⟩

/-- `Rake` at reset. -/
def Rake.init : Rake :=
  { tap := .init, signature := none, magic := false, lastKind := 0, lastResults := List.replicate 6 255, lastUtc := none, left := []
    results := [], repeated := false, unlogged := false, measured := none, permitOk := true }

/-- `Power` at reset. -/
def Power.init : Power :=
  { state := .run, phase := .charging, cause := 1, before := 4, warmResets := 0, v24 := 1800, lowest24 := 0, vbat := 0,
    charged := false, vbatLow := false, retention := false, retentionAtStart := false, straps := 15, recover := false,
    pressed := false, stuck := false, orderly := none, shutting := false, expired := false, byButton := false, cut := .all false,
    system0 := none, system1 := none, startMs := 0,
    startUtc := none }

/-- The machine right after a power-on reset. -/
def State.reset : State :=
  { pending := [], clockMs := 0, freeCount := 0, out := [], power := .init,
    fabric := {
      arrays := [], doorbells := [], waiting := 0, mem := [], answer := 0, marked := false
      domainException := false, sieve := [] },
    sun := .init,
    cfg := { slot := 2, serial := 0, recs := [], disabled := [], held := [], digestA := none, digestB := none },
    logs := { general := [], next := 0, legal := [], overflow := 0, inHold := 0, lost := 0 },
    host := { e0 := .init, e1 := .init, spi := .init, transfers := [], spiQueue := [], absent := false },
    acq := .init, energy := .init, link := .all .init, sess := .init, hedge := .init, sw := .init, bill := .init,
    disp := .init, otp := .init, cis := .init, dom := .init, trellis := .init, wadi := .init, update := .init,
    reader0 := .init, reader1 := .init, tag := .init, rake := .init }

end Sys2Proof.Machine
end

