-- ==== Sys2Proof/Machine/Ops.lean ====
section
/-! DEFINITION. The operations that every chapter shares: free values, outputs, reading the configuration in force,
the two logs (R57 to R63), and questions about the module as a whole. -/

namespace Sys2Proof.Machine

/-! ### Free values (log entry 1) -/

/-- The counter behind the free values moves on. -/
def draw (s : State) : State := { s with freeCount := s.freeCount + 1 }

/-- A field that the manual gives no value for: free (log entry 1). -/
def openField (n : Nat) (s : State) : List Byte := leBytes n (Config.freeNat s.freeCount)

/-! ### Outputs -/

/-- The module sends something. -/
def emit (o : Out) (s : State) : State := { s with out := o :: s.out }

/-! ### Presence -/

/-- The module is started and powered, so that its partners see it (R485): in RUN, IDLE or HOLD, and booted, or with its
engines running on while the boot of a warm reset stands at an image that failed its check (R418, R476). -/
def up (s : State) : Bool :=
  (s.power.phase = .running || s.power.phase = .booting || (s.power.phase = .bootFailed && s.acq.mclkOn)) &&
    (s.power.state = .run || s.power.state = .idle || s.power.state = .hold)

/-- Sundial runs: in a started module, and in ROM recovery (R33, R434). -/
def sunRuns (s : State) : Bool := up s || s.power.phase = .recovery

/-- The module is in RUN or IDLE, started. -/
def awake (s : State) : Bool := up s && s.power.state ≠ .hold

/-! ### Elements (codes of R517) -/

namespace Elem
def domA : Nat := 0
def domB : Nat := 1
def met0 : Nat := 2
def met1 : Nat := 3
def vl0 : Nat := 4
def wad : Nat := 8
def scr : Nat := 9
def fld : Nat := 10
def pnl : Nat := 11
def cis : Nat := 12
def hst : Nat := 13
end Elem

/-- The active domain is at work: booted and outside HOLD. -/
def domainRuns (s : State) : Bool := awake s && s.power.phase ≠ .bootFailed

/-! ### The configuration in force -/

/-- The record of a type and key that takes effect, if any. -/
def findRec (recs : List Rec) (type key : Nat) : Option Rec :=
  recs.find? (fun r => r.defined && r.type == type && r.key == key && r.status == 0)

/-- An unsigned field of a record, or its default. -/
def recN (recs : List Rec) (type key off n dflt : Nat) : Nat :=
  match findRec recs type key with
  | some r => fieldN r.body off n
  | none => dflt

/-- A signed field of a record, or its default. -/
def recI (recs : List Rec) (type key off n : Nat) (dflt : Int) : Int :=
  match findRec recs type key with
  | some r => fieldI r.body off n
  | none => dflt

/-- The record in force of a type and key: one held from before a warm reset (R476), else that of the image. -/
def inForce (s : State) (type key : Nat) : Option Rec :=
  match s.cfg.held.find? (fun r => r.type == type && r.key == key) with
  | some r => if r.status = 0 then some r else none
  | none => findRec s.cfg.recs type key

/-- An unsigned field of the configuration in force. -/
def cfgN (s : State) (type key off n dflt : Nat) : Nat :=
  match inForce s type key with
  | some r => fieldN r.body off n
  | none => dflt

/-- A signed field of the configuration in force. -/
def cfgI (s : State) (type key off n : Nat) (dflt : Int) : Int :=
  match inForce s type key with
  | some r => fieldI r.body off n
  | none => dflt

/-- Records held for an outlet take their new values: it enters S0 (R476). -/
def releaseRecords (o : Outlet) (s : State) : State :=
  { s with cfg := { s.cfg with held := s.cfg.held.filter (fun r => r.key != o.val) } }

/-- The outlet type in a list of records (R165): 0 without a record that takes effect, or when R236 disabled it. -/
def typeIn (recs : List Rec) (disabled : List Nat) (o : Nat) : Nat :=
  if o ∈ disabled then 0 else recN recs 0x0601 o 1 1 0

/-- The type of an outlet (R165). -/
def outletType (s : State) (o : Nat) : Nat := typeIn s.cfg.recs s.cfg.disabled o

/-- The outlet is of a DC type. -/
def isDc (s : State) (o : Nat) : Bool := outletType s o = 1 || outletType s o = 2

/-- The outlet is of an AC type. -/
def isAc (s : State) (o : Nat) : Bool := outletType s o = 3 || outletType s o = 4

/-- Nominal frequency in mHz (R39). -/
def nominalFreq (s : State) : Nat := if cfgN s 0x0201 0 0 1 0 = 1 then 60000 else 50000

/-! ### Time -/

/-- The dial stamp now. -/
def stamp (s : State) : Stamp := ⟨s.sun.cycle, s.sun.angle⟩

/-- The UTC second, none while the clock is not valid (R37, R38). -/
def utcNow (s : State) : Option Nat := if s.sun.utcValid then some s.sun.utc else none

/-- The UTC time in ms (log entry 2). -/
def utcMs (s : State) : Int := (s.sun.utc : Int) * 1000 + min 999 ((s.clockMs : Int) - s.sun.utcMark)

/-- A UTC second as a field: 0xFFFF_FFFF while not valid (R38). -/
def utcField (u : Option Nat) : Nat := u.getD 0xFFFFFFFF

/-! ### Logs -/

/-- The bytes 0 to 31 of a log entry (R58). -/
def entryBytes (e : LogEntry) : List Byte :=
  let head := leBytes 4 (utcField e.utc) ++ wordBytes 4 e.stamp.cycle ++ leBytes 2 e.stamp.angle ++
    [byte e.origin, byte e.sub] ++ leBytes 2 e.code ++ padTo 16 e.detail
  head ++ wordBytes 2 (crc16 head)

/-- The UTC second that a log entry carries: none while UTC_INVALID is set in the quality word (R38) or
the clock is not valid (R58). -/
def entryUtc (s : State) : Option Nat := if s.sun.quality.getLsbD 6 then none else utcNow s

/-- The entry that an event makes now. -/
def newEntry (s : State) (origin sub code : Nat) (detail : List Byte) : LogEntry :=
  { index := s.logs.next, utc := entryUtc s, stamp := stamp s, origin, sub, code, detail := padTo 16 detail }

/-- The oldest index that the ring still holds when `index` is its newest: a sector of 128 slots is erased whole
ahead of the write position (R57). The moment is not given, beside that the latest 65,536 entries always stay: the
model erases a sector when the first entry of the sector before it is written (DESIGN CHOICE, log entry 59). -/
def ringOldest (index : Nat) : Nat := index / 128 * 128 - 65536

/-- Write an entry to the general log (R57, R58, R60). -/
def addGeneral (e : LogEntry) (s : State) : State :=
  { s with logs := { s.logs with
      general := e :: s.logs.general.filter (fun x => ringOldest e.index ≤ x.index)
      next := s.logs.next + 1
      inHold := if s.power.state = .hold then s.logs.inHold + 1 else 0 } }

/-- The number of entries that the legal log holds at most (R57). -/
def legalSize : Nat := 4096

/-- Free entries of the legal log. -/
def legalFree (s : State) : Nat := legalSize - s.logs.legal.length

/-- A change that needs a legal-log entry is taken (R63): at least 64 entries are free. -/
def legalRoom (s : State) : Bool := 64 ≤ legalFree s

/-- The chain value of the last legal-log entry, 0 for none (R62). -/
def lastChain (s : State) : BitVec 256 :=
  match s.logs.legal with
  | [] => 0
  | e :: _ => e.chain

/-- Write an entry to the legal log, or raise the overflow counter when it is full (R62, R63). -/
def addLegal (e : LogEntry) (s : State) : State :=
  if s.logs.legal.length < legalSize then
    { s with logs := { s.logs with
        legal := ⟨e, Config.sha256 (digestBytes (lastChain s) ++ entryBytes e)⟩ :: s.logs.legal } }
  else
    { s with logs := { s.logs with overflow := s.logs.overflow + 1 } }

/-- The active domain writes a journal entry before it releases an action (R361). -/
def journal (kind object seq : Nat) (s : State) : State :=
  if up s then
    { s with dom := { s.dom with
        journal := ⟨s.dom.nextEntry, stamp s, kind, object, seq⟩ :: s.dom.journal
        nextEntry := s.dom.nextEntry + 1 } }
  else s

/-- Log an event: always in the general log, and in the legal log where it is legal (R20, R62). -/
def log (origin sub code : Nat) (detail : List Byte) (legal : Bool) (s : State) : State :=
  let e := newEntry s origin sub code detail
  let t := addGeneral e (journal 7 0 e.index s)
  if legal then addLegal e t else t

/-- The latest general-log entry of a subsystem and code that satisfies a test. -/
def latestEntry (s : State) (sub code : Nat) (p : LogEntry → Bool) : Option LogEntry :=
  s.logs.general.find? (fun e => e.sub == sub && e.code == code && p e)

/-- A value for each outlet. -/
def perOutlet {α : Type} (f : Outlet → α) : PerOutlet α := ⟨f 0, f 1, f 2, f 3⟩

/-! ### Whole-module questions -/

/-- The code of a session state (R167). -/
def SState.code : SState → Nat
  | .s0 => 0
  | .s1 => 1
  | .s2 => 2
  | .s3 => 3
  | .s4 => 4
  | .s5 => 5
  | .s6 => 6
  | .s7 => 7
  | .s8 => 8
  | .s9 => 9
  | .se => 14

/-- The session of an outlet. -/
def sessOf (s : State) (o : Outlet) : Session := s.sess.out.get o

/-- Change the session of an outlet. -/
def setSess (o : Outlet) (f : Session → Session) (s : State) : State :=
  { s with sess := { s.sess with out := s.sess.out.set o (f (s.sess.out.get o)) } }

/-- Change the converter of an outlet. -/
def setConv (o : Outlet) (f : Converter → Converter) (s : State) : State :=
  { s with sess := { s.sess with conv := s.sess.conv.set o (f (s.sess.conv.get o)) } }

/-- Change the link of an outlet. -/
def setLink (o : Outlet) (f : Link → Link) (s : State) : State :=
  { s with link := s.link.set o (f (s.link.get o)) }

/-- Change what Hedge holds for an outlet. -/
def setHedge (o : Outlet) (f : HedgeOutlet → HedgeOutlet) (s : State) : State :=
  { s with hedge := { s.hedge with out := s.hedge.out.set o (f (s.hedge.out.get o)) } }

/-- Change what Scarecrow holds for an outlet. -/
def setScr (o : Outlet) (f : Scarecrow → Scarecrow) (s : State) : State :=
  { s with hedge := { s.hedge with scr := s.hedge.scr.set o (f (s.hedge.scr.get o)) } }

/-- The four outlets. -/
def outlets : List Outlet := [0, 1, 2, 3]

/-- Apply a change for each outlet in turn. -/
def forOutlets (f : Outlet → State → State) (s : State) : State := f 3 (f 2 (f 1 (f 0 s)))

/-- Every outlet's session is in a state that satisfies the test. -/
def allSess (s : State) (p : SState → Bool) : Bool := outlets.all (fun o => p (sessOf s o).state)

/-- Session states S2 to S8 (R478). -/
def SState.running (x : SState) : Bool := 2 ≤ x.code && x.code ≤ 8

/-- Session states beyond S1. -/
def SState.beyond1 (x : SState) : Bool := x ≠ .s0 && x ≠ .s1

/-- The life-cycle state of SERVICE (R332). -/
def inService (s : State) : Bool := s.cis.lifecycle = 3

/-- The origin code of a host port (R59). -/
def portOrigin : Port → Nat
  | .e0 => 1
  | .e1 => 2
  | .spi => 3

/-- The session of an outlet takes part in the stack's steady state or a test: every outlet in S0. -/
def allIdle (s : State) : Bool := allSess s (fun x => x = .s0)

/-- Every outlet is in S0 or S1. -/
def allWaiting (s : State) : Bool := allSess s (fun x => x = .s0 || x = .s1)

/-- Some outlet has energy flowing: S4 to S7 (R423). -/
def energyFlows (s : State) : Bool := outlets.any (fun o => 4 ≤ (sessOf s o).state.code && (sessOf s o).state.code ≤ 7)

/-- The module's serial (R317). -/
def serialBytes (s : State) : List Byte := s.otp.serial

end Sys2Proof.Machine
end

