-- ==== Sys2Proof/Machine/Host.lean ====
section
/-! DEFINITION. The host link: the packet format (R49, R50), the order in which a packet is accepted or refused
(R51, R52, R53, R491), events, bulk data (R54, R55, R519) and the opcodes of chapter 03. -/

namespace Sys2Proof.Machine

/-! ### Packets (R49, R50) -/

/-- The 16-byte packet header. -/
def headerBytes (cls opcode : Nat) (seq : U32) (flagBits status len reserved : Nat) : List Byte :=
  leBytes 2 0x5347 ++ [1, byte cls] ++ leBytes 2 opcode ++ wordBytes 4 seq ++ [byte flagBits, byte status] ++
    leBytes 2 len ++ leBytes 2 reserved

/-- The header and payload of a request, over which its HMAC runs. -/
def requestBytes (opcode : Nat) (r : Request) : List Byte :=
  headerBytes r.cls opcode r.seq r.flags.toNat r.status.toNat r.payload.length r.reserved ++ r.payload

/-- The host session key in use: none in ROM recovery (R434). -/
def hostKeyOf (s : State) : Option (BitVec 256) := if s.power.phase = .recovery then none else s.cis.hostKey

/-- The first 16 bytes of the HMAC under the host session key, or 0 while none is held (R50, R337). -/
def hostMac (s : State) (bytes : List Byte) : BitVec 128 :=
  match hostKeyOf s with
  | some k => (Config.hmac k bytes).setWidth 128
  | none => 0

/-- The module's IPv4 address on a port and its netmask (R65); SPI has none. -/
def hostAddress (s : State) : Port → Nat
  | .e0 => cfgN s 0x0102 0 0 4 0xC0A80064
  | .e1 => cfgN s 0x0102 0 8 4 0xC0A80164
  | .spi => 0
def hostNetmask (s : State) : Port → Nat
  | .e0 => cfgN s 0x0102 0 4 4 0xFFFFFF00
  | .e1 => cfgN s 0x0102 0 12 4 0xFFFFFF00
  | .spi => 0

/-- A packet that the module sends. -/
def packetOf (s : State) (port : Port) (cls opcode : Nat) (seq : U32) (flagBits status : Nat) (payload : List Byte) :
    Packet :=
  { port, cls, opcode, seq, flags := flagBits, status, payload,
    mac := hostMac s (headerBytes cls opcode seq flagBits status payload.length 0 ++ payload), source := hostAddress s port }

/-- The bytes of a packet on the wire: header, payload, HMAC and CRC-32C. -/
def wireBytes (p : Packet) : List Byte :=
  let head := headerBytes p.cls p.opcode p.seq p.flags p.status p.payload.length 0 ++ p.payload ++ wordBytes 16 p.mac
  head ++ wordBytes 4 (crc32c head)

/-- A packet goes out; one for the SPI origin waits in its queue for the host's next transfers (R504). -/
def sendPacket (p : Packet) (s : State) : State :=
  emit (.packet p) { s with host := { s.host with
    spiQueue := if p.port = .spi then s.host.spiQueue ++ [p] else s.host.spiQueue } }

/-- HOST_IRQ_N is low (R504). -/
def irqLow (s : State) : Bool := !s.host.spiQueue.isEmpty

/-- A packet that arrives over SPI is one transfer, in which the next queued packet goes the other way (R504). -/
def spiTransfer (p : Port) (s : State) : State :=
  { s with host := { s.host with spiQueue := if p = .spi then s.host.spiQueue.drop 1 else s.host.spiQueue } }

/-! ### Origins -/

/-- The sequence state of a port. -/
def originOf (s : State) : Port → Origin
  | .e0 => s.host.e0
  | .e1 => s.host.e1
  | .spi => s.host.spi

/-- Change the sequence state of a port. -/
def setOrigin (p : Port) (f : Origin → Origin) (s : State) : State :=
  match p with
  | .e0 => { s with host := { s.host with e0 := f s.host.e0 } }
  | .e1 => { s with host := { s.host with e1 := f s.host.e1 } }
  | .spi => { s with host := { s.host with spi := f s.host.spi } }

/-- Bit of a port in the host-port mask of record 0x0101 (R64). -/
def portBit : Port → Nat
  | .e0 => 0
  | .e1 => 1
  | .spi => 2

/-- A host listens on the port (R64; in ROM recovery on every port, R434). -/
def portOpen (s : State) (p : Port) : Bool :=
  if s.power.phase = .recovery then true else up s && (cfgN s 0x0101 0 1 1 3).testBit (portBit p)

/-- The source may talk to the module (R65), and some firmware is there to answer it. DEDUCED (log entry 8): other sources
are not heard. -/
def permitted (s : State) (p : Port) (src : Nat) : Bool :=
  s.power.phase ≠ .bootFailed && (p = .spi || cfgN s 0x0102 0 16 4 0 = 0 || cfgN s 0x0102 0 16 4 0 = src)

/-- Send an event on one port (R49, R52). -/
def sendEvent (port : Port) (cls opcode : Nat) (payload : List Byte) (s : State) : State :=
  let q := (originOf s port).eventSeq + 1
  setOrigin port (fun o => { o with eventSeq := q }) (sendPacket (packetOf s port cls opcode q 2 0 payload) s)

/-- Send an event on each enabled port. -/
def eventAll (cls opcode : Nat) (payload : List Byte) (s : State) : State :=
  [Port.e0, Port.e1, Port.spi].foldl
    (fun t p => if portOpen t p then sendEvent p cls opcode payload t else t) s

/-! ### Acceptance (R51, R52) -/

/-- What the table of an opcode says: code, classes accepted, whether it is expert-only, whether a payload length of
0 is allowed, and the payload lengths it defines. -/
structure OpSpec where
  code    : Nat
  classes : List Nat
  zeroOk  : Bool
  lenOk   : Nat → Bool

/-- Traffic class codes (R49). -/
def clsH : Nat := 0
def clsN : Nat := 1
def clsB : Nat := 2

/-- An opcode without a payload. -/
def opNone (code : Nat) (classes : List Nat) : OpSpec := ⟨code, classes, true, fun n => n == 0⟩
/-- An opcode with a payload of one length. -/
def opLen (code : Nat) (classes : List Nat) (n : Nat) : OpSpec := ⟨code, classes, false, fun m => m == n⟩
/-- An opcode that writes bulk data: its length is judged by the block rules (R55). -/
def opBulk (code : Nat) (classes : List Nat) : OpSpec := ⟨code, classes, false, fun n => 16 ≤ n && n ≤ 1400⟩

/-- The answer of an opcode: now, with a status and payload, or when the operation completes. -/
inductive Answer where
  | now (status : Nat) (payload : List Byte)
  | later
  deriving DecidableEq, Repr

/-- Opcodes that a zero HMAC may carry while no host session key is held (R337). -/
def zeroMacOpcodes : List Nat := [0x0101, 0x0102, 0x0B01, 0x0B02, 0x0B03, 0x0B05, 0x0B06]

/-- Step 4 of R51 with R337 and R434. -/
def macGood (s : State) (opcode : Nat) (r : Request) : Bool :=
  r.mac == hostMac s (requestBytes opcode r) &&
    ((hostKeyOf s).isSome || s.power.phase = .recovery || decide (opcode ∈ zeroMacOpcodes))

/-- What step 5 of R51 makes of a sequence (R52). -/
inductive SeqClass where
  | fresh
  | inProgress
  | cached (p : Packet)
  | stale
  deriving DecidableEq, Repr

/-- Classify a sequence against an origin's state. -/
def seqClass (o : Origin) (q : U32) : SeqClass :=
  if later q o.lastSeq then .fresh
  else if o.progress.any (fun p => p.seq == q) then .inProgress
  else match o.cache.find? (fun p => p.seq == q) with
    | some p => .cached p
    | none => .stale

/-- Steps 6 and 8 to 12 of R51 for a defined opcode, none of which is expert-only (R491 for step 12). -/
def admitStatus (op : OpSpec) (r : Request) : Nat :=
  if r.flags.toNat &&& 0xFB ≠ 0 ∨ r.status ≠ 0 ∨ r.reserved ≠ 0 then St.range
  else if r.cls ∉ op.classes then St.range
  else if r.payload.length = 0 ∧ op.zeroOk = false then St.lenZero
  else if 1400 < r.payload.length ∨ op.lenOk r.payload.length = false then St.lenBad
  else if r.cls = clsH ∧ 4 ≤ r.queued then St.busy
  else if r.cls = clsN ∧ (32 ≤ r.queued ∨ 990 < r.load) then St.busy
  else if r.cls = clsB ∧ (8 ≤ r.queued ∨ 950 < r.load) then St.busy
  else St.ok

/-- Opcodes that ROM recovery accepts (R434). -/
def recoveryOpcodes : List Nat := [0x0101, 0x0E01, 0x0E02, 0x0E08]

/-- The module's condition refuses the opcode: unconfigured (R42) or in recovery (R434). -/
def conditionRefuses (s : State) (opcode : Nat) : Bool :=
  if s.power.phase = .recovery then decide (opcode ∉ recoveryOpcodes)
  else s.cfg.slot == 2 && opcode / 256 != 0x01 && opcode / 256 != 0x0E

/-- A response is sent once for the request and once for each copy, and enters the cache (R52). -/
def completeRequest (port : Port) (cls opcode : Nat) (seq : U32) (status : Nat) (payload : List Byte) (s : State) :
    State :=
  let p := packetOf s port cls opcode seq 1 status payload
  let copies := ((originOf s port).progress.find? (fun x => x.seq == seq)).elim 0 (fun x => x.copies)
  setOrigin port
    (fun o => { o with
      cache := if seq ∈ o.recent then (p :: o.cache).take 16 else o.cache
      progress := o.progress.filter (fun x => x.seq != seq) })
    ((List.replicate (copies + 1) ()).foldl (fun t _ => sendPacket p t) (journal 4 (portBit port) seq.toNat s))

/-- Send a response that enters no cache. -/
def plainResponse (port : Port) (cls opcode : Nat) (seq : U32) (status : Nat) (payload : List Byte) (s : State) :
    State :=
  sendPacket (packetOf s port cls opcode seq 1 status payload) s

/-- An authentication failure (R51): a response at most 10 times per second, entry 0x0003 at most once per 60 s. -/
def authFailure (opcode : Nat) (r : Request) (s : State) : State :=
  let o := originOf s r.port
  let recent := o.authTimes.filter (fun t => s.clockMs < t + 1000)
  let answered := recent.length < 10
  let s1 := if answered then plainResponse r.port r.cls opcode r.seq St.authFail [] s else s
  let fails := o.authFails + 1
  let logs := o.authLog.elim true (fun t => t + 60000 ≤ s.clockMs)
  let s2 := if logs then
      log (portOrigin r.port) 0x01 0x0003
        (leBytes 4 fails ++ leBytes 4 (if r.port = .spi then 0 else r.src) ++ leBytes 2 opcode) false s1
    else s1
  setOrigin r.port (fun x => { x with
    authTimes := if answered then s.clockMs :: recent else recent
    authFails := if logs then 0 else fails
    authLog := if logs then some s.clockMs else o.authLog }) s2

/-- Steps 6 to 13 of R51 once a request is accepted. -/
def runRequest (op : OpSpec) (r : Request) (act : State → State × Answer) (s : State) : State × Answer :=
  if admitStatus op r ≠ St.ok then (s, .now (admitStatus op r) [])
  else if conditionRefuses s op.code then (s, .now St.refusedState [])
  else act s

/-- A new request is accepted (R52): its sequence becomes L, and the responses kept are those to the last 16 accepted. -/
def acceptSeq (q : U32) (o : Origin) : Origin :=
  let recent := (q :: o.recent).take 16
  { o with lastSeq := q, recent, cache := o.cache.filter (fun p => decide (p.seq ∈ recent)) }

/-- The host is present (R64). -/
def present (s : State) : State := { s with host := { s.host with absent := false } }

/-- A host packet that has passed steps 1 to 3 of R51: authentication and sequence (steps 4 and 5, R52), and for an accepted
request the answer of the later steps. -/
def acceptRequest (code : Nat) (r : Request) (run : State → State × Answer) (s : State) : State :=
  if !(portOpen s r.port && permitted s r.port r.src) then s
  else if !macGood s code r then authFailure code r (spiTransfer r.port s)
  else
    let s0 := present (spiTransfer r.port s)
    if code = 0x0101 then
      match run s0 with
      | (t, .now st pl) => plainResponse r.port r.cls code r.seq st pl t
      | (t, .later) => t
    else match seqClass (originOf s r.port) r.seq with
      | .fresh =>
        let s1 := setOrigin r.port (acceptSeq r.seq) s0
        match run s1 with
        | (t, .now st pl) => completeRequest r.port r.cls code r.seq st pl t
        | (t, .later) =>
          setOrigin r.port (fun o => { o with progress := ⟨r.seq, r.cls, code, 0⟩ :: o.progress }) t
      | .inProgress =>
        setOrigin r.port (fun o => { o with
          progress := o.progress.map (fun p => if p.seq = r.seq then { p with copies := p.copies + 1 } else p) }) s0
      | .cached p => sendPacket p s0
      | .stale => plainResponse r.port r.cls code r.seq St.counterStale [] s0

/-- A host request with a defined opcode, with the opcode's own action as step 13. -/
def hostRequest (op : OpSpec) (r : Request) (act : State → State × Answer) (s : State) : State :=
  acceptRequest op.code r (runRequest op r act) s

/-- A refusal that changes nothing. -/
def refuse (status : Nat) (s : State) : State × Answer := (s, .now status [])

/-- An accepted write without a response payload. -/
def done (s : State) : State × Answer := (s, .now St.ok [])

/-- A read that changes nothing. -/
def reply (payload : List Byte) (s : State) : State × Answer := (s, .now St.ok payload)

/-- Refuse with the first status of a list that is not OK, else go on. -/
def guarded (checks : List Nat) (act : State → State × Answer) (s : State) : State × Answer :=
  match checks.find? (fun c => c != St.ok) with
  | some c => refuse c s
  | none => act s

/-- A check: the status when the condition fails. -/
def need (cond : Bool) (status : Nat) : Nat := if cond then St.ok else status

/-- The status of reserved bytes of a payload. -/
def reservedOk (p : List Byte) (off n : Nat) : Nat := need (fieldN p off n == 0) St.range

/-! ### Bulk data (R54, R55, R519) -/

/-- The 16-byte block header. -/
def blockHeader (id off total len : Nat) : List Byte :=
  leBytes 4 id ++ leBytes 4 off ++ leBytes 4 total ++ leBytes 2 len ++ leBytes 2 0

/-- The byte of a transfer at a position, from the blocks received. -/
def byteAt (blocks : List (Nat × List Byte)) (i : Nat) : Option Byte :=
  blocks.findSome? (fun b => if b.1 ≤ i then b.2[i - b.1]? else none)

/-- A block agrees with what has been received. -/
def blockAgrees (blocks : List (Nat × List Byte)) (off : Nat) (data : List Byte) : Bool :=
  (List.range data.length).all (fun j => (byteAt blocks (off + j)).elim true (fun b => some b == data[j]?))

/-- The whole object, if every byte is present. -/
def assemble (blocks : List (Nat × List Byte)) (total : Nat) : Option (List Byte) :=
  (List.range total).mapM (fun i => byteAt blocks i)

/-- How many bytes of the object have been received. -/
def receivedBytes (blocks : List (Nat × List Byte)) (total : Nat) : Nat :=
  ((List.range total).filter (fun i => (byteAt blocks i).isSome)).length

/-- The transfer held under an ID (R519). -/
def findTransfer (s : State) (id : Nat) : Option Transfer := s.host.transfers.find? (fun t => t.id == id)

/-- Put a transfer into the record of the 32 most recently opened. -/
def putTransfer (t : Transfer) (s : State) : State :=
  let l := s.host.transfers
  let l' := if l.any (fun x => x.id == t.id) then l.map (fun x => if x.id = t.id then t else x) else (t :: l).take 32
  { s with host := { s.host with transfers := l' } }

/-- The number of open transfers. -/
def openTransfers (s : State) : Nat := (s.host.transfers.filter (fun t => t.state == .receiving)).length

/-- The header checks of a write block (R54, R55), in the order of its fields (log entry 9). -/
def blockChecks (maxTotal : Nat) (p : List Byte) : List Nat :=
  let off := fieldN p 4 4
  let total := fieldN p 8 4
  let len := fieldN p 12 2
  [ need (fieldN p 0 4 != 0) St.range
  , need (off % 8 == 0) St.range
  , need (total != 0) St.lenZero
  , need (total ≤ maxTotal) St.noSpace
  , need (len != 0) St.lenZero
  , need (len ≤ 1384 && off + len ≤ total && (len % 8 == 0 || off + len == total) && p.length == 16 + len) St.lenBad
  , reservedOk p 14 2 ]

/-- A load of an object is open from another origin (R53). -/
def heldElsewhere (opcode : Nat) (port : Port) (s : State) : Bool :=
  s.host.transfers.any (fun t => t.state == .receiving && t.object == opcode && t.port != port)

/-- Write a block of an object that HST gathers whole. A block under an open transfer's ID that carries another opcode is
refused with CHECK_FAIL, as one with a different total length is (log entry 9: the manual names no status). `check` is the
owning chapter's check of the object's length; `apply` verifies and applies the complete object. -/
def bulkWrite (opcode maxTotal : Nat) (check : Nat → Nat) (apply : List Byte → State → State × Nat) (r : Request)
    (s : State) : State × Answer :=
  let p := r.payload
  let id := fieldN p 0 4
  let off := fieldN p 4 4
  let total := fieldN p 8 4
  let data := slice p 16 (fieldN p 12 2)
  let header := blockHeader id off total data.length
  let take (t : Transfer) (s : State) : State × Answer :=
    let blocks := t.blocks ++ [(off, data)]
    match assemble blocks total with
    | none => (putTransfer { t with blocks := blocks, received := receivedBytes blocks total } s, .now St.ok header)
    | some object =>
      let (s1, status) := apply object s
      let outcome : TransferState := if status = St.ok then .applied else .refused
      (putTransfer { t with blocks := [], received := total, status, state := outcome } s1,
        .now status (if status = St.ok then header else []))
  match findTransfer s id with
  | some t =>
    if t.state ≠ .receiving then (s, .now t.status (if t.status = St.ok then header else []))
    else guarded (blockChecks maxTotal p ++
        [ need (t.port == r.port) St.busy, need (t.object == opcode) St.checkFail
        , need (t.total == total) St.checkFail, need (blockAgrees t.blocks off data) St.checkFail ]) (take t) s
  | none =>
    guarded (blockChecks maxTotal p ++
        [ check total, need (openTransfers s < 4) St.busy
        , need (!heldElsewhere opcode r.port s) St.busy ])
      (take { id, object := opcode, port := r.port, total, blocks := [], received := 0, state := .receiving,
              status := St.ok }) s

/-- Read a block of an object (R54, R55). What the total length field of a read request must hold the manual does not say: any
value is taken (log entry 9). -/
def bulkRead (object : List Byte) (r : Request) (s : State) : State × Answer :=
  let p := r.payload
  let off := fieldN p 4 4
  let len := fieldN p 12 2
  guarded [ need (fieldN p 0 4 != 0) St.range, need (off % 8 == 0) St.range, need (len ≤ 1384) St.range
          , reservedOk p 14 2 ]
    (fun s =>
      let data := slice object off len
      reply (blockHeader (fieldN p 0 4) off object.length data.length ++ data) s) s

/-- The spec of an opcode that reads bulk data. -/
def opRead (code : Nat) (classes : List Nat) : OpSpec := opLen code classes 16

/-- A transfer ends without its object (R55, R476): the data is discarded. -/
def closeTransfer (id : Nat) (st : TransferState) (status : Nat) (s : State) : State :=
  { s with host := { s.host with transfers := s.host.transfers.map (fun t =>
      if t.id = id ∧ t.state = .receiving then { t with state := st, status := status, blocks := [] } else t) } }

/-! ### Opcodes of chapter 03 (R67, R68) -/

/-- SAFE_OK and the rest of the keepalive payload (opcode 0x0102). -/
def keepalivePayload (s : State) : List Byte :=
  wordBytes 2 s.sun.quality ++ outlets.map (fun o => byte (sessOf s o).state.code) ++
    [byte (flag s.hedge.safeOk), 0]

/-- KEEPALIVE (R67). -/
def execKeepalive (r : Request) (s : State) : Host.Outcome State Fault Refusal :=
  .next (hostRequest (opNone 0x0102 [clsH, clsN]) r (fun s => reply (keepalivePayload s) s) s)

/-- The items of the configuration report (R67): type, key, status of each record in image order. -/
def reportBytes (s : State) : List Byte :=
  s.cfg.recs.flatMap (fun r => leBytes 2 r.type ++ leBytes 2 r.key ++ [byte r.status] ++ zeros 3)

/-- CONFIGURATION_REPORT (R67). -/
def execConfigurationReport (r : Request) (s : State) : Host.Outcome State Fault Refusal :=
  .next (hostRequest (opRead 0x0103 [clsN, clsB]) r (fun s => bulkRead (reportBytes s) r s) s)

/-- The readable entries, oldest first. -/
def readableEntries (s : State) : List LogEntry := s.logs.general.reverse

/-- The response of opcode 0x0104. -/
def generalLogReply (p : List Byte) (s : State) : List Byte :=
  let es := readableEntries s
  let sel := (es.filter (fun e => fieldN p 0 4 ≤ e.index)).take (fieldN p 4 2)
  leBytes 4 (es.head?.elim 0xFFFFFFFF (fun e => e.index)) ++
    leBytes 4 (es.getLast?.elim 0xFFFFFFFF (fun e => e.index)) ++ leBytes 2 sel.length ++ leBytes 2 0 ++
    sel.flatMap entryBytes

/-- GENERAL_LOG_READ (R67). -/
def execGeneralLogRead (r : Request) (s : State) : Host.Outcome State Fault Refusal :=
  .next (hostRequest (opLen 0x0104 [clsN, clsB] 8) r
    (guarded [need (fieldN r.payload 4 2 ≤ 43) St.range, reservedOk r.payload 6 2]
      (fun s => reply (generalLogReply r.payload s) s)) s)

/-- The metrology signature over a message: 64 bytes of 0 while no metrology key is held (R332). -/
def metrologySign (s : State) (msg : List Byte) : BitVec 512 :=
  match s.cis.metrology with
  | some k => Config.sign k msg s.freeCount
  | none => 0

/-- Bytes 0 to 155 of a key statement (R346). -/
def statementBody (s : State) (x : Statement) : List Byte :=
  leBytes 2 1 ++ [byte x.kind, byte x.signer] ++ leBytes 4 x.number ++ serialBytes s ++ leBytes 4 (utcField x.utc) ++
    wordBytes 4 x.cycle ++ leBytes 2 x.epoch ++ leBytes 2 x.gen ++ digestBytes x.meas ++ wordBytes 64 x.pub ++
    digestBytes x.prev

/-- The 220 bytes of a key statement. -/
def statementBytes (s : State) (x : Statement) : List Byte := statementBody s x ++ wordBytes 64 x.sig

/-- The APP slot that runs has its key tail in slot B. -/
def appSlotB (s : State) : Bool := s.update.confirmed.getLsbD 2 != s.update.trial.getLsbD 2

/-- The newest copy of a tail is copy 0. -/
def KeyTail.newestIs0 (t : KeyTail) : Bool :=
  match t.copy0, t.copy1 with
  | none, _ => false
  | some _, none => true
  | some a, some b => decide (b.writeGen ≤ a.writeGen)

/-- The newest block of a tail. -/
def KeyTail.newest (t : KeyTail) : Option KeyBlock := if t.newestIs0 then t.copy0 else t.copy1

/-- Write a block to the copy other than the newest one (R328). -/
def KeyTail.put (b : KeyBlock) (t : KeyTail) : KeyTail :=
  if t.newestIs0 then { t with copy1 := some b } else { t with copy0 := some b }

/-- The key block in use: that of the tail of the APP slot that runs (R331). -/
def keyBlock (s : State) : Option KeyBlock := (if appSlotB s then s.cis.tailB else s.cis.tailA).newest

/-- Change the Cistern. -/
def setCis (f : Cistern → Cistern) (s : State) : State := { s with cis := f s.cis }

/-- Write the key block in use. -/
def putKeyBlock (b : KeyBlock) (s : State) : State :=
  setCis (fun c => if appSlotB s then { c with tailB := c.tailB.put b } else { c with tailA := c.tailA.put b }) s

/-- A new write of the key block with other statements. -/
def putStatements (xs : List Statement) (s : State) : State :=
  match keyBlock s with
  | some b => putKeyBlock { b with writeGen := b.writeGen + 1, statements := xs } s
  | none => s

/-- Entry 0x0B02 of a statement. -/
def logStatement (x : Statement) (s : State) : State :=
  log 0 0x0B 0x0B02 (leBytes 4 x.number ++ [byte x.kind, byte x.signer] ++ leBytes 2 x.gen ++
    (digestBytes (Config.sha256 (statementBytes s x))).take 8) true s

/-- A statement comes in force and the one before becomes superseded; the change is logged. -/
def bringInForce (x : Statement) (s : State) : State :=
  let xs := (keyBlock s).elim [] (fun b => b.statements)
  logStatement x (putStatements (xs.map (fun y =>
    if y.number = x.number then { y with state := 1 } else if y.state = 1 then { y with state := 2 } else y)) s)

/-- After a metrology signature: its nonce is drawn, and at the first signature under a key whose statement is pending that
statement comes in force (R345). -/
def signed (s : State) : State :=
  match s.cis.metrology, keyBlock s with
  | some k, some b =>
    match b.statements.find? (fun x => x.state == 0 && x.pub == Config.publicKey k) with
    | some x => bringInForce x (draw s)
    | none => draw s
  | _, _ => draw s

/-- The response of opcode 0x0105. -/
def legalLogReply (p : List Byte) (s : State) : List Byte :=
  let head := leBytes 2 s.logs.legal.length ++ leBytes 2 (legalFree s) ++ leBytes 4 s.logs.overflow ++
    digestBytes (lastChain s)
  head ++ wordBytes 64 (metrologySign s head) ++
    (slice' s.logs.legal.reverse (fieldN p 0 2) (fieldN p 2 2)).flatMap
      (fun e => entryBytes e.entry ++ digestBytes e.chain)
where
  slice' (l : List LegalEntry) (off n : Nat) : List LegalEntry := (l.drop off).take n

/-- LEGAL_LOG_READ (R67). -/
def execLegalLogRead (r : Request) (s : State) : Host.Outcome State Fault Refusal :=
  .next (hostRequest (opLen 0x0105 [clsN, clsB] 4) r
    (guarded [need (fieldN r.payload 0 2 ≤ 4095) St.range, need (fieldN r.payload 2 2 ≤ 20) St.range]
      (fun s => reply (legalLogReply r.payload s) (signed s))) s)

/-- The state code of a transfer (opcode 0x0106). -/
def TransferState.code : TransferState → Nat
  | .receiving => 0
  | .applied => 1
  | .refused => 2
  | .inactive => 3
  | .byReset => 4

/-- The response of opcode 0x0106 (R519). -/
def transferReply (s : State) (id : Nat) : List Byte :=
  match findTransfer s id with
  | some t => leBytes 4 t.received ++ leBytes 4 t.total ++
      [byte t.state.code, byte (if t.state = .receiving then 0 else t.status), 0, 0]
  | none => zeros 8 ++ [0xFF, 0, 0, 0]

/-- BULK_TRANSFER_STATUS (R519). -/
def execBulkTransferStatus (r : Request) (s : State) : Host.Outcome State Fault Refusal :=
  .next (hostRequest (opLen 0x0106 [clsN, clsB] 4) r (fun s => reply (transferReply s (fieldN r.payload 0 4)) s) s)

/-- The legal log is erased and holds its archive entry 0x0012 (R68). -/
def archiveLegal (origin : Nat) (s : State) : State :=
  let detail := (digestBytes (lastChain s)).take 14 ++ leBytes 2 s.logs.legal.length
  log origin 0x01 0x0012 detail true { s with logs := { s.logs with legal := [] } }

/-- LEGAL_LOG_ARCHIVE (R68). -/
def execLegalLogArchive (r : Request) (s : State) : Host.Outcome State Fault Refusal :=
  .next (hostRequest (opLen 0x0107 [clsN] 32) r
    (fun s => guarded [ need (inService s) St.refusedState
                      , need (r.payload == digestBytes (lastChain s)) St.checkFail ]
      (fun s => done (archiveLegal (portOrigin r.port) s)) s) s)

/-- BULK_TRANSFER_TIMEOUT (R55): an open transfer is closed with TIMEOUT. -/
def execBulkTransferTimeout (id : Nat) (s : State) : Host.Outcome State Fault Refusal :=
  .next (closeTransfer id .inactive St.timeout s)

/-- KEEPALIVE_PERIOD (R64): the keepalive payload goes out as an event on each enabled port. -/
def execKeepalivePeriod (s : State) : Host.Outcome State Fault Refusal :=
  .next (if up s then eventAll clsN 0x0102 (keepalivePayload s) s else s)

/-- A disabled SPI port sends a length of 0 in every transfer and keeps HOST_IRQ_N released (R64): nothing is queued for it. -/
def releaseIrq (s : State) : State :=
  { s with host := { s.host with spiQueue := if (cfgN s 0x0101 0 1 1 3).testBit 2 then s.host.spiQueue else [] } }

/-- HOST_ABSENCE_TIMEOUT (R64): the host counts as absent until its next authenticated request. -/
def execHostAbsenceTimeout (s : State) : Host.Outcome State Fault Refusal :=
  .next { s with host := { s.host with absent := true } }

end Sys2Proof.Machine
end

