-- ==== Sys2Proof/Machine/Calendar.lean ====
section
/-! DEFINITION. Local time and the calendar (R262, R263): dates from days, daylight saving, the tariff of an instant,
and the monthly boundary (R268). Seconds count from 2000-01-01 (R38). -/

namespace Sys2Proof.Machine

/-! ### Dates -/

/-- A calendar date. -/
structure Date where
  year  : Nat
  month : Nat
  day   : Nat
  deriving DecidableEq, Repr

/-- Days from 0000-03-01 to 2000-01-01 in the Gregorian calendar. -/
def epochDays : Int := 730425

/-- The date that lies `d` days after 2000-01-01. Years are counted from March, in blocks of 400. -/
def dateOf (d : Int) : Date :=
  let z := (d + epochDays).toNat
  let doe := z % 146097
  let yoe := (doe - doe / 1460 + doe / 36524 - doe / 146096) / 365
  let doy := doe - (365 * yoe + yoe / 4 - yoe / 100)
  let mp := (5 * doy + 2) / 153
  let month := if mp < 10 then mp + 3 else mp - 9
  { year := yoe + z / 146097 * 400 + (if month ≤ 2 then 1 else 0), month, day := doy - (153 * mp + 2) / 5 + 1 }

/-- The number of days from 2000-01-01 to a date. -/
def daysOf (x : Date) : Int :=
  let y := if x.month ≤ 2 then x.year - 1 else x.year
  let mp := if 2 < x.month then x.month - 3 else x.month + 9
  let doy := (153 * mp + 2) / 5 + x.day - 1
  let yoe := y % 400
  ((y / 400 * 146097 + yoe * 365 + yoe / 4 - yoe / 100 + doy : Nat) : Int) - epochDays

/-- The weekday of R262: 0 = Sunday. -/
def weekday (d : Int) : Nat := ((d + 6) % 7).toNat

/-- The weekday counted from Monday = 0 (R291). -/
def mondayWeekday (d : Int) : Nat := ((d + 5) % 7).toNat

/-! ### The tariff records in force -/

/-- The records of types 0x0902 to 0x0906 in force (R296): the loaded table while it belongs to the image in force. -/
def tariffRecs (s : State) : List Rec :=
  match s.bill.table with
  | some (serial, recs) => if serial = s.cfg.serial then recs else s.cfg.recs
  | none => s.cfg.recs

/-- An unsigned field of a tariff record in force. -/
def tarN (s : State) (type key off n dflt : Nat) : Nat := recN (tariffRecs s) type key off n dflt

/-! ### Local time (R262) -/

/-- A DST rule of record 0x0902: month, week, weekday, time. -/
structure DstRule where
  month : Nat
  week  : Nat
  wday  : Nat
  time  : Nat

/-- The start rule. -/
def dstStart (s : State) : DstRule :=
  ⟨tarN s 0x0902 0 4 1 3, tarN s 0x0902 0 5 1 5, tarN s 0x0902 0 6 1 0, tarN s 0x0902 0 8 2 120⟩

/-- The end rule. -/
def dstEnd (s : State) : DstRule :=
  ⟨tarN s 0x0902 0 10 1 10, tarN s 0x0902 0 11 1 5, tarN s 0x0902 0 12 1 0, tarN s 0x0902 0 14 2 120⟩

/-- Standard offset in seconds. -/
def stdOffset (s : State) : Int := recI (tariffRecs s) 0x0902 0 0 2 0 * 60

/-- DST offset in seconds. -/
def dstOffset (s : State) : Int := (tarN s 0x0902 0 2 1 0 : Int) * 60

/-- The day of a rule in a year. -/
def ruleDay (x : DstRule) (year : Nat) : Int :=
  let first := daysOf ⟨year, x.month, 1⟩
  let shift := (x.wday + 7 - weekday first) % 7
  let next := daysOf (if x.month = 12 then ⟨year + 1, 1, 1⟩ else ⟨year, x.month + 1, 1⟩)
  let d := first + shift + 7 * (x.week - 1 : Nat)
  if d < next then d else d - 7

/-- The instant of a rule in local standard time. -/
def ruleInstant (x : DstRule) (year : Nat) : Int := ruleDay x year * 86400 + x.time * 60

/-- Daylight saving is in force at an instant of local standard time. -/
def dstAt (s : State) (std : Int) : Bool :=
  let y := (dateOf (std / 86400)).year
  let a := ruleInstant (dstStart s) y
  let b := ruleInstant (dstEnd s) y
  dstOffset s != 0 && (if a ≤ b then a ≤ std && std < b else a ≤ std || std < b)

/-- The local offset in force at a UTC second, s. -/
def offsetAt (s : State) (utc : Int) : Int :=
  stdOffset s + (if dstAt s (utc + stdOffset s) then dstOffset s else 0)

/-- Local time of a UTC second, in seconds. -/
def localOf (s : State) (utc : Int) : Int := utc + offsetAt s utc

/-- The first UTC second at which local time has reached `l`: the first occurrence of a local time that occurs twice, and
the instant after the gap for one that does not occur (R268). -/
def utcOf (s : State) (l : Int) : Int :=
  let summer := l - stdOffset s - dstOffset s
  let winter := l - stdOffset s
  if dstAt s (summer + stdOffset s) then summer
  else if !dstAt s (winter + stdOffset s) then winter
  else ruleInstant (dstStart s) (dateOf ((winter + stdOffset s) / 86400)).year - stdOffset s

/-- Local time now, none while the clock is not valid. -/
def localNow (s : State) : Option Int := (utcNow s).map (fun u => localOf s u)

/-- Weekday (0 = Monday) and minute of the day, local. -/
def localClock (s : State) : Option (Nat × Nat) :=
  (localNow s).map (fun l => (mondayWeekday (l / 86400), (l % 86400 / 60).toNat))

/-- The UTC second of the next local time `minute` on a day of a weekday mask (bit 0 = Monday), none without a valid
clock or an empty mask. -/
def nextLocal (minute dayMask : Nat) (s : State) : Option Nat :=
  match utcNow s, localNow s with
  | some u, some l =>
    ((List.range 9).filterMap (fun (i : Nat) =>
      let d := l / 86400 + (i : Int)
      let at' := utcOf s (d * 86400 + minute * 60)
      if dayMask.testBit (mondayWeekday d) && (u : Int) < at' then some at'.toNat else none)).head?
  | _, _ => none

/-! ### The tariff of an instant (R263) -/

/-- What an evaluation finds: season, day profile, tariff. -/
structure TariffFound where
  season  : Option Nat
  profile : Option Nat
  tariff  : Nat
  deriving DecidableEq, Repr

/-- Position of a month and day in the year, for comparison. -/
def monthDay (m d : Nat) : Nat := 32 * m + d

/-- Start of a season. -/
def seasonStart (r : Rec) : Nat := monthDay (fieldN r.body 1 1) (fieldN r.body 2 1)

/-- The latest of some seasons. -/
def latestSeason (rs : List Rec) : Option Rec :=
  rs.foldl (fun best r => match best with
    | none => some r
    | some b => if seasonStart b < seasonStart r then some r else some b) none

/-- The records of a type that take effect. -/
def effective (s : State) (type : Nat) : List Rec :=
  (tariffRecs s).filter (fun r => r.defined && r.type == type && r.status == 0)

/-- The season in force on a date (step 3). -/
def seasonOn (s : State) (x : Date) : Option Rec :=
  let all := effective s 0x0903
  match latestSeason (all.filter (fun r => seasonStart r ≤ monthDay x.month x.day)) with
  | some r => some r
  | none => latestSeason all

/-- The profile of a special day, of the year if any, else of every year (step 2). -/
def specialProfile (s : State) (x : Date) : Option Nat :=
  let hits (year : Nat) : Option Rec := (effective s 0x0905).find? (fun r =>
    fieldN r.body 2 1 == x.month && fieldN r.body 3 1 == x.day && fieldN r.body 4 2 == year)
  match hits x.year with
  | some r => some (fieldN r.body 1 1)
  | none => (hits 0).map (fun r => fieldN r.body 1 1)

/-- The tariff of a profile at a minute of the day (step 4). -/
def profileTariff (body : List Byte) (minute : Nat) : Nat :=
  let points := (List.range (fieldN body 1 1)).map (fun j => (fieldN body (4 + 4 * j) 2, fieldN body (6 + 4 * j) 1))
  match (points.filter (fun p => p.1 ≤ minute)).getLast? with
  | some p => p.2
  | none => points.getLast?.elim 0 (fun p => p.2)

/-- The evaluation of the calendar at a local time (steps 2 to 5). -/
def tariffAt (s : State) (l : Int) : TariffFound :=
  let d := l / 86400
  let date := dateOf d
  let season := seasonOn s date
  let profile := (specialProfile s date).getD (season.elim 0 (fun r => fieldN r.body (4 + mondayWeekday d) 1))
  { season := season.map (fun r => r.key), profile := some profile
    tariff := (findRec (tariffRecs s) 0x0904 profile).elim 0 (fun r => profileTariff r.body (l % 86400 / 60).toNat) }

/-- The tariff that an evaluation finds now; T0 while the clock is not valid (step 1). -/
def tariffNow (s : State) : TariffFound :=
  match localNow s with
  | some l => tariffAt s l
  | none => ⟨none, none, 0⟩

/-! ### Monthly boundaries (R268) -/

/-- The UTC second of the boundary of a month, counted in months from year 0. -/
def boundaryOf (s : State) (month : Nat) : Int :=
  let day := daysOf ⟨month / 12, month % 12 + 1, cfgN s 0x0901 0 5 1 1⟩
  utcOf s (day * 86400 + cfgN s 0x0901 0 6 2 0 * 60)

/-- The month of a UTC second, local, counted in months from year 0. -/
def monthAt (s : State) (utc : Int) : Nat :=
  let x := dateOf (localOf s utc / 86400)
  12 * x.year + x.month - 1

/-- The boundaries of the months about an instant, rising. -/
def boundariesNear (s : State) (utc : Int) : List Int :=
  (List.range 4).map (fun i => boundaryOf s (monthAt s utc + i - 1))

/-- The first monthly boundary after an instant. -/
def boundaryAfter (s : State) (utc : Int) : Option Int := (boundariesNear s utc).find? (fun b => utc < b)

/-- The latest monthly boundary at or before an instant. -/
def boundaryBefore (s : State) (utc : Int) : Option Int := ((boundariesNear s utc).filter (fun b => b ≤ utc)).getLast?

end Sys2Proof.Machine
end

