-- ==== Sys2Proof/Machine/Decimate.lean ====
section
/-! DEFINITION. From modulator bits to codes (R70, R74, R76): the sinc decimators of the two paths, computed exactly, and the
FIR decimator, whose taps the manual leaves open (`Config.firTap`). -/

namespace Sys2Proof.Machine

/-- A data bit counts +1 or −1 (R70). -/
def bitLevel (b : Bool) : Int := if b then 1 else -1

/-- The sums of a list up to each place, from a start on. -/
def runningSums : Int → List Int → List Int
  | a, [] => [a]
  | a, x :: rest => a :: runningSums (a + x) rest

/-- The sums of every `n` values in a row: one stage of a sinc filter. -/
def movingSums (n : Nat) (l : List Int) : List Int :=
  let p := runningSums 0 l
  (p.drop n).zipWith (fun a b => a - b) p

/-- `k` stages of a sinc filter. -/
def sincStages (n : Nat) : Nat → List Int → List Int
  | 0, l => l
  | k + 1, l => sincStages n k (movingSums n l)

/-- Every `n`-th value; the argument counts the values to skip. -/
def everyNth (n : Nat) : Nat → List Int → List Int
  | _, [] => []
  | 0, x :: rest => x :: everyNth n (n - 1) rest
  | k + 1, _ :: rest => everyNth n k rest

/-- A sinc decimator: `k` stages over `n` values, one output per `n` inputs. A full ones density gives n^k. -/
def sincDecimate (n k : Nat) (l : List Int) : List Int := everyNth n 0 (sincStages n k l)

/-! ### The protection path (R74) -/

/-- A 14-bit code, saturated. -/
def protClamp (v : Int) : Int := clamp (-8192) 8191 v

/-- The protection samples of a bit stream: sinc3 over 32 bits. Ones density d is (2d − 1) 2^15 at its output and (2d − 1) 2^13
as a code; the rounding is open (log entry 6). -/
def protCodes (bits : List Bool) : List Int :=
  (sincDecimate 32 3 (bits.map bitLevel)).map (fun v : Int => protClamp (openRound ((v : Rat) / 4)))

/-! ### The metrology path (R76) -/

/-- A 24-bit code, saturated: the levels of CLIP (R75). -/
def metClamp (v : Int) : Int := clamp (-8388608) 8388607 v

/-- A code at one of the saturation levels. -/
def saturated (v : Int) : Bool := v == -8388608 || v == 8388607

/-- The sinc4 ratio, FIR taps, and decimation as a fraction, of an MCLK code. -/
def sincRatio (mclk : Nat) : Nat := if mclk = 2 then 64 else 32
def firTaps (mclk : Nat) : Nat := if mclk = 1 then 6720 else 840
def firUp (mclk : Nat) : Nat := if mclk = 1 then 5 else 1
def firDown (mclk : Nat) : Nat := if mclk = 1 then 64 else 8

/-- A FIR output at a place of the stream raised `up` times: the taps against the values there and before. -/
def firAt (mclk : Nat) (l : List Int) (place : Nat) : Rat :=
  sumRat ((List.range (firTaps mclk)).map (fun t =>
    let i := place + firTaps mclk - 1 - t
    if i % firUp mclk = 0 then Config.firTap mclk t * (l.getD (i / firUp mclk) 0) else 0))

/-- The number of outputs that a list of intermediate values holds in full. -/
def firCount (mclk n : Nat) : Nat :=
  if firUp mclk * n < firTaps mclk then 0 else (firUp mclk * n - firTaps mclk) / firDown mclk + 1

/-- The codes of the input stream that a bit stream gives (R70, R76). -/
def metCodes (mclk : Nat) (bits : List Bool) : List Int :=
  let l := sincDecimate (sincRatio mclk) 4 (bits.map bitLevel)
  (List.range (firCount mclk l.length)).map (fun j =>
    metClamp (openRound (firAt mclk l (j * firDown mclk) * 2 ^ 23 / ((sincRatio mclk : Nat) ^ 4 : Nat))))

end Sys2Proof.Machine
end

