-- ==== Sys2Proof/Machine/Dial.lean ====
section
/-! DEFINITION. The dial (R5, R27, R34, R36): the oscillator, how it moves on with time and with the events of the cycle, and
the doorbells it rings on its way. -/

namespace Sys2Proof.Machine

/-- Change Sundial. -/
def setSun (f : Sundial → Sundial) (s : State) : State := { s with sun := f s.sun }

/-- Stamp `a` is later than stamp `b` (R5): by the half-range rule on the cycle count, or at the same count by the angle. -/
def laterStamp (a b : Stamp) : Bool := later a.cycle b.cycle || (a.cycle == b.cycle && decide (b.angle < a.angle))

/-! ### The oscillator (R27) -/

/-- The frequency word of a frequency in mHz: one step is 400 MHz / 2^48. The rounding is open (log entry 6). -/
def freqWordOf (mHz : Rat) : Nat := (openRound (mHz * 2 ^ 48 / 400000000000)).toNat

/-- The frequency of a frequency word, in mHz. -/
def freqOfWord (w : Nat) : Rat := (w : Rat) * 400000000000 / 2 ^ 48

/-- The phase of the dial: 16 bits of angle and 32 fractional bits. -/
def dialPhase (x : Sundial) : Nat := x.angle * 2 ^ 32 + x.frac.toNat

/-- The end of the dial cycle. -/
def cyclePhase : Nat := 2 ^ 48

/-! ### Doorbells (R36) -/

/-- The order in which doorbells ring: by angle, and at one angle in the order of the element table (R35) and by slot. -/
def Doorbell.before (a b : Doorbell) : Bool :=
  decide (a.angle < b.angle) || (a.angle == b.angle && (decide (a.elem < b.elem) ||
    (a.elem == b.elem && decide (a.slot ≤ b.slot))))

/-- Put a doorbell in its place. -/
def insertDoorbell (d : Doorbell) : List Doorbell → List Doorbell
  | [] => [d]
  | x :: rest => if d.before x then d :: x :: rest else x :: insertDoorbell d rest

/-- The doorbell is due when the dial reaches its angle in this cycle. -/
def Doorbell.due (d : Doorbell) : Bool := d.left == 0 && !d.rung

/-- A doorbell rings: the event wakes its element. -/
def ring (d : Doorbell) (s : State) : State :=
  emit (.doorbell d.elem d.slot) { s with fabric := { s.fabric with
    waiting := withoutBit s.fabric.waiting d.elem
    doorbells := s.fabric.doorbells.map (fun x =>
      if x.elem = d.elem ∧ x.slot = d.slot then { x with rung := true } else x) } }

/-- The dial leaves the angles from `lo` up to and without `hi`: the doorbells there ring, after every event at their angle
(R35). -/
def ringPassed (lo hi : Nat) (s : State) : State :=
  (s.fabric.doorbells.filter (fun d => d.due && decide (lo ≤ d.angle) && decide (d.angle < hi))).foldl (fun t d => ring d t) s

/-- A dial cycle ends: the doorbells left ring, and every slot counts towards its next cycle. -/
def ringCycle (s : State) : State :=
  let t := ringPassed s.sun.angle 65536 s
  { t with fabric := { t.fabric with doorbells := t.fabric.doorbells.map (fun d =>
      { d with left := if d.left = 0 then d.period - 1 else d.left - 1, rung := false }) } }

/-! ### Events of the cycle (R34) -/

/-- The dial reaches an angle of its schedule. An event that comes for an angle behind the dial sets it there. -/
def reachAngle (angle : Nat) (s : State) : State :=
  let t := if s.sun.angle ≤ angle then ringPassed s.sun.angle angle s else s
  setSun (fun x => { x with angle := angle, frac := 0 }) t

/-- The dial has reached an angle, at which a sample was the last (R119). -/
def dialAtLeast (angle : Nat) (s : State) : State := if s.sun.angle < angle then reachAngle angle s else s

/-! ### Time -/

/-- A millisecond of 400 MHz clocks. -/
def clocksPerMs : Nat := 400000

/-- A millisecond passes (log entry 2): the oscillator goes on by its frequency word at every clock, up to the end of the
cycle, which is an event of its own. -/
def tick (s : State) : State :=
  let phase := min (cyclePhase - 1) (dialPhase s.sun + clocksPerMs * s.sun.freqWord)
  let t := ringPassed s.sun.angle (phase / 2 ^ 32) { s with clockMs := s.clockMs + 1 }
  setSun (fun x => { x with angle := phase / 2 ^ 32, frac := BitVec.ofNat 32 phase }) t

end Sys2Proof.Machine
end

