-- ==== Sys2Proof/Machine/MemoryMap.lean ====
section
/-! DEFINITION. Elements, clusters, the memory map and the rights to it (R9, R11, R12), and accesses to its words (R13, R14).
The areas that the manual lays out in memory are held in the fields of the chapters that own them, and `fabric.mem` holds
what the elements' own accesses have written (log entry 58). -/

namespace Sys2Proof.Machine

/-! ### Processing elements (R9) -/

/-- Arbitration clusters. -/
inductive Cluster where
  | domain | metrology | link | service
  deriving DecidableEq, Repr

/-- The cluster of an element. -/
def clusterOf (elem : Nat) : Cluster :=
  if elem < 2 then .domain else if elem < 4 then .metrology else if elem < 9 then .link else .service

/-- The home banks of an element. -/
def homeBanks (elem : Nat) : List Nat :=
  if elem = Elem.domA then [0, 1, 2]
  else if elem = Elem.domB then [3, 4, 5]
  else if elem < 4 then [6]
  else if elem < 9 then [7]
  else if elem = Elem.cis then [8]
  else if elem = Elem.hst then [10]
  else [9]

/-- The interfaces of the module. -/
inductive Interface where
  | application
  | channel (c : Chan)
  | mclk
  | pilot (o : Outlet) | proximity (o : Outlet) | phy (o : Outlet)
  | wadiCoupler
  | scarecrowPermit
  | reader (p : Fin 2) | tagWired
  | panels
  | keyStore | trng | otpPort | crypto
  | e0 | e1 | spi | trellis | can (c : Fin 2) | flash
  deriving DecidableEq, Repr

/-- The one element that drives an interface. -/
def owner (s : State) : Interface → Nat
  | .application => s.dom.active
  | .channel c => if (8 ≤ c.val ∧ c.val < 16) ∨ c.val = 23 then Elem.met1 else Elem.met0
  | .mclk => Elem.met0
  | .pilot o => Elem.vl0 + o.val
  | .proximity o => Elem.vl0 + o.val
  | .phy o => Elem.vl0 + o.val
  | .wadiCoupler => Elem.wad
  | .scarecrowPermit => Elem.scr
  | .reader _ => Elem.fld
  | .tagWired => Elem.fld
  | .panels => Elem.pnl
  | .keyStore => Elem.cis
  | .trng => Elem.cis
  | .otpPort => Elem.cis
  | .crypto => Elem.cis
  | .e0 => Elem.hst
  | .e1 => Elem.hst
  | .spi => Elem.hst
  | .trellis => Elem.hst
  | .can _ => Elem.hst
  | .flash => Elem.hst

/-! ### The memory map (R11) -/

/-- Array codes of R517. -/
def arrayRom : Nat := 12
def arraySieve : Nat := 13
def arrayRetention : Nat := 14

/-- The windows of the address map. -/
inductive Window where
  | rom
  | sram (bank : Nat)
  | sieve
  | otp
  | retention
  | flash
  deriving DecidableEq, Repr

/-- Where retention SRAM begins. -/
def retentionBase : Nat := 0x31000000

/-- The window of an address, none outside the listed ones. -/
def windowOf (addr : Nat) : Option Window :=
  if addr < 0x40000 then some .rom
  else if 0x10000000 ≤ addr ∧ addr < 0x10600000 then some (.sram ((addr - 0x10000000) / 0x80000))
  else if 0x20000000 ≤ addr ∧ addr < 0x20080000 then some .sieve
  else if 0x30000000 ≤ addr ∧ addr < 0x30001000 then some .otp
  else if retentionBase ≤ addr ∧ addr < retentionBase + 0x1000 then some .retention
  else if 0x40000000 ≤ addr ∧ addr < 0x44000000 then some .flash
  else none

/-- The window of an array of R517. -/
def arrayWindow (array : Nat) : Option Window :=
  if array < 12 then some (.sram array)
  else if array = arrayRom then some .rom
  else if array = arraySieve then some .sieve
  else if array = arrayRetention then some .retention
  else none

/-! ### Rights (R12) -/

/-- The role of an element: the rights of a domain follow the role, not the letter. -/
def isActive (s : State) (elem : Nat) : Bool := elem == s.dom.active
def isStandby (s : State) (elem : Nat) : Bool := elem == 1 - s.dom.active

/-- MET0 or MET1; VL0 to VL3 or WAD; SCR, FLD or PNL. -/
def isMet (elem : Nat) : Bool := elem == Elem.met0 || elem == Elem.met1
def isLink (elem : Nat) : Bool := Elem.vl0 ≤ elem && elem ≤ Elem.wad
def isService9 (elem : Nat) : Bool := elem == Elem.scr || elem == Elem.fld || elem == Elem.pnl

/-- The special areas of banks 7, 8 and 9. -/
def inMailbox (addr : Nat) : Bool := 0x103FC000 ≤ addr && addr ≤ 0x103FFFFF
def inQueues (addr : Nat) : Bool := 0x10478000 ≤ addr && addr ≤ 0x1047FFFF
def inLane (addr : Nat) : Bool := 0x104F0000 ≤ addr && addr ≤ 0x104F0FFF
def inStatusWords (addr : Nat) : Bool := 0x104F1000 ≤ addr && addr ≤ 0x104F10FF

/-- An element that may write into the request queues of bank 8 besides CIS. -/
def queueWriter (s : State) (elem : Nat) : Bool :=
  isActive s elem || isMet elem || isLink elem || elem == Elem.fld || elem == Elem.hst

/-- An element may write at an address of a bank. -/
def bankWrite (s : State) (elem bank addr : Nat) : Bool :=
  match bank with
  | 0 | 1 | 2 => elem == Elem.domA
  | 3 | 4 | 5 => elem == Elem.domB
  | 6 => isMet elem
  | 7 => isLink elem || (isActive s elem && inMailbox addr)
  | 8 => elem == Elem.cis || (queueWriter s elem && inQueues addr)
  | 9 =>
    if inStatusWords addr then false
    else if inLane addr then isMet elem
    else isService9 elem && Config.regionOf addr == elem
  | 10 => elem == Elem.hst || isActive s elem
  | _ => isActive s elem

/-- An element may read at an address of a bank. -/
def bankRead (s : State) (elem bank addr : Nat) : Bool :=
  match bank with
  | 0 | 1 | 2 => elem == Elem.domA
  | 3 | 4 | 5 => elem == Elem.domB
  | 6 => isMet elem || isActive s elem || elem == Elem.scr
  | 7 => isLink elem || isActive s elem || elem == Elem.scr
  | 8 => elem == Elem.cis || (queueWriter s elem && inQueues addr && Config.queueOf addr == elem)
  | 9 => isService9 elem || isActive s elem || (isMet elem && (inLane addr || inStatusWords addr))
  | 10 => !isStandby s elem
  | _ => isActive s elem || isStandby s elem

/-- An element may access one byte. The windows of ROM, OTP and flash are read only (R11); for the Sieve and for retention
SRAM the manual gives no rights by element, and the model permits (log entry 58). -/
def mayAccess (s : State) (elem : Nat) (write : Bool) (addr : Nat) : Bool :=
  match windowOf addr with
  | none => false
  | some .rom => !write
  | some .otp => !write
  | some .flash => !write
  | some .sieve => true
  | some .retention => true
  | some (.sram b) => if write then bankWrite s elem b addr else bankRead s elem b addr

/-! ### Words (R14) -/

/-- The list holds bytes in the one canonical form: addresses strictly rising, and no byte of 0, which every other address
reads as (log entry 58). -/
def Memory.wf : List Host.Cell → Bool
  | [] => true
  | (a, v) :: rest => v != 0 && (rest.head?.all (fun c => a < c.1)) && Memory.wf rest

/-- The byte at an address. -/
def Memory.read : List Host.Cell → Nat → Byte
  | [], _ => 0
  | (a, v) :: rest, x => if a = x then v else Memory.read rest x

/-- Put a byte. -/
def Memory.write : List Host.Cell → Nat → Byte → List Host.Cell
  | [], x, v => if v = 0 then [] else [(x, v)]
  | (a, w) :: rest, x, v =>
    if x < a then (if v = 0 then (a, w) :: rest else (x, v) :: (a, w) :: rest)
    else if x = a then (if v = 0 then rest else (x, v) :: rest)
    else (a, w) :: Memory.write rest x v

/-- Put bytes from an address on. -/
def Memory.store (m : List Host.Cell) (addr : Nat) : List Byte → List Host.Cell
  | [] => m
  | b :: bs => Memory.store (Memory.write m addr b) (addr + 1) bs

/-- The bytes from an address on, as a word (R3). -/
def Memory.load (m : List Host.Cell) (addr n : Nat) : Nat := leNat ((List.range n).map (fun i => Memory.read m (addr + i)))

/-- The bytes of a 32-bit or 64-bit word. -/
def wordLen (wide : Bool) : Nat := if wide then 8 else 4

/-- The bytes that an access takes in. -/
def accessLength : Access → Nat
  | .read w => wordLen w
  | .write bs => bs.length
  | .fetchAdd w _ => wordLen w
  | .swap w _ => wordLen w
  | .compareSwap w _ _ => wordLen w

/-- The access writes; every access but a write also reads. -/
def accessWrites : Access → Bool
  | .read _ => false
  | .write _ => true
  | .fetchAdd _ _ => true
  | .swap _ _ => true
  | .compareSwap _ _ _ => true

def accessReads : Access → Bool
  | .read _ => true
  | .write _ => false
  | .fetchAdd _ _ => true
  | .swap _ _ => true
  | .compareSwap _ _ _ => true

/-- Every byte of an access is permitted to the element (R12). -/
def accessPermitted (s : State) (elem : Nat) (a : Access) (addr : Nat) : Bool :=
  (List.range (accessLength a)).all (fun i =>
    (!accessWrites a || mayAccess s elem true (addr + i)) && (!accessReads a || mayAccess s elem false (addr + i)))

/-- What a permitted access leaves in memory (R14): a single access of the bank. -/
def accessResult (m : List Host.Cell) (a : Access) (addr : Nat) : List Host.Cell :=
  match a with
  | .read _ => m
  | .write bs => Memory.store m addr bs
  | .fetchAdd w v => Memory.store m addr (leBytes (wordLen w) (Memory.load m addr (wordLen w) + v))
  | .swap w v => Memory.store m addr (leBytes (wordLen w) v)
  | .compareSwap w e v =>
    if Memory.load m addr (wordLen w) = e then Memory.store m addr (leBytes (wordLen w) v) else m

/-! ### The flash (R15) -/

/-- The partitions of the flash. -/
inductive Partition where
  | bootA | bootB | legalA | legalB | appA | appB | engineA | engineB | configA | configB | log | records | stress | reserved
  deriving DecidableEq, Repr

/-- The erase sector. -/
def sector : Nat := 4096

/-- Offset of a partition. -/
def Partition.offset : Partition → Nat
  | .bootA => 0x00000000
  | .bootB => 0x00080000
  | .legalA => 0x00100000
  | .legalB => 0x00300000
  | .appA => 0x00500000
  | .appB => 0x00D00000
  | .engineA => 0x01500000
  | .engineB => 0x01700000
  | .configA => 0x01900000
  | .configB => 0x01940000
  | .log => 0x01980000
  | .records => 0x01D80000
  | .stress => 0x01E80000
  | .reserved => 0x01EC0000

/-- Size of a partition in bytes. -/
def Partition.size : Partition → Nat
  | .bootA => 512 * 1024
  | .bootB => 512 * 1024
  | .legalA => 2048 * 1024
  | .legalB => 2048 * 1024
  | .appA => 8192 * 1024
  | .appB => 8192 * 1024
  | .engineA => 2048 * 1024
  | .engineB => 2048 * 1024
  | .configA => 256 * 1024
  | .configB => 256 * 1024
  | .log => 4096 * 1024
  | .records => 1024 * 1024
  | .stress => 256 * 1024
  | .reserved => 34048 * 1024

/-- The partition of a region's slot (R416): regions BOOT, LEGAL, APP, ENGINE and CONFIG. -/
def slotPartition (r : Nat) (slotB : Bool) : Partition :=
  match r, slotB with
  | 0, false => .bootA
  | 0, true => .bootB
  | 1, false => .legalA
  | 1, true => .legalB
  | 2, false => .appA
  | 2, true => .appB
  | 3, false => .engineA
  | 3, true => .engineB
  | _, false => .configA
  | _, true => .configB

end Sys2Proof.Machine
end

