-- ==== Sys2Proof/Machine/Records.lean ====
section
/-! DEFINITION. The records of the configuration image: one table row per record type (R47 tests 1 to 8, R48), the
owning chapters' own checks (test 9), the image format and its checks (R43 to R47), and the digest (R60, R61). -/

namespace Sys2Proof.Machine

/-! ### Field tests (R47 test 8, R48; log entry 7) -/

/-- What the values of a field are: a number that R48 counts (0 refused with LEN_ZERO unless allowed), a code, index,
time or address in a range, a signed value in a range, one of a set of codes or of counts, a mask, anything, or
reserved. -/
inductive Kind where
  | count (lo hi : Nat) (zero : Bool)
  | span (lo hi : Nat)
  | signed (lo hi : Int)
  | codes (l : List Nat)
  | counts (l : List Nat)
  | mask (m : Nat)
  | nonzero
  | netmask
  | any
  | reserved
  deriving DecidableEq, Repr

/-- A field of a record: offset, width in bytes, values. -/
structure FieldSpec where
  off  : Nat
  len  : Nat
  kind : Kind
  deriving DecidableEq, Repr

/-- A mask whose set bits are contiguous from the top (R65). -/
def contiguous (v : Nat) : Bool := (List.range 33).any (fun k => v == 2 ^ 32 - 2 ^ k)

/-- The status of one field (R47 test 8). -/
def fieldStatus (body : List Byte) (f : FieldSpec) : Nat :=
  let v := fieldN body f.off f.len
  match f.kind with
  | .count lo hi zero =>
    if v = 0 then (if zero then St.ok else St.lenZero) else if lo ≤ v ∧ v ≤ hi then St.ok else St.range
  | .span lo hi => if lo ≤ v ∧ v ≤ hi then St.ok else St.range
  | .signed lo hi =>
    let w := asSigned f.len v
    if lo ≤ w ∧ w ≤ hi then St.ok else St.range
  | .codes l => if v ∈ l then St.ok else St.range
  | .counts l => if v = 0 then St.lenZero else if v ∈ l then St.ok else St.range
  | .mask m => if v &&& m = v then St.ok else St.range
  | .nonzero => if v = 0 then St.lenZero else St.ok
  | .netmask => if contiguous v then St.ok else St.range
  | .any => St.ok
  | .reserved => if v = 0 then St.ok else St.range

/-- The status of a payload: that of its first failing field. -/
def firstFail (body : List Byte) : List FieldSpec → Nat
  | [] => St.ok
  | f :: fs => if fieldStatus body f = St.ok then firstFail body fs else fieldStatus body f

/-- A number that R48 counts and that may not be 0. -/
def cnt (off len lo hi : Nat) : FieldSpec := ⟨off, len, .count lo hi false⟩
/-- A number that may be 0. -/
def cntZ (off len lo hi : Nat) : FieldSpec := ⟨off, len, .count lo hi true⟩
/-- A code, index or time in a range. -/
def span (off len lo hi : Nat) : FieldSpec := ⟨off, len, .span lo hi⟩
/-- A signed value in a range. -/
def sgn (off len : Nat) (lo hi : Int) : FieldSpec := ⟨off, len, .signed lo hi⟩
/-- A mask of defined bits. -/
def msk (off len m : Nat) : FieldSpec := ⟨off, len, .mask m⟩
/-- A reserved field. -/
def rsv (off len : Nat) : FieldSpec := ⟨off, len, .reserved⟩
/-- A field without a restriction. -/
def anyF (off len : Nat) : FieldSpec := ⟨off, len, .any⟩

/-! ### Calendar (R262, R291, R293) -/

/-- A leap year. -/
def leapYear (y : Nat) : Bool := y % 4 == 0 && (y % 100 != 0 || y % 400 == 0)

/-- The days of a month; `leap` gives February 29. -/
def daysIn (leap : Bool) (m : Nat) : Nat :=
  match m with
  | 2 => if leap then 29 else 28
  | 4 => 30
  | 6 => 30
  | 9 => 30
  | 11 => 30
  | _ => 31

/-! ### The record types -/

/-- A record type: level, shortest and longest payload, the key field, the length rule inside the range, and the
fields of a payload. `typeOf` gives the outlet types that the image's records name. -/
structure RecSpec where
  level  : Nat
  lo     : Nat
  hi     : Nat
  key    : Option (Nat × Nat)
  lenOk  : List Byte → Bool
  fields : (typeOf : Nat → Nat) → List Byte → List FieldSpec

/-- A type of one length without a key. -/
def fixedRec (level len : Nat) (fs : List FieldSpec) : RecSpec :=
  ⟨level, len, len, none, fun _ => true, fun _ _ => fs⟩

/-- A type of one length keyed by its first byte. -/
def keyedRec (level len : Nat) (fs : List FieldSpec) : RecSpec :=
  ⟨level, len, len, some (0, 1), fun _ => true, fun _ _ => fs⟩

/-- System records (R64 to R66). -/
def recSpec01 : Nat → Option RecSpec
  | 0x0101 => some (fixedRec 0 8 [span 0 1 0 1, msk 1 1 7, cnt 2 2 1 60, cnt 4 2 50 1000, rsv 6 2])
  | 0x0102 => some (fixedRec 0 20 [anyF 0 4, ⟨4, 4, .netmask⟩, anyF 8 4, ⟨12, 4, .netmask⟩, anyF 16 4])
  | 0x0103 => some ⟨0, 1, 32, none, fun _ => true, fun _ _ => []⟩
  | _ => none

/-- Sundial records (R39, R40). -/
def recSpec02 : Nat → Option RecSpec
  | 0x0201 => some (fixedRec 0 8 [span 0 1 0 1, cnt 1 1 10 50, rsv 2 2, cnt 4 4 10000 40000])
  | 0x0202 => some (fixedRec 1 8 [cnt 0 1 4 64, cnt 1 1 2 50, cnt 2 2 64 4096, cnt 4 2 10 500, cnt 6 2 16 1024])
  | _ => none

/-- Acquisition records (R85 to R88). Bit 16 of the enable mask must be 1 (R72). -/
def recSpec03 : Nat → Option RecSpec
  | 0x0301 => some (fixedRec 0 8 [span 0 1 0 2, span 1 1 0 2, span 2 1 0 1, rsv 3 1, msk 4 4 0xFFFFFF,
      ⟨6, 1, .codes ((List.range 256).filter (fun v => v % 2 == 1))⟩])
  | 0x0302 => some (keyedRec 0 12 [span 0 1 0 23, span 1 1 0 7, span 2 1 0 1, rsv 3 1, cnt 4 4 1 0xFFFFFFFF, rsv 8 4])
  | 0x0303 => some (keyedRec 0 16 [span 0 1 0 23, rsv 1 3, span 4 4 0x20000000 0x60000000,
      sgn 8 4 (-268435456) 268435455, sgn 12 2 (-16384) 16384, rsv 14 2])
  | 0x0304 => some (fixedRec 1 8 [cnt 0 2 32 1024, cnt 2 1 100 120, cnt 3 1 1 50, rsv 4 4])
  | _ => none

/-- Quantities records (R126 to R129). -/
def recSpec04 : Nat → Option RecSpec
  | 0x0401 => some (fixedRec 0 8 [msk 0 4 0xBBBBBBBB, cnt 4 2 15 1440, rsv 6 2])
  | 0x0402 => some (keyedRec 0 12 [span 0 1 0 3, span 1 1 0 2, span 2 1 0 1, rsv 3 1, cntZ 4 4 0 200000,
      cntZ 8 2 0 6000, sgn 10 2 (-400) 1500])
  | 0x0403 => some (keyedRec 0 8 [span 0 1 0 7, span 1 1 0 52, cnt 2 1 10 200, rsv 3 1, cntZ 4 4 0 1000000])
  | 0x0404 => some (fixedRec 1 8 [cnt 0 1 5 20, cnt 1 1 1 60, rsv 2 6])
  | _ => none

/-- The length that a server chain of `n` certificates has from an offset on (R162), none if it runs out. -/
def chainLength (body : List Byte) : Nat → Nat → Nat
  | 0, off => off
  | n + 1, off => chainLength body n (off + 2 + fieldN body off 2)

/-- The certificate length fields of a server chain (R162). -/
def chainFields (body : List Byte) : Nat → Nat → List FieldSpec
  | 0, _ => []
  | n + 1, off => cnt off 2 1 1600 :: chainFields body n (off + 2 + fieldN body off 2)

/-- Vehicle-link records (R159 to R162). -/
def recSpec05 : Nat → Option RecSpec
  | 0x0501 => some (keyedRec 0 16 [span 0 1 0 3, msk 1 1 7, span 2 1 0 1, span 3 1 0 2, msk 4 1 3, msk 5 1 7,
      span 6 1 0 1, cntZ 7 1 0 3, span 8 1 0 1, cnt 9 1 6 80, sgn 10 1 (-10) 10, rsv 11 5])
  | 0x0502 => some (keyedRec 1 8 [span 0 1 0 3, cnt 1 1 20 50, sgn 2 1 (-90) (-72), span 3 1 1 2, cnt 4 1 2 10,
      cnt 5 1 2 50, rsv 6 2])
  | 0x0503 => some ⟨0, 9, 1608, some (0, 1), fun b => fieldN b 2 2 + 8 == b.length,
      fun _ _ => [span 0 1 0 15, span 1 1 0 1, cnt 2 2 1 1600, rsv 4 4]⟩
  | 0x0504 => some ⟨0, 7, 4810, none,
      fun b => fieldN b 0 1 = 0 || 3 < fieldN b 0 1 || chainLength b (fieldN b 0 1) 4 == b.length,
      fun _ b => [cnt 0 1 1 3, rsv 1 3] ++ chainFields b (min 3 (fieldN b 0 1)) 4⟩
  | _ => none

/-- Field codes of the converter map (R190): message code × 16 plus row. -/
def mapCodes : List Nat :=
  [0x01, 0x02, 0x03, 0x11, 0x12, 0x13, 0x21, 0x22, 0x23, 0x24, 0x25, 0x81, 0x82, 0x83, 0x84, 0x85, 0x86,
   0x91, 0x92, 0x93, 0x94, 0x95]

/-- Session records (R165, R196, R199, R190). -/
def recSpec06 : Nat → Option RecSpec
  | 0x0601 => some ⟨0, 24, 24, some (0, 1), fun _ => true, fun _ b =>
      [span 0 1 0 3, span 1 1 0 4] ++
      (if 3 ≤ fieldN b 1 1 then [] else [span 2 1 0 1, span 3 1 0 15, cnt 4 4 5000 150000]) ++
      [cnt 8 4 6000 3000000, cnt 12 4 1000 4500000, cnt 16 1 1 8, msk 17 1 3, span 18 1 0 2, msk 19 1 7,
       cnt 20 2 20 120, rsv 22 2]⟩
  | 0x0602 => some (fixedRec 0 28 [cnt 0 4 1000 72000000, cntZ 4 4 0 72000000, cnt 8 4 1000 4000000,
      cnt 12 4 1000 4000000, cnt 16 4 1000 4000000, cntZ 20 4 0 72000000, cntZ 24 4 0 72000000])
  | 0x0603 => some (keyedRec 1 16 [span 0 1 0 3, cnt 1 1 10 60, cnt 2 1 3 20, cnt 3 1 5 50, cnt 4 2 500 2000,
      cnt 6 2 1000 10000, cnt 8 2 100 2000, cnt 10 2 1 100, cnt 12 2 20 200, rsv 14 2])
  | 0x0604 => some ⟨1, 20, 20, some (0, 1), fun _ => true, fun _ b =>
      [span 0 1 0 63, ⟨1, 1, .codes mapCodes⟩, msk 2 1 7, cnt 3 1 1 32,
       span 4 4 0 (if fieldN b 2 1 % 2 = 1 then 0x1FFFFFFF else 0x7FF), span 8 2 0 511, rsv 10 2,
       ⟨12, 4, .nonzero⟩, anyF 16 4]⟩
  | _ => none

/-- Safety records (R235 to R238). The AC contactor count is ignored for a DC outlet. -/
def recSpec07 : Nat → Option RecSpec
  | 0x0701 => some (fixedRec 0 12 [span 0 1 1 2, span 1 1 0 1, cntZ 2 1 0 4, msk 3 1 0x1F, cnt 4 2 20 1000,
      cnt 6 1 10 200, span 7 1 0 1, rsv 8 4])
  | 0x0702 => some ⟨0, 20, 20, some (0, 1), fun _ => true, fun typeOf b =>
      [span 0 1 0 3] ++
      (if typeOf (fieldN b 0 1) = 1 ∨ typeOf (fieldN b 0 1) = 2 then [] else [cnt 1 1 1 2]) ++
      [cnt 2 1 1 8, cnt 3 1 3 20, cnt 4 4 1000 3600000, cnt 8 2 500 2000, cnt 10 2 100 500, cnt 12 2 4 250,
       cnt 14 2 10 100, cnt 16 2 50 2000, cnt 18 2 1000 50000]⟩
  | 0x0703 => some ⟨1, 20, 20, some (0, 1), fun _ => true, fun _ b =>
      [span 0 1 0 3, cnt 1 1 1 10, cnt 2 2 5 100, cnt 4 2 100 5000, cnt 6 2 1000 50000, cnt 8 2 50 5000,
       cnt 10 1 1 10, cnt 11 1 10 100, sgn 12 2 (-400) 1200, sgn 14 2 (fieldI b 12 2 + 50) 1500, rsv 16 4]⟩
  | 0x0704 => some (fixedRec 0 16 [span 0 2 0 4095, anyF 2 2, cnt 4 1 1 10, rsv 5 3,
      span 8 4 0xE0000000 0xEFFFFFFF, rsv 12 4])
  | _ => none

/-- Switch records (R256, R258). -/
def recSpec08 : Nat → Option RecSpec
  | 0x0801 => some ⟨0, 16, 16, some (0, 1), fun _ => true, fun _ b =>
      [span 0 1 0 15, span 1 1 0 3, span 2 1 0 1, span 3 1 0 1, cnt 4 2 500 8000, cnt 6 2 500 12000, cntZ 8 1 0 200,
       span 9 1 0 1, cntZ 10 2 10 5000] ++ (if fieldN b 1 1 = 3 then [span 12 1 0 3] else []) ++
      [cnt 13 1 30 80, rsv 14 2]⟩
  | 0x0802 => some (fixedRec 1 8 [cnt 0 1 1 50, cnt 1 1 1 20, cnt 2 2 100 5000, cnt 4 2 10 1000, rsv 6 2])
  | _ => none

/-- The switch points of a day profile (R292). -/
def profileFields : Nat → Nat → List FieldSpec
  | 0, _ => []
  | n + 1, off => span off 2 0 1439 :: span (off + 2) 1 0 15 :: rsv (off + 3) 1 :: profileFields n (off + 4)

/-- Billing records (R289 to R295). -/
def recSpec09 : Nat → Option RecSpec
  | 0x0901 => some (fixedRec 0 16 [span 0 1 0 1, span 1 1 0 1, ⟨2, 1, .counts [1, 5, 10, 15, 30, 60]⟩, cnt 3 1 1 15,
      span 4 1 0 1, cnt 5 1 1 28, span 6 2 0 1439, span 8 2 1 999, cnt 10 2 1 1000, rsv 12 4])
  | 0x0902 => some (fixedRec 0 16 [sgn 0 2 (-720) 840, ⟨2, 1, .codes [0, 30, 60, 120]⟩, rsv 3 1, span 4 1 1 12,
      span 5 1 1 5, span 6 1 0 6, rsv 7 1, span 8 2 0 1439, span 10 1 1 12, span 11 1 1 5, span 12 1 0 6, rsv 13 1,
      span 14 2 0 1439])
  | 0x0903 => some ⟨0, 12, 12, some (0, 1), fun _ => true, fun _ b =>
      [span 0 1 0 7, span 1 1 1 12, span 2 1 1 (daysIn false (fieldN b 1 1)), rsv 3 1] ++
      (List.range 7).map (fun i => span (4 + i) 1 0 15) ++ [rsv 11 1]⟩
  | 0x0904 => some ⟨0, 4, 4 + 4 * 255, some (0, 1), fun b => b.length == 4 + 4 * fieldN b 1 1, fun _ b =>
      [span 0 1 0 15, cnt 1 1 1 32, rsv 2 2] ++ profileFields (fieldN b 1 1) 4⟩
  | 0x0905 => some ⟨0, 8, 8, some (0, 1), fun _ => true, fun _ b =>
      let y := fieldN b 4 2
      [span 0 1 0 63, span 1 1 0 15, span 2 1 1 12, span 3 1 1 (daysIn (y == 0 || leapYear y) (fieldN b 2 1)),
       (if y = 0 then anyF 4 2 else span 4 2 2000 2099), rsv 6 2]⟩
  | 0x0906 => some (fixedRec 0 64 [])
  | 0x0907 => some (fixedRec 0 8 [msk 0 1 0xF, rsv 1 7])
  | _ => none

/-- Display records (R313, R314). -/
def recSpec0A : Nat → Option RecSpec
  | 0x0A01 => some (fixedRec 0 12 [⟨0, 1, .codes [1, 3]⟩, span 1 1 8 182, cnt 2 1 2 30, cnt 3 1 1 24, span 4 1 0 52,
      ⟨5, 1, .codes (255 :: List.range 53)⟩, ⟨6, 1, .codes (255 :: List.range 53)⟩,
      ⟨7, 1, .codes (255 :: List.range 53)⟩, rsv 8 4])
  | 0x0A02 => some (fixedRec 1 24 ([anyF 0 2, cnt 2 2 1 65535] ++
      (List.range 5).flatMap (fun j => [cnt (4 * j + 4) 2 1 65535, cnt (4 * j + 6) 2 1 65535])))
  | _ => none

/-- Cistern records (R349). -/
def recSpec0B : Nat → Option RecSpec
  | 0x0B01 => some (fixedRec 0 8 [span 0 1 1 2, rsv 1 1, cnt 2 2 16 512, rsv 4 4])
  | _ => none

/-- Takeover and stack records (R380 to R382). -/
def recSpec0C : Nat → Option RecSpec
  | 0x0C01 => some (fixedRec 0 8 [span 0 1 1 2, cnt 1 1 1 60, cnt 2 2 10 100, rsv 4 4])
  | 0x0C02 => some (fixedRec 0 8 [span 0 2 0 4095, anyF 2 2, anyF 4 2, rsv 6 2])
  | 0x0C03 => some (fixedRec 1 8 [cnt 0 1 1 5, rsv 1 1, cnt 2 2 10 200, cnt 4 2 20 500, rsv 6 2])
  | _ => none

/-- Wadi records (R411 to R413). -/
def recSpec0D : Nat → Option RecSpec
  | 0x0D01 => some (fixedRec 0 8 [span 0 2 1 65534, anyF 2 2, span 4 1 0 2, cntZ 5 1 1 15, span 6 1 0 1, rsv 7 1])
  | 0x0D02 => some (fixedRec 0 16 [cnt 0 4 1000 500000000, cnt 4 4 1000 20000000, cnt 8 4 1000 20000000,
      cnt 12 4 1000 20000000])
  | 0x0D03 => some (fixedRec 1 8 [cnt 0 1 4 16, cnt 1 1 1 30, cnt 2 1 1 8, cnt 3 1 10 100, rsv 4 4])
  | _ => none

/-- Update, contactless, Rake and power records (R435, R455, R456, R470, R486). -/
def recSpec0E : Nat → Option RecSpec
  | 0x0E01 => some (fixedRec 0 8 [span 0 1 1 2, span 1 1 1 2, cnt 2 2 1 720, cnt 4 2 1 168, rsv 6 2])
  | 0x0F01 => some (fixedRec 0 8 [msk 0 1 3, msk 1 1 7, msk 2 1 7, span 3 1 0 1, cnt 4 1 1 30, rsv 5 3])
  | 0x0F02 => some (fixedRec 1 8 [cnt 0 1 1 20, cnt 1 1 5 20, cnt 2 1 1 10, rsv 3 1, cnt 4 2 100 1000, rsv 6 2])
  | 0x1001 => some (fixedRec 0 8 [span 0 1 1 2, msk 1 1 0x7F, span 2 2 0 1439, cnt 4 2 10 240, rsv 6 2])
  | 0x1101 => some (fixedRec 0 8 [span 0 1 1 3, rsv 1 1, cnt 2 2 10 3600, rsv 4 4])
  | _ => none

/-- The record type of a code (R46: the high byte names the subsystem). -/
def recSpec (t : Nat) : Option RecSpec :=
  match t / 256 with
  | 0x01 => recSpec01 t
  | 0x02 => recSpec02 t
  | 0x03 => recSpec03 t
  | 0x04 => recSpec04 t
  | 0x05 => recSpec05 t
  | 0x06 => recSpec06 t
  | 0x07 => recSpec07 t
  | 0x08 => recSpec08 t
  | 0x09 => recSpec09 t
  | 0x0A => recSpec0A t
  | 0x0B => recSpec0B t
  | 0x0C => recSpec0C t
  | 0x0D => recSpec0D t
  | 0x0E => recSpec0E t
  | 0x0F => recSpec0E t
  | 0x10 => recSpec0E t
  | 0x11 => recSpec0E t
  | _ => none

end Sys2Proof.Machine
end

