-- ==== Sys2Proof/Machine/Trig.lean ====
section
/-! DEFINITION. Sine, cosine and angle of the dial (R27, R90, R105), computed in integers: the manual gives the functions and
no way to compute them, and the model holds them to within 2^-56 (log entry 6). An angle is counted in 2^-16 du, 2^32 to a
turn. -/

namespace Sys2Proof.Machine

/-- π in units of 2^-64. -/
def piFix : Nat := 57952155664616982739

/-- One in units of 2^-64. -/
def oneFix : Int := 2 ^ 64

/-- The terms of a Taylor series from a term on: each is the one before, negated, times r² / (k (k + 1)). The argument is the
number of terms. -/
def taylor : Nat → (term r2 : Int) → (k : Nat) → Int
  | 0, _, _, _ => 0
  | n + 1, term, r2, k => term + taylor n (-(term * r2 / 2 ^ 64) / ((k * (k + 1) : Nat) : Int)) r2 (k + 2)

/-- Radians, in 2^-64, of a signed angle in 2^-16 du. -/
def radians (a : Int) : Int := a * piFix / 2 ^ 31

/-- An angle as a signed one, from half a turn below 0 to half a turn above. -/
def signedAngle (a : Int) : Int := if a % 2 ^ 32 < 2 ^ 31 then a % 2 ^ 32 else a % 2 ^ 32 - 2 ^ 32

/-- cos and sin of an angle, in units of 2^-64. -/
def cosFix (a : Int) : Int :=
  let r := radians (signedAngle a)
  taylor 22 oneFix (r * r / 2 ^ 64) 1
def sinFix (a : Int) : Int :=
  let r := radians (signedAngle a)
  taylor 22 r (r * r / 2 ^ 64) 2

/-- cos and sin of an angle in 2^-16 du. -/
def cosTurn (a : Int) : Rat := (cosFix a : Rat) / 2 ^ 64
def sinTurn (a : Int) : Rat := (sinFix a : Rat) / 2 ^ 64

/-- Bisection for the angle of a vector in the first quadrant: the greatest angle, built bit by bit, that does not lie beyond
the vector. -/
def angleBits : Nat → (re im : Rat) → Nat → Nat
  | 0, _, _, a => a
  | k + 1, re, im, a =>
    let b := a + 2 ^ k
    angleBits k re im (if re * sinTurn b ≤ im * cosTurn b then b else a)

/-- The angle of a vector other than 0, in 2^-16 du from 0 on and below a turn: exact on the axes, and elsewhere the middle of
the unit in which it lies, so that a rounding that the manual leaves open stays open. -/
def angleOf (re im : Rat) : Rat :=
  let q : Nat × Rat × Rat :=
    if 0 < re ∧ 0 ≤ im then (0, re, im)
    else if re ≤ 0 ∧ 0 < im then (1, im, -re)
    else if re < 0 then (2, -re, -im)
    else (3, -im, re)
  let a : Rat := (q.1 * 2 ^ 30 + angleBits 30 q.2.1 q.2.2 0 : Nat)
  if q.2.2 = 0 then a else a + 1 / 2

/-- The sums of samples against the cosine and the sine of their angles (R27, R90). -/
def correlate (l : List (Int × Int)) : Rat × Rat :=
  (sumRat (l.map (fun x => x.2 * cosTurn x.1)), sumRat (l.map (fun x => x.2 * sinTurn x.1)))

end Sys2Proof.Machine
end

