-- ==== Sys2Proof/Machine/Acquisition.lean ====
section
/-! DEFINITION. Metrology acquisition (R69 to R92): the channels that are processed, the interpolator and its correction,
the flag word, stuck runs, cover between the engines, and what a dial cycle boundary does to the path. Log entry 15
names what the manual leaves open here. -/

namespace Sys2Proof.Machine

/-- Change the metrology path. -/
def setAcq (f : Acquisition → Acquisition) (s : State) : State := { s with acq := f s.acq }

/-- An unsigned field of the records of subsystem 0x03 in force on the path (R84). -/
def acqN (s : State) (type key off n dflt : Nat) : Nat := recN s.acq.recs type key off n dflt

/-! ### Channels (R71, R83) -/

/-- The outlet that a channel belongs to, none for the grid meter and AUX. -/
def chanOutlet (c : Nat) : Option Nat := if c < 16 then some (c / 4) else none

/-- A channel is enabled and does not belong to a disabled outlet (R71, R85). -/
def chanOn (s : State) (c : Nat) : Bool :=
  (acqN s 0x0301 0 4 4 0x00FFFFFF).testBit c && (chanOutlet c).all (fun o => outletType s o != 0)

/-- The channel is MET1's by R9: outlets 2 and 3 and AUX. -/
def servedByMet1 (s : State) (c : Nat) : Bool := owner s (.channel (Fin.ofNat 24 c)) == Elem.met1

/-- Cover is allowed (R85). -/
def coverAllowed (s : State) : Bool := acqN s 0x0301 0 2 1 1 == 1

/-- A metrology engine is out: held (R19), or it loads its image in the running cycle (R424). -/
def metOut (s : State) (e : Nat) : Bool := (if e = 0 then s.acq.held0 else s.acq.held1) || s.acq.loading == some e

/-- The channel's samples are formed: by its own engine, or by the other one once it covers, from the dial cycle after the
hold on (R83). In the cycle of the hold the held engine's channels deliver nothing more, and their flag word reads 0 as for
channels without cover (DESIGN CHOICE, log entry 15). -/
def chanServed (s : State) (c : Nat) : Bool :=
  let e := if servedByMet1 s c then 1 else 0
  !metOut s e || (s.acq.coverNow && !metOut s (1 - e))

/-- The path forms samples of the channel now. -/
def chanLive (s : State) (c : Nat) : Bool := chanOn s c && chanServed s c && s.acq.mclkOn && !s.acq.mclkStop

/-- A channel's state. -/
def chanState (s : State) (c : Nat) : ChanState := s.acq.chans.getD c .init

/-- Change a channel's state. -/
def setChan (c : Nat) (f : ChanState → ChanState) (s : State) : State :=
  setAcq (fun a => { a with chans := modifyAt a.chans c f }) s

/-- The channel's record 0x0303 in force on the path. -/
def calRecord (s : State) (c : Nat) : Option Rec := findRec s.acq.recs 0x0303 c

/-- The default calibration (R80). -/
def calDefault : Trial := ⟨0x40000000, 0, 0⟩

/-- A calibration as record 0x0303 lays it out (R87). -/
def calOf (body : List Byte) : Trial := ⟨fieldN body 4 4, fieldI body 8 4, fieldI body 12 2⟩

/-- The calibration in force: a trial, the record, or the defaults (R80, R91). -/
def calOfChan (s : State) (c : Nat) : Trial :=
  match (chanState s c).trial with
  | some t => t
  | none => (calRecord s c).elim calDefault (fun r => calOf r.body)

/-- Default full scale of a channel by its role (R71). -/
def defaultFs (s : State) (c : Nat) : Nat :=
  if c < 16 then
    if c % 4 = 3 then 300
    else if isAc s (c / 4) then 63000
    else if c % 4 = 1 then 3000000 else 150000
  else if c < 19 then 40000
  else if c < 23 then 630000
  else 150000

/-- Full scale of a channel (R86). -/
def fullScale (s : State) (c : Nat) : Nat := acqN s 0x0302 c 4 4 (defaultFs s c)

/-- Polarity inverted (R86). -/
def inverted (s : State) (c : Nat) : Bool := acqN s 0x0302 c 2 1 0 == 1

/-! ### The interpolator (R78 to R80) -/

/-- The position of a sample in the input stream, times 671,088,640 (10,240 clocks of 65,536 parts): `tk` in 1/65,536
clock, delay in 1/4,096 Ts, t0 in clocks (R78). -/
def position (tk : Nat) (delay : Int) (t0 : Nat) : Int := tk + 163840 * delay - 65536 * (t0 : Int)

/-- The codes of the metrology path and of the protection path that a feed gives (R70, R74, R76). -/
def metFeed (mclk : Nat) : Feed → List Int
  | .codes l => l.map metClamp
  | .bits l => metCodes mclk l
def protFeed : Feed → List Int
  | .codes l => l.map protClamp
  | .bits l => protCodes l

/-- A code with the polarity of its channel applied (R70, on both paths). -/
def polarised (inv : Bool) (v : Int) : Int := if inv then -v else v

/-- The code of the input stream at an index, its polarity applied (R70, R76). -/
def codeAt (inv : Bool) (mclk : Nat) (st : ChanStream) (n : Int) : Option Int :=
  if n < st.first then none
  else ((metFeed mclk st.metrology)[(n - st.first).toNat]?).map (fun x => metClamp (polarised inv x))

/-- 6y in units of 2^-48 code (R79), with μ = m / 65,536. -/
def farrow (a b c d m : Int) : Int :=
  let b0 := 6 * b
  let b1 := -2 * a - 3 * b + 6 * c - d
  let b2 := 3 * a - 6 * b + 3 * c
  let b3 := -a + 3 * b - 3 * c + d
  b0 * 2 ^ 48 + m * (b1 * 2 ^ 32 + m * (b2 * 2 ^ 16 + m * b3))

/-- y in 2^-8 code: 6y divided by 6 and rounded (R79). -/
def farrowRound (s6 : Int) : Int := roundAway ((s6 : Rat) / (6 * 2 ^ 40))

/-- The clip of R80. -/
def sampleLimit : Int := 8388607 * 256

/-- The corrected sample (R80). -/
def correct (cal : Trial) (y : Int) : Int :=
  clamp (-sampleLimit) sampleLimit (roundAway (((y - cal.offset) * (cal.gain : Int) : Int) / (2 ^ 30 : Rat)))

/-- The corrected sample at a position, none where the stream operand does not hold the four codes. -/
def sampleAt (inv : Bool) (mclk : Nat) (cal : Trial) (t0 tk : Nat) (st : ChanStream) : Option Int :=
  let p := position tk cal.delay t0
  let n := p / 671088640
  let m := p % 671088640 / 10240
  match codeAt inv mclk st (n - 1), codeAt inv mclk st n, codeAt inv mclk st (n + 1), codeAt inv mclk st (n + 2) with
  | some a, some b, some c, some d => some (correct cal (farrowRound (farrow a b c d m)))
  | _, _, _, _ => none

/-! ### The flag word (R81) -/

/-- The flag word of the running cycle. In the cycle in which MCLK is stopped after a changed code no channel is processed,
and every word reads 0 (DESIGN CHOICE, log entry 15: R84 gives RESTART for the 2 cycles after it). -/
def runningWord (s : State) (c : Nat) : BitVec 16 :=
  if chanLive s c then
    let x := chanState s c
    channelWord true x.stuckRun x.overrange x.clip x.trial.isSome (x.trial.isNone && (calRecord s c).isNone)
      s.acq.coverNow (s.acq.restartLeft != 0)
  else 0

/-! ### Stream supervision (R75) -/

/-- The overrange level of record 0x0304 as a protection code: a percentage of full scale, which is 2/3 of 2^13, to the nearest
code (R70 gives 120 % as 6,554). -/
def overrangeLevel (s : State) : Nat := (2 * (acqN s 0x0304 0 2 1 120) * 8192 + 150) / 300

/-- A protection sample beyond the level. AUX has no protection path (R74). -/
def overrangeIn (s : State) (st : ChanStream) : Bool :=
  st.chan.val != 23 && (protFeed st.protect).any (fun v => overrangeLevel s < v.natAbs)

/-- A metrology code at a saturation level. -/
def clipIn (s : State) (st : ChanStream) : Bool := (metFeed s.acq.mclkCode st.metrology).any saturated

/-! ### Samples -/

/-- A protection code as a value in the channel's unit (R74); the rounding is open (log entry 6). -/
def protValue (s : State) (c : Nat) (code : Int) : Int := openRound ((code : Rat) * fullScale s c / 5461)

/-- The protection samples of a feed with the channel's polarity applied (R70). -/
def protSamples (s : State) (c : Nat) (f : Feed) : List Int :=
  (protFeed f).map (fun x => protClamp (polarised (inverted s c) x))

/-- The protection path of an enabled channel (R74): its latest sample, and in S8 the highest |OnV| of the weld check. -/
def takeProtect (st : ChanStream) (s : State) : State :=
  let c := st.chan.val
  let l := protSamples s c st.protect
  if c = 23 ∨ chanOn s c = false ∨ l = [] then s
  else
    let t := setChan c (fun x => { x with prot := l.getLast?.getD x.prot }) s
    if c < 16 ∧ c % 4 = 0 then
      let o : Outlet := Fin.ofNat 4 (c / 4)
      if (sessOf s o).state = .s8 then
        setHedge o (fun h => { h with
          weldHigh := l.foldl (fun n x => max n (protValue s c x).natAbs) h.weldHigh }) t
      else t
    else t

/-- The samples of one channel: one, or two in cover mode (R83). -/
def takeSample (k tk : Nat) (st : ChanStream) (s : State) : State :=
  let c := st.chan.val
  if chanLive s c then
    let t := setChan c (fun x => { x with
      overrange := x.overrange || overrangeIn s st, clip := x.clip || clipIn s st }) s
    match sampleAt (inverted s c) s.acq.mclkCode (calOfChan s c) s.acq.t0 tk st with
    | some y =>
      let excl := st.stuckSpan || s.acq.restartLeft != 0
      let new := if s.acq.coverNow then [Sample.mk k y excl, Sample.mk (k + 1) y excl] else [Sample.mk k y excl]
      setChan c (fun x => { x with cur := x.cur ++ new }) t
    | none => t
  else s

/-- The raw sample of a measurement in mode 0 (R90): unity gain, no offset, no delay. -/
def takeRaw (k tk : Nat) (st : ChanStream) (s : State) : State :=
  match s.acq.measure with
  | some m =>
    if m.started && m.mode == 0 && m.channel == st.chan.val && chanLive s m.channel then
      match sampleAt (inverted s m.channel) s.acq.mclkCode calDefault s.acq.t0 tk st with
      | some y =>
        let new := if s.acq.coverNow then [(k, y), (k + 1, y)] else [(k, y)]
        setAcq (fun a => { a with measure := some { m with rawCur := m.rawCur ++ new } }) s
      | none => s
    else s
  | none => s

/-- GRID_COHERENT_SAMPLE (R78 to R80, R83): in cover mode the odd angles carry the sample of the even angle before. -/
def execGridCoherentSample (k : Fin 256) (tk : Nat) (streams : List ChanStream) (s : State) :
    Host.Outcome State Fault Refusal :=
  .next (
    if up s then
      let t := reachAngle (k.val * 256) s
      let t := streams.foldl (fun u st => takeProtect st u) t
      if t.acq.coverNow && k.val % 2 == 1 then t
      else streams.foldl (fun u st => takeSample k.val tk st (takeRaw k.val tk st u)) t
    else s)

/-! ### Stuck runs (R75) -/

/-- The stuck-run limit (R88). -/
def stuckLimit (s : State) : Nat := acqN s 0x0304 0 0 2 256

/-- A stuck run of a channel is noted. -/
def noteStuck (c : Nat) (s : State) : State :=
  setChan c (fun x => { x with
    stuck := true, stuckRun := true, sinceStuck := 0, stuckEvents := min 65535 (x.stuckEvents + 1) }) s

/-- STUCK at a boundary: it clears after the configured whole cycles without a run. -/
def stuckBoundary (clear : Nat) (x : ChanState) : ChanState :=
  if x.stuckRun then { x with sinceStuck := 0 }
  else if clear ≤ x.sinceStuck + 1 then { x with sinceStuck := x.sinceStuck + 1, stuck := false }
  else { x with sinceStuck := x.sinceStuck + 1 }

/-! ### Engines (R19, R83) -/

/-- The engine that covers a held one, 0xFF for none. -/
def coveringEngine (s : State) (e : Nat) : Nat :=
  if metOut s (1 - e) || !coverAllowed s then 0xFF else 1 - e

/-- A metrology engine is declared faulty and held (R19, outcome 2), with legal entry 0x0105. -/
def holdMet (e : Nat) (s : State) : State :=
  log 0 0x01 0x0105 ([byte e, byte (coveringEngine s e), 0, 0] ++ wordBytes 4 s.sun.cycle ++ zeros 8) true
    (setAcq (fun a => if e = 0 then { a with held0 := true } else { a with held1 := true }) s)

/-- Engine state code of R92. -/
def engineState (s : State) : Nat :=
  match metOut s 0, metOut s 1 with
  | false, false => 0
  | true, true => 3
  | true, false => if coverAllowed s then 1 else 4
  | false, true => if coverAllowed s then 2 else 5

/-! ### MCLK (R69, R84) -/

/-- MCLK code of the records (R85). -/
def mclkCodeOf (recs : List Rec) : Nat := recN recs 0x0301 0 0 1 2

/-- MCLK starts: t0 is fixed by the module (R77), and every channel carries RESTART until two whole cycles have passed
after the first boundary (R84). -/
def startMclk (s : State) : State :=
  draw (setAcq (fun a => { a with
    mclkOn := true, mclkStop := false, restartLeft := 3, t0 := Config.freeNat s.freeCount }) s)

/-- A changed MCLK code stops MCLK for the coming cycle (R84). -/
def changeMclk (s : State) : State :=
  if s.acq.mclkCode = mclkCodeOf s.acq.recs then s
  else draw (setAcq (fun a => { a with
    mclkCode := mclkCodeOf a.recs, mclkStop := true, restartLeft := 3, t0 := Config.freeNat s.freeCount }) s)

/-- The records of subsystem 0x03 of the configuration in force. -/
def metRecords (s : State) : List Rec := s.cfg.recs.filter (fun r => r.type / 256 == 3)

/-- A new image takes effect on the path at the boundary (R84). -/
def reloadPath (s : State) : State :=
  if s.acq.reload then changeMclk (setAcq (fun a => { a with recs := metRecords s, reload := false }) s) else s

/-- After a warm reset that activates or falls back LEGAL, MET0 and MET1 load the image in turn (R424). -/
def reloadLegal (slotB : Bool) (s : State) : State :=
  if s.acq.legalB = slotB then s else setAcq (fun a => { a with legalB := slotB, toLoad := [0, 1] }) s

/-- At a boundary the next engine that has to load does so for the coming cycle. -/
def legalBoundary (s : State) : State :=
  setAcq (fun a => { a with loading := a.toLoad.head?, toLoad := a.toLoad.drop 1 }) s

/-! ### The dial cycle boundary -/

/-- Trials change at a boundary (R91). -/
def trialBoundary (x : ChanState) : ChanState :=
  if x.dropTrial then { x with trial := none, nextTrial := none, dropTrial := false }
  else { x with trial := x.nextTrial.or x.trial, nextTrial := none }

/-- A channel's cycle ends; `keep` tells that an open window still takes the samples of the cycle before it (R121). -/
def chanBoundary (keep : Bool) (word : BitVec 16) (clear : Nat) (x : ChanState) : ChanState :=
  trialBoundary { stuckBoundary clear x with
    older := if keep then x.prev :: x.older else []
    olderWord := if keep then x.olderWord ||| x.flagsLast else 0
    flagsLast := word, prev := x.cur, cur := [], stuckRun := false, overrange := false, clip := false }

/-- A channel's samples of the running cycle with their numbers. -/
def numbered (s : State) (c : Nat) : List (Nat × Int) := (chanState s c).cur.map (fun x => (x.k, x.y))

/-- The samples of a cycle that a measurement keeps: of the channel and of the reference. -/
def measuredCycle (s : State) (m : Measure) : List (Nat × Int) × List (Nat × Int) :=
  (if m.mode = 0 then m.rawCur else numbered s m.channel, if m.reference = 0xFF then [] else numbered s m.reference)

/-- A measurement at a boundary (R90): it starts, takes the cycle that ended, or ends because its channel stopped. -/
def measureBoundary (s : State) : State :=
  match s.acq.measure with
  | none => s
  | some m =>
    let m' :=
      if !m.started then { m with started := true }
      else if m.wanted ≤ m.cycles.length then m
      else if runningWord s m.channel = 0 then { m with wanted := m.cycles.length }
      else
        let unlocked : BitVec 16 := if s.sun.quality.getLsbD 0 then 0 else 0x8000
        { m with cycles := measuredCycle s m :: m.cycles, rawCur := [],
                 flags := m.flags ||| runningWord s m.channel ||| unlocked }
    setAcq (fun a => { a with measure := some m' }) s

/-- The metrology path at a dial cycle boundary: the ended cycle is complete (R81), trials and a new image take effect
(R84, R91), and cover starts or ends (R83). Run before Sundial changes its word. -/
def acquisitionBoundary (tc : Nat) (s : State) : State :=
  let clear := acqN s 0x0304 0 3 1 1
  let words := (List.range 24).map (fun c => runningWord s c)
  let keep := s.energy.nextPartial && 1 ≤ s.energy.openAge
  let t := measureBoundary s
  let t := setAcq (fun a => { a with
    chans := a.chans.zipWith (fun x w => chanBoundary keep w clear x) words
    olderLocked := !keep || (a.olderLocked && a.lastQuality.getLsbD 0)
    lastCycle := s.sun.cycle, lastQuality := s.sun.quality, lastTc := tc
    restartLeft := a.restartLeft - 1, mclkStop := false }) t
  let t := legalBoundary (reloadPath t)
  setAcq (fun a => { a with coverNow := (metOut t 0 != metOut t 1) && coverAllowed t }) t

/-! ### Opcodes (R89 to R92) -/

/-- The angle of sample k, in 2^-16 du. -/
def sampleAngle (k : Nat) : Int := k * 2 ^ 24

/-- The single-bin transform of one cycle, (2 / 256) Σ y e^(-jθ). -/
def singleBin (l : List (Nat × Int)) : Rat × Rat :=
  let c := correlate (l.map (fun x => (sampleAngle x.1, x.2)))
  (c.1 * (2 / 256), -(c.2 * (2 / 256)))

/-- The vector mean of the transforms of the cycles. -/
def vectorMean (ls : List (List (Nat × Int))) : Rat × Rat :=
  let v := ls.map singleBin
  (sumRat (v.map (fun x => x.1)) / ls.length, sumRat (v.map (fun x => x.2)) / ls.length)

/-- The phase of a measurement in 2^-16 du: that of A sin(θ + φ), less the reference's. -/
def measuredAngle (f r : Rat × Rat) (dial : Bool) : Rat :=
  if dial then angleOf (-f.2) f.1 else angleOf (-f.2) f.1 - angleOf (-r.2) r.1

/-- Mean, RMS, amplitude and phase of a measurement (R90); the roundings are open (log entry 6). A fundamental of 0 has no
phase: the field is open, also for a reference that delivers no samples (log entry 15). -/
def measureValues (s : State) (m : Measure) : List Byte :=
  let all := m.cycles.flatMap (fun x => x.1.map (fun y => y.2))
  let mean : Rat := (sumInt all : Rat) / all.length
  let square : Rat := (sumInt (all.map (fun y => y * y)) : Rat) / all.length
  let f := vectorMean (m.cycles.map (fun x => x.1))
  let r := vectorMean (m.cycles.map (fun x => x.2))
  let dial := m.reference = 0xFF
  leInt 4 (openRound mean) ++ leInt 4 (openSqrt square) ++ leInt 4 (openSqrt (f.1 * f.1 + f.2 * f.2)) ++
    (if f = (0, 0) ∨ (¬dial ∧ r = (0, 0)) then openField 4 s else leInt 4 (openRound (measuredAngle f r dial)))

/-- The response of opcode 0x0301. Over no cycle at all the four values are open. -/
def measureReply (s : State) (m : Measure) : List Byte :=
  [byte m.channel, byte m.reference, byte m.mode, 0] ++ leBytes 2 m.cycles.length ++ wordBytes 2 m.flags ++
    (if m.cycles.isEmpty then openField 16 s else measureValues s m)

/-- The fields of a measure request. -/
def measureFields : List FieldSpec :=
  [span 0 1 0 23, ⟨1, 1, .codes (255 :: List.range 24)⟩, span 2 1 0 1, rsv 3 1, cnt 4 2 1 3000, rsv 6 2]

/-- CHANNEL_MEASURE (R90): the rule refuses a measured channel that is off; a reference channel that is off is accepted and
delivers no samples (DESIGN CHOICE, log entry 15). -/
def execChannelMeasure (r : Request) (s : State) : Host.Outcome State Fault Refusal :=
  .next (hostRequest (opLen 0x0301 [clsN, clsB] 8) r
    (fun s =>
      let p := r.payload
      guarded [ firstFail p measureFields, need (fieldN p 0 1 != fieldN p 1 1) St.range
              , need (chanOn s (fieldN p 0 1)) St.refusedState, need s.acq.measure.isNone St.busy ]
        (fun s => (setAcq (fun a => { a with measure := some {
            port := r.port, seq := r.seq, cls := r.cls, channel := fieldN p 0 1, reference := fieldN p 1 1
            mode := fieldN p 2 1, wanted := fieldN p 4 2, started := false, flags := 0, rawCur := [],
            cycles := [] } }) s, .later)) s) s)

/-- CHANNEL_MEASURE_COMPLETE (R90): the window has ended and the response is sent. -/
def execChannelMeasureComplete (s : State) : Host.Outcome State Fault Refusal :=
  .next (match s.acq.measure with
    | some m =>
      if m.started && m.wanted ≤ m.cycles.length then
        completeRequest m.port m.cls 0x0301 m.seq St.ok (measureReply s m)
          (draw (setAcq (fun a => { a with measure := none }) s))
      else s
    | none => s)

/-- The fields of a calibration (R87). A gain of 0 lies outside its range and is refused as such: the table marks no field for
the zero-value rule (log entry 15). -/
def calFields : List FieldSpec :=
  [span 0 1 0 23, rsv 1 3, span 4 4 0x20000000 0x60000000, sgn 8 4 (-268435456) 268435455, sgn 12 2 (-16384) 16384,
   rsv 14 2]

/-- A measurement runs on the channel. -/
def measuring (s : State) (c : Nat) : Bool := s.acq.measure.any (fun m => m.channel == c)

/-- TRIAL_CALIBRATION (R91). -/
def execTrialCalibration (r : Request) (s : State) : Host.Outcome State Fault Refusal :=
  .next (hostRequest (opLen 0x0302 [clsN] 16) r
    (fun s =>
      let p := r.payload
      guarded [ firstFail p calFields, need (inService s && allIdle s) St.refusedState
              , need (!measuring s (fieldN p 0 1)) St.busy, need (legalRoom s) St.noSpace ]
        (fun s => done (log (portOrigin r.port) 0x03 0x0302 p true
          (setChan (fieldN p 0 1) (fun x => { x with nextTrial := some (calOf p), dropTrial := false }) s))) s) s)

/-- Every trial ends at the next boundary: the life-cycle state leaves SERVICE (R91). -/
def dropTrials (s : State) : State :=
  setAcq (fun a => { a with chans := a.chans.map (fun x => { x with nextTrial := none, dropTrial := true }) }) s

/-- The response of opcode 0x0303 (R92). -/
def acquisitionBytes (s : State) : List Byte :=
  [byte (engineState s), byte s.acq.mclkCode, 0, 0] ++
    s.acq.chans.flatMap (fun x => wordBytes 2 x.flagsLast ++ leBytes 2 x.stuckEvents)

/-- ACQUISITION_STATUS (R92). -/
def execAcquisitionStatus (r : Request) (s : State) : Host.Outcome State Fault Refusal :=
  .next (hostRequest (opNone 0x0303 [clsN, clsH]) r (fun s => reply (acquisitionBytes s) s) s)

end Sys2Proof.Machine
end

