-- ==== Sys2Proof/Machine/Allocate.lean ====
section
/-! DEFINITION. The arithmetic that the stack's and the site's power allocation share: the weighted fill of R192 and
the phase check of R194. -/

namespace Sys2Proof.Machine

/-- The level λ at which the sum of min(d, w λ) meets the budget, for demands (d, w) whose sum exceeds it. The first
argument bounds the rounds; each settles an outlet. -/
def fillLevel : Nat → List (Rat × Rat) → Rat → Rat
  | 0, _, _ => 0
  | n + 1, items, b =>
    let level := b / sumRat (items.map (fun x => x.2))
    let full := items.filter (fun x => x.1 ≤ x.2 * level)
    if full.isEmpty then level
    else fillLevel n (items.filter (fun x => ¬ x.1 ≤ x.2 * level)) (b - sumRat (full.map (fun x => x.1)))

/-- The fill of R192: every demand where the budget covers them, and otherwise ⌊min(d, w λ)⌋. A budget below 0
gives nothing. -/
def waterFill (items : List (Int × Nat)) (budget : Int) : List Int :=
  if sumInt (items.map (fun x => x.1)) ≤ budget then items.map (fun x => x.1)
  else
    let q := items.map (fun x => ((x.1 : Rat), (x.2 : Rat)))
    let level := fillLevel (q.length + 1) q (max 0 budget : Int)
    q.map (fun x => if x.1 ≤ x.2 * level then x.1.floor else (x.2 * level).floor)

/-- η of R194, fixed at 0.96 (R196). -/
def efficiency : Rat := 96 / 100

/-- The DC current per phase, mA, of a DC power in W (R194). `vn` is in 10 mV. -/
def dcPhaseCurrent (vn : Nat) (watts : Rat) : Rat := watts * 100000 / (3 * (vn : Rat) * efficiency)

/-- The factor on every AC allocation of a phase (R194). -/
def acFactor (limit dc ac : Rat) : Rat := if dc + ac ≤ limit then 1 else max 0 (limit - dc) / ac

/-- The factor on every DC allocation: the smallest that a phase calls for (R194). -/
def dcFactor (limits : List Rat) (dc : Rat) : Rat :=
  limits.foldl (fun f l => if l < dc then min f (l / dc) else f) 1

/-- The grid phase (0 to 2) of an outlet's own phase under a rotation code (R127). -/
def gridPhase (rotation own : Nat) : Nat := (own + rotation) % 3

/-- The nominal phase voltage, 10 mV (R39). -/
def nominalVolts (s : State) : Nat := cfgN s 0x0201 0 4 4 23000

end Sys2Proof.Machine
end

