-- ==== Sys2Proof/Machine/Energy.lean ====
section
/-! DEFINITION. Energy and quantities (R97 to R133): the window, what it adds to the 53 registers, their status, the commit
slots, the restore, snapshots, pulse outputs and the opcodes. A window's billing and display follow in Commit.lean. -/

namespace Sys2Proof.Machine

/-- Change the energy state. -/
def setEnergy (f : Energy → Energy) (s : State) : State := { s with energy := f s.energy }

/-- An unsigned field of the records of subsystem 0x04 in force on the path (R129). -/
def enN (s : State) (type key off n dflt : Nat) : Nat := recN s.energy.recs type key off n dflt

/-- Grid wiring code (R85). -/
def wiring (s : State) : Nat := acqN s 0x0301 0 1 1 1

/-! ### The window (R97, R98, R119, R121) -/

/-- A sample position of the window: how many dial cycles before the running one, its index and its weight in s. -/
structure WinPos where
  age  : Nat
  k    : Nat
  dt   : Rat

/-- The weight of a sample in a half that has not reached its closing angle (R97). -/
def dialWeight (s : State) : Rat := 1000 / ((s.sun.dialFreq : Rat) * 256)

/-- The weight of a sample in a half of measured duration (R97). -/
def halfWeight (clocks : Nat) : Rat := (clocks : Rat) / 128 / 400000000

/-- Indices from `a` to `b`. -/
def upTo (a b : Nat) : List Nat := (List.range (b + 1)).drop a

/-- The weight of a sample of a past cycle: that of its half, measured (R97). -/
def pastWeight (w : WindowInput) (s : State) (age k : Nat) : Rat :=
  if age = 1 ∧ 128 ≤ k then halfWeight w.h1
  else (w.earlier[2 * (age - 1) - k / 128]?).elim (dialWeight s) halfWeight

/-- What the open window takes of a past cycle. -/
def pastPositions (w : WindowInput) (s : State) (age : Nat) : List WinPos :=
  (upTo (if age = s.energy.openAge then s.energy.openK else 0) 255).map (fun k => ⟨age, k, pastWeight w s age k⟩)

/-- The open window that closes at sample `last` of the running cycle. A half that has not reached its closing angle takes the
weight of the dial frequency (R97). -/
def openWindow (w : WindowInput) (last : Nat) (s : State) : List WinPos :=
  ((List.range s.energy.openAge).reverse.flatMap (fun i => pastPositions w s (i + 1))) ++
    (upTo (if s.energy.openAge = 0 then s.energy.openK else 0) last).map (fun k =>
      ⟨0, k, if k < 128 ∧ 127 ≤ last then halfWeight w.h2 else dialWeight s⟩)

/-- The window of a regular commit: in the ordinary course, the 256 samples before angle 32,768 (R97). -/
def regularWindow (w : WindowInput) (s : State) : List WinPos := openWindow w 127 s

/-- The duration of a window, s. -/
def windowTime (ps : List WinPos) : Rat := sumRat (ps.map (fun p => p.dt))

/-- What the window holds of a channel: its values at the positions (0 where a sample is excluded or missing), whether
any sample arrived, whether any was excluded, and the flag words of its cycles. -/
structure ChanWindow where
  vals  : List Rat
  found : Bool
  excl  : Bool
  word  : BitVec 16

/-- The samples of a channel in a dial cycle: the running one, the one before, or an earlier one. -/
def cycleSamples (x : ChanState) (age : Nat) : List Sample :=
  if age = 0 then x.cur else if age = 1 then x.prev else x.older.getD (age - 2) []

/-- The sample at a position. -/
def sampleOf (x : ChanState) (p : WinPos) : Option Sample := (cycleSamples x p.age).find? (fun y => y.k == p.k)

/-- Units of a channel in volts or amperes (R71, R98): voltage channels and AUX in 10 mV, current channels in mA. -/
def chanUnit (s : State) (c : Nat) : Rat :=
  let volts := (16 ≤ c && c ≤ 18) || c == 23 || (c < 16 && c % 4 != 3 && c % 4 != 1 && isDc s (c / 4))
  if volts then 1 / 100 else 1 / 1000

/-- The physical value of a corrected sample (R80, R98). -/
def physical (s : State) (c : Nat) (y : Int) : Rat := (y : Rat) / 256 * fullScale s c / 5592405 * chanUnit s c

/-- The window of a channel. -/
def chanWindow (ps : List WinPos) (s : State) (c : Nat) : ChanWindow :=
  let x := chanState s c
  let ys := ps.map (sampleOf x)
  { vals := ys.map (fun y => y.elim 0 (fun v => if v.excl then 0 else physical s c v.y))
    found := ys.any (fun y => y.isSome)
    excl := ys.any (fun y => y.any (fun v => v.excl))
    word := (if ps.any (fun p => 2 ≤ p.age) then x.olderWord else 0) |||
      (if ps.any (fun p => p.age == 1) then x.flagsLast else 0) |||
      (if ps.any (fun p => p.age == 0) then runningWord s c else 0) }

/-! ### What a window brings to a register -/

/-- A register's part of a window: the increment in 2^-24 units, none where the register is not incremented; the window
status; the channel that an entry 0x0404 names, with its flag word. -/
structure RegWindow where
  inc    : Option Int
  status : BitVec 16
  chan   : Nat
  word   : BitVec 16

/-- The window of a register of a disabled outlet (R98). -/
def RegWindow.nothing : RegWindow := ⟨none, 0, 0xFF, 0⟩

/-- The conditions of a window that every register shares: PARTIAL, LOST, a cycle without LOCKED. -/
structure WinBase where
  part : Bool
  lost : Bool
  coherent : Bool

/-- The window status from the shared conditions and the input channels (R109). -/
def windowStatus (b : WinBase) (ins : List ChanWindow) (tempFallback noData : Bool) : BitVec 16 :=
  let w := ins.foldl (fun v x => v ||| x.word) 0
  registerStatus (!b.coherent) b.part b.lost false (w.getLsbD 6) (w.getLsbD 5) (w.getLsbD 4) (ins.any (fun x => x.excl))
    (w.getLsbD 2 || w.getLsbD 3) tempFallback false noData

/-- The first input channel that excludes samples or brings none. -/
def badChan (ins : List (Nat × ChanWindow)) : Nat × BitVec 16 :=
  match ins.find? (fun x => x.2.excl || !x.2.found) with
  | some x => (x.1, x.2.word)
  | none => (0xFF, 0)

/-- An energy in 2^-24 units, rounded once (R108). -/
def units (mwh : Rat) : Int := roundAway (mwh * 16777216)

/-- Σ max(p, 0) Δt / 3.6 (R100). -/
def positiveSum (p : List Rat) (ps : List WinPos) : Rat :=
  sumRat (p.zipWith (fun x q => max x 0 * q.dt / (36 / 10)) ps)

/-- E+ and E− of a power (R100). -/
def energySums (p : List Rat) (ps : List WinPos) : Rat × Rat := (positiveSum p ps, positiveSum (p.map (fun x => -x)) ps)

/-- The four increments of a meter point (R101); `modes` tells which registers run in absolute mode. -/
def modeIncrements (sums : Rat × Rat) (absolute : Nat → Bool) (first : Nat) : List Int :=
  let en := sums.1 - sums.2
  [ units (if absolute first then sums.1 else max en 0)
  , units (if absolute (first + 1) then sums.2 else max (-en) 0)
  , units en
  , units (if absolute (first + 3) then sums.1 + sums.2 else max en (-en)) ]

/-! ### Outlets (R99 to R104) -/

/-- The voltage channel of an outlet's phase under record 0x0402 (R99, R127). -/
def voltChan (s : State) (n own : Nat) : Nat := 16 + gridPhase (enN s 0x0402 n 1 1 0) own

/-- The voltage channel (none where disabled) and current channel of each phase of an outlet (R99). -/
def phasesOf (s : State) (n : Nat) : List (Option Nat × Nat) :=
  if isDc s n then [(some (4 * n), 4 * n + 1)]
  else (if wiring s = 2 then [0] else [0, 1, 2]).map
    (fun x => (if chanOn s (voltChan s n x) then some (voltChan s n x) else none, 4 * n + x))

/-- The coolant temperature in force, 0.1 °C, and whether it is the fallback (R104). -/
def coolantOf (s : State) (o : Outlet) : Int × Bool :=
  match s.energy.coolant.get o with
  | some t => if enN s 0x0402 o.val 2 1 0 = 1 then (t, false) else (recI s.energy.recs 0x0402 o.val 10 2 900, true)
  | none => (recI s.energy.recs 0x0402 o.val 10 2 900, true)

/-- Rcab(T) in Ω (R103). -/
def cableOhms (s : State) (o : Outlet) (t : Int) : Rat :=
  (enN s 0x0402 o.val 4 4 0 : Rat) / 1000000 *
    (1 + (enN s 0x0402 o.val 8 2 3930 : Rat) / 1000000 * ((t : Rat) / 10 - 20))

/-- Sum of value lists, position by position. -/
def addLists (n : Nat) (ls : List (List Rat)) : List Rat :=
  ls.foldl (fun a l => a.zipWith (· + ·) l) (List.replicate n 0)

/-- The powers of an outlet at the meter point and at the connector (R99, R103). -/
def outletPowers (ps : List WinPos) (s : State) (o : Outlet) : List Rat × List Rat :=
  let n := ps.length
  let phs := phasesOf s o.val
  let is := phs.map (fun x => (chanWindow ps s x.2).vals)
  let p := addLists n (phs.map (fun x =>
    x.1.elim (List.replicate n 0) (fun v => (chanWindow ps s v).vals.zipWith (· * ·) (chanWindow ps s x.2).vals)))
  let squares := addLists n (is.map (fun l => l.map (fun i => i * i)))
  let neutral := (addLists n is).map (fun i => i * i)
  let all := if isDc s o.val then squares else squares.zipWith (· + ·) neutral
  let r := cableOhms s o (coolantOf s o).1
  (p, p.zipWith (fun a l => a - l * r) all)

/-- Absolute mode of a register (R126). -/
def absolute (s : State) (m : Nat) : Bool := (enN s 0x0401 0 0 4 0).testBit m

/-- The eight registers of an outlet in a window. -/
def outletWindow (ps : List WinPos) (b : WinBase) (s : State) (o : Outlet) : List RegWindow :=
  if outletType s o.val = 0 then List.replicate 8 .nothing
  else
    let phs := phasesOf s o.val
    let ins := (phs.flatMap (fun x => x.1.toList ++ [x.2])).map (fun c => (c, chanWindow ps s c))
    let noData := ins.any (fun x => !x.2.found)
    let pw := outletPowers ps s o
    let first := 8 * o.val
    let incs := modeIncrements (energySums pw.1 ps) (absolute s) first ++
      modeIncrements (energySums pw.2 ps) (absolute s) (first + 4)
    let bad := badChan ins
    incs.zipIdx.map (fun x =>
      ⟨if noData then none else some x.1,
       windowStatus b (ins.map (fun y => y.2)) (4 ≤ x.2 && (coolantOf s o).2) noData, bad.1, bad.2⟩)

/-! ### Grid (R105 to R107) -/

/-- The phases that the grid wiring measures (R107). -/
def gridPhases (s : State) : List Nat := if wiring s = 0 then [] else if wiring s = 2 then [0] else [0, 1, 2]

/-- Fundamental component of a window's values (R105). -/
def fundamental (ps : List WinPos) (v : List Rat) : Rat × Rat :=
  (sumRat (v.zipWith (fun x p => x * cosTurn (sampleAngle p.k)) ps) * (2 / 256),
   -(sumRat (v.zipWith (fun x p => x * sinTurn (sampleAngle p.k)) ps) * (2 / 256)))

/-- Σ v² / 256 (R105). -/
def meanSquare (v : List Rat) : Rat := sumRat (v.map (fun x => x * x)) / 256

/-- Reactive power Q, var (R105). -/
def reactive (ps : List WinPos) (v i : List Rat) : Rat :=
  let v1 := fundamental ps v
  let i1 := fundamental ps i
  (v1.2 * i1.1 - v1.1 * i1.2) / 2

/-- The quadrant of R106, 0 to 3. -/
def quadrant (ep q : Rat) : Nat := if 0 ≤ ep then (if 0 ≤ q then 0 else 3) else (if 0 ≤ q then 1 else 2)

/-- The increments of a grid phase: import, export, Q1 to Q4, apparent. -/
def gridIncrements (ps : List WinPos) (v i : List Rat) : List Int :=
  let ep := sumRat ((v.zipWith (· * ·) i).zipWith (fun x p => x * p.dt / (36 / 10)) ps)
  let q := reactive ps v i
  let t := windowTime ps / (36 / 10)
  let eq := units (max (q * t) (-(q * t)))
  let es := roundSqrt (meanSquare v * meanSquare i * (t * 16777216) * (t * 16777216))
  [units (max ep 0), units (max (-ep) 0)] ++ (List.range 4).map (fun j => if j = quadrant ep q then eq else 0) ++ [es]

/-- The seven registers of a grid phase in a window. -/
def gridWindow (ps : List WinPos) (b : WinBase) (s : State) (x : Nat) : List RegWindow :=
  let v := chanWindow ps s (16 + x)
  let i := chanWindow ps s (19 + x)
  let noData := decide (x ∉ gridPhases s) || !v.found || !i.found
  let bad := badChan [(16 + x, v), (19 + x, i)]
  (gridIncrements ps v.vals i.vals).map (fun inc =>
    ⟨if noData then none else some inc, windowStatus b [v, i] false noData, bad.1, bad.2⟩)

/-- All 53 registers in a window. -/
def allWindows (ps : List WinPos) (b : WinBase) (s : State) : List RegWindow :=
  outlets.flatMap (outletWindow ps b s) ++ [0, 1, 2].flatMap (gridWindow ps b s)

/-! ### Registers (R108 to R113) -/

/-- MET1 serves the registers of outlets 2 and 3. -/
def regOfMet1 (m : Nat) : Bool := 16 ≤ m && m < 32

/-- The register CORRUPT flag. -/
def Register.corrupt (x : Register) : Bool := x.sticky.getLsbD Reg.corrupt

/-- The committed value (R108). -/
def committed (acc : Int) : Int := acc / 16777216

/-- The legal value rolls over between two accumulators (R111). -/
def rollsOver (old new : Int) : Bool := committed old / 1000000000000 != committed new / 1000000000000

/-- The limits of A (R113). -/
def accFits (a : Int) : Bool := -(2 ^ 79) ≤ a && a < 2 ^ 79

/-- The increment that a register takes: none when it is CORRUPT or brings NO_DATA. -/
def takenInc (x : Register) (w : RegWindow) : Option Int :=
  if x.corrupt || w.status.getLsbD Reg.noData then none else w.inc

/-- A register after a window; `session` tells whether its outlet's session is open. -/
def stepRegister (session : Bool) (w : RegWindow) (x : Register) : Register :=
  let inc := (takenInc x w).getD 0
  let fits := accFits (x.acc + inc)
  let acc := if fits then x.acc + inc else x.acc
  let st := w.status ||| (if x.corrupt || !fits then withBit 0 Reg.corrupt else 0) |||
    (if rollsOver x.acc acc then withBit 0 Reg.rollover else 0)
  let out := st.getLsbD Reg.excluded || st.getLsbD Reg.noData
  { acc, residue := residueOf acc, window := st, sticky := x.sticky ||| st,
    session := if session then x.session ||| st else x.session, run := if out then x.run + 1 else 0 }

/-- Entry 0x0403: a register is corrupt. -/
def logCorrupt (m : Nat) (x : Register) (s : State) : State :=
  log 0 0x04 0x0403 (byte m :: zeros 7 ++ leInt 8 (committed x.acc)) true s

/-- The registers of the working set. -/
def regAt (s : State) (m : Nat) : Register := s.energy.regs.getD m .init

/-- Replace a register. -/
def putReg (m : Nat) (x : Register) (s : State) : State :=
  setEnergy (fun e => { e with regs := modifyAt e.regs m (fun _ => x) }) s


/-- The session of a register's outlet is open, and whether its entries are legal (R109, R110). -/
def regSession (s : State) (m : Nat) : Option Session :=
  match m / 8 with
  | 0 => some (sessOf s 0)
  | 1 => some (sessOf s 1)
  | 2 => some (sessOf s 2)
  | 3 => some (sessOf s 3)
  | _ => none

/-- Entries of a register about excluded windows are legal (R110). -/
def runLegal (s : State) (m : Nat) : Bool :=
  match regSession s m with
  | some x => 3 ≤ x.state.code && x.state.code ≤ 8
  | none => true

/-- Entries 0x0404 and 0x0405 (R110). -/
def logRun (m : Nat) (w : RegWindow) (old new : Register) (s : State) : State :=
  if old.run = 0 ∧ new.run ≠ 0 then
    log 0 0x04 0x0404 ([byte m, byte w.chan] ++ wordBytes 2 w.word ++ zeros 12) (runLegal s m) s
  else if old.run ≠ 0 ∧ new.run = 0 then
    log 0 0x04 0x0405 (byte m :: zeros 3 ++ leBytes 4 old.run ++ zeros 8) (runLegal s m) s
  else s

/-- A register takes its part of a window. -/
def commitRegister (s : State) (x : Nat × RegWindow) : State :=
  let old := regAt s x.1
  let new := stepRegister ((regSession s x.1).any (fun y => !y.closed)) x.2 old
  let t := putReg x.1 new s
  let t := if new.corrupt && !old.corrupt then logCorrupt x.1 old t else t
  let t := if old.acc = new.acc then t else setEnergy (fun e => { e with changed := true }) t
  logRun x.1 x.2 old new t

/-! ### Pulse outputs (R122 to R125) -/

/-- An engine cannot bring its part: it is out and not covered. -/
def engineOut (s : State) (met1 : Bool) : Bool :=
  let e := if met1 then 1 else 0
  metOut s e && (metOut s (1 - e) || !coverAllowed s)

/-- The constant C of an output (R128). -/
def pulseConst (s : State) (m : Nat) : Nat := enN s 0x0403 m 4 4 0

/-- The register an output follows. -/
def pulseReg (s : State) (m : Nat) : Nat := enN s 0x0403 m 1 1 0

/-- One pulse is worth 10^6 × 2^24 of Q (R122). -/
def pulseUnit : Int := 16777216000000

/-- An output takes an increment (R122). -/
def stepPulse (c : Nat) (inc : Int) (p : Pulse) : Pulse :=
  if c = 0 then p
  else
    let q := p.remainder + inc * c
    let owed := if q < 0 then 0 else q / pulseUnit
    { p with remainder := q - owed * pulseUnit, backlog := p.backlog + owed.toNat }

/-- Every output takes its register's increment. -/
def commitPulses (incs : List Int) (s : State) : State :=
  setEnergy (fun e => { e with
    pulses := e.pulses.mapIdx (fun m p => stepPulse (pulseConst s m) (incs.getD (pulseReg s m) 0) p) }) s

/-- Change a pulse output. -/
def setPulse (m : Nat) (f : Pulse → Pulse) (s : State) : State :=
  setEnergy (fun e => { e with pulses := modifyAt e.pulses m f }) s

/-- PULSE_EMIT (R123, R125): the leading edge of an owed pulse, by the engine that serves the output. -/
def execPulseEmit (m : Fin 8) (s : State) : Host.Outcome State Fault Refusal :=
  let p := s.energy.pulses.getD m.val .init
  .next (if up s ∧ s.energy.pulsesHeld = false ∧ engineOut s (regOfMet1 (pulseReg s m.val)) = false ∧
      pulseConst s m.val ≠ 0 ∧ 0 < p.backlog ∧ p.conducting = false then
      setPulse m.val (fun p => { p with conducting := true }) s
    else s)

/-- PULSE_END (R123, R125): the width is over and the output released. Only now does the pulse count, so that one cut short
by the loss of supply is not counted and stays owed (DEDUCED, log entry 16). -/
def execPulseEnd (m : Fin 8) (s : State) : Host.Outcome State Fault Refusal :=
  .next (setPulse m.val (fun p =>
    if p.conducting then { p with backlog := p.backlog - 1, counter := p.counter + 1, conducting := false } else p) s)

/-! ### Commit slots (R114, R115) -/

/-- A slot is complete. -/
def CommitSlot.complete (x : CommitSlot) : Bool := x.part0 && x.part1

/-- The newest complete slot, slot 1 as true. -/
def newestSlot (s : State) : Option Bool :=
  match s.energy.slot0.complete, s.energy.slot1.complete with
  | true, true => some (later s.energy.slot1.number s.energy.slot0.number)
  | true, false => some false
  | false, true => some true
  | false, false => none

/-- The contents of the newest complete slot. -/
def newestCommit (s : State) : Option CommitSlot :=
  (newestSlot s).map (fun b => if b then s.energy.slot1 else s.energy.slot0)

/-- The older of two complete slots. -/
def olderCommit (s : State) : Option CommitSlot :=
  match newestSlot s with
  | some true => if s.energy.slot0.complete then some s.energy.slot0 else none
  | some false => if s.energy.slot1.complete then some s.energy.slot1 else none
  | none => none

/-- A register as a slot holds it. -/
def slotRegister (x : Register) : SlotRegister := ⟨x.acc, (x.acc % 7).toNat, x.window, x.sticky⟩

/-- An output as a commit stores it: the part of an engine that is held and not covered is copied from the newest complete slot
(R115). -/
def committedPulse (s : State) (m : Nat) (p : Pulse) : Pulse :=
  let own := { p with conducting := false }
  if engineOut s (regOfMet1 (pulseReg s m)) then (newestCommit s).elim own (fun c => c.pulses.getD m own) else own

/-- Write the working set to the slot that does not hold the newest complete commit. -/
def writeCommit (partialKind : Bool) (angle : Nat) (s : State) : State :=
  let slot : CommitSlot :=
    { number := (newestCommit s).elim 1 (fun x => x.number + 1), stamp := ⟨s.sun.cycle, angle⟩, epoch := s.sun.epoch
      utc := utcNow s, partialKind, part0 := true, part1 := true, regs := s.energy.regs.map slotRegister
      pulses := s.energy.pulses.mapIdx (committedPulse s) }
  if newestSlot s = some false then setEnergy (fun e => { e with slot1 := slot }) s
  else setEnergy (fun e => { e with slot0 := slot }) s

/-- A commit slot as its 1,024 bytes lie in retention SRAM (R114). -/
def CommitSlot.bytes (x : CommitSlot) : List Byte :=
  wordBytes 4 x.number ++ wordBytes 4 x.stamp.cycle ++ leBytes 2 x.stamp.angle ++ leBytes 2 x.epoch ++
    leBytes 4 (utcField x.utc) ++ [byte (flag x.partialKind), byte (flags [x.part0, x.part1])] ++ zeros 14 ++
    x.regs.flatMap (fun r => leInt 10 r.acc ++ [byte r.residue, 0] ++ wordBytes 2 r.window ++ wordBytes 2 r.sticky) ++
    x.pulses.flatMap (fun p => wordBytes 4 p.counter ++ leInt 8 p.remainder ++ leBytes 2 p.backlog ++ zeros 2) ++ zeros 16

/-- The energy area of retention SRAM, from 0x3100_0000 on (R114). -/
def energyArea (s : State) : List Byte :=
  let e := s.energy
  e.slot0.bytes ++ e.slot1.bytes ++ wordBytes 4 e.markStamp.cycle ++ leBytes 2 e.markStamp.angle ++ leBytes 2 e.markEpoch ++
    [byte e.markState] ++ zeros 7

/-! ### Corrupt registers (R19, R20, R116, R118) -/

/-- What the latest snapshot of a register holds: its accumulator without the fraction, and its CORRUPT flag. -/
def snapshotOf (s : State) (m : Nat) : Option LogEntry :=
  latestEntry s 0x04 0x0401 (fun e => fieldN e.detail 0 1 == m)

/-- The accumulator of a snapshot. -/
def snapshotAcc (e : LogEntry) : Int := fieldI e.detail 8 8 * 16777216

/-- The last readable committed value of a register whose newest one fails its check, as an accumulator: from the older
complete slot, else from the latest snapshot, else 0 (DEDUCED, log entry 16). -/
def lastReadable (s : State) (m : Nat) : Int :=
  match (olderCommit s).bind (fun c => c.regs[m]?) with
  | some r => r.acc
  | none => (snapshotOf s m).elim 0 snapshotAcc

/-- A register is flagged CORRUPT with its entry, and falls to its last readable committed value. -/
def markCorrupt (m : Nat) (s : State) : State :=
  let x := regAt s m
  let acc := lastReadable s m
  let y := { x with acc, residue := residueOf acc, sticky := withBit x.sticky Reg.corrupt }
  if x.corrupt then s else logCorrupt m y (putReg m y s)

/-! ### Residue outcomes (R19) -/

/-- The cycle of the newest complete commit. -/
def lastCommitCycle (s : State) : U32 := (newestCommit s).elim 0 (fun x => x.stamp.cycle)

/-- Entry 0x0402: a window is lost (R110). -/
def logLost (at' : Stamp) (s : State) : State :=
  log 0 0x04 0x0402 (wordBytes 4 (lastCommitCycle s) ++ wordBytes 4 at'.cycle ++ leBytes 2 at'.angle ++ zeros 6) true s

/-- What an engine's residue checks lead to (R19). For a window lost without HOLD the manual gives the fields HOLD cycle and
HOLD angle of entry 0x0402 no value: the model puts the cycle and the angle of the commit, 32,768 (DESIGN CHOICE, log entry
16). -/
def residueStep (e : Nat) (r : ResidueOutcome) (s : State) : State :=
  match r with
  | .pass => s
  | .corrected => log 0 0x01 0x0104 ([byte e, 0, 0, 0] ++ wordBytes 4 s.sun.cycle ++ zeros 8) false s
  | .failed => if (if e = 0 then s.acq.held0 else s.acq.held1) then s else holdMet e s
  | .unreadable =>
    logLost ⟨s.sun.cycle, 32768⟩
      (log 0 0x01 0x0106 ([byte e, 0, 0, 0] ++ wordBytes 4 s.sun.cycle ++ zeros 8) false s)

/-- A register's part after the engine's outcome: lost, or from a held engine as the newest complete slot has it, with NO_DATA
(R19, R115). -/
def engineWindow (s : State) (w : WindowInput) (m : Nat) (x : RegWindow) : RegWindow :=
  let met1 := regOfMet1 m
  let off := m < 32 ∧ outletType s (m / 8) = 0
  if off then x
  else if engineOut s met1 then
    let kept := (newestCommit s).elim x.status (fun c => (c.regs[m]?).elim x.status (fun r => r.window))
    { x with inc := none, status := withBit kept Reg.noData }
  else if (if met1 then w.met1 else w.met0) = .unreadable then { x with inc := none, status := withBit x.status Reg.lost }
  else x

/-! ### The commit -/

/-- Records of subsystem 0x04 of the configuration in force. -/
def energyRecords (s : State) : List Rec := s.cfg.recs.filter (fun r => r.type / 256 == 4)

/-- Detail of entry 0x0401. -/
def snapshotDetail (s : State) (m : Nat) : List Byte :=
  [byte m, 0] ++ wordBytes 2 (regAt s m).sticky ++ zeros 4 ++ leInt 8 (committed (regAt s m).acc)

/-- A new image takes effect at the first window that opens (R129): each register whose mode changes enters the legal log
with its committed value (log entry 16); an output that is disabled is released. -/
def reloadEnergy (s : State) : State :=
  if s.energy.reload then
    let old := enN s 0x0401 0 0 4 0
    let t := setEnergy (fun e => { e with recs := energyRecords s, reload := false }) s
    let t := setEnergy (fun e => { e with
      pulses := e.pulses.mapIdx (fun m p => if pulseConst t m = 0 then { p with conducting := false } else p) }) t
    ((List.range 32).filter (fun m => old.testBit m != (enN t 0x0401 0 0 4 0).testBit m)).foldl
      (fun u m => log 0 0x04 0x0401 (snapshotDetail u m) true u) t
  else s

/-- Registers restored by opcode 0x0405 take their value (R133). -/
def applyRestores (s : State) : State :=
  let t := s.energy.restore.foldl (fun u x =>
    let y := regAt u x.1
    let acc := x.2 * 16777216
    putReg x.1 { y with
      acc := acc, residue := residueOf acc, window := withoutBit y.window Reg.corrupt
      sticky := withoutBit y.sticky Reg.corrupt } u) s
  setEnergy (fun e => { e with restore := [], changed := e.changed || !s.energy.restore.isEmpty }) t

/-- Mean over the samples of a window that arrived. -/
def meanOf (ps : List WinPos) (v : List Rat) : Rat := sumRat v / ps.length

/-- Values of an outlet for opcode 0x0403 (R132). -/
def outletValues (ps : List WinPos) (s : State) (o : Outlet) : List Int :=
  if outletType s o.val = 0 then [0, 0, 0, 0]
  else
    let pw := outletPowers ps s o
    let en (p : List Rat) : Int :=
      let e := energySums p ps
      openRound ((e.1 - e.2) * (36 / 10) / windowTime ps)
    let vi : Int × Int :=
      if isDc s o.val then
        (openRound (meanOf ps (chanWindow ps s (4 * o.val)).vals * 100),
         openRound (meanOf ps (chanWindow ps s (4 * o.val + 1)).vals * 1000))
      else
        (openSqrt (meanSquare (chanWindow ps s (voltChan s o.val 0)).vals * 10000),
         openSqrt (meanSquare (chanWindow ps s (4 * o.val)).vals * 1000000))
    [vi.1, vi.2, en pw.1, en pw.2]

/-- Values of a grid phase for opcode 0x0403 (R132). -/
def phaseValues (ps : List WinPos) (s : State) (x : Nat) : List Int :=
  if x ∈ gridPhases s then
    let v := (chanWindow ps s (16 + x)).vals
    let i := (chanWindow ps s (19 + x)).vals
    let p := sumRat ((v.zipWith (· * ·) i).zipWith (fun y q => y * q.dt) ps) / windowTime ps
    [openSqrt (meanSquare v * 10000), openSqrt (meanSquare i * 1000000), openRound p, openRound (reactive ps v i)]
  else [0, 0, 0, 0]

/-- The values of the window just committed (R132). -/
def windowValues (ps : List WinPos) (s : State) : WindowValues :=
  { outlets := outlets.flatMap (outletValues ps s), phases := [0, 1, 2].flatMap (phaseValues ps s)
    frequency := s.sun.gridFreq
    neutral := if gridPhases s = [] then 0 else openSqrt (meanSquare (chanWindow ps s 22).vals * 1000000)
    cycle := s.sun.cycle }

/-- Both engines are out: no commit is written (R115). -/
def metrologyLost (s : State) : Bool := metOut s 0 && metOut s 1

/-- The shared conditions of the window. -/
def winBase (partialKind : Bool) (ps : List WinPos) (s : State) : WinBase :=
  { part := partialKind || s.energy.nextPartial, lost := s.energy.nextLost,
    coherent := s.sun.quality.getLsbD 0 && (!(ps.any (fun p => p.age == 1)) || s.acq.lastQuality.getLsbD 0) &&
      (!(ps.any (fun p => 2 ≤ p.age)) || s.acq.olderLocked) }

/-- Commit a window: the changes of the committed values, in mWh, none where no commit was written. -/
def commitWindow (partialKind : Bool) (angle : Nat) (ps : List WinPos) (w : WindowInput) (s : State) :
    State × Option (List Int) :=
  let t := residueStep 1 w.met1 (residueStep 0 w.met0 s)
  let t := w.badRegs.foldl (fun u m => markCorrupt m u) t
  if metrologyLost t || ps.isEmpty then (t, none)
  else
    let parts := (allWindows ps (winBase partialKind ps t) t).zipIdx.map (fun x => (x.2, engineWindow t w x.2 x.1))
    let u := parts.foldl commitRegister t
    let incs := (List.range 53).map (fun m => (regAt u m).acc - (regAt t m).acc)
    let u := commitPulses incs u
    let changes := (List.range 53).map (fun m => committed (regAt u m).acc - committed (regAt t m).acc)
    let u := if partialKind then u else applyRestores u
    let u := setEnergy (fun e => { e with values := windowValues ps t, nextLost := false }) (writeCommit partialKind angle u)
    (u, some changes)

/-- The open window begins at a sample of the running cycle, or later where it already does. -/
def startWindowAt (k : Nat) (s : State) : State :=
  setEnergy (fun e => { e with openAge := 0, openK := if e.openAge = 0 then max e.openK k else k }) s

/-- The regular commit at angle 32,768 (R115). The first one after a power-on sets the marker state to 0. -/
def energyRegular (w : WindowInput) (s : State) : State × Option (List Int) :=
  let (t, incs) := commitWindow false 32768 (regularWindow w s) w s
  let u := setEnergy (fun e => { e with
    nextPartial := if incs.isSome then false else e.nextPartial
    pulsesHeld := e.pulsesHeld && incs.isNone
    markState := if s.energy.pulsesHeld && incs.isSome then 0 else e.markState }) t
  (reloadEnergy (startWindowAt 128 u), incs)

/-- The partial commit (R119); with sample 127 as its last it is the one that the angle 32,768 raises. The marker says that it
is done where a slot was written. -/
def energyPartial (w : WindowInput) (last : Nat) (s : State) : State × Option (List Int) :=
  let (t, incs) := commitWindow true (if last = 127 then 32768 else last * 256) (openWindow w last s) w s
  let u := setEnergy (fun e => { e with
    nextPartial := true, tail := false, markState := if incs.isSome then 2 else e.markState }) t
  (reloadEnergy (startWindowAt (last + 1) u), incs)

/-- The open window at a dial cycle boundary. In the ordinary course it began at sample 128 of the cycle that ends; after a
partial commit it keeps every sample since (R121). -/
def energyBoundary (s : State) : State :=
  setEnergy (fun e =>
    if e.nextPartial then { e with openAge := e.openAge + 1 }
    else { e with openAge := 1, openK := if e.openAge = 0 then max 128 e.openK else 128 }) s

/-- The marker is written at HOLD entry (R119, step 1). -/
def writeMarker (s : State) : State :=
  setEnergy (fun e => { e with markStamp := stamp s, markEpoch := s.sun.epoch, markState := 1, tail := true }) s

/-! ### Restore (R116) -/

/-- A register as a slot restores it. -/
def restoredRegister (x : SlotRegister) : Register :=
  { acc := x.acc, residue := x.residue, window := x.window, sticky := x.sticky &&& withBit 0 Reg.corrupt, session := 0
    run := 0 }

/-- A register restored from its latest snapshot, with the CORRUPT flag that the snapshot holds (R109, R118), or at 0. -/
def snapshotRegister (s : State) (m : Nat) : Register × Option LogEntry :=
  match snapshotOf s m with
  | some e =>
    let acc := snapshotAcc e
    ({ Register.init with
        acc := acc, residue := residueOf acc, sticky := BitVec.ofNat 16 (fieldN e.detail 2 2) &&& withBit 0 Reg.corrupt }, some e)
  | none => (.init, none)

/-- Restore from snapshots, with entry 0x0406. -/
def restoreSnapshots (s : State) : State :=
  let found := (List.range 53).map (snapshotRegister s)
  let used := found.filterMap (fun x => x.2)
  let oldest := used.foldl (fun a e => match a with
    | none => some e
    | some b => if e.index < b.index then some e else some b) (none : Option LogEntry)
  let detail := leBytes 4 (oldest.elim 0xFFFFFFFF (fun e => e.index)) ++
    leBytes 4 (oldest.elim 0xFFFFFFFF (fun e => utcField e.utc)) ++ [byte used.length, byte (53 - used.length)] ++ zeros 6
  log 0 0x04 0x0406 detail true
    (setEnergy (fun e => { e with regs := found.map (fun x => x.1), nextLost := true }) s)

/-- Restore at power-on and after a brown-out reset (R116, R125). -/
def restoreEnergy (badRegs : List Nat) (s : State) : State :=
  match (if s.power.retention then newestCommit s else none) with
  | some c =>
    let t := setEnergy (fun e => { e with regs := c.regs.map restoredRegister, pulses := c.pulses, pulsesHeld := true }) s
    let t := badRegs.foldl (fun u m => markCorrupt m u) t
    if s.energy.markState = 2 then t
    else logLost s.energy.markStamp (setEnergy (fun e => { e with nextLost := true }) t)
  | none => restoreSnapshots s

/-! ### Snapshots (R117) -/

/-- Entries 0x0401 of some registers. -/
def snapshot (ms : List Nat) (s : State) : State :=
  ms.foldl (fun u m => log 0 0x04 0x0401 (snapshotDetail u m) false u) s

/-- A snapshot of every register. -/
def snapshotAll (s : State) : State := setEnergy (fun e => { e with changed := false }) (snapshot (List.range 53) s)

/-- SNAPSHOT_PERIOD (R117). -/
def execSnapshotPeriod (s : State) : Host.Outcome State Fault Refusal :=
  .next (if up s ∧ s.energy.changed = true then snapshotAll s else s)

/-- COOLANT_TEMPERATURE_TIMEOUT (R104). -/
def execCoolantTemperatureTimeout (o : Outlet) (s : State) : Host.Outcome State Fault Refusal :=
  .next (setEnergy (fun e => { e with coolant := e.coolant.set o none }) s)

/-- The session status of an outlet's registers is cleared on entry into S1 (R109). -/
def clearSessionStatus (o : Outlet) (s : State) : State :=
  setEnergy (fun e => { e with
    regs := e.regs.mapIdx (fun m x => if m / 8 = o.val then { x with session := 0 } else x) }) s

/-! ### Opcodes (R130 to R133) -/

/-- The read header (R131). Before any complete commit its stamp fields read 0 (log entry 16). -/
def readHeader (s : State) (count : Nat) : List Byte :=
  let c := newestCommit s
  wordBytes 4 (c.elim 0 (fun x => x.stamp.cycle)) ++ leBytes 2 (c.elim 0 (fun x => x.stamp.angle)) ++
    leBytes 2 (c.elim 0 (fun x => x.epoch)) ++ leBytes 4 (c.elim 0xFFFFFFFF (fun x => utcField x.utc)) ++
    [byte count, 0, 0, 0]

/-- A register as the newest complete commit holds it; before one, as the working set does (log entry 16). One flagged CORRUPT
keeps its last readable committed value, marked CORRUPT (R118). -/
def committedRegister (s : State) (m : Nat) : SlotRegister :=
  let own := regAt s m
  let x := (newestCommit s).elim (slotRegister own) (fun c => c.regs.getD m ⟨0, 0, 0, 0⟩)
  if own.corrupt then
    { x with
      acc := own.acc, residue := own.residue, window := withBit x.window Reg.corrupt, sticky := withBit x.sticky Reg.corrupt }
  else x

/-- A read entry (R131). -/
def readEntry (s : State) (m : Nat) : List Byte :=
  let x := committedRegister s m
  [byte m, 0] ++ wordBytes 2 x.window ++ wordBytes 2 x.sticky ++
    wordBytes 2 (if m < 32 then (regAt s m).session else 0) ++ leInt 8 (committed x.acc)

/-- The response of opcode 0x0401. -/
def registerReply (s : State) (first count : Nat) : List Byte :=
  let ms := (upTo first 52).take count
  readHeader s ms.length ++ ms.flatMap (readEntry s)

/-- REGISTER_READ (R130). -/
def execRegisterRead (r : Request) (s : State) : Host.Outcome State Fault Refusal :=
  .next (hostRequest (opLen 0x0401 [clsN, clsH, clsB] 4) r
    (guarded [firstFail r.payload [span 0 1 0 52, cntZ 1 1 0 53, rsv 2 2]]
      (fun s => reply (registerReply s (fieldN r.payload 0 1) (fieldN r.payload 1 1)) s)) s)

/-- SIGNED_REGISTER_SNAPSHOT (R131). -/
def execSignedRegisterSnapshot (r : Request) (s : State) : Host.Outcome State Fault Refusal :=
  .next (hostRequest (opNone 0x0402 [clsN]) r
    (fun s =>
      let body := registerReply s 0 53
      reply (body ++ wordBytes 64 (metrologySign s body)) (signed s)) s)

/-- The response of opcode 0x0403 (R132). -/
def valuesBytes (v : WindowValues) : List Byte :=
  (v.outlets ++ v.phases).flatMap (leInt 4) ++ leBytes 4 v.frequency ++ leInt 4 v.neutral ++ wordBytes 4 v.cycle ++
    zeros 4

/-- INSTANTANEOUS_VALUES (R132). -/
def execInstantaneousValues (r : Request) (s : State) : Host.Outcome State Fault Refusal :=
  .next (hostRequest (opNone 0x0403 [clsN, clsH]) r (fun s => reply (valuesBytes s.energy.values) s) s)

/-- The response of opcode 0x0404. -/
def pulseBytes (s : State) : List Byte :=
  (s.energy.pulses.mapIdx (fun m p => wordBytes 4 p.counter ++ leBytes 2 p.backlog ++
    [byte (pulseReg s m), byte (flag (pulseConst s m != 0))])).flatten

/-- PULSE_STATUS (R130). -/
def execPulseStatus (r : Request) (s : State) : Host.Outcome State Fault Refusal :=
  .next (hostRequest (opNone 0x0404 [clsN, clsH]) r (fun s => reply (pulseBytes s) s) s)

/-- A net register. -/
def isNet (m : Nat) : Bool := m < 32 && m % 4 == 2

/-- A value that opcode 0x0405 may give a register (R133). -/
def restoreFits (m : Nat) (v : Int) : Bool := (0 ≤ v || isNet m) && v.natAbs ≤ 2 ^ 55 - 1

/-- REGISTER_RESTORE (R133). -/
def execRegisterRestore (r : Request) (s : State) : Host.Outcome State Fault Refusal :=
  .next (hostRequest (opLen 0x0405 [clsN] 12) r
    (fun s =>
      let m := fieldN r.payload 0 1
      let v := fieldI r.payload 4 8
      guarded [ firstFail r.payload [span 0 1 0 52, rsv 1 3]
              , need (inService s && allIdle s && (regAt s m).corrupt) St.refusedState
              , need (restoreFits m v) St.range, need (legalRoom s) St.noSpace ]
        (fun s => done (log (portOrigin r.port) 0x04 0x0407 (byte m :: zeros 7 ++ leInt 8 v) true
          (setEnergy (fun e => { e with restore := e.restore.filter (fun x => x.1 != m) ++ [(m, v)] }) s))) s) s)

end Sys2Proof.Machine
end

