-- ==== Sys2Proof/Machine/Regions.lean ====
section
/-! DEFINITION. The updatable regions and their slot directory (R416, R417): which slot is confirmed, on trial and running,
and the versions they hold. -/

namespace Sys2Proof.Machine

/-! ### Regions and the directory -/

/-- A region by its code (R416). -/
def regionOf (s : State) (r : Nat) : Region :=
  match r with
  | 0 => s.update.boot
  | 1 => s.update.legal
  | 2 => s.update.app
  | 3 => s.update.engine
  | _ => s.update.config

/-- Change the updates. -/
def setUpdate (f : Update → Update) (s : State) : State := { s with update := f s.update }

/-- Change a region. -/
def setRegion (r : Nat) (f : Region → Region) (s : State) : State :=
  setUpdate (fun u => match r with
    | 0 => { u with boot := f u.boot }
    | 1 => { u with legal := f u.legal }
    | 2 => { u with app := f u.app }
    | 3 => { u with engine := f u.engine }
    | _ => { u with config := f u.config }) s

/-- The end of a region's slot that is no part of the image: the directory sector of BOOT and the key tail of APP (R416,
R328). -/
def regionTail : Nat → Nat
  | 0 => sector
  | 2 => 16 * sector
  | _ => 0

/-- The longest stored image of a region (R416): its partition (R15) without that end. -/
def regionLimit (r : Nat) : Nat := (slotPartition r false).size - regionTail r

/-- Slot B of a region is the confirmed one. -/
def confirmedB (s : State) (r : Nat) : Bool := s.update.confirmed.getLsbD r

/-- The region is on trial. -/
def onTrial (s : State) (r : Nat) : Bool := s.update.trial.getLsbD r

/-- Slot B of a region is the one that runs: the confirmed slot, or the other one on trial. -/
def runningB (s : State) (r : Nat) : Bool := if onTrial s r then !confirmedB s r else confirmedB s r

/-- A slot of a region. -/
def slotOf (s : State) (r : Nat) (b : Bool) : RegionSlot := if b then (regionOf s r).slotB else (regionOf s r).slotA

/-- Change a slot. -/
def setSlot (r : Nat) (b : Bool) (f : RegionSlot → RegionSlot) (s : State) : State :=
  setRegion r (fun x => if b then { x with slotB := f x.slotB } else { x with slotA := f x.slotA }) s

/-- The slot that is not confirmed. -/
def otherSlot (s : State) (r : Nat) : RegionSlot := slotOf s r (!confirmedB s r)

/-- The version in a slot, 0 for an empty one. -/
def headerVersion (x : RegionSlot) : Nat := x.header.elim 0 (fun h => fieldN h 12 4)

/-- The version of the image that runs. -/
def runningVersion (s : State) (r : Nat) : Nat := headerVersion (slotOf s r (runningB s r))

/-- A region's state code (R436): 0 idle, 1 receiving, 2 verified, 3 migrating, 4 waiting for idle, 5 trial. -/
def regionState (s : State) (r : Nat) : Nat :=
  if onTrial s r then 5
  else if s.cis.migrating = some r then 3
  else if s.update.waiting.any (fun m => m.testBit r) then 4
  else if (regionOf s r).incoming.isSome then 1
  else if (otherSlot s r).header.isSome then 2
  else 0

/-- A directory write goes to the other copy with the next generation (R417). -/
def writeDirectory (f : Update → Update) (s : State) : State :=
  setUpdate (fun u => { f u with generation := u.generation + 1, copyB := !u.copyB }) s

/-- The newest directory copy as its sector holds it (R417). The boot ledger's entries are used from 0 on. -/
def directoryBytes (s : State) : List Byte :=
  let u := s.update
  let body := leBytes 4 0x52444753 ++ wordBytes 4 u.generation ++ [byte u.confirmed.toNat, byte u.trial.toNat, byte (flag u.lock), 0]
      ++
    leBytes 4 (utcField u.trialStart) ++ zeros 48 ++
    (List.range 10).flatMap (fun i => (slotOf s (i / 2) (i % 2 = 1)).header.getD (List.replicate 256 0xFF))
  body ++ wordBytes 4 (crc32c body) ++ zeros 444 ++ u.ledger.reverse.map byte ++ List.replicate (1024 - u.ledger.length) 0xFF

/-- The regions of a mask. -/
def regionsOf (mask : Nat) : List Nat := (List.range 5).filter (fun r => mask.testBit r)

/-- An entry of chapter 15; those that concern LEGAL are legal (R437). -/
def updateLog (origin code mask : Nat) (detail : List Byte) (s : State) : State :=
  log origin 0x0E code detail (mask.testBit 1) s

/-- Three bytes of the version that runs or would run in a region, as entries 0x0E03 and 0x0E04 carry it. -/
def versionTriples (s : State) (mask : Nat) : List Byte :=
  (List.range 4).flatMap (fun r =>
    leBytes 3 (headerVersion (if mask.testBit r then otherSlot s r else slotOf s r (confirmedB s r))))

end Sys2Proof.Machine
end

