-- ==== Sys2Proof/Machine/Image.lean ====
section
/-! DEFINITION. The configuration image (R42 to R47): its records and their status, the owning chapters' own checks, the
image checks, the digest and the change log (R60, R61), and reading the configuration at a start. -/

namespace Sys2Proof.Machine

/-- First 16 bytes of SHA-256 of the identity public key (R43). Zeros while no identity key is held (log entry 17). -/
def identityHash (s : State) : List Byte :=
  match s.cis.identity with
  | some k => (digestBytes (Config.sha256 (wordBytes 64 (Config.publicKey k)))).take 16
  | none => zeros 16

/-! ### Parsing (R46) -/

/-- A record as the image holds it. -/
structure RawRec where
  type  : Nat
  flags : Nat
  level : Nat
  body  : List Byte
  padOk : Bool

/-- The records of a byte string; none where one does not lie wholly within it. The first argument bounds the number. -/
def parseRecords : Nat → List Byte → Option (List RawRec)
  | 0, bs => if bs.isEmpty then some [] else none
  | n + 1, bs =>
    if bs.isEmpty then some []
    else if bs.length < 8 then none
    else
      let len := fieldN bs 4 4
      let total := 8 + (len + 3) / 4 * 4
      if bs.length < total then none
      else
        let x : RawRec :=
          { type := fieldN bs 0 2, flags := fieldN bs 2 1, level := fieldN bs 3 1, body := slice bs 8 len
            padOk := (slice bs (8 + len) (total - 8 - len)).all (fun b => b == 0) }
        (parseRecords n (bs.drop total)).map (fun l => x :: l)

/-- The records of a byte string. -/
def recordsOf (bs : List Byte) : Option (List RawRec) := parseRecords (bs.length / 8 + 1) bs

/-! ### The tests of R47 -/

/-- The key of a record. -/
def keyOf (x : RecSpec) (body : List Byte) : Nat := x.key.elim 0 (fun k => fieldN body k.1 k.2)

/-- Tests 2 to 6 of R47: the status of the first that fails. -/
def earlyStatus (expert : Bool) (x : RecSpec) (r : RawRec) : Nat :=
  if r.level ≠ x.level then St.checkFail
  else if r.level = 1 ∧ expert = false then St.level
  else if r.body.length = 0 then St.lenZero
  else if r.body.length < x.lo ∨ x.hi < r.body.length ∨ x.lenOk r.body = false then St.lenBad
  else if r.padOk = false then St.checkFail
  else St.ok

/-- Tests 1 to 8 of a record, given the types and keys that passed tests 1 to 6 before it. -/
def testRecord (expert : Bool) (typeOf : Nat → Nat) (seen : List (Nat × Nat)) (r : RawRec) :
    Rec × List (Nat × Nat) :=
  match recSpec r.type with
  | none => (⟨r.type, 0, r.flags, r.level, St.unknown, false, r.padOk, r.body⟩, seen)
  | some x =>
    let k := keyOf x r.body
    let early := earlyStatus expert x r
    let status :=
      if early ≠ St.ok then early
      else if (r.type, k) ∈ seen then St.checkFail
      else firstFail r.body (x.fields typeOf r.body)
    (⟨r.type, k, r.flags, r.level, status, true, r.padOk, r.body⟩, if early = St.ok then (r.type, k) :: seen else seen)

/-- Tests 1 to 8 of every record, in image order. -/
def testRecords (expert : Bool) (typeOf : Nat → Nat) : List (Nat × Nat) → List RawRec → List Rec
  | _, [] => []
  | seen, r :: rs =>
    let x := testRecord expert typeOf seen r
    x.1 :: testRecords expert typeOf x.2 rs

/-- Expert level as record 0x0101, read first, sets it (R47). -/
def expertOf (rs : List RawRec) : Bool :=
  recN (testRecords false (fun _ => 0) [] (rs.filter (fun r => r.type == 0x0101))) 0x0101 0 0 1 0 == 1

/-! ### The owning chapters' own checks (test 9) -/

/-- Give each record of a type that has passed so far the status of its chapter's check. -/
def ownPass (type : Nat) (f : List Rec → Rec → Nat) (recs : List Rec) : List Rec :=
  recs.map (fun r => if r.type = type ∧ r.defined = true ∧ r.status = 0 then { r with status := f recs r } else r)

/-- R65: an enabled port has an address. -/
def check0102 (recs : List Rec) (r : Rec) : Nat :=
  let ports := recN recs 0x0101 0 1 1 3
  need (!(ports.testBit 0 && fieldN r.body 0 4 == 0) && !(ports.testBit 1 && fieldN r.body 8 4 == 0)) St.range

/-- A record 0x0601 of a DC outlet. -/
def dcRecord (r : Rec) : Bool := fieldN r.body 1 1 == 1 || fieldN r.body 1 1 == 2

/-- R166: power within voltage × current (10 mV, mA), the AC current limit, one address per converter. -/
def check0601 (recs : List Rec) (r : Rec) : Nat :=
  let volts := fieldN r.body 4 4
  let amps := fieldN r.body 8 4
  let clash := recs.any (fun x => x.type == 0x0601 && x.defined && x.status == 0 && dcRecord x && x.key < r.key &&
    fieldN x.body 2 2 == fieldN r.body 2 2)
  need (if dcRecord r then decide (fieldN r.body 12 4 * 100000 ≤ volts * amps) && !clash
        else decide (fieldN r.body 1 1 = 0 ∨ amps ≤ 80000)) St.checkFail

/-- Full scale of a channel in a list of records (R71, R86). -/
def fsIn (recs : List Rec) (c : Nat) : Nat :=
  let t := typeIn recs [] (c / 4)
  let dflt :=
    if c < 16 then (if c % 4 = 3 then 300 else if 3 ≤ t then 63000 else if c % 4 = 1 then 3000000 else 150000)
    else if c < 19 then 40000 else if c < 23 then 630000 else 150000
  recN recs 0x0302 c 4 4 dflt

/-- R236: threshold codes within 1 to 6,553 and the fault value below the warning value. -/
def check0702 (recs : List Rec) (r : Rec) : Nat :=
  let t := typeIn recs [] r.key
  let chans := if t = 0 then [] else if 3 ≤ t then [4 * r.key, 4 * r.key + 1, 4 * r.key + 2] else [4 * r.key + 1]
  let codes := chans.map (fun c => fieldN r.body 4 4 * 5461 / fsIn recs c)
  need (codes.all (fun x => 1 ≤ x && x ≤ 6553) && decide (fieldN r.body 10 2 < fieldN r.body 8 2)) St.checkFail

/-- Roles of a channel: 0 DC voltage, 1 DC current, 2 residual, 3 grid voltage, 4 AC current, 5 AUX. -/
def roleOf (type c : Nat) : Nat :=
  if c < 16 then (if c % 4 = 3 then 2 else if 3 ≤ type then 4 else if c % 4 = 1 then 1 else 0)
  else if c < 19 then 3 else if c < 23 then 4 else 5

/-- The rated full scale of a head code, and whether the head suits a role (R73). -/
def headFits (code role fs : Nat) : Bool :=
  match code with
  | 0 =>
    if role = 2 then 10 ≤ fs && fs ≤ 1000
    else if role = 1 ∨ role = 4 then 1000 ≤ fs && fs ≤ 3000000
    else 1000 ≤ fs && fs ≤ 150000
  | 1 => (role == 0 || role == 5) && fs == 150000
  | 2 => (role == 0 || role == 5) && fs == 100000
  | 3 => role == 1 && fs == 1000000
  | 4 => role == 1 && fs == 3000000
  | 5 => role == 2 && fs == 300
  | 6 => role == 3 && fs == 40000
  | _ => role == 4 && fs == 250000

/-- R72: the head code and full scale suit the channel's role; a channel of an outlet of type 0 has none. -/
def check0302 (disabled : List Nat) (recs : List Rec) (r : Rec) : Nat :=
  let t := typeIn recs disabled (r.key / 4)
  need (decide (r.key < 16 ∧ t = 0) || headFits (fieldN r.body 1 1) (roleOf t r.key) (fieldN r.body 4 4)) St.checkFail

/-- Pmax of a register in units of 10^-8 kW (R124). -/
def pmax (disabled : List Nat) (recs : List Rec) (m : Nat) : Rat :=
  let k : Rat := 144 / 100
  if m < 32 then
    let o := m / 8
    let t := typeIn recs disabled o
    let ac := [4 * o, 4 * o + 1, 4 * o + 2].foldl (fun a c => max a (fsIn recs c)) 0
    if t = 0 then 0
    else if 3 ≤ t then 3 * k * (fsIn recs 16 : Rat) * ac
    else k * (fsIn recs (4 * o) : Rat) * fsIn recs (4 * o + 1)
  else
    let x := (m - 32) / 7
    k * (fsIn recs (16 + x) : Rat) * fsIn recs (19 + x)

/-- R124: C × Pmax / 3,600 ≤ 1,000 / (2 × w). -/
def check0403 (disabled : List Nat) (recs : List Rec) (r : Rec) : Nat :=
  let c : Rat := fieldN r.body 4 4
  let w : Rat := fieldN r.body 2 1
  need (decide (c * pmax disabled recs (fieldN r.body 1 1) / 100000000 / 3600 ≤ 1000 / (2 * w))) St.range

/-- Protocols that R134 allows for an outlet type. -/
def allowedProtocols : Nat → Nat
  | 1 => 7
  | 2 => 4
  | 4 => 6
  | _ => 0

/-- R159. -/
def check0501 (disabled : List Nat) (recs : List Rec) (r : Rec) : Nat :=
  let t := typeIn recs disabled r.key
  let mask := fieldN r.body 1 1
  let allowed := allowedProtocols t
  need (decide (mask &&& allowed = mask) && (decide (allowed = 0) || decide (mask ≠ 0)) && decide (fieldN r.body 4 1 ≠ 0))
    St.checkFail

/-- R161. -/
def check0503 (r : Rec) : Nat := need (Config.certOk (slice r.body 8 (fieldN r.body 2 2))) St.checkFail

/-- The roots of a kind among the records: 0 V2G roots, 1 mobility-operator roots (R152, R161). -/
def rootsOf (kind : Nat) (recs : List Rec) : List (List Byte) :=
  (recs.filter (fun r => r.type == 0x0503 && r.defined && r.status == 0 && fieldN r.body 1 1 == kind)).map
    (fun r => slice r.body 8 (fieldN r.body 2 2))

/-- V2G roots among the records (R152). -/
def v2gRoots (recs : List Rec) : List (List Byte) := rootsOf 0 recs

/-- A chain meets R152: at most two sub-CA certificates, each certificate of at most 1,600 bytes and as the rule asks, and all
of it verified to a root. While UTC is invalid, validity periods are not checked. -/
def chainValid (s : State) (roots chain : List (List Byte)) : Bool :=
  chain.length ≤ 3 && chain.all (fun c => decide (c.length ≤ 1600) && Config.certOk c) && Config.chainVerifies roots chain (utcNow s)

/-- R162: the chain verifies to a V2G root and its key is the Cistern's. -/
def check0504 (key : Option (BitVec 256)) (recs : List Rec) (r : Rec) : Nat :=
  need (key.any (fun k => Config.chainOk (v2gRoots recs) (r.body.drop 4) (Config.publicKey k))) St.checkFail

/-- R238: a mask other than 0 contains the own slot. -/
def check0704 (slot : Nat) (r : Rec) : Nat :=
  need (decide (fieldN r.body 2 2 = 0) || (fieldN r.body 2 2).testBit slot) St.checkFail

/-- R257. -/
def check0801 (disabled : List Nat) (recs : List Rec) (r : Rec) : Nat :=
  let open_ := fieldN r.body 10 2
  let fine := fieldN r.body 9 1 == 1
  let use := fieldN r.body 1 1
  need (decide ((use = 1) = (r.key < 8)) && decide (fieldN r.body 4 2 ≤ fieldN r.body 6 2) &&
    (open_ == 0 || (if fine then 10 ≤ open_ && open_ ≤ 320 else 200 ≤ open_ && open_ ≤ 5000)) &&
    (use != 3 || typeIn recs disabled (fieldN r.body 12 1) != 0)) St.checkFail

/-- R289: the interval is a whole multiple of the sub-interval count. -/
def check0901 (r : Rec) : Nat := need (decide (fieldN r.body 2 1 * 60 % fieldN r.body 3 1 = 0)) St.checkFail

/-- R292: switch times rise strictly. -/
def check0904 (r : Rec) : Nat :=
  let n := fieldN r.body 1 1
  need ((List.range (n - 1)).all (fun j => decide (fieldN r.body (4 + 4 * j) 2 < fieldN r.body (8 + 4 * j) 2))) St.checkFail

/-- A day profile has a record. -/
def hasProfile (recs : List Rec) (p : Nat) : Bool := (findRec recs 0x0904 p).isSome

/-- R291. -/
def check0903 (recs : List Rec) (r : Rec) : Nat :=
  let same := recs.any (fun x => x.type == 0x0903 && x.defined && x.status == 0 && x.key < r.key &&
    fieldN x.body 1 2 == fieldN r.body 1 2)
  need ((List.range 7).all (fun i => hasProfile recs (fieldN r.body (4 + i) 1)) && !same) St.checkFail

/-- R293. -/
def check0905 (recs : List Rec) (r : Rec) : Nat := need (hasProfile recs (fieldN r.body 1 1)) St.checkFail

/-- R314. -/
def check0A02 (r : Rec) : Nat :=
  let stress (j : Nat) := fieldN r.body (4 * j) 2
  let gain (j : Nat) := fieldN r.body (4 * j + 2) 2
  need (stress 0 == 0 && gain 0 == 1024 &&
    (List.range 5).all (fun j => decide (stress j < stress (j + 1)) && decide (gain j ≤ gain (j + 1))) &&
    decide (gain 5 ≤ 1433)) St.checkFail

/-- R381; a mask of 0 is a stack of one. -/
def check0C02 (slot : Nat) (recs : List Rec) (r : Rec) : Nat :=
  let mask := fieldN r.body 2 2
  let spares := fieldN r.body 4 2
  let other := recN recs 0x0704 0 2 2 0
  need (mask == 0 || (mask.testBit slot && mask.testBit 0 && spares &&& (mask ||| 1) == spares &&
    (other == 0 || recN recs 0x0704 0 0 2 0 == fieldN r.body 0 2))) St.checkFail

/-- R455: a port that is enabled has a standard. -/
def check0F01 (r : Rec) : Nat :=
  let ports := fieldN r.body 0 1
  need (!(ports.testBit 0 && fieldN r.body 1 1 == 0) && !(ports.testBit 1 && fieldN r.body 2 1 == 0)) St.checkFail

/-- R470: a day mask of 0 is in range only where maintenance is off. -/
def check1001 (r : Rec) : Nat := need (fieldN r.body 0 1 == 1 || fieldN r.body 1 1 != 0) St.range

/-- The own checks of a tariff table (R291 to R293). -/
def tariffChecks (recs : List Rec) : List Rec :=
  ownPass 0x0905 check0905 (ownPass 0x0903 check0903 (ownPass 0x0904 (fun _ r => check0904 r) recs))

/-- Outlets whose record 0x0702 failed its own check (R236): it passed before and carries CHECK_FAIL after. -/
def disabledBy (before after : List Rec) : List Nat :=
  ((before.zip after).filter (fun x => x.1.type == 0x0702 && x.1.defined && x.1.status == 0 && x.2.status != 0)).map
    (fun x => x.1.key)

/-- All own checks, and the outlets that R236 disables. The thresholds of a record 0x0702 are held against the full scales of
the records 0x0302 that pass R72; the channels of an outlet that this disables have no role, and their records pass. -/
def ownChecks (slot : Nat) (tlsKey : Option (BitVec 256)) (recs : List Rec) : List Rec × List Nat :=
  let a := ownPass 0x0601 check0601 (ownPass 0x0102 check0102 recs)
  let full := ownPass 0x0302 (check0302 []) a
  let b := ownPass 0x0702 (fun _ r => check0702 full r) a
  let off := disabledBy a b
  let c := ownPass 0x0403 (check0403 off) (ownPass 0x0302 (check0302 off) b)
  let c := ownPass 0x0501 (check0501 off) c
  let c := ownPass 0x0504 (check0504 tlsKey) (ownPass 0x0503 (fun _ r => check0503 r) c)
  let c := ownPass 0x0801 (check0801 off) (ownPass 0x0704 (fun _ r => check0704 slot r) c)
  let c := tariffChecks (ownPass 0x0901 (fun _ r => check0901 r) c)
  let c := ownPass 0x0C02 (check0C02 slot) (ownPass 0x0A02 (fun _ r => check0A02 r) c)
  (ownPass 0x1001 (fun _ r => check1001 r) (ownPass 0x0F01 (fun _ r => check0F01 r) c), off)

/-- Every record of an image with its status, and the outlets that R236 disables. -/
def applyRecords (slot : Nat) (tlsKey : Option (BitVec 256)) (rs : List RawRec) : List Rec × List Nat :=
  let expert := expertOf rs
  let first := testRecords expert (fun _ => 0) [] rs
  let typeOf := typeIn (first.filter (fun r => r.type == 0x0601)) []
  ownChecks slot tlsKey (testRecords expert typeOf [] rs)

/-! ### The digest (R60, R61) -/

/-- The digest copy in use: of two copies the one with the later generation. -/
def digestInUse (s : State) : Option Digest :=
  match s.cfg.digestA, s.cfg.digestB with
  | some a, some b => if later b.generation a.generation then some b else some a
  | some a, none => some a
  | none, b => b

/-- The digest entry of a record. -/
def digestEntry (r : Rec) : DigestEntry := ⟨r.type, r.key, r.status, crc32c r.body⟩

/-- Changes to records of subsystems 0x03, 0x04 and 0x09 enter the legal log (R62), and a change of the legal list in record
0x0A01 (R313). DEDUCED (log entry 27): the digest holds the check of the whole payload, so every change of that record counts.
-/
def legalType (t : Nat) : Bool := t / 256 == 3 || t / 256 == 4 || t / 256 == 9 || t == 0x0A01

/-- A change against the digest: type, key, status, old and new payload check. -/
structure RecChange where
  type   : Nat
  key    : Nat
  status : Nat
  old    : Nat
  new    : Nat

/-- The changes of a set of records against a digest (R60), those of records that are present first: the manual gives no order
(log entry 27). -/
def recordChanges (d : Digest) (recs : List Rec) : List RecChange :=
  let known := recs.filter (fun r => r.defined)
  let here := known.filterMap (fun r =>
    let e := digestEntry r
    if e ∈ d.entries then none
    else
      let old := d.entries.find? (fun x => x.type == e.type && x.key == e.key)
      some ⟨e.type, e.key, e.status, old.elim 0xFFFFFFFF (fun x => x.check.toNat), e.check.toNat⟩)
  let gone := d.entries.filter (fun x => !known.any (fun r => r.type == x.type && r.key == x.key))
  here ++ gone.map (fun x => ⟨x.type, x.key, 0xFF, x.check.toNat, 0xFFFFFFFF⟩)

/-- Detail of entry 0x0010 (R60). -/
def changeDetail (c : RecChange) : List Byte :=
  leBytes 2 c.type ++ leBytes 2 c.key ++ [byte c.status, 0, 0, 0] ++ leBytes 4 c.old ++ leBytes 4 c.new

/-- Legal-log entries that a set of records needs (R45, check 9). -/
def legalNeeded (s : State) (recs : List Rec) : Nat :=
  match digestInUse s with
  | some d => ((recordChanges d recs).filter (fun c => legalType c.type)).length
  | none => (recs.filter (fun r => r.defined && legalType r.type)).length

/-- Entries that a change log needs fit while 64 entries stay free before the last of them (R45, R63). -/
def legalFits (s : State) (n : Nat) : Bool := n == 0 || n + 63 ≤ legalFree s

/-- The change entries of a start and the new digest (R60, R61). -/
def logChanges (slot serial : Nat) (recs : List Rec) (s : State) : State :=
  let t := match digestInUse s with
    | some d => (recordChanges d recs).foldl (fun u c => log 0 0x01 0x0010 (changeDetail c) (legalType c.type) u) s
    | none =>
      let u := log 0 0x01 0x0011 (leBytes 4 serial ++ leBytes 4 recs.length ++ zeros 8) false s
      let legal := recs.filter (fun (r : Rec) => r.defined && legalType r.type)
      legal.foldl (fun v (r : Rec) =>
        addLegal (newEntry v 0 0x01 0x0010 (changeDetail ⟨r.type, r.key, r.status, 0xFFFFFFFF, (crc32c r.body).toNat⟩)) v) u
  let d : Digest :=
    { generation := (digestInUse s).elim 1 (fun x => x.generation + 1), serial, slot
      entries := (recs.filter (fun (r : Rec) => r.defined)).map digestEntry }
  let newestA := match digestInUse s with
    | some x => s.cfg.digestA == some x
    | none => false
  if newestA then { t with cfg := { t.cfg with digestB := some d } } else { t with cfg := { t.cfg with digestA := some d } }

/-! ### The image (R43 to R45) -/

/-- The length field of an image. -/
def imageLength (b : List Byte) : Nat := fieldN b 8 4

/-- The records part of an image. -/
def imageRecords (b : List Byte) : List Byte := (b.take (imageLength b)).drop 64

/-- The records of an image with their status, and the outlets that R236 disables. -/
def imageResult (b : List Byte) (s : State) : List Rec × List Nat :=
  applyRecords s.power.straps.val s.cis.tls ((recordsOf (imageRecords b)).getD [])

/-- An update-verification key is programmed and not revoked (R44). -/
def keyUsable (s : State) (i : Nat) : Bool := i < 4 && s.otp.programmed.getLsbD i && !s.otp.revoked.getLsbD i

/-- A signature, r then s, verifies under the update-verification key of a slot that is programmed and not revoked. -/
def keyVerifies (s : State) (i : Nat) (msg sig : List Byte) : Bool :=
  keyUsable s i && Config.verifies (s.otp.updateKeys.getD i 0) msg (BitVec.ofNat 512 (leNat sig))

/-- The image checks of R45 in order. -/
def configImageStatus (b : List Byte) (s : State) : Nat :=
  let len := imageLength b
  let rs := recordsOf (imageRecords b)
  let raw := rs.getD []
  let checks : List (Unit → Nat) :=
    [ fun _ => need (fieldN b 0 4 == 0x46434753 && fieldN b 4 2 == 1 && fieldN b 6 2 == 64) St.checkFail
    , fun _ => need (64 ≤ len && len ≤ 262076 && len % 4 == 0 && len + 68 ≤ b.length && rs.isSome) St.lenBad
    , fun _ => need (fieldN b 44 4 == (crc32c (imageRecords b)).toNat) St.checkFail
    , fun _ => need (keyVerifies s (fieldN b len 1) (b.take (len + 4)) (slice b (len + 4) 64)) St.authFail
    , fun _ => need (leNat (slice b 24 16) == 0 || slice b 24 16 == identityHash s) St.checkFail
    , fun _ => need (fieldN b 40 4 ≤ runningVersion s 2) St.refusedState
    , fun _ => need (raw.length == fieldN b 12 4) St.lenBad
    , fun _ => need (raw.all (fun r => r.flags % 2 == 0 || (recSpec r.type).isSome)) St.unknown
    , fun _ => need (legalFits s (legalNeeded s (imageResult b s).1)) St.noSpace ]
  checks.foldl (fun st f => if st = St.ok then f () else st) St.ok

/-- An image takes effect from a slot (0 = A, 1 = B). -/
def useImage (slot : Nat) (b : List Byte) (s : State) : State :=
  let x := imageResult b s
  { s with cfg := { s.cfg with slot := slot, serial := fieldN b 16 4, recs := x.1, disabled := x.2 } }

/-- The module starts unconfigured (R42). -/
def useDefaults (s : State) : State :=
  { s with cfg := { s.cfg with slot := 2, serial := 0, recs := [], disabled := [] } }

/-- Entry 0x0001 (R516). -/
def logSlotFallback (slot failed inForce other : Nat) (s : State) : State :=
  log 0 0x01 0x0001 ([byte slot, byte failed, byte inForce, byte other] ++ leBytes 4 s.cfg.serial ++ zeros 8) false s

/-- The configuration image is read (R42): the running CONFIG slot, else the other, else defaults; then the change log and
the digest (R60, R61). -/
def readConfiguration (s : State) : State :=
  let b := runningB s 4
  let slot := if b then 1 else 0
  let img (x : Bool) := (slotOf s 4 x).data
  let st (x : Bool) := configImageStatus (img x) s
  let first := st b
  let second := st (!b)
  let t :=
    if first = St.ok then useImage slot (img b) s
    else if second = St.ok then logSlotFallback slot first (1 - slot) 0 (useImage (1 - slot) (img (!b)) s)
    else logSlotFallback slot first 2 second (useDefaults s)
  releaseIrq (logChanges t.cfg.slot t.cfg.serial t.cfg.recs t)

end Sys2Proof.Machine
end

