-- ==== Sys2Proof/Machine/Billing.lean ====
section
/-! DEFINITION. Billing of committed windows (R264 to R267, R282), signed session records (R285), billing period
records (R268 to R270), prepaid accounts and their store (R280 to R284), and the clock (R277). -/

namespace Sys2Proof.Machine

/-- Change the billing state. -/
def setBill (f : Billing → Billing) (s : State) : State := { s with bill := f s.bill }

/-- The billing point: 0 meter point, 1 vehicle connector (R289). -/
def billingPoint (s : State) : Nat := cfgN s 0x0901 0 0 1 0

/-- The currency and the minor units per currency unit (R289). -/
def currency (s : State) : Nat := cfgN s 0x0901 0 8 2 978
def minorUnits (s : State) : Nat := cfgN s 0x0901 0 10 2 100

/-- The import and export registers of an outlet at the billing point (R264). -/
def importReg (s : State) (o : Outlet) : Nat := 8 * o.val + 4 * billingPoint s
def exportReg (s : State) (o : Outlet) : Nat := importReg s o + 1

/-! ### Windows (R264, R265, R282) -/

/-- What a window adds to the three quantities of its tariff, from the changes of the committed values. -/
def windowQuantities (s : State) (changes : List Int) : List Int :=
  let total (rs : List Nat) : Int := sumInt (rs.map (fun m => changes.getD m 0))
  [total (outlets.map (importReg s)), total (outlets.map (exportReg s)), total [32, 39, 46]]

/-- The unit of the cost: 10^-3 minor unit. -/
def costUnit : Int := 100000000

/-- The cost of a change of `delta` mWh at a price (R282). -/
def addCost (price minor : Nat) (delta : Int) (x : OutletBill) : OutletBill :=
  if x.stopped then x
  else
    let v := (x.remainder : Int) + delta * price * minor
    { x with cost := x.cost + v / costUnit, residue := residueOf (x.cost + v / costUnit), remainder := (v % costUnit).toNat }

/-- The segments of a session record after a change of energy under a tariff (R285): the first three tariffs have their
own, the fourth and further ones share 0xFE (log entry 18). -/
def addSegment (tariff : Nat) (delta : Int) (x : OpenRecord) : OpenRecord :=
  let put (t : Nat) : List (Nat × Int) := x.segments.map (fun g => if g.1 = t then (t, g.2 + delta) else g)
  if delta = 0 then x
  else if x.segments.any (fun g => g.1 == tariff) then { x with segments := put tariff }
  else if x.segments.length < 3 then { x with segments := x.segments ++ [(tariff, delta)] }
  else if x.segments.any (fun g => g.1 == 0xFE) then { x with segments := put 0xFE, moreTariffs := true }
  else { x with segments := x.segments ++ [(0xFE, delta)], moreTariffs := true }

/-- An outlet's session cost takes a window. -/
def billOutlet (changes : List Int) (o : Outlet) (s : State) : State :=
  if (sessOf s o).closed then s
  else
    let b := s.bill.inUse
    let delta := changes.getD (importReg s o) 0
    setBill (fun x => { x with
      outlets := x.outlets.set o
        { addCost (b.prices.getD b.tariff 0) (minorUnits s) delta (x.outlets.get o) with account := b.accounts.get o }
      openRecs := x.openRecs.set o ((x.openRecs.get o).map (addSegment b.tariff delta)) }) s

/-- Tariff values after a window under a tariff; values that failed their residue check stay (R267). -/
def addQuantities (tariff : Nat) (q : List Int) (stopped : List Nat) (values : List Int) : List Int :=
  values.mapIdx (fun i v => if i / 3 = tariff ∧ i ∉ stopped then v + q.getD (i % 3) 0 else v)

/-- The newest complete billing slot, slot 1 as true (R266). -/
def newestBilling (s : State) : Option Bool :=
  match s.bill.slot0.complete, s.bill.slot1.complete with
  | true, true => some (later s.bill.slot1.number s.bill.slot0.number)
  | true, false => some false
  | false, true => some true
  | false, false => none

/-- Write the billing slot of the commit that stands in the newest energy slot. -/
def writeBillingSlot (partialKind : Bool) (s : State) : State :=
  let b := s.bill
  let outs := outlets.foldl (fun (p : PerOutlet OutletBill) o =>
    p.set o { p.get o with opened := !(sessOf s o).closed }) b.outlets
  let slot : BillingSlot :=
    { number := (newestCommit s).elim 0 (fun c => c.number), tariff := b.inUse.tariff, complete := true
      forced := b.inUse.forced, partialCommit := partialKind, onRestore := b.onRestore, period := b.period
      values := b.values, residues := b.values.map residueOf, outlets := outs }
  setBill (fun x => { x with
    onRestore := false, outlets := outs
    slot0 := if newestBilling s = some false then x.slot0 else slot
    slot1 := if newestBilling s = some false then slot else x.slot1 }) s

/-- Bill a committed window: tariff increments, session costs, the billing slot. -/
def billWindow (partialKind : Bool) (changes : List Int) (s : State) : State :=
  let t := setBill (fun b => { b with
    values := addQuantities b.inUse.tariff (windowQuantities s changes) b.stopped b.values }) s
  writeBillingSlot partialKind (forOutlets (billOutlet changes) t)

/-- At a dial cycle boundary the block of the last evaluation comes into use (R35, R265). -/
def billingBoundary (s : State) : State := setBill (fun b => { b with inUse := b.control }) s

/-! ### Accounts (R280, R281) -/

/-- An account, if it is valid. -/
def accountOf (s : State) (i : Nat) : Option Account := s.bill.accounts.find? (fun a => a.index == i)

/-- Put an account in place. -/
def putAccount (a : Account) (s : State) : State :=
  setBill (fun b => { b with
    accounts := a :: b.accounts.filter (fun x => x.index != a.index), accountsChanged := true }) s

/-- The account that an outlet's open prepaid session runs on. -/
def prepaidAccount (s : State) (o : Outlet) : Option Nat :=
  let x := sessOf s o
  if x.prepaid && !x.closed then some x.grant.account else none

/-- The open session cost on an account. -/
def openCost (s : State) (i : Nat) : Int :=
  sumInt (outlets.map (fun o => if prepaidAccount s o = some i then (s.bill.outlets.get o).cost else 0))

/-- The available credit of an account (R281). -/
def availableCredit (s : State) (a : Account) : Int :=
  a.balance - openCost s a.index + (if a.emergencyAllowed then a.limit else 0)

/-- The credit check that a prepaid Sieve entry undergoes (R174, R281). -/
def creditAccepts (s : State) (i : Nat) : Bool := (accountOf s i).any (fun a => decide (0 < availableCredit s a))

/-- A minute of the day lies in a friendly window (R280). -/
def inWindow (m : Nat) (w : Nat × Nat) : Bool :=
  if w.1 = w.2 then false else if w.1 < w.2 then w.1 ≤ m && m < w.2 else w.1 ≤ m || m < w.2

/-- A friendly window of an account is in force; every one is while the clock is not valid (R279). -/
def friendlyNow (s : State) (a : Account) : Bool :=
  match localClock s with
  | some c => a.windows.any (inWindow c.2)
  | none => a.windows.any (fun w => w.1 != w.2)

/-! ### The account store (R284) -/

/-- An account entry (R280). -/
def accountBytes (a : Account) (valid : Bool) : List Byte :=
  leBytes 2 a.index ++ [byte (flags [valid, a.emergencyAllowed, a.emergencyInUse]), 0] ++ leInt 8 a.balance ++
    leInt 8 a.limit ++ padTo 16 (a.windows.flatMap (fun w => leBytes 2 w.1 ++ leBytes 2 w.2)) ++ zeros 4

/-- The CRC-32C of a copy's entries. The manual's copy has 4,096 places; the model's holds the entries of valid accounts, and
the check is over these (log entry 63). -/
def entriesCheck (l : List Account) : U32 := crc32c (l.flatMap (fun a => accountBytes a true))

/-- A copy whose entries agree with its check. -/
def storeValid (c : AccountStore) : Bool := c.crc == entriesCheck c.accounts

/-- Write the account store to the older copy. -/
def writeAccountStore (s : State) : State :=
  let b := s.bill
  let gen (c : Option AccountStore) : Nat := c.elim 0 (fun x => x.generation)
  let copy : AccountStore :=
    { generation := max (gen b.storeA) (gen b.storeB) + 1, lastRecord := b.lastRecord, accounts := b.accounts
      crc := entriesCheck b.accounts }
  setBill (fun x => { x with
    accountsChanged := false
    storeA := if gen b.storeA ≤ gen b.storeB then some copy else x.storeA
    storeB := if gen b.storeA ≤ gen b.storeB then x.storeB else some copy }) s

/-- Take an amount off an account. -/
def debit (i : Nat) (cost : Int) (s : State) : State :=
  match accountOf s i with
  | some a => putAccount { a with balance := a.balance - cost } s
  | none => s

/-- At start: the valid copy with the higher generation, less the cost of every later session record. -/
def restoreAccounts (s : State) : State :=
  let copy := match s.bill.storeA.filter storeValid, s.bill.storeB.filter storeValid with
    | some a, some b => if a.generation < b.generation then some b else some a
    | some a, none => some a
    | none, b => b
  let t := setBill (fun x => { x with accounts := copy.elim [] (fun c => c.accounts) }) s
  (s.bill.records.reverse.filter (fun r => copy.elim 0 (fun c => c.lastRecord) < r.number)).foldl
    (fun u r => r.debit.elim u (fun d => debit d.1 d.2 u)) t

/-! ### Session records (R285) -/

/-- The committed value of a register in the newest complete commit (0 before any: log entry 16). -/
def committedValue (s : State) (m : Nat) : Int := committed (committedRegister s m).acc

/-- Import and export at the meter point, import and export at the connector. -/
def sessionEnergies (s : State) (o : Outlet) : List Int :=
  [0, 1, 4, 5].map (fun i => committedValue s (8 * o.val + i))

/-- A session starts: what its record fixes at entry into S1. -/
def openRecord (o : Outlet) (s : State) : State :=
  let x := sessOf s o
  let fresh : OpenRecord :=
    { number := x.number, startUtc := utcNow s, startStamp := stamp s, startEpoch := s.sun.epoch, starts := sessionEnergies s o
      segments := [], moreTariffs := false, clockStep := false, friendly := false, emergency := false, cut := none }
  setBill (fun b => { b with
    openRecs := b.openRecs.set o (some fresh), outlets := b.outlets.set o OutletBill.init }) s

/-- Protocol code of opcode 0x0501. -/
def protocolCode : Option Protocol → Nat
  | none => 0
  | some .din => 1
  | some .iso2 => 2
  | some .iso20 => 3

/-- What the record says of an outlet's authorisation, as the session stands. -/
def recordInfo (s : State) (o : Outlet) : RecordInfo :=
  let x := sessOf s o
  { otype := outletType s o.val, protocol := protocolCode (s.link.get o).protocol, path := x.authPath
    kind := x.cred.elim 0 (fun c => c.kind), account := x.grant.account
    hash := x.cred.elim 0 (fun c => if c.kind = 0 then 0 else c.hash) }

/-- OR of the session status of an outlet's eight registers (R109). -/
def sessionStatusWord (s : State) (o : Outlet) : BitVec 16 :=
  (List.range 8).foldl (fun w i => w ||| (regAt s (8 * o.val + i)).session) 0

/-- Segment tariffs and energies, four of each. -/
def segmentBytes (x : OpenRecord) : List Byte × List Byte :=
  let g := x.segments ++ List.replicate (4 - x.segments.length) (0xFF, 0)
  (g.map (fun y => byte y.1), g.flatMap (fun y => leInt 8 y.2))

/-- Bytes 0 to 191 of a session record. The path of a session that no authorisation decided is open. -/
def sessionBody (s : State) (o : Outlet) (number reason : Nat) (x : OpenRecord) (i : RecordInfo) : List Byte :=
  let e := x.starts.zip (sessionEnergies s o)
  let pair (n : Nat) : List Byte := leInt 8 (e.getD n (0, 0)).1 ++ leInt 8 (e.getD n (0, 0)).2
  let bill := s.bill.outlets.get o
  let fl := flags [(utcNow s).isNone, x.clockStep, x.cut.isSome, x.moreTariffs, x.friendly, x.emergency]
  leBytes 2 1 ++ leBytes 2 192 ++ leBytes 4 number ++ leBytes 4 x.number ++ serialBytes s ++
    [byte o.val, byte i.otype, byte reason, byte i.protocol] ++
    leBytes 4 (utcField x.startUtc) ++ leBytes 4 (utcField (utcNow s)) ++
    wordBytes 4 x.startStamp.cycle ++ leBytes 2 x.startStamp.angle ++ leBytes 2 x.startEpoch ++
    wordBytes 4 s.sun.cycle ++ leBytes 2 s.sun.angle ++ wordBytes 2 (sessionStatusWord s o) ++
    pair 0 ++ pair 1 ++ pair 2 ++ pair 3 ++
    i.path.elim (openField 1 s) (leBytes 1) ++ [byte i.kind] ++ leBytes 2 i.account ++ wordBytes 12 i.hash ++
    leInt 8 bill.cost ++ leBytes 2 (currency s) ++ leBytes 2 (minorUnits s) ++ [byte (billingPoint s), 0, 0, 0] ++
    (segmentBytes x).1 ++ leBytes 4 s.bill.period ++ (segmentBytes x).2 ++ leBytes 4 fl ++ zeros 4

/-- Form, sign and write the record of an outlet's session, and debit its account (R284, R285). -/
def closeRecord (o : Outlet) (reason : Nat) (s : State) : State :=
  match s.bill.openRecs.get o with
  | none => s
  | some x =>
    let i := x.cut.getD (recordInfo s o)
    let number := s.bill.lastRecord + 1
    let body := sessionBody s o number reason x i
    let cost := (s.bill.outlets.get o).cost
    let due := if x.cut.isSome then (s.bill.outlets.get o).account else prepaidAccount s o
    let r : SessionRecord :=
      { number, debit := due.map (fun a => (a, cost)), bytes := body ++ wordBytes 64 (metrologySign s body) }
    let t := signed (setBill (fun b => { b with
      lastRecord := number, records := (r :: b.records).take 2048, openRecs := b.openRecs.set o none }) s)
    let t := match due with
      | some a => writeAccountStore (debit a cost t)
      | none => t
    log 0 0x09 0x0908 (leBytes 4 number ++ leBytes 4 x.number ++ byte o.val :: zeros 7) false t

/-- A power cut leaves the open sessions to be closed at the first evaluation after the restore (R285). -/
def cutRecords (s : State) : PerOutlet (Option OpenRecord) :=
  outlets.foldl (fun (p : PerOutlet (Option OpenRecord)) o =>
    p.set o ((p.get o).map (fun x => { x with cut := some (x.cut.getD (recordInfo s o)) }))) s.bill.openRecs

/-! ### Billing periods (R268, R270) -/

/-- The maxima as opcode 0x0906 and a period record show them. -/
def maximaBytes (s : State) : List Byte := s.bill.demand.maxima.flatMap (fun m => leInt 4 m.1 ++ leBytes 4 m.2)

/-- The tariff values, 384 bytes. -/
def valueBytes (s : State) : List Byte := s.bill.values.flatMap (leInt 8)

/-- The start of the running period: open for the first period, which no period precedes. -/
def periodStartField (s : State) : List Byte :=
  if s.bill.period = 0 then openField 4 s else leBytes 4 (utcField s.bill.periodStart)

/-- The flags of the record of the period that closes now. -/
def periodFlags (late byCommand : Bool) (s : State) : Nat :=
  flags [late, s.bill.pStep, (utcNow s).isNone, s.bill.pIncomplete, byCommand, s.bill.pLost]

/-- Bytes 0 to 551 of a billing period record. -/
def periodBody (endUtc : Option Nat) (fl : Nat) (s : State) : List Byte :=
  leBytes 2 1 ++ leBytes 2 552 ++ leBytes 4 s.bill.period ++ serialBytes s ++ periodStartField s ++
    leBytes 4 (utcField endUtc) ++ wordBytes 4 s.sun.cycle ++ leBytes 2 40960 ++ leBytes 2 s.sun.epoch ++
    leBytes 2 fl ++ leBytes 2 (currency s) ++ wordBytes 2 s.bill.demand.maxMask ++ zeros 2 ++ valueBytes s ++ maximaBytes s

/-- Every maximum is cleared, in the blocks of retention SRAM too. -/
def clearMaxima (d : DemandBlock) : DemandBlock := { d with maxima := List.replicate 16 (0, 0), maxMask := 0 }

/-- The first 212 bytes of a demand block (R273). -/
def demandBody (d : DemandBlock) : List Byte :=
  wordBytes 4 d.update ++ leBytes 4 d.start ++ [byte d.pos, byte d.filled] ++
    leBytes 2 (flags [d.incomplete, d.stepped, d.clockInvalid]) ++ wordBytes 2 d.maxMask ++ wordBytes 2 d.ringMask ++
    leInt 8 d.source ++ d.ring.flatMap (leInt 4) ++ d.maxima.flatMap (fun m => leInt 4 m.1 ++ leBytes 4 m.2)

/-- A demand block as it is written. -/
def sealDemand (d : DemandBlock) : DemandBlock := { d with crc := crc32c (demandBody d) }

/-- The block has a good CRC. -/
def demandGood (d : DemandBlock) : Bool := d.crc == crc32c (demandBody d)

/-- A block of retention SRAM with its maxima cleared; one with a bad CRC stays as it is. -/
def clearedBlock (d : DemandBlock) : DemandBlock := if demandGood d then sealDemand (clearMaxima d) else d

/-- Close the billing period (R268). -/
def closePeriod (origin : Nat) (endUtc : Option Nat) (late byCommand : Bool) (s : State) : State :=
  let fl := periodFlags late byCommand s
  let body := periodBody endUtc fl s
  let r : PeriodRecord :=
    { number := s.bill.period, endUtc, values := s.bill.values, bytes := body ++ wordBytes 64 (metrologySign s body) }
  let t := signed (setBill (fun b => { b with
    periods := (r :: b.periods).take 16
    demand := clearMaxima b.demand, demand0 := clearedBlock b.demand0, demand1 := clearedBlock b.demand1
    period := b.period + 1, periodStart := endUtc, lastEnd := endUtc, stopped := []
    pStep := false, pIncomplete := false, pLost := false, deferred := false
    outlets := outlets.foldl (fun (p : PerOutlet OutletBill) o => p.set o { p.get o with stopped := false }) b.outlets }) s)
  log origin 0x09 0x0901 (leBytes 4 r.number ++ leBytes 4 (utcField endUtc) ++ leBytes 2 fl ++ zeros 6) true t

/-! ### Restore (R267, R273, R276) -/

/-- Outlet billing as a slot restores it. -/
def restoredOutlets (badTariffs : List Nat) (p : PerOutlet OutletBill) : PerOutlet OutletBill :=
  outlets.foldl (fun (q : PerOutlet OutletBill) o =>
    q.set o { q.get o with stopped := (q.get o).stopped || decide (48 + o.val ∈ badTariffs) }) p

/-- What fails its residue check in a slot: 3k + q for a tariff value, 48 + n for a session cost. -/
def slotFaults (b : BillingSlot) : List Nat :=
  (List.range b.values.length).filter (fun i => b.residues.getD i 0 != residueOf (b.values.getD i 0)) ++
    (outlets.filter (fun o => (b.outlets.get o).residue != residueOf (b.outlets.get o).cost)).map (fun o => 48 + o.val)

/-- The control block that stands after a restore: the tariff and the flag of the slot, and the price table (log entry 18). -/
def restoredControl (b : BillingSlot) (s : State) : ControlBlock :=
  { ControlBlock.init with
    tariff := b.tariff, forced := b.forced, prices := (List.range 16).map (fun k => tarN s 0x0906 0 (4 * k) 4 0) }

/-- The number of the running period: that of the slot, unless that period closed after the slot was written. -/
def openPeriod (slotPeriod : Nat) (s : State) : Nat := max slotPeriod ((s.bill.periods.head?).elim 0 (fun p => p.number + 1))

/-- A billing slot comes back, with increments in mWh of the registers since its commit. -/
def useSlot (b : BillingSlot) (badTariffs : List Nat) (changes : Option (List Int)) (s : State) : State :=
  let badTariffs := badTariffs ++ slotFaults b
  let bad := badTariffs.filter (fun i => i < 48)
  setBill (fun x => { x with
    control := restoredControl b s, inUse := restoredControl b s
    values := match changes with
      | some c => addQuantities b.tariff (windowQuantities s c) bad b.values
      | none => b.values
    stopped := bad, pLost := x.pLost || !badTariffs.isEmpty, onRestore := changes.isSome, period := openPeriod b.period s
    outlets := restoredOutlets badTariffs b.outlets }) s

/-- Changes of the committed values from the commit that a billing slot belongs to; without that energy slot nothing is
known and nothing is added. -/
def changesSince (number : U32) (s : State) : List Int :=
  match [s.energy.slot0, s.energy.slot1].find? (fun c => c.complete && c.number == number) with
  | some c => (List.range 53).map (fun m =>
      committed (regAt s m).acc - committed ((c.regs[m]?).elim (regAt s m).acc (fun r => r.acc)))
  | none => []

/-- The demand block with a good CRC and the later update number (R273). -/
def newestDemand (s : State) : Option DemandBlock :=
  match demandGood s.bill.demand0, demandGood s.bill.demand1 with
  | true, true => some (if later s.bill.demand1.update s.bill.demand0.update then s.bill.demand1 else s.bill.demand0)
  | true, false => some s.bill.demand0
  | false, true => some s.bill.demand1
  | false, false => none

/-- Restore at power-on and after a brown-out reset; `fromSlot` tells that the energy registers came from a commit slot. -/
def restoreBilling (fromSlot : Bool) (badTariffs : List Nat) (s : State) : State :=
  let slots := [s.bill.slot0, s.bill.slot1].filter (fun b => b.complete)
  let commit := (newestCommit s).map (fun c => c.number)
  let lostStart (t : State) : State :=
    setBill (fun x => { x with
      values := (x.periods.head?).elim (List.replicate 48 0) (fun p => p.values)
      period := (x.periods.head?).elim 0 (fun p => p.number + 1), pLost := true
      outlets := .all .init }) t
  let t :=
    if !fromSlot || !s.power.retention then lostStart s
    else match slots.find? (fun b => some b.number == commit) with
      | some b => useSlot b badTariffs none s
      | none =>
        match slots.foldl (fun (a : Option BillingSlot) b => match a with
            | none => some b
            | some c => if later b.number c.number then some b else some c) none with
        | some b => useSlot b badTariffs (some (changesSince b.number s)) s
        | none => lostStart s
  let last := t.bill.periods.head?
  let t := setBill (fun x => { x with
    lastEnd := last.elim x.lastEnd (fun p => p.endUtc), periodStart := last.elim none (fun p => p.endUtc)
    afterCut := true, subInterval := none }) t
  match if s.power.retention then newestDemand s else none with
  | some d => setBill (fun x => { x with demand := { d with incomplete := true }, demandCause := 1 }) t
  | none => setBill (fun x => { x with
      demand := { DemandBlock.init with incomplete := true }, demandCause := 4, ringCauses := List.replicate 15 0
      pLost := true }) t

/-! ### The clock (R277) -/

/-- The difference that a step on an invalid clock reports. -/
def noDifference : Int := -2147483648

/-- Entry 0x0902 of a clock setting. -/
def logClock (origin kind old new : Nat) (delta : Int) (s : State) : State :=
  log origin 0x09 0x0902 (byte kind :: zeros 3 ++ leBytes 4 old ++ leBytes 4 new ++ leInt 4 delta) (kind = 1) s

/-- A step of the clock: status and the difference it reports. -/
def clockStep (origin utc ms : Nat) (s : State) : State × Nat × Int :=
  if !(origin ∈ [1, 2, 3] || (origin = 6 && inService s)) then (s, St.authFail, 0)
  else if !legalRoom s then (s, St.noSpace, 0)
  else
    let delta : Int := if s.sun.utcValid then (utc : Int) * 1000 + ms - utcMs s else noDifference
    let old := utcField (utcNow s)
    let t := { s with sun := { s.sun with utc := utc, utcMark := (s.clockMs : Int) - ms, utcValid := true } }
    let t := setBill (fun b => { b with
      slew := 0, stepPending := true, pStep := true
      openRecs := outlets.foldl (fun (p : PerOutlet (Option OpenRecord)) o =>
        p.set o ((p.get o).map (fun x => { x with clockStep := true }))) b.openRecs }) t
    (logClock origin 1 old utc delta t, St.ok, delta)

/-- A slew of the clock (R277). -/
def clockSlew (origin : Nat) (delta : Int) (s : State) : State × Nat :=
  if !s.sun.utcValid then (s, St.refusedState)
  else if 2000 < delta.natAbs then (s, St.range)
  else
    let target := (utcMs s + delta) / 1000
    (logClock origin 0 s.sun.utc target.toNat delta (setBill (fun b => { b with slew := delta }) s), St.ok)

end Sys2Proof.Machine
end

