-- ==== Sys2Proof/Machine/Converter.lean ====
section
/-! DEFINITION. The converter bus (R185 to R187, R190): native frames, the converter map, and reading what a converter
sends. -/

namespace Sys2Proof.Machine

/-! ### Addresses (R165) -/

/-- Converter channel and address of a DC outlet. -/
def convChannel (s : State) (o : Nat) : Nat := cfgN s 0x0601 o 2 1 0
def convAddr (s : State) (o : Nat) : Nat := cfgN s 0x0601 o 3 1 o

/-- The DC outlets. -/
def dcOutlets (s : State) : List Outlet := outlets.filter (fun o => isDc s o.val)

/-! ### Native frames (R185 to R187) -/

/-- A field of a native frame: offset, bytes, signed. -/
structure NatField where
  off : Nat
  len : Nat
  sgn : Bool

/-- The fields of a native message by row number from 1, reserved rows left out (R190). -/
def nativeRows : Nat → List NatField
  | 0x00 => [⟨0, 2, false⟩, ⟨2, 1, false⟩, ⟨3, 1, false⟩]
  | 0x01 => [⟨0, 1, false⟩, ⟨2, 2, false⟩, ⟨4, 4, false⟩]
  | 0x02 => [⟨0, 1, false⟩, ⟨1, 1, false⟩, ⟨4, 4, false⟩, ⟨8, 4, true⟩, ⟨12, 4, true⟩]
  | 0x08 => [⟨0, 1, false⟩, ⟨1, 1, false⟩, ⟨2, 2, false⟩, ⟨4, 4, false⟩, ⟨8, 4, true⟩, ⟨12, 4, true⟩]
  | 0x09 => [⟨0, 2, true⟩, ⟨2, 2, true⟩, ⟨4, 4, false⟩, ⟨8, 4, true⟩, ⟨12, 4, true⟩]
  | _ => []

/-- The number in a field of native data. -/
def NatField.read (f : NatField) (data : List Byte) : Int :=
  if f.sgn then fieldI data f.off f.len else (fieldN data f.off f.len : Int)

/-! ### The converter map (R190) -/

/-- The map entries of a message, in order of their keys. -/
def mapEntries (s : State) (code : Nat) : List (List Byte) :=
  ((List.range 64).filterMap (fun k => (findRec s.cfg.recs 0x0604 k).map (fun r => r.body))).filter
    (fun b => fieldN b 1 1 / 16 == code)

/-- The native field of an entry. -/
def entryField (b : List Byte) : NatField :=
  (nativeRows (fieldN b 1 1 / 16)).getD (fieldN b 1 1 % 16 - 1) ⟨0, 0, false⟩

/-- Identifier of an entry: extended or not, and its value. -/
def entryId (b : List Byte) : Bool × Nat := (fieldN b 2 1 % 2 == 1, fieldN b 4 4)

/-- Foreign value of a native one; the result's rounding is open (log entry 6). -/
def toForeign (b : List Byte) (v : Int) : Int :=
  openRound ((v : Rat) * (fieldI b 12 4 : Rat) / 65536) + fieldI b 16 4

/-- Native value of a foreign one. -/
def toNative (b : List Byte) (v : Int) : Int :=
  openRound (((v - fieldI b 16 4 : Int) : Rat) * 65536 / (fieldI b 12 4 : Rat))

/-- The places of an entry's bits in the data, least significant first. Little-endian counts bits from bit 0 of byte 0;
big-endian from bit 7 of byte 0, the most significant bit first (log entry 19). -/
def entryBits (b : List Byte) : List (Nat × Nat) :=
  let n := fieldN b 3 1
  let start := fieldN b 8 2
  if fieldN b 2 1 / 2 % 2 = 0 then (List.range n).map (fun (i : Nat) => ((start + i) / 8, (start + i) % 8))
  else (List.range n).map (fun (i : Nat) => ((start + n - 1 - i) / 8, 7 - (start + n - 1 - i) % 8))

/-- Lengths of CAN FD data. -/
def canLengths : List Nat := [0, 1, 2, 3, 4, 5, 6, 7, 8, 12, 16, 20, 24, 32, 48, 64]

/-- Data of a mapped frame: each entry's foreign value in its bits. -/
def mappedData (entries : List (List Byte × Int)) : List Byte :=
  let places := entries.flatMap (fun e => (entryBits e.1).mapIdx (fun i p => (p, e.2.toNat.testBit i)))
  let top := places.foldl (fun n p => max n (p.1.1 + 1)) 0
  let len := (canLengths.find? (fun n => top ≤ n)).getD 64
  (List.range len).map (fun i =>
    byte (sumNat ((List.range 8).map (fun j =>
      if places.any (fun p => p.1 == (i, j) && p.2) then 2 ^ j else 0))))

/-- The foreign value as the bits of its field. -/
def foreignBits (b : List Byte) (v : Int) : Int := v % (2 ^ fieldN b 3 1 : Nat)

/-- The frames that carry a native message on a channel: native, or mapped where the map has an entry for it. -/
def nativeFrames (s : State) (channel code addr : Nat) (data : List Byte) (urgent : Bool) : List CanOut :=
  match mapEntries s code with
  | [] => [⟨channel, false, code * 16 + addr, data, urgent⟩]
  | es =>
    (es.map entryId).eraseDups.map (fun i =>
      ⟨channel, i.1, i.2, mappedData ((es.filter (fun b => entryId b == i)).map (fun b =>
        (b, foreignBits b (toForeign b ((entryField b).read data))))), urgent⟩)

/-- A frame is sent; while a trip frame waits to start, every other frame is queued behind it (R211). -/
def sendCan (f : CanOut) (s : State) : State :=
  if s.sess.tripWait.isSome && !f.urgent then { s with sess := { s.sess with canQueue := s.sess.canQueue ++ [f] } }
  else emit (.can f) s

/-- Send a native message. -/
def sendNative (channel code addr : Nat) (data : List Byte) (urgent : Bool) (s : State) : State :=
  (nativeFrames s channel code addr data urgent).foldl (fun t f => sendCan f t) s

/-! ### Sending -/

/-- Data of the setpoint frame. -/
def setpointData (seq : Byte) (p : Setpoint) : List Byte :=
  [byte p.mode, seq, 0, 0] ++ leBytes 4 p.voltage ++ leInt 4 p.current ++ leInt 4 p.power

/-- Send an outlet's setpoint frame to its converter. -/
def sendSetpoint (o : Outlet) (s : State) : State :=
  let x := sessOf s o
  sendNative (convChannel s o.val) 2 (convAddr s o.val) (setpointData x.setSeq x.setpoint) false s

/-- The outlet holds contactor permission (R203). -/
def holdsPermission (s : State) (o : Outlet) : Bool :=
  (sessOf s o).drive && (s.hedge.out.get o).permit && (s.hedge.scr.get o).permit

/-- The heartbeat's run mask on a channel; 0 from HOLD entry (R474). -/
def runMask (s : State) (channel : Nat) : Nat :=
  if s.power.state = .hold then 0
  else (dcOutlets s).foldl (fun m o =>
    if convChannel s o.val = channel ∧ holdsPermission s o = true then m ||| 2 ^ convAddr s o.val else m) 0

/-- The heartbeat goes out on both channels. -/
def sendHeartbeat (s : State) : State :=
  let frame (c : Nat) : List Byte := [s.sess.heartbeat, 0] ++ leBytes 2 (runMask s c) ++ wordBytes 4 s.sun.cycle
  let t := sendNative 1 1 0 (frame 1) false (sendNative 0 1 0 (frame 0) false s)
  { t with sess := { t.sess with heartbeat := t.sess.heartbeat + 1 } }

/-- A trip frame goes out on both channels ahead of every waiting frame, and those queued behind it follow (R186, R211). -/
def sendTripFrame (w : TripWait) (s : State) : State :=
  let data := leBytes 2 w.mask ++ [byte w.reason, w.counter] ++ zeros 4
  let t := sendNative 1 0 0 data true (sendNative 0 0 0 data true s)
  let t := { t with sess := { t.sess with tripWait := none, canQueue := [] } }
  s.sess.canQueue.foldl (fun u f => emit (.can f) u) t

/-! ### Receiving (R187, R190) -/

/-- The DC outlets whose converter sends this frame: native by channel and identifier, mapped by channel. -/
def frameOutlets (s : State) (code : Nat) (f : CanFrame) : List Outlet :=
  (dcOutlets s).filter (fun o => convChannel s o.val == f.channel.val &&
    (match mapEntries s code with
      | [] => !f.ext && f.id == code * 16 + convAddr s o.val && f.data.length == 16
      | es => es.any (fun b => entryId b == (f.ext, f.id))))

/-- The foreign number that an entry reads from data. -/
def readForeign (b : List Byte) (data : List Byte) : Int :=
  let v := sumNat ((entryBits b).mapIdx (fun i p => if (data.getD p.1 0).getLsbD p.2 then 2 ^ i else 0))
  if fieldN b 2 1 / 4 % 2 = 1 ∧ 2 ^ fieldN b 3 1 ≤ 2 * v then (v : Int) - (2 ^ fieldN b 3 1 : Nat) else v

/-- A row of a received frame: its value; `old` where another frame of the message carries it; `dflt` where the map has
no entry for it. -/
def readRow (s : State) (code row : Nat) (f : CanFrame) (old dflt : Int) : Int :=
  match mapEntries s code with
  | [] => ((nativeRows code).getD (row - 1) ⟨0, 0, false⟩).read f.data
  | es =>
    match es.find? (fun b => fieldN b 1 1 == code * 16 + row) with
    | none => dflt
    | some b => if entryId b = (f.ext, f.id) then toNative b (readForeign b f.data) else old

/-- Open threshold of an outlet, mA (R199). -/
def openThreshold (s : State) (o : Outlet) : Nat := cfgN s 0x0603 o.val 6 2 5000

/-- A free value for a row without an entry that the manual names no value for (log entry 19). -/
def openRow (s : State) (k : Nat) : Int := Config.freeInt (s.freeCount + k)

/-- What a status frame tells of a converter. OnI is that of the last committed window. -/
def readStatus (s : State) (o : Outlet) (f : CanFrame) : Converter :=
  let c := s.sess.conv.get o
  let loaded := (openThreshold s o : Int) < s.energy.values.outlets.getD (4 * o.val + 1) 0
  { c with
    state := (readRow s 8 1 f c.state (if loaded then 3 else 1)).toNat
    echo := (readRow s 8 2 f c.echo (openRow s 0)).toNat % 256
    fault := (readRow s 8 3 f c.fault 0).toNat
    voltage := (readRow s 8 4 f c.voltage (openRow s 1)).toNat
    current := readRow s 8 5 f c.current (openRow s 2)
    power := readRow s 8 6 f c.power (openRow s 3)
    lost := false }

/-- A temperature as received: 0x7FFF is not available. -/
def tempOf (v : Int) : Option Int := if v = 0x7FFF then none else some v

/-- Ratings of an outlet (R165): voltage 10 mV, current mA, power W. -/
def ratedVoltage (s : State) (o : Outlet) : Nat := cfgN s 0x0601 o.val 4 4 100000
def ratedCurrent (s : State) (o : Outlet) : Nat := cfgN s 0x0601 o.val 8 4 200000
def ratedPower (s : State) (o : Outlet) : Nat := cfgN s 0x0601 o.val 12 4 150000

/-- What a limits frame tells of a converter. -/
def readLimits (s : State) (o : Outlet) (f : CanFrame) : Converter :=
  let c := s.sess.conv.get o
  { c with
    coolant := tempOf (readRow s 9 1 f (c.coolant.getD 0x7FFF) 0x7FFF)
    temperature := tempOf (readRow s 9 2 f (c.temperature.getD 0x7FFF) 0x7FFF)
    maxVoltage := (readRow s 9 3 f c.maxVoltage (ratedVoltage s o)).toNat
    maxCurrent := readRow s 9 4 f c.maxCurrent (ratedCurrent s o)
    maxPower := readRow s 9 5 f c.maxPower (ratedPower s o) }

end Sys2Proof.Machine
end

