-- ==== Sys2Proof/Machine/Pilot.lean ====
section
/-! DEFINITION. Questions about a vehicle link that the session and the allocation share (R134, R139 to R141, R159, R172),
the control-pilot generator (R136, R138, R144), and the link's timers and connection (R153). -/

namespace Sys2Proof.Machine

/-! ### Records 0x0501 and 0x0502 (R159, R160) -/

/-- A byte of record 0x0501 of an outlet, or its default. -/
def linkField (s : State) (o : Outlet) (off dflt : Nat) : Nat := cfgN s 0x0501 o.val off 1 dflt

/-- Protocols that R134 allows for an outlet type. -/
def typeProtocols : Nat → Nat
  | 1 => 7
  | 2 => 4
  | 4 => 6
  | _ => 0

/-- The record 0x0504 in force, if any: the server chain (R162). -/
def serverChain (s : State) : Option Rec := s.cfg.recs.find? (fun r => r.type == 0x0504 && r.status == 0)

/-- No server chain was ignored without another in force, so TLS is available (R162). -/
def hasChain (s : State) : Bool := (serverChain s).isSome || !s.cfg.recs.any (fun r => r.type == 0x0504 && r.status != 0)

/-- Transmit power spectral density of an outlet's modem, dBm/Hz (R142, R160). -/
def transmitPsd (s : State) (o : Outlet) : Int := cfgI s 0x0502 o.val 2 1 (-75)

/-- PLCA is on (R145, R160). -/
def plcaOn (s : State) (o : Outlet) : Bool := cfgN s 0x0502 o.val 3 1 1 == 2

/-- The protocols enabled on an outlet. With an ignored server chain ISO 15118-20 is not available (R162). -/
def protocolMask (s : State) (o : Outlet) : Nat :=
  let allowed := typeProtocols (outletType s o.val)
  let m := linkField s o 1 allowed &&& allowed
  if hasChain s then m else m &&& 3

/-- The TLS setting under ISO 15118-2: 0 not offered, 1 offered, 2 required; not offered with an ignored server chain. -/
def tlsSetting (s : State) (o : Outlet) : Nat := if hasChain s then linkField s o 3 1 else 0

/-- The outlet signals its current by duty: type 3, and type 4 in PWM-only operation (R172). -/
def dutyOutlet (s : State) (o : Outlet) : Bool :=
  outletType s o.val = 3 || (outletType s o.val = 4 && (s.link.get o).pwmOnly)

/-- The pilot of an AC outlet carries a nominal duty, which follows the allocation (R139, R193): a duty outlet, and a type 4
outlet with AC start code 1. -/
def nominalDuty (s : State) (o : Outlet) : Bool :=
  dutyOutlet s o || (outletType s o.val = 4 && linkField s o 6 0 = 1)

/-! ### Cable, phases, duty (R139, R141, R191) -/

/-- Cable rating in A (R141). -/
def cableRating (s : State) (o : Outlet) : Nat :=
  if linkField s o 8 0 = 1 then linkField s o 9 32
  else if (s.link.get o).prox = 255 then 0 else (s.link.get o).prox

/-- Single-phase wiring (R85). -/
def singlePhase (s : State) : Bool := recN s.cfg.recs 0x0301 0 1 1 1 == 2

/-- The number n of phases the vehicle draws on (R191). -/
def phasesDrawn (s : State) (o : Outlet) : Nat :=
  if singlePhase s then 1 else (sessOf s o).phases.getD 3

/-- An allocation of an AC outlet as a current, mA, rounded down. -/
def acCurrentOf (s : State) (o : Outlet) (watts : Int) : Int :=
  watts * 100000 / ((phasesDrawn s o * nominalVolts s : Nat) : Int)

/-- The current limit I of R139, mA: the lowest of allocation, rating and cable rating. -/
def acCurrent (s : State) (o : Outlet) : Nat :=
  (min (acCurrentOf s o (sessOf s o).alloc) (min (ratedCurrent s o : Int) (cableRating s o * 1000 : Nat))).toNat

/-- The duty of a current in mA, 0.1 %; 0 stops the PWM (R139). -/
def dutyFor (i : Nat) : Nat :=
  if i < 6000 then 0 else if i < 53750 then min (i / 60) 850 else min (i / 250 + 640) 960

/-- The output for a duty: 0 is static +12 V. -/
def genOf (duty : Nat) : Generator := if duty = 0 then .static12 else .duty duty

/-! ### Fresh keys (R143) -/

/-- The message sets a fresh random network key in the modem of an outlet that has one. -/
def freshNmk (o : Outlet) (s : State) : State :=
  if outletType s o.val = 1 ∨ outletType s o.val = 4 then
    let k := Config.free128 s.freeCount
    draw (emit (.slac o (transmitPsd s o) (.setKey k)) (setLink o (fun l => { l with nmk := k }) s))
  else s

/-! ### The generator (R136, R138, R144) -/

/-- The duty of step 1 of R143: 5 %, or nominal duty with AC start code 1. -/
def matchDuty (s : State) (o : Outlet) (g : Generator) : Bool :=
  let t := outletType s o.val
  match g with
  | .duty d => (t = 1 || t = 4) && (d == 50 || (t == 4 && linkField s o 6 0 == 1 && decide (80 ≤ d)))
  | _ => false

/-- No run, with a number of retries left. -/
def noRun (retries : Nat) : Matching := { Matching.init with retries := retries }

/-- The run of an outlet ends without a failure. -/
def endRun (l : Link) : Link := { l with matching := noRun l.matching.retries, link := if l.link = 1 then 0 else l.link }

/-- The generator's output changes: matching starts at the duty of step 1 and ends away from it; at 0 V nothing is
recognised, and Hedge's comparators see 0 V. -/
def applyGen (o : Outlet) (g : Generator) (s : State) : State :=
  let s := if g = .zero then setHedge o (fun h => { h with high := 0, low := 0 }) s else s
  let l := s.link.get o
  let l := { l with gen := g, next := none, pilot := if g = .zero then none else l.pilot }
  let start := matchDuty s o g && l.link != 2 && !l.pwmOnly && !l.test
  let l := if start then (if l.matching.step = 0 then { l with matching := { l.matching with step := 1 } } else l)
    else if l.matching.step ≠ 0 ∧ matchDuty s o g = false ∧ l.link ≠ 2 then endRun l
    else l
  setLink o (fun _ => l) s

/-- VLn changes the generator with the next PWM period; of two changes in one period the later one stands (R138). -/
def queueGen (o : Outlet) (g : Generator) (s : State) : State := setLink o (fun l => { l with next := some g }) s

/-- A PWM period of an outlet begins. -/
def startPeriod (o : Outlet) (s : State) : State := (s.link.get o).next.elim s (fun g => applyGen o g s)

/-- Every generator begins a period (log entry 68). -/
def startPeriods (s : State) : State := forOutlets startPeriod s

/-- The domain, or the standing reply, commands the generator. The command waits while state F of a retry, a pilot test or
HOLD holds the output. -/
def commandGen (o : Outlet) (g : Generator) (s : State) : State :=
  let g := if outletType s o.val = 0 then .zero else g
  let t := setLink o (fun l => { l with commanded := g }) s
  let l := t.link.get o
  if l.matching.inRetry || l.test || s.power.state = .hold then t else queueGen o g t

/-! ### Connection and timers (R153) -/

/-- Every timer of R153 stops, and the connection is gone. -/
def dropConnection (l : Link) : Link :=
  { l with tcpOpen := false, tls := 0, protocol := none, timers := .init, held := none, heldLate := false }

/-- VLn closes its TCP connection, if it has one. -/
def closeTcp (o : Outlet) (s : State) : State :=
  let t := if (s.link.get o).tcpOpen then emit (.tcpClosed o) s else s
  setLink o dropConnection t

/-- What the end of a session does to its link: a fresh key, no connection, no matching (R143, R169). -/
def endLink (o : Outlet) (s : State) : State :=
  let t := closeTcp o (freshNmk o s)
  let retry := (t.link.get o).matching.inRetry
  let t := setLink o (fun l => { l with
    link := 0, matching := .init, security := 0, tcpPort := 0, t1sMac := none }) t
  if retry && s.power.state != .hold then queueGen o (t.link.get o).commanded t else t

/-- What the start of a session does to its link: a fresh key; a type 2 outlet with PLCA on is the coordinator, node 0 of 2
(R145). -/
def beginLink (o : Outlet) (s : State) : State :=
  let t := if outletType s o.val = 2 ∧ plcaOn s o then emit (.plca o 0 2) s else s
  setLink o (fun l => { l with
    matching := noRun (linkField s o 7 2), matchFail := false, certUnchecked := false, pwmOnly := false
    protocol := none, tls := 0, link := 0, t1sMac := none }) (freshNmk o t)

end Sys2Proof.Machine
end

