-- ==== Sys2Proof/Machine/Allocation.lean ====
section
/-! DEFINITION. Power allocation within a stack (R191 to R197): demands, budget, the fill, the phase check, and taking an
allocation. The commands are in Charging.lean. -/

namespace Sys2Proof.Machine

/-! ### Demands (R191, R373) -/

/-- A power of 10 mV × mA, in W. -/
def watts (v i : Int) : Int := openRound ((v * i : Int) / 100000 : Rat)

/-- The caps of a DC outlet's demand: vehicle, rating, converter. -/
def dcCap (s : State) (o : Outlet) : Int :=
  let x := sessOf s o
  let c := s.sess.conv.get o
  let available := if c.lost then 0 else c.power
  let own := min (ratedPower s o : Int) available
  if x.ev.maxPower = 0 then (if x.ev = evZero then 0 else own) else min (x.ev.maxPower : Int) own

/-- The demand of a DC outlet, W. -/
def dcDemand (s : State) (o : Outlet) : Int :=
  let x := sessOf s o
  if x.state = .s6 then min (watts x.ev.targetVoltage x.ev.targetCurrent) (dcCap s o) else dcCap s o

/-- The demand of an AC outlet, W. -/
def acDemand (s : State) (o : Outlet) : Int :=
  let x := sessOf s o
  let own := min (cableRating s o * 1000) (ratedCurrent s o)
  let i := if x.ev.maxCurrent = 0 ∨ dutyOutlet s o = true then own else min own x.ev.maxCurrent
  watts (i : Int) ((phasesDrawn s o * nominalVolts s : Nat) : Int)

/-- The demand of an outlet in S3 to S6; 0 otherwise. A BPT session with a target draws no more than it. -/
def outletDemand (s : State) (o : Outlet) : Int :=
  let x := sessOf s o
  if 3 ≤ x.state.code ∧ x.state.code ≤ 6 then
    let d := max 0 (if isDc s o.val then dcDemand s o else if isAc s o.val then acDemand s o else 0)
    match x.target with
    | some t => if x.bpt then min d (max 0 t) else d
    | none => d
  else 0

/-- The demand entry of an outlet (R373). -/
def demandEntry (s : State) (o : Outlet) : Demand :=
  let x := sessOf s o
  { slot := s.power.straps.val, outlet := o.val, state := x.state.code, type := outletType s o.val
    weight := cfgN s 0x0601 o.val 16 1 1, demand := outletDemand s o
    order := if x.state = .s6 then x.s6Cycle else x.s2Cycle
    rotation := cfgN s 0x0402 o.val 1 1 0, phases := phasesDrawn s o, bpt := x.bpt, target := x.target.getD 0 }

/-- The own demand entries. -/
def ownDemands (s : State) : List Demand := outlets.map (demandEntry s)

/-- The demands of the whole stack: the own ones and those reported by other slots. -/
def stackDemands (s : State) : List Demand :=
  ownDemands s ++ s.trellis.demands.filter (fun d => d.slot != s.power.straps.val)

/-! ### Budget and limits (R195, R409) -/

/-- The stack limit of record 0x0602. -/
def stackLimit (s : State) : Int := cfgN s 0x0602 0 0 4 150000

/-- The module follows a master: it is a member or the spare. -/
def follows (s : State) : Bool := s.trellis.role = 1 || s.trellis.role = 2

/-- The site budget as it stands, and its age in ms. A member has it from the latest master state message (R372), unless the
sync frames show the stack limit alone in force (log entry 34); a master has the one it adopted until it receives its own. -/
def siteBudgetOf (s : State) : Option (Int × Nat) :=
  if follows s then
    if s.trellis.budget = stackLimit s then none else s.trellis.siteState.map (fun x => (x.1, 1000 * x.2.1))
  else match s.trellis.adopted with
    | some (b, since) => some (b, s.clockMs - since)
    | none => s.sess.siteBudget.map (fun b => (b, s.clockMs - s.sess.siteAt))

/-- The site budget has not been renewed for 60 s (R195): one that the module received itself is timed by its own command. -/
def siteOld (s : State) (age : Nat) : Bool :=
  if follows s || s.trellis.adopted.isSome then decide (60000 ≤ age) else s.sess.siteStale

/-- The budget in force of the stack, W. -/
def budgetInForce (s : State) : Int :=
  match siteBudgetOf s with
  | some (b, age) => min (stackLimit s) (if siteOld s age then cfgN s 0x0602 0 4 4 0 else b)
  | none => stackLimit s

/-- Phase limits in mA. -/
def phaseLimit (s : State) (x : Nat) : Rat :=
  let own : Nat := cfgN s 0x0602 0 (8 + 4 * x) 4 250000
  match s.wadi.caps[x]? with
  | some c => (min own (c * 1000) : Nat)
  | none => own

/-! ### The fill (R192) -/

/-- An outlet with its allocation. -/
structure Fill where
  who   : Demand
  watts : Int
  deriving DecidableEq, Repr

/-- The demand entry is of an AC or of a DC outlet. -/
def acEntry (d : Demand) : Bool := d.type = 3 || d.type = 4
def dcEntry (d : Demand) : Bool := d.type = 1 || d.type = 2

/-- The entry belongs to an outlet that discharges: it shares the export limit (R197). -/
def discharges (d : Demand) : Bool := d.bpt && d.target < 0

/-- An AC outlet's allocation is below its 6 A minimum. -/
def belowMin (s : State) (d : Demand) (w : Int) : Bool := acEntry d && decide (100 * w < 6 * (d.phases : Int) * nominalVolts s)

/-- The entry that leaves the fill first: one that is not yet in S6 before one that is, the latest of them. -/
def lastIn (l : List Demand) : Option Demand :=
  let pool := if l.all (fun d => d.state == 6) then l else l.filter (fun d => d.state != 6)
  pool.foldl (fun best d => match best with
    | none => some d
    | some b => if later d.order b.order then some d else some b) none

/-- The loop of R192; the first argument bounds its rounds. -/
def fillLoop (s : State) (budget : Int) : Nat → List Demand → List Fill
  | 0, _ => []
  | n + 1, pool =>
    let a := (pool.zip (waterFill (pool.map (fun d => (d.demand, max 1 d.weight))) budget)).map (fun x => Fill.mk x.1 x.2)
    match lastIn ((a.filter (fun x => belowMin s x.who x.watts)).map (fun x => x.who)) with
    | none => a
    | some d => fillLoop s budget n (pool.filter (fun x => x != d))

/-! ### The phase check (R194) -/

/-- The grid phases that an entry draws on. -/
def entryPhases (d : Demand) : List Nat := (List.range d.phases).map (fun own => gridPhase d.rotation own)

/-- The current of an AC entry, mA. -/
def fillCurrent (s : State) (x : Fill) : Rat := (x.watts : Rat) * 100000 / ((max 1 x.who.phases * nominalVolts s : Nat) : Rat)

/-- The check on one phase. -/
def checkPhase (s : State) (l : List Fill) (x : Nat) : List Fill :=
  let limit := phaseLimit s x
  let dc := dcPhaseCurrent (nominalVolts s) (sumRat ((l.filter (fun f => dcEntry f.who)).map (fun f => (f.watts : Rat))))
  let on (f : Fill) : Bool := acEntry f.who && decide (x ∈ entryPhases f.who)
  let ac := sumRat ((l.filter on).map (fillCurrent s))
  if dc + ac ≤ limit then l
  else
    let k := acFactor limit dc ac
    l.map (fun f =>
      if on f then
        let w := ((f.watts : Rat) * k).floor
        { f with watts := if belowMin s f.who w then 0 else w }
      else if dcEntry f.who ∧ limit < dc then { f with watts := ((f.watts : Rat) * limit / dc).floor }
      else f)

/-- Allocations of the stack: the fill from the budget less the held reductions, the discharging outlets from the export
limit, the phase check. -/
def allocateStack (s : State) : List Fill :=
  let ds := (stackDemands s).filter (fun d => 3 ≤ d.state && d.state ≤ 6)
  let budget := budgetInForce s - sumInt (s.trellis.reductions.map (fun r => r.2.2))
  let pool := ds.filter (fun d => 0 < d.demand && !discharges d)
  let out := ds.filter discharges
  let shares := waterFill (out.map (fun d => (-d.target, max 1 d.weight))) (cfgN s 0x0602 0 24 4 0)
  [0, 1, 2].foldl (checkPhase s)
    (fillLoop s budget (pool.length + 1) pool ++ (out.zip shares).map (fun x => Fill.mk x.1 (-x.2)))

/-- The allocation of an outlet among those of the stack; 0 for one that takes no part. -/
def shareOf (l : List Fill) (slot o : Nat) : Int :=
  (l.find? (fun f => f.who.slot == slot && f.who.outlet == o)).elim 0 (fun f => f.watts)

/-! ### Taking allocations (R191, R195) -/

/-- Allocations for the next cycle have come. -/
def setNextAlloc (w : List Int) (s : State) : State :=
  forOutlets (fun o t => setSess o (fun x => { x with nextAlloc := some (w.getD o.val 0) }) t)
    { s with sess := { s.sess with noAlloc := 0 } }

end Sys2Proof.Machine
end

