-- ==== Sys2Proof/Machine/Channels.lean ====
section
/-! DEFINITION. The protected switch channels' controller (R243 to R258): uses and thresholds, what lets a channel
conduct, latches, and the thresholds that a configuration image brings. -/

namespace Sys2Proof.Machine

/-! ### State -/

/-- Change the switch controller. -/
def setSw (f : Switches → Switches) (s : State) : State := { s with sw := f s.sw }

/-- A channel. -/
def chanSw (s : State) (i : Nat) : Switch := s.sw.chans.getD i .init

/-- Change a channel. -/
def setChanSw (i : Nat) (f : Switch → Switch) (s : State) : State :=
  setSw (fun w => { w with chans := modifyAt w.chans i f }) s

/-- The defaults of record 0x0801 for a channel (R256). -/
def defaultSetup (i : Nat) : List Byte :=
  [byte i, byte (if i < 8 then 1 else 0), 0, 0] ++ leBytes 2 4000 ++ leBytes 2 8000 ++ [50, 0] ++ leBytes 2 0 ++
    [0, 60, 0, 0]

/-- The setup of a channel in a list of records. -/
def setupIn (recs : List Rec) (i : Nat) : List Byte :=
  match findRec recs 0x0801 i with
  | some r => r.body
  | none => defaultSetup i

/-- A field of the setup in force of a channel: the defaults before a configuration has been read. -/
def chanField (s : State) (i off n : Nat) : Nat :=
  fieldN (if (chanSw s i).setup = [] then defaultSetup i else (chanSw s i).setup) off n

/-- Use of a channel (R244): 0 unused, 1 contactor, 2 host load, 3 outlet load. -/
def chanUse (s : State) (i : Nat) : Nat := chanField s i 1 1

/-- The channel is safety-related (R256). -/
def safetyRelated (s : State) (i : Nat) : Bool := decide (i < 8) || chanField s i 2 1 == 1

/-- The group of a channel (R243). -/
def groupOf (i : Nat) : Nat := i / 4

/-- The outlet of a contactor channel (R203). -/
def contactorOutlet (i : Nat) : Outlet := if i < 2 then 0 else if i < 4 then 1 else if i < 6 then 2 else 3

/-! ### Whether a channel conducts (R203, R244, R245, R250, R254) -/

/-- A latch of R250 stands. -/
def Switch.latched (x : Switch) : Bool := x.short || x.overcur || x.thermalLatch || x.shed

/-- A module-scope trip of Hedge is latched (R209). -/
def moduleTrip (s : State) : Bool :=
  s.hedge.estop || s.hedge.wiring || s.hedge.safeFault || s.hedge.group || s.hedge.fault

/-- Hedge holds a channel off: its series switch is open, or it forces a safety-related general channel off. -/
def hedgeOff (s : State) (i : Nat) : Bool :=
  if i < 8 then !(s.hedge.out.get (contactorOutlet i)).closed else safetyRelated s i && moduleTrip s

/-- Scarecrow gates a contactor channel off. -/
def scrOff (s : State) (i : Nat) : Bool := decide (i < 8) && !(s.hedge.scr.get (contactorOutlet i)).permit

/-- The second contactor channel of an AC outlet with a contactor count of 1 stays off (R203). -/
def spareContactor (s : State) (i : Nat) : Bool :=
  decide (i < 8) && i % 2 == 1 && isAc s (contactorOutlet i).val && cfgN s 0x0702 (contactorOutlet i).val 1 1 2 == 1

/-- The channel's own state lets it conduct. -/
def chanAble (s : State) (i : Nat) : Bool :=
  let x := chanSw s i
  !spareContactor s i && x.commanded && !x.latched && !x.thermal && !x.undervoltage && !x.needsCycle && chanUse s i != 0

/-- The channel conducts. -/
def conducts (s : State) (i : Nat) : Bool := chanAble s i && !hedgeOff s i && !scrOff s i

/-- Bring one channel's output to what its conditions say; switching on opens the inrush window (R248). -/
def driveChannel (s : State) (i : Nat) (x : Switch) : Switch :=
  if conducts s i then
    if x.on then x
    else { x with on := true, inrush := chanField s i 8 1 != 0, overCount := 0, inrushEnd := s.clockMs }
  else { x with on := false, inrush := false, overCount := 0 }

/-- Bring every channel's output to what its conditions say. -/
def driveChannels (s : State) : State :=
  setSw (fun w => { w with chans := w.chans.mapIdx (fun i x => driveChannel s i x) }) s

/-! ### Commands (R244, R250, R254, R255) -/

/-- A commanded state is written. A request made again clears the latches; one withdrawn brings the thresholds that
waited for it. -/
def commandChannel (i : Nat) (on : Bool) (s : State) : State :=
  if chanUse s i = 0 ∨ (chanSw s i).commanded = on then s
  else
    let low := s.sw.released.getD (groupOf i) false
    journal 5 i (flag on) (setChanSw i (fun x =>
      if on then
        { x with commanded := true, short := false, overcur := false, thermalLatch := false, shed := false, restarts := 0
                 onSince := none }
      else
        { x with commanded := false, needsCycle := false, undervoltage := x.undervoltage && low
                 setup := x.nextSetup.getD x.setup, nextSetup := none }) s)

/-- The contactor channels that an outlet drives: one on an AC outlet with a single contactor (R203). -/
def contactorChannels (s : State) (o : Outlet) : List Nat :=
  if isAc s o.val && cfgN s 0x0702 o.val 1 1 2 == 1 then [2 * o.val] else [2 * o.val, 2 * o.val + 1]

/-- The drive request of an outlet changes: its contactor channels are commanded (R203). -/
def commandContactors (o : Outlet) (on : Bool) (s : State) : State :=
  (if on then contactorChannels s o else [2 * o.val, 2 * o.val + 1]).foldl (fun t i => commandChannel i on t) s

/-- The outlet of an outlet load. -/
def loadOutlet (s : State) (i : Nat) : Outlet := Fin.ofNat 4 (chanField s i 12 1)

/-- An outlet load is on while its outlet is in S1 to S9 (R244). -/
def loadWanted (x : SState) : Bool := x ≠ .s0 && x ≠ .se

/-- The active domain follows the outlets with their loads. -/
def followLoads (s : State) : State :=
  (List.range 16).foldl (fun t i =>
    if chanUse t i = 3 then commandChannel i (loadWanted (sessOf t (loadOutlet t i)).state) t else t) s

/-! ### Latches (R247 to R253, R261) -/

/-- Kinds of latch, by the cause code of entry 0x0801. -/
def Switch.latch (cause : Nat) (x : Switch) : Switch :=
  match cause with
  | 1 => { x with short := true }
  | 2 => { x with overcur := true }
  | 3 => { x with thermalLatch := true, thermal := false }
  | _ => { x with shed := true }

/-- A channel latches off, with its last normal-path sample and its temperature difference as the entry shows them. -/
def latchChannel (i cause : Nat) (sample dT : List Byte) (s : State) : State :=
  let inrush := (chanSw s i).inrush
  log 0 0x08 0x0801 ([byte i, byte cause, byte (flag inrush), 0] ++ sample ++ dT ++ zeros 7) false
    (setChanSw i (fun x => { x.latch cause with on := false, inrush := false, overCount := 0 }) s)

/-! ### Reading a configuration (R255) -/

/-- After a start without warm state: every channel off, thresholds and uses as read, host loads with start state 1 on. -/
def startChannels (s : State) : State :=
  setSw (fun _ => { Switches.init with
    chans := (List.range 16).map (fun i =>
      let x := setupIn s.cfg.recs i
      { Switch.init with setup := x, commanded := fieldN x 1 1 == 2 && fieldN x 3 1 == 1 }) }) s

/-- After a warm reset: states and latches held; a contactor channel with drive on keeps its thresholds until it is off;
a general channel whose use changes to 0 switches off. -/
def reloadChannels (s : State) : State :=
  setSw (fun w => { w with
    chans := w.chans.mapIdx (fun i x =>
      let new := setupIn s.cfg.recs i
      if i < 8 ∧ x.commanded = true then { x with nextSetup := some new }
      else { x with setup := new, nextSetup := none, commanded := x.commanded && fieldN new 1 1 != 0 }) }) s

end Sys2Proof.Machine
end

