-- ==== Sys2Proof/Machine/Hedge.lean ====
section
/-! DEFINITION. Hedge's core (R203 to R212, R224, R229 to R233): the safety parameter block, confirmation, permits, trips
and their resets. The session's answer to a trip is in Session.lean. -/

namespace Sys2Proof.Machine

/-- Change Hedge's module state. -/
def setHedgeM (f : Hedge → Hedge) (s : State) : State := { s with hedge := f s.hedge }

/-! ### The safety parameter block (R229) -/

/-- A record's payload in force, or its defaults. -/
def payloadOf (s : State) (type key : Nat) (dflt : List Byte) : List Byte :=
  match findRec s.cfg.recs type key with
  | some r => r.body
  | none => dflt

/-- Defaults of records 0x0701 to 0x0704 (R235 to R238). The overcurrent default is 110 % of the rated current. -/
def default0701 : List Byte := [1, 0, 2, 0x1B] ++ leBytes 2 100 ++ [50, 1] ++ zeros 4
def default0702 (s : State) (o : Outlet) : List Byte :=
  [byte o.val, 2, 2, 5] ++ leInt 4 (openRound ((ratedCurrent s o : Rat) * 110 / 100)) ++ leBytes 2 500 ++ leBytes 2 100 ++
    leBytes 2 24 ++ leBytes 2 20 ++ leBytes 2 200 ++ leBytes 2 10000
def default0703 (o : Outlet) : List Byte :=
  [byte o.val, 3] ++ leBytes 2 20 ++ leBytes 2 1000 ++ leBytes 2 5000 ++ leBytes 2 500 ++ [2, 50] ++ leBytes 2 500 ++
    leBytes 2 800 ++ zeros 4
def default0704 : List Byte := zeros 4 ++ [2, 0, 0, 0] ++ leBytes 4 0xEF534701 ++ zeros 4

/-- An entry of the block. -/
def blockEntry (type key : Nat) (payload : List Byte) : List Byte :=
  leBytes 2 type ++ [byte key, byte payload.length] ++ payload

/-- The safety parameter block of the configuration in force. -/
def safetyBlock (s : State) : List Byte :=
  [1, 0] ++ leBytes 2 14 ++ leBytes 4 300 ++
    outlets.flatMap (fun o => blockEntry 0x0700 o.val ([byte o.val, byte (outletType s o.val), 0, 0] ++
      leBytes 4 (ratedVoltage s o) ++ leBytes 4 (ratedCurrent s o))) ++
    blockEntry 0x0701 0xFF (payloadOf s 0x0701 0 default0701) ++
    outlets.flatMap (fun o => blockEntry 0x0702 o.val (payloadOf s 0x0702 o.val (default0702 s o))) ++
    outlets.flatMap (fun o => blockEntry 0x0703 o.val (payloadOf s 0x0703 o.val (default0703 o))) ++
    blockEntry 0x0704 0xFF (payloadOf s 0x0704 0 default0704)

/-- A field of the block in Hedge's store; 0 before a block is loaded. -/
def blockN (s : State) (off n : Nat) : Nat := s.hedge.block.elim 0 (fun b => fieldN b off n)

/-- Fields of the block by their record: outlet entry, 0x0701, 0x0702, 0x0703, 0x0704. -/
def blockOutlet (s : State) (o : Outlet) (off n : Nat) : Nat := blockN s (12 + 16 * o.val + off) n
def block0701 (s : State) (off n : Nat) : Nat := blockN s (76 + off) n
def block0702 (s : State) (o : Outlet) (off n : Nat) : Nat := blockN s (92 + 24 * o.val + off) n
def block0703 (s : State) (o : Outlet) (off n : Nat) : Nat := blockN s (188 + 24 * o.val + off) n
def block0704 (s : State) (off n : Nat) : Nat := blockN s (284 + off) n

/-- The outlet's type as Hedge holds it. -/
def hedgeType (s : State) (o : Outlet) : Nat := blockOutlet s o 1 1
def hedgeDc (s : State) (o : Outlet) : Bool := hedgeType s o = 1 || hedgeType s o = 2
def hedgeAc (s : State) (o : Outlet) : Bool := hedgeType s o = 3 || hedgeType s o = 4

/-- The check value in force (R230): CRC-32C of the block that Hedge holds. -/
def checkValue (s : State) : Nat := s.hedge.block.elim 0 (fun b => (crc32c b).toNat)

/-! ### State, permits, SAFE_OK (R207, R208, R224, R239) -/

/-- Hedge is powered and its parameters are loaded. -/
def hedgeLive (s : State) : Bool := up s && s.hedge.block.isSome

/-- Hedge's state code: 0 normal, 1 module trip, 2 Hedge fault, 3 block mismatch. -/
def hedgeStateCode (s : State) : Nat :=
  if s.hedge.fault then 2 else if s.hedge.mismatch then 3 else if moduleTrip s then 1 else 0

/-- An input channel of the outlet carries STUCK (R75). -/
def outletStuck (s : State) (o : Outlet) : Bool := (List.range 4).any (fun i => (chanState s (4 * o.val + i)).stuck)

/-- VLn has recognised pilot state B, C or D. -/
def pilotBcd (s : State) (o : Outlet) : Bool :=
  match (s.link.get o).pilot with
  | some .b => true
  | some .c => true
  | some .d => true
  | _ => false

/-- Hedge's own comparators take in the plateaus of the pilot (R218). -/
def seePilot (o : Outlet) (high low : Int) (s : State) : State := setHedge o (fun h => { h with high := high, low := low }) s

/-- The pilot counts as lost by Hedge's comparators: a high plateau at or above 10.5 V or at or below 1.5 V, or while PWM runs
a low plateau above −10.5 V. -/
def hedgeLoss (s : State) (o : Outlet) : Bool :=
  let h := s.hedge.out.get o
  let pwm := match (s.link.get o).gen with
    | .duty _ => true
    | .static12 => false
    | .zero => false
    | .stateF => false
  decide (10500 ≤ h.high) || decide (h.high ≤ 1500) || (pwm && decide (-10500 < h.low))

/-- Hedge's comparators see pilot state B, C or D: the pilot is not lost. -/
def hedgeBcd (s : State) (o : Outlet) : Bool := !hedgeLoss s o

/-- Hedge's comparators see state A. -/
def hedgeA (s : State) (o : Outlet) : Bool := decide (10500 ≤ (s.hedge.out.get o).high)

/-- Hedge's comparators see state B: below the level of loss and above state C. The threshold to C is open (log entry 42). -/
def hedgeB (s : State) (o : Outlet) : Bool :=
  let v := (s.hedge.out.get o).high
  hedgeBcd s o && (decide (8000 ≤ v) || (decide (7000 < v) && Config.hedgeSeesB v))

/-- The life-cycle state lets Hedge grant permits: not BLANK, not RETIRED. -/
def lifeAllows (s : State) : Bool := s.cis.lifecycle ≠ 0 && s.cis.lifecycle ≠ 4

/-- What holds while Hedge's permit is granted (R207, R467). -/
def hedgeAllows (s : State) (o : Outlet) : Bool :=
  hedgeLive s && hedgeType s o != 0 && s.hedge.confirmed && (s.hedge.out.get o).latched == 0 && !moduleTrip s &&
    hedgeStateCode s == 0 && !outletStuck s o && hedgeBcd s o && lifeAllows s && s.rake.permitOk

/-- A threshold code of the protection path (R74). -/
def protCode (value fs : Nat) : Nat := value * 5461 / fs

/-- What the first grant after a request needs as well (R207): OnL as the protection path last had it, against the code of
60 V; the residual DC reading. -/
def hedgeFirst (s : State) (o : Outlet) : Bool :=
  if hedgeDc s o then
    decide ((chanState s (4 * o.val + 2)).prot.natAbs ≤ protCode 6000 (fullScale s (4 * o.val + 2)))
  else decide ((s.hedge.out.get o).residualDc.natAbs ≤ 3000)

/-- Hedge's permit and series switches follow their conditions; pilot A clears bits 3 and 4 (R209). -/
def hedgePermit (o : Outlet) (s : State) : State :=
  let s := if hedgeA s o then
      setHedge o (fun h => { h with latched := h.latched &&& 0x67, causes := h.causes &&& 0x67 }) s
    else s
  let drive := (sessOf s o).drive
  let h := s.hedge.out.get o
  let permit := drive && hedgeAllows s o && (h.granted || hedgeFirst s o)
  setHedge o (fun x => { x with
    permit := permit, granted := drive && (x.granted || permit), closed := permit || (x.closed && x.delaying)
    weldRun := x.weldRun && !drive }) s

/-- What holds while Scarecrow's permit is granted (R208). -/
def scrAllows (s : State) (o : Outlet) : Bool :=
  let x := (sessOf s o).state
  let c := s.hedge.scr.get o
  (if isDc s o.val then x = .s4 || x = .s5 || x = .s6 || x = .s7 else x = .s6 || x = .s7) && !c.cut && !c.lapsed

/-- Scarecrow's permit follows its conditions; the first grant after a request needs setpoint mode 0. -/
def scrPermit (o : Outlet) (s : State) : State :=
  let x := sessOf s o
  let c := s.hedge.scr.get o
  let permit := x.drive && scrAllows s o && (c.granted || x.inForce.mode == 0)
  setScr o (fun y => { y with permit := permit, granted := x.drive && (y.granted || permit) }) s

/-- A trip named in the SAFE_OK mask is latched (R235). -/
def maskedTrip (s : State) : Bool :=
  let mask := block0701 s 3 1
  let any (bit : Nat) : Bool := outlets.any (fun o => (s.hedge.out.get o).latched.getLsbD bit)
  (mask.testBit 0 && (s.hedge.estop || s.hedge.wiring)) || (mask.testBit 1 && any 5) || (mask.testBit 2 && any 3) ||
    (mask.testBit 3 && s.hedge.safeFault) || (mask.testBit 4 && s.hedge.group)

/-- SAFE_OK follows its conditions. -/
def driveSafeOk (s : State) : State :=
  setHedgeM (fun h => { h with
    safeOk := hedgeLive s && s.hedge.confirmed && hedgeStateCode s == 0 && !maskedTrip s }) s

/-- Drive is on: the request stands and both gates let it through; a trip's delay keeps it on (R209). -/
def driveOn (s : State) (o : Outlet) : Bool :=
  (sessOf s o).drive && (s.hedge.out.get o).closed && (s.hedge.scr.get o).permit

/-- Stream causes follow the channels' STUCK; an overcurrent's cause is gone once the contactors are open. -/
def hedgeCauses (o : Outlet) (s : State) : State :=
  setHedge o (fun h =>
    let a := if h.latched.getLsbD 6 && outletStuck s o then withBit h.causes 6 else withoutBit h.causes 6
    { h with causes := if h.closed then a else withoutBit a 0 }) s

/-- Everything that Hedge and Scarecrow hold by level, and the channels' outputs. -/
def refreshSafety (s : State) : State :=
  driveSafeOk (driveChannels (forOutlets (fun o t => hedgeCauses o (scrPermit o (hedgePermit o t))) s))

/-! ### Trips (R209 to R212, R240) -/

/-- A trip frame is requested from HST; it joins one that waits, and every queued frame is withdrawn (R211). -/
def requestTrip (mask reason : Nat) (s : State) : State :=
  let s := { s with sess := { s.sess with canQueue := [] } }
  match s.sess.tripWait with
  | some w =>
    { s with sess := { s.sess with
        tripWait := some { w with mask := w.mask ||| mask, reason := if reason = 1 then 1 else w.reason } } }
  | none =>
    { s with sess := { s.sess with tripWait := some ⟨mask, reason, s.sess.tripCount⟩, tripCount := s.sess.tripCount + 1 } }

/-- The converter addresses of a list of outlets as a mask. -/
def addressMask (s : State) (l : List Outlet) : Nat :=
  l.foldl (fun m o => if isDc s o.val then m ||| 2 ^ convAddr s o.val else m) 0

/-- Entry 0x0701. `bit` and `value` are open where the manual gives a trip none, the counter where it sends no frame. -/
def logTrip (outlet : Nat) (bit value : List Byte) (mask : Option Nat) (s : State) : State :=
  draw (log 8 0x07 0x0701 ([byte outlet] ++ bit ++ [0, 0] ++ value ++ leBytes 2 (mask.getD 0) ++
    (if mask.isSome then [s.sess.tripWait.elim 0 (fun w => w.counter)] else openField 1 s) ++ zeros 5) false s)

/-- An affected outlet loses its permit; its switches open after the contactor delay. -/
def tripSwitches (weld : Bool) (o : Outlet) (s : State) : State :=
  let delay := block0701 s 2 1
  setHedge o (fun h => { h with
    permit := false, newTrip := true, newWeld := weld, delaying := h.closed && delay != 0, closed := h.closed && delay != 0 }) s

/-- An outlet-scope trip: bit, trip frame reason if it has one, and value. -/
def tripOutlet (o : Outlet) (bit : Nat) (reason : Option Nat) (value : List Byte) (s : State) : State :=
  let h := s.hedge.out.get o
  let mark (t : State) : State :=
    setHedge o (fun x => { x with latched := withBit x.latched bit, causes := withBit x.causes bit }) t
  if h.latched.getLsbD bit then mark s
  else
    let mask : Option Nat := if driveOn s o then reason.map (fun _ => addressMask s [o]) else none
    let t := match mask, reason with
      | some m, some r => requestTrip m r s
      | _, _ => s
    logTrip o.val [byte bit] value mask (tripSwitches (bit == 5) o (mark t))

/-- Module-scope trips. -/
inductive ModuleTrip where
  | estop | wiring | safeFault | group | fault
  deriving DecidableEq, Repr

/-- The latch of a module-scope trip. -/
def tripLatch (k : ModuleTrip) (h : Hedge) : Bool :=
  match k with
  | .estop => h.estop
  | .wiring => h.wiring
  | .safeFault => h.safeFault
  | .group => h.group
  | .fault => h.fault

/-- Set or clear the latch of a module-scope trip. -/
def setLatch (k : ModuleTrip) (v : Bool) (h : Hedge) : Hedge :=
  match k with
  | .estop => { h with estop := v }
  | .wiring => { h with wiring := v, bothOpened := false }
  | .safeFault => { h with safeFault := v }
  | .group => { h with group := v, groupGone := false }
  | .fault => { h with fault := v }

/-- A module-scope trip: it affects every outlet and always asks for a trip frame (R212). -/
def tripModule (k : ModuleTrip) (s : State) : State :=
  if tripLatch k s.hedge then s
  else
    let mask := addressMask s outlets
    let t := requestTrip mask 2 (setHedgeM (setLatch k true) s)
    logTrip 0xFF (openField 1 t) (openField 4 t) (some mask) (forOutlets (tripSwitches false) t)

/-! ### Resets of trips (R209, R212) -/

/-- Entry 0x0705. -/
def logReset (origin outlet cleared remaining : Nat) (s : State) : State :=
  log origin 0x07 0x0705 ([byte outlet, 0] ++ leBytes 2 cleared ++ leBytes 2 remaining ++ zeros 10) false s

/-- Trip bits that the reset policy clears: 0, 1, 2 and 6. -/
def policyBits : BitVec 7 := 0x47

/-- Clear an outlet's trips whose cause has gone: the bits that remain. -/
def resetOutlet (origin : Nat) (o : Outlet) (s : State) : State × Nat :=
  let h := s.hedge.out.get o
  let gone := h.latched &&& policyBits &&& ~~~ h.causes
  let left := h.latched &&& ~~~ gone
  if h.latched = 0 then (s, 0)
  else (logReset origin o.val gone.toNat left.toNat (setHedge o (fun x => { x with latched := left }) s), left.toNat)

/-- The module latches as the bits of opcode 0x0701's flags; the manual gives a Hedge fault no bit there, and the model shows
it as bit 8 (DESIGN CHOICE, log entry 61). -/
def moduleBits (h : Hedge) : Nat :=
  flags [false, false, h.estop, h.wiring, h.safeFault, h.group, false, false, h.fault]

/-- Clear the module's trips whose cause has gone: the latches that remain, as bits. -/
def resetModule (origin : Nat) (s : State) : State × Nat :=
  let h := s.hedge
  let closed := !h.openA && !h.openB
  let x := { h with
    estop := h.estop && !closed, wiring := h.wiring && !(closed && h.bothOpened), group := h.group && !h.groupGone }
  if moduleBits h = 0 then (s, 0)
  else (logReset origin 0xFF (moduleBits h - moduleBits x) (moduleBits x) (setHedgeM (fun _ => x) s), moduleBits x)

/-! ### Loading and confirming the block (R230 to R233) -/

/-- Hedge takes a block; `agrees` tells whether its check value is the one the domain computes, and `tag` is the
confirmed value in the tag. A change against the value held before is logged. -/
def takeBlock (block : List Byte) (agrees : Bool) (tag old : Option Nat) (s : State) : State :=
  let cv := (crc32c block).toNat
  let stored := if s.power.retention then s.hedge.stored.map (fun v => v.toNat) else none
  let differs : Bool := match stored, tag with
    | some a, some b => a != b
    | _, _ => false
  let confirmed := !differs && (if s.power.retention then stored else tag) == some cv
  let t := setHedgeM (fun h => { h with
    block := some block, nextBlock := none, mismatch := !agrees, confirmed, pinTA := true, pinTB := true
    stored := if confirmed then some (BitVec.ofNat 32 cv) else h.stored }) s
  match old with
  | some v => if v = cv then t else
      log 0 0x07 0x0702 (leBytes 4 v ++ leBytes 4 cv ++ [byte (flag confirmed)] ++ zeros 7) false t
  | none => t

/-- Contactor drive is on for some outlet. -/
def anyDrive (s : State) : Bool := outlets.any (fun o => (sessOf s o).drive || (s.hedge.out.get o).closed)

/-- A confirmation by path 0 host or 1 tag: the new state and the status (R233). -/
def confirmCheck (path origin value : Nat) (s : State) : State × Nat :=
  let recent := s.hedge.wrongTimes.filter (fun t => s.clockMs < t + 600000)
  let refused (wrong : List Nat) (status : Nat) (t : State) : State × Nat :=
    (log origin 0x07 0x0704 (leBytes 4 value ++ [byte wrong.length, byte status] ++ zeros 10) false t, status)
  if !lifeAllows s || !allWaiting s || hedgeStateCode s != 0 || s.hedge.block.isNone then refused recent St.refusedState s
  else if s.hedge.lockedOut then refused recent St.locked s
  else if value ≠ checkValue s then
    let wrong := s.clockMs :: recent
    refused wrong St.checkFail (setHedgeM (fun h => { h with wrongTimes := wrong, lockedOut := decide (3 ≤ wrong.length) }) s)
  else if s.hedge.confirmed then (s, St.ok)
  else
    (log origin 0x07 0x0703 (leBytes 4 value ++ [byte path] ++ zeros 11) false
      (setHedgeM (fun h => { h with confirmed := true, stored := some (BitVec.ofNat 32 value) }) s), St.ok)

end Sys2Proof.Machine
end

