-- ==== Sys2Proof/Machine/Setpoint.lean ====
section
/-! DEFINITION. Setpoints and standing replies (R154, R181 to R184, R197, R198, R222): what the active domain sends to a
converter and leaves for VLn, and Scarecrow's setpoint gate. -/

namespace Sys2Proof.Machine

/-! ### Record 0x0603 (R199) -/

/-- A two-byte and a one-byte field of record 0x0603. -/
def prechargeCurrent (s : State) (o : Outlet) : Nat := cfgN s 0x0603 o.val 4 2 2000
def rampRate (s : State) (o : Outlet) : Nat := cfgN s 0x0603 o.val 10 2 10

/-! ### Currents (R183) -/

/-- Mean of OnV over the last committed window, 10 mV. -/
def meanVolts (s : State) (o : Outlet) : Int := s.energy.values.outlets.getD (4 * o.val) 0

/-- I_alloc of an allocation in W, mA. -/
def allocCurrent (s : State) (o : Outlet) (a : Int) : Int := a * 100000 / max (meanVolts s o) 5000

/-- The current limit for a power: I_set without the vehicle's own term. -/
def limitCurrent (s : State) (o : Outlet) (a : Int) : Int :=
  min (min (allocCurrent s o a) (ratedCurrent s o))
    (min (s.sess.conv.get o).maxCurrent (s.hedge.scr.get o).iDer)

/-- The outlet discharges (R197): a BPT session whose allocation is negative. -/
def discharging (x : Session) : Bool := x.bpt && decide (x.alloc < 0)

/-- The lower of two numbers where 0 stands for one that is not given. -/
def minGiven (a b : Nat) : Nat := if a = 0 then b else min a b

/-- The setpoint of S6. -/
def energySetpoint (s : State) (o : Outlet) : Setpoint :=
  let x := sessOf s o
  let v := minGiven x.ev.targetVoltage (minGiven x.ev.maxVoltage (ratedVoltage s o))
  let a := max 0 x.alloc
  if discharging x then
    { mode := 3, voltage := v, current := -limitCurrent s o (-x.alloc), power := -x.alloc }
  else { mode := 2, voltage := v, current := min (x.ev.targetCurrent : Int) (limitCurrent s o a), power := a }

/-- The setpoint of the cable check: test voltage and precharge current (R181). -/
def testSetpoint (s : State) (o : Outlet) : Setpoint :=
  let x := sessOf s o
  { mode := 1, voltage := min (ratedVoltage s o) (max x.ev.maxVoltage 50000), current := prechargeCurrent s o
    power := max 0 x.alloc }

/-- The setpoint of precharge (R182). -/
def prechargeSetpoint (s : State) (o : Outlet) : Setpoint :=
  let x := sessOf s o
  { mode := 1, voltage := min x.preVoltage (ratedVoltage s o), current := prechargeCurrent s o
    power := max 0 x.alloc }

/-- One step of the ramp-down (R184): the current limit moves towards 0 by the ramp rate over 10 ms. -/
def rampStep (s : State) (o : Outlet) : Setpoint :=
  let p := (sessOf s o).setpoint
  let step : Int := (rampRate s o * 10000 : Nat)
  if p.mode = 3 then { p with current := min 0 (p.current + step) }
  else { p with mode := 2, current := max 0 (p.current - step) }

/-! ### The setpoint gate (R222) -/

/-- Modes that a session state allows. -/
def modeAllowed (x : SState) (m : Nat) : Bool :=
  m = 0 ||
  match x with
  | .s4 => m = 1
  | .s5 => m = 1
  | .s6 => m = 2 || m = 3
  | .s7 => m = 2 || m = 3
  | _ => false

/-- min(I_alloc, rated current) as Scarecrow forms it: the higher I_alloc for 2 ms after a fall. -/
def gateCurrent (s : State) (o : Outlet) : Int :=
  let c := s.hedge.scr.get o
  let now := allocCurrent s o ((sessOf s o).alloc.natAbs : Int)
  min (if c.prevLeft = 0 then now else max now c.prevAlloc) (ratedCurrent s o)

/-- The current limit of a frame passes. -/
def currentPasses (s : State) (o : Outlet) (p : Setpoint) : Bool :=
  decide ((100 * p.current.natAbs : Int) ≤ 101 * gateCurrent s o) || p.current == 0

/-- A setpoint frame passes the gate. -/
def gatePasses (s : State) (o : Outlet) (p : Setpoint) : Bool :=
  currentPasses s o p && decide (p.voltage ≤ ratedVoltage s o) && modeAllowed (sessOf s o).state p.mode

/-- A Scarecrow check acts (R221, R240): ramp or cut, logged when it begins. -/
def scrAction (o : Outlet) (row : Nat) (cuts : Bool) (measured limit : List Byte) (s : State) : State :=
  let c := s.hedge.scr.get o
  if (if cuts then c.cut else c.ramp) then s
  else
    log 0 0x07 0x0706 ([byte o.val, byte row, byte (flag cuts), 0] ++ measured ++ limit ++ zeros 4) false
      (setScr o (fun x => if cuts then { x with cut := true, permit := false } else { x with ramp := true }) s)

/-- Scarecrow withholds a frame. The entry's value and limit are those of the check that failed; for the mode they are
open. -/
def withhold (o : Outlet) (p : Setpoint) (s : State) : State :=
  if !currentPasses s o p then
    scrAction o 7 false (leInt 4 p.current) (leInt 4 (openRound (gateCurrent s o * 101 / 100 : Rat))) s
  else if ratedVoltage s o < p.voltage then scrAction o 7 false (leBytes 4 p.voltage) (leBytes 4 (ratedVoltage s o)) s
  else draw (scrAction o 7 false (openField 4 s) (openField 4 s) s)

/-- HST sends the setpoint frame of an outlet, if Scarecrow passes it; the converter then has it in force. -/
def releaseSetpoint (o : Outlet) (s : State) : State :=
  let p := (sessOf s o).setpoint
  if gatePasses s o p then sendSetpoint o (setSess o (fun x => { x with inForce := p }) s) else withhold o p s

/-- The domain changes the setpoint of a DC outlet (R185, R186). -/
def putSetpoint (o : Outlet) (p : Setpoint) (s : State) : State :=
  if !isDc s o.val || (sessOf s o).setpoint == p then s
  else releaseSetpoint o (setSess o (fun x => { x with setpoint := p, setSeq := x.setSeq + 1 })
    (journal 2 o.val ((sessOf s o).setSeq + 1).toNat s))

/-! ### The standing reply (R154, R157, R183, R198) -/

/-- The allocation differs from the schedule offered by more than 10 % (R198). -/
def offSchedule (x : Session) : Bool := x.offered.any (fun a => decide (a.natAbs < 10 * (x.alloc - a).natAbs))

/-- The time since which it has done so without a break, after a change of either. -/
def watchSchedule (s : State) (x : Session) : Session :=
  { x with offSince := if offSchedule x then some (x.offSince.getD s.clockMs) else none }

/-- It has done so for 10 s, in Scheduled mode (R198). -/
def renegotiates (s : State) (o : Outlet) : Bool :=
  let x := sessOf s o
  !x.dynamic && x.offSince.any (fun t => decide (t + 10000 ≤ s.clockMs))

/-- The validity of an outlet's standing reply has passed (R154, R157), by R5's rule on the dial cycle. -/
def replyLapsed (s : State) (o : Outlet) : Bool :=
  (s.link.get o).replyOver || laterStamp ⟨s.sun.cycle, 0⟩ ⟨(s.link.get o).reply.validUntil, 0⟩

/-- The maximum currents of the standing reply as the session stands: towards the vehicle, and in discharge. -/
def replyLimits (s : State) (o : Outlet) : Int × Int :=
  let x := sessOf s o
  (if isDc s o.val then limitCurrent s o (max 0 x.alloc) else (acCurrent s o : Int),
   if isDc s o.val && discharging x then limitCurrent s o (-x.alloc) else 0)

/-- The fields of the standing reply with given maximum currents. -/
def replyWith (limits : Int × Int) (s : State) (o : Outlet) : StandingFields :=
  let x := sessOf s o
  let lim := limits.1
  let dis := isDc s o.val && discharging x
  let imd := (s.hedge.out.get o).imd.status
  { validUntil := s.sun.cycle + BitVec.ofNat 32 (min 10 (cfgN s 0x0502 o.val 5 1 10))
    maxVoltage := minGiven x.ev.maxVoltage (ratedVoltage s o)
    maxCurrent := lim
    maxPower := max 0 x.alloc
    maxDisCurrent := limits.2
    maxDisPower := if dis then -x.alloc else 0
    acDuty := if nominalDuty s o then dutyFor (acCurrent s o) else 0
    notification := if x.state = .s7 ∨ x.state = .s8 then 1 else if renegotiates s o then 2 else 0
    flags := flags [imd == .valid, decide (lim < (x.ev.targetCurrent : Int)), decide (x.alloc < outletDemand s o)] }

/-- The fields of the standing reply as the session stands. -/
def replyFields (s : State) (o : Outlet) : StandingFields := replyWith (replyLimits s o) s o

/-- The fields between two computations of I_set: in S6 of a DC outlet the currents stand, since a lower one must reach the
converter first (R183). -/
def standingFields (s : State) (o : Outlet) : StandingFields :=
  if isDc s o.val ∧ (sessOf s o).state = .s6 then
    replyWith ((s.link.get o).reply.maxCurrent, (s.link.get o).reply.maxDisCurrent) s o
  else replyFields s o

/-- The domain writes the standing reply: the generation count ends 2 higher. A nominal duty follows it. -/
def writeReply (o : Outlet) (f : StandingFields) (s : State) : State :=
  let t := setLink o (fun l => { l with reply := f, replyGen := l.replyGen + 2, replyOver := false })
    (journal 3 o.val ((s.link.get o).replyGen + 2).toNat s)
  let x := (sessOf s o).state
  if nominalDuty s o ∧ (x = .s3 ∨ x = .s6) then commandGen o (genOf f.acDuty) t else t

/-- Write the standing reply of an outlet whose session is in S2 to S8: with I_set as it stands, or with I_set recomputed. -/
def renewReply (o : Outlet) (s : State) : State :=
  if (sessOf s o).state.running then writeReply o (standingFields s o) s else s
def freshReply (o : Outlet) (s : State) : State :=
  if (sessOf s o).state.running then writeReply o (replyFields s o) s else s

/-- Renew every standing reply. -/
def renewReplies (s : State) : State := forOutlets renewReply s

/-- Write the standing reply where a decision has changed. -/
def followReply (o : Outlet) (s : State) : State :=
  if standingFields s o = { (s.link.get o).reply with validUntil := (standingFields s o).validUntil } then s else renewReply o s

/-- The domain recomputes I_set (R183): a fall goes to the converter first, a rise to the standing reply. -/
def updateSet (o : Outlet) (s : State) : State :=
  if isDc s o.val ∧ (sessOf s o).state = .s6 then
    let p := energySetpoint s o
    if p.current.natAbs < (sessOf s o).setpoint.current.natAbs then freshReply o (putSetpoint o p s)
    else putSetpoint o p (freshReply o s)
  else followReply o s

end Sys2Proof.Machine
end

