-- ==== Sys2Proof/Machine/Sieve.lean ====
section
/-! DEFINITION. The Sieve (R24 to R26): lookup, placing an entry, and a load (R179, R180). -/

namespace Sys2Proof.Machine

/-- The Sieve's content changes. -/
def setSieve (f : List SieveEntry → List SieveEntry) (s : State) : State :=
  { s with fabric := { s.fabric with sieve := f s.fabric.sieve } }

/-- The credential hash's first 12 bytes (R173). -/
def credentialHash (kind : Nat) (ident : List Byte) : BitVec 96 :=
  (Config.sha256 ([byte kind, byte ident.length] ++ ident)).setWidth 96

/-- The two candidate buckets of a hash (R25). -/
def bucketP (h : BitVec 96) : Nat := h.toNat % 65536 % 2048
def bucketQ (h : BitVec 96) : Nat := h.toNat / 65536 % 65536 % 2048

/-- Entries per bucket. -/
def ways : Nat := 16

/-- The entries of a bucket. -/
def inBucket (l : List SieveEntry) (b : Nat) : List SieveEntry := l.filter (fun e => e.bucket == b)

/-- The resident entry of a hash. -/
def resident (l : List SieveEntry) (h : BitVec 96) : Option SieveEntry :=
  l.find? (fun e => e.hash == h && (e.bucket == bucketP h || e.bucket == bucketQ h))

/-- A lookup (R25): a hit on a valid entry that reads without an uncorrectable error. -/
def sieveHit (s : State) (h : BitVec 96) : Option SieveEntry :=
  (resident s.fabric.sieve h).filter (fun e => e.flags.getLsbD 0 && !e.bad)

/-- The lowest free place of a bucket. -/
def freePos (l : List SieveEntry) (b : Nat) : Option Nat :=
  (List.range ways).find? (fun p => (inBucket l b).all (fun e => e.pos != p))

/-- An entry's other bucket. -/
def otherBucket (e : SieveEntry) : Nat := if e.bucket = bucketP e.hash then bucketQ e.hash else bucketP e.hash

/-- Move an entry to a place. -/
def moveEntry (e : SieveEntry) (b p : Nat) (l : List SieveEntry) : List SieveEntry :=
  l.map (fun x => if x.bucket = e.bucket ∧ x.pos = e.pos then { x with bucket := b, pos := p } else x)

/-- Make the moves of a chain, last one first: each entry goes to its other bucket, which has room by then. -/
def moveChain : List SieveEntry → List SieveEntry → List SieveEntry
  | [], l => l
  | e :: rest, l =>
    let l := moveChain rest l
    match freePos l (otherBucket e) with
    | some p => moveEntry e (otherBucket e) p l
    | none => l

/-- Search, bucket by bucket outwards, for a chain of moves that ends in a bucket with room. A chain is held with its
last move first. The first argument bounds the moves; which resident moves is this model's choice (log entry 20). -/
def findChain (l : List SieveEntry) : Nat → List (Nat × List SieveEntry) → List Nat → Option (List SieveEntry)
  | 0, _, _ => none
  | n + 1, front, seen =>
    match front.find? (fun c => (freePos l c.1).isSome) with
    | some c => some c.2.reverse
    | none =>
      let grow := front.foldl (fun (a : List (Nat × List SieveEntry) × List Nat) c =>
        (inBucket l c.1).foldl (fun a e =>
          if otherBucket e ∈ a.2 then a else (a.1 ++ [(otherBucket e, e :: c.2)], otherBucket e :: a.2)) a) ([], seen)
      if grow.1.isEmpty then none else findChain l n grow.1 grow.2

/-- Place a new entry (R26): in the emptier bucket, else after moving residents; none where no room can be made. Which bucket
where both are equally full (p), and which free place (the lowest), is this model's choice (log entry 20). -/
def placeEntry (e : SieveEntry) (l : List SieveEntry) : Option (List SieveEntry) :=
  let p := bucketP e.hash
  let q := bucketQ e.hash
  let b := if (inBucket l q).length < (inBucket l p).length then q else p
  match freePos l b with
  | some pos => some ({ e with bucket := b, pos } :: l)
  | none =>
    match findChain l 65 [(p, []), (q, [])] [p, q] with
    | none => none
    | some chain =>
      let l' := moveChain chain l
      match freePos l' p, freePos l' q with
      | some pos, _ => some ({ e with bucket := p, pos } :: l')
      | none, some pos => some ({ e with bucket := q, pos } :: l')
      | none, none => none

/-- An entry of a load (R24). -/
def loadEntry (b : List Byte) : SieveEntry :=
  { bucket := 0, pos := 0, hash := BitVec.ofNat 96 (fieldN b 0 12), account := fieldN b 12 2, flags := byte (fieldN b 14 1)
    bad := false }

/-- An entry that a merge takes: valid and without a reserved bit; a prepaid entry names an account 0 to 4,095. -/
def loadable (b : List Byte) : Bool :=
  let fl := fieldN b 14 1
  fl.testBit 0 && fl < 16 && fieldN b 15 1 == 0 && !(fl.testBit 2 && 4095 < fieldN b 12 2)

/-- Write one loaded entry: the content, and whether it was written. -/
def writeEntry (e : SieveEntry) (l : List SieveEntry) : List SieveEntry × Bool :=
  match resident l e.hash with
  | some r => (l.map (fun x => if x.bucket = r.bucket ∧ x.pos = r.pos then { e with bucket := r.bucket, pos := r.pos } else x), true)
  | none => match placeEntry e l with
    | some l' => (l', true)
    | none => (l, false)

/-- Content of the Sieve and counts while a load is applied. -/
structure LoadRun where
  content  : List SieveEntry
  written  : Nat
  noSpace  : Nat
  skipped  : Nat
  deleted  : Nat
  notFound : Nat

/-- Apply one entry of a merge. -/
def mergeEntry (a : LoadRun) (b : List Byte) : LoadRun :=
  if !loadable b then { a with skipped := a.skipped + 1 }
  else
    let w := writeEntry (loadEntry b) a.content
    if w.2 then { a with content := w.1, written := a.written + 1 } else { a with noSpace := a.noSpace + 1 }

/-- Apply one entry of a delete. One whose other bytes are not 0 is skipped under RANGE. -/
def deleteEntry (a : LoadRun) (b : List Byte) : LoadRun :=
  if fieldN b 12 4 ≠ 0 then { a with skipped := a.skipped + 1 }
  else match resident a.content (BitVec.ofNat 96 (fieldN b 0 12)) with
    | some r => { a with
        content := a.content.filter (fun x => !(x.bucket == r.bucket && x.pos == r.pos)), deleted := a.deleted + 1 }
    | none => { a with notFound := a.notFound + 1 }

/-- Apply the entries of a load: 0 replace all, 1 merge, 2 delete (R180). -/
def applyEntries (mode : Nat) (es : List (List Byte)) (l : List SieveEntry) : LoadRun :=
  let keep := es.map (fun b => BitVec.ofNat 96 (fieldN b 0 12))
  let l' := if mode = 0 then l.filter (fun x => decide (x.hash ∈ keep)) else l
  es.foldl (if mode = 2 then deleteEntry else mergeEntry)
    { content := l', written := 0, noSpace := 0, skipped := 0, deleted := l.length - l'.length, notFound := 0 }

end Sys2Proof.Machine
end

