-- ==== Sys2Proof/Machine/Session.lean ====
section
/-! DEFINITION. The session state machine (R166 to R184): transitions and what each does, causes, authorisation, closing a
session, and `settle`, which carries every level condition of the protection and of the sessions to its effect. The
commands of chapter 07 are in Authorise.lean and Charging.lean. -/

namespace Sys2Proof.Machine

/-! ### Status and transitions (R167, R169, R200) -/

/-- The 24 bytes of an outlet in opcode 0x0607. -/
def statusBytes (s : State) (o : Outlet) : List Byte :=
  let x := sessOf s o
  [byte x.state.code, byte x.reason, byte x.auth, byte (s.sess.conv.get o).state] ++ leBytes 4 x.number ++
    leBytes 4 (utcField x.startUtc) ++ leInt 4 x.alloc ++ leInt 4 x.inForce.current ++ leBytes 4 x.inForce.voltage

/-- The payload of opcode and event 0x0607. -/
def statusPayload (s : State) : List Byte := outlets.flatMap (statusBytes s)

/-- A session passes to another state: the event goes out on every transition. -/
def goTo (o : Outlet) (x : SState) (s : State) : State :=
  let t := setSess o (fun y => { y with state := x }) (journal 1 o.val x.code s)
  let t := if x = .s0 then releaseRecords o t else t
  eventAll clsN 0x0607 (statusPayload t) t

/-! ### Drive (R203) -/

/-- The drive request of an outlet changes. Insulation values and Scarecrow's timers of a new request start afresh. -/
def setDrive (o : Outlet) (on : Bool) (s : State) : State :=
  if (sessOf s o).drive = on then s
  else
    let t := commandContactors o on (setSess o (fun x => { x with drive := on }) (journal 9 o.val (flag on) s))
    if on then
      setScr o (fun c => { c with persist := List.replicate 7 0, closedFor := 0, lapsed := false })
        (setHedge o (fun h => { h with imd := .init }) t)
    else t

/-! ### Closing (R169, R117) -/

/-- A session closes, once: end reason, snapshot, signed record, entry 0x0603, and the end of its link. -/
def closeSession (o : Outlet) (reason : Nat) (s : State) : State :=
  let x := sessOf s o
  if x.closed then s
  else
    let t := setSess o (fun y => { y with reason := reason }) s
    let t := closeRecord o reason (snapshot ((List.range 8).map (fun (i : Nat) => 8 * o.val + i)) t)
    let t := setSess o (fun y => { y with
      closed := true, informational := false
      query := if y.query = .pending ∨ y.informational then .answered else y.query }) t
    endLink o (log 0 0x06 0x0603 ([byte o.val, byte reason, byte x.state.code, 0] ++ leBytes 4 x.number ++
      leInt 8 (committedValue s (8 * o.val))) false t)

/-- Availability that waited for S9 or S0 takes effect (R201). -/
def applyAvailability (o : Outlet) (s : State) : State :=
  setSess o (fun x => { x with outOfService := x.availLater.getD x.outOfService, availLater := none }) s

/-- S0: the pilot is at static +12 V. -/
def enterS0 (o : Outlet) (s : State) : State :=
  commandGen o .static12 (applyAvailability o (goTo o .s0 (setSess o (fun x => { x with auth := 0 }) s)))

/-- S9: the pilot is at static +12 V. -/
def enterS9 (o : Outlet) (s : State) : State := commandGen o .static12 (applyAvailability o (goTo o .s9 s))

/-- SE with setpoint mode 0 and no drive request; the session is closed if it is not yet. -/
def enterSE (o : Outlet) (reason : Nat) (s : State) : State :=
  goTo o .se (closeSession o reason (putSetpoint o setpointOff (setDrive o false s)))

/-- S8: mode 0, drive removed (R184). -/
def enterS8 (o : Outlet) (s : State) : State :=
  setHedge o (fun h => { h with weldHigh := 0, weldInconclusive := false })
    (goTo o .s8 (setDrive o false (putSetpoint o setpointOff s)))

/-- S7: the ramp-down begins with its first step; an outlet that signals current by duty stops its PWM. -/
def enterS7 (o : Outlet) (cause : Nat) (s : State) : State :=
  let t := goTo o .s7 (setSess o (fun x => { x with cause := cause }) s)
  let t := putSetpoint o (rampStep t o) t
  let t := if dutyOutlet t o then commandGen o .static12 t else t
  renewReply o t

/-! ### Causes (R169, R170, R172) -/

/-- The causes that have acted on an outlet in the running grid cycle. -/
def causesNow (s : State) (o : Outlet) : List Nat :=
  if (sessOf s o).causeCycle = s.sun.cycle then (sessOf s o).causes else []

/-- A cause is noted in the running grid cycle. -/
def noteCause (o : Outlet) (cause : Nat) (s : State) : State :=
  setSess o (fun x => { x with causes := cause :: causesNow s o, causeCycle := s.sun.cycle }) s

/-- A cause that does not decide is logged. The manual names no code and no detail for it: both are free. -/
def logCause (s : State) : State :=
  draw (log 0 0x06 (Config.freeNat s.freeCount % 65536) (openField 16 s) false s)

/-- Causes that lead from S4, S5 or S6 to S7, and from S2 or S3 to S9. -/
def rampCauses : List Nat := [5, 6, 7, 8, 9, 10, 11, 12, 13, 15, 16, 17]
def endCauses : List Nat := [4, 8, 9, 10, 11, 12, 13, 14, 15, 19]

/-- Causes 13 and 14 do not apply in PWM-only operation. -/
def causeApplies (s : State) (o : Outlet) (cause : Nat) : Bool :=
  !(outletType s o.val = 4 && (s.link.get o).pwmOnly && (cause = 13 || cause = 14))

/-- The transition of R169 for a cause; none where the table has none for it in the state. -/
def causeStep (s : State) (o : Outlet) (cause : Nat) : Option (State → State) :=
  let x := sessOf s o
  if !causeApplies s o cause then none
  else match x.state with
    | .s1 => if cause = 3 then some (fun t => enterS0 o (closeSession o 3 t)) else none
    | .s2 => early x cause
    | .s3 => early x cause
    | .s4 => ramp cause
    | .s5 => ramp cause
    | .s6 => ramp cause
    | .s7 =>
      if cause ∈ rampCauses ∧ cause < x.cause ∧ x.cause ∈ causesNow s o then
        some (fun t => logCause (setSess o (fun y => { y with cause := cause }) t))
      else none
    | _ => none
where
  early (_ : Session) (cause : Nat) : Option (State → State) :=
    if cause = 3 then some (fun t => enterS0 o (closeSession o 3 t))
    else if cause ∈ endCauses then some (fun t => enterS9 o (closeSession o cause t))
    else none
  ramp (cause : Nat) : Option (State → State) :=
    if cause ∈ rampCauses then some (enterS7 o cause) else none

/-- A cause arises. One without a transition has no effect on the state; beside one that acted in the same grid cycle it
is logged. -/
def giveCause (o : Outlet) (cause : Nat) (s : State) : State :=
  match causeStep s o cause with
  | some f => noteCause o cause (f s)
  | none => if causesNow s o ≠ [] ∧ cause ∉ causesNow s o then logCause (noteCause o cause s) else s

/-! ### Authorisation (R173 to R178) -/

/-- Identification options and the other fields of record 0x0601 (R165). -/
def identOption (s : State) (o : Outlet) (bit : Nat) : Bool := (cfgN s 0x0601 o.val 19 1 2).testBit bit
def readerServes (s : State) (o : Outlet) (port : Nat) : Bool := (cfgN s 0x0601 o.val 17 1 3).testBit port
def fallbackPolicy (s : State) (o : Outlet) : Nat := cfgN s 0x0601 o.val 18 1 0

/-- The kind and hash bytes of a log entry; open where there is no credential. -/
def credBytes (s : State) (c : Option Credential) : List Byte × List Byte :=
  match c with
  | some c => ([byte c.kind], wordBytes 8 (c.hash.setWidth 64))
  | none => (openField 1 s, openField 8 s)

/-- An authorisation is decided (R174, R202). A session that has left S2 meets a refusal as cause 10 as well. -/
def decide' (o : Outlet) (path origin : Nat) (accept : Bool) (g : Grant) (s : State) : State :=
  let x := sessOf s o
  let b := credBytes s x.cred
  let t := draw (log origin 0x06 0x0602 ([byte o.val] ++ b.1 ++ [byte path, byte (flag !accept)] ++ leBytes 4 x.number ++ b.2)
    false s)
  if accept then setSess o (fun y => { y with auth := 2, authPath := some path, grant := g }) t
  else giveCause o 10 (setSess o (fun y => { y with auth := 3, authPath := some path }) t)

/-- Event 0x0601 (R200). -/
def queryPayload (s : State) (o : Outlet) (c : Credential) (informational : Bool) : List Byte :=
  leBytes 4 (sessOf s o).number ++ [byte o.val, byte c.kind, byte c.ident.length, byte (flag informational)] ++
    wordBytes 12 c.hash ++ c.ident

/-- The fallback policy decides (R175). -/
def byPolicy (o : Outlet) (queried : Bool) (s : State) : State :=
  let p := fallbackPolicy s o
  decide' o 4 0 (p = 1 || (p = 2 && (!queried || s.host.absent))) ⟨0, 0⟩
    (setSess o (fun x => { x with query := if queried then .byPolicy else x.query }) s)

/-- A miss: the host is asked, or the policy decides at once. -/
def hostQuery (o : Outlet) (c : Credential) (s : State) : State :=
  if cfgN s 0x0101 0 1 1 3 ≠ 0 ∧ s.host.absent = false then
    eventAll clsN 0x0601 (queryPayload s o c false) (setSess o (fun x => { x with query := .pending }) s)
  else byPolicy o false s

/-- The credential is looked up and decided by steps 3 and 4 of R174. -/
def lookUp (o : Outlet) (c : Credential) (s : State) : State :=
  let keep (t : State) : State := setSess o (fun x => { x with cred := some c }) t
  let miss (t : State) : State := if c.kind = 3 then t else hostQuery o c (keep t)
  match sieveHit s c.hash with
  | none => miss s
  | some e =>
    if e.flags.getLsbD 3 ≠ (c.kind == 2) then
      miss (log 0 0x06 0x0607 ([byte o.val, byte c.kind, e.flags, 0] ++ leBytes 4 (sessOf s o).number ++
        wordBytes 8 (c.hash.setWidth 64)) false s)
    else if e.flags.getLsbD 1 then decide' o 2 0 false ⟨0, 0⟩ (keep s)
    else if e.flags.getLsbD 2 ∧ creditAccepts s e.account = false then decide' o 2 0 false ⟨0, 0⟩ (keep s)
    else
      let t := decide' o 2 0 true ⟨e.account, 0⟩ (setSess o (fun x => { x with prepaid := e.flags.getLsbD 2 }) (keep s))
      if c.kind = 2 then
        eventAll clsN 0x0601 (queryPayload t o c true) (setSess o (fun x => { x with informational := true }) t)
      else t

/-- A credential arrives for an outlet that waits for identification (R174, R176). -/
def presentCredential (o : Outlet) (c : Credential) (s : State) : State :=
  let x := sessOf s o
  if x.query = .pending then
    log 0 0x06 0x0608 ([byte o.val, byte c.kind, byte c.port, 0] ++ leBytes 4 x.number ++ wordBytes 8 (c.hash.setWidth 64))
      false s
  else lookUp o c s

/-- The outlet waits for identification. -/
def identifying (s : State) (o : Outlet) : Bool := (sessOf s o).state = .s2 && (sessOf s o).auth = 1

/-- Authorisation starts on entry into S2 (R174, R176). -/
def startAuthorisation (o : Outlet) (s : State) : State :=
  let t := setSess o (fun x => { x with auth := 1 }) s
  if identOption s o 2 then decide' o 0 0 true ⟨0, 0⟩ t
  else match (sessOf t o).preAuth, t.sess.heldCard with
    | some g, _ => decide' o 1 (sessOf t o).preOrigin true g (setSess o (fun x => { x with preAuth := none }) t)
    | none, some c =>
      if readerServes t o c.port then presentCredential o c { t with sess := { t.sess with heldCard := none } } else t
    | none, none => t

/-- A card has been read at a reader port (R176). -/
def cardRead (port : Nat) (ident : List Byte) (s : State) : State :=
  let c : Credential := { kind := 1, ident, hash := credentialHash 1 ident, port }
  let waiting := outlets.filter (fun o => identifying s o && readerServes s o port)
  let first := waiting.foldl (fun (best : Option Outlet) o => match best with
    | none => some o
    | some b => if (sessOf s o).s2Order < (sessOf s b).s2Order then some o else some b) none
  match first with
  | some o => presentCredential o c s
  | none => { s with sess := { s.sess with heldCard := some c } }

/-! ### Entering S1, S2, S3, S4 and S6 (R168, R169) -/

/-- S1: the session number rises, the session status is cleared, the link gets a fresh key, entry 0x0601. -/
def enterS1 (o : Outlet) (s : State) : State :=
  let number := (s.sess.lastNumber + 1) % 4294967296
  let t := clearSessionStatus o { s with sess := { s.sess with lastNumber := number } }
  let t := setSess o (fun x => { Session.init with
    number := number, reason := x.reason, closed := false, startUtc := utcNow s, startStamp := stamp s
    outOfService := x.outOfService, availLater := x.availLater, preAuth := x.preAuth, preOrigin := x.preOrigin
    alloc := x.alloc, nextAlloc := x.nextAlloc, allocSince := x.allocSince
    setpoint := x.setpoint, setSeq := x.setSeq, inForce := x.inForce }) t
  let t := setScr o (fun c => { c with ramp := false, cut := false }) t
  let t := goTo o .s1 (beginLink o (openRecord o t))
  commandGen o .static12
    (log 0 0x06 0x0601 ([byte o.val, byte (outletType s o.val), 0, 0] ++ leBytes 4 number ++ zeros 8) false t)

/-- Every condition of R168 holds, and Hedge's state lets an outlet leave S1 (R230, R332). -/
def mayIdentify (s : State) (o : Outlet) : Bool :=
  s.hedge.confirmed && !(sessOf s o).outOfService && (!isAc s o.val || cableRating s o != 0) &&
    (s.hedge.out.get o).latched == 0 && hedgeStateCode s == 0 && lifeAllows s

/-- The pilot output at which identification starts. -/
def identifyGen (s : State) (o : Outlet) : Generator :=
  match outletType s o.val with
  | 1 => .duty 50
  | 2 => .duty 50
  | 4 => if linkField s o 6 0 = 1 then genOf (dutyFor (min (ratedCurrent s o) (cableRating s o * 1000))) else .duty 50
  | _ => .static12

/-- S2: the pilot output of the outlet's type, and authorisation starts. -/
def enterS2 (o : Outlet) (s : State) : State :=
  let order := s.sess.order + 1
  let t := setSess o (fun x => { x with s2Order := order, s2Cycle := s.sun.cycle })
    { s with sess := { s.sess with order := order } }
  startAuthorisation o (commandGen o (identifyGen t o) (goTo o .s2 t))

/-- S3: a duty outlet signals the current of its allocation. -/
def enterS3 (o : Outlet) (s : State) : State := renewReply o (goTo o .s3 s)

/-- S4: drive is requested, unless the converter is lost (R189). -/
def enterS4 (o : Outlet) (s : State) : State :=
  let t := goTo o .s4 (setSess o (fun x => { x with checkDone := false }) s)
  if (t.sess.conv.get o).lost then t else setDrive o true t

/-- S6: a DC outlet's setpoint follows R183, an AC outlet's contactor closes. -/
def enterS6 (o : Outlet) (s : State) : State :=
  let order := s.sess.order + 1
  let t := setSess o (fun x => { x with s6Order := order, s6Cycle := s.sun.cycle, started := true, paused := false })
    { s with sess := { s.sess with order := order } }
  let t := goTo o .s6 t
  if isDc s o.val then freshReply o (putSetpoint o (energySetpoint t o) t) else freshReply o (setDrive o true t)

/-! ### Level conditions (R169, R171, R189) -/

/-- A trip that the domain has not yet seen (R209): cause 1, or a weld found in S8. -/
def takeTrip (o : Outlet) (s : State) : State :=
  let x := (sessOf s o).state
  let weld := (s.hedge.out.get o).newWeld
  let t := setHedge o (fun h => { h with newTrip := false, newWeld := false }) s
  if x = .s0 ∨ x = .se then t
  else if x = .s8 ∧ weld then noteCause o 2 (enterSE o 2 t)
  else noteCause o 1 (enterSE o 1 t)

/-- Pilot A, or a pilot fault, in S2 and S3. -/
def earlyPilot (o : Outlet) (s : State) (other : State → State) : State :=
  let l := s.link.get o
  if l.pilot = some .a then giveCause o 3 s
  else if l.pilot = some .e ∨ l.pilot = some .invalid ∨ l.diodeFault then giveCause o 4 s
  else other s

/-- Scarecrow's causes and a lost converter, in S4 to S6. -/
def runningCauses (o : Outlet) (s : State) (other : State → State) : State :=
  let c := s.hedge.scr.get o
  if c.ramp ∨ c.cut then giveCause o 5 s
  else if isDc s o.val ∧ (s.sess.conv.get o).lost then giveCause o 6 s
  else other s

/-- MATCH_FAIL, in S2 and S3, once a pilot fault has not decided (R144, R170). -/
def matchFailed (o : Outlet) (s : State) (other : State → State) : State :=
  if (s.link.get o).matchFail then giveCause o 14 s else other s

/-- A cause that stands beside those that have acted in the running grid cycle (R170). -/
def besideCause (o : Outlet) (cause : Nat) (stands : Bool) (s : State) : State :=
  if stands ∧ causesNow s o ≠ [] ∧ cause ∉ causesNow s o then giveCause o cause s else s

/-- Conditions that are causes of their own, after a cause has acted: Scarecrow's refusal and a lost converter in S7, MATCH_FAIL
in S9. -/
def besideCauses (o : Outlet) (s : State) : State :=
  let c := s.hedge.scr.get o
  match (sessOf s o).state with
  | .s7 => besideCause o 6 (isDc s o.val && (s.sess.conv.get o).lost) (besideCause o 5 (c.ramp || c.cut) s)
  | .s9 => besideCause o 14 (s.link.get o).matchFail s
  | _ => s

/-- What the present conditions make of an outlet's session: one transition at most. -/
def settleOutlet (o : Outlet) (s : State) : State :=
  let x := sessOf s o
  let h := s.hedge.out.get o
  let pilot := (s.link.get o).pilot
  if h.newTrip then takeTrip o s
  else match x.state with
    | .s0 => if pilotBcd s o ∧ outletType s o.val ≠ 0 then enterS1 o s else s
    | .s1 => if pilot = some .a then giveCause o 3 s else if mayIdentify s o then enterS2 o s else s
    | .s2 => earlyPilot o s (fun s => matchFailed o s (fun s => if x.auth = 2 then enterS3 o s else s))
    | .s3 => earlyPilot o s (fun s => matchFailed o s (fun s =>
        if isAc s o.val ∧ (pilot = some .c ∨ pilot = some .d) ∧ (dutyOutlet s o ∨ x.started) then enterS6 o s else s))
    | .s4 => runningCauses o s (fun s =>
        if driveOn s o ∧ x.setpoint.mode = 0 then putSetpoint o (testSetpoint s o) s else s)
    | .s5 => runningCauses o s id
    | .s6 => runningCauses o s id
    | .s9 => if pilot = some .a then enterS0 o s else s
    | .se =>
      if h.latched = 0 ∧ !moduleTrip s ∧ !x.drive ∧ !h.closed then
        if pilot = some .a then enterS0 o s else enterS9 o s
      else s
    | _ => s

/-- The insulation monitor runs only while drive is on (R215). -/
def stopImd (o : Outlet) (s : State) : State :=
  if driveOn s o then s else setHedge o (fun h => { h with imd := { h.imd with running := false } }) s

/-- One round: protection, loads and outputs, then the sessions while a domain is at work. -/
def settleOnce (s : State) : State :=
  let t := forOutlets stopImd (driveChannels (followLoads (refreshSafety s)))
  if domainRuns t then forOutlets followReply (forOutlets besideCauses (forOutlets settleOutlet t)) else t

/-- Carry every present condition to its effect. A command starts at most five transitions of an outlet in a row (S0 to S6
on an AC outlet), so six rounds leave nothing to do. -/
def settle (s : State) : State :=
  settleOnce (settleOnce (settleOnce (settleOnce (settleOnce (settleOnce s)))))

end Sys2Proof.Machine
end

