-- ==== Sys2Proof/Machine/Link.lean ====
section
/-! DEFINITION. The vehicle link below the messages (R134 to R148, R151, R153, R154, R157, R163): pilot, proximity, matching,
10BASE-T1S, SDP, TCP, TLS, protocol timers, and the chapter's opcodes. Messages are in V2g.lean. -/

namespace Sys2Proof.Machine

/-! ### Causes that a link reports -/

/-- A cause from VLn; PWM-only operation in place of cause 14 on a type 4 outlet is decided before (R172). -/
def linkCause (o : Outlet) (cause : Nat) (s : State) : State := giveCause o cause s

/-- VLn closes the connection, and reports the loss (R148, R153). -/
def loseTcp (o : Outlet) (s : State) : State :=
  if (s.link.get o).tcpOpen then linkCause o 15 (closeTcp o s) else s

/-- Change an outlet's counters (opcode 0x0502). -/
def count (o : Outlet) (f : LinkCounters → LinkCounters) (s : State) : State :=
  setLink o (fun l => { l with counters := f l.counters }) s

/-! ### PWM-only operation (R172) -/

/-- A type 4 outlet changes to PWM-only operation: static +12 V until authorised, then the duty of its reply. -/
def pwmOnlyFrom (o : Outlet) (s : State) : State :=
  let t := setLink o (fun l => { l with pwmOnly := true, matching := noRun l.matching.retries, link := 0 }) (closeTcp o s)
  if (sessOf t o).state = .s2 then commandGen o .static12 t else renewReply o t

/-! ### Matching fails (R144) -/

/-- Matching fails: entry 0x0501, then a wait at step 1, a retry with state F, or MATCH_FAIL, which is cause 14 (`matchFailed`).
-/
def failMatching (o : Outlet) (limit : Bool) (s : State) : State :=
  let l := s.link.get o
  let m := l.matching
  let t := log 7 0x05 0x0501 ([byte o.val, byte m.step, byte m.retries, byte m.sounds] ++ zeros 12) false
    (count o (fun c => { c with failures := c.failures + 1 }) s)
  let put (m : Matching) (t : State) : State := setLink o (fun l => { l with matching := m, link := 0 }) t
  if outletType s o.val = 4 ∧ m.step = 1 ∧ limit then pwmOnlyFrom o t
  else if l.pilot = some .a then put { noRun m.retries with step := 1 } (freshNmk o t)
  else if 0 < m.retries then
    queueGen o .stateF (put { noRun (m.retries - 1) with inRetry := true } t)
  else
    let t := put (noRun 0) t
    if outletType s o.val = 4 then pwmOnlyFrom o t else setLink o (fun l => { l with matchFail := true }) t

/-- MATCHING_TIMEOUT (R143, R144): a limit of the running step passes. -/
def execMatchingTimeout (o : Outlet) (s : State) : Host.Outcome State Fault Refusal :=
  .next (if up s ∧ (s.link.get o).matching.step ≠ 0 then settle (failMatching o true s) else s)

/-- SLAC_RETRY_STATE_F_END (R144): a fresh key, the duty again, step 1. In HOLD the output stays at 0 V (R474). -/
def execSlacRetryStateFEnd (o : Outlet) (s : State) : Host.Outcome State Fault Refusal :=
  let l := s.link.get o
  .next (
    if up s ∧ l.matching.inRetry then
      let t := setLink o (fun l => { l with matching := noRun l.matching.retries }) (freshNmk o s)
      settle (if s.power.state = .hold then t else queueGen o l.commanded t)
    else s)

/-! ### Pilot (R136, R137, R163) -/

/-- B, C or D. -/
def plugged (p : PilotState) : Bool :=
  match p with
  | .b => true
  | .c => true
  | .d => true
  | _ => false

/-- C or D. -/
def chargingState (p : Option PilotState) : Bool := p = some .c || p = some .d

/-- The pilot test of an outlet ends: static +12 V. -/
def endPilotTest (o : Outlet) (s : State) : State :=
  if (s.link.get o).test then commandGen o .static12 (setLink o (fun l => { l with test := false }) s) else s

/-- The pilot leaves B, C and D: a run fails, and a retry that meets A ends and clears the count. -/
def unplug (o : Outlet) (p : PilotState) (s : State) : State :=
  let l := s.link.get o
  if l.matching.inRetry then
    if p = .a then commandGen o .static12 (setLink o (fun l => { l with matching := noRun 0 }) s) else s
  else if l.matching.step ≠ 0 then failMatching o false s
  else s

/-- With the pilot out of B, C and D a type 2 link is down, and with it the connection, which VLn reports (R145, R153). -/
def linkGone (o : Outlet) (s : State) : State :=
  let l := s.link.get o
  if l.link = 2 ∧ outletType s o.val = 2 then loseTcp o (setLink o (fun l => { l with link := 0 }) s) else s

/-- Unplugged, or a pilot fault, decides before what the same pilot state does to the link (R170). -/
def pilotCause (o : Outlet) (s : State) : State :=
  if domainRuns s ∧ ((sessOf s o).state = .s2 ∨ (sessOf s o).state = .s3) then earlyPilot o s id else s

/-- What a DC stop or an AC pause by the pilot does in the session (R169, R170). -/
def pilotB (o : Outlet) (s : State) : State :=
  let x := (sessOf s o).state
  if isDc s o.val then (if x = .s4 ∨ x = .s5 ∨ x = .s6 then giveCause o 8 s else s)
  else if x = .s6 then setSess o (fun y => { y with paused := true }) s
  else s

/-- A recognised state reaches the domain. -/
def takePilot (o : Outlet) (p : PilotState) (diode : Bool) (s : State) : State :=
  let old := (s.link.get o).pilot
  let t := setLink o (fun l => { l with pilot := some p, diodeFault := diode }) s
  let t := if plugged p then endPilotTest o t else linkGone o (pilotCause o (unplug o p t))
  let t := if chargingState (some p) then
      setLink o (fun l => { l with timers := { l.timers with cpState := false } })
        (setSess o (fun y => { y with paused := false }) t)
    else t
  settle (if p = .b ∧ chargingState old then pilotB o t else t)

/-- The class of a high plateau in mV (R136). -/
def pilotBand (mV : Int) : PilotState :=
  if 11000 ≤ mV ∧ mV ≤ 13000 then .a
  else if 8000 ≤ mV ∧ mV ≤ 10000 then .b
  else if 5000 ≤ mV ∧ mV ≤ 7000 then .c
  else if 2000 ≤ mV ∧ mV ≤ 4000 then .d
  else if -1000 ≤ mV ∧ mV ≤ 1000 then .e
  else if -13000 ≤ mV ∧ mV ≤ -11000 then .f
  else .invalid

/-- The diode is missing or shorted: while PWM runs in B, C or D, the low plateau lies outside its band (R136). -/
def diodeMissing (g : Generator) (high low : Int) : Bool :=
  match g with
  | .duty _ => plugged (pilotBand high) && !(decide (-13000 ≤ low) && decide (low ≤ -11000))
  | .static12 => false
  | .zero => false
  | .stateF => false

/-- What VLn recognises from plateaus that have stood for their time: nothing at 0 V; DIODE_FAULT is reported as state E. -/
def seenBy (o : Outlet) (high low : Int) (s : State) : State :=
  let g := (s.link.get o).gen
  if g = .zero then settle s
  else if diodeMissing g high low then takePilot o .e true s
  else if pilotBand high = .invalid then
    takePilot o .invalid false (count o (fun c => { c with invalid := c.invalid + 1 }) s)
  else takePilot o (pilotBand high) false s

/-- PILOT_STATE_RECOGNISED (R136, R137): plateaus of one class, in mV, have stood for the debounce time. Hedge's comparators see
them too. A level outside every band is not recognised: it takes 100 ms to be reported. -/
def execPilotStateRecognised (o : Outlet) (high low : Int) (s : State) : Host.Outcome State Fault Refusal :=
  .next (
    if !up s then s
    else
      let t := seePilot o high low s
      if pilotBand high = .invalid then settle t else seenBy o high low t)

/-- PILOT_INVALID (R137): plateaus have stood for 100 ms; INVALID where they lie outside every band. -/
def execPilotInvalid (p : PilotLevels) (s : State) : Host.Outcome State Fault Refusal :=
  .next (
    if !up s then s
    else
      let t := seePilot p.outlet p.high p.low s
      if pilotBand p.high = .invalid then seenBy p.outlet p.high p.low t else settle t)

/-- The report of a proximity resistance (R140). -/
def proxOf (ohms : Nat) : Nat :=
  if 4500 < ohms then 0
  else if 1100 ≤ ohms ∧ ohms ≤ 2460 then 13
  else if 400 ≤ ohms ∧ ohms ≤ 936 then 20
  else if 164 ≤ ohms ∧ ohms ≤ 308 then 32
  else if 80 ≤ ohms ∧ ohms ≤ 140 then 63
  else 255

/-- PROXIMITY_CLASSIFIED (R140, R141). -/
def execProximityClassified (o : Outlet) (ohms : Nat) (s : State) : Host.Outcome State Fault Refusal :=
  .next (if up s ∧ isAc s o.val then settle (setLink o (fun l => { l with prox := proxOf ohms }) s) else s)

/-- GENERATOR_COMMAND (R138). -/
def execGeneratorCommand (o : Outlet) (g : Generator) (s : State) : Host.Outcome State Fault Refusal :=
  .next (if domainRuns s then settle (commandGen o g s) else s)

/-! ### Matching (R143) -/

/-- A step of the running match of an outlet, at one of the given steps and with the run's identifier. -/
def matchStep (o : Outlet) (steps : List Nat) (runId : BitVec 64) (f : Matching → State → State) (s : State) :
    Host.Outcome State Fault Refusal :=
  let m := (s.link.get o).matching
  .next (if up s ∧ m.step ∈ steps ∧ m.runId = some runId then f m s else s)

/-- Put the state of a run. -/
def setMatching (o : Outlet) (m : Matching) (s : State) : State := setLink o (fun l => { l with matching := m }) s

/-- CM_SLAC_PARAM_REQ (R143 step 2). -/
def execCmSlacParamReq (o : Outlet) (runId : BitVec 64) (s : State) : Host.Outcome State Fault Refusal :=
  let m := (s.link.get o).matching
  .next (
    if up s ∧ m.step = 1 then
      emit (.slac o (transmitPsd s o) (.paramCnf runId)) (count o (fun c => { c with runs := c.runs + 1 })
        (setLink o (fun l => { l with link := 1, matching := { noRun m.retries with step := 2, runId := some runId } }) s))
    else s)

/-- CM_START_ATTEN_CHAR_IND (R143 step 3): repeats are ignored. -/
def execCmStartAttenCharInd (o : Outlet) (runId : BitVec 64) (s : State) : Host.Outcome State Fault Refusal :=
  matchStep o [2] runId (fun m => setMatching o { m with step := 3, mnbc := true }) s

/-- Carrier groups. -/
def carrierGroups : Nat := 58

/-- CM_MNBC_SOUND_IND (R143 step 4): at most 10 sounds count. -/
def execCmMnbcSoundInd (o : Outlet) (runId : BitVec 64) (att : List Nat) (s : State) : Host.Outcome State Fault Refusal :=
  matchStep o [3, 4] runId (fun m =>
    if m.sounds < 10 then
      setMatching o { m with
        step := 4, sounds := m.sounds + 1
        sums := (List.range carrierGroups).map (fun i => m.sums.getD i 0 + att.getD i 0) }
    else id) s

/-- Mean attenuation of each group with the offset, limited to 0 to 255 dB. -/
def groupMeans (s : State) (o : Outlet) (m : Matching) : List Nat :=
  let offset := cfgI s 0x0501 o.val 10 1 0
  m.sums.map (fun (x : Nat) => (clamp 0 255 (openRound ((x : Rat) / m.sounds) + offset)).toNat)

/-- CM_ATTEN_CHAR_IND (R143 step 5): at the tenth sound or the end of TT_EVSE_match_MNBC. Without a sound matching fails. -/
def execCmAttenCharInd (o : Outlet) (s : State) : Host.Outcome State Fault Refusal :=
  let m := (s.link.get o).matching
  .next (
    if up s ∧ (m.step = 3 ∨ m.step = 4) then
      if m.sounds = 0 then settle (failMatching o false s)
      else
        let g := groupMeans s o m
        emit (.slac o (transmitPsd s o) (.attenCharInd (m.runId.getD 0) m.sounds g))
          (setLink o (fun l => { l with
            meanAtten := (openRound ((sumNat g : Rat) / carrierGroups)).toNat, matching := { m with step := 5 } }) s)
    else s)

/-- CM_ATTEN_CHAR_RSP (R143 step 6). -/
def execCmAttenCharRsp (o : Outlet) (runId : BitVec 64) (s : State) : Host.Outcome State Fault Refusal :=
  matchStep o [5] runId (fun m => setMatching o { m with step := 6 }) s

/-- Result code for validation not required. PRESUMED (log entry 22): the manual gives no number. -/
def notRequired : Nat := 4

/-- CM_VALIDATE_REQ (R143 step 6). -/
def execCmValidateReq (o : Outlet) (runId : BitVec 64) (s : State) : Host.Outcome State Fault Refusal :=
  matchStep o [6] runId (fun _ => emit (.slac o (transmitPsd s o) (.validateCnf notRequired))) s

/-- CM_SLAC_MATCH_REQ (R143 step 7). The network identifier is open: no rule says how it is formed. -/
def execCmSlacMatchReq (o : Outlet) (runId : BitVec 64) (s : State) : Host.Outcome State Fault Refusal :=
  matchStep o [6] runId (fun m s =>
    draw (emit (.slac o (transmitPsd s o) (.matchCnf runId (s.link.get o).nmk (Config.free56 s.freeCount)))
      (setMatching o { m with step := 7 } s))) s

/-- The link of an outlet is up, and the CommunicationSetup timer runs (R153). -/
def linkUp (o : Outlet) (s : State) : State :=
  setLink o (fun l => { l with
    link := 2, matching := noRun l.matching.retries, timers := { l.timers with commSetup := true } }) s

/-- VEHICLE_JOINED (R143 step 8). -/
def execVehicleJoined (o : Outlet) (s : State) : Host.Outcome State Fault Refusal :=
  .next (if up s ∧ (s.link.get o).matching.step = 7 then linkUp o s else s)

/-- T1S_FIRST_FRAME (R145): the first frame at 5 % duty brings the link up; a second source is dropped and counted. -/
def execT1sFirstFrame (o : Outlet) (mac : BitVec 48) (s : State) : Host.Outcome State Fault Refusal :=
  let l := s.link.get o
  .next (
    if !up s ∨ outletType s o.val ≠ 2 then s
    else match l.t1sMac with
      | some m => if m = mac then s else count o (fun c => { c with dropped := c.dropped + 1 }) s
      | none =>
        if l.gen = .duty 50 ∧ pilotBcd s o then linkUp o (setLink o (fun l => { l with t1sMac := some mac }) s) else s)

/-- The MAC address of an outlet's modem or PHY: the base of OTP, first octet most significant, plus 2 + n (R510). -/
def outletMac (s : State) (o : Outlet) : BitVec 48 := BitVec.ofNat 48 (leNat (s.otp.macBase.reverse) + 2 + o.val)

/-- The link-local address formed from a MAC address (R146): fe80::/64 with the modified EUI-64 of the address (PRESUMED, log
entry 22). -/
def linkLocal (mac : BitVec 48) : BitVec 128 :=
  let m := mac.toNat
  BitVec.ofNat 128 (0xFE80 * 2 ^ 112 + (m / 2 ^ 24) * 2 ^ 40 + 0xFFFE * 2 ^ 24 + m % 2 ^ 24) ^^^ BitVec.ofNat 128 (2 ^ 57)

/-- NEIGHBOUR_DISCOVERY (R146). -/
def execNeighbourDiscovery (o : Outlet) (echo : Bool) (s : State) : Host.Outcome State Fault Refusal :=
  .next (if up s ∧ (s.link.get o).link = 2 then emit (.neighbour o (linkLocal (outletMac s o)) echo) s else s)

/-! ### SDP, TCP, TLS (R147, R148, R151, R152) -/

/-- A protocol is enabled on the outlet. -/
def enabled (s : State) (o : Outlet) (p : Protocol) : Bool :=
  (protocolMask s o).testBit (match p with | .din => 0 | .iso2 => 1 | .iso20 => 2)

/-- The security byte of the SDP response; none for a byte that the table does not name. -/
def sdpSecurity (s : State) (o : Outlet) (ask : Nat) : Option Nat :=
  if ask ≠ 0 ∧ ask ≠ 0x10 then none
  else if enabled s o .iso20 then some (if ask = 0 ∨ tlsSetting s o = 2 then 0 else 0x10)
  else if enabled s o .iso2 then
    some (match tlsSetting s o with
      | 0 => 0x10
      | 1 => ask
      | _ => 0)
  else some 0x10

/-- The TCP port of the session: chosen at random, once (R147). -/
def sessionPort (o : Outlet) (s : State) : Nat :=
  if (s.link.get o).tcpPort = 0 then 49152 + (Config.free16 s.freeCount).toNat % 16384 else (s.link.get o).tcpPort

/-- SDP_REQUEST (R147): the transport byte 0 stands for TCP. -/
def execSdpRequest (o : Outlet) (security : Nat) (s : State) : Host.Outcome State Fault Refusal :=
  .next (
    match sdpSecurity s o security with
    | some b =>
      if up s ∧ (s.link.get o).link = 2 then
        let port := sessionPort o s
        draw (emit (.sdp o (linkLocal (outletMac s o)) port b 0) (setLink o (fun l => { l with
          security := b, tcpPort := port, timers := { l.timers with tcpWait := true } }) s))
      else s
    | none => s)

/-- TCP_CONNECT (R147): one connection at a time. -/
def execTcpConnect (o : Outlet) (s : State) : Host.Outcome State Fault Refusal :=
  let l := s.link.get o
  .next (
    if !up s ∨ l.link ≠ 2 ∨ l.tcpPort = 0 then s
    else if l.tcpOpen then emit (.tcpReset o) s
    else setLink o (fun l => { l with
      tcpOpen := true, tls := 0, protocol := none, timers := { l.timers with tcpWait := false } }) s)

/-- TCP_CLOSE (R153). -/
def execTcpClose (o : Outlet) (s : State) : Host.Outcome State Fault Refusal :=
  .next (
    if up s ∧ (s.link.get o).tcpOpen then settle (linkCause o 15 (setLink o dropConnection s)) else s)

/-- V2GTP_INVALID (R148). -/
def execV2gtpInvalid (o : Outlet) (s : State) : Host.Outcome State Fault Refusal :=
  .next (if up s then settle (loseTcp o s) else s)

/-- The TLS version that a handshake settles on: 1 = 1.2, 2 = 1.3 (R151). -/
def tlsVersion (s : State) (o : Outlet) (t : TlsOffer) : Option Nat :=
  if t.tls13 ∧ enabled s o .iso20 then some 2
  else if t.tls12 ∧ enabled s o .iso2 ∧ tlsSetting s o ≠ 0 then some 1
  else none

/-- The certificates of a server chain: each is preceded by its length (R162). -/
def chainCerts : Nat → List Byte → List (List Byte)
  | 0, _ => []
  | n + 1, b => slice b 2 (fieldN b 0 2) :: chainCerts n (b.drop (2 + fieldN b 0 2))

/-- The server has what it needs: the key of the session/TLS class in the Cistern and a chain in force that meets R152. -/
def serverReady (s : State) : Bool :=
  s.cis.tls.isSome &&
    (serverChain s).any (fun r => chainValid s (v2gRoots s.cfg.recs) (chainCerts (fieldN r.body 0 1) (r.body.drop 4)))

/-- The vehicle certificate does not fail: it is not asked for under TLS 1.2, and a session with none proceeds. -/
def vehicleCertOk (s : State) (version : Nat) (cert : Option (List (List Byte))) : Bool :=
  version == 1 || cert.all (fun c => chainValid s (v2gRoots s.cfg.recs) c)

/-- The handshake succeeds, once on a connection: renegotiation is not supported (R151). -/
def tlsPasses (s : State) (o : Outlet) (t : TlsOffer) : Option Nat :=
  let l := s.link.get o
  (tlsVersion s o t).filter (fun v => t.params && vehicleCertOk s v t.cert && serverReady s && l.security == 0 && l.tls == 0 &&
    l.protocol.isNone)

/-- TLS_HANDSHAKE (R151, R152). -/
def execTlsHandshake (o : Outlet) (t : TlsOffer) (s : State) : Host.Outcome State Fault Refusal :=
  .next (
    if !up s ∨ !(s.link.get o).tcpOpen then s
    else match tlsPasses s o t with
      | some v => setLink o (fun l => { l with tls := v, certUnchecked := !s.sun.utcValid }) s
      | none =>
        settle (loseTcp o (emit (.tlsAlert o t.alert) (log 7 0x05 0x0502 ([byte o.val, byte t.alert] ++ zeros 14) false
          (count o (fun c => { c with tlsFails := c.tlsFails + 1 }) s)))))

/-! ### Protocol timers (R153) -/

/-- A timer expires: row of R153, entry 0x0504, and what follows. -/
def expireTo (o : Outlet) (row : Nat) (runs : Timers → Bool) (stop : Timers → Timers) (follow : State → State) (s : State) :
    Host.Outcome State Fault Refusal :=
  .next (
    if up s ∧ runs (s.link.get o).timers then
      settle (follow (log 7 0x05 0x0504 ([byte o.val, byte row] ++ zeros 14) false
        (count o (fun c => { c with timers := c.timers + 1 })
          (setLink o (fun l => { l with timers := stop l.timers }) s))))
    else s)

/-- A timer expires with cause 13. -/
def expire (o : Outlet) (row : Nat) (runs : Timers → Bool) (stop : Timers → Timers) (s : State) :
    Host.Outcome State Fault Refusal := expireTo o row runs stop (linkCause o 13) s

/-- V2G_SECC_SEQUENCE_TIMEOUT (R153). -/
def execV2gSeccSequenceTimeout (o : Outlet) (s : State) : Host.Outcome State Fault Refusal :=
  expire o 1 (fun t => t.sequence) (fun t => { t with sequence := false }) s

/-- COMMUNICATIONSETUP_TIMEOUT (R153). A type 4 outlet changes to PWM-only operation in place of cause 13 (R171; DEDUCED, log
entry 44). -/
def execCommunicationsetupTimeout (o : Outlet) (s : State) : Host.Outcome State Fault Refusal :=
  if outletType s o.val = 4 then
    expireTo o 2 (fun t => t.commSetup) (fun t => { t with commSetup := false }) (pwmOnlyFrom o) s
  else expire o 2 (fun t => t.commSetup) (fun t => { t with commSetup := false }) s

/-- READYTOCHARGE_TIMEOUT (R153). -/
def execReadytochargeTimeout (o : Outlet) (s : State) : Host.Outcome State Fault Refusal :=
  expire o 3 (fun t => t.ready) (fun t => { t with ready := false }) s

/-- CPSTATE_DETECTION_TIMEOUT (R153). -/
def execCpstateDetectionTimeout (o : Outlet) (s : State) : Host.Outcome State Fault Refusal :=
  expire o 4 (fun t => t.cpState) (fun t => { t with cpState := false }) s

/-- TCP_CONNECTION_WAIT_TIMEOUT (R153). -/
def execTcpConnectionWaitTimeout (o : Outlet) (s : State) : Host.Outcome State Fault Refusal :=
  expire o 5 (fun t => t.tcpWait) (fun t => { t with tcpWait := false }) s

/-- RESPONSE_TIMEOUT (R153, R155): an answer that comes later is discarded. -/
def execResponseTimeout (o : Outlet) (loop : Bool) (s : State) : Host.Outcome State Fault Refusal :=
  if loop then expire o 6 (fun t => t.respLoop) (fun t => { t with respLoop := false }) s
  else
    expire o 7 (fun t => t.respOther) (fun t => { t with respOther := false })
      (if up s ∧ (s.link.get o).timers.respOther then setLink o (fun l => { l with heldLate := true }) s else s)

/-! ### The standing reply (R154, R157) -/

/-- STANDING_REPLY_WRITE (R154). -/
def execStandingReplyWrite (o : Outlet) (f : StandingFields) (s : State) : Host.Outcome State Fault Refusal :=
  .next (if domainRuns s then writeReply o f s else s)

/-- The validity of an outlet's standing reply passes (R157): an AC PWM outlet's PWM stops. -/
def expireReply (o : Outlet) (s : State) : State :=
  let t := setLink o (fun l => { l with replyOver := true }) s
  if dutyOutlet t o then commandGen o .static12 t else t

/-- STANDING_REPLY_EXPIRY (R157). -/
def execStandingReplyExpiry (o : Outlet) (s : State) : Host.Outcome State Fault Refusal :=
  .next (if up s ∧ (sessOf s o).state.running then settle (expireReply o s) else s)

/-- At a dial cycle boundary: the reply of a session that its domain has not renewed in time lapses. -/
def replyBoundary (o : Outlet) (s : State) : State :=
  if (sessOf s o).state.running && replyLapsed s o && !(s.link.get o).replyOver then expireReply o s else s

/-! ### Opcodes (R163) -/

/-- The duty of a generator output, 0.1 %. -/
def dutyOf : Generator → Nat
  | .duty d => d
  | _ => 0

/-- Code of a pilot state. -/
def pilotCode : PilotState → Nat
  | .a => 0
  | .b => 1
  | .c => 2
  | .d => 3
  | .e => 4
  | .f => 5
  | .invalid => 6

/-- The 16 bytes of an outlet in opcode 0x0501. The pilot state is open while none is recognised. -/
def linkBytes (s : State) (o : Outlet) : List Byte :=
  let l := s.link.get o
  l.pilot.elim (openField 1 s) (fun p => [byte (pilotCode p)]) ++ leBytes 2 (dutyOf l.gen) ++
    [byte (cableRating s o), byte l.link, byte (protocolCode l.protocol), byte l.tls,
      byte (flags [l.diodeFault, l.matchFail, l.certUnchecked]), byte l.meanAtten, byte l.matching.retries] ++ zeros 6

/-- LINK_STATUS (R163). -/
def execLinkStatus (r : Request) (s : State) : Host.Outcome State Fault Refusal :=
  .next (hostRequest (opNone 0x0501 [clsN, clsH]) r (fun s => reply (outlets.flatMap (linkBytes s)) (draw s)) s)

/-- LINK_COUNTERS (R163). -/
def execLinkCounters (r : Request) (s : State) : Host.Outcome State Fault Refusal :=
  .next (hostRequest (opLen 0x0502 [clsN, clsB] 4) r
    (guarded [need (fieldN r.payload 0 1 < 4) St.range, reservedOk r.payload 1 3]
      (fun s =>
        let c := (s.link.get (Fin.ofNat 4 (fieldN r.payload 0 1))).counters
        reply ([c.runs, c.failures, c.tlsFails, c.timers, c.invalid, c.dropped].flatMap (leBytes 4)) s)) s)

/-- The output of a pilot test. -/
def testGen (mode value : Nat) : Generator :=
  if mode = 1 then .duty value else if value = 0 then .static12 else if value = 1 then .zero else .stateF

/-- The generator carries a test level or duty. -/
def startPilotTest (o : Outlet) (g : Generator) (s : State) : State :=
  queueGen o g (setLink o (fun l => { l with test := true }) s)

/-- PILOT_TEST (R163). -/
def execPilotTest (r : Request) (s : State) : Host.Outcome State Fault Refusal :=
  let p := r.payload
  let o : Outlet := Fin.ofNat 4 (fieldN p 0 1)
  let mode := fieldN p 1 1
  let value := fieldN p 2 2
  .next (hostRequest (opLen 0x0503 [clsN] 8) r
    (fun s => guarded
      [ need (fieldN p 0 1 < 4) St.range, need (mode < 2) St.range
      , need (if mode = 0 then value < 3 else decide (50 ≤ value ∧ value ≤ 960)) St.range
      , need (fieldN p 4 2 ≠ 0) St.lenZero, need (fieldN p 4 2 ≤ 60) St.range, reservedOk p 6 2
      , need (inService s ∧ (sessOf s o).state = .s0) St.refusedState ]
      (fun s => done (settle (startPilotTest o (testGen mode value) s))) s) s)

/-- PILOT_TEST_END (R163). -/
def execPilotTestEnd (o : Outlet) (s : State) : Host.Outcome State Fault Refusal :=
  .next (settle (endPilotTest o s))

end Sys2Proof.Machine
end

