-- ==== Sys2Proof/Machine/V2g.lean ====
section
/-! DEFINITION. The messages of the vehicle link (R148 to R150, R155, R157, R177, R178, R181, R182, R184): what each does to the
session, and the answers that the manual fixes. A request whose answer it leaves to the domain is held (R155). -/

namespace Sys2Proof.Machine

/-! ### Messages by their row of R149; 0 is supportedAppProtocol -/

namespace Msg
def supportedAppProtocol : Nat := 0
def sessionSetup : Nat := 1
def serviceDiscovery : Nat := 2
def sessionStop : Nat := 3
def serviceDetail : Nat := 4
def paymentServiceSelection : Nat := 5
def paymentDetails : Nat := 6
def authorizationSetup : Nat := 7
def authorization : Nat := 8
def chargeParameterDiscovery : Nat := 9
def scheduleExchange : Nat := 10
def cableCheck : Nat := 11
def preCharge : Nat := 12
def weldingDetection : Nat := 13
def powerDelivery : Nat := 14
def currentDemand : Nat := 15
def chargingStatus : Nat := 16
def meteringReceipt : Nat := 17
def certificateInstallation : Nat := 18
def certificateUpdate : Nat := 19
def unsupported : Nat := 20
end Msg

/-! ### Response codes of `V2gRes` -/

namespace Res
def ok : Nat := 0
def failed : Nat := 1
def sequenceError : Nat := 2
def certificateError : Nat := 3
def paymentInvalid : Nat := 4
def noNegotiation : Nat := 5
end Res

/-! ### Requests and responses (R153, R155) -/

/-- A response goes out: the response timer stops and the sequence timer starts. -/
def respondWith (o : Outlet) (r : V2gRes) (s : State) : State :=
  emit (.v2g o r) (setLink o (fun l => { l with
    held := none, heldLate := false, timers := { l.timers with respOther := false, respLoop := false, sequence := true } }) s)

/-- A response without a meter signature. -/
def respond (o : Outlet) (msg code : Nat) (ongoing : Bool) (notification : Nat) (values : List Int) (s : State) : State :=
  respondWith o { msg, code, ongoing, notification, values, signature := none } s

/-- A plain answer. -/
def answer (o : Outlet) (msg code : Nat) (values : List Int) (s : State) : State := respond o msg code false 0 values s

/-- VLn holds a request until the domain answers, with the response timer running. -/
def hold (o : Outlet) (msg : Nat) (s : State) : State :=
  setLink o (fun l => { l with held := some msg, heldLate := false, timers := { l.timers with respOther := true } }) s

/-- A request on an open connection: the sequence timer stops. A message that the negotiated protocol does not define closes
the connection (R149). While no domain is at work, `alone` is what VLn does by itself (R156). -/
def onRequest (o : Outlet) (defined : Protocol → Bool) (alone act : Protocol → State → State) (s : State) :
    Host.Outcome State Fault Refusal :=
  let l := s.link.get o
  .next (
    if !up s ∨ !l.tcpOpen then s
    else
      let t := setLink o (fun l => { l with timers := { l.timers with sequence := false } }) s
      match l.protocol with
      | none => settle (loseTcp o t)
      | some p => if !defined p then settle (loseTcp o t) else if domainRuns s then settle (act p t) else alone p t)

/-- A request that the domain decides: without one VLn holds it (R155, R156). -/
def onMessage (o : Outlet) (msg : Nat) (defined : Protocol → Bool) (act : Protocol → State → State) (s : State) :
    Host.Outcome State Fault Refusal := onRequest o defined (fun _ => hold o msg) act s

/-- A loop message: the response timer of class H runs until the answer, which VLn gives by itself (R153 to R157). -/
def onLoop (o : Outlet) (defined : Protocol → Bool) (answer : Protocol → State → State) (follow : State → State) (s : State) :
    Host.Outcome State Fault Refusal :=
  let start (t : State) : State := setLink o (fun l => { l with timers := { l.timers with respLoop := true } }) t
  onRequest o defined (fun p t => answer p (start t)) (fun p t => answer p (follow (start t))) s

/-- Protocols of a row of R149. -/
def anyProtocol (_ : Protocol) : Bool := true
def isoOnly (p : Protocol) : Bool := p ≠ .din
def iso2Only (p : Protocol) : Bool := p = .iso2
def iso20Only (p : Protocol) : Bool := p = .iso20

/-- A DC message on a DC outlet; an outlet uses no message of the other current kind (R134). -/
def dcOnly (s : State) (o : Outlet) (_ : Protocol) : Bool := isDc s o.val
def acIso (s : State) (o : Outlet) (p : Protocol) : Bool := isAc s o.val && p ≠ .din

/-! ### Protocol selection (R148) -/

/-- Major and minor version of the table of R148. -/
def majorOf : Protocol → Nat
  | .iso20 => 1
  | _ => 2
def minorOf : Protocol → Nat := fun _ => 0

/-- The TLS state allows the protocol. -/
def tlsAllows (tls : Nat) (p : Protocol) : Bool :=
  match p with
  | .iso20 => tls = 2
  | .iso2 => tls ≠ 2
  | .din => tls = 0

/-- Offers that take part. -/
def offersTaken (s : State) (o : Outlet) (l : List AppOffer) : List AppOffer :=
  l.filter (fun a => enabled s o a.protocol && a.major == majorOf a.protocol && tlsAllows (s.link.get o).tls a.protocol &&
    (a.protocol != .iso20 || a.ac == isAc s o.val))

/-- Rank of a protocol under selection code 1: the newest first. -/
def newness : Protocol → Nat
  | .iso20 => 0
  | .iso2 => 1
  | .din => 2

/-- One offer goes before another; 1 is the vehicle's highest priority. -/
def offerBefore (bySelf : Bool) (a b : AppOffer) : Bool :=
  if bySelf && newness a.protocol != newness b.protocol then newness a.protocol < newness b.protocol
  else a.priority < b.priority

/-- The offer chosen. -/
def chooseOffer (bySelf : Bool) (l : List AppOffer) : Option AppOffer :=
  l.foldl (fun best a => match best with
    | none => some a
    | some b => if offerBefore bySelf a b then some a else some b) none

/-- SUPPORTED_APP_PROTOCOL (R148). The answer carries the schema and whether the minor version deviates. -/
def execSupportedAppProtocol (o : Outlet) (offers : List AppOffer) (s : State) : Host.Outcome State Fault Refusal :=
  let l := s.link.get o
  .next (
    if !up s ∨ !l.tcpOpen then s
    else if l.protocol.isSome then settle (loseTcp o s)
    else match chooseOffer (linkField s o 2 0 == 1) (offersTaken s o offers) with
      | none => settle (loseTcp o (answer o Msg.supportedAppProtocol Res.noNegotiation [] s))
      | some a =>
        answer o Msg.supportedAppProtocol Res.ok [a.schema, flag (a.minor != minorOf a.protocol)]
          (setLink o (fun l => { l with protocol := some a.protocol })
            (log 7 0x05 0x0503 ([byte o.val, byte (protocolCode (some a.protocol)), byte a.minor, byte l.tls] ++ zeros 12)
              false s)))

/-! ### Identification (R173, R177, R178) -/

/-- The vehicle presents a credential while its outlet waits for identification. -/
def vehicleCredential (o : Outlet) (kind : Nat) (ident : List Byte) (s : State) : State :=
  if identifying s o then presentCredential o { kind, ident, hash := credentialHash kind ident, port := 0xFF } s else s

/-- SESSION_SETUP (R149, R153, R174): an EVCCID is looked up where its option is set. -/
def execSessionSetup (o : Outlet) (evccid : List Byte) (s : State) : Host.Outcome State Fault Refusal :=
  onMessage o Msg.sessionSetup anyProtocol (fun _ s =>
    let t := setLink o (fun l => { l with timers := { l.timers with commSetup := false, ready := true } }) s
    let t := answer o Msg.sessionSetup Res.ok [] t
    if identOption t o 0 ∧ evccid.length = 6 then vehicleCredential o 3 evccid t else t) s

/-- The export limit in force: that of the master's record 0x0602 (R197). -/
def exportLimit (s : State) : Int :=
  if s.trellis.role = 1 ∨ s.trellis.role = 2 then s.trellis.siteState.elim 0 (fun x => x.2.2)
  else cfgN s 0x0602 0 24 4 0

/-- BPT is offered (R102, R197): the import, export and absolute registers of both points are in signed mode. -/
def bptOffered (s : State) (o : Outlet) : Bool :=
  [0, 1, 3, 4, 5, 7].all (fun (i : Nat) => !absolute s (8 * o.val + i)) && (linkField s o 5 6).testBit 0 &&
    decide (0 < exportLimit s)

/-- Codes of the services: 0 DC, 1 DC_BPT, 2 AC, 3 AC_BPT. -/
def serviceCode : EnergyService → Nat
  | .dc => 0
  | .dcBpt => 1
  | .ac => 2
  | .acBpt => 3

/-- The services that an outlet offers under a protocol. -/
def servicesOf (s : State) (o : Outlet) (p : Protocol) : List EnergyService :=
  let bpt := p = .iso20 && bptOffered s o
  if isDc s o.val then (if bpt then [.dc, .dcBpt] else [.dc]) else (if bpt then [.ac, .acBpt] else [.ac])

/-- SERVICE_DISCOVERY (R149, R150). -/
def execServiceDiscovery (o : Outlet) (s : State) : Host.Outcome State Fault Refusal :=
  onMessage o Msg.serviceDiscovery anyProtocol (fun p s =>
    answer o Msg.serviceDiscovery Res.ok ((servicesOf s o p).map (fun x => (serviceCode x : Int))) s) s

/-- SERVICE_DETAIL (R149): the certificate service under ISO 15118-2, energy services under ISO 15118-20. -/
def execServiceDetail (o : Outlet) (certificateService : Bool) (s : State) : Host.Outcome State Fault Refusal :=
  onMessage o Msg.serviceDetail isoOnly (fun p s =>
    answer o Msg.serviceDetail (if certificateService = (p == .iso2) then Res.ok else Res.failed) [] s) s

/-- The payment selection is supported and enabled (R150). -/
def paymentAllowed (s : State) (o : Outlet) (p : Protocol) (contract : Bool) : Bool :=
  if contract then
    (linkField s o 4 3).testBit 1 && (p = .iso20 || (p = .iso2 && (s.link.get o).tls != 0))
  else (linkField s o 4 3).testBit 0

/-- The service selection and control mode are supported and enabled. -/
def serviceAllowed (s : State) (o : Outlet) (p : Protocol) (x : EnergyService) (dynamic : Bool) : Bool :=
  decide (x ∈ servicesOf s o p) && (p ≠ .iso20 || (linkField s o 5 6).testBit (if dynamic then 1 else 2))

/-- PAYMENT_SERVICE_SELECTION (R150). -/
def execPaymentServiceSelection (o : Outlet) (contract : Bool) (service : EnergyService) (dynamic : Bool) (s : State) :
    Host.Outcome State Fault Refusal :=
  onMessage o Msg.paymentServiceSelection anyProtocol (fun p s =>
    if !paymentAllowed s o p contract then answer o Msg.paymentServiceSelection Res.paymentInvalid [] s
    else if !serviceAllowed s o p service dynamic then answer o Msg.paymentServiceSelection Res.failed [] s
    else
      answer o Msg.paymentServiceSelection Res.ok [] (setSess o (fun x => { x with
        bpt := service = .dcBpt || service = .acBpt, dynamic := p = .iso20 && dynamic }) s)) s

/-- An EMAID as it is hashed: upper case, hyphens removed (R173). -/
def emaidOf (b : List Byte) : List Byte :=
  (b.filter (fun c => c != 0x2D)).map (fun c => if 0x61 ≤ c.toNat ∧ c.toNat ≤ 0x7A then c - 32 else c)

/-- The contract chain verifies to a mobility-operator root (R152, R177). -/
def contractOk (s : State) (c : Contract) : Bool := chainValid s (rootsOf 1 s.cfg.recs) c.chain

/-- A contract whose validity periods cannot be checked is reported as such (R152). -/
def noteUnchecked (o : Outlet) (s : State) : State :=
  if s.sun.utcValid then s else setLink o (fun l => { l with certUnchecked := true }) s

/-- A contract credential (R177): a chain that fails is refused before any lookup. -/
def presentContract (o : Outlet) (c : Contract) (s : State) : State :=
  let ident := emaidOf c.emaid
  let cred : Credential := { kind := 2, ident, hash := credentialHash 2 ident, port := 0xFF }
  if !identifying s o ∨ ident.length = 0 ∨ 32 < ident.length then s
  else if contractOk s c then presentCredential o cred s
  else if (sessOf s o).query = .pending then presentCredential o cred s
  else decide' o 5 0 false ⟨0, 0⟩ (setSess o (fun x => { x with cred := some cred }) s)

/-- A contract whose presentation is refused is answered with the refusal before the connection closes (R169, R177). -/
def contractAnswer (o : Outlet) (msg : Nat) (c : Contract) (s : State) (other : State → State) : State :=
  let s := noteUnchecked o s
  if (sessOf (presentContract o c s) o).auth = 3 then
    presentContract o c (answer o msg (if contractOk s c then Res.failed else Res.certificateError) [] s)
  else other (presentContract o c s)

/-- PAYMENT_DETAILS (R149, R177): the contract of ISO 15118-2. The domain answers. -/
def execPaymentDetails (o : Outlet) (c : Contract) (s : State) : Host.Outcome State Fault Refusal :=
  onMessage o Msg.paymentDetails iso2Only (fun _ s => contractAnswer o Msg.paymentDetails c s (hold o Msg.paymentDetails)) s

/-- AUTHORIZATION_SETUP (R149): the domain answers. -/
def execAuthorizationSetup (o : Outlet) (s : State) : Host.Outcome State Fault Refusal :=
  onMessage o Msg.authorizationSetup iso20Only (fun _ s => hold o Msg.authorizationSetup s) s

/-- The answer to Authorization as the decision stands (R178). -/
def authorizationAnswer (o : Outlet) (s : State) : State :=
  match (sessOf s o).auth with
  | 1 => respond o Msg.authorization Res.ok true 0 [] s
  | 2 => answer o Msg.authorization Res.ok [] s
  | 3 => answer o Msg.authorization Res.failed [] s
  | _ => hold o Msg.authorization s

/-- AUTHORIZATION (R177, R178). -/
def execAuthorization (o : Outlet) (c : Option Contract) (s : State) : Host.Outcome State Fault Refusal :=
  onMessage o Msg.authorization anyProtocol (fun p s =>
    match c with
    | some c => if p = .iso20 then contractAnswer o Msg.authorization c s (authorizationAnswer o) else authorizationAnswer o s
    | none => authorizationAnswer o s) s

/-! ### Parameters and schedules (R183, R191, R198) -/

/-- CHARGE_PARAMETER_DISCOVERY (R191, R198). The outlet's limits, and the schedule under ISO 15118-2. -/
def execChargeParameterDiscovery (o : Outlet) (p : EvParams) (s : State) : Host.Outcome State Fault Refusal :=
  onMessage o Msg.chargeParameterDiscovery anyProtocol (fun pr s =>
    let a := (sessOf s o).alloc
    let t := setSess o (fun x => { x with
      ev := { p with targetCurrent := if p.targetCurrent = 0 then p.maxCurrent else p.targetCurrent }
      offered := if pr = .iso2 then some a else x.offered }) s
    let t := setSess o (watchSchedule s) t
    let limits : List Int :=
      if isDc s o.val then [(ratedVoltage s o : Int), ratedCurrent s o, ratedPower s o] else [(acCurrent s o : Int)]
    answer o Msg.chargeParameterDiscovery Res.ok (limits ++ if pr = .iso2 then [a, 86400] else []) t) s

/-- SCHEDULE_EXCHANGE (R198): one entry, the allocation in force, in Scheduled mode. -/
def execScheduleExchange (o : Outlet) (dynamic : Bool) (s : State) : Host.Outcome State Fault Refusal :=
  onMessage o Msg.scheduleExchange iso20Only (fun _ s =>
    let a := (sessOf s o).alloc
    if dynamic then answer o Msg.scheduleExchange Res.ok [] s
    else answer o Msg.scheduleExchange Res.ok [a, 86400] (setSess o (fun x => watchSchedule s { x with offered := some a }) s)) s

/-! ### The DC path (R181, R182, R184) -/

/-- CABLE_CHECK (R169, R181). -/
def execCableCheck (o : Outlet) (s : State) : Host.Outcome State Fault Refusal :=
  onMessage o Msg.cableCheck (dcOnly s o) (fun _ s =>
    let x := sessOf s o
    if x.state = .s3 then enterS4 o (respond o Msg.cableCheck Res.ok true 0 [] s)
    else if x.state = .s4 then
      if x.checkDone then
        answer o Msg.cableCheck Res.ok [flag ((s.hedge.out.get o).imd.status == .warning)] s
      else respond o Msg.cableCheck Res.ok true 0 [] s
    else hold o Msg.cableCheck s) s

/-- CABLE_CHECK_FINISHED (R181): OnV has been within ±5 % and the insulation result has stood for 1 s. -/
def execCableCheckFinished (o : Outlet) (s : State) : Host.Outcome State Fault Refusal :=
  let x := sessOf s o
  let status := (s.hedge.out.get o).imd.status
  .next (
    if domainRuns s ∧ x.state = .s4 ∧ x.setpoint.mode = 1 ∧ (status = .valid ∨ status = .warning) then
      settle (setSess o (fun y => { y with checkDone := true }) s)
    else s)

/-- A precharge target is taken, and the setpoint follows it (R182). -/
def precharge (o : Outlet) (targetVoltage : Nat) (s : State) : State :=
  let t := setSess o (fun x => { x with preVoltage := targetVoltage }) s
  putSetpoint o (prechargeSetpoint t o) t

/-- PRE_CHARGE (R169, R182). -/
def execPreCharge (o : Outlet) (targetVoltage : Nat) (s : State) : Host.Outcome State Fault Refusal :=
  onMessage o Msg.preCharge (dcOnly s o) (fun _ s =>
    let x := sessOf s o
    let ok (t : State) : State := answer o Msg.preCharge Res.ok [meanVolts t o] t
    if x.state = .s4 ∧ x.checkDone then ok (precharge o targetVoltage (goTo o .s5 s))
    else if x.state = .s5 then ok (precharge o targetVoltage s)
    else hold o Msg.preCharge s) s

/-- Energy transfer starts: ReadyToCharge stops, CPState detection runs until pilot C or D (R153). -/
def startTransfer (o : Outlet) (s : State) : State :=
  setLink o (fun l => { l with timers := { l.timers with ready := false, cpState := !chargingState l.pilot } })
    (answer o Msg.powerDelivery Res.ok [] s)

/-- POWER_DELIVERY (R169, R170). -/
def execPowerDelivery (o : Outlet) (start : Bool) (s : State) : Host.Outcome State Fault Refusal :=
  onMessage o Msg.powerDelivery anyProtocol (fun _ s =>
    let x := sessOf s o
    if !start then giveCause o 8 (answer o Msg.powerDelivery Res.ok [] s)
    else if isDc s o.val ∧ x.state = .s5 then enterS6 o (startTransfer o s)
    else if isAc s o.val ∧ x.state = .s3 then setSess o (fun y => { y with started := true }) (startTransfer o s)
    else if x.state = .s6 then answer o Msg.powerDelivery Res.ok [] s
    else hold o Msg.powerDelivery s) s

/-! ### Loop messages (R154, R155, R157) -/

/-- Present voltage and current: the domain's values, or the converter's report once they are older than a cycle. -/
def presentValues (s : State) (o : Outlet) : List Int :=
  let v := s.energy.values
  let c := s.sess.conv.get o
  if (s.sun.cycle - v.cycle).toNat ≤ 1 then [v.outlets.getD (4 * o.val) 0, v.outlets.getD (4 * o.val + 1) 0]
  else [(c.voltage : Int), c.current]

/-- The legal value of an outlet's meter-point import register (R111, R150). -/
def legalImport (s : State) (o : Outlet) : Int := committedValue s (8 * o.val) % 1000000000000

/-- The meter signature over that value, where the protocol carries one: ISO 15118-2 and ISO 15118-20 (R150). The bytes signed
are those of the standard's meter information; the model signs the value (log entry 44). -/
def meterSignature (s : State) (o : Outlet) (p : Protocol) : Option (BitVec 512) :=
  if p = .din then none else some (metrologySign s (leInt 8 (legalImport s o)))

/-- The answer to a loop message: present values, limits, flags, the legal meter value, and whether EVSE_Shutdown is shown. Once
the validity of the standing reply has passed, it ends the transfer (R157). -/
def loopAnswer (o : Outlet) (msg : Nat) (p : Protocol) (s : State) : State :=
  let lapsed := replyLapsed s o
  let f := (s.link.get o).reply
  signed (respondWith o
    { msg, code := Res.ok, ongoing := false, notification := if lapsed ∧ p = .iso20 then 3 else f.notification
      values := presentValues s o ++ [(f.maxVoltage : Int), if lapsed then 0 else f.maxCurrent, if lapsed then 0 else f.maxPower,
        f.maxDisCurrent, f.maxDisPower, f.flags, legalImport s o, flag (lapsed && p != .iso20)]
      signature := meterSignature s o p } s)

/-- CURRENT_DEMAND (R155, R183): the vehicle's targets, I_set, the answer. -/
def execCurrentDemand (o : Outlet) (targetVoltage targetCurrent _presentVoltage : Nat) (s : State) :
    Host.Outcome State Fault Refusal :=
  onLoop o (dcOnly s o) (loopAnswer o Msg.currentDemand) (fun s =>
    updateSet o (setSess o (fun x => { x with
      ev := { x.ev with targetVoltage := targetVoltage, targetCurrent := targetCurrent } }) s)) s

/-- CHARGING_STATUS (R155). -/
def execChargingStatus (o : Outlet) (s : State) : Host.Outcome State Fault Refusal :=
  onLoop o (acIso s o) (loopAnswer o Msg.chargingStatus) (updateSet o) s

/-- WELDING_DETECTION (R184): the present OnV. -/
def execWeldingDetection (o : Outlet) (s : State) : Host.Outcome State Fault Refusal :=
  onMessage o Msg.weldingDetection (dcOnly s o) (fun _ s =>
    let x := (sessOf s o).state
    if x = .s7 ∨ x = .s8 then answer o Msg.weldingDetection Res.ok [meanVolts s o] s else hold o Msg.weldingDetection s) s

/-- METERING_RECEIPT (R150): the legal value with its meter signature. -/
def execMeteringReceipt (o : Outlet) (s : State) : Host.Outcome State Fault Refusal :=
  onMessage o Msg.meteringReceipt isoOnly (fun p s => signed (respondWith o
    { msg := Msg.meteringReceipt, code := Res.ok, ongoing := false, notification := 0, values := [legalImport s o]
      signature := meterSignature s o p } s)) s

/-! ### Other messages (R149, R155) -/

/-- CERTIFICATE_INSTALLATION (R149): the domain answers. -/
def execCertificateInstallation (o : Outlet) (s : State) : Host.Outcome State Fault Refusal :=
  onMessage o Msg.certificateInstallation isoOnly (fun _ s => hold o Msg.certificateInstallation s) s

/-- CERTIFICATE_UPDATE (R149): the domain answers. -/
def execCertificateUpdate (o : Outlet) (s : State) : Host.Outcome State Fault Refusal :=
  onMessage o Msg.certificateUpdate iso2Only (fun _ s => hold o Msg.certificateUpdate s) s

/-- SESSION_STOP (R170). -/
def execSessionStop (o : Outlet) (s : State) : Host.Outcome State Fault Refusal :=
  onMessage o Msg.sessionStop anyProtocol (fun _ s => giveCause o 8 (answer o Msg.sessionStop Res.ok [] s)) s

/-- UNSUPPORTED_MESSAGE (R149): a sequence error under ISO 15118-20, and the session ends with cause 15. -/
def execUnsupportedMessage (o : Outlet) (s : State) : Host.Outcome State Fault Refusal :=
  onMessage o Msg.unsupported iso20Only (fun _ s => loseTcp o (answer o Msg.unsupported Res.sequenceError [] s)) s

/-- DOMAIN_ANSWER (R155): sent, or discarded once the response timer has expired. -/
def execDomainAnswer (o : Outlet) (a : DomainReply) (s : State) : Host.Outcome State Fault Refusal :=
  let l := s.link.get o
  .next (
    if !domainRuns s then s
    else match l.held with
      | none => s
      | some msg =>
        if l.heldLate then setLink o (fun l => { l with held := none, heldLate := false }) s
        else match a with
          | .ok => answer o msg Res.ok [] s
          | .ongoing => respond o msg Res.ok true 0 [] s
          | .failed => answer o msg Res.failed [] s
          | .certificate => answer o msg Res.certificateError [] s)

end Sys2Proof.Machine
end

