-- ==== Sys2Proof/Machine/Authorise.lean ====
section
/-! DEFINITION. The authorisation commands of chapter 07 (R174 to R180, R197, R200, R201): waits, answers, remote authorisation,
stop, Sieve load and status, availability, power target. -/

namespace Sys2Proof.Machine

/-! ### Waits (R171, R175, R176) -/

/-- CARD_WAIT_EXPIRY (R171). -/
def execCardWaitExpiry (o : Outlet) (s : State) : Host.Outcome State Fault Refusal :=
  .next (if domainRuns s ∧ identifying s o then settle (giveCause o 19 s) else s)

/-- HOST_ANSWER_TIMEOUT (R175). -/
def execHostAnswerTimeout (o : Outlet) (s : State) : Host.Outcome State Fault Refusal :=
  .next (if domainRuns s ∧ (sessOf s o).query = .pending then settle (byPolicy o true s) else s)

/-- HELD_CREDENTIAL_EXPIRY (R176). -/
def execHeldCredentialExpiry (s : State) : Host.Outcome State Fault Refusal :=
  .next { s with sess := { s.sess with heldCard := none } }

/-- PRE_AUTHORISATION_EXPIRY (R176). -/
def execPreAuthorisationExpiry (o : Outlet) (s : State) : Host.Outcome State Fault Refusal :=
  .next (setSess o (fun x => { x with preAuth := none }) s)

/-! ### Answers of the host (R175 to R177, R201) -/

/-- The outlet whose session has a number. -/
def outletOf (s : State) (number : Nat) : Option Outlet :=
  outlets.find? (fun o => (sessOf s o).number == number && number != 0)

/-- An answer to an outlet's query: decided once; to an informational one, until the session closes. -/
def takeAnswer (o : Outlet) (origin : Nat) (accept : Bool) (g : Grant) (s : State) : State × Answer :=
  let x := sessOf s o
  match x.query with
  | .pending => done (settle (decide' o 3 origin accept g (setSess o (fun y => { y with query := .answered }) s)))
  | .byPolicy => refuse St.timeout s
  | .answered => refuse St.refusedState s
  | .none =>
    if x.informational then
      done (if accept then s else settle (decide' o 3 origin false g s))
    else refuse St.range s

/-- AUTHORISATION_ANSWER (R175, R177, R201). -/
def execAuthorisationAnswer (r : Request) (s : State) : Host.Outcome State Fault Refusal :=
  let p := r.payload
  .next (hostRequest (opLen 0x0602 [clsH, clsN] 16) r
    (guarded [need (fieldN p 4 1 < 2) St.range, reservedOk p 5 1, need (decide (0 ≤ fieldI p 8 8)) St.range]
      (fun s => match outletOf s (fieldN p 0 4) with
        | some o => takeAnswer o (portOrigin r.port) (fieldN p 4 1 == 0) ⟨fieldN p 6 2, fieldI p 8 8⟩ s
        | none => refuse St.range s)) s)

/-- A remote authorisation: in S2 it decides at once, in S0 and S1 it is held. -/
def takeRemote (o : Outlet) (origin : Nat) (g : Grant) (s : State) : State :=
  if (sessOf s o).state = .s2 then
    settle (decide' o 1 origin true g (setSess o (fun x => { x with
      query := if x.query = .pending then .answered else x.query }) s))
  else setSess o (fun x => { x with preAuth := some g, preOrigin := origin }) s

/-- REMOTE_AUTHORISE (R176, R201). -/
def execRemoteAuthorise (r : Request) (s : State) : Host.Outcome State Fault Refusal :=
  let p := r.payload
  let o : Outlet := Fin.ofNat 4 (fieldN p 0 1)
  .next (hostRequest (opLen 0x0603 [clsN] 12) r
    (fun s => guarded
      [ need (fieldN p 0 1 < 4) St.range, reservedOk p 1 1, need (decide (0 ≤ fieldI p 4 8)) St.range
      , need (identOption s o 1) St.refusedState, need ((sessOf s o).state.code ≤ 2) St.refusedState ]
      (fun s => done (takeRemote o (portOrigin r.port) ⟨fieldN p 2 2, fieldI p 4 8⟩ s)) s) s)

/-- STOP_SESSION (R201). -/
def execStopSession (r : Request) (s : State) : Host.Outcome State Fault Refusal :=
  let o : Outlet := Fin.ofNat 4 (fieldN r.payload 0 1)
  .next (hostRequest (opLen 0x0604 [clsH, clsN] 4) r
    (fun s => guarded [ need (fieldN r.payload 0 1 < 4) St.range, reservedOk r.payload 1 3
                      , need (sessOf s o).state.running St.refusedState ]
      (fun s => done (settle (giveCause o 9 s))) s) s)

/-! ### The Sieve (R179, R180, R200) -/

/-- Longest Sieve load. -/
def sieveMax : Nat := 524304

/-- The 16-byte entries of a load. -/
def loadEntries (b : List Byte) (count : Nat) : List (List Byte) := (List.range count).map (fun i => slice b (16 + 16 * i) 16)

/-- The status of a complete load's header. -/
def loadStatus (b : List Byte) : Nat :=
  let mode := fieldN b 0 1
  let count := fieldN b 4 4
  if 2 < mode ∨ fieldN b 1 3 ≠ 0 ∨ fieldN b 8 8 ≠ 0 then St.range
  else if count = 0 ∧ mode ≠ 0 then St.lenZero
  else if 32768 < count then St.range
  else if b.length ≠ 16 + 16 * count then St.lenBad
  else St.ok

/-- A complete load begins to be applied, unless one still is (R180). -/
def applyLoad (origin transfer : Nat) (b : List Byte) (s : State) : State × Nat :=
  if loadStatus b ≠ St.ok then (s, loadStatus b)
  else if s.sess.loading.isSome then (s, St.busy)
  else ({ s with sess := { s.sess with
    loading := some { origin, transfer, bytes := b }, sieve := ⟨transfer, 0, 0, 0, 0, 0, 1, St.ok⟩ } }, St.ok)

/-- The load in progress is applied whole, with entry 0x0604. When it ends is this model's choice (log entry 20): the next
millisecond or dial cycle boundary. Until then a lookup sees the old content, as R180 allows. -/
def finishLoad (s : State) : State :=
  match s.sess.loading with
  | none => s
  | some v =>
    let mode := fieldN v.bytes 0 1
    let a := applyEntries mode (loadEntries v.bytes (fieldN v.bytes 4 4)) s.fabric.sieve
    let t := setSieve (fun _ => a.content) { s with sess := { s.sess with
      loading := none
      sieve := { transfer := v.transfer, written := a.written, noSpace := a.noSpace, skipped := a.skipped
                 deleted := a.deleted, notFound := a.notFound, state := 2, status := St.ok } } }
    log v.origin 0x06 0x0604 ([byte mode, 0] ++ leBytes 2 (a.noSpace + a.skipped) ++ leBytes 4 v.transfer ++
      leBytes 4 a.written ++ leBytes 4 a.content.length) false t

/-- SIEVE_LOAD (R179, R180). -/
def execSieveLoad (r : Request) (s : State) : Host.Outcome State Fault Refusal :=
  .next (hostRequest (opBulk 0x0605 [clsB]) r
    (bulkWrite 0x0605 sieveMax (fun n => need (16 ≤ n && (n - 16) % 16 == 0) St.lenBad)
      (applyLoad (portOrigin r.port) (fieldN r.payload 0 4)) r) s)

/-- The response of opcode 0x0606. -/
def sieveStatusBytes (s : State) : List Byte :=
  let v := s.sess.sieve
  [s.fabric.sieve.length, v.transfer, v.written, v.noSpace, v.skipped, v.deleted, v.notFound].flatMap (leBytes 4) ++
    [byte v.state, byte v.status, 0, 0]

/-- SIEVE_STATUS (R200). -/
def execSieveStatus (r : Request) (s : State) : Host.Outcome State Fault Refusal :=
  .next (hostRequest (opNone 0x0606 [clsN, clsB]) r (fun s => reply (sieveStatusBytes s) s) s)

/-! ### Status, availability, power target (R197, R200, R201) -/

/-- SESSION_STATUS (R200). -/
def execSessionStatus (r : Request) (s : State) : Host.Outcome State Fault Refusal :=
  .next (hostRequest (opNone 0x0607 [clsN, clsH]) r (fun s => reply (statusPayload s) s) s)

/-- An outlet's availability: at once in S0, S1 and S9, else once the session reaches S9 or S0. -/
def takeAvailability (o : Outlet) (out : Bool) (s : State) : State :=
  let x := (sessOf s o).state
  if x = .s0 ∨ x = .s1 ∨ x = .s9 then setSess o (fun y => { y with outOfService := out, availLater := none }) s
  else setSess o (fun y => { y with availLater := some out }) s

/-- OUTLET_AVAILABILITY (R201). -/
def execOutletAvailability (r : Request) (s : State) : Host.Outcome State Fault Refusal :=
  let p := r.payload
  .next (hostRequest (opLen 0x0608 [clsN] 4) r
    (guarded [need (fieldN p 0 1 < 4) St.range, need (fieldN p 1 1 < 2) St.range, reservedOk p 2 2]
      (fun s => done (settle (takeAvailability (Fin.ofNat 4 (fieldN p 0 1)) (fieldN p 1 1 == 1) s)))) s)

/-- The session is a BPT session in Dynamic mode. -/
def bptDynamic (x : Session) : Bool := x.bpt && x.dynamic && !x.closed

/-- POWER_TARGET (R197, R201). -/
def execPowerTarget (r : Request) (s : State) : Host.Outcome State Fault Refusal :=
  let p := r.payload
  let o : Outlet := Fin.ofNat 4 (fieldN p 0 1)
  .next (hostRequest (opLen 0x0609 [clsH, clsN] 8) r
    (fun s => guarded
      [ need (fieldN p 0 1 < 4) St.range, reservedOk p 1 3, need (bptDynamic (sessOf s o)) St.refusedState
      , need (decide (0 ≤ fieldI p 4 4) || bptOffered s o) St.range ]
      (fun s => done (settle (setSess o (fun x => { x with target := some (fieldI p 4 4) }) s))) s) s)

end Sys2Proof.Machine
end

