-- ==== Sys2Proof/Machine/Charging.lean ====
section
/-! DEFINITION. The power commands of chapter 07 (R171, R181 to R195): ramp-down and limits of the states, converter frames,
heartbeat, setpoint and trip frames, allocation. -/

namespace Sys2Proof.Machine

/-! ### Ramp-down and time limits (R169, R171, R184) -/

/-- RAMP_DOWN_STEP (R184). -/
def execRampDownStep (o : Outlet) (s : State) : Host.Outcome State Fault Refusal :=
  .next (if domainRuns s ∧ (sessOf s o).state = .s7 then settle (renewReply o (putSetpoint o (rampStep s o) s)) else s)

/-- The current is below the open threshold: S7 ends, or a paused AC outlet opens its contactor. -/
def openThresholdMet (o : Outlet) (s : State) : State :=
  let x := sessOf s o
  if x.state = .s7 then
    if isDc s o.val then enterS8 o s else enterS9 o (closeSession o x.cause (setDrive o false s))
  else if x.state = .s6 ∧ x.paused ∧ isAc s o.val then
    goTo o .s3 (setSess o (fun y => { y with paused := false }) (setDrive o false s))
  else s

/-- OPEN_THRESHOLD_REACHED (R169). -/
def execOpenThresholdReached (o : Outlet) (s : State) : Host.Outcome State Fault Refusal :=
  .next (if domainRuns s then settle (openThresholdMet o s) else s)

/-- RAMP_DOWN_TIMEOUT (R169, R171): drive is removed under load. -/
def execRampDownTimeout (o : Outlet) (s : State) : Host.Outcome State Fault Refusal :=
  .next (if domainRuns s ∧ (sessOf s o).state = .s7 then settle (noteCause o 18 (enterSE o 18 s)) else s)

/-- CABLE_CHECK_TIMEOUT (R171). -/
def execCableCheckTimeout (o : Outlet) (s : State) : Host.Outcome State Fault Refusal :=
  .next (if domainRuns s ∧ (sessOf s o).state = .s4 then settle (giveCause o 16 s) else s)

/-- PRECHARGE_TIMEOUT (R171). -/
def execPrechargeTimeout (o : Outlet) (s : State) : Host.Outcome State Fault Refusal :=
  .next (if domainRuns s ∧ (sessOf s o).state = .s5 then settle (giveCause o 17 s) else s)

/-- Hedge's report when |OnV| stayed below 60 V through the weld check time (R219). -/
def judgeWeldCheck (o : Outlet) (s : State) : State :=
  let h := (s.hedge.out.get o).weldHigh
  if h < 6000 then
    log 8 0x07 0x0708 ([byte o.val, 0, 0, 0] ++ leBytes 4 h ++ zeros 8) false
      (setHedge o (fun x => { x with weldInconclusive := true }) s)
  else s

/-- WELD_CHECK_TIME_END (R169, R219). -/
def execWeldCheckTimeEnd (o : Outlet) (s : State) : Host.Outcome State Fault Refusal :=
  .next (
    if domainRuns s ∧ (sessOf s o).state = .s8 then
      settle (enterS9 o (closeSession o (sessOf s o).cause (judgeWeldCheck o s)))
    else s)

/-! ### Converter frames (R187, R189) -/

/-- Entry 0x0605. -/
def logConverter (o : Outlet) (s : State) : State :=
  let c := s.sess.conv.get o
  log 0 0x06 0x0605 ([byte o.val, byte (convChannel s o.val)] ++ leBytes 2 c.fault ++ [byte c.state] ++ zeros 11) false s

/-- A status frame of an outlet's converter; one in state 6 is cause 7. -/
def takeStatus (f : CanFrame) (s : State) (o : Outlet) : State :=
  let was := (s.sess.conv.get o).state
  let t := draw (draw (draw (draw (setConv o (fun _ => readStatus s o f) s))))
  let now := (t.sess.conv.get o).state
  if now ≠ 6 then t
  else
    let t := if was = 6 then t else logConverter o t
    if domainRuns t then giveCause o 7 t else t

/-- CONVERTER_STATUS_FRAME (R187, R189). -/
def execConverterStatusFrame (f : CanFrame) (s : State) : Host.Outcome State Fault Refusal :=
  .next (if up s then settle ((frameOutlets s 8 f).foldl (takeStatus f) s) else s)

/-- A limits frame of an outlet's converter; its coolant temperature, if available, is that of R104. -/
def takeLimits (f : CanFrame) (s : State) (o : Outlet) : State :=
  let c := readLimits s o f
  let t := setConv o (fun _ => c) s
  match c.coolant with
  | some v => setEnergy (fun e => { e with coolant := e.coolant.set o (some v) }) t
  | none => t

/-- CONVERTER_LIMITS_FRAME (R187). -/
def execConverterLimitsFrame (f : CanFrame) (s : State) : Host.Outcome State Fault Refusal :=
  .next (if up s then (frameOutlets s 9 f).foldl (takeLimits f) s else s)

/-- CONVERTER_LOST (R189): raised once; cause 6 in S4 to S6. -/
def execConverterLost (o : Outlet) (s : State) : Host.Outcome State Fault Refusal :=
  .next (
    if up s ∧ isDc s o.val ∧ (s.sess.conv.get o).lost = false then
      settle (logConverter o (setConv o (fun c => { c with lost := true }) s))
    else s)

/-- SEQUENCE_ECHO_LAG (R189): entry 0x0606, at most once per 60 s. -/
def execSequenceEchoLag (o : Outlet) (lag : Nat) (s : State) : Host.Outcome State Fault Refusal :=
  .next (
    if up s ∧ isDc s o.val then
      let c := s.sess.conv.get o
      let n := c.lags + 1
      let long := max c.longest lag
      if c.lagLog.elim true (fun t => decide (t + 60000 ≤ s.clockMs)) then
        setConv o (fun c => { c with lags := 0, longest := 0, lagLog := some s.clockMs })
          (log 0 0x06 0x0606 ([byte o.val, byte (convChannel s o.val), (sessOf s o).setSeq, byte c.echo] ++ leBytes 4 n ++
            leBytes 4 long ++ zeros 4) false s)
      else setConv o (fun c => { c with lags := n, longest := long }) s
    else s)

/-! ### Frames sent (R185, R186, R211, R222) -/

/-- HEARTBEAT (R186). -/
def execHeartbeat (s : State) : Host.Outcome State Fault Refusal :=
  .next (if up s then sendHeartbeat s else s)

/-- SETPOINT_REPEAT (R185, R222): the frame is checked and sent again. -/
def execSetpointRepeat (o : Outlet) (s : State) : Host.Outcome State Fault Refusal :=
  .next (if domainRuns s ∧ isDc s o.val then settle (releaseSetpoint o s) else s)

/-- SETPOINT_SEND (R222). -/
def execSetpointSend (o : Outlet) (p : Setpoint) (s : State) : Host.Outcome State Fault Refusal :=
  .next (
    if domainRuns s ∧ isDc s o.val then
      settle (if (sessOf s o).setpoint = p then releaseSetpoint o s else putSetpoint o p s)
    else s)

/-- TRIP_FRAME (R211): once started on a channel the frame is sent; until then trips join it. -/
def execTripFrame (started : Bool) (s : State) : Host.Outcome State Fault Refusal :=
  .next (
    match s.sess.tripWait with
    | some w => if up s ∧ started then sendTripFrame w s else s
    | none => s)

/-! ### Allocation (R191 to R195, R222) -/

/-- An allocation comes into force: Scarecrow keeps the previous I_alloc for 2 ms, and the outputs follow. An outlet in S7,
which demands nothing, ramps down under the one it had. -/
def takeAlloc (o : Outlet) (w : Int) (s : State) : State :=
  let x := sessOf s o
  if x.alloc = w ∨ x.state = .s7 then setSess o (fun y => { y with nextAlloc := none }) s
  else
    let old := allocCurrent s o (x.alloc.natAbs : Int)
    let t := setSess o (fun y => watchSchedule s { y with alloc := w, nextAlloc := none, allocSince := s.clockMs }) s
    updateSet o (setScr o (fun c => { c with prevAlloc := old, prevLeft := 2 }) t)

/-- Angle 0 of a cycle (R191, R195): the allocations received come into force; without any, the last are held. -/
def allocBoundary (s : State) : State :=
  if outlets.any (fun o => (sessOf s o).nextAlloc.isSome) then
    forOutlets (fun o t => match (sessOf t o).nextAlloc with
      | some w => takeAlloc o w t
      | none => t) s
  else { s with sess := { s.sess with noAlloc := s.sess.noAlloc + 1 } }

/-- The module computes the stack's allocations: it is alone or the master. -/
def allocates (s : State) : Bool := (s.trellis.role = 0 || s.trellis.role = 3) && !s.trellis.listening

/-- Allocations by slot. -/
def slotAllocs (s : State) (l : List Fill) : List SlotAlloc :=
  ((stackDemands s).map (fun d => d.slot)).eraseDups.map (fun k => ⟨k, [0, 1, 2, 3].map (shareOf l k)⟩)

/-- The allocation of an outlet in a list by slots. -/
def allocAt (l : List SlotAlloc) (slot o : Nat) : Int :=
  (l.find? (fun a => a.slot == slot)).elim 0 (fun a => a.watts.getD o 0)

/-- The falls of AC outlets between two allocations, held off the budget (R193). -/
def acFalls (s : State) (old new : List SlotAlloc) : List (Nat × Nat × Int) :=
  (stackDemands s).filterMap (fun d =>
    let fall := allocAt old d.slot d.outlet - allocAt new d.slot d.outlet
    if acEntry d ∧ 0 < fall then some (d.slot, d.outlet, fall) else none)

/-- POWER_ALLOCATION (R192 to R195, R376): the master's allocations, or the spare's shadow of them. -/
def execPowerAllocation (s : State) : Host.Outcome State Fault Refusal :=
  .next (
    if !domainRuns s then s
    else
      let new := slotAllocs s (allocateStack s)
      if allocates s then
        setNextAlloc ((List.range 4).map (allocAt new s.power.straps.val))
          { s with trellis := { s.trellis with
              allocs := new, budget := budgetInForce s, allocCycle := some s.sun.cycle
              reductions := s.trellis.reductions ++ acFalls s s.trellis.allocs new } }
      else if s.trellis.role = 2 then
        { s with trellis := { s.trellis with
            shadow := new, allocCycle := some s.sun.cycle
            reductions := s.trellis.reductions ++ acFalls s s.trellis.shadow new } }
      else s)

/-- The list without the first entry of an outlet. -/
def dropFirst (slot o : Nat) : List (Nat × Nat × Int) → List (Nat × Nat × Int)
  | [] => []
  | r :: rs => if r.1 = slot ∧ r.2.1 = o then rs else r :: dropFirst slot o rs

/-- AC_REDUCTION_EXPIRY (R193): the oldest reduction of the outlet leaves the budget. -/
def execAcReductionExpiry (slot : Slot) (o : Outlet) (s : State) : Host.Outcome State Fault Refusal :=
  .next { s with trellis := { s.trellis with reductions := dropFirst slot.val o.val s.trellis.reductions } }

/-- ALLOCATION_MISSING (R195): after 3 cycles, min(d, fallback outlet power). -/
def execAllocationMissing (s : State) : Host.Outcome State Fault Refusal :=
  .next (
    if domainRuns s ∧ 3 ≤ s.sess.noAlloc then
      settle (forOutlets (fun o t => takeAlloc o (min (outletDemand t o) (cfgN t 0x0602 0 20 4 0)) t) s)
    else s)

/-- SITE_BUDGET_TIMEOUT (R195): a budget that was received counts as stale. -/
def execSiteBudgetTimeout (s : State) : Host.Outcome State Fault Refusal :=
  .next { s with sess := { s.sess with siteStale := s.sess.siteStale || s.sess.siteBudget.isSome } }

end Sys2Proof.Machine
end

