-- ==== Sys2Proof/Machine/Tariff.lean ====
section
/-! DEFINITION. The tariff evaluation (R263, R268, R271 to R276, R283), the tariff table (R296), accounts (R280, R284),
tamper detection (R287, R288), and the opcodes of chapter 10 (R297, R298). -/

namespace Sys2Proof.Machine

/-! ### The tariff table (R296) -/

/-- A record in the format of R46. -/
def recBytes (r : Rec) : List Byte :=
  leBytes 2 r.type ++ [byte r.flags, byte r.level] ++ leBytes 4 r.body.length ++ r.body ++
    zeros ((r.body.length + 3) / 4 * 4 - r.body.length)

/-- Entry 0x0903: what was applied, and the CRC-32C of its records. -/
def logTariffs (origin kind serial : Nat) (recs : List Rec) (s : State) : State :=
  log origin 0x09 0x0903
    (byte kind :: zeros 3 ++ wordBytes 4 (crc32c (recs.flatMap recBytes)) ++ leBytes 4 serial ++ zeros 4) true s

/-- A loaded table takes effect at an evaluation. -/
def takeTable (s : State) : State :=
  match s.bill.nextTable with
  | some (serial, recs) =>
    logTariffs s.bill.tableBy 1 serial recs (setBill (fun b => { b with table := some (serial, recs), nextTable := none }) s)
  | none => s

/-- The records of a table object with their status; none where they do not fill it. -/
def tableRecords (s : State) (b : List Byte) : Option (List Rec) :=
  (recordsOf b).map (fun raw => tariffChecks
    (testRecords (decide (cfgN s 0x0101 0 0 1 0 = 1)) (outletType s) [] raw))

/-- The status of a table object: that of its first record that fails. A record of another type is not known here. -/
def tableStatus (s : State) (b : List Byte) : Nat :=
  match tableRecords s b with
  | none => St.lenBad
  | some recs =>
    ((recs.map (fun r => if r.type < 0x0902 || 0x0906 < r.type then St.unknown else r.status)).find?
      (fun c => c != St.ok)).getD St.ok

/-- A complete table object (R296): it goes to the copy of the store that was not written last, and waits for an evaluation. -/
def applyTable (origin : Nat) (b : List Byte) (s : State) : State × Nat :=
  let st := tableStatus s b
  if st ≠ St.ok then (s, st)
  else if !legalRoom s then (s, St.noSpace)
  else
    let new := (s.cfg.serial, (tableRecords s b).getD [])
    (setBill (fun x => { x with
      nextTable := some new, tableBy := origin, tableLastB := !x.tableLastB
      tableA := if x.tableLastB then some new else x.tableA, tableB := if x.tableLastB then x.tableB else some new }) s, St.ok)

/-! ### Maximum demand (R271, R272, R273) -/

/-- The demand interval and its sub-interval, s. -/
def subCount (s : State) : Nat := cfgN s 0x0901 0 3 1 1
def subSeconds (s : State) : Nat := cfgN s 0x0901 0 2 1 15 * 60 / subCount s

/-- The demand source: outlet import or grid import, summed over the tariffs. -/
def demandSource (s : State) : Int :=
  let q := if cfgN s 0x0901 0 1 1 0 = 1 then 0 else 2
  sumInt ((List.range 16).map (fun k => s.bill.values.getD (3 * k + q) 0))

/-- Change the demand measurement. -/
def setDemand (f : DemandBlock → DemandBlock) (s : State) : State := setBill (fun b => { b with demand := f b.demand }) s

/-- The running sub-interval becomes incomplete for a cause of entry 0x0904; an earlier cause stands. -/
def spoilDemand (cause : Nat) (s : State) : State :=
  setDemand (fun d => { d with incomplete := true })
    (setBill (fun b => { b with demandCause := if b.demandCause = 0 then cause else b.demandCause }) s)

/-- A sub-interval starts. -/
def startSub (utc cause : Nat) (s : State) : State :=
  setDemand (fun d => { d with
    start := utc, source := demandSource s, incomplete := cause != 0, stepped := false, clockInvalid := false })
    (setBill (fun b => { b with demandCause := cause }) s)

/-- The power of the sub-interval that ends: its energy over the nominal length. -/
def subPower (s : State) : Int := (demandSource s - s.bill.demand.source) * 36 / (10 * (subSeconds s : Int))

/-- A demand competes for the maximum of the tariff in force at its end. -/
def creditDemand (utc cause : Nat) (demand : Int) (s : State) : State :=
  let k := s.bill.control.tariff
  let wins := (s.bill.demand.maxima.getD k (0, 0)).1 < demand
  let t := setDemand (fun d => if wins then
      { d with
        maxima := d.maxima.set k (demand, utc)
        maxMask := if cause = 0 then withoutBit d.maxMask k else withBit d.maxMask k }
    else d) (setBill (fun b => { b with lastDemand := demand, pIncomplete := b.pIncomplete || cause != 0 }) s)
  if cause = 0 then t
  else log 0 0x09 0x0904 ([byte cause, byte k, 0, 0] ++ leBytes 4 utc ++ leInt 4 demand ++ zeros 4) false t

/-- The demand block goes to the place that does not hold the newest one. -/
def writeDemand (s : State) : State :=
  let newest := newestDemand s
  let first := newest == some s.bill.demand1
  let d := sealDemand { s.bill.demand with update := newest.elim 1 (fun x => x.update + 1) }
  setBill (fun b => { b with
    demand := d, demand0 := if first then d else b.demand0, demand1 := if first then b.demand1 else d }) s

/-- A sub-interval ends with a cause of incompleteness, 0 for none, and the next one starts with its own. -/
def endSub (utc cause nextCause : Nat) (s : State) : State :=
  let n := subCount s
  let p := subPower s
  let j := s.bill.demand.pos % n
  let t := setDemand (fun d => { d with
      ring := d.ring.set j p, pos := (j + 1) % n, filled := min n (d.filled + 1)
      ringMask := if cause = 0 then withoutBit d.ringMask j else withBit d.ringMask j })
    (setBill (fun b => { b with ringCauses := b.ringCauses.set j cause }) s)
  let causes := cause :: t.bill.ringCauses.take n
  let t := if t.bill.demand.filled < n then t
    else creditDemand utc ((causes.find? (fun c => c != 0)).getD 0) (sumInt (t.bill.demand.ring.take n) / n) t
  writeDemand (startSub utc nextCause t)

/-- The sub-interval that the previous evaluation found; after a cut, the one that its block was in (R276). -/
def previousSub (s : State) : Option Int :=
  if s.bill.afterCut && s.bill.demand.update != 0 && s.bill.demandCause != 4 then
    some (localOf s s.bill.demand.start / subSeconds s)
  else s.bill.subInterval

/-- Step 1 of R274. -/
def demandStep (utc : Nat) (local' : Int) (s : State) : State :=
  let b := s.bill
  let now := local' / subSeconds s
  let hold := if s.power.state = .hold || b.afterCut then 1 else 0
  let t := match previousSub s with
    | none => startSub utc (if b.demandCause = 0 then hold else b.demandCause) s
    | some p =>
      if p = now then
        (if b.stepPending then setDemand (fun d => { d with stepped := true }) s else s)
      else endSub utc (if b.stepPending then 2 else b.demandCause) (if b.stepPending then 2 else hold) s
  setBill (fun x => { x with subInterval := some now }) t

/-- While the clock is not valid no sub-interval ends (R272, R279). -/
def demandInvalid (s : State) : State :=
  spoilDemand 3 (setDemand (fun d => { d with clockInvalid := true }) (setBill (fun b => { b with subInterval := none }) s))

/-! ### The period close of an evaluation (R268, R275, R276, R278) -/

/-- Step 3 of R274. Before any period has closed, boundaries count from the first evaluation with a valid clock. -/
def periodStep (utc : Nat) (s : State) : State :=
  let b := s.bill
  match b.lastEnd with
  | none => setBill (fun x => { x with lastEnd := some utc }) s
  | some e =>
    match boundaryBefore s utc with
    | some at' =>
      if cfgN s 0x0901 0 4 1 1 = 1 ∧ (e : Int) < at' then
        if s.power.state = .hold then setBill (fun x => { x with deferred := true }) s
        else closePeriod 0 (some at'.toNat) (b.afterCut || b.deferred || b.stepPending) false s
      else s
    | none => s

/-! ### Credit (R283) -/

/-- Entry 0x0906. -/
def creditEntry (account : Nat) (o : Outlet) (kind : Nat) (credit : Int) : List Byte :=
  leBytes 2 account ++ [byte o.val, byte kind] ++ leInt 8 credit ++ zeros 4

/-- Emergency credit of an account comes into use: logged, and the entry goes out as an event. -/
def useEmergency (o : Outlet) (a : Account) (s : State) : State :=
  let credit := availableCredit s a
  if a.emergencyAllowed && !a.emergencyInUse && decide (credit ≤ a.limit) then
    let e := newEntry s 0 0x09 0x0906 (creditEntry a.index o 1 credit)
    eventAll clsN 0x0906 (entryBytes e) (log 0 0x09 0x0906 (creditEntry a.index o 1 credit) false
      (putAccount { a with emergencyInUse := true } s))
  else s

/-- Change the billing of an outlet. -/
def setOutletBill (o : Outlet) (f : OutletBill → OutletBill) (s : State) : State :=
  setBill (fun b => { b with outlets := b.outlets.set o (f (b.outlets.get o)) }) s

/-- Change the open session record of an outlet. -/
def setOpenRec (o : Outlet) (f : OpenRecord → OpenRecord) (s : State) : State :=
  setBill (fun b => { b with openRecs := b.openRecs.set o ((b.openRecs.get o).map f) }) s

/-- The credit of an outlet's session is at 0 or below. -/
def exhausted (o : Outlet) (a : Account) (s : State) : State :=
  let credit := availableCredit s a
  let bill := s.bill.outlets.get o
  if friendlyNow s a then
    let t := setOpenRec o (fun x => { x with friendly := true }) (setOutletBill o (fun x => { x with friendly := true }) s)
    if bill.friendly then t else log 0 0x09 0x0906 (creditEntry a.index o 3 credit) false t
  else
    let t := setOutletBill o (fun x => { x with reported := true }) s
    giveCause o 11 (if bill.reported then t else log 0 0x09 0x0906 (creditEntry a.index o 2 credit) false t)

/-- The credit checks of one outlet. -/
def creditStep (o : Outlet) (s : State) : State :=
  match (prepaidAccount s o).bind (accountOf s) with
  | none => s
  | some a =>
    let s := useEmergency o a s
    let s := if (accountOf s a.index).any (fun x => x.emergencyInUse) then
        setOpenRec o (fun x => { x with emergency := true }) (setOutletBill o (fun x => { x with emergency := true }) s)
      else s
    if availableCredit s a ≤ 0 then exhausted o a s else s

/-! ### The evaluation (R34, R263, R265, R274 to R276) -/

/-- Sessions that a power cut left open are closed at the first evaluation after the restore (R285). -/
def closeCut (o : Outlet) (s : State) : State :=
  if ((s.bill.openRecs.get o).any (fun x => x.cut.isSome)) then closeRecord o 15 s else s

/-- Step 2 of R274, and the control block that the commits of the next cycle read. -/
def tariffStep (s : State) : State :=
  let found := tariffNow s
  let block : ControlBlock :=
    { generation := s.bill.control.generation + 1, tariff := found.tariff, forced := !s.sun.utcValid
      prices := (List.range 16).map (fun k => tarN s 0x0906 0 (4 * k) 4 0)
      accounts := outlets.foldl (fun (p : PerOutlet (Option Nat)) o => p.set o (prepaidAccount s o)) (.all none) }
  setBill (fun b => { b with control := block, season := found.season, profile := found.profile }) s

/-- The boundaries of an evaluation, in the order of R274. -/
def evaluate (s : State) : State :=
  match utcNow s, localNow s with
  | some utc, some l => periodStep utc (tariffStep (forOutlets closeCut (demandStep utc l s)))
  | _, _ => tariffStep (forOutlets closeCut (demandInvalid s))

/-- Evaluations run in RUN and IDLE, and in HOLD until the partial commit (R275). -/
def evaluates (s : State) : Bool := up s && (s.power.state != .hold || s.energy.tail)

/-- TARIFF_EVALUATION (R274): at angle 40,960 of each dial cycle. -/
def execTariffEvaluation (s : State) : Host.Outcome State Fault Refusal :=
  .next (if evaluates s then
      let t := evaluate (takeTable (reachAngle 40960 s))
      let t := forOutlets creditStep (setBill (fun b => { b with afterCut := false, stepPending := false }) t)
      settle (journal 8 0 t.bill.control.generation.toNat t)
    else s)

/-- ACCOUNT_STORE_WRITE (R284): every 15 min if anything has changed. -/
def execAccountStoreWrite (s : State) : Host.Outcome State Fault Refusal :=
  .next (if up s ∧ s.bill.accountsChanged = true then writeAccountStore s else s)

/-! ### Tamper (R287, R288) -/

/-- The flags byte of a tamper event. -/
def tamperFlags (e : TamperEvent) : Nat := flags [e.battery, e.utc.isNone]

/-- The 8 bytes of a tamper event. -/
def tamperBytes (e : TamperEvent) : List Byte :=
  leBytes 4 (utcField e.utc) ++ [byte e.input, byte (if e.opened then 1 else 2), byte (tamperFlags e), 0]

/-- An event enters the store, or raises the overflow counter when it is full. -/
def tamperEvent (s : State) (t : Tamper) (input : Nat) (opened : Bool) : Tamper :=
  if 32 ≤ t.events.length then { t with overflow := min 65535 (t.overflow + 1), unacked := true }
  else
    { t with
      events := t.events ++ [⟨utcNow s, input, opened, s.power.state = .battery⟩], writePos := (t.writePos + 1) % 32
      unacked := true }

/-- One input takes a sample: the second in a row that differs from the stored state changes it. -/
def sampleInput (s : State) (opened : BitVec 4) (t : Tamper) (i : Nat) : Tamper :=
  let x := opened.getLsbD i
  if !t.enabled.getLsbD i then t
  else if x = t.opened.getLsbD i then { t with differs := withoutBit t.differs i }
  else if t.differs.getLsbD i then
    tamperEvent s { t with
      differs := withoutBit t.differs i, opened := if x then withBit t.opened i else withoutBit t.opened i } i x
  else { t with differs := withBit t.differs i }

/-- Entry 0x0907 of an event. -/
def logTamper (e : TamperEvent) (overflow : Nat) (s : State) : State :=
  log 0 0x09 0x0907
    ([byte e.input, byte (if e.opened then 1 else 2), byte (tamperFlags e), 0] ++ leBytes 4 (utcField e.utc) ++
      leBytes 2 overflow ++ zeros 6) true s

/-- In RUN, pending events are copied to the legal log in order, the overflow count with the last, and leave the store. -/
def drainTamper (s : State) : State :=
  if up s && s.power.state = .run && !s.bill.tamper.events.isEmpty then
    let es := s.bill.tamper.events
    let t := es.dropLast.foldl (fun u e => logTamper e 0 u) s
    let t := es.getLast?.elim t (fun e => logTamper e s.bill.tamper.overflow t)
    setBill (fun b => { b with tamper := { b.tamper with events := [], overflow := 0 } }) t
  else s

/-- TAMPER_SAMPLE (R287): the battery domain samples in every power state except OFF. -/
def execTamperSample (opened : BitVec 4) (s : State) : Host.Outcome State Fault Refusal :=
  .next (if s.power.state = .off then s
    else drainTamper (setBill (fun b => { b with
      tamper := (List.range 4).foldl (sampleInput s opened) b.tamper }) s))

/-! ### Accounts (R280, R281, R284, R298) -/

/-- An account with the defaults of its entry. -/
def accountDefault (i : Nat) : Account :=
  { index := i, emergencyAllowed := false, emergencyInUse := false, balance := 0, limit := 0, windows := List.replicate 4 (0, 0) }

/-- The fields of an entry of an account load object. -/
def accountFields : List FieldSpec :=
  [span 0 2 0 4095, msk 2 1 3, rsv 3 1, anyF 4 8, cntZ 12 8 0 (2 ^ 62)] ++
    (List.range 4).flatMap (fun w => [span (20 + 4 * w) 2 0 1439, span (22 + 4 * w) 2 0 1439]) ++ [rsv 36 4]

/-- The account of an entry. -/
def accountFrom (e : List Byte) : Account :=
  { index := fieldN e 0 2, emergencyAllowed := (fieldN e 2 1).testBit 1, emergencyInUse := false, balance := fieldI e 4 8
    limit := fieldI e 12 8, windows := (List.range 4).map (fun w => (fieldN e (20 + 4 * w) 2, fieldN e (22 + 4 * w) 2)) }

/-- The entries of an account load object. -/
def accountEntries (b : List Byte) : List (List Byte) := (List.range (fieldN b 4 4)).map (fun i => slice b (16 + 40 * i) 40)

/-- The status of an account load object. -/
def accountStatus (b : List Byte) : Nat :=
  let n := fieldN b 4 4
  let checks : List Nat :=
    [ need (fieldN b 0 1 ≤ 1) St.range, reservedOk b 1 3, need (n != 0 || fieldN b 0 1 == 0) St.lenZero
    , need (n ≤ 4096) St.range, need (b.length == 16 + 40 * n) St.lenBad, reservedOk b 8 8 ]
  match checks.find? (fun c => c != St.ok) with
  | some c => c
  | none => ((accountEntries b).map (fun e => firstFail e accountFields)).find? (fun c => c != St.ok) |>.getD St.ok

/-- Entry 0x0905. -/
def logAccount (origin index kind : Nat) (amount : Int) (s : State) : State :=
  log origin 0x09 0x0905 (leBytes 2 index ++ [byte kind, 0] ++ leInt 8 amount ++ zeros 4) false s

/-- An entry of the object is put, or with flag [0] clear taken away. -/
def loadAccount (origin : Nat) (s : State) (e : List Byte) : State :=
  let a := accountFrom e
  logAccount origin a.index 0 a.balance
    (if (fieldN e 2 1).testBit 0 then putAccount a s
     else setBill (fun b => { b with accounts := b.accounts.filter (fun x => x.index != a.index), accountsChanged := true }) s)

/-- A complete account load object (R298). Its entries 0x0905 are one for each account it holds; one that empties the store
writes a single entry with account 0xFFFF (log entry 63). -/
def applyAccounts (origin : Nat) (b : List Byte) (s : State) : State × Nat :=
  let st := accountStatus b
  if st ≠ St.ok then (s, st)
  else
    let base := if fieldN b 0 1 = 0 then setBill (fun x => { x with accounts := [], accountsChanged := true }) s else s
    let base := if fieldN b 4 4 = 0 then logAccount origin 0xFFFF 0 0 base else base
    (writeAccountStore ((accountEntries b).foldl (loadAccount origin) base), St.ok)

/-- An amount is credited. Emergency credit goes out of use when the available credit stands above the limit again. -/
def creditAccount (origin : Nat) (a : Account) (amount : Int) (s : State) : State :=
  let a1 := { a with balance := a.balance + amount }
  let a2 := { a1 with emergencyInUse := a.emergencyInUse && decide (availableCredit s a1 ≤ a1.limit) }
  writeAccountStore (logAccount origin a.index 1 amount (putAccount a2 s))

/-! ### Opcodes (R297, R298) -/

/-- The local offset in force and whether DST is; with an invalid clock the manual gives neither. -/
def offsetFields (s : State) : List Byte × Bool :=
  match utcNow s with
  | some u => (leInt 2 (offsetAt s u / 60), dstAt s (u + stdOffset s))
  | none => (openField 2 s, Config.freeBool s.freeCount)

/-- The next monthly boundary: none by opcode only or without a valid clock. -/
def nextBoundary (s : State) : Option Nat :=
  if cfgN s 0x0901 0 4 1 1 = 1 then
    (utcNow s).bind (fun u => (boundaryAfter s (s.bill.lastEnd.getD u)).map (fun (b : Int) => b.toNat))
  else none

/-- The payload of opcode 0x0901. -/
def billingBytes (s : State) : List Byte :=
  let b := s.bill
  leBytes 4 (utcField (utcNow s)) ++ (offsetFields s).1 ++
    [byte b.control.tariff, byte (b.season.getD 0xFF), byte (b.profile.getD 0xFF),
     byte (flags [(offsetFields s).2, b.slew != 0, (utcNow s).isNone, !b.tamper.events.isEmpty]), 0, 0] ++
    leBytes 4 b.period ++ periodStartField s ++ leBytes 4 (utcField (nextBoundary s)) ++ leInt 4 b.lastDemand ++
    leBytes 4 (utcField (b.subInterval.map (fun _ => b.demand.start))) ++ leInt 4 b.slew ++ leBytes 4 b.lastRecord ++ zeros 8

/-- BILLING_STATUS (R297). -/
def execBillingStatus (r : Request) (s : State) : Host.Outcome State Fault Refusal :=
  .next (hostRequest (opNone 0x0901 [clsN, clsH]) r (fun s => reply (billingBytes s) (draw s)) s)

/-- Opcode 0x0902: a step or a slew towards the target. -/
def setClock (r : Request) (s : State) : State × Answer :=
  let p := r.payload
  let utc := fieldN p 0 4
  let ms := fieldN p 4 2
  if fieldN p 6 1 = 1 then
    match clockStep (portOrigin r.port) utc ms s with
    | (t, st, delta) => if st = St.ok then reply (leInt 4 delta) t else refuse st s
  else
    let delta : Int := (utc : Int) * 1000 + ms - utcMs s
    match clockSlew (portOrigin r.port) delta s with
    | (t, st) => if st = St.ok then reply (leInt 4 delta) t else refuse st s

/-- CLOCK_SET (R277). -/
def execClockSet (r : Request) (s : State) : Host.Outcome State Fault Refusal :=
  .next (hostRequest (opLen 0x0902 [clsN] 8) r
    (guarded [firstFail r.payload [anyF 0 4, span 4 2 0 999, msk 6 1 1, rsv 7 1]] (setClock r)) s)

/-- The response of opcode 0x0903. Before any record has been written the manual gives no oldest or newest number. -/
def sessionRecordReply (p : List Byte) (s : State) : List Byte :=
  let rs := s.bill.records.reverse
  let number (r : Option SessionRecord) : List Byte := r.elim (openField 4 s) (fun x => leBytes 4 x.number)
  number rs.head? ++ number rs.getLast? ++
    ((rs.filter (fun r => fieldN p 0 4 ≤ r.number)).take (fieldN p 4 1)).flatMap (fun r => r.bytes)

/-- SESSION_RECORD_READ (R297, R298). -/
def execSessionRecordRead (r : Request) (s : State) : Host.Outcome State Fault Refusal :=
  .next (hostRequest (opLen 0x0903 [clsN, clsB] 8) r
    (guarded [firstFail r.payload [anyF 0 4, cntZ 4 1 0 5, rsv 5 3]]
      (fun s => reply (sessionRecordReply r.payload s) (draw s))) s)

/-- BILLING_PERIOD_READ (R297, R298): a period no longer held is CHECK_FAIL. -/
def execBillingPeriodRead (r : Request) (s : State) : Host.Outcome State Fault Refusal :=
  .next (hostRequest (opLen 0x0904 [clsN, clsB] 4) r
    (fun s => match s.bill.periods.find? (fun x => x.number == fieldN r.payload 0 4) with
      | some x => reply x.bytes s
      | none => refuse St.checkFail s) s)

/-- BILLING_PERIOD_CLOSE (R268, R298). -/
def execBillingPeriodClose (r : Request) (s : State) : Host.Outcome State Fault Refusal :=
  .next (hostRequest (opNone 0x0905 [clsN]) r
    (fun s => guarded [need (!s.bill.deferred) St.refusedState, need (legalRoom s) St.noSpace]
      (fun s => reply (leBytes 4 s.bill.period) (closePeriod (portOrigin r.port) (utcNow s) false true s)) s) s)

/-- The response of opcode 0x0906. -/
def tariffRegisterBytes (s : State) : List Byte :=
  wordBytes 4 (lastCommitCycle s) ++ [byte s.bill.control.tariff, 0, 0, 0] ++ valueBytes s ++ maximaBytes s

/-- TARIFF_REGISTERS (R297). -/
def execTariffRegisters (r : Request) (s : State) : Host.Outcome State Fault Refusal :=
  .next (hostRequest (opNone 0x0906 [clsN, clsH, clsB]) r (fun s => reply (tariffRegisterBytes s) s) s)

/-- TARIFF_LOAD (R296). -/
def execTariffLoad (r : Request) (s : State) : Host.Outcome State Fault Refusal :=
  .next (hostRequest (opBulk 0x0907 [clsB]) r (bulkWrite 0x0907 8192 (fun _ => St.ok) (applyTable (portOrigin r.port)) r) s)

/-- ACCOUNT_LOAD (R298). -/
def execAccountLoad (r : Request) (s : State) : Host.Outcome State Fault Refusal :=
  .next (hostRequest (opBulk 0x0908 [clsB]) r
    (bulkWrite 0x0908 (16 + 40 * 4096) (fun n => need (16 ≤ n && (n - 16) % 40 == 0) St.lenBad)
      (applyAccounts (portOrigin r.port)) r) s)

/-- ACCOUNT_CREDIT (R297, R298). -/
def execAccountCredit (r : Request) (s : State) : Host.Outcome State Fault Refusal :=
  .next (hostRequest (opLen 0x0909 [clsN, clsH] 12) r
    (fun s =>
      let i := fieldN r.payload 0 2
      let amount := fieldI r.payload 4 8
      guarded [ need (accountOf s i).isSome St.range, reservedOk r.payload 2 2, need (amount != 0) St.lenZero
              , need (!heldElsewhere 0x0908 r.port s) St.busy ]
        (fun s => let a := (accountOf s i).getD (accountDefault i)
          reply (leInt 8 (a.balance + amount)) (creditAccount (portOrigin r.port) a amount s)) s) s)

/-- The response of opcode 0x090A; an account that is not valid shows the defaults of its entry. -/
def accountReply (i : Nat) (s : State) : List Byte :=
  let a := (accountOf s i).getD (accountDefault i)
  accountBytes a (accountOf s i).isSome ++ leInt 8 (availableCredit s a) ++ leInt 8 (openCost s i)

/-- ACCOUNT_READ (R297). -/
def execAccountRead (r : Request) (s : State) : Host.Outcome State Fault Refusal :=
  .next (hostRequest (opLen 0x090A [clsN] 4) r
    (guarded [firstFail r.payload [span 0 2 0 4095, rsv 2 2]]
      (fun s => reply (accountReply (fieldN r.payload 0 2) s) s)) s)

/-- The tamper store as opcode 0x090B shows it. -/
def tamperStore (s : State) : List Byte :=
  let t := s.bill.tamper
  [byte t.events.length, byte t.writePos] ++ leBytes 2 t.overflow ++ [byte t.opened.toNat, byte t.enabled.toNat, 0, 0] ++
    t.events.flatMap tamperBytes

/-- TAMPER_READ (R298): an acknowledge is accepted only in SERVICE. -/
def execTamperRead (r : Request) (s : State) : Host.Outcome State Fault Refusal :=
  .next (hostRequest (opLen 0x090B [clsN] 4) r
    (fun s => guarded [ firstFail r.payload [span 0 1 0 1, rsv 1 3]
                      , need (fieldN r.payload 0 1 == 0 || inService s) St.refusedState ]
      (fun s => reply (tamperStore s)
        (if fieldN r.payload 0 1 = 1 then setBill (fun b => { b with tamper := { b.tamper with unacked := false } }) s
         else s)) s) s)

end Sys2Proof.Machine
end

