-- ==== Sys2Proof/Machine/Display.lean ====
section
/-! DEFINITION. The legal and the application panel (chapter 11): start and stop (R302, R303), the legal lane (R305 to
R308), frames and stress (R300, R310 to R312), and the opcodes of R315. -/

namespace Sys2Proof.Machine

/-- Change the displays. -/
def setDisp (f : Display → Display) (s : State) : State := { s with disp := f s.disp }

/-! ### The legal lane (R305 to R308) -/

/-- The legal list of record 0x0A01 without its unused entries. -/
def legalList (s : State) : List Nat :=
  [cfgN s 0x0A01 0 4 1 0x00, cfgN s 0x0A01 0 5 1 0x08, cfgN s 0x0A01 0 6 1 0x10, cfgN s 0x0A01 0 7 1 0x18].filter
    (fun m => m != 0xFF)

/-- The register shown. -/
def shownRegister (s : State) : Nat := (legalList s).getD (s.disp.position % max 1 (legalList s).length) 0

/-- A decimal number of a fixed number of digits. -/
def decimal : Nat → Nat → List Byte
  | 0, _ => []
  | n + 1, v => decimal n (v / 10) ++ [byte (0x30 + v % 10)]

/-- The 13 characters of a legal value (R111), right-aligned in a line. -/
def legalValueLine (v : Int) : List Byte :=
  let r := (v % 1000000000000).toNat
  ascii "   " ++ decimal 9 (r / 1000) ++ ascii "." ++ decimal 3 (r % 1000)

/-- A digit in hexadecimal. -/
def hexDigit (v : Nat) : Byte := byte (if v < 10 then 0x30 + v else 0x37 + v)

/-- A hexadecimal number of a fixed number of digits. -/
def hexadecimal : Nat → Nat → List Byte
  | 0, _ => []
  | n + 1, v => hexadecimal n (v / 16) ++ [hexDigit (v % 16)]

/-- Line 3 (R308). -/
def checkLine (s : State) : List Byte :=
  ascii "CHK " ++ hexadecimal 4 (checkValue s / 65536) ++ ascii "-" ++ hexadecimal 4 (checkValue s % 65536) ++ ascii " " ++
    ascii (if s.hedge.confirmed then "OK" else "--")

/-- The tamper mark stands: an input is open, or an event has not been acknowledged (R288). -/
def tamperMark (s : State) : Bool := s.bill.tamper.opened &&& s.bill.tamper.enabled != 0 || s.bill.tamper.unacked

/-- The marks word (R307). -/
def laneMarks (s : State) : BitVec 16 :=
  let x := committedRegister s (shownRegister s)
  word16 [ legalFree s == 0, tamperMark s, x.sticky.getLsbD Reg.corrupt, x.sticky.getLsbD Reg.lost
         , x.window.getLsbD Reg.noData, !s.sun.utcValid, x.window.getLsbD Reg.trial || x.window.getLsbD Reg.uncalibrated ]

/-- The abbreviations of the marks, in bit order. -/
def markNames : List String := ["LOG", "TMP", "COR", "LST", "NDA", "CLK", "CAL"]

/-- Line 2: the first four set marks, each followed by a blank. -/
def marksLine (w : BitVec 16) : List Byte :=
  let names := (markNames.zipIdx.filter (fun x => w.getLsbD x.2)).take 4
  let bs := names.flatMap (fun x => ascii x.1 ++ ascii " ")
  bs ++ List.replicate (16 - bs.length) 0x20

/-- Line 0: the text of a label is not given. -/
def labelLine (m : Nat) : List Byte :=
  let bs := (Config.registerLabel m).take 16
  bs ++ List.replicate (16 - bs.length) 0x20

/-- The engine that serves the grid writes the lane (R306). -/
def writeLane (s : State) : State :=
  let m := shownRegister s
  let x := committedRegister s m
  let marks := laneMarks s
  setDisp (fun d => { d with
    lane := { generation := d.lane.generation + 2, cycle := lastCommitCycle s
              lines := [labelLine m, legalValueLine (committed x.acc), marksLine marks, checkLine s], marks
              font := padTo 1536 ((Config.fontOf s.cis.legalMeas).take 1536)
              fontCheck := Config.fontCheckOf s.cis.legalMeas } }) s

/-- The 4 KiB of the lane as bank 9 holds them (R305). -/
def laneBytes (l : Lane) : List Byte :=
  wordBytes 4 l.generation ++ wordBytes 4 l.cycle ++ l.lines.flatMap (fun x => x) ++ wordBytes 2 l.marks ++ zeros 54 ++ l.font ++
    wordBytes 4 l.fontCheck ++ zeros 2428

/-! ### Stress (R310 to R312) -/

/-- Breakpoint j of record 0x0A02: stress in 10^6 µA·s and gain. -/
def breakpoint (s : State) (j : Nat) : Nat × Nat :=
  let dflt := [(0, 1024), (500, 1090), (1000, 1160), (2000, 1260), (3000, 1340), (4000, 1433)].getD j (0, 0)
  (cfgN s 0x0A02 0 (4 * j) 2 dflt.1, cfgN s 0x0A02 0 (4 * j + 2) 2 dflt.2)

/-- The gain at a stress counter (R311): interpolated between breakpoints, rounded down, the last gain beyond them. -/
def gainAt (s : State) (counter : Nat) : Nat :=
  let find (j : Nat) : Option Nat :=
    let a := breakpoint s j
    let b := breakpoint s (j + 1)
    if a.1 * 1000000 ≤ counter ∧ counter < b.1 * 1000000 then
      some (a.2 + (counter - a.1 * 1000000) * (b.2 - a.2) / ((b.1 - a.1) * 1000000))
    else none
  min 1433 (((List.range 5).findSome? find).getD (breakpoint s 5).2)

/-- The column current code of a pixel at a stress (R311). -/
def driveCode (s : State) (counter : Nat) : Nat :=
  (openNearest ((cfgN s 0x0A01 0 1 1 120 * gainAt s counter : Nat) / (1024 : Rat))).toNat

/-- A counter at its end, or beyond a last breakpoint at the cap, marks its pixel WORN (R310, R311). -/
def wearsOut (s : State) (counter : Nat) : Bool :=
  counter == 0xFFFFFFFF || decide ((breakpoint s 5).1 * 1000000 < counter) && (breakpoint s 5).2 == 1433

/-- Worn pixels of a panel, and the highest counter of some pixels. -/
def wornCount (s : State) (panel : Nat) : Nat := (s.disp.pixels.filter (fun p => p.worn && p.index / 8192 == panel)).length
def highest (ps : List Pixel) : Nat := ps.foldl (fun m p => max m p.counter) 0

/-- The pixels that a save holds. -/
def pixelsOf (s : State) (counters : List (Nat × Nat)) (worn : List Nat) : List Pixel :=
  (List.range 16384).filterMap (fun i =>
    let c := (counters.find? (fun x => x.1 == i)).elim 0 (fun x => x.2)
    let w := worn.any (fun x => x == i)
    if c = 0 ∧ w = false then none else some ⟨i, c, 0, driveCode s c, w⟩)

/-- The worn bitmap of a copy. -/
def wornBytes (c : StressCopy) : List Byte :=
  (List.range 2048).map (fun j => byte (flags ((List.range 8).map (fun i => c.worn.any (fun x => x == 8 * j + i)))))

/-- The counters, the worn bitmap and the reserved bytes of a copy. -/
def stressBody (c : StressCopy) : List Byte :=
  (List.range 16384).flatMap (fun i => leBytes 4 ((c.counters.find? (fun x => x.1 == i)).elim 0 (fun x => x.2))) ++
    wornBytes c ++ zeros 6144

/-- A copy whose check agrees with its content. -/
def stressValid (c : StressCopy) : Bool := c.check == crc32c (stressBody c)

/-- A copy as it is saved. -/
def sealStress (c : StressCopy) : StressCopy := { c with check := crc32c (stressBody c) }

/-- The copy in use: the valid one with the higher generation. -/
def newestStress (s : State) : Option StressCopy :=
  match s.disp.copyA.filter stressValid, s.disp.copyB.filter stressValid with
  | some a, some b => if a.generation < b.generation then some b else some a
  | some a, none => some a
  | none, b => b

/-- At start the counters are loaded; without a valid copy they start at 0 (R312). -/
def loadStress (s : State) : State :=
  match newestStress s with
  | some c => setDisp (fun d => { d with pixels := pixelsOf s c.counters c.worn }) s
  | none => log 0 0x0A 0x0A03 (byte 1 :: zeros 15) false (setDisp (fun d => { d with pixels := [] }) s)

/-- Put a copy in the place that does not hold the newest valid one. -/
def putStress (c : Option StressCopy) (s : State) : State :=
  let inA := (newestStress s).isSome && newestStress s == s.disp.copyA
  setDisp (fun d => if inA then { d with copyB := c } else { d with copyA := c }) s

/-- A save to the older copy (R312). A save that fails leaves that copy without a valid check. -/
def saveStress (ok : Bool) (s : State) : State :=
  let gen := (newestStress s).elim 0 (fun c => c.generation) + 1
  if ok then
    putStress (some <| sealStress
      { generation := gen, serial := serialBytes s, utc := utcNow s, check := 0
        counters := (s.disp.pixels.filter (fun p => p.counter != 0)).map (fun p => (p.index, p.counter))
        worn := (s.disp.pixels.filter (fun p => p.worn)).map (fun p => p.index) }) s
  else log 0 0x0A 0x0A03 (byte 2 :: zeros 3 ++ leBytes 4 gen ++ zeros 8) false (putStress none s)

/-- STRESS_SAVE (R312). -/
def execStressSave (ok : Bool) (s : State) : Host.Outcome State Fault Refusal :=
  .next (if awake s then saveStress ok s else s)

/-! ### Start and stop (R302, R303) -/

/-- Step 2: DISP_EN is raised. -/
def displayStart (s : State) : State := setDisp (fun d => { d with state := .starting, dispEn := true }) s

/-- Step 5: the panels go dark. -/
def displayStop (s : State) : State := setDisp (fun d => { d with state := .off, dispEn := false }) s

/-- The state code of opcode 0x0A01. -/
def DispState.code : DispState → Nat
  | .off => 0
  | .starting => 1
  | .scanning => 2
  | .vppFault => 3
  | .fontFault => 4

/-- The scan runs. -/
def scans (s : State) : Bool := s.disp.state = .scanning || s.disp.state = .fontFault

/-- A VPP fault (R302). -/
def vppFails (v : Nat) (s : State) : State :=
  log 0 0x0A 0x0A01 (leBytes 2 v ++ byte s.disp.state.code :: zeros 13) false
    (setDisp (fun d => { d with state := .vppFault, dispEn := false }) s)

/-- VPP at DISP_VPPS is read. -/
def readVpp (v : Nat) (s : State) : State := setDisp (fun d => { d with vpp := v }) s

/-- The font of a lane agrees with its check (R305). -/
def fontGood (lane : Lane) : Bool := lane.fontCheck == crc32c lane.font

/-- The state in which the scan runs: a lane with a bad font that is shown stays a font fault (R305, R315). -/
def scanState (d : Display) : DispState := if d.shown.all fontGood then .scanning else .fontFault

/-- VPP_IN_RANGE (R303, step 3). -/
def execVppInRange (v : Nat) (s : State) : Host.Outcome State Fault Refusal :=
  let t := readVpp v s
  .next (if awake s && s.disp.state == .starting && decide (900 ≤ v ∧ v ≤ 1600) then
      setDisp (fun d => { d with state := scanState d }) t
    else t)

/-- VPP_START_TIMEOUT (R303, step 4). -/
def execVppStartTimeout (v : Nat) (s : State) : Host.Outcome State Fault Refusal :=
  .next (if awake s && s.disp.state == .starting then vppFails v (readVpp v s) else readVpp v s)

/-- VPP_FAULT (R302): VPP out of range for 10 ms while the scan runs. -/
def execVppFault (v : Nat) (s : State) : Host.Outcome State Fault Refusal :=
  .next (if awake s && scans s && decide (v < 850 ∨ 1650 < v) then vppFails v (readVpp v s) else readVpp v s)

/-- VPP_FAULT_RESTART (R302): 10 s after a fault. -/
def execVppFaultRestart (s : State) : Host.Outcome State Fault Refusal :=
  .next (if awake s && s.disp.state == .vppFault then displayStart s else s)

/-! ### Frames (R300, R305, R306, R310) -/

/-- PNL's copy of the lane for this frame. The check found, of entry 0x0A04, is the CRC of the font as PNL read it (DEDUCED, log
entry 46). -/
def takeLane (s : State) : State :=
  let lane := s.disp.lane
  if lane.generation = 0 ∨ s.disp.shown.any (fun x => x.generation == lane.generation) = true then s
  else if fontGood lane then setDisp (fun d => { d with shown := some lane, state := .scanning }) s
  else
    log 0 0x0A 0x0A04 (wordBytes 4 lane.generation ++ wordBytes 4 (crc32c lane.font) ++ zeros 8) true
      (setDisp (fun d => { d with shown := some lane, state := .fontFault }) s)

/-- The character of the lane at a row and column, a blank for a code outside the font. -/
def charAt (lane : Lane) (row col : Nat) : Nat :=
  let c := ((lane.lines.getD (row / 16) []).getD (col / 8) 0x20).toNat
  if 0x20 ≤ c ∧ c ≤ 0x7F then c else 0x20

/-- The pixel of a glyph at a row and column: bit 7 is the leftmost (R305). -/
def glyphPixel (font : List Byte) (char row col : Nat) : Bool := (font.getD (16 * (char - 0x20) + row) 0).getLsbD (7 - col)

/-- Grey level of a pixel of panel 0: black without a good copy of the lane. -/
def legalLevel (s : State) (row col : Nat) : Nat :=
  match s.disp.shown with
  | some lane =>
    if fontGood lane && glyphPixel lane.font (charAt lane row col) (row % 16) (col % 8) then 15 else 0
  | none => 0

/-- Grey level of a pixel of panel 1: black until its row is written. -/
def appLevel (s : State) (row col : Nat) : Nat :=
  match s.disp.rows.find? (fun x => x.1 == row) with
  | some x =>
    let b := (x.2.getD (col / 2) 0).toNat
    if col % 2 = 0 then b / 16 else b % 16
  | none => 0

/-- The grey level of a pixel in this frame. -/
def levelAt (s : State) (i : Nat) : Nat :=
  let row := i % 8192 / 128
  let col := i % 128
  if i / 8192 = 1 ∧ (cfgN s 0x0A01 0 0 1 3).testBit 1 = false then 0
  else match s.disp.test with
    | some 0 => 15
    | some p => Config.testLevel p i % 16
    | none => if i / 8192 = 0 then legalLevel s row col else appLevel s row col

/-- Pixels become WORN, counted per panel until they are logged. -/
def markWorn (wears : Nat → Bool) (s : State) : State :=
  let newly (panel : Nat) : Nat :=
    (s.disp.pixels.filter (fun p => !p.worn && wears p.counter && p.index / 8192 == panel)).length
  setDisp (fun d => { d with
    pixels := d.pixels.map (fun p => { p with worn := p.worn || wears p.counter })
    newWorn := (d.newWorn.1 + newly 0, d.newWorn.2 + newly 1) }) s

/-- A pixel takes the stress of a frame at a grey level (R310). -/
def stressPixel (g : Nat) (p : Pixel) : Pixel :=
  if p.counter = 0xFFFFFFFF then p
  else
    let sub := p.sub + p.code * g
    if 80000 ≤ sub then { p with counter := p.counter + 1, sub := sub - 80000 } else { p with sub := sub }

/-- Every pixel takes the stress of a frame; a pixel without any stress yet is driven at the code for 0. -/
def stressFrame (s : State) : State :=
  let fresh := driveCode s 0
  markWorn (fun c => c == 0xFFFFFFFF) (setDisp (fun d => { d with
    pixels := (List.range 16384).filterMap (fun i =>
      let g := levelAt s i
      match d.pixels.find? (fun p => p.index == i) with
      | some p => some (stressPixel g p)
      | none => if g = 0 then none else some (stressPixel g ⟨i, 0, 0, fresh, false⟩)) }) s)

/-- Rows written by the host appear; a test pattern ends when an outlet leaves S0 (R315). -/
def takeRows (s : State) : State :=
  setDisp (fun d => { d with
    rows := d.nextRows ++ d.rows.filter (fun x => d.nextRows.all (fun y => y.1 != x.1)), nextRows := []
    test := if allIdle s then d.test else none }) s

/-- DISPLAY_FRAME (R300, R306, R310). -/
def execDisplayFrame (s : State) : Host.Outcome State Fault Refusal :=
  .next (if awake s && scans s then stressFrame (takeLane (takeRows s)) else s)

/-- DWELL_STEP (R307): the next register of the legal list; its lane is written with the next commit. -/
def execDwellStep (s : State) : Host.Outcome State Fault Refusal :=
  .next (if awake s then
      setDisp (fun d => { d with position := (d.position + 1) % max 1 (legalList s).length }) s
    else s)

/-- Entry 0x0A02 of a panel, at most once a minute. -/
def logWorn (panel : Nat) (s : State) : State :=
  let d := s.disp
  let count := if panel = 0 then d.newWorn.1 else d.newWorn.2
  let last := if panel = 0 then d.wornLog.1 else d.wornLog.2
  if 0 < count ∧ last.elim true (fun t => decide (t + 60000 ≤ s.clockMs)) = true then
    let t := setDisp (fun d => if panel = 0 then
        { d with newWorn := (0, d.newWorn.2), wornLog := (some s.clockMs, d.wornLog.2) }
      else { d with newWorn := (d.newWorn.1, 0), wornLog := (d.wornLog.1, some s.clockMs) }) s
    log 0 0x0A 0x0A02 ([byte panel, 0] ++ leBytes 2 count ++ leBytes 4 (wornCount s panel) ++
      leBytes 4 (highest (d.pixels.filter (fun p => p.index / 8192 == panel))) ++ zeros 4) false t
  else s

/-- The gains of all pixels are formed again; pixels become WORN. -/
def recompute (s : State) : State :=
  markWorn (wearsOut s) (setDisp (fun d => { d with
    pixels := d.pixels.map (fun p => { p with code := driveCode s p.counter }) }) s)

/-- GAIN_RECOMPUTE (R311). -/
def execGainRecompute (s : State) : Host.Outcome State Fault Refusal :=
  .next (if awake s then logWorn 1 (logWorn 0 (recompute s)) else s)

/-! ### Opcodes (R315) -/

/-- The payload of opcode 0x0A01. -/
def displayBytes (s : State) : List Byte :=
  let d := s.disp
  [byte d.state.code, 0] ++ leBytes 2 d.vpp ++ wordBytes 4 d.lane.generation ++ wordBytes 2 d.lane.marks ++
    [byte (shownRegister s), 0] ++ leBytes 4 (wornCount s 0) ++ leBytes 4 (wornCount s 1) ++ leBytes 4 (highest d.pixels) ++
    leBytes 4 (utcField ((newestStress s).bind (fun c => c.utc)))

/-- DISPLAY_STATUS (R315). -/
def execDisplayStatus (r : Request) (s : State) : Host.Outcome State Fault Refusal :=
  .next (hostRequest (opNone 0x0A01 [clsN, clsH]) r (fun s => reply (displayBytes s) s) s)

/-- Opcode 0x0A02 takes a header and whole rows. -/
def rowsSpec : OpSpec := ⟨0x0A02, [clsN], false, fun n => 4 ≤ n⟩

/-- The rows of a request wait for the next frame. -/
def writeRows (p : List Byte) (s : State) : State :=
  let first := fieldN p 1 1
  let new := (List.range (fieldN p 2 1)).map (fun i => (first + i, slice p (4 + 64 * i) 64))
  setDisp (fun d => { d with nextRows := new ++ d.nextRows.filter (fun x => new.all (fun y => y.1 != x.1)) }) s

/-- APPLICATION_ROWS (R315): panel 0 is LOCKED (R309). -/
def execApplicationRows (r : Request) (s : State) : Host.Outcome State Fault Refusal :=
  let p := r.payload
  .next (hostRequest rowsSpec r
    (guarded [ need (p.length == 4 + 64 * fieldN p 2 1) St.lenBad, need (fieldN p 0 1 != 0) St.locked
             , firstFail p [span 0 1 1 1, span 1 1 0 63, cnt 2 1 1 21, rsv 3 1]
             , need (fieldN p 1 1 + fieldN p 2 1 ≤ 64) St.range ]
      (fun s => done (writeRows p s))) s)

/-- A copy as R312 lays it out. -/
def stressBytes (c : StressCopy) : List Byte :=
  leBytes 4 0x54534753 ++ leBytes 4 c.generation ++ c.serial ++ leBytes 4 (utcField c.utc) ++ leBytes 4 c.worn.length ++
    wordBytes 4 c.check ++ zeros 4068 ++ stressBody c

/-- STRESS_READ (R315): the newest save. Before any save the manual gives no data, and there are none. -/
def execStressRead (r : Request) (s : State) : Host.Outcome State Fault Refusal :=
  .next (hostRequest (opRead 0x0A03 [clsN, clsB]) r
    (fun s => bulkRead ((newestStress s).elim [] stressBytes) r s) s)

/-- The length of a stress object. -/
def stressLength : Nat := 77824

/-- A complete stress object: checked, it replaces the counters, which are then saved (R312, R315). -/
def applyStress (origin : Nat) (b : List Byte) (s : State) : State × Nat :=
  let body := b.drop 0x1000
  if fieldN b 0 4 ≠ 0x54534753 ∨ fieldN b 24 4 ≠ (crc32c body).toNat ∨ slice b 8 8 ≠ serialBytes s then (s, St.checkFail)
  else
    let counters := (List.range 16384).map (fun i => (i, fieldN body (4 * i) 4))
    let worn := (List.range 16384).filter (fun i => (fieldN body (65536 + i / 8) 1).testBit (i % 8))
    let t := setDisp (fun d => { d with pixels := pixelsOf s counters worn }) s
    (saveStress true (log origin 0x0A 0x0A05 (slice b 4 4 ++ slice b 16 4 ++ slice b 20 4 ++ zeros 4) false t), St.ok)

/-- SERVICE with every outlet in S0 (R315). -/
def serviceIdle (s : State) : Bool := inService s && allIdle s

/-- STRESS_RESTORE (R315). -/
def execStressRestore (r : Request) (s : State) : Host.Outcome State Fault Refusal :=
  .next (hostRequest (opBulk 0x0A04 [clsB]) r
    (fun s => guarded [need (serviceIdle s) St.refusedState]
      (bulkWrite 0x0A04 stressLength (fun n => need (n == stressLength) St.lenBad) (applyStress (portOrigin r.port)) r) s) s)

/-- DISPLAY_TEST (R315). -/
def execDisplayTest (r : Request) (s : State) : Host.Outcome State Fault Refusal :=
  .next (hostRequest (opLen 0x0A05 [clsN] 4) r
    (fun s => guarded [firstFail r.payload [span 0 1 0 2, rsv 1 1, cnt 2 2 1 60], need (serviceIdle s) St.refusedState]
      (fun s => done (setDisp (fun d => { d with test := some (fieldN r.payload 0 1) }) s)) s) s)

/-- DISPLAY_TEST_END (R315): both panels return to their content. -/
def execDisplayTestEnd (s : State) : Host.Outcome State Fault Refusal :=
  .next (setDisp (fun d => { d with test := none }) s)

end Sys2Proof.Machine
end

