-- ==== Sys2Proof/Machine/TestAccess.lean ====
section
/-! DEFINITION. The test access port (R469, R502, R511): its IDCODE, the life-cycle states that enable it, and its controller as
IEEE 1149.1 gives it (log entry 64). No command of the table clocks it. -/

namespace Sys2Proof.Machine

/-- The IDCODE: version, part, manufacturer and the constant bit (R511). -/
def idcode : BitVec 32 := 1#4 ++ 0x4400#16 ++ 0x535#11 ++ 1#1

/-- The port is enabled (R469): BLANK and SERVICE. -/
def tapEnabled (s : State) : Bool := s.cis.lifecycle == 0 || s.cis.lifecycle == 3

/-- Change the port. -/
def setTap (f : TestPort → TestPort) (s : State) : State := { s with rake := { s.rake with tap := f s.rake.tap } }

/-- In a state that does not enable the port it is held in Test-Logic-Reset. -/
def holdTap (s : State) : State := if tapEnabled s then s else setTap (fun _ => .init) s

/-- TDO is driven while the port is enabled and shifts; else it is high-impedance. -/
def tdoDriven (s : State) : Bool := tapEnabled s && (s.rake.tap.state == .shiftDr || s.rake.tap.state == .shiftIr)

/-- The controller's next state by TMS. -/
def TapState.next (tms : Bool) : TapState → TapState
  | .testLogicReset => if tms then .testLogicReset else .runTestIdle
  | .runTestIdle => if tms then .selectDr else .runTestIdle
  | .selectDr => if tms then .selectIr else .captureDr
  | .captureDr => if tms then .exit1Dr else .shiftDr
  | .shiftDr => if tms then .exit1Dr else .shiftDr
  | .exit1Dr => if tms then .updateDr else .pauseDr
  | .pauseDr => if tms then .exit2Dr else .pauseDr
  | .exit2Dr => if tms then .updateDr else .shiftDr
  | .updateDr => if tms then .selectDr else .runTestIdle
  | .selectIr => if tms then .testLogicReset else .captureIr
  | .captureIr => if tms then .exit1Ir else .shiftIr
  | .shiftIr => if tms then .exit1Ir else .shiftIr
  | .exit1Ir => if tms then .updateIr else .pauseIr
  | .pauseIr => if tms then .exit2Ir else .pauseIr
  | .exit2Ir => if tms then .updateIr else .shiftIr
  | .updateIr => if tms then .selectDr else .runTestIdle

/-- An edge of TCK: Test-Logic-Reset selects IDCODE. -/
def clockTap (tms : Bool) (s : State) : State :=
  if tapEnabled s then
    setTap (fun t =>
      let n := t.state.next tms
      { state := n, instr := if n = .testLogicReset then .idcode else t.instr }) s
  else holdTap s

/-- The data register that an instruction captures where the manual gives its content: the IDCODE, or the single 0 of BYPASS. -/
def capturedDr (i : TapInstr) : Option (Nat × Nat) :=
  match i with
  | .idcode => some (32, idcode.toNat)
  | .bypass => some (1, 0)
  | .samplePreload => none
  | .extest => none

end Sys2Proof.Machine
end

