-- ==== Sys2Proof/Machine/Cistern.lean ====
section
/-! DEFINITION. The Cistern (chapter 12): OTP pair errors and the root secret (R318, R319), key derivation and the key
store (R321 to R327), key blocks (R328 to R331), life-cycle states (R332 to R336), key update messages (R338 to R342),
key migration (R344 to R348), and the opcodes of R350. -/

namespace Sys2Proof.Machine

/-! ### Derivation (R322, R323) -/

/-- The order of the curve P-256. -/
def curveOrder : Nat := 0xFFFFFFFF00000000FFFFFFFFFFFFFFFFBCE6FAADA7179E84F3B9CAC2FC632551

/-- An ECDSA key from 48 bytes of output, the first byte most significant. -/
def ecdsaKey (out : BitVec 384) : BitVec 256 :=
  BitVec.ofNat 256 (leNat (wordBytes 48 out).reverse % (curveOrder - 1) + 1)

/-- The generation G: the count of the FIELD exits. -/
def keyGen (s : State) : Nat := s.otp.exitsX

/-- The derivation of R322. -/
def deriveKey (s : State) (label : String) (middle : List Byte) : BitVec 256 :=
  ecdsaKey (Config.derive s.otp.root (ascii "SGA4400/" ++ ascii label ++ middle ++ serialBytes s))

/-- The identity key. -/
def identityKey (s : State) : BitVec 256 := deriveKey s "identity" []

/-- The metrology key under a LEGAL measurement, as the life-cycle state has it (R321). -/
def metrologyKey (s : State) (meas : BitVec 256) : BitVec 256 :=
  deriveKey s (if s.cis.lifecycle = 2 then "metrology" else "metrology-ws") (digestBytes meas ++ leBytes 2 (keyGen s))

/-- The measurement of the image in a slot: the image hash of its signed header (R323, R419). -/
def measOf (s : State) (r : Nat) (b : Bool) : BitVec 256 :=
  let x := slotOf s r b
  match x.header with
  | some h => BitVec.ofNat 256 (leNat (slice h 72 32))
  | none => Config.sha256 x.data

/-! ### Keys by class (R321) -/

/-- The key of a class that the store holds. -/
def keyOfClass (s : State) : Nat → Option (BitVec 256)
  | 0 => s.cis.identity
  | 1 => s.cis.metrology
  | 2 => s.cis.tls
  | 3 => s.cis.wadi
  | 4 => s.cis.trellis
  | 5 => s.cis.hostKey
  | _ => none

/-- Put or destroy the key of a wrapped class. -/
def putKey (cls : Nat) (k : Option (BitVec 256)) (s : State) : State :=
  setCis (fun c =>
    if cls = 2 then { c with tls := k }
    else if cls = 3 then { c with wadi := k }
    else if cls = 4 then { c with trellis := k }
    else if cls = 5 then { c with hostKey := k }
    else c) s

/-- The update-verification slots that are programmed and not revoked. -/
def usableSlots (s : State) : List Nat := (List.range 4).filter (keyUsable s)

/-- The mask of classes held. Class 1 is held in FIELD only, as the service visit of chapter 12 shows it. -/
def classesHeld (s : State) : Nat :=
  flags [ s.cis.identity.isSome, s.cis.lifecycle == 2 && s.cis.metrology.isSome, s.cis.tls.isSome, s.cis.wadi.isSome
        , s.cis.trellis.isSome, s.cis.hostKey.isSome ]

/-! ### Key blocks (R328 to R331) -/

/-- The blobs that the store gives: each wrapped class that holds a key, under the present G and a measurement. The nonces are
random: a class has the free value at its place. -/
def blobsNow (s : State) (meas : BitVec 256) : List Blob :=
  [2, 3, 4, 5].filterMap (fun c => (keyOfClass s c).map (fun k =>
    ⟨c, keyGen s, meas, BitVec.ofNat 96 (Config.freeNat (s.freeCount + (c - 2))), k⟩))

/-- The draws of the four nonces. -/
def drawNonces (s : State) : State := draw (draw (draw (draw s)))

/-- Write the key block of the running tail from the store. -/
def writeKeys (s : State) : State :=
  let b := (keyBlock s).getD ⟨0, 0, [], []⟩
  drawNonces (putKeyBlock { b with writeGen := b.writeGen + 1, gen := keyGen s, blobs := blobsNow s s.cis.appMeas } s)

/-- A tail rewritten without blobs and pending statements, under the present G (R335 step 3). -/
def strippedTail (s : State) (b : KeyTail) : KeyTail :=
  let x := b.newest.getD ⟨0, 0, [], []⟩
  b.put { writeGen := x.writeGen + 1, gen := keyGen s, blobs := [], statements := x.statements.filter (fun y => y.state != 0) }

/-- Erase the key tail of an APP slot. -/
def eraseTail (slotB : Bool) (s : State) : State :=
  setCis (fun c => if slotB then { c with tailB := ⟨none, none⟩ } else { c with tailA := ⟨none, none⟩ }) s

/-- A blob loads when its generation and its tag agree (R331): cause 1 G, 2 tag. -/
def blobFails (s : State) (b : Blob) : Option Nat :=
  if b.gen ≠ keyGen s then some 1 else if b.meas ≠ s.cis.appMeas then some 2 else none

/-- Load a blob; entry 0x0B06 for one that fails. -/
def loadBlob (s : State) (b : Blob) : State :=
  match blobFails s b with
  | some cause => log 0 0x0B 0x0B06 ([byte b.cls, byte cause, 0, 0] ++ leBytes 2 b.gen ++ zeros 10) false (putKey b.cls none s)
  | none => putKey b.cls (some b.key) s

/-- The blobs of the key block are loaded; it is written again without those that could not be. -/
def loadBlobs (s : State) : State :=
  let bs := (keyBlock s).elim [] (fun b => b.blobs)
  let t := bs.foldl loadBlob (setCis (fun c => { c with tls := none, wadi := none, trellis := none, hostKey := none }) s)
  if bs.any (fun b => (blobFails s b).isSome) then writeKeys t else t

/-! ### Metrology key statements (R345, R346) -/

/-- A new statement of a metrology key, signed by a key; the newest four are kept. -/
def formStatement (state signer : Nat) (by' key meas : BitVec 256) (s : State) : State × Statement :=
  let b := (keyBlock s).getD ⟨0, keyGen s, [], []⟩
  let x : Statement :=
    { state, kind := if s.cis.lifecycle = 2 then 0 else 1, signer, number := s.cis.keyNumber + 1, utc := utcNow s
      cycle := s.sun.cycle, epoch := s.sun.epoch, gen := keyGen s, meas, pub := Config.publicKey key
      prev := if s.cis.keyNumber = 0 then 0
        else b.statements.head?.elim 0 (fun y => Config.sha256 (statementBytes s y))
      sig := 0 }
  let x := { x with sig := Config.sign by' (statementBody s x) s.freeCount }
  let older := b.statements.map (fun y => if state = 1 ∧ y.state = 1 then { y with state := 2 } else y)
  (draw (putKeyBlock { b with writeGen := b.writeGen + 1, statements := (x :: older).take 4 }
    (setCis (fun c => { c with keyNumber := c.keyNumber + 1 }) s)), x)

/-- The statement in force. -/
def statementInForce (s : State) : Option Statement :=
  (keyBlock s).bind (fun b => b.statements.find? (fun x => x.state == 1))

/-- The metrology key is derived again and its statement settled: one already in force or pending stays, one superseded comes
back in force (R345), a key without a statement gets one signed by the identity key (R348). -/
def deriveMetrology (s : State) : State :=
  let k := metrologyKey s s.cis.legalMeas
  let t := setCis (fun c => { c with metrology := some k }) s
  match ((keyBlock t).elim [] (fun b => b.statements)).find? (fun x => x.pub == Config.publicKey k) with
  | some x => if x.state = 2 then bringInForce x t else t
  | none =>
    let (u, x) := formStatement 1 0 (identityKey s) k s.cis.legalMeas t
    logStatement x u

/-! ### OTP (R318, R319, R333) -/

/-- Change the OTP. -/
def setOtp (f : Otp → Otp) (s : State) : State := { s with otp := f s.otp }

/-- A thermometer counts a pair in error as programmed. -/
def thermometer (base off bit count : Nat) : Nat := if count ≤ 8 * (off - base) + bit then count + 1 else count

/-- A byte of a field is read with a bit as 1. -/
def withByteBit (bs : List Byte) (i bit : Nat) : List Byte := modifyAt bs i (fun b => withBit b bit)

/-- The effect of a pair in error, and whether it is legal (R318). -/
def pairEffect (off bit pair : Nat) (s : State) : State × Bool :=
  let fault (t : State) : State := setCis (fun c => { c with cisFault := true }) t
  if off < 8 then (setOtp (fun o => { o with serial := withByteBit o.serial off bit }) s, false)
  else if off < 14 then (setOtp (fun o => { o with macBase := withByteBit o.macBase (off - 8) bit }) s, false)
  else if off = 0x40 ∧ bit ≤ 1 then (fault s, true)
  else if off = 0x40 ∧ bit = 2 then (setOtp (fun o => { o with retired := true }) s, true)
  else if 0x80 ≤ off ∧ off < 0xA0 then (if pair = 0 ∧ s.otp.retired = false then fault s else s, true)
  else if 0x100 ≤ off ∧ off < 0x200 then
    (setOtp (fun o => { o with revoked := withBit o.revoked ((off - 0x100) / 64) }) s, true)
  else if off = 0x200 then (setOtp (fun o => { o with revoked := withBit o.revoked (bit % 4) }) s, true)
  else if 0x240 ≤ off ∧ off < 0x280 then (setOtp (fun o => { o with entriesY := thermometer 0x240 off bit o.entriesY }) s, false)
  else if 0x280 ≤ off ∧ off < 0x2C0 then (setOtp (fun o => { o with exitsX := thermometer 0x280 off bit o.exitsX }) s, false)
  else if 0x2C0 ≤ off ∧ off < 0x3C0 then
    (setOtp (fun o => { o with keyCounter := thermometer 0x2C0 off bit o.keyCounter }) s, false)
  else if 0x400 ≤ off ∧ off < 0x680 then
    let r := (off - 0x400) / 128
    (setOtp (fun o => { o with floors := modifyAt o.floors r (thermometer (0x400 + 128 * r) off bit) }) s, false)
  else (s, false)

/-- A pair found in error: its effect and entry 0x0B05. The code of the reaction is not given. -/
def pairError (s : State) (e : Nat × Nat × Nat) : State :=
  let (t, legal) := pairEffect e.1 e.2.1 e.2.2 s
  let t := setCis (fun c => { c with pairErrors := c.pairErrors + 1 }) t
  draw (log 0 0x0B 0x0B05 (leBytes 2 e.1 ++ [byte e.2.1, byte e.2.2] ++ openField 1 t ++ zeros 11) legal t)

/-- The life-cycle state that OTP gives, and LC_FAULT (R333). -/
def lifecycleOf (o : Otp) : Nat × Bool :=
  if o.retired then (4, false)
  else if !o.rootValid then (0, false)
  else if o.entriesY = 0 then (1, false)
  else if o.entriesY = o.exitsX + 1 then (2, false)
  else if o.entriesY = o.exitsX then (3, false)
  else (3, true)

/-- Entry 0x0B01. -/
def logLifecycle (origin old new path : Nat) (s : State) : State :=
  log origin 0x0B 0x0B01 ([byte old, byte new, byte path, 0] ++ leBytes 2 (keyGen s) ++ leBytes 2 s.otp.entriesY ++
    leBytes 2 s.otp.exitsX ++ leBytes 2 s.otp.keyCounter ++ zeros 4) true s

/-- The root secret is generated at the first start after manufacture (R319, R320). One that was written and did not read
back is never written again: the module stays in BLANK with a CIS fault. -/
def generateRoot (rootOk : Bool) (s : State) : State :=
  let o := s.otp
  if o.factoryDone && !o.rootValid && !o.retired && o.root != 0 then setCis (fun c => { c with cisFault := true }) s
  else if o.factoryDone && !o.rootValid && !o.retired && !s.cis.trngFault && !s.cis.cisFault then
    let t := draw (setOtp (fun x => { x with root := Config.free256 s.freeCount }) s)
    if rootOk then logLifecycle 0 0 1 2 (setOtp (fun x => { x with rootValid := true }) t)
    else setCis (fun c => { c with cisFault := true }) t
  else s

/-- No key is held. -/
def dropKeys (s : State) : State :=
  setCis (fun c => { c with
    identity := none, metrology := none, tls := none, wadi := none, trellis := none, hostKey := none }) s

/-- The retirement of R335, steps 1 to 4. -/
def retire (s : State) : State :=
  setCis (fun c => { c with tailA := ⟨none, none⟩, tailB := ⟨none, none⟩, lifecycle := 4 })
    (dropKeys (setOtp (fun o => { o with retired := true, root := BitVec.allOnes 256, rootDestroyed := true }) s))

/-! ### Start of CIS (R325, R327, R331, R336) -/

/-- The one-way measurement registers are written for the slots that boot (R323). -/
def measureImages (s : State) : State :=
  setCis (fun c => { c with legalMeas := measOf s 1 (runningB s 1), appMeas := measOf s 2 (runningB s 2) }) s

/-- The key store is built again. Under a CIS fault no key is derived and the module behaves as RETIRED (R318); a module
whose root secret failed its read-back stays in BLANK (R319). -/
def buildStore (s : State) : State :=
  let (state, lc) := lifecycleOf s.otp
  let state := if s.cis.cisFault && s.otp.rootValid then 4 else state
  let t := draw (draw (setCis (fun c => { c with
    lifecycle := state, lcFault := lc, scramble := Config.free64 s.freeCount
    maskSeed := Config.free64 (s.freeCount + 1) }) (dropKeys s)))
  let t := holdTap t
  if s.otp.retired then retire t
  else if s.cis.cisFault || state == 0 then t
  else deriveMetrology (loadBlobs (setCis (fun c => { c with identity := some (identityKey t) }) t))

/-- CIS at a start of the module. -/
def startCistern (i : StartInput) (s : State) : State :=
  let t := measureImages (setCis (fun c => { c with cisFault := false, pairErrors := 0 }) s)
  buildStore (generateRoot i.rootOk (i.otpErrors.foldl pairError t))

/-! ### Health tests and key requests (R320, R326) -/

/-- TRNG_TEST_FAIL (R320): test 0 is the repetition count, 1 the adaptive proportion. -/
def execTrngTestFail (test : Fin 2) (s : State) : Host.Outcome State Fault Refusal :=
  .next (if up s then
      log 0 0x0B 0x0B07 (byte (test.val + 1) :: zeros 15) false (setCis (fun c => { c with trngFault := true }) s)
    else s)

/-- TRNG_RETEST (R320): 1 s after a failure. -/
def execTrngRetest (ok : Bool) (s : State) : Host.Outcome State Fault Refusal :=
  .next (if up s then setCis (fun c => { c with trngFault := c.trngFault && !ok }) s else s)

/-- The elements with a request queue (R12). -/
def hasQueue (s : State) (e : Nat) : Bool :=
  e == s.dom.active || (2 ≤ e && e ≤ 8) || e == Elem.fld || e == Elem.hst

/-- A class holds a key for a request: class 6 while a slot is programmed and not revoked. -/
def grants (s : State) (cls : Nat) : Bool :=
  !s.cis.cisFault && (if cls = 6 then !(usableSlots s).isEmpty else (keyOfClass s cls).isSome)

/-- CIS_REQUEST (R326): the request is served by class, or answered NO_KEY. A request on class 1 is a metrology signature. -/
def execCisRequest (cls : Fin 7) (elem : Fin 14) (s : State) : Host.Outcome State Fault Refusal :=
  .next (if up s && hasQueue s elem.val then
      let t := emit (.cis elem.val cls.val (grants s cls.val)) s
      if cls.val = 1 ∧ grants s 1 = true then signed t else t
    else s)

/-! ### Migration (R344, R345) -/

/-- The new LEGAL image's metrology key gets its pending statement, signed by the present key in FIELD, else by the identity
key; it stands in both copies of the running key block. -/
def migrateLegal (s : State) : State :=
  let meas := measOf s 1 (!confirmedB s 1)
  let field := s.cis.lifecycle = 2
  match (if field then s.cis.metrology else s.cis.identity) with
  | some by' =>
    let t := (formStatement 0 (if field then 1 else 0) by' (metrologyKey s meas) meas s).1
    putStatements ((keyBlock t).elim [] (fun b => b.statements)) t
  | none => s

/-- The blobs are wrapped for the new APP image and written, with the statements, to the new slot's tail. -/
def migrateApp (s : State) : State :=
  let b := !confirmedB s 2
  let x := (keyBlock s).getD ⟨0, keyGen s, [], []⟩
  let tail := if b then s.cis.tailB else s.cis.tailA
  let block : KeyBlock := { x with
    writeGen := (tail.newest.elim 0 (fun y => y.writeGen)) + 1, gen := keyGen s, blobs := blobsNow s (measOf s 2 b) }
  drawNonces (setCis (fun c =>
    if b then { c with tailB := c.tailB.put block } else { c with tailA := c.tailA.put block }) s)

/-- Keys migrate for the regions of an activation (R345), one region at a time, APP and then LEGAL (R424). Where both do, the
new slot's tail takes the pending statement along (log entry 47). -/
def migrateKeys (mask : Nat) (s : State) : State :=
  let t := if mask.testBit 2 then migrateApp s else s
  let t := if mask.testBit 1 then migrateLegal t else t
  let t := if mask.testBit 1 && mask.testBit 2 then migrateApp t else t
  setCis (fun c => { c with
    migrating := if mask.testBit 2 then some 2 else if mask.testBit 1 then some 1 else c.migrating }) t

/-- The images are confirmed: the migration is over. -/
def keysConfirm (mask : Nat) (s : State) : State :=
  if mask.testBit 1 || mask.testBit 2 then setCis (fun c => { c with migrating := none }) s else s

/-- Pending statements become superseded. -/
def supersede (s : State) : State :=
  putStatements (((keyBlock s).elim [] (fun b => b.statements)).map (fun x => if x.state = 0 then { x with state := 2 } else x)) s

/-- Fallback to the old images (R345): a pending statement becomes superseded, and the old key's is logged again. A key that
signed already is set back at the start that derives the old one. -/
def keysFallBack (mask : Nat) (s : State) : State :=
  let t := keysConfirm mask s
  if mask.testBit 1 && ((keyBlock t).any (fun b => b.statements.any (fun x => x.state == 0))) then
    let u := supersede t
    (statementInForce u).elim u (fun x => logStatement x u)
  else t

/-- A migration is abandoned: the new slot's tail is erased (R429). -/
def abandonMigration (s : State) : State :=
  supersede (setCis (fun c => { c with migrating := none }) (eraseTail (!confirmedB s 2) s))

/-! ### Life-cycle changes (R334, R335) -/

/-- The statement of the key that a transition derives: signed by the identity key, in force at once. -/
def newMetrology (s : State) : State × Statement :=
  let k := metrologyKey s s.cis.legalMeas
  formStatement 1 0 (identityKey s) k s.cis.legalMeas (setCis (fun c => { c with metrology := some k }) s)

/-- The move out of FIELD (R335, steps 1 to 5), with entry 0x0B01 for the state it leads to. -/
def leaveField (origin path target : Nat) (s : State) : State :=
  let t := setOtp (fun o => { o with exitsX := o.exitsX + 1 }) s
  let t := setCis (fun c => { c with metrology := none, tls := none, wadi := none, trellis := none, hostKey := none }) t
  let t := setCis (fun c => { c with
    tailA := strippedTail t c.tailA, tailB := strippedTail t c.tailB, lifecycle := 3 }) t
  let (u, x) := newMetrology t
  logStatement x (logLifecycle origin 2 target path u)

/-- Entry into FIELD. -/
def enterField (origin : Nat) (s : State) : State :=
  let old := s.cis.lifecycle
  let t := setCis (fun c => { c with lifecycle := 2 }) (setOtp (fun o => { o with entriesY := o.entriesY + 1 }) s)
  let (u, x) := newMetrology t
  logStatement x (logLifecycle origin old 2 0 u)

/-- Entry into RETIRED. -/
def enterRetired (origin : Nat) (s : State) : State :=
  if s.cis.lifecycle = 2 then retire (leaveField origin 0 4 s)
  else logLifecycle origin s.cis.lifecycle 4 0 (retire s)

/-- The refusals of R334: the status for a change to a target state. -/
def lifecycleStatus (s : State) (target : Nat) : Nat :=
  let now := s.cis.lifecycle
  if (now = 1 ∨ now = 3) ∧ target = 2 then
    if allIdle s = false ∨ onTrial s 1 = true ∨ onTrial s 2 = true ∨ s.cis.lcFault = true then St.refusedState
    else if 512 ≤ s.otp.entriesY ∨ legalRoom s = false then St.noSpace
    else St.ok
  else if (now = 2 ∧ target = 3) ∨ ((now = 1 ∨ now = 2 ∨ now = 3) ∧ target = 4) then need (allWaiting s) St.refusedState
  else St.refusedState

/-- What ends when the module leaves SERVICE: trial calibrations (R91), and the suspension of handback (R366). -/
def leaveService (s : State) : State :=
  let t := dropTrials s
  { t with dom := { t.dom with suspended := false } }

/-- A transition that is not refused. The test access port is held where the new state does not enable it (R469). -/
def changeLifecycle (origin path target : Nat) (s : State) : State :=
  let s := if s.cis.lifecycle = 3 ∧ target ≠ 3 then leaveService s else s
  holdTap (
    if target = 2 then enterField origin s
    else if target = 3 then leaveField origin path 3 s
    else enterRetired origin s)

/-- Entry into SERVICE from the secured service tag, where record 0x0B01 allows it (R334, R349). -/
def serviceByTag (s : State) : State × Nat :=
  if cfgN s 0x0B01 0 0 1 1 ≠ 2 then (s, St.refusedState)
  else if s.cis.lifecycle ≠ 2 ∨ allWaiting s = false then (s, St.refusedState)
  else (changeLifecycle 6 1 3 s, St.ok)

/-! ### Messages (R338 to R343) -/

/-- The payload of opcode 0x0B01. -/
def cisternBytes (s : State) : List Byte :=
  let c := s.cis
  [byte c.lifecycle, byte (flags [c.cisFault, c.lcFault, c.trngFault, c.migrating.isSome])] ++ leBytes 2 (keyGen s) ++
    leBytes 2 s.otp.entriesY ++ leBytes 2 s.otp.exitsX ++ leBytes 2 s.otp.keyCounter ++
    [byte (classesHeld s), byte (s.otp.programmed.toNat + 16 * s.otp.revoked.toNat)] ++ leBytes 2 c.pairErrors ++
    leBytes 4 ((statementInForce s).elim 0 (fun x => x.number))

/-- The key counter is programmed up to a message's counter. -/
def programCounter (n : Nat) (s : State) : State := setOtp (fun o => { o with keyCounter := n }) s

/-- An accepted message sends event 0x0B01 when fewer bits remain than the reserve (R342). -/
def warnCounter (s : State) : State :=
  if 2048 - s.otp.keyCounter < cfgN s 0x0B01 0 2 2 64 then eventAll clsN 0x0B01 (cisternBytes s) s else s

/-- The identity binding names this module (check 3). -/
def bindingMine (s : State) (b : List Byte) : Bool := s.cis.identity.isSome && b == identityHash s

/-- Checks 5 and 6 of R340. -/
def counterStatus (s : State) (n : Nat) : Nat :=
  if n ≤ s.otp.keyCounter then St.counterStale else if s.otp.keyCounter + 16 < n then St.range else St.ok

/-- The payload of a message is secret: a key of class 3, 4 or 5 is written. -/
def secretPayload (cls op : Nat) : Bool := 3 ≤ cls && cls ≤ 5 && op == 1

/-- The payload length of a class and operation; none where R338 defines no such message. -/
def payloadLength (cls op : Nat) : Option Nat :=
  if op = 1 then (if 3 ≤ cls ∧ cls ≤ 5 then some 32 else if cls = 6 then some 64 else none) else some 0

/-- Check 2 of R340. -/
def fieldsOk (p : List Byte) : Bool :=
  let cls := fieldN p 2 1
  let op := fieldN p 3 1
  fieldN p 0 2 == 1 && decide (2 ≤ cls ∧ cls ≤ 6) && decide (1 ≤ op ∧ op ≤ 3) &&
    (if cls = 6 then decide (fieldN p 25 1 ≤ 3) else fieldN p 25 1 == 0) &&
    payloadLength cls op == some (fieldN p 26 2) && (secretPayload cls op || fieldN p 28 80 == 0)

/-- The operations of R341, and the refusals of writes and revocations of class 6. -/
def operationAllowed (s : State) (cls op slot : Nat) : Bool :=
  let st := s.cis.lifecycle
  (st == 1 || st == 2 || st == 3) &&
    (if cls = 2 then op == 2
     else if cls ≤ 5 then op ≤ 2
     else (op == 1 && st != 2 && !s.otp.programmed.getLsbD slot) ||
       (op == 3 && !((usableSlots s).filter (fun i => i != slot)).isEmpty))

/-- The key that a key update message carries (R339); none where its GCM tag does not verify. -/
def unwrapped (s : State) (p : List Byte) : Option (BitVec 256) := s.cis.identity.bind (fun d => Config.unwrap d p)

/-- The checks of R340 on a key update message. -/
def keyMessageStatus (s : State) (p : List Byte) : Nat :=
  let cls := fieldN p 2 1
  let op := fieldN p 3 1
  let n := fieldN p 20 4
  let checks : List Nat :=
    [ need (p.length == 108 + fieldN p 26 2 + 64) St.lenBad
    , need (fieldsOk p) St.range
    , need (bindingMine s (slice p 4 16)) St.checkFail
    , need (keyVerifies s (fieldN p 24 1) (p.take (108 + fieldN p 26 2)) (slice p (108 + fieldN p 26 2) 64)) St.authFail
    , counterStatus s n
    , need (operationAllowed s cls op (fieldN p 25 1) && !onTrial s 2) St.refusedState
    , need s.cis.migrating.isNone St.busy
    , need (!secretPayload cls op || (unwrapped s p).isSome) St.checkFail
    , need (decide (n ≤ 2048) && (cls != 6 || legalRoom s)) St.noSpace ]
  (checks.find? (fun c => c != St.ok)).getD St.ok

/-- Entry 0x0B03; the hash is of the key concerned, open where there was none. -/
def logKey (origin cls op slot n : Nat) (key : Option (List Byte)) (s : State) : State :=
  let hash := key.elim (openField 8 s) (fun k => (digestBytes (Config.sha256 (ascii "SGKC" ++ k))).take 8)
  draw (log origin 0x0B 0x0B03 ([byte cls, byte op, byte slot, 0] ++ leBytes 4 n ++ hash) (cls = 6) s)

/-- An operation on an update-verification slot. -/
def slotOperation (op slot : Nat) (key : BitVec 512) (s : State) : State :=
  if op = 1 then
    setOtp (fun o => { o with
      updateKeys := modifyAt o.updateKeys slot (fun _ => key), programmed := withBit o.programmed slot }) s
  else setOtp (fun o => { o with revoked := withBit o.revoked slot }) s

/-- An accepted key update message is applied (R340). -/
def applyKeyMessage (origin : Nat) (p : List Byte) (s : State) : State :=
  let cls := fieldN p 2 1
  let op := fieldN p 3 1
  let slot := fieldN p 25 1
  let n := fieldN p 20 4
  let t := programCounter n s
  if cls = 6 then
    let t := slotOperation op slot (BitVec.ofNat 512 (fieldN p 108 64)) t
    warnCounter (logKey origin cls op slot n ((t.otp.updateKeys[slot]?).map (wordBytes 64)) t)
  else
    let new := if op = 1 then unwrapped s p else none
    let key := if op = 1 then new else keyOfClass s cls
    warnCounter (logKey origin cls op slot n (key.map digestBytes) (writeKeys (putKey cls new t)))

/-- KEY_UPDATE (R338, R340): the message's head, the key that it carries and its signature. A refused message is logged and has
no other effect. -/
def execKeyUpdate (head : Request) (key sig : List Byte) (s : State) : Host.Outcome State Fault Refusal :=
  let r := head.append (key ++ sig)
  let p := r.payload
  .next (hostRequest ⟨0x0B03, [clsN], false, fun n => 172 ≤ n && n ≤ 236⟩ r
    (fun s =>
      let st := keyMessageStatus s p
      if st = St.ok then done (applyKeyMessage (portOrigin r.port) p s)
      else refuse st (log (portOrigin r.port) 0x0B 0x0B04
        ([byte (fieldN p 2 1), byte st, 0, 0] ++ leBytes 4 (fieldN p 20 4) ++ zeros 8) false s)) s)

/-- The checks of R343 on a life-cycle message. -/
def lifeMessageStatus (s : State) (p : List Byte) : Nat :=
  let n := fieldN p 20 4
  let checks : List Nat :=
    [ need (fieldN p 0 2 == 1 && decide (fieldN p 2 1 ≤ 4) && fieldN p 24 4 == 0) St.range
    , need (bindingMine s (slice p 4 16)) St.checkFail
    , need (keyVerifies s (fieldN p 3 1) (p.take 28) (slice p 28 64)) St.authFail
    , counterStatus s n
    , lifecycleStatus s (fieldN p 2 1)
    , need (decide (n ≤ 2048)) St.noSpace ]
  (checks.find? (fun c => c != St.ok)).getD St.ok

/-- LIFE_CYCLE_CHANGE (R334, R343): the message's head and its signature. -/
def execLifeCycleChange (head : Request) (sig : List Byte) (s : State) : Host.Outcome State Fault Refusal :=
  let r := head.append sig
  let p := r.payload
  .next (hostRequest (opLen 0x0B05 [clsN] 92) r
    (fun s => guarded [lifeMessageStatus s p] (fun s =>
      let t := changeLifecycle (portOrigin r.port) 0 (fieldN p 2 1) (programCounter (fieldN p 20 4) s)
      reply [byte t.cis.lifecycle, 0, 0, 0] (warnCounter t)) s) s)

/-! ### Opcodes (R350, R351) -/

/-- CISTERN_STATUS (R350). -/
def execCisternStatus (r : Request) (s : State) : Host.Outcome State Fault Refusal :=
  .next (hostRequest (opNone 0x0B01 [clsN, clsH]) r (fun s => reply (cisternBytes s) s) s)

/-- An item of opcode 0x0B02: its content, and its length where there is none. -/
def publicItem (s : State) (item : Nat) : Option (List Byte) × Nat :=
  if item = 0 then (s.cis.identity.map (fun k => wordBytes 64 (Config.publicKey k)), 64)
  else if item = 1 then (s.cis.tls.map (fun k => wordBytes 64 (Config.publicKey k)), 64)
  else if item ≤ 5 then
    (if s.otp.programmed.getLsbD (item - 2) then (s.otp.updateKeys[item - 2]?).map (wordBytes 64) else none, 64)
  else ((((keyBlock s).elim [] (fun b => b.statements))[item - 8]?).map (fun x => byte x.state :: statementBytes s x), 221)

/-- PUBLIC_KEY_READ (R350, R351). -/
def execPublicKeyRead (r : Request) (s : State) : Host.Outcome State Fault Refusal :=
  let item := fieldN r.payload 0 1
  .next (hostRequest (opLen 0x0B02 [clsN, clsB] 4) r
    (guarded [need (decide (item ≤ 5 ∨ (8 ≤ item ∧ item ≤ 11))) St.range, reservedOk r.payload 1 3]
      (fun s =>
        let x := publicItem s item
        reply ([byte item, byte (flag x.1.isSome), 0, 0] ++ x.1.getD (zeros x.2)) s)) s)

/-- TLS_KEY_GENERATE (R351). While the generator refuses random requests the opcode is refused by state. -/
def execTlsKeyGenerate (r : Request) (s : State) : Host.Outcome State Fault Refusal :=
  .next (hostRequest (opNone 0x0B04 [clsN]) r
    (fun s => guarded [ need (s.cis.lifecycle == 1 || s.cis.lifecycle == 3) St.refusedState
                      , need s.cis.migrating.isNone St.busy, need (!s.cis.trngFault) St.refusedState ]
      (fun s =>
        let k := Config.free256 s.freeCount
        let pub := wordBytes 64 (Config.publicKey k)
        let t := writeKeys (putKey 2 (some k) (draw s))
        let sig := t.cis.identity.elim (openField 64 t)
          (fun d => wordBytes 64 (Config.sign d (ascii "SGTK" ++ serialBytes t ++ pub) t.freeCount))
        reply (pub ++ sig)
          (logKey (portOrigin r.port) 2 1 0 t.otp.keyCounter (some (digestBytes k)) (draw t))) s) s)

/-- ATTEST (R350). Without an identity key the manual gives no signature. -/
def execAttest (r : Request) (s : State) : Host.Outcome State Fault Refusal :=
  .next (hostRequest (opLen 0x0B06 [clsN, clsH] 32) r
    (fun s =>
      let body := [byte s.cis.lifecycle, 0] ++ leBytes 2 (keyGen s) ++
        leBytes 4 ((statementInForce s).elim 0 (fun x => x.number)) ++ digestBytes s.cis.legalMeas ++ digestBytes s.cis.appMeas
      let sig := s.cis.identity.elim (openField 64 s) (fun d => wordBytes 64 (Config.sign d (r.payload ++ body) s.freeCount))
      reply (body ++ sig) (draw s)) s)

/-! ### Identity (R67) -/

/-- The post name of record 0x0103 (R66). -/
def postName (s : State) : List Byte := (findRec s.cfg.recs 0x0103 0).elim [] (fun r => r.body)

/-- The payload of opcode 0x0101 for an origin. -/
def identityBytes (p : Port) (s : State) : List Byte :=
  serialBytes s ++ padTo 16 (identityHash s) ++ [byte s.cis.lifecycle, byte s.dom.active] ++ leBytes 2 s.sun.epoch ++
    [0, 1, 2, 3].flatMap (fun r => leBytes 4 (runningVersion s r)) ++ leBytes 4 s.cfg.serial ++ [byte s.cfg.slot, 0, 0, 0] ++
    wordBytes 4 (originOf s p).lastSeq ++ postName s

/-- IDENTITY (R67): exempt from the sequence check of R52. -/
def execIdentity (r : Request) (s : State) : Host.Outcome State Fault Refusal :=
  .next (hostRequest (opNone 0x0101 [clsN, clsH]) r (fun s => reply (identityBytes r.port s) s) s)

end Sys2Proof.Machine
end

