-- ==== Sys2Proof/Machine/Tag.lean ====
section
/-! DEFINITION. The service tag: its blocks and their atomic writes (R444 to R453), its commands, and the requests that
reach FLD through it. -/

namespace Sys2Proof.Machine

/-! ### Blocks (R451, R452) -/

/-- Change the tag. -/
def setTag (f : Tag → Tag) (s : State) : State := { s with tag := f s.tag }

/-- The CRC of data and generation, computed as in R58 (R451). -/
def copyCrc (data : List Byte) (gen : U16) : U16 := crc16 (data ++ wordBytes 2 gen)

/-- A copy's CRC stands. -/
def TagCopy.good (x : TagCopy) : Bool := x.crc == copyCrc x.data x.gen

/-- A block that has never been written: 0 (R445). -/
def blankBlock (k : Nat) : TagBlock :=
  ⟨k, ⟨zeros 32, 0, copyCrc (zeros 32) 0⟩, ⟨zeros 32, 0, ~~~copyCrc (zeros 32) 0⟩, some (false, 0)⟩

/-- The block as stored. -/
def storedBlock (s : State) (k : Nat) : TagBlock := (s.tag.blocks.find? (fun b => b.index == k)).getD (blankBlock k)

/-- `a` is the later generation (R5 on 16 bits). -/
def laterGen (a b : U16) : Bool := 1 ≤ (a - b).toNat ∧ (a - b).toNat < 2 ^ 15

/-- The copy of a block. -/
def copyOf (b : TagBlock) (one : Bool) : TagCopy := if one then b.copy1 else b.copy0

/-- Which copy is committed (R451): the one that the marker names, if it agrees, else the good one with the later
generation. -/
def committedCopy (b : TagBlock) : Option Bool :=
  let named := b.marker.bind (fun m =>
    if (copyOf b m.1).good ∧ (copyOf b m.1).gen.setWidth 8 = m.2 then some m.1 else none)
  match named with
  | some c => some c
  | none =>
    match b.copy0.good, b.copy1.good with
    | true, true => some (laterGen b.copy1.gen b.copy0.gen)
    | true, false => some false
    | false, true => some true
    | false, false => none

/-- The committed content of a block; blocks 4 to 7 read as 0. -/
def blockContent (s : State) (k : Nat) : Option (List Byte) :=
  if 4 ≤ k ∧ k ≤ 7 then some (zeros 32)
  else (committedCopy (storedBlock s k)).map (fun c => (copyOf (storedBlock s k) c).data)

/-- Store a block. -/
def putBlock (b : TagBlock) (s : State) : State :=
  setTag (fun t => { t with blocks := b :: t.blocks.filter (fun x => x.index != b.index) }) s

/-- Steps 3 to 5 of R452 on a block, as far as a collapse of the field lets them run. Of a collapse in step 3 the manual says
that the inactive copy fails its CRC. -/
def programBlock (b : TagBlock) (data : List Byte) (c : Collapse) : TagBlock :=
  let old := (committedCopy b).getD true
  let gen := (copyOf b old).gen + 1
  let next : TagCopy := ⟨padTo 32 data, gen, copyCrc (padTo 32 data) gen⟩
  let broken : TagCopy :=
    ⟨padTo 32 data, (copyOf b (!old)).gen, ~~~copyCrc (padTo 32 data) (copyOf b (!old)).gen⟩
  let put (b : TagBlock) (x : TagCopy) : TagBlock := if old then { b with copy0 := x } else { b with copy1 := x }
  match c with
  | .step1 => b
  | .step2 => b
  | .step3 => put b broken
  | .step4 => put b next
  | .beforeMarker => put b next
  | .afterMarker => { put b next with marker := some (!old, gen.setWidth 8) }
  | .never => { put b next with marker := some (!old, gen.setWidth 8) }

/-- A write of the wired side that commits. -/
def wiredWrite (k : Nat) (data : List Byte) (s : State) : State :=
  putBlock (programBlock (storedBlock s k) data .never) s

/-- A block that cannot be read is logged by FLD (R451). -/
def logUnreadable (k : Nat) (s : State) : State :=
  if up s then log 0 0x0F 0x0F03 [byte k] false s else s

/-! ### Field commands (R446 to R449) -/

/-- The tag answers its reader. -/
def tagAnswer (status : Nat) (data : List Byte) (s : State) : State := emit (.tag (byte status :: data)) s

/-- The module supplies the tag (R444): in RUN, IDLE and HOLD, and not while it is shut down with the battery domain alone at
work (R479) or stopped for a loss of power. -/
def tagPowered (s : State) : Bool :=
  (s.power.state == .run || s.power.state == .idle || s.power.state == .hold) && s.power.phase != .shutDown &&
    s.power.phase != .unpowered

/-- VHARV is live: it carries energy from the field alone, also while the module supplies the tag (R454, R497). -/
def harvestLive (s : State) : Bool := s.tag.field

/-- The limit on VHARV in µA, at a field of 4.5 A/m or more: 5 mW at 3.0 V, and 0.5 mA during a word program (R454). -/
def harvestLimit (programming : Bool) : Nat := if programming then 500 else 5000 / 3

/-- TAG_FIELD_ON (R444): a new random UID with UID0 = 0x08, ATQA 0x0004, SAK 0x20, FSCI 8 and FWI 4. -/
def execTagFieldOn (s : State) : Host.Outcome State Fault Refusal :=
  let uid := (Config.free32 s.freeCount &&& 0xFFFFFF00#32) ||| 8#32
  .next (emit (.tagActive 4 uid 0x20 8 4)
    (draw (setTag (fun t => { t with field := true, secured := false, uid := uid }) s)))

/-- The tag goes back to open. -/
def tagOpen (s : State) : State := setTag (fun t => { t with secured := false, nonce := none }) s

/-- TAG_FIELD_OFF (R447): field-off or deselect returns the tag to open. A deselect leaves the field; which of the two the
reader did is open (log entry 67). -/
def execTagFieldOff (s : State) : Host.Outcome State Fault Refusal :=
  .next (draw (setTag (fun t => { t with field := t.field && Config.freeBool s.freeCount }) (tagOpen s)))

/-- A command of the tag needs a field session. -/
def inField (f : State → State) (s : State) : State := if s.tag.field then f s else s

/-- TAG_COMMAND_READ (R447, R451). -/
def execTagCommandRead (first count : Nat) (s : State) : Host.Outcome State Fault Refusal :=
  .next (inField (fun s =>
    if count = 0 ∨ 4 < count ∨ 256 < first + count then tagAnswer St.range [] s
    else
      let ks := (List.range count).map (fun i => first + i)
      let bad := ks.filter (fun k => (blockContent s k).isNone)
      tagAnswer (if bad = [] then St.ok else St.checkFail) (ks.flatMap (fun k => (blockContent s k).getD (zeros 32)))
        (bad.foldl (fun t k => logUnreadable k t) s)) s)

/-- The bytes of a block that the field may write in secured (R446): 0 none, 8, 16 or all 32. -/
def fieldRights (k : Nat) : Nat := if k = 2 then 8 else if k = 3 then 16 else if 72 ≤ k then 32 else 0

/-- The content a field write forms (R450, R452 step 2). -/
def mergedContent (s : State) (k : Nat) (data : List Byte) : List Byte :=
  (padTo 32 data).take (fieldRights k) ++ ((blockContent s k).getD (zeros 32)).drop (fieldRights k)

/-- TAG_COMMAND_WRITE (R446, R452): a collapse of the field cuts the write short on field power alone, and otherwise
only ends the session. -/
def execTagCommandWrite (block : Nat) (data : List Byte) (collapse : Collapse) (s : State) :
    Host.Outcome State Fault Refusal :=
  .next (inField (fun s =>
    let ends (t : State) : State :=
      if collapse = .never then tagAnswer St.ok [] t else setTag (fun x => { x with field := false }) (tagOpen t)
    if 256 ≤ block then tagAnswer St.range [] s
    else if s.tag.secured = false ∨ fieldRights block = 0 then
      if collapse = .step1 then ends s else tagAnswer St.locked [] s
    else
      let c := if tagPowered s ∧ collapse ≠ .step1 then .never else collapse
      let b := programBlock (storedBlock s block) (mergedContent s block data) c
      let committed := c = .never ∨ c = .afterMarker
      ends (setTag (fun t => { t with
          fieldWrites := if committed then t.fieldWrites + 1 else t.fieldWrites
          poweredRequest := if block = 3 ∧ committed then tagPowered s else t.poweredRequest }) (putBlock b s))) s)

/-- A wrong password or a failed Respond counts; the eighth locks the tag (R448). -/
def wrongAttempt (s : State) : State :=
  let n := s.tag.attempts + 1
  let t := setTag (fun x => { x with attempts := n, locked := decide (8 ≤ n) }) s
  if n = 8 ∧ up s then log 6 0x0F 0x0F02 [1, 0, byte n] false t else t

/-- The tag enters secured (R448). -/
def enterSecured (s : State) : State := setTag (fun t => { t with secured := true, attempts := 0 }) s

/-- PASSWORD (R448). A stored password of 0 accepts none (log entry 11). -/
def execPassword (value : U32) (s : State) : Host.Outcome State Fault Refusal :=
  .next (inField (fun s =>
    if s.tag.locked then tagAnswer St.locked [] s
    else if s.tag.password ≠ 0 ∧ value = s.tag.password then tagAnswer St.ok [] (enterSecured s)
    else tagAnswer St.authFail [] (wrongAttempt s)) s)

/-- CHALLENGE (R449). -/
def execChallenge (s : State) : Host.Outcome State Fault Refusal :=
  .next (inField (fun s =>
    if s.tag.locked then tagAnswer St.locked [] s
    else if !(awake s) || s.cis.trngFault then tagAnswer St.refusedState [] s
    else
      let nt := Config.free128 s.freeCount
      tagAnswer St.ok (wordBytes 16 nt) (draw (setTag (fun t => { t with nonce := some (nt, s.clockMs) }) s))) s)

/-- The module's own signature for the reader (R449 step 4); open where no identity key is held. -/
def tagSignature (s : State) (nt nr : BitVec 128) : BitVec 512 :=
  match s.cis.identity with
  | some k => Config.sign k (ascii "SGTR" ++ wordBytes 16 nt ++ wordBytes 16 nr) s.freeCount
  | none => BitVec.ofNat 512 (Config.freeNat s.freeCount)

/-- The message that a reader signs (R449 step 2). -/
def readerMessage (s : State) (nt nr : BitVec 128) : List Byte :=
  ascii "SGTC" ++ serialBytes s ++ wordBytes 16 nt ++ wordBytes 16 nr

/-- RESPOND (R449): the signature is r, then s (R44). -/
def execRespond (slot : Nat) (nr : BitVec 128) (sigR sigS : BitVec 256) (s : State) : Host.Outcome State Fault Refusal :=
  .next (inField (fun s =>
    if s.tag.locked then tagAnswer St.locked [] s
    else if !(awake s) then tagAnswer St.refusedState [] s
    else if 4 ≤ slot then tagAnswer St.range [] s
    else match s.tag.nonce with
      | none => tagAnswer St.timeout [] s
      | some (nt, at') =>
        let t := setTag (fun x => { x with nonce := none }) s
        if at' + 2000 < s.clockMs then tagAnswer St.timeout [] t
        else if keyVerifies s slot (readerMessage s nt nr) (wordBytes 32 sigR ++ wordBytes 32 sigS) then
          tagAnswer St.ok (wordBytes 64 (tagSignature s nt nr)) (draw (enterSecured t))
        else tagAnswer St.authFail [] (wrongAttempt t)) s)

/-- LEAVE (R447). -/
def execLeave (s : State) : Host.Outcome State Fault Refusal :=
  .next (inField (fun s => tagAnswer St.ok [] (tagOpen s)) s)

/-- TAG_STATE (R447). -/
def execTagState (s : State) : Host.Outcome State Fault Refusal :=
  .next (inField (fun s =>
    tagAnswer St.ok [byte (flags [s.tag.secured, s.tag.locked, tagPowered s]), byte s.tag.attempts] s) s)

/-! ### The wired side (R445, R450) -/

/-- FLD is at work on the tag. -/
def tagServed (s : State) : Bool := awake s

/-- Block 0 (R445). -/
def identityBlock (s : State) : List Byte :=
  leBytes 2 1 ++ [byte s.cis.lifecycle, 0] ++ serialBytes s ++ padTo 16 (identityHash s) ++ zeros 4

/-- Block 1 (R445). -/
def statusBlock (s : State) : List Byte :=
  leBytes 4 (checkValue s) ++ [byte (flag s.hedge.confirmed), byte (hedgeStateCode s), byte s.dom.active, 0] ++
    outlets.map (fun o => byte (sessOf s o).state.code) ++ leBytes 4 (runningVersion s 2) ++ leBytes 4 (runningVersion s 1) ++
    leBytes 4 (utcField (utcNow s)) ++ [byte (flag s.hedge.safeOk)] ++ zeros 7

/-- A status block without its time. -/
def withoutTime (b : List Byte) : List Byte := b.take 20 ++ b.drop 24

/-- TAG_STATUS_UPDATE (R445): block 1 is written when a field of it has changed. -/
def execTagStatusUpdate (s : State) : Host.Outcome State Fault Refusal :=
  .next (
    if tagServed s ∧ (blockContent s 1).map withoutTime ≠ some (withoutTime (statusBlock s)) then
      wiredWrite 1 (statusBlock s) s
    else s)

/-- The entries that are still to be mirrored, oldest first (R445). -/
def mirrorDue (s : State) : List LogEntry :=
  (s.logs.general.filter (fun e =>
    s.tag.mirrored ≤ e.index && (e.sub == 0x07 || e.sub == 0x0B || e.sub == 0x0E))).reverse

/-- One entry is written into the ring of blocks 8 to 71. -/
def mirrorEntry (e : LogEntry) (s : State) : State :=
  setTag (fun t => { t with ring := (t.ring + 1) % 64, mirrored := e.index + 1 })
    (wiredWrite (8 + s.tag.ring) (entryBytes e) s)

/-- TAG_LOG_MIRROR (R445). -/
def execTagLogMirror (s : State) : Host.Outcome State Fault Refusal :=
  .next (if tagServed s then (mirrorDue s).foldl (fun t e => mirrorEntry e t) s else s)

/-- A confirmation that has just been made is stored in the tag (R231). -/
def storeConfirmation (before after : State) : State :=
  if !before.hedge.confirmed && after.hedge.confirmed then wiredWrite 1 (statusBlock after) after else after

/-- The confirmed check value that the tag holds (R231), if it holds one. -/
def tagConfirmed (s : State) : Option Nat :=
  match blockContent s 1 with
  | some b => if fieldN b 4 1 = 1 then some (fieldN b 0 4) else none
  | none => none

/-- The confirmation block is handled (R450, R233). -/
def handleConfirmation (b : List Byte) (s : State) : State :=
  let (t, status) := confirmCheck 1 6 (fieldN b 2 4) s
  let t := settle (storeConfirmation s t)
  wiredWrite 2 (b.take 8 ++ leBytes 2 (fieldN b 0 2) ++ [byte status, byte (flag t.hedge.confirmed)] ++
    leBytes 4 (checkValue t) ++ leBytes 4 (utcField (utcNow t)) ++ zeros 12) t

/-- The request block is handled (R450): a clock step (R277) or entry into SERVICE (R334). -/
def handleRequest (b : List Byte) (s : State) : State :=
  let (t, status, delta) : State × Nat × Int :=
    if fieldN b 2 1 = 1 then
      if 999 < fieldN b 8 2 then (s, St.range, 0)
      else if s.tag.poweredRequest then clockStep 6 (fieldN b 4 4) (fieldN b 8 2) s else (s, St.refusedState, 0)
    else if fieldN b 2 1 = 2 then
      let (t, status) := serviceByTag s
      (t, status, 0)
    else (s, St.range, 0)
  wiredWrite 3 (b.take 16 ++ leBytes 2 (fieldN b 0 2) ++ [byte status, 0] ++ leInt 4 delta ++ zeros 8) t

/-- TAG_REQUEST (R450): a new request of block 3, or of block 2. -/
def execTagRequest (requestBlock : Bool) (s : State) : Host.Outcome State Fault Refusal :=
  let k := if requestBlock then 3 else 2
  .next (
    if !tagServed s then s
    else match blockContent s k with
      | none => logUnreadable k s
      | some b =>
        if fieldN b 0 2 = fieldN b (if requestBlock then 16 else 8) 2 then s
        else if requestBlock then handleRequest b s else handleConfirmation b s)

/-- WIRED_WRITE_RETRY_EXPIRY (R453): entry 0x0F04, and an opcode write that waits is answered BUSY. -/
def execWiredWriteRetryExpiry (block : Fin 256) (retries : Nat) (s : State) : Host.Outcome State Fault Refusal :=
  .next (
    if !tagServed s then s
    else
      let mine := s.tag.retrying.filter (fun x => x.1 == block.val)
      let t := setTag (fun t => { t with
          abandoned := t.abandoned + retries, retrying := t.retrying.filter (fun x => x.1 != block.val) })
        (log 0 0x0F 0x0F04 ([byte block.val, 0, 0, 0] ++ leBytes 4 retries) false s)
      mine.foldl (fun t x => completeRequest x.2.1 x.2.2.2 0x0F03 x.2.2.1 St.busy [] t) t)

/-! ### Opcodes (R457, R458) -/

/-- Twelve bytes of a reader port in opcode 0x0F01. -/
def readerBytes (r : Reader) : List Byte :=
  [byte r.state, byte r.std, 0, 0] ++ leBytes 4 r.delivered ++ leBytes 4 r.empty

/-- CONTACTLESS_STATUS (R457). -/
def execContactlessStatus (r : Request) (s : State) : Host.Outcome State Fault Refusal :=
  .next (hostRequest (opNone 0x0F01 [clsN, clsH]) r (fun s => reply
    (readerBytes s.reader0 ++ readerBytes s.reader1 ++
      [byte (flags [s.tag.field, s.tag.secured, s.tag.locked, tagPowered s]), byte s.tag.attempts, 0, 0] ++
      leBytes 4 s.tag.fieldWrites ++ leBytes 4 s.tag.abandoned) s) s)

/-- TAG_READ (R457, R458). -/
def execTagRead (r : Request) (s : State) : Host.Outcome State Fault Refusal :=
  let first := fieldN r.payload 0 1
  let count := fieldN r.payload 1 1
  let ks := (List.range count).map (fun i => first + i)
  .next (hostRequest (opLen 0x0F02 [clsN, clsB] 4) r
    (guarded [ need (count ≠ 0) St.lenZero, need (count ≤ 32) St.range, need (first + count ≤ 256) St.range
             , reservedOk r.payload 2 2 ]
      (fun s =>
        let bad := ks.filter (fun k => (blockContent s k).isNone)
        if bad = [] then
          reply (r.payload.take 2 ++ [0, 0] ++ ks.flatMap (fun k => (blockContent s k).getD (zeros 32))) s
        else refuse St.checkFail (bad.foldl (fun t k => logUnreadable k t) s))) s)

/-- TAG_WRITE (R457, R458). Where field writes keep abandoning the write, it waits for its retries (R453). -/
def execTagWrite (r : Request) (committed : Bool) (s : State) : Host.Outcome State Fault Refusal :=
  let k := fieldN r.payload 0 1
  .next (hostRequest (opLen 0x0F03 [clsN] 36) r
    (guarded [need (72 ≤ k) St.range, reservedOk r.payload 1 3]
      (fun s =>
        if committed then done (wiredWrite k (slice r.payload 4 32) s)
        else (setTag (fun t => { t with retrying := (k, r.port, r.seq, r.cls) :: t.retrying }) s, .later))) s)

/-- TAG_SECURITY (R458, R448). -/
def execTagSecurity (r : Request) (s : State) : Host.Outcome State Fault Refusal :=
  let op := fieldN r.payload 0 1
  .next (hostRequest (opLen 0x0F04 [clsN] 8) r
    (fun s => guarded [ need (op = 1 ∨ op = 2) St.range, reservedOk r.payload 1 3
                      , need (s.cis.lifecycle ≠ 0 ∧ s.cis.lifecycle ≠ 4) St.refusedState ]
      (fun s =>
        if op = 1 then
          done (log (portOrigin r.port) 0x0F 0x0F05 [byte (portOrigin r.port)] false
            (setTag (fun t => { t with password := BitVec.ofNat 32 (fieldN r.payload 4 4) }) s))
        else
          let t := setTag (fun t => { t with locked := false, attempts := 0 }) s
          done (if s.tag.locked then log (portOrigin r.port) 0x0F 0x0F02 [0, 1, 0] false t else t)) s) s)

end Sys2Proof.Machine
end

