-- ==== Sys2Proof/Machine/Protection.lean ====
section
/-! DEFINITION. The commands of chapter 08 but for safe frames: E-stop, trips of an outlet, insulation monitoring, weld
check, Scarecrow's checks, and the safety opcodes. -/

namespace Sys2Proof.Machine

/-- The meaning of a command that changes what Hedge or Scarecrow sees: the change, and all that follows from it. -/
def hedgeStep (f : State → State) (s : State) : Host.Outcome State Fault Refusal :=
  .next (if hedgeLive s then settle (f s) else s)

/-! ### E-stop (R213) -/

/-- ESTOP_OPEN (R213). -/
def execEstopOpen (channelB : Bool) (s : State) : Host.Outcome State Fault Refusal :=
  hedgeStep (fun s => tripModule .estop (setHedgeM (fun h =>
    let a := h.openA || !channelB
    let b := h.openB || channelB
    { h with openA := a, openB := b, bothOpened := h.bothOpened || (a && b) }) s)) s

/-- ESTOP_CLOSED (R209): both channels are closed, so the trip reset policy may clear the trips. -/
def execEstopClosed (s : State) : Host.Outcome State Fault Refusal :=
  .next (setHedgeM (fun h => { h with openA := false, openB := false }) s)

/-- TEST_PULSE (R213): the pulse of one line and what the two inputs showed of it. -/
def execTestPulse (lineB seenA seenB : Bool) (s : State) : Host.Outcome State Fault Refusal :=
  hedgeStep (fun s =>
    if block0701 s 0 1 ≠ 1 then s
    else
      let own := if lineB then seenB else seenA
      let cross := if lineB then seenA else seenB
      let isOpen := if lineB then s.hedge.openB else s.hedge.openA
      let count (n : Nat) : Nat := if own || isOpen then 0 else n + 1
      let t := setHedgeM (fun h =>
        if lineB then { h with missB := count h.missB } else { h with missA := count h.missA }) s
      if cross || 2 ≤ (if lineB then t.hedge.missB else t.hedge.missA) then tripModule .wiring t else t) s

/-- ESTOP_DISCREPANCY (R213). -/
def execEstopDiscrepancy (s : State) : Host.Outcome State Fault Refusal :=
  hedgeStep (fun s => if s.hedge.openA != s.hedge.openB then tripModule .wiring s else s) s

/-! ### Trips of an outlet (R209, R214, R218, R219) -/

/-- The current channel that an overcurrent check of an outlet reads: OnI, or the current of one phase. -/
def currentChannel (s : State) (o : Outlet) (phase : Nat) : Nat := if hedgeDc s o then 4 * o.val + 1 else 4 * o.val + phase

/-- Some `n` values in a row satisfy a test; the first number counts those before the list. -/
def runOf {α : Type} (n : Nat) (p : α → Bool) : Nat → List α → Bool
  | _, [] => false
  | k, x :: rest => if p x then (decide (n ≤ k + 1) || runOf n p (k + 1) rest) else runOf n p 0 rest

/-- OVERCURRENT_TRIP (R209): protection samples of a current in a row, and the current at the trip in mA, as entry 0x0701
shows it. N consecutive samples at or above the threshold code trip. -/
def execOvercurrentTrip (o : Outlet) (x : OvercurrentInput) (s : State) : Host.Outcome State Fault Refusal :=
  hedgeStep (fun s =>
    let c := currentChannel s o x.phase.val
    let code := protCode (block0702 s o 4 4) (fullScale s c)
    if hedgeType s o ≠ 0 ∧
        runOf (block0702 s o 2 1) (fun y : Int => decide (code ≤ y.natAbs)) 0 (protSamples s c x.samples) = true then
      tripOutlet o 0 (some 1) (leInt 4 x.value) s
    else s) s

/-- CONTACTOR_DELAY_END (R209, R210): the series switches open. -/
def execContactorDelayEnd (o : Outlet) (s : State) : Host.Outcome State Fault Refusal :=
  .next (
    if (s.hedge.out.get o).delaying then
      settle (setHedge o (fun h => { h with delaying := false, closed := false }) s)
    else s)

/-- One residual threshold against the square of a reading, in codes: the trip with its value in mA, or its cause gone. -/
def residualTrip (o : Outlet) (bit limit : Nat) (square : Rat) (mA : Int) (s : State) : State :=
  let code := protCode limit (fullScale s (4 * o.val + 3))
  if ((code * code : Nat) : Rat) ≤ square then tripOutlet o bit (some 2) (leInt 4 mA) s
  else setHedge o (fun h => { h with causes := withoutBit h.causes bit }) s

/-- RESIDUAL_CURRENT_CHECK (R214): the protection samples of OnR over the last 20 ms, those before and those of the latest ms.
Their mean is the DC residual, the RMS after the mean is removed the AC residual. The roundings of the readings are open (log
entry 6). -/
def execResidualCurrentCheck (o : Outlet) (before latest : Feed) (s : State) : Host.Outcome State Fault Refusal :=
  hedgeStep (fun s =>
    if hedgeAc s o then
      let c := 4 * o.val + 3
      let l := protSamples s c before ++ protSamples s c latest
      let mean : Rat := (sumInt l : Rat) / l.length
      let square : Rat := (sumInt (l.map (fun x => x * x)) : Rat) / l.length - mean * mean
      let unit : Rat := (fullScale s c : Rat) * 1000 / 5461
      let dc := openRound (mean * unit)
      let ac := openSqrt (square * unit * unit)
      residualTrip o 2 30 square (openRound (ac / 1000 : Rat)) (residualTrip o 1 6 (mean * mean) (openRound (dc / 1000 : Rat))
        (setHedge o (fun h => { h with residualDc := dc, residualAc := ac }) s))
    else s) s

/-- PILOT_LOSS (R218): the plateaus, mV, that Hedge's comparators have seen for the pilot loss time. State F that the generator
commands does not count. The value is open. -/
def execPilotLoss (p : PilotLevels) (s : State) : Host.Outcome State Fault Refusal :=
  hedgeStep (fun s =>
    let o := p.outlet
    let s := seePilot o p.high p.low s
    if driveOn s o ∧ hedgeLoss s o ∧ (s.link.get o).gen ≠ .stateF then draw (tripOutlet o 4 (some 2) (openField 4 s) s) else s) s

/-- PILOT_B_TIMEOUT (R218): the plateaus that have held for 3 s. -/
def execPilotBTimeout (p : PilotLevels) (s : State) : Host.Outcome State Fault Refusal :=
  hedgeStep (fun s =>
    let o := p.outlet
    let s := seePilot o p.high p.low s
    if driveOn s o ∧ hedgeB s o then draw (tripOutlet o 4 (some 2) (openField 4 s) s) else s) s

/-- WELD_CHECK_START (R219): the run-mask bit is 0 while the outlet holds no permission. -/
def execWeldCheckStart (o : Outlet) (s : State) : Host.Outcome State Fault Refusal :=
  hedgeStep (fun s =>
    if hedgeDc s o ∧ !(sessOf s o).drive ∧ !(s.hedge.out.get o).closed then
      setHedge o (fun h => { h with weldRun := true }) s
    else s) s

/-- WELD_DETECTED (R219): OnV and OnL as they stood for 100 ms, 10 mV. -/
def execWeldDetected (o : Outlet) (onV onL : Int) (s : State) : Host.Outcome State Fault Refusal :=
  hedgeStep (fun s =>
    if (s.hedge.out.get o).weldRun ∧ !(sessOf s o).drive ∧ 6000 ≤ onV.natAbs ∧
        (onV - onL).natAbs ≤ 100 * block0702 s o 14 2 then
      tripOutlet o 5 none (leInt 4 onV) s
    else s) s

/-- HEDGE_FAULT (R205). -/
def execHedgeFault (s : State) : Host.Outcome State Fault Refusal :=
  .next (if up s then settle (tripModule .fault s) else s)

/-- STUCK_DETECTED (R75, R209, R221): a run of an enabled stream passes the limit. The stream trip of an outlet with drive on,
whose value is open, and Scarecrow's cut. -/
def execStuckDetected (ch : Chan) (run : Nat) (s : State) : Host.Outcome State Fault Refusal :=
  .next (
    if !up s || !chanOn s ch.val || run ≤ stuckLimit s then s
    else
      let t := noteStuck ch.val s
      match chanOutlet ch.val with
      | none => t
      | some n =>
        let o : Outlet := Fin.ofNat 4 n
        let x := (sessOf s o).state.code
        let t := if hedgeLive s ∧ driveOn s o then draw (tripOutlet o 6 (some 2) (openField 4 t) t) else t
        settle (if 4 ≤ x ∧ x ≤ 7 then draw (scrAction o 6 true (openField 4 t) (openField 4 t) t) else t))

/-- TRIP_RESET_AUTOMATIC (R209): with policy 1, 1 s after the cause has gone. -/
def execTripResetAutomatic (o : Option Outlet) (s : State) : Host.Outcome State Fault Refusal :=
  hedgeStep (fun s =>
    if block0701 s 1 1 ≠ 1 then s
    else match o with
      | some o => (resetOutlet 8 o s).1
      | none => (resetModule 8 s).1) s

/-! ### Insulation (R215 to R217) -/

/-- A plateau is settled against the mean before it; `d` is |Um+ − Um−|, all in µV. -/
def settled (p : Int × Int) (d : Nat) : Bool := decide (100 * (p.1 - p.2).natAbs ≤ 200000 + 2 * d)

/-- Riso in Ω from the two plateaus; free where they are equal (log entry 21). -/
def riso (s : State) (o : Outlet) (vi : Nat) (plus minus : Int) : Rat :=
  let rm : Rat := block0702 s o 18 2
  let rn : Rat := block0702 s o 16 2 * 1000
  let d : Rat := plus - minus
  if d = 0 then Config.freeInt s.freeCount else 2 * vi * rm / d - rn - rm

/-- The status after a value (R217). -/
def judge (value warn fault : Rat) (m : Imd) : Imd :=
  let lowWarn := if value < warn then m.belowWarn + 1 else 0
  let lowFault := if value < fault then m.belowFault + 1 else 0
  let high := if warn ≤ value then m.aboveWarn + 1 else 0
  let status : Insul :=
    if 2 ≤ lowFault then .fault
    else if m.count = 0 then (if warn ≤ value then .valid else if fault ≤ value then .warning else .none)
    else match m.status with
      | .none => .warning
      | .valid => if 2 ≤ lowWarn then .warning else .valid
      | .warning => if 2 ≤ high then .valid else .warning
      | .fault => .fault
  { m with count := m.count + 1, status, belowWarn := lowWarn, belowFault := lowFault, aboveWarn := high }

/-- The end of a half-period: the plateau of its polarity, the value where both plateaus are settled, the other polarity. -/
def halfPeriod (o : Outlet) (selfTimed : Bool) (x : ImdInput) (s : State) : State :=
  let m := (s.hedge.out.get o).imd
  let m := { m with
    plus := if m.positive then some (x.plateau, x.before) else m.plus
    minus := if m.positive then m.minus else some (x.plateau, x.before)
    positive := !m.positive, selfTimed := m.selfTimed || selfTimed, halves := m.halves + 1, cycles := 0 }
  let put (m : Imd) (t : State) : State := setHedge o (fun h => { h with imd := m }) t
  let without := put { m with noValue := m.noValue + 1 } s
  match m.plus, m.minus with
  | some p, some q =>
    let d := (p.1 - q.1).natAbs
    if settled p d && settled q d then
      let r := riso s o x.vi p.1 q.1
      let volts : Rat := blockOutlet s o 4 4 / 100
      let k := (clamp 1 10000 (openRound (r / 1000))).toNat
      let m := judge r (block0702 s o 8 2 * volts) (block0702 s o 10 2 * volts)
        { m with value := some k, noValue := 0 }
      let t := draw (put m s)
      if m.status = .fault then tripOutlet o 3 (some 2) (leBytes 4 k) t else t
    else without
  | _, _ => without

/-- INSULATION_POLARITY_CHANGE (R215 to R217): at angle 0, H dial cycles after the polarity changed last. -/
def execInsulationPolarityChange (o : Outlet) (m : ImdInput) (s : State) : Host.Outcome State Fault Refusal :=
  hedgeStep (fun s =>
    let x := (s.hedge.out.get o).imd
    if x.running ∧ block0702 s o 12 2 ≤ x.cycles then halfPeriod o false m s else s) s

/-- INSULATION_SELF_TIMED (R215). -/
def execInsulationSelfTimed (o : Outlet) (m : ImdInput) (s : State) : Host.Outcome State Fault Refusal :=
  hedgeStep (fun s => if (s.hedge.out.get o).imd.running then halfPeriod o true m s else s) s

/-- INSULATION_NO_VALUE (R217): 8 half-periods without a value. The value of the trip is open. -/
def execInsulationNoValue (o : Outlet) (s : State) : Host.Outcome State Fault Refusal :=
  hedgeStep (fun s =>
    let m := (s.hedge.out.get o).imd
    if m.running ∧ 8 ≤ m.noValue then
      draw (tripOutlet o 3 (some 2) (openField 4 s) (setHedge o (fun h => { h with imd := { m with status := .fault } }) s))
    else s) s

/-- Angle 0 of a dial cycle: the half-period counts on, and the injection starts with positive polarity at the first dial cycle
after drive comes on (R215). -/
def startImd (o : Outlet) (s : State) : State :=
  if (s.hedge.out.get o).imd.running then setHedge o (fun h => { h with imd := { h.imd with cycles := h.imd.cycles + 1 } }) s
  else if hedgeDc s o ∧ driveOn s o then setHedge o (fun h => { h with imd := { Imd.init with running := true } }) s
  else s

/-! ### Scarecrow's checks (R206, R221) -/

/-- Fields of record 0x0703 in Scarecrow's data. -/
def scrN (s : State) (o : Outlet) (off n dflt : Nat) : Nat := cfgN s 0x0703 o.val off n dflt

/-- One check of R221: whether it runs, what it measures, its limit, how long it persists, and whether it cuts. -/
structure ScrCheck where
  row      : Nat
  runs     : Bool
  measured : Int
  limit    : Rat
  atLimit  : Bool
  persists : Nat
  cuts     : Bool

/-- The larger of a floor and a share of a value. -/
def tolerance (floor percent : Nat) (v : Int) : Rat := max (floor : Rat) (v.natAbs * percent / 100 : Rat)

/-- The vehicle's and the outlet's highest voltage. -/
def voltageCeiling (s : State) (o : Outlet) : Nat := minGiven (sessOf s o).ev.maxVoltage (ratedVoltage s o)

/-- The checks that run every millisecond on rows 1 to 5. -/
def scrChecks (s : State) (o : Outlet) (m : ScrInput) : List ScrCheck :=
  let x := (sessOf s o).state
  let within (a b : Nat) : Bool := a ≤ x.code && x.code ≤ b
  let dc := isDc s o.val
  let floorV := 100 * scrN s o 2 2 20
  let pct := scrN s o 1 1 3
  let iset := (energySetpoint s o).current
  let stop := cfgI s 0x0703 o.val 14 2 800
  let coolant := s.energy.coolant.get o
  [ ⟨1, dc && within 5 6 && m.evV.isSome, ((m.evV.getD 0 : Nat) - m.onV100).natAbs, tolerance floorV pct m.onV100, false,
      scrN s o 4 2 1000, false⟩
  , ⟨2, dc && within 4 7, m.onV1, (voltageCeiling s o * (100 + scrN s o 10 1 2) / 100 : Rat), false, 20, true⟩
  , ⟨3, dc && within 6 6, m.onI100.natAbs, iset.natAbs + tolerance (scrN s o 6 2 5000) 5 iset, false, scrN s o 8 2 500, false⟩
  , ⟨4, dc && within 4 6 && driveOn s o && decide (1000 ≤ (s.hedge.scr.get o).closedFor), (m.onV1 - m.onL).natAbs,
      tolerance floorV pct m.onV1, false, 200, false⟩
  , ⟨5, within 4 6 && coolant.isSome, coolant.getD 0, stop, true, 0, false⟩ ]

/-- The check's condition stands. -/
def ScrCheck.stands (c : ScrCheck) : Bool :=
  c.runs && (if c.atLimit then decide (c.limit ≤ (c.measured : Rat)) else decide (c.limit < (c.measured : Rat)))

/-- One check over one millisecond. -/
def runCheck (o : Outlet) (s : State) (c : ScrCheck) : State :=
  let n := if c.stands then (s.hedge.scr.get o).persist.getD (c.row - 1) 0 + 1 else 0
  let t := setScr o (fun x => { x with persist := modifyAt x.persist (c.row - 1) (fun _ => n) }) s
  if c.stands ∧ c.persists ≤ n then scrAction o c.row c.cuts (leInt 4 c.measured) (leInt 4 (openRound c.limit)) t else t

/-- What passes each millisecond beside the checks: the renewal of the permits, the time since closing, and the 2 ms of
R222. -/
def noteMeasured (o : Outlet) (s : State) : State :=
  let on := driveOn s o
  setScr o (fun c => { c with
    lapsed := false, closedFor := if on then c.closedFor + 1 else 0, prevLeft := c.prevLeft - 1 }) s

/-- SCARECROW_CHECK (R206, R221): the permits are renewed and the checks run. -/
def execScarecrowCheck (o : Outlet) (m : ScrInput) (s : State) : Host.Outcome State Fault Refusal :=
  .next (
    if !up s then s
    else
      let t := (scrChecks s o m).foldl (runCheck o) (noteMeasured o s)
      let x := (sessOf t o).state.code
      let stuck := outletStuck t o && 4 ≤ x && x ≤ 7
      settle (if stuck then draw (scrAction o 6 true (openField 4 t) (openField 4 t) t) else t))

/-- SCARECROW_RAMP_WITHDRAW (R221): the current has not come down in time. -/
def execScarecrowRampWithdraw (o : Outlet) (s : State) : Host.Outcome State Fault Refusal :=
  .next (
    if up s ∧ (s.hedge.scr.get o).ramp then settle (setScr o (fun c => { c with cut := true, permit := false }) s) else s)

/-- SCARECROW_PERMIT_TIMEOUT (R206): a permit that was not renewed falls. -/
def execScarecrowPermitTimeout (o : Outlet) (s : State) : Host.Outcome State Fault Refusal :=
  .next (settle (setScr o (fun c => { c with lapsed := true, permit := false }) s))

/-! ### The block and the opcodes (R231 to R233, R239) -/

/-- PARAMETER_BLOCK_LOAD (R232): the new block is loaded once drive is off on every outlet. -/
def execParameterBlockLoad (agrees : Bool) (s : State) : Host.Outcome State Fault Refusal :=
  .next (
    match s.hedge.nextBlock with
    | some b => if anyDrive s then s else settle (takeBlock b agrees (tagConfirmed s) (some (checkValue s)) s)
    | none => s)

/-- CONFIRMATION_LOCK_EXPIRY (R233). -/
def execConfirmationLockExpiry (s : State) : Host.Outcome State Fault Refusal :=
  .next (if s.hedge.lockedOut then setHedgeM (fun h => { h with lockedOut := false, wrongTimes := [] }) s else s)

/-- The eight bytes of an outlet in opcode 0x0701. -/
def safetyBytes (s : State) (o : Outlet) : List Byte :=
  let h := s.hedge.out.get o
  let c := s.hedge.scr.get o
  leBytes 2 (h.latched.toNat + 128 * flags [h.imd.status == .warning, c.ramp, c.cut, h.weldInconclusive, h.imd.selfTimed]) ++
    [byte (flag h.permit), byte (flag c.permit)] ++ leBytes 4 (h.imd.value.getD 0xFFFFFFFF)

/-- The response of opcode 0x0701. -/
def safetyStatusBytes (s : State) : List Byte :=
  let h := s.hedge
  [byte (hedgeStateCode s),
    byte (flags [!h.openA, !h.openB, h.estop, h.wiring, h.safeFault, h.group, h.safeOk, h.confirmed]), 0, 0] ++
    leBytes 4 (checkValue s) ++ leBytes 4 (h.stored.elim 0 (fun v => v.toNat)) ++ outlets.flatMap (safetyBytes s) ++ zeros 4

/-- SAFETY_STATUS (R239). -/
def execSafetyStatus (r : Request) (s : State) : Host.Outcome State Fault Refusal :=
  .next (hostRequest (opNone 0x0701 [clsN, clsH]) r (fun s => reply (safetyStatusBytes s) s) s)

/-- CONFIRM_CHECK_VALUE (R233). -/
def execConfirmCheckValue (r : Request) (s : State) : Host.Outcome State Fault Refusal :=
  .next (hostRequest (opLen 0x0702 [clsN] 4) r
    (fun s =>
      let (t, status) := confirmCheck 0 (portOrigin r.port) (fieldN r.payload 0 4) s
      (settle (storeConfirmation s t), .now status [])) s)

/-- TRIP_RESET (R212, R239): the bits whose cause remains make the status. -/
def execTripReset (r : Request) (s : State) : Host.Outcome State Fault Refusal :=
  let o := fieldN r.payload 0 1
  .next (hostRequest (opLen 0x0703 [clsN, clsH] 4) r
    (guarded [need (o < 4 ∨ o = 0xFF) St.range, reservedOk r.payload 1 3]
      (fun s =>
        let (t, left) := if o = 0xFF then resetModule (portOrigin r.port) s
          else resetOutlet (portOrigin r.port) (Fin.ofNat 4 o) s
        (settle t, .now (if left = 0 then St.ok else St.refusedState) []))) s)

/-- The weld latch of an outlet is cleared, with entry 0x0705. -/
def clearWeld (origin : Nat) (o : Outlet) (s : State) : State :=
  let t := setHedge o (fun h => { h with latched := withoutBit h.latched 5, causes := withoutBit h.causes 5 }) s
  logReset origin o.val 0x20 (t.hedge.out.get o).latched.toNat t

/-- WELD_CLEAR (R239). -/
def execWeldClear (r : Request) (s : State) : Host.Outcome State Fault Refusal :=
  let o : Outlet := Fin.ofNat 4 (fieldN r.payload 0 1)
  .next (hostRequest (opLen 0x0704 [clsN] 4) r
    (fun s => guarded [ need (fieldN r.payload 0 1 < 4) St.range, reservedOk r.payload 1 3
                      , need (inService s ∧ (s.link.get o).pilot = some .a ∧ (s.hedge.out.get o).latched.getLsbD 5)
                          St.refusedState ]
      (fun s => done (settle (clearWeld (portOrigin r.port) o s))) s) s)

end Sys2Proof.Machine
end

