-- ==== Sys2Proof/Machine/Commit.lean ====
section
/-! DEFINITION. What happens at a commit, in order: the energy slot (R115, R119), the billing slot (R265), the legal lane
(R306), and what the window decides for sessions: derating (R223), the phases drawn (R191), the energy limit (R170) and
the setpoints of the next window (R183). -/

namespace Sys2Proof.Machine

/-- The derating current of R223, mA. What rounding the quotient gets is open. -/
def deratingCurrent (s : State) (o : Outlet) : Int :=
  let rated := ratedCurrent s o
  match s.energy.coolant.get o with
  | some t =>
    let start := cfgI s 0x0703 o.val 12 2 500
    let stop := cfgI s 0x0703 o.val 14 2 800
    clamp 0 rated (openRound ((rated : Rat) * ((stop - t : Int) : Rat) / ((stop - start : Int) : Rat)))
  | none => openRound ((rated : Rat) * scrN s o 11 1 50 / 100)

/-- The number of an outlet's phase currents with an RMS above 1 A in a window (R191). -/
def phaseCount (ps : List WinPos) (s : State) (o : Outlet) : Nat :=
  ((phasesOf s o.val).filter (fun x => decide (1 < meanSquare (chanWindow ps s x.2).vals))).length

/-- The last window of S6 tells how many phases the vehicle of an AC outlet draws on. -/
def countPhases (ps : List WinPos) (before : State) (o : Outlet) (s : State) : State :=
  if isAc s o.val ∧ (sessOf s o).state = .s6 then setSess o (fun x => { x with phases := some (phaseCount ps before o) }) s else s

/-- Energy that the open session has imported at the billing point. -/
def sessionEnergy (s : State) (o : Outlet) : Int :=
  (s.bill.openRecs.get o).elim 0 (fun x =>
    committedValue s (importReg s o) - x.starts.getD (2 * billingPoint s) 0)

/-- Cause 12: the energy limit of the authorisation is reached. -/
def limitStep (o : Outlet) (s : State) : State :=
  let x := sessOf s o
  if x.closed = false ∧ x.grant.limit ≠ 0 ∧ x.grant.limit ≤ sessionEnergy s o then giveCause o 12 s else s

/-- Derating and the setpoint that follow a window. -/
def outletStep (o : Outlet) (s : State) : State :=
  updateSet o (setScr o (fun x => { x with iDer := deratingCurrent s o }) (limitStep o s))

/-- A regular commit with all that follows it. -/
def regularCommit (w : WindowInput) (s : State) : State :=
  match energyRegular w s with
  | (t, some changes) =>
    let u := writeLane (billWindow false changes t)
    settle (forOutlets outletStep (forOutlets (countPhases (regularWindow w s) s) u))
  | (t, none) => t

/-- The partial commit of HOLD (R119), with its billing slot (R275) and the legal lane. -/
def partialCommit (w : WindowInput) (last : Fin 256) (s : State) : State :=
  match energyPartial w last.val s with
  | (t, some changes) => writeLane (billWindow true changes t)
  | (t, none) => t

/-- Regular commits are raised in RUN and IDLE, and in HOLD before the partial commit (R119, step 2). -/
def commits (s : State) : Bool := up s && (s.power.state != .hold || s.energy.tail)

/-- ENERGY_COMMIT (R97, R115): at angle 32,768 of each dial cycle. -/
def execEnergyCommit (w : WindowInput) (s : State) : Host.Outcome State Fault Refusal :=
  .next (if commits s then regularCommit w (reachAngle 32768 s) else s)

/-- PARTIAL_COMMIT (R119): in HOLD, at the HOLD tail, once. -/
def execPartialCommit (w : WindowInput) (lastSample : Fin 256) (s : State) : Host.Outcome State Fault Refusal :=
  .next (if up s && s.power.state == .hold && s.energy.tail then
      partialCommit w lastSample (dialAtLeast (lastSample.val * 256) s)
    else s)

end Sys2Proof.Machine
end

