-- ==== Sys2Proof/Machine/Sundial.lean ====
section
/-! DEFINITION. Sundial (R27 to R41): how a cycle is judged, the modes and the dial frequency, the quality word, doorbells
and the UTC clock. -/

namespace Sys2Proof.Machine

/-! ### What the correlation finds (R27) -/

/-- The single-bin correlation of a stream over the cycle: the means of code times cosine and times sine, doubled. The dial
runs at one frequency through the cycle, so a sample's angle is its share of the cycle's clocks. -/
def gridBin (m : CycleMeasure) (l : List Int) : Rat × Rat :=
  let c := correlate (l.zipIdx.map (fun x => (((m.first + 10240 * x.2) * 2 ^ 32 / m.tc : Nat), x.1)))
  (c.1 * 2 / l.length, c.2 * 2 / l.length)

/-- The codes of grid voltage i with the polarity of its record (R70). -/
def gridCodes (s : State) (c : Nat) (l : List Int) : List Int := if inverted s c then l.map (fun x => -x) else l

/-- The fundamentals of GV1, GV2 and GV3. -/
def gv1Bin (s : State) (m : CycleMeasure) : Rat × Rat := gridBin m (gridCodes s 16 m.gv1)
def gv2Bin (s : State) (m : CycleMeasure) : Rat × Rat := gridBin m (gridCodes s 17 m.gv2)
def gv3Bin (s : State) (m : CycleMeasure) : Rat × Rat := gridBin m (gridCodes s 18 m.gv3)

/-- The angle of the positive-going zero crossing of a fundamental A sin(θ − e), in 2^-16 du; none for a fundamental of 0. -/
def crossingAngle (b : Rat × Rat) : Option Rat := if b.1 = 0 ∧ b.2 = 0 then none else some (angleOf b.2 (-b.1))

/-- The phase error (R27): the crossing as a signed angle in du. Its rounding is open (log entry 6). -/
def crossing (s : State) (m : CycleMeasure) : Option Int :=
  (crossingAngle (gv1Bin s m)).map (fun a => (openRound (a / 65536) + 32768) % 65536 - 32768)

/-! ### Judging a cycle (R28) -/

/-- The RMS of a fundamental lies below the grid-loss threshold (R39): the squares are compared, in 10 mV. -/
def belowLoss (s : State) (c : Nat) (b : Rat × Rat) : Bool :=
  let volts : Rat := (fullScale s c : Rat) / 5592405
  let limit : Rat := (cfgN s 0x0201 0 1 1 20 * cfgN s 0x0201 0 4 4 23000 : Nat) / 100
  decide ((b.1 * b.1 + b.2 * b.2) / 2 * volts * volts < limit * limit)

/-- The frequency lies in the lock range (R31). -/
def inLockRange (s : State) (freq : Nat) : Bool :=
  if nominalFreq s = 50000 then decide (45000 ≤ freq ∧ freq ≤ 55000) else decide (54000 ≤ freq ∧ freq ≤ 66000)

/-- A cycle is missing (R28). -/
def cycleMissing (s : State) (m : CycleMeasure) : Bool :=
  belowLoss s 16 (gv1Bin s m) || !inLockRange s m.freq ||
    (s.sun.mode = .lock && (crossing s m).all (fun e => e < -4096 || 4096 < e))

/-- The phase error is within the lock tolerance (R40). -/
def withinTolerance (s : State) (e : Option Int) : Bool := e.any (fun e => e.natAbs ≤ cfgN s 0x0202 0 6 2 64)

/-! ### Modes (R29) -/

/-- The mode after a cycle, given the runs of good and missing cycles that it leaves. SLEW goes to LOCK when the error was
within the tolerance at both ends of the cycle: it has stayed so for one whole cycle. -/
def nextMode (s : State) (e : Option Int) (missing : Bool) (goodRun missRun : Nat) : SunMode :=
  match s.sun.mode with
  | .lock => if missing then .hold else if withinTolerance s e then .lock else .slew
  | .slew => if missing then .hold else if withinTolerance s e && s.sun.within then .lock else .slew
  | .hold =>
    if missing then (if 3 ≤ missRun then .freewheel else .hold) else if withinTolerance s e then .lock else .slew
  | .freewheel => if !missing && cfgN s 0x0202 0 1 1 5 ≤ goodRun then .slew else .freewheel

/-- The signed slew of a cycle (R30): at most the limit, by the shorter way; an error of −32,768 runs fast. -/
def slewOf (s : State) (e : Int) : Int :=
  let n : Int := min e.natAbs (cfgN s 0x0202 0 2 2 1311)
  if e < 0 then n else -n

/-- The dial frequency in mHz and whether a phase slew or the rate limit acts in the coming cycle (R30). HOLD keeps the
frequency of the dial in the first missing cycle, with a slew that ran in it (R29 says "the last value"; DEDUCED, log entry
60). A cycle without a crossing has no fundamental and is missing, so its error of 0 is used nowhere. -/
def nextFreq (s : State) (mode : SunMode) (e : Int) (freq : Nat) : Rat × Bool :=
  match mode with
  | .freewheel => (nominalFreq s, false)
  | .hold => (freqOfWord s.sun.freqWord, false)
  | .slew =>
    let n := slewOf s e
    ((freq : Rat) * 65536 / ((65536 : Rat) - n), n != 0)
  | .lock =>
    let q := Int.tdiv e (cfgN s 0x0202 0 0 1 16)
    let f := (freq : Rat) * 65536 / ((65536 : Rat) + q)
    let rate : Rat := cfgN s 0x0202 0 4 2 100
    let old := freqOfWord s.sun.freqWord
    let g := max (old - rate) (min (old + rate) f)
    (g, g != f)

/-- GV2 does not lag GV1 by a third of a cycle, or a phase is lost (R32). -/
def rotationFault (s : State) (m : CycleMeasure) : Bool :=
  let lag : Option Rat := match crossingAngle (gv1Bin s m), crossingAngle (gv2Bin s m) with
    | some a, some b => some ((if a ≤ b then b - a else b - a + 2 ^ 32) / 65536)
    | _, _ => none
  !(lag.any (fun x => decide (21845 - 2048 ≤ x ∧ x ≤ 21845 + 2048))) || belowLoss s 17 (gv2Bin s m) ||
    belowLoss s 18 (gv3Bin s m)

/-- The quality word at a boundary (R32). -/
def boundaryQuality (s : State) (m : CycleMeasure) (mode : SunMode) (acted : Bool) : BitVec 16 :=
  qualityWord (mode = .lock) acted (mode = .hold) (mode = .freewheel) (!inLockRange s m.freq) (rotationFault s m)
    (!s.sun.utcValid) (200 < s.sun.trim.natAbs)

/-- The bits whose change is logged: LOCKED, HOLD and FREEWHEEL. -/
def modeBits (q : BitVec 16) : BitVec 16 := q &&& 0x000D#16

/-- Entry 0x0002 (R518); entry into FREEWHEEL and the return to LOCK are legal. -/
def logMode (old new : BitVec 16) (e : Int) (freq : Nat) (s : State) : State :=
  if modeBits old = modeBits new then s
  else
    let legal := (new.getLsbD 3 && !old.getLsbD 3) || (new.getLsbD 0 && !old.getLsbD 0)
    log 0 0x02 0x0002 (wordBytes 2 old ++ wordBytes 2 new ++ leInt 2 e ++ zeros 2 ++ leBytes 4 freq ++ zeros 4) legal s

/-- Sundial at a dial cycle boundary (R28 to R32, R34). A cycle without a fundamental reports a phase error of 0 (DESIGN
CHOICE, log entry 60). -/
def sundialBoundary (m : CycleMeasure) (s : State) : State :=
  let missing := cycleMissing s m
  let goodRun := if missing then 0 else s.sun.goodRun + 1
  let missRun := if missing then s.sun.missRun + 1 else 0
  let err := crossing s m
  let e := err.getD 0
  let mode := nextMode s err missing goodRun missRun
  let next := nextFreq s mode e m.freq
  let quality := boundaryQuality s m mode next.2
  let freq := if missing then 0 else m.freq
  let mHz := (openRound next.1).toNat
  logMode s.sun.quality quality e freq (setSun (fun x => { x with
    mode := mode, cycle := x.cycle + 1, angle := 0, frac := 0, quality := quality, gridFreq := freq, dialFreq := mHz
    freqWord := if mode = .hold then x.freqWord else freqWordOf next.1
    heldFreq := if mode = .hold then mHz else x.heldFreq
    phaseErr := if mode = .freewheel then 0 else e, within := !missing && withinTolerance s err
    goodRun := goodRun, missRun := missRun, tc := m.tc }) (ringCycle s))

/-! ### Doorbells (R36) -/

/-- A slot is armed: an angle that the dial has reached in this cycle is passed, so that the doorbell first rings in the next
cycle of its period. A period of 0 disarms. -/
def armDoorbell (elem slot angle period : Nat) (s : State) : State :=
  let rest := s.fabric.doorbells.filter (fun d => !(d.elem == elem && d.slot == slot))
  let d : Doorbell := ⟨elem, slot, angle, period, 0, decide (angle ≤ s.sun.angle)⟩
  { s with fabric := { s.fabric with doorbells := if period = 0 then rest else insertDoorbell d rest } }

/-- DOORBELL (R36): a slot is armed, an element waits for its doorbells, or the dial reaches the armed angle and the event
wakes the element. -/
def execDoorbell (elem : Fin 14) (event : DoorbellEvent) (s : State) : Host.Outcome State Fault Refusal :=
  .next (
    if !up s then s
    else match event.act with
      | .arm angle period => armDoorbell elem.val event.slot.val angle.toNat period.toNat s
      | .wait => { s with fabric := { s.fabric with waiting := withBit s.fabric.waiting elem.val } }
      | .reach =>
        match s.fabric.doorbells.find? (fun d => d.elem == elem.val && d.slot == event.slot.val) with
        | some d => if d.due then ring d (reachAngle d.angle s) else s
        | none => s)

/-! ### The UTC clock (R37, R38) -/

/-- A stamp between two UTC pairs as a UTC time in seconds, by interpolating on the cycle count (R38). -/
def stampUtc (x : Sundial) (t : Stamp) : Option Rat :=
  let n := (x.pairStamp.cycle - x.lastStamp.cycle).toNat
  let k := (t.cycle - x.lastStamp.cycle).toNat
  if x.lastUtc = 0xFFFFFFFF ∨ x.pairUtc = 0xFFFFFFFF ∨ n = 0 then none
  else some ((x.lastUtc : Rat) + (k : Rat) * ((x.pairUtc : Rat) - x.lastUtc) / n)

/-- UTC_SECOND (R37, R38): the clock counts while the battery domain is supplied; a started module latches the pair. A
slew takes 10 ms off per second (R277). -/
def execUtcSecond (s : State) : Host.Outcome State Fault Refusal :=
  let slew := if 0 < s.bill.slew then max 0 (s.bill.slew - 10) else min 0 (s.bill.slew + 10)
  .next (
    if s.power.state = .off then s
    else
      let t := setSun (fun x => { x with utc := x.utc + 1, utcMark := s.clockMs }) s
      if sunRuns s then
        setSun (fun x => { x with
            lastUtc := x.pairUtc, lastStamp := x.pairStamp, pairUtc := utcField (utcNow t), pairStamp := stamp t })
          { t with bill := { t.bill with slew := slew } }
      else t)

/-- CRYSTAL_TRIM (R37): every 64 s in RUN, IDLE and HOLD; XTAL_FAULT follows at the next boundary (R32). -/
def execCrystalTrim (ppm : Int) (s : State) : Host.Outcome State Fault Refusal :=
  .next (if sunRuns s then setSun (fun x => { x with trim := ppm }) s else s)

/-- CLOCK_SLEW_COMPLETE (R277): the difference has been removed. -/
def execClockSlewComplete (s : State) : Host.Outcome State Fault Refusal :=
  .next { s with bill := { s.bill with slew := 0 } }

/-- The payload of opcode 0x0201 (R41). -/
def sundialBytes (s : State) : List Byte :=
  wordBytes 4 s.sun.cycle ++ leBytes 2 s.sun.angle ++ wordBytes 2 s.sun.quality ++ leBytes 4 s.sun.gridFreq ++
    leBytes 4 s.sun.dialFreq ++ leInt 2 (if s.sun.mode = .freewheel then 0 else s.sun.phaseErr) ++ leBytes 2 s.sun.epoch ++
    leBytes 4 s.sun.pairUtc ++ wordBytes 4 s.sun.pairStamp.cycle ++ leBytes 2 s.sun.pairStamp.angle ++ zeros 2

/-- SUNDIAL_STATUS (R41). -/
def execSundialStatus (r : Request) (s : State) : Host.Outcome State Fault Refusal :=
  .next (hostRequest (opNone 0x0201 [clsN, clsH]) r (fun s => reply (sundialBytes s) s) s)

end Sys2Proof.Machine
end

