-- ==== Sys2Proof/Machine/PowerDown.lean ====
section
/-! DEFINITION. What survives a loss of power and the restarts that work like one (R476, R480 to R483): what retention SRAM,
flash, OTP and the battery domain keep, and Sundial's starting count (R33). -/

namespace Sys2Proof.Machine

/-- Change the power state. -/
def setPower (f : Power → Power) (s : State) : State := { s with power := f s.power }

/-- The code of a power state (R473). -/
def PowerState.code : PowerState → Nat
  | .run => 0
  | .idle => 1
  | .hold => 2
  | .battery => 3
  | .off => 4

/-! ### Retention SRAM (R480, R482, R483) -/

/-- The latest log entry about a weld latch of an outlet sets it (R482). -/
def weldLogged (s : State) (o : Outlet) : Bool :=
  match s.logs.general.find? (fun e => e.sub == 0x07 && fieldN e.detail 0 1 == o.val &&
      ((e.code == 0x0701 && fieldN e.detail 1 1 == 5) || (e.code == 0x0705 && (fieldN e.detail 2 2).testBit 5))) with
  | some e => e.code == 0x0701
  | none => false

/-- The weld latch of an outlet alone, as retention SRAM keeps it. -/
def weldOnly (weld : Bool) : HedgeOutlet := { HedgeOutlet.init with latched := if weld then 0x20 else 0 }

/-- An origin's L takes a random value. -/
def randomL (n : Nat) (o : Origin) : Origin := { o with lastSeq := Config.free32 n }

/-- Retention SRAM loses its content: every item in it takes the value of R480's last column. -/
def loseRetention (s : State) : State :=
  let n := s.freeCount
  { s with
    freeCount := n + 3
    power := { s.power with retention := false, system0 := none, system1 := none }
    sun := { s.sun with utcValid := false }
    energy := { s.energy with slot0 := .init, slot1 := .init, markStamp := .zero, markEpoch := 0, markState := 0 }
    bill := { s.bill with slot0 := .init, slot1 := .init, demand0 := .init, demand1 := .init, tamper := .init }
    host := { s.host with e0 := randomL n s.host.e0, e1 := randomL (n + 1) s.host.e1, spi := randomL (n + 2) s.host.spi }
    sess := { s.sess with
      lastNumber := (latestEntry s 0x06 0x0601 (fun _ => true)).elim 0 (fun e => fieldN e.detail 4 4) }
    hedge := { s.hedge with stored := none, out := perOutlet (fun o => weldOnly (weldLogged s o)) }
    logs := { s.logs with overflow := 0, lost := 0, next := s.logs.general.head?.elim 0 (fun e => e.index + 1) }
    rake := { s.rake with signature := none, magic := false } }

/-! ### The system block (R483) -/

/-- The system block's items as they stand, under a generation. -/
def systemNow (g : U32) (s : State) : SystemBlock :=
  { generation := g, lastE0 := s.host.e0.lastSeq, lastE1 := s.host.e1.lastSeq, lastSpi := s.host.spi.lastSeq
    session := s.sess.lastNumber, check := (s.hedge.stored.map (fun v => v.toNat)).getD 0
    confirmed := s.hedge.stored.isSome
    weld := flags ([0, 1, 2, 3].map (fun (o : Outlet) => (s.hedge.out.get o).latched.getLsbD 5))
    overflow := s.logs.overflow, nextIndex := s.logs.next }

/-- The 124 bytes of a copy. -/
def SystemBlock.bytes (b : SystemBlock) : List Byte :=
  let body := leBytes 4 0x54524753 ++ wordBytes 4 b.generation ++ wordBytes 4 b.lastE0 ++ wordBytes 4 b.lastE1 ++
    wordBytes 4 b.lastSpi ++ leBytes 4 b.session ++ leBytes 4 b.check ++ [byte (flag b.confirmed), byte b.weld, 0, 0] ++
    leBytes 4 b.overflow ++ leBytes 4 b.nextIndex ++ zeros 80
  body ++ wordBytes 4 (crc32c body)

/-- Copy 0 holds the newest valid block. -/
def system0Newest (p : Power) : Bool :=
  match p.system0, p.system1 with
  | none, _ => false
  | some _, none => true
  | some a, some b => later a.generation b.generation

/-- The newest valid copy. -/
def newestSystem (p : Power) : Option SystemBlock := if system0Newest p then p.system0 else p.system1

/-- A change is written to the copy that does not hold the newest valid block, with the next generation. The changes of one
millisecond are one write (log entry 66). -/
def saveSystem (s : State) : State :=
  let g := (newestSystem s.power).elim 0 (fun b => b.generation)
  if newestSystem s.power = some (systemNow g s) then s
  else
    let b := some (systemNow (g + 1) s)
    setPower (fun p => if system0Newest p then { p with system1 := b } else { p with system0 := b }) s

/-- The system block's area of retention SRAM, from 0x3100_0EC8 on. -/
def systemArea (s : State) : List Byte :=
  s.power.system0.elim (zeros 124) SystemBlock.bytes ++ s.power.system1.elim (zeros 124) SystemBlock.bytes

/-! ### Everything else (R480) -/

/-- An update that runs ends with its transfer; slots and headers stay (R476, R519). -/
def endTransfer (g : Region) : Region :=
  if g.incoming.isSome then { g with incoming := none, status := St.refusedState } else g

/-- The updates as flash keeps them. -/
def keptUpdate (u : Update) : Update :=
  { u with
    boot := endTransfer u.boot, legal := endTransfer u.legal, app := endTransfer u.app, engine := endTransfer u.engine
    config := endTransfer u.config, waiting := none, go := none, fallback := none, completed := false,
    sowHeader := (0, []), sowing := none }

/-- An origin after a start: only L is kept. -/
def keptOrigin (o : Origin) : Origin := { Origin.init with lastSeq := o.lastSeq }

/-- The module without power or in a reset that works like a power-on: what retention SRAM, flash, OTP, the tag and the
battery domain hold stays, and everything else is as at reset. -/
def powerDown (phase : Phase) (s : State) : State :=
  let s := saveSystem s
  let p := s.power
  { State.reset with
    pending := s.pending, clockMs := s.clockMs, freeCount := s.freeCount, out := s.out, otp := s.otp
    power := { p with
      phase := phase, warmResets := 0, charged := false, orderly := none, shutting := false, expired := false, cut := .all false }
    sun := { Sundial.init with utc := s.sun.utc, utcMark := s.sun.utcMark, utcValid := s.sun.utcValid, trim := s.sun.trim }
    cfg := { State.reset.cfg with digestA := s.cfg.digestA, digestB := s.cfg.digestB }
    logs := { s.logs with inHold := 0 }
    host := { State.reset.host with
      e0 := keptOrigin s.host.e0, e1 := keptOrigin s.host.e1, spi := keptOrigin s.host.spi }
    energy := { Energy.init with
      recs := s.energy.recs, slot0 := s.energy.slot0, slot1 := s.energy.slot1
      markStamp := s.energy.markStamp, markEpoch := s.energy.markEpoch
      markState := s.energy.markState }
    sess := { Sessions.init with lastNumber := s.sess.lastNumber }
    hedge := { Hedge.init with
      stored := s.hedge.stored, out := perOutlet (fun o => weldOnly ((s.hedge.out.get o).latched.getLsbD 5)) }
    bill := { Billing.init with
      slot0 := s.bill.slot0, slot1 := s.bill.slot1, demand0 := s.bill.demand0, demand1 := s.bill.demand1
      storeA := s.bill.storeA, storeB := s.bill.storeB, lastRecord := s.bill.lastRecord, records := s.bill.records
      openRecs := cutRecords s, periods := s.bill.periods, lastEnd := s.bill.lastEnd, pStep := s.bill.pStep
      pIncomplete := s.bill.pIncomplete, pLost := s.bill.pLost, tableA := s.bill.tableA, tableB := s.bill.tableB
      tableLastB := s.bill.tableLastB, table := if s.bill.tableLastB then s.bill.tableB else s.bill.tableA
      tamper := s.bill.tamper }
    disp := { Display.init with copyA := s.disp.copyA, copyB := s.disp.copyB }
    cis := { Cistern.init with
      tailA := s.cis.tailA, tailB := s.cis.tailB, keyNumber := s.cis.keyNumber, migrating := s.cis.migrating }
    wadi := { Wadi.init with txEpoch := s.wadi.txEpoch, txCounter := s.wadi.txCounter }
    update := keptUpdate s.update
    tag := { s.tag with
      secured := false, nonce := none, retrying := [], poweredRequest := false, fieldWrites := 0, abandoned := 0 }
    rake := { s.rake with tap := .init, left := [], results := [], repeated := false, permitOk := true } }

/-- Step 1 of R475: a start with its cause (R488). The lowest voltage before it is kept for entry 0x1101. -/
def fullRestart (cause : Nat) (straps : Slot) (recover : Bool) (s : State) : State :=
  setPower (fun p => { p with
    before := s.power.state.code, state := .run, cause, straps, recover })
    (powerDown (if cause = 3 then .pllWait else .charging) s)

/-! ### Sundial's start (R33) -/

/-- The epoch that the module holds: in retention SRAM, else in its latest start entry. -/
def heldEpoch (s : State) : Option Nat :=
  ((if s.power.retention then newestCommit s else none).map (fun c => c.epoch)).or
    ((latestEntry s 0x02 0x0001 (fun _ => true)).map (fun e => fieldN e.detail 0 2))

/-- The starting count of R33 step 1, where it applies; the nominal frequency is in mHz. -/
def countAfter (nominal : Nat) (s : State) : Option U32 :=
  match (if s.power.retention then newestCommit s else none), utcNow s with
  | some c, some now =>
    match c.utc with
    | some then' =>
      if then' ≤ now then some (c.stamp.cycle + BitVec.ofNat 32 (ceilDiv ((now - then') * nominal) 1000 + 1)) else none
    | none => none
  | _, _ => none

/-- Sundial starts in FREEWHEEL at the nominal frequency, with its entry 0x0001 (R29, R33, R518). -/
def sundialStart (nominal : Nat) (s : State) : State :=
  let count := countAfter nominal s
  let epoch := match count, heldEpoch s with
    | some _, e => e.getD 0
    | none, some e => (e + 1) % 65536
    | none, none => 0
  let t := setSun (fun x => { x with
    cycle := count.getD 0, epoch := epoch, dialFreq := nominal, heldFreq := nominal, freqWord := freqWordOf nominal
    quality := qualityWord false false false true false false (!s.sun.utcValid) false }) s
  log 0 0x02 0x0001 (leBytes 2 epoch ++ [byte (if count.isSome then 1 else 2), 0] ++ wordBytes 4 t.sun.cycle ++ zeros 8) false t

end Sys2Proof.Machine
end

