-- ==== Sys2Proof/Machine/DialCycle.lean ====
section
/-! DEFINITION. The dial cycle boundary (R28, R34): what each chapter raises at angle 0; and a millisecond of time. -/

namespace Sys2Proof.Machine

/-- Sundial's step, and what the ended cycle completes: the sample buffer (R81), the open window, the control block that
commits read (R35), insulation timing, allocations (R191) and standing replies (R154). -/
def dialBoundary (m : CycleMeasure) (s : State) : State :=
  let t := billingBoundary (sundialBoundary m (energyBoundary (acquisitionBoundary m.tc (startPeriods (finishLoad s)))))
  let t := forOutlets startImd t
  forOutlets replyBoundary (if domainRuns t then renewReplies (allocBoundary t) else t)

/-- A millisecond passes: the dial goes on, a period of the 1 kHz PWM of every pilot begins (R135, R138), a Sieve load is
applied, and changes of the system block's items are written while the module is supplied (R483; log entries 2, 20, 66, 68). -/
def elapse (s : State) : State :=
  let t := finishLoad (startPeriods (tick s))
  if up t then saveSystem t else t

/-- DIAL_CYCLE_BOUNDARY (R28, R34). In ROM recovery Sundial alone is at work. -/
def execDialCycleBoundary (m : CycleMeasure) (s : State) : Host.Outcome State Fault Refusal :=
  .next (if up s then settle (dialBoundary m s) else if sunRuns s then sundialBoundary m s else s)

end Sys2Proof.Machine
end

