-- ==== Sys2Proof/Machine/Slots.lean ====
section
/-! DEFINITION. The boot ledger (R417, R418), the
package and its checks (R419 to R421), and how a package is opened, written and completed (R422, R429). -/

namespace Sys2Proof.Machine

/-! ### The boot ledger (R417, R418) -/

/-- ROM programs the next ledger entry to 0x0F; a full ledger is carried over with its last two entries. -/
def ledgerStart (s : State) : State :=
  let t := if s.update.ledger.length < 1024 then s
    else writeDirectory (fun u => { u with ledger := u.ledger.take 2 }) s
  setUpdate (fun u => { u with ledger := 0x0F :: u.ledger }) t

/-- The newest entry changes from started to completed (0x00) or ended by power loss (0x07). -/
def ledgerEnd (value : Nat) (s : State) : State :=
  setUpdate (fun u => { u with ledger := match u.ledger with
    | [] => []
    | e :: l => (if e = 0x0F then value else e) :: l }) s

/-- Failed boots in a row before the present one. -/
def failedBoots (s : State) : Nat := ((s.update.ledger.drop 1).takeWhile (fun e => e == 0x0F)).length

/-- The trial ends by fallback (R418 step 2, R427): trial slots emptied, mask cleared, entry 0x0E05. -/
def fallBackTrial (origin cause : Nat) (s : State) : State :=
  let mask := s.update.trial.toNat
  if mask = 0 then s
  else
    let t := (regionsOf mask).foldl (fun t r => setSlot r (!confirmedB s r) (fun _ => .empty) t) s
    let t := keysFallBack mask (writeDirectory (fun u => { u with trial := 0, trialStart := none, fallback := none }) t)
    updateLog origin 0x0E05 mask ([byte mask, byte cause] ++ zeros 14) t

/-! ### The package (R419 to R421) -/

/-- The package counter. -/
def packageCounter (h : List Byte) : Nat := fieldN h 20 4

/-- Number of blocks of a stream length. -/
def blockCount (stream : Nat) : Nat := ceilDiv stream 992

/-- The length of a block stream. -/
def streamLength (h : List Byte) : Nat := fieldN h 28 4 + 32 * fieldN h 32 2

/-- The signing key slots of a region (R416). -/
def keySlotAllowed (r k : Nat) : Bool := if r ≤ 1 then k == 0 else decide (k ≤ 3)

/-- Steps 1 to 6 of R421: the first failing step and its status. -/
def headerChecks (s : State) (h : List Byte) : Option (Nat × Nat) :=
  let r := fieldN h 8 1
  let k := fieldN h 10 1
  let binding := slice h 36 16
  if !(h.length == 256 && fieldN h 0 4 == 0x50554753 && fieldN h 4 2 == 1 && fieldN h 6 2 == 256 && decide (r ≤ 4) &&
      fieldN h 9 1 / 4 == 0 && fieldN h 11 1 == 0 && fieldN h 18 2 == 0 && fieldN h 34 2 == 0 &&
      fieldN h 136 56 == 0 && fieldN h 20 4 != 0 && decide (fieldN h 16 2 ≤ 1024) &&
      decide (1 ≤ fieldN h 24 4 ∧ fieldN h 24 4 ≤ 16777216) && decide (fieldN h 68 2 ≤ fieldN h 70 2) &&
      (r != 4 || fieldN h 9 1 % 2 == 0)) then some (1, St.checkFail)
  else if !(keySlotAllowed r k && keyVerifies s k (h.take 192) (slice h 192 64)) then
    some (2, St.authFail)
  else if !(leNat binding == 0 || binding == identityHash s) then some (3, St.checkFail)
  else if fieldN h 16 2 < s.otp.floors.getD r 0 then some (4, St.checkFail)
  else if fieldN h 28 4 = 0 ∨ regionLimit r < fieldN h 28 4 ∨ fieldN h 32 2 ≠ blockCount (fieldN h 28 4) then
    some (5, St.lenBad)
  else if r = 4 ∧ fieldN h 12 4 ≤ headerVersion (slotOf s 4 (confirmedB s 4)) then some (6, St.counterStale)
  else none

/-- The stored bytes of block k. -/
def blockData (h : List Byte) (k : Nat) : Nat := min 992 (fieldN h 28 4 - 992 * k)

/-- The hash that block k must have (R420): from the header for block 0, else from the block before. -/
def expectedHash (h stream : List Byte) (k : Nat) : List Byte :=
  if k = 0 then slice h 104 32 else slice stream (1024 * k - 32) 32

/-- Verify the blocks of a stream received without a gap from block k on, as far as they are complete (R421 step 7): the
number of verified blocks, and whether the next one failed. -/
def verifyBlocks : Nat → List Byte → List Byte → Nat → Nat × Bool
  | 0, _, _, k => (k, false)
  | n + 1, h, stream, k =>
    if fieldN h 32 2 ≤ k then (k, false)
    else
      let block := slice stream (1024 * k) (blockData h k + 32)
      if block.length < blockData h k + 32 then (k, false)
      else if digestBytes (Config.sha256 block) = expectedHash h stream k then verifyBlocks n h stream (k + 1)
      else (k, true)

/-- The stored bytes of blocks [a, b) of a stream. -/
def blocksData (h stream : List Byte) (a b : Nat) : List Byte :=
  ((List.range b).drop a).flatMap (fun k => slice stream (1024 * k) (blockData h k))

/-- The block stream of a stored image (R420), built from its last block. -/
def blockStream (data : List Byte) : List Byte :=
  let n := blockCount data.length
  ((List.range n).reverse.foldl (fun (acc : List Byte × List Byte) k =>
    let block := slice data (992 * k) 992 ++ acc.2
    (block ++ acc.1, digestBytes (Config.sha256 block))) ([], zeros 32)).1

/-! ### Opening, writing and completing an update (R422, R429) -/

/-- Entry 0x0E02. -/
def logPackage (origin r status step : Nat) (h : List Byte) (s : State) : State :=
  updateLog origin 0x0E02 (2 ^ r) ([byte r, byte status, byte step, 0] ++ leBytes 4 (packageCounter h) ++
    leBytes 4 (fieldN h 12 4) ++ zeros 4) s

/-- The state conditions of R423 hold: no energy flows, VBAT at 2.6 V or above, holdup storage charged. -/
def stateConditions (s : State) : Bool := !energyFlows s && decide (260 ≤ s.power.vbat) && s.power.charged

/-- The running update of a region is aborted: its transfer is superseded and its slot emptied (R429). -/
def abortUpdate (r : Nat) (s : State) : State :=
  let old := regionOf s r
  let t := closeTransfer old.transfer .refused St.superseded s
  let t := if s.cis.migrating = some r then abandonMigration t else t
  let t := setUpdate (fun u => { u with waiting := u.waiting.bind (fun m =>
    if m.testBit r then (if m = 2 ^ r then none else some (m - 2 ^ r)) else some m) }) t
  writeDirectory id (setSlot r (!confirmedB s r) (fun _ => .empty)
    (setRegion r (fun x => { x with incoming := none, status := St.superseded }) t))

/-- What the overlap rules make of a request to open an update (R429). -/
inductive Overlap where
  | opens
  | aborts
  | fallsBack
  | refused (status : Nat)
  deriving DecidableEq, Repr

/-- The counter of the update that a region runs. -/
def runningCounter (s : State) (r : Nat) : Nat :=
  match (regionOf s r).incoming with
  | some h => packageCounter h
  | none => (otherSlot s r).header.elim 0 packageCounter

/-- The table of R429. -/
def overlap (s : State) (r counter : Nat) (supersede : Bool) : Overlap :=
  let st := regionState s r
  let higher := later (BitVec.ofNat 32 counter) (BitVec.ofNat 32 (runningCounter s r))
  if st = 0 ∨ st = 2 then .opens
  else if !supersede then .refused St.busy
  else if !higher then .refused St.counterStale
  else if st = 5 then (if stateConditions s then .fallsBack else .refused St.refusedState)
  else .aborts

/-- An update of a region opens (R422): the slot is emptied and entry 0x0E01 written. -/
def openUpdate (origin path id : Nat) (h : List Byte) (s : State) : State :=
  let r := fieldN h 8 1
  let t := setSlot r (!confirmedB s r) (fun _ => .empty) s
  let t := if (otherSlot s r).header.isSome then writeDirectory (fun u => u) t else t
  let t := if r = 2 then eraseTail (!confirmedB s r) t else t
  let t := setRegion r (fun x => { x with
    status := St.ok, transfer := id, received := 0, incoming := some h, path := path }) t
  updateLog origin 0x0E01 (2 ^ r) ([byte r, byte path, 0, 0] ++ leBytes 4 (packageCounter h) ++ leBytes 4 (fieldN h 12 4) ++
    leBytes 4 id) t

/-- Step 8 of R421: the content of a stored image, decompressed where the header says so, has the length and hash of the header.
-/
def imageGood (h data : List Byte) : Bool :=
  match if (fieldN h 9 1).testBit 0 then Config.inflate data else some data with
  | some x => x.length == fieldN h 24 4 && digestBytes (Config.sha256 x) == slice h 72 32
  | none => false

/-- The whole image is stored: step 8 of R421; for CONFIG also the checks of R45. The slot's header enters the
directory, or the content is discarded. -/
def completeUpdate (origin : Nat) (h : List Byte) (s : State) : State × Nat :=
  let r := fieldN h 8 1
  let b := !confirmedB s r
  let data := (slotOf s r b).data
  let status := if !imageGood h data then St.checkFail else if r = 4 then configImageStatus data s else St.ok
  let t := setRegion r (fun x => { x with incoming := none, status := status }) s
  let t := if status = St.ok then writeDirectory (fun u => u) (setSlot r b (fun x => { x with header := some h }) t)
    else setSlot r b (fun _ => .empty) t
  (logPackage origin r status 8 h t, status)

end Sys2Proof.Machine
end

