-- ==== Sys2Proof/Machine/Domains.lean ====
section
/-! DEFINITION. The two application domains: the standby's health word (R355, R356), seeds and the journal (R357 to
R361), restoring from a seed (R362), steady points and handback (R365, R366), the domain test (R468). -/

namespace Sys2Proof.Machine

/-! ### Health words (R356) -/

namespace Health
def ready : Nat := 0
def sweeping : Nat := 1
def memoryFail : Nat := 2
def coreFail : Nat := 3
def violation : Nat := 4
def rakePending : Nat := 5
def rakeFail : Nat := 6
def seedFail : Nat := 7
def clockFail : Nat := 8
end Health

/-- Change the domains. -/
def setDom (f : Domains → Domains) (s : State) : State := { s with dom := f s.dom }

/-- The domain that is not active. -/
def standby (s : State) : Nat := 1 - s.dom.active

/-- The health word of a domain. -/
def healthOf (s : State) (d : Nat) : BitVec 32 := if d = 0 then s.dom.healthA else s.dom.healthB

/-- A new health word; a change of bits 0 to 8 writes entry 0x0C03. -/
def setHealth (d : Nat) (w : BitVec 32) (s : State) : State :=
  let old := healthOf s d
  let t := setDom (fun x => if d = 0 then { x with healthA := w } else { x with healthB := w }) s
  if old.setWidth 9 = w.setWidth 9 then t
  else log 0 0x0C 0x0C03 ([byte d, 0, 0, 0] ++ wordBytes 4 old ++ wordBytes 4 w) false t

/-- Set a failure bit, and with it RAKE_PENDING. -/
def failHealth (d bit : Nat) (s : State) : State :=
  setHealth d (withBit (withBit (withoutBit (healthOf s d) Health.ready) bit) Health.rakePending) s

/-- The domain is eligible for takeover (R355). -/
def eligible (s : State) (d : Nat) : Bool := healthOf s d &&& 0x1FD#32 == 1#32

/-- A bit of a health word after a check: set by a failure, cleared by a pass. -/
def checkBit (w : BitVec 32) (bit : Nat) (ok : Bool) : BitVec 32 := if ok then withoutBit w bit else withBit w bit

/-- The health word after a sweep (R355, R356): the sweep count rises, each failed check sets its bit and
RAKE_PENDING, and READY follows a sweep that passed whole. -/
def sweptWord (w : BitVec 32) (x : SweepResult) : BitVec 32 :=
  let n := (w.toNat / 65536 + 1) % 256
  let v := withBit ((w &&& 0xFF00FFFF#32) ||| BitVec.ofNat 32 (n * 65536)) Health.sweeping
  let v := checkBit (checkBit (checkBit (checkBit v Health.coreFail x.core) Health.memoryFail x.memory)
    Health.seedFail x.seed) Health.clockFail x.clock
  let bad := !(x.core && x.memory && x.seed && x.clock)
  let v := if bad then withBit v Health.rakePending else v
  if bad || !x.code then withoutBit v Health.ready else withBit v Health.ready

/-- STANDBY_SWEEP (R355). A domain under RAKE_FAIL stays out (R468). -/
def execStandbySweep (x : SweepResult) (s : State) : Host.Outcome State Fault Refusal :=
  let w := healthOf s (standby s)
  .next (if awake s && !w.getLsbD Health.rakeFail then setHealth (standby s) (sweptWord w x) s else s)

/-- DOMAIN_TEST_COMPLETE (R468, R472): a pass clears RAKE_PENDING and the failures, a fail sets RAKE_FAIL. -/
def execDomainTestComplete (result duration : Nat) (s : State) : Host.Outcome State Fault Refusal :=
  let d := standby s
  let w := healthOf s d
  .next (
    if awake s && w.getLsbD Health.rakePending then
      let v := if result = 0 then w &&& 0xFFFFFE40#32 else withBit (withoutBit w Health.rakePending) Health.rakeFail
      log 9 0x10 0x1003 ([byte d, byte result, 0, 0] ++ leBytes 4 duration ++ zeros 8) false (setHealth d v s)
    else s)

/-! ### Seeds (R358, R359) -/

/-- A seed slot. -/
def seedOf (s : State) (slot : Nat) : Seed := if slot = 0 then s.dom.seed0 else s.dom.seed1

/-- A seed is valid (R359): its checks stand, its epoch is the present one, and it was written in time. -/
def validSeed (s : State) (x : Seed) : Bool := x.good && x.epoch == s.sun.epoch && x.latch.any (fun n => n ≤ 800000)

/-- The seed that a restoring domain chooses: the valid one with the later cycle (R362 step 4). -/
def chooseSeed (s : State) : Option Nat :=
  match validSeed s s.dom.seed0, validSeed s s.dom.seed1 with
  | true, true => some (if later s.dom.seed1.cycle s.dom.seed0.cycle then 1 else 0)
  | true, false => some 0
  | false, true => some 1
  | false, false => none

/-- The journal entries since a seed. -/
def entriesSince (s : State) (x : Seed) : Nat := s.dom.nextEntry - x.first

/-- Entry 0x0C01 (R384). The duration is open within the limit of R362. -/
def logTakeover (cause source target slot : Nat) (cycle : U32) (replayed gap : Nat) (s : State) : State :=
  draw (log 0 0x0C 0x0C01 ([byte cause, byte source, byte target, byte slot] ++ wordBytes 4 cycle ++ leBytes 2 replayed ++
    [byte gap, 0] ++ leBytes 4 (min 5000 (Config.freeNat s.freeCount))) false s)

/-- The state image of a seed (R360). -/
def seedImage (s : State) : SeedImage :=
  { commit := (newestCommit s).elim 0 (fun c => c.number), sessions := s.sess.out
    replies := perOutlet (fun o => (s.link.get o).reply), replyGens := perOutlet (fun o => (s.link.get o).replyGen)
    siteBudget := s.sess.siteBudget, siteAt := s.sess.siteAt, siteStale := s.sess.siteStale
    role := s.trellis.role, term := s.trellis.term, budget := s.trellis.budget, demands := s.trellis.demands
    allocs := s.trellis.allocs, reductions := s.trellis.reductions
    control := s.bill.control, subInterval := s.bill.subInterval, period := s.bill.period, lastEnd := s.bill.lastEnd
    deferred := s.bill.deferred, slew := s.bill.slew, bills := s.bill.outlets
    transfers := s.host.transfers.filter (fun t => t.state == .receiving), loading := s.sess.loading
    wadiRole := s.wadi.role, waiting := s.update.waiting, fallback := s.update.fallback, sowing := s.update.sowing
    migrating := s.cis.migrating }

/-- Write a seed (R359) into the slot not written last; journal entries older than both seeds are no longer held. -/
def writeSeed (flagBits clocks : Nat) (s : State) : State :=
  let slot := 1 - s.dom.newest
  let seed : Seed :=
    { good := true, writer := s.dom.active, flags := flagBits, cycle := s.sun.cycle, epoch := s.sun.epoch
      first := s.dom.nextEntry, version := runningVersion s 2, serial := s.cfg.serial
      image := some (seedImage s), latch := some clocks }
  let oldest := (seedOf s s.dom.newest).first
  let t := setDom (fun x => { x with
    newest := slot, journal := x.journal.filter (fun e => oldest ≤ e.number)
    seed0 := if slot = 0 then seed else x.seed0, seed1 := if slot = 0 then x.seed1 else seed }) s
  if 800000 < clocks then logTakeover 0 s.dom.active s.dom.active slot s.sun.cycle 0 0 t else t

/-- Every session in S2 to S7 closes with cause 15: no seed was valid (R362), or a warm reset (R477). -/
def cutSessions (s : State) : State :=
  forOutlets (fun o t =>
    if 2 ≤ (sessOf t o).state.code ∧ (sessOf t o).state.code ≤ 7 then giveCause o 15 t else t) s

/-- A domain restores (R362 steps 4 to 7). Every decision since the seed was journalled before its action was released, so the
image with the journal replayed is the state that stands, and no action is released twice (log entry 25). Without a seed,
sessions close. Every standing reply is renewed. -/
def restoreDomain (seed : Option Nat) (s : State) : State :=
  renewReplies (if seed.isNone then cutSessions s else s)

/-- Control moves to the other domain (R362, R365, R366). -/
def moveControl (cause : Nat) (seed : Option Nat) (replayed : Nat) (s : State) : State :=
  let a := s.dom.active
  let t := setDom (fun x => { x with active := 1 - a, takeovers := x.takeovers + 1, lastCause := cause }) s
  let t := restoreDomain seed { t with trellis := { t.trellis with takeoverCycle := some s.sun.cycle } }
  let slot := seed.getD s.dom.newest
  logTakeover cause a (1 - a) slot (seedOf s slot).cycle replayed 0 t

/-! ### Steady points (R365, R366) -/

/-- The session of an outlet is steady: no outlet, S0, or S6 with its allocation unchanged for the dwell. -/
def steadyOutlet (s : State) (o : Outlet) : Bool :=
  let x := sessOf s o
  (outletType s o = 0 || x.state = .s0 ||
    (x.state = .s6 && decide (x.allocSince + 1000 * cfgN s 0x0C01 0 1 1 5 ≤ s.clockMs))) &&
  x.auth ≠ 1 && (s.link.get o).held.isNone

/-- The present dial cycle is a steady point. -/
def steady (s : State) : Bool :=
  outlets.all (steadyOutlet s) && s.sess.loading.isNone && s.cis.migrating.isNone && !s.bill.deferred && s.power.state ≠ .hold

/-- A handback or a commanded switch (R365, R366): the seed is written with its flag and the journal is empty. -/
def switchDomain (cause flagBits clocks : Nat) (s : State) : State :=
  let t := writeSeed flagBits clocks s
  moveControl cause (some t.dom.newest) 0 (setDom (fun x => { x with
    switchTo := false, suspended := if cause = 4 then true else x.suspended }) t)

/-- SEED_WRITE (R359): the first seed after a start completes the boot (R418). A commanded switch takes place at the
first steady point. -/
def execSeedWrite (clocks : Nat) (s : State) : Host.Outcome State Fault Refusal :=
  .next (
    if !domainRuns s then s
    else
      let s := reachAngle 49152 s
      let t := if s.dom.switchTo && steady s && eligible s (standby s) then switchDomain 4 2 clocks s
        else writeSeed 0 clocks s
      if s.power.phase = .booting then
        setUpdate (fun u => { u with completed := true })
          (ledgerEnd 0x00 { t with power := { t.power with phase := .running } })
      else t)

/-- Handback is suspended: after a commanded switch, until the module leaves SERVICE (R366). -/
def handbackSuspended (s : State) : Bool := s.dom.suspended && inService s

/-- HANDBACK (R365): B hands control back to an eligible A at a steady point. -/
def execHandback (s : State) : Host.Outcome State Fault Refusal :=
  .next (
    if domainRuns s && s.dom.active == 1 && eligible s 0 && cfgN s 0x0C01 0 0 1 2 == 2 && !handbackSuspended s && steady s
    then switchDomain 5 1 0 s
    else s)

/-- DOMAIN_SWITCH (R366). -/
def execDomainSwitch (r : Request) (s : State) : Host.Outcome State Fault Refusal :=
  .next (hostRequest (opNone 0x0C02 [clsN]) r
    (fun s => guarded [need (inService s && eligible s (standby s)) St.refusedState]
      (fun s => done (setDom (fun x => { x with switchTo := true }) s)) s) s)

/-- The restarts in place of the last hour (R364). -/
def recentRestarts (s : State) : List Nat := s.dom.restarts.filter (fun t => s.clockMs < t + 3600000)

/-- The payload of opcode 0x0C01 (R383); the word of a failed domain is open while none has failed. -/
def takeoverStatusBytes (s : State) : List Byte :=
  let x := seedOf s s.dom.newest
  [byte s.dom.active, byte s.dom.lastCause] ++ leBytes 2 s.dom.takeovers ++ wordBytes 4 (healthOf s (standby s)) ++
    s.dom.failed.elim (openField 4 s) (fun d => wordBytes 4 (healthOf s d)) ++
    [byte s.dom.newest,
     byte (if cfgN s 0x0C01 0 0 1 2 = 1 then 0 else if handbackSuspended s then 2 else 1),
     byte (recentRestarts s).length, 0] ++ wordBytes 4 x.cycle ++ leBytes 4 (entriesSince s x)

/-- TAKEOVER_STATUS (R383). -/
def execTakeoverStatus (r : Request) (s : State) : Host.Outcome State Fault Refusal :=
  .next (hostRequest (opNone 0x0C01 [clsN, clsH]) r (fun s => reply (takeoverStatusBytes s) (draw s)) s)

end Sys2Proof.Machine
end

