-- ==== Sys2Proof/Machine/RakeSign.lean ====
section
/-! DEFINITION. The Rake's results and its pass signature (R462, R465 to R467), which the start also reads. -/

namespace Sys2Proof.Machine

/-- Change the Rake. -/
def setRake (f : Rake → Rake) (s : State) : State := { s with rake := f s.rake }

/-- The six result codes of a run: 0xFF for a group that is not part of it (R462). -/
def sixResults (l : List (Nat × Nat)) : List Nat :=
  (List.range 6).map (fun i => ((l.find? (fun x => x.1 == i + 1)).map (fun x => x.2)).getD 255)

/-- All six groups passed. -/
def sixPass (l : List Nat) : Bool := l == [0, 0, 0, 0, 0, 0]

/-- The signature block (R465). A cleared magic leaves the other bytes. -/
def signatureBytes (s : State) : List Byte :=
  match s.rake.signature with
  | none => zeros 64
  | some x =>
    let body := leBytes 4 x.utc ++ wordBytes 4 x.cycle ++ leBytes 2 x.epoch ++ [byte x.kind, byte x.pattern] ++ zeros 8 ++
      padTo 8 x.serial ++ zeros 28
    let head := leBytes 4 0x4B525347 ++ body
    (if s.rake.magic then leBytes 4 0x4B525347 else zeros 4) ++ body ++ wordBytes 4 (crc32c head)

/-- The results of a run are noted (R465, R467): a full run that passes writes the signature while UTC is valid, any
other result clears its magic; only a full pass lifts the bar on permits. -/
def noteResults (kind : Nat) (six : List Nat) (s : State) : State :=
  let pass := sixPass six
  let sign := pass && s.sun.utcValid
  setRake (fun k => { k with
    lastKind := kind, lastResults := six, lastUtc := some (utcField (utcNow s)), results := [], left := []
    repeated := false, permitOk := k.permitOk || pass
    signature := if sign then
        some ⟨s.sun.utc, s.sun.cycle, s.sun.epoch, kind, Config.patternSet.toNat, s.otp.serial⟩ else k.signature
    magic := if sign then true else if pass then k.magic else false }) s

/-- The end of a run; its entry is written at the start that follows (R472). -/
def endRake (s : State) : State :=
  setRake (fun k => { k with unlogged := true }) (noteResults s.rake.lastKind (sixResults s.rake.results) s)

/-- The signature is usable now (R466). -/
def signatureUsable (s : State) : Bool :=
  match s.rake.signature with
  | none => false
  | some x => s.rake.magic && x.serial == s.otp.serial && x.pattern == Config.patternSet.toNat && s.sun.utcValid &&
      decide (x.utc ≤ s.sun.utc ∧ s.sun.utc - x.utc ≤ 604799)

/-- Entry 0x1001 (R472); that of a maintenance or commanded run is legal (R463). -/
def logRake (duration peak : List Byte) (s : State) : State :=
  log 9 0x10 0x1001 ([byte s.rake.lastKind, Config.patternSet] ++ s.rake.lastResults.map byte ++ duration ++ peak ++ zeros 4)
    (s.rake.lastKind = 1 || s.rake.lastKind = 2) s

end Sys2Proof.Machine
end

