-- ==== Sys2Proof/Machine/Reader.lean ====
section
/-! DEFINITION. The reader ports ANT0 and ANT1 (R438 to R443). -/

namespace Sys2Proof.Machine

/-- A reader port. -/
def readerOf (s : State) (p : Fin 2) : Reader := if p = 0 then s.reader0 else s.reader1

/-- Change a reader port. -/
def setReader (p : Fin 2) (f : Reader → Reader) (s : State) : State :=
  if p = 0 then { s with reader0 := f s.reader0 } else { s with reader1 := f s.reader1 }

/-- The other port. -/
def otherPort (p : Fin 2) : Fin 2 := if p = 0 then 1 else 0

/-- The port is enabled (R455). -/
def portEnabled (s : State) (p : Fin 2) : Bool := (cfgN s 0x0F01 0 0 1 3).testBit p.val

/-- The standards of a port (R455). -/
def portStandards (s : State) (p : Fin 2) : Nat := cfgN s 0x0F01 0 (1 + p.val) 1 7

/-- FLD serves the reader ports. -/
def fieldRuns (s : State) : Bool := awake s

/-- The port is at full field: it polls or holds a card (R439, R441). -/
def fullField (r : Reader) : Bool := 2 ≤ r.state

/-- The load differs from the baseline by more than the detection threshold, a percentage (R439, R456). -/
def deviates (s : State) (base load : Int) : Bool :=
  (cfgN s 0x0F02 0 0 1 3 : Int) * base.natAbs < 100 * (load - base).natAbs

/-- The baseline after a measurement without a deviation: between the two, how far is open (log entry 1). -/
def averaged (s : State) (base load : Int) : Int :=
  clamp (min base load) (max base load) (Config.freeInt s.freeCount)

/-- The port raises its field to full, or waits for its turn where pairing holds it back (R443). -/
def raiseField (p : Fin 2) (s : State) : State :=
  if cfgN s 0x0F01 0 3 1 0 = 1 ∧ fullField (readerOf s (otherPort p)) then
    setReader p (fun r => { r with run := 0, waiting := true }) s
  else setReader p (fun r => { r with run := 0, waiting := false, state := 2 }) s

/-- The port goes back to the low field; a port that waited for it takes its turn (R443). -/
def lowerField (p : Fin 2) (s : State) : State :=
  let t := setReader p (fun r => { r with state := 1, run := 0 }) s
  if (readerOf t (otherPort p)).waiting then raiseField (otherPort p) t else t

/-- ANTENNA_SENSE (R439). -/
def execAntennaSense (port : Fin 2) (load : Int) (s : State) : Host.Outcome State Fault Refusal :=
  let r := readerOf s port
  .next (
    if !(fieldRuns s && portEnabled s port) then s
    else if 2 ≤ r.state ∨ r.waiting = true then setReader port (fun x => { x with load := load }) s
    else if deviates s r.baseline load then
      let t := setReader port (fun x => { x with state := 1, load := load, run := x.run + 1 }) s
      if r.run + 1 = 3 then raiseField port t else t
    else draw (setReader port (fun x => { x with
      state := 1, load := load, run := 0, baseline := averaged s r.baseline load }) s))

/-- Entry 0x0F01 (R459). -/
def cardNotDelivered (port : Fin 2) (cause std : Nat) (ident : List Byte) (s : State) : State :=
  log 0 0x0F 0x0F01 ([byte port.val, byte cause, byte std, 0] ++ padTo 8 ident) false s

/-- A random ISO/IEC 14443 A UID (R441). -/
def randomUid (std : Nat) (ident : List Byte) : Bool := std == 0 && ident.length == 4 && ident.head? == some 8

/-- The identifier may be delivered: it was not, or it was removed and the hold-off has passed (R441). -/
def mayDeliver (s : State) (p : Fin 2) (ident : List Byte) : Bool :=
  match (readerOf s p).cards.find? (fun c => c.ident == ident) with
  | none => true
  | some c => c.removed.elim false (fun t => t + 1000 * cfgN s 0x0F01 0 4 1 3 ≤ s.clockMs)

/-- One card completed anticollision: it is delivered or not, and then halted (R441). -/
def oneCard (p : Fin 2) (std : Nat) (ident : List Byte) (s : State) : State :=
  let t := setReader p (fun r => { r with state := 4, std := std }) s
  if mayDeliver s p ident then
    cardRead p.val ident (setReader p (fun r => { r with
      delivered := r.delivered + 1
      cards := ⟨ident, none⟩ :: r.cards.filter (fun c => c.ident != ident) }) t)
  else t

/-- Poll the enabled standards in order (R440, R441): the state after the poll and whether a card was found. -/
def poll (p : Fin 2) : List (Nat × PollResult) → State → State × Bool
  | [], s => (s, false)
  | (std, x) :: rest, s =>
    if !(portStandards s p).testBit std then poll p rest s
    else match x with
      | .none => poll p rest s
      | .several => (setReader p (fun r => { r with state := 4, std := std }) (cardNotDelivered p 2 std [] s), true)
      | .one ident =>
        if randomUid std ident then
          let t := setReader p (fun r => { r with state := 4, std := std }) (cardNotDelivered p 1 std ident s)
          ((poll p rest t).1, true)
        else (oneCard p std ident s, true)

/-- GUARD_TIME_END (R440): the port polls; without a card it returns to the low field, and the present load is the
baseline. -/
def execGuardTimeEnd (port : Fin 2) (a b v : PollResult) (s : State) : Host.Outcome State Fault Refusal :=
  .next (
    if !(fieldRuns s && portEnabled s port && (readerOf s port).state == 2) then s
    else match poll port [(0, a), (1, b), (2, v)] s with
      | (t, true) => settle t
      | (t, false) => lowerField port (setReader port (fun r => { r with empty := r.empty + 1, baseline := r.load }) t))

/-- REPOLL (R441): a halted card stays silent; a card that answers is handled as at first. -/
def execRepoll (port : Fin 2) (a b v : PollResult) (s : State) : Host.Outcome State Fault Refusal :=
  .next (if !(fieldRuns s && portEnabled s port && (readerOf s port).state == 4) then s
    else settle (poll port [(0, a), (1, b), (2, v)] s).1)

/-- CARD_REMOVAL (R441): the cards present count as removed, and the port returns to the low field. -/
def execCardRemoval (port : Fin 2) (s : State) : Host.Outcome State Fault Refusal :=
  .next (if !(fieldRuns s && 3 ≤ (readerOf s port).state) then s
    else lowerField port (setReader port (fun r => { r with cards := r.cards.map (fun c =>
      if c.removed = none then { c with removed := some s.clockMs } else c) }) s))

/-- PAIRING_WAIT_EXPIRY (R443): the waiting port takes its turn and the other port waits instead. -/
def execPairingWaitExpiry (port : Fin 2) (s : State) : Host.Outcome State Fault Refusal :=
  .next (if !(fieldRuns s && (readerOf s port).waiting) then s
    else setReader (otherPort port) (fun r => { r with state := 1, run := 0, waiting := fullField r })
      (setReader port (fun r => { r with waiting := false, state := 2 }) s))

end Sys2Proof.Machine
end

