-- ==== Sys2Proof/Machine/SafeFrame.lean ====
section
/-! DEFINITION. Safe frames (R225 to R228): building, sending, receiving, comparing the two copies. -/

namespace Sys2Proof.Machine

/-! ### Layout (R225) -/

/-- The CRC-32 of R225: polynomial 0x04C1_1DB7, reflected, initial value and final XOR 0xFFFF_FFFF. -/
def safeCrc (bs : List Byte) : BitVec 32 := ~~~ (bs.foldl (crcByte 0xEDB88320#32) 0xFFFFFFFF#32)

/-- Member mask, stack ID and own slot (R238). -/
def safeMembers (s : State) : Nat := block0704 s 2 2
def safeStack (s : State) : Nat := block0704 s 0 2

/-- The slots whose frames count: the members other than the module itself. -/
def otherMembers (s : State) : List Nat :=
  (List.range 16).filter (fun i => (safeMembers s).testBit i && i != s.power.straps.val)

/-- The group trip request of the module (R228). -/
def groupRequest (s : State) : Bool :=
  (s.hedge.estop || s.hedge.wiring || s.hedge.fault) && block0701 s 7 1 == 1

/-- The state byte. -/
def safeState (s : State) : Byte := byte (flags [s.hedge.estop, groupRequest s, s.hedge.safeOk, s.hedge.fault])

/-- The 32 bytes of the next frame: type 1 cyclic, 2 trip. -/
def safeFrameBytes (s : State) (type : Nat) : List Byte :=
  let body := leBytes 2 (safeStack s * 16 + s.power.straps.val) ++ [byte type, 0] ++ wordBytes 4 s.hedge.safeSeq ++
    [safeState s, byte (flags (outlets.map (fun o => (s.hedge.out.get o).latched != 0))), 0, 0] ++
    wordBytes 4 s.sun.cycle ++ leBytes 4 (if s.hedge.confirmed then checkValue s else 0) ++ zeros 8
  body ++ wordBytes 4 (safeCrc body)

/-! ### Sending (R226) -/

/-- The port of safe frames on E0. -/
def safePort : Nat := 49411

/-- A frame is sent: on E0 at once, as a datagram to the group address of record 0x0704, and on the Trellis link in the next
slot. A trip frame notes the state byte whose later change calls for the next one. -/
def sendSafe (type : Nat) (s : State) : State :=
  let bytes := safeFrameBytes s type
  emit (.safeFrame .e0 (some (block0704 s 8 4, safePort)) bytes) (setHedgeM (fun h => { h with
    safeSeq := h.safeSeq + 1, lastState := if type = 2 then safeState s else h.lastState, safeWait := some bytes }) s)

/-- Hedge sends safe frames: it is at work and the member mask is not 0. -/
def sendsSafe (s : State) : Bool := hedgeLive s && safeMembers s != 0

/-- SAFE_FRAME_CYCLIC (R226): frames that fall due before one slot are one frame. -/
def execSafeFrameCyclic (s : State) : Host.Outcome State Fault Refusal :=
  .next (if sendsSafe s && s.hedge.safeWait.isNone then sendSafe 1 s else s)

/-- Bits 0, 1 and 3 of the state byte differ from those of the latest trip frame. -/
def tripChanged (s : State) : Bool := (safeState s ^^^ s.hedge.lastState) &&& 0x0B != 0

/-- SAFE_FRAME_TRIP_SEND (R226): the frame takes the slot before a cyclic frame. -/
def execSafeFrameTripSend (s : State) : Host.Outcome State Fault Refusal :=
  .next (if sendsSafe s && tripChanged s then sendSafe 2 s else s)

/-! ### Receiving (R227, R228) -/

/-- What Hedge holds of a source. -/
def sourceOf (s : State) (slot : Nat) : SafeSource :=
  (s.hedge.sources.find? (fun x => x.slot == slot)).getD { slot, seq := none, waiting := [], group := false, fault := false }

/-- Put what Hedge holds of a source. -/
def putSource (x : SafeSource) (s : State) : State :=
  setHedgeM (fun h => { h with sources := x :: h.sources.filter (fun y => y.slot != x.slot) }) s

/-- The sequence of a copy, and whether it is a trip frame. -/
def seqOf (bytes : List Byte) : U32 := BitVec.ofNat 32 (fieldN bytes 4 4)
def tripFrameBytes (bytes : List Byte) : Bool := fieldN bytes 2 1 == 2

/-- Step 5 of R227: the safe-frame fault, with entry 0x0707. -/
def safeFault (slot kind : Nat) (path seq : List Byte) (s : State) : State :=
  let t := putSource { sourceOf s slot with fault := true } s
  tripModule .safeFault (draw (log 8 0x07 0x0707 (leBytes 2 (safeStack s * 16 + slot) ++ [byte kind] ++ path ++ seq ++ zeros 8)
    false t))

/-- The group trip request of a frame acts (R228). -/
def takeGroup (slot : Nat) (bytes : List Byte) (s : State) : State :=
  let request := (fieldN bytes 8 1).testBit 1
  let t := putSource { sourceOf s slot with group := request } s
  if request then tripModule .group (setHedgeM (fun h => { h with groupGone := false }) t) else t

/-- A matched pair. -/
def takePair (slot : Nat) (bytes : List Byte) (s : State) : State :=
  takeGroup slot bytes (putSource { sourceOf s slot with
    seq := some (seqOf bytes), fault := false
    waiting := (sourceOf s slot).waiting.filter (fun w => seqOf w.2 != seqOf bytes) } s)

/-- Steps 3 to 5 for a copy that has passed steps 1 and 2. -/
def takeCopy (slot : Nat) (path : Path) (bytes : List Byte) (s : State) : State :=
  let s := if tripFrameBytes bytes then takeGroup slot bytes s else s
  let x := sourceOf s slot
  match x.waiting.find? (fun w => w.1 != path && seqOf w.2 == seqOf bytes) with
  | some w =>
    if w.2 = bytes then takePair slot bytes s
    else safeFault slot 0 (openField 1 s) (wordBytes 4 (seqOf bytes))
      (putSource { x with waiting := x.waiting.filter (fun y => seqOf y.2 != seqOf bytes) } s)
  | none =>
    putSource { x with
      waiting := x.waiting.filter (fun y => seqOf y.2 != seqOf bytes || y.1 != path) ++ [(path, bytes)] } s

/-- Step 1 of R227. -/
def copyValid (s : State) (bytes : List Byte) : Bool :=
  bytes.length == 32 && fieldN bytes 28 4 == (safeCrc (bytes.take 28)).toNat && fieldN bytes 0 2 / 16 == safeStack s &&
    decide (fieldN bytes 0 2 % 16 ∈ otherMembers s)

/-- Step 2 of R227. -/
def copyLater (s : State) (bytes : List Byte) : Bool :=
  (sourceOf s (fieldN bytes 0 2 % 16)).seq.elim true (fun q => later (seqOf bytes) q)

/-- A copy of a safe frame arrives at Hedge. -/
def receiveSafe (path : Path) (bytes : List Byte) (s : State) : State :=
  if !hedgeLive s then s
  else if copyValid s bytes && copyLater s bytes then settle (takeCopy (fieldN bytes 0 2 % 16) path bytes s)
  else setHedgeM (fun h => { h with safeDiscards := h.safeDiscards + 1 }) s

/-- SAFE_FRAME_RECEIVE (R227, R228). -/
def execSafeFrameReceive (p : Path) (bytes : List Byte) (s : State) : Host.Outcome State Fault Refusal :=
  .next (receiveSafe p bytes s)

/-- SAFE_FRAME_COPY_MISSING (R227): the copy that has waited longest has no second copy within 4 ms. -/
def execSafeFrameCopyMissing (slot : Slot) (s : State) : Host.Outcome State Fault Refusal :=
  .next (
    let x := sourceOf s slot.val
    match x.waiting with
    | [] => s
    | w :: rest => settle (safeFault slot.val 1 [byte (flag (w.1 == .trellis))] (wordBytes 4 (seqOf w.2))
        (putSource { x with waiting := rest } s)))

/-- SAFE_FRAME_PAIR_TIMEOUT (R227). The entry's path and sequence are open: no frame has come. -/
def execSafeFramePairTimeout (slot : Slot) (s : State) : Host.Outcome State Fault Refusal :=
  .next (
    if hedgeLive s ∧ slot.val ∈ otherMembers s ∧ (sourceOf s slot.val).seq.isSome then
      settle (safeFault slot.val 2 (openField 1 s) (openField 4 s) s)
    else s)

/-- SAFE_FRAME_SEQUENCE_CLEAR (R227). -/
def execSafeFrameSequenceClear (slot : Slot) (s : State) : Host.Outcome State Fault Refusal :=
  .next (putSource { sourceOf s slot.val with seq := none } s)

/-- Every member's pairs match. -/
def membersMatch (s : State) : Bool :=
  (otherMembers s).all (fun i => (sourceOf s i).seq.isSome && !(sourceOf s i).fault)

/-- SAFE_FRAME_FAULT_CLEAR (R209): matched pairs from every member for 1 s clear the fault. -/
def execSafeFrameFaultClear (s : State) : Host.Outcome State Fault Refusal :=
  .next (if s.hedge.safeFault && membersMatch s then settle (setHedgeM (setLatch .safeFault false) s) else s)

/-- GROUP_TRIP_CLEAR (R209): no member has asked for a group trip for 1 s, so the reset policy may clear it. -/
def execGroupTripClear (s : State) : Host.Outcome State Fault Refusal :=
  .next (if s.hedge.group && s.hedge.sources.all (fun x => !x.group) then
      setHedgeM (fun h => { h with groupGone := true }) s
    else s)

end Sys2Proof.Machine
end

