-- ==== Sys2Proof/Machine/Trellis.lean ====
section
/-! DEFINITION. The Trellis link and stack mastership (R367 to R379): frames sent and received, presence, the roles, and
the chapter's stack opcodes. -/

namespace Sys2Proof.Machine

/-- Change the Trellis link. -/
def setTrellis (f : Trellis → Trellis) (s : State) : State := { s with trellis := f s.trellis }

/-! ### Record 0x0C02 (R381) -/

/-- The stack ID. -/
def stackId (s : State) : Nat := cfgN s 0x0C02 0 0 2 0
/-- The member mask; 0 is a stack of one. -/
def memberMask (s : State) : Nat := cfgN s 0x0C02 0 2 2 0
/-- The spare candidates; bit 0 is ignored. -/
def candidateMask (s : State) : Nat := cfgN s 0x0C02 0 4 2 0 / 2 * 2
/-- The own slot (R367). -/
def ownSlot (s : State) : Nat := s.power.straps.val
/-- A module's source ID (R225, R370). -/
def sourceId (s : State) (slot : Nat) : Nat := stackId s * 16 + slot
/-- Frames per dial cycle (R34). -/
def framesPerCycle (s : State) : Nat := if nominalFreq s = 50000 then 20 else 17
/-- The module's stack has more than one member, and its link is at work: HST serves it until holdup end (R485). -/
def trellisRuns (s : State) : Bool := up s && memberMask s ≠ 0

/-- A mark, of a frame's 16-byte MAC: 0 without the Trellis pair key (R371). -/
def trellisMac (s : State) (bytes : List Byte) : List Byte :=
  match s.cis.trellis with
  | some k => (digestBytes (Config.hmac k bytes)).take 16
  | none => zeros 16

/-- A received MAC is good: a module without the key cannot tell (R371). -/
def macIsGood (s : State) (bytes mac : List Byte) : Bool := s.cis.trellis.isSome && mac == trellisMac s bytes

/-- A frame with its frame check. -/
def withCheck (bytes : List Byte) : List Byte := bytes ++ wordBytes 4 (crc32c bytes)

/-- The frame check stands. -/
def checkIsGood (bytes : List Byte) : Bool :=
  4 ≤ bytes.length && wordBytes 4 (crc32c (bytes.take (bytes.length - 4))) == bytes.drop (bytes.length - 4)

/-- CRC-32C of the own record 0x0602 payload, or of its defaults (R369; log entry 13). -/
def budgetCheck (s : State) : Nat :=
  let dflt := leBytes 4 150000 ++ zeros 4 ++ leBytes 4 250000 ++ leBytes 4 250000 ++ leBytes 4 250000 ++ zeros 8
  (crc32c (match findRec s.cfg.recs 0x0602 0 with
    | some r => r.body
    | none => dflt)).toNat

/-! ### Sending (R368 to R372) -/

/-- The sync frame (R369). -/
def syncFrame (s : State) : List Byte :=
  let t := s.trellis
  let head := leBytes 2 (stackId s) ++ [2, byte (if t.transfer.any (fun x => 0 < x.2) then 1 else 0)] ++
    wordBytes 4 t.frame ++ wordBytes 4 s.sun.cycle ++ [byte t.index, byte t.frames, byte t.masterSlot, byte t.spareSlot] ++
    wordBytes 2 t.term ++ wordBytes 2 t.present ++ leInt 4 t.budget ++ leBytes 4 (budgetCheck s) ++ zeros 16
  withCheck (head ++ trellisMac s head)

/-- A demand entry (R373). -/
def demandBytes (d : Demand) : List Byte :=
  [byte d.outlet, byte d.state, byte d.type, byte d.weight] ++ leInt 4 d.demand ++ wordBytes 4 d.order ++
    [byte d.rotation, byte d.phases] ++ leBytes 2 (flag d.bpt) ++ leInt 4 d.target

/-- A message: type, length, payload (R372). -/
def message (type : Nat) (payload : List Byte) : List Byte := [byte type, byte payload.length] ++ payload

/-- The four allocation messages of a frame, in rotation over the slots; none in a cycle for which the domain formed no
allocation (R374). -/
def allocationMessages (s : State) : List Byte :=
  let l := if s.trellis.allocCycle = some s.sun.cycle then s.trellis.allocs else []
  (List.range (min 4 l.length)).flatMap (fun i =>
    match l[(s.trellis.rotation + i) % max 1 l.length]? with
    | some a => message 2 ([byte a.slot, 0] ++ (List.range 4).flatMap (fun o => leInt 4 (a.watts.getD o 0)))
    | none => [])

/-- The master state message: site budget, its age and the export limit (R372). Budget and age are open on a master that
has received no site budget. -/
def masterState (s : State) : List Byte :=
  message 3 ((siteBudgetOf s).elim (openField 4 s) (fun x => leInt 4 x.1) ++
    (siteBudgetOf s).elim (openField 2 (draw s)) (fun x => leBytes 2 (min 65535 (x.2 / 1000))) ++ zeros 2 ++
    leBytes 4 (cfgN s 0x0602 0 24 4 0))

/-- The member status message (R372); the health word is the one that the standby reports (R356). -/
def memberStatus (s : State) : List Byte :=
  message 4 (wordBytes 4 (healthOf s (standby s)) ++
    [byte (flags [s.hedge.safeOk, s.dom.active == 0, s.cis.trellis.isSome]), 0, 0, 0] ++ leBytes 4 (budgetCheck s))

/-- The messages that a frame carries (R372). -/
def dataArea (k : Nat) (s : State) : List Byte :=
  let h := s.trellis.frames / 2
  let report := message 1 ((ownDemands s).flatMap demandBytes)
  if s.trellis.role = 3 then
    if k + 2 ≤ h then report else if k + 1 = h then masterState s else allocationMessages s
  else if k < h then report else memberStatus s

/-- The own slot frame (R370); the safe frame comes from Hedge. -/
def slotFrame (k : Nat) (safe : List Byte) (s : State) : List Byte :=
  let t := s.trellis
  let recent := t.takeoverCycle.any (fun c => c == s.sun.cycle || c + 1 == s.sun.cycle)
  let head := leBytes 2 (sourceId s (ownSlot s)) ++
    [1, byte (flags [t.role == 2, t.role == 3, decide (0 < t.joining), recent])] ++ wordBytes 4 t.frame
  let area := padTo 84 (dataArea k s)
  withCheck (head ++ padTo 32 safe ++ area ++ trellisMac s (head ++ area))

/-- The own slot frame goes out, and takes Hedge's waiting safe frame along. -/
def sendSlot (k : Nat) (s : State) : State :=
  let safe := s.hedge.safeWait.getD []
  let t := { s with hedge := { s.hedge with safeWait := none } }
  let rotates := s.trellis.role = 3 ∧ s.trellis.frames / 2 ≤ k
  let n := s.trellis.allocs.length
  draw (draw (emit (.trellisSlot (ownSlot s) (slotFrame k safe s)) (setTrellis (fun x => { x with
    joining := x.joining - 1
    rotation := if rotates then (x.rotation + min 4 n) % max 1 n else x.rotation }) (journal 6 k s.trellis.frame.toNat t))))

/-- The sync frame goes out. -/
def sendSync (s : State) : State :=
  emit (.trellisSync (syncFrame s)) (setTrellis (fun x => { x with
    transfer := x.transfer.bind (fun y => if 0 < y.2 then some (y.1, y.2 - 1) else none) }) s)

/-! ### Roles (R375 to R378) -/

/-- Entry 0x0C04 (R384). -/
def logMastership (old new cause : Nat) (s : State) : State :=
  log 4 0x0C 0x0C04 ([byte old, byte new, byte cause, 0] ++ wordBytes 2 s.trellis.term ++ zeros 2 ++
    wordBytes 4 s.trellis.frame ++ zeros 4) false s

/-- The present candidates other than the own slot, lowest first. -/
def spareCandidates (s : State) : List Nat :=
  (List.range 16).filter (fun x => (candidateMask s).testBit x && s.trellis.present.getLsbD x && x != ownSlot s)

/-- The spare that the master names: it keeps a present one (R375). -/
def nameSpare (s : State) : State :=
  let l := spareCandidates s
  setTrellis (fun t => { t with spareSlot := if t.spareSlot ∈ l then t.spareSlot else l.headD 255 }) s

/-- The module becomes master with the next term (R375, R376, R378) and keeps the site budget that it knew as a member (R195,
R372); on the Wadi it sends from the next superframe (R404). -/
def becomeMaster (cause : Nat) (s : State) : State :=
  let old := s.trellis.masterSlot
  let t := setTrellis (fun x => { x with
    role := 3, listening := false, silent := false, masterSlot := ownSlot s, term := x.term + 1
    highTerm := x.term + 1, missed := 0, transfer := none, readback := 0, budgetDiffers := false
    present := x.present ||| BitVec.ofNat 16 (2 ^ ownSlot s), allocs := x.shadow
    adopted := if follows s then (siteBudgetOf s).map (fun y => (y.1, s.clockMs - y.2)) else none }) s
  sendSync (logMastership old (ownSlot s) cause (nameSpare { t with wadi := { t.wadi with heldBack := true } }))

/-- `a` is a later term (half-range on 16 bits). -/
def laterTerm (a b : U16) : Bool := 1 ≤ (a - b).toNat ∧ (a - b).toNat < 2 ^ 15

/-- TRELLIS_FRAME_START (R368): the master sends its sync, and every member that may send its slot frame. In a
mastership transfer the target sends the sync of the third frame (R378). -/
def execTrellisFrameStart (k : Fin 20) (s : State) : Host.Outcome State Fault Refusal :=
  .next (
    let s := if up s && k.val < framesPerCycle s then reachAngle (k.val * 65536 / framesPerCycle s) s else s
    if !trellisRuns s || s.trellis.role == 0 || framesPerCycle s ≤ k.val then s
    else
      let t := setTrellis (fun x => { x with
        index := k.val, frames := framesPerCycle s, absentRun := x.absentRun.map (fun n => n + 1)
        backoff := x.backoff - 1, listening := x.listening || x.backoff == 1 }) s
      if s.trellis.role = 3 then
        let t := setTrellis (fun x => { x with frame := x.frame + 1 }) t
        if s.trellis.transfer.any (fun x => x.2 == 0) then
          sendSlot k.val (setTrellis (fun x => { x with transfer := none }) t)
        else if s.trellis.transfer.isSome then sendSlot k.val (sendSync t)
        else sendSlot k.val (sendSync (nameSpare t))
      else
        let target := s.trellis.transfer.any (fun x => x.1 == ownSlot s && x.2 == 0)
        let t := if target then becomeMaster 3 t else setTrellis (fun x => { x with missed := x.missed + 1 }) t
        if s.trellis.listening || s.trellis.silent || 0 < s.trellis.backoff then t else sendSlot k.val t)

/-- A sync frame with a good MAC, for a module that is not master or yields (R369, R375, R377). -/
def followSync (b : List Byte) (s : State) : State :=
  let term := BitVec.ofNat 16 (fieldN b 16 2)
  let master := fieldN b 14 1
  let spare := fieldN b 15 1
  let pendingFlag := fieldN b 3 1 % 2 = 1
  let old := s.trellis
  let cause := if old.transfer.isSome then 3 else if old.role = 3 then 4 else if 2 ≤ old.missed then 1 else 4
  let transfer := if pendingFlag ∧ spare = ownSlot s then
      some (spare, match old.transfer with | some (_, n) => n - 1 | none => 1)
    else if pendingFlag then some (spare, 0)
    else old.transfer.bind (fun x => if x.1 = ownSlot s ∧ old.role ≠ 3 then some x else none)
  let t := setTrellis (fun x => { x with
    role := if spare = ownSlot s then 2 else 1, listening := false, silent := false, missed := 0, backoff := 0
    joining := if old.listening ∨ old.silent ∨ 0 < old.backoff then 20 else x.joining
    masterSlot := master, spareSlot := spare, term := term
    highTerm := if laterTerm term x.highTerm then term else x.highTerm
    frame := BitVec.ofNat 32 (fieldN b 4 4), present := BitVec.ofNat 16 (fieldN b 18 2), budget := fieldI b 20 4
    masterCheck := fieldN b 24 4, budgetDiffers := fieldN b 24 4 != budgetCheck s
    transfer := if master = old.masterSlot ∨ old.listening then transfer else none }) s
  if master ≠ old.masterSlot ∧ ¬ old.listening then logMastership old.masterSlot master cause t else t

/-- SYNC_RECEIVED (R369, R371, R377). A frame with a bad MAC gives timing only. -/
def execSyncReceived (bytes : List Byte) (s : State) : Host.Outcome State Fault Refusal :=
  .next (
    if !trellisRuns s then s
    else if !(bytes.length == 64 && checkIsGood bytes) then
      setTrellis (fun x => { x with errorsA := x.errorsA + 1, errorsB := x.errorsB + 1 }) s
    else if fieldN bytes 0 2 ≠ stackId s ∨ fieldN bytes 2 1 ≠ 2 then s
    else
      let good := macIsGood s (bytes.take 44) (slice bytes 44 16)
      let term := BitVec.ofNat 16 (fieldN bytes 16 2)
      if !good then
        let t := setTrellis (fun x => { x with macFails := x.macFails + 1 }) s
        if s.trellis.role = 3 then t
        else setTrellis (fun x => { x with
          role := if x.role = 2 then 2 else 1, listening := false, silent := false, missed := 0
          joining := if s.trellis.listening ∨ s.trellis.silent then 20 else x.joining
          frame := BitVec.ofNat 32 (fieldN bytes 4 4) }) t
      else if s.trellis.role = 3 then (if laterTerm term s.trellis.term then followSync bytes s else s)
      else if s.trellis.listening ∨ ¬ laterTerm s.trellis.term term then followSync bytes s
      else s)

/-! ### Slot frames (R370 to R374) -/

/-- Entry 0x0C05. -/
def logMember (slot absent : Nat) (s : State) : State :=
  log 4 0x0C 0x0C05 ([byte slot, byte absent, 0, 0] ++ wordBytes 4 s.trellis.frame ++ zeros 8) false s

/-- The messages of a data area, until its unused bytes; the first argument bounds their number. -/
def messagesOf : Nat → List Byte → List (Nat × List Byte)
  | 0, _ => []
  | n + 1, a =>
    if fieldN a 0 1 = 0 ∨ a.length < 2 then []
    else (fieldN a 0 1, slice a 2 (fieldN a 1 1)) :: messagesOf n (a.drop (2 + fieldN a 1 1))

/-- A demand entry as received. -/
def demandOf (slot : Nat) (b : List Byte) : Demand :=
  { slot, outlet := fieldN b 0 1, state := fieldN b 1 1, type := fieldN b 2 1, weight := fieldN b 3 1
    demand := fieldI b 4 4, order := BitVec.ofNat 32 (fieldN b 8 4), rotation := fieldN b 12 1, phases := fieldN b 13 1
    bpt := (fieldN b 14 2).testBit 0, target := fieldI b 16 4 }

/-- The spare's shadow allocation differs from the master's: entry 0x0C06 for each outlet that does (R376). -/
def compareShadow (slot : Nat) (watts : List Int) (s : State) : State :=
  match s.trellis.shadow.find? (fun a => a.slot == slot) with
  | none => s
  | some a =>
    (List.range 4).foldl (fun t o =>
      if watts.getD o 0 = a.watts.getD o 0 then t
      else setTrellis (fun x => { x with shadowDiffs := x.shadowDiffs + 1 })
        (log 4 0x0C 0x0C06 ([byte slot, byte o, 0, 0] ++ leInt 4 (watts.getD o 0) ++ leInt 4 (a.watts.getD o 0) ++ zeros 4)
          false t)) s

/-- One message of a slot frame with a good MAC. -/
def takeMessage (slot : Nat) (m : Nat × List Byte) (s : State) : State :=
  let p := m.2
  if m.1 = 1 then
    let new := (List.range 4).map (fun e => demandOf slot (slice p (20 * e) 20))
    setTrellis (fun x => { x with demands := x.demands.filter (fun d => d.slot != slot) ++ new }) s
  else if m.1 = 2 ∧ slot = s.trellis.masterSlot then
    let watts := (List.range 4).map (fun o => fieldI p (2 + 4 * o) 4)
    let t := if s.trellis.role = 2 then compareShadow (fieldN p 0 1) watts s else s
    if fieldN p 0 1 = ownSlot s then setNextAlloc watts t else t
  else if m.1 = 3 ∧ slot = s.trellis.masterSlot then
    setTrellis (fun x => { x with siteState := some (fieldI p 0 4, fieldN p 4 2, fieldI p 8 4) }) s
  else if m.1 = 4 then
    let new : MemberStatus := ⟨slot, fieldN p 0 4, fieldN p 4 1, fieldN p 8 4⟩
    setTrellis (fun x => { x with statuses := new :: x.statuses.filter (fun y => y.slot != slot) }) s
  else s

/-- SLOT_FRAME_RECEIVED (R370, R371, R374): the safe frame goes to Hedge whatever the source and the MAC, the messages only
from the member of the slot and with a good MAC. -/
def execSlotFrameReceived (slot : Slot) (bytes : List Byte) (s : State) : Host.Outcome State Fault Refusal :=
  .next (
    if !trellisRuns s || slot.val == ownSlot s then s
    else if !(bytes.length == 144 && checkIsGood bytes) then
      setTrellis (fun x => { x with errorsA := x.errorsA + 1, errorsB := x.errorsB + 1 }) s
    else
      let safe := slice bytes 8 32
      let t := if leNat safe = 0 then s else receiveSafe .trellis safe s
      if fieldN bytes 0 2 ≠ sourceId s slot.val ∨ fieldN bytes 2 1 ≠ 1 then t
      else if !macIsGood s (bytes.take 8 ++ slice bytes 40 84) (slice bytes 124 16) then
        setTrellis (fun x => { x with macFails := x.macFails + 1 }) t
      else
        let was := s.trellis.present.getLsbD slot.val
        let t := setTrellis (fun x => { x with
          present := withBit x.present slot.val, absentRun := modifyAt x.absentRun slot.val (fun _ => 0) }) t
        let t := if s.trellis.role = 3 && !was then logMember slot.val 0 t else t
        (messagesOf 42 (slice bytes 40 84)).foldl (fun t m => takeMessage slot.val m t) t)

/-- SLOT_ABSENT (R374): the master drops the slot; a spare's shadow forms its demands without it too. -/
def execSlotAbsent (slot : Slot) (s : State) : Host.Outcome State Fault Refusal :=
  .next (
    if trellisRuns s && (s.trellis.role == 3 || s.trellis.role == 2) && s.trellis.present.getLsbD slot.val &&
        slot.val ≠ ownSlot s then
      let t := setTrellis (fun x => { x with
        present := withoutBit x.present slot.val, demands := x.demands.filter (fun d => d.slot != slot.val)
        allocs := x.allocs.filter (fun a => a.slot != slot.val)
        rotation := 0 }) s
      if s.trellis.role = 3 then logMember slot.val 1 (nameSpare t) else t
    else s)

/-- SPARE_TAKEOVER (R376): the spare sends sync with the next term, itself as master and the next candidate as spare. -/
def execSpareTakeover (s : State) : Host.Outcome State Fault Refusal :=
  .next (if trellisRuns s ∧ s.trellis.role = 2 then becomeMaster 1 (setTrellis (fun x => { x with spareSlot := 255 }) s)
    else s)

/-- MEMBER_SILENCE (R368). -/
def execMemberSilence (s : State) : Host.Outcome State Fault Refusal :=
  .next (if trellisRuns s ∧ (s.trellis.role = 1 ∨ s.trellis.role = 2) then
      setTrellis (fun x => { x with silent := true }) s
    else s)

/-- LISTEN_TIME_EXPIRY (R375): slot 0 and a spare candidate become master; any other module goes on waiting. -/
def execListenTimeExpiry (s : State) : Host.Outcome State Fault Refusal :=
  .next (if trellisRuns s && s.trellis.listening && (ownSlot s == 0 || (candidateMask s).testBit (ownSlot s)) then
      becomeMaster 2 (setTrellis (fun x => { x with spareSlot := 255, backoff := 0 }) s)
    else s)

/-- SYNC_READBACK_MISMATCH (R377): the master stops its sync, waits, and listens before it sends again. -/
def execSyncReadbackMismatch (s : State) : Host.Outcome State Fault Refusal :=
  .next (if trellisRuns s ∧ s.trellis.role = 3 then
      setTrellis (fun x => { x with
        role := 1, listening := false, backoff := if laterTerm x.highTerm x.term then 4 else 1 }) s
    else s)

/-- TRELLIS_PAIR_FAILED (R367): a pair is reported failed, or restored. -/
def execTrellisPairFailed (pairB failed : Bool) (errors : Nat) (s : State) : Host.Outcome State Fault Refusal :=
  let was := if pairB then s.trellis.failedB else s.trellis.failedA
  .next (
    if !trellisRuns s || was == failed then s
    else
      let n : U32 := BitVec.ofNat 32 errors
      let t := setTrellis (fun x => if pairB then { x with failedB := failed, errorsB := x.errorsB + n }
        else { x with failedA := failed, errorsA := x.errorsA + n }) s
      log 0 0x0C 0x0C07 ([byte (flag pairB), byte (flag failed), 0, 0] ++ leBytes 4 errors ++ zeros 8) false t)

/-! ### Opcodes (R383) -/

/-- The payload of opcode 0x0C03. -/
def stackStatusBytes (s : State) : List Byte :=
  let t := s.trellis
  [byte (ownSlot s), byte t.role, byte t.masterSlot, byte t.spareSlot] ++ wordBytes 2 t.term ++ wordBytes 2 t.present ++
    [byte (flags [t.failedA, t.failedB, t.budgetDiffers]), 0, 0, 0] ++ wordBytes 4 t.frame ++ wordBytes 4 t.errorsA ++
    wordBytes 4 t.errorsB ++ wordBytes 4 t.macFails ++ wordBytes 4 t.shadowDiffs

/-- STACK_STATUS (R383). -/
def execStackStatus (r : Request) (s : State) : Host.Outcome State Fault Refusal :=
  .next (hostRequest (opNone 0x0C03 [clsN, clsH, clsB]) r (fun s => reply (stackStatusBytes s) s) s)

/-- MASTERSHIP_TRANSFER (R378, R383): the target is named spare and transfer pending is set for two frames. -/
def execMastershipTransfer (r : Request) (s : State) : Host.Outcome State Fault Refusal :=
  let target := fieldN r.payload 0 1
  .next (hostRequest (opLen 0x0C04 [clsN] 4) r
    (fun s => guarded [ reservedOk r.payload 1 3, need (s.trellis.role = 3) St.refusedState
                      , need (target ∈ spareCandidates s) St.range ]
      (fun s => done (setTrellis (fun t => { t with spareSlot := target, transfer := some (target, 2) }) s)) s) s)

end Sys2Proof.Machine
end

