-- ==== Sys2Proof/Machine/WadiPhy.lean ====
section
/-! DEFINITION. The physical layer of the Wadi (R385 to R389, R393): scrambler, convolutional code, repetition, interleaver, the
carriers' phases, the symbols' samples, and impulse blanking. A phase is counted in 72nds of a turn. -/

namespace Sys2Proof.Machine

/-! ### Modes (R386) -/

/-- Payload bits per symbol. -/
def bitsPerSymbol : Nat → Nat
  | 0 => 4
  | 1 => 12
  | 2 => 24
  | _ => 36

/-- Bits that a carrier holds in a symbol. -/
def carrierBits : Nat → Nat
  | 2 => 2
  | 3 => 3
  | _ => 1

/-- The number of payload symbols of a frame (R389). -/
def payloadSymbols (mode bytes : Nat) : Nat := ceilDiv (8 * bytes + 6) (bitsPerSymbol mode)

/-! ### Coding (R387) -/

/-- The bits of a number in the order in which they are sent, which the manual leaves open (log entry 65). -/
def sentBits (n v : Nat) : List Bool :=
  let l := (List.range n).map v.testBit
  if Config.lsbFirst then l else l.reverse

/-- The scrambler x^7 + x^4 + 1 with its register; the payload starts it from all ones. -/
def scramble : (reg : BitVec 7) → List Bool → List Bool
  | _, [] => []
  | reg, b :: rest =>
    let out := reg.getLsbD 6 ^^ reg.getLsbD 3
    (b ^^ out) :: scramble ((reg <<< 1) ||| BitVec.ofNat 7 (flag out)) rest

/-- The parity of the bits of a register that a generator takes. -/
def parity (v : BitVec 7) : Bool := (List.range 7).foldl (fun p i => p ^^ v.getLsbD i) false

/-- The convolutional code of constraint length 7 and rate 1/3: the newest bit stands highest (log entry 65). -/
def convolve : (reg : BitVec 7) → List Bool → List Bool
  | _, [] => []
  | reg, b :: rest =>
    let r := (reg >>> 1) ||| BitVec.ofNat 7 (64 * flag b)
    parity (r &&& 0o133#7) :: parity (r &&& 0o171#7) :: parity (r &&& 0o165#7) :: convolve r rest

/-- A list cut into pieces of a length; the first argument is the number of pieces. -/
def pieces {α : Type} : Nat → Nat → List α → List (List α)
  | 0, _, _ => []
  | k + 1, n, l => l.take n :: pieces k n (l.drop n)

/-- ROBO: every coded bit of a symbol's 12 on the carriers j, j + 12 and j + 24. -/
def repeatBits (mode symbols : Nat) (coded : List Bool) : List Bool :=
  if mode = 0 then (pieces symbols 12 coded).flatMap (fun p => p ++ p ++ p) else coded

/-- The block interleaver over the payload symbols: a block of a row per symbol, written by rows and read by columns or the
other way round, which the manual leaves open (log entry 65). -/
def interleave (symbols width : Nat) (bits : List Bool) : List Bool :=
  (List.range (symbols * width)).map (fun k => bits.getD
    (if Config.interleaveByRows then (k % symbols) * width + k / symbols else (k % width) * symbols + k / width) false)

/-- The bits of a payload as they are sent: zeros fill the last symbol (R394), and six end the code. -/
def payloadBits (mode : Nat) (bytes : List Byte) : List Bool :=
  let n := payloadSymbols mode bytes.length
  let data := bytes.flatMap (fun b => sentBits 8 b.toNat)
  let filled := data ++ List.replicate (n * bitsPerSymbol mode - 6 - data.length) false
  interleave n (36 * carrierBits mode)
    (repeatBits mode n (convolve 0 (scramble (BitVec.allOnes 7) filled ++ List.replicate 6 false)))

/-! ### Frame control (R389) -/

/-- CRC-8 with polynomial 0x07 over bits, most significant first. -/
def crc8Bits : (crc : Byte) → List Bool → Byte
  | c, [] => c
  | c, b :: rest => crc8Bits (if c.getLsbD 7 ^^ b then (c <<< 1) ^^^ 0x07 else c <<< 1) rest

/-- CRC-8 of the frame control's bits [15:0], their low byte first. -/
def controlCrc (low16 : Nat) : Byte :=
  crc8Bits 0 ((leBytes 2 low16).flatMap (fun b => ((List.range 8).map b.getLsbD).reverse))

/-- The frame control of a mode and a number of payload symbols. -/
def frameControl (mode symbols : Nat) : BitVec 24 :=
  let low := mode + 4 * symbols
  BitVec.ofNat 24 (low + 65536 * (controlCrc low).toNat)

/-- The frame control passes its CRC. -/
def controlOk (c : BitVec 24) : Bool := controlCrc (c.toNat % 65536) == byte (c.toNat / 65536)

/-- The mode in a frame control. -/
def controlMode (c : BitVec 24) : Nat := c.toNat % 4

/-- The bits of the frame control in its six ROBO symbols: 24 bits at rate 1/3, with no bits to end the code (log entry 65). -/
def controlBits (c : BitVec 24) : List Bool := repeatBits 0 6 (convolve 0 (sentBits 24 c.toNat))

/-! ### Carriers (R387, R389) -/

/-- The phases of the 36 carriers in SYNCP and SYNCM. -/
def syncP : List Nat := (List.range 36).map (fun j => j * j % 72)
def syncM : List Nat := syncP.map (fun p => (p + 36) % 72)

/-- A symbol follows the one before: each carrier turns by the step that its bits spell. Which step bits spell is open
(log entry 65). -/
def nextSymbol (width : Nat) (before : List Nat) (bits : List Bool) : List Nat :=
  (before.zip (pieces 36 width bits)).map (fun x => (x.1 + 72 / 2 ^ width * (Config.phaseStep x.2 % 2 ^ width)) % 72)

/-- The symbols that bits make after a symbol. -/
def symbolsAfter (width : Nat) : List Nat → List (List Bool) → List (List Nat)
  | _, [] => []
  | before, b :: rest =>
    let s := nextSymbol width before b
    s :: symbolsAfter width s rest

/-- The symbols of a frame (R389): three SYNCP, one SYNCM, six of frame control, and the payload's. -/
def frameSymbols (mode : Nat) (bytes : List Byte) : List (List Nat) :=
  let n := payloadSymbols mode bytes.length
  let control := symbolsAfter 1 syncM (pieces 6 36 (controlBits (frameControl mode n)))
  let w := carrierBits mode
  [syncP, syncP, syncP, syncM] ++ control ++
    symbolsAfter w (control.getLastD syncM) (pieces n (36 * w) (payloadBits mode bytes))

/-! ### Samples (R385, R388) -/

/-- √2. -/
def rootTwo : Rat := (isqrt (2 ^ 129) : Rat) / 2 ^ 64

/-- A carrier's amplitude in V at a transmit level in percent: 36 carriers make 2.0 V RMS at 100 %. -/
def carrierVolts (level : Nat) : Rat := rootTwo / 3 * level / 100

/-- A sample of a symbol: the inverse FFT's bins 23 to 58 at a place of the useful part, shifted down by 31.25 Hz, which is a
turn in 6,400 samples. The mixer's phase at the frame's start is open. -/
def symbolSample (level : Nat) (phases : List Nat) (place : Int) (index : Nat) : Rat :=
  carrierVolts level * sumRat ((List.range 36).map (fun j =>
    cosTurn (((23 + j : Nat) : Int) * place * 2 ^ 25 + ((phases.getD j 0 * 2 ^ 32 / 72 : Nat) : Int)
      - ((index * 2 ^ 32 / 6400 : Nat) : Int) + Config.mixerPhase)))

/-- The 160 samples of a symbol: a prefix of the last 32, and the useful 128. -/
def symbolSamples (level : Nat) (phases : List Nat) (first : Nat) : List Rat :=
  (List.range 160).map (fun k : Nat => symbolSample level phases (Int.ofNat k - 32) (first + k))

/-- The samples of a frame, in V at 200 kS/s. -/
def frameSamples (level : Nat) : List (List Nat) → (first : Nat) → List Rat
  | [], _ => []
  | p :: rest, first => symbolSamples level p first ++ frameSamples level rest (first + 160)

/-! ### Impulse blanking (R393) -/

/-- The samples that were not blanked, 2,048 at most, the newest last, and the sum of their squares. -/
structure BlankWindow where
  kept : List Int
  sum  : Int
  deriving DecidableEq, Repr

/-- A sample that is not blanked enters the window. -/
def BlankWindow.take (w : BlankWindow) (x : Int) : BlankWindow :=
  if w.kept.length < 2048 then ⟨w.kept ++ [x], w.sum + x * x⟩
  else ⟨w.kept.drop 1 ++ [x], w.sum + x * x - w.kept.headD 0 * w.kept.headD 0⟩

/-- A sample exceeds `k` times the RMS of the window. -/
def BlankWindow.exceeds (k : Nat) (w : BlankWindow) (x : Int) : Bool := decide ((k * k : Int) * w.sum < x * x * w.kept.length)

/-- How many of the samples after a window are blanked. -/
def countBlanked (k : Nat) : BlankWindow → List Int → Nat
  | _, [] => 0
  | w, x :: rest => if w.exceeds k x then 1 + countBlanked k w rest else countBlanked k (w.take x) rest

/-- The window that samples leave which are never blanked. -/
def blankWindow (l : List Int) : BlankWindow := l.foldl BlankWindow.take ⟨[], 0⟩

/-- The blank fraction of a frame exceeds a limit in percent: preamble samples are never blanked. -/
def frameBlanked (k limit : Nat) (preamble samples : List Int) : Bool :=
  decide (limit * samples.length < 100 * countBlanked k (blankWindow preamble) samples)

/-! ### Phase identification (R392) -/

/-- The start angle of a frame, from the dial angle at the end of SYNCM and the own dial frequency in mHz: 3.2 ms before. The
manual's example rounds to the nearest du. -/
def startAngle (angle : Nat) (freq : Rat) : Nat :=
  (((angle : Int) - (freq * 65536 * 32 / 10000000 + 1 / 2).floor) % 65536).toNat

end Sys2Proof.Machine
end

