-- ==== Sys2Proof/Machine/Wadi.lean ====
section
/-! DEFINITION. The Wadi site line (R385 to R415): modes, frames and their tag, phase identification, roles, indices,
the site power allocation and the chapter's opcodes. Frames are sent and handled in WadiFrames. -/

namespace Sys2Proof.Machine

/-- Change the Wadi. -/
def setWadi (f : Wadi → Wadi) (s : State) : State := { s with wadi := f s.wadi }

/-! ### Record 0x0D01 and 0x0D03 (R411, R413) -/

/-- The own node ID. -/
def wadiNode (s : State) : Nat := cfgN s 0x0D01 0 0 2 1
/-- The own site ID. -/
def wadiSite (s : State) : Nat := cfgN s 0x0D01 0 2 2 0
/-- The Wadi is not switched off. -/
def wadiOn (s : State) : Bool := cfgN s 0x0D01 0 4 1 1 ≠ 0
/-- The master priority; 0 never becomes site master. -/
def wadiPriority (s : State) : Nat := cfgN s 0x0D01 0 5 1 0
/-- The retry limit. -/
def retryLimit (s : State) : Nat := cfgN s 0x0D03 0 2 1 3

/-- The outputs that the coupling drives, and the inputs it receives on (R388). -/
def wadiPorts (s : State) : List Nat := if cfgN s 0x0D01 0 4 1 1 = 2 then [1, 2, 3] else [1]
/-- The transmit level, in percent. -/
def wadiLevel (s : State) : Nat := cfgN s 0x0D03 0 3 1 100

/-- The module is a stack of one or its stack's master, and so the stack's Wadi node; a new master sends from the next
superframe (R404). -/
def wadiSender (s : State) : Bool := (s.trellis.role = 0 || s.trellis.role = 3) && !s.wadi.heldBack

/-- The source slot of own frames (R394). -/
def wadiSlot (s : State) : Nat := if s.trellis.role = 0 then 0 else s.power.straps.val

/-- WAD runs, is on and outside HOLD. -/
def wadiRuns (s : State) : Bool := awake s && wadiOn s

/-! ### Modes (R386, R390) -/

/-- The SNR threshold of a mode, dB. -/
def modeThreshold : Nat → Int
  | 0 => -1
  | 1 => 4
  | 2 => 8
  | _ => 13

/-- The mode that a receiver recommends: the highest whose threshold the SNR less 3 dB meets, ROBO at least. -/
def bestMode (snr : Int) : Nat :=
  if 13 ≤ snr - 3 then 3 else if 8 ≤ snr - 3 then 2 else if 4 ≤ snr - 3 then 1 else 0

/-- The most payload bytes of a frame (R390). -/
def payloadLimit (s : State) (mode : Nat) : Nat :=
  if nominalFreq s = 50000 then
    (match mode with | 0 => 76 | 1 => 230 | 2 => 461 | _ => 692)
  else
    (match mode with | 0 => 62 | 1 => 188 | 2 => 377 | _ => 566)

/-! ### Frames (R394, R395) -/

/-- The header of a frame. -/
def wadiHeader (site source dest slot type epoch len : Nat) (counter : U32) (flagBits : Nat) : List Byte :=
  leBytes 2 site ++ leBytes 2 source ++ leBytes 2 dest ++ [byte slot, byte type] ++ leBytes 2 epoch ++ leBytes 2 len ++
    wordBytes 4 counter ++ [byte flagBits, 0, 0, 0]

/-- The nonce of a frame (R395). -/
def wadiNonce (source slot epoch : Nat) (counter : U32) : List Byte :=
  leBytes 2 source ++ [byte slot, 0] ++ leBytes 2 epoch ++ wordBytes 4 counter ++ [0, 0]

/-- The counter that the next own frame carries: it starts at 0 in a new epoch (R394). -/
def nextCounter (s : State) : U32 := if s.wadi.txEpoch.toNat = s.sun.epoch % 65536 then s.wadi.txCounter else 0

/-- A frame as it goes on the medium (R385 to R389). -/
def wadiAir (s : State) (mode : Nat) (bytes : List Byte) : WadiAir :=
  let l := frameSymbols mode bytes
  { outputs := wadiPorts s, level := wadiLevel s, symbols := l, samples := frameSamples (wadiLevel s) l 0 }

/-- Send a frame: nothing without the network key (R395), after a duplicate was heard (R415), or longer than its mode
carries (R390). The frame is kept for resends (R401). -/
def sendWadi (type dest mode resends : Nat) (body : List Byte) (s : State) : State :=
  match s.cis.wadi with
  | none => s
  | some key =>
    if s.wadi.duplicate ∨ payloadLimit s mode < body.length + 28 then s
    else
      let c := nextCounter s
      let epoch := s.sun.epoch % 65536
      let msg := wadiHeader (wadiSite s) (wadiNode s) dest (wadiSlot s) type epoch body.length c
        (if resends = 0 then 0 else 1) ++ body
      let tag := Config.gcmTag key (wadiNonce (wadiNode s) (wadiSlot s) epoch c) msg
      let frame := msg ++ wordBytes 8 tag
      emit (.wadi type mode frame (wadiAir s mode frame)) (setWadi (fun w => { w with
        txEpoch := BitVec.ofNat 16 epoch, txCounter := c + 1, sent := w.sent + 1
        resends := if resends = 0 then w.resends else w.resends + 1
        history := (⟨c, dest, type, mode, body, resends⟩ :: w.history).take 8 }) s)

/-! ### Phase identification (R392) -/

/-- The class of an offset θ. -/
def phaseClass (theta : Nat) : Nat :=
  if theta ≤ 1820 ∨ 65536 - 1820 ≤ theta then 0
  else if 21845 - 1820 ≤ theta ∧ theta ≤ 21845 + 1820 then 1
  else if 43691 - 1820 ≤ theta ∧ theta ≤ 43691 + 1820 then 2
  else 255

/-- The offset of a start angle. -/
def phaseOffset (start : Nat) : Nat := (start + 65536 - 4096) % 65536

/-- The site phase (0 to 2) of a node's own phase. -/
def sitePhase (q own : Nat) : Nat := (own + (if q = 255 then 0 else q)) % 3

/-! ### Neighbours -/

/-- The neighbour with a node ID. -/
def neighbourOf (s : State) (node : Nat) : Option Neighbour := s.wadi.neighbours.find? (fun n => n.node == node)

/-- A neighbour not heard before. -/
def newNeighbour (node : Nat) : Neighbour :=
  { node, index := 0, q := 255, runQ := 255, runLen := 0, counter := 0, heard := 0, snr := 0, mode := 0,
    present := false, master := false, stack := false, slot := 0, weight := 0, beaconSnr := 0, demand := 0,
    dcDemand := 0, acDemand := [0, 0, 0], priority := 0, budget := 0, caps := [0, 0, 0], renewed := 0 }

/-- Put a neighbour into the table of 256. -/
def putNeighbour (n : Neighbour) (s : State) : State :=
  let l := s.wadi.neighbours
  let known := l.any (fun x => x.node == n.node)
  let put := l.map (fun x => if x.node = n.node then n else x)
  setWadi (fun w => { w with neighbours := if known then put else (l ++ [n]).take 256 }) s

/-- The superframe number as an entry's field. -/
def superframeBytes (s : State) : List Byte := wordBytes 4 s.wadi.superframe

/-- Entry 0x0D02 (R415). -/
def logNodePresence (node absent index : Nat) (s : State) : State :=
  log 5 0x0D 0x0D02 (leBytes 2 node ++ [byte absent, byte index] ++ superframeBytes s) false s

/-- A node has become absent (R402): its demand, entry and replay state are dropped. -/
def dropNode (node : Nat) (s : State) : State :=
  match neighbourOf s node with
  | none => s
  | some n =>
    if !n.present then s
    else logNodePresence node 1 n.index (setWadi (fun w => { w with replays := w.replays.filter (fun r => r.node != node) })
      (putNeighbour { n with present := false, demand := 0, dcDemand := 0, acDemand := [0, 0, 0], budget := 0 } s))

/-- NODE_ABSENT (R402). -/
def execNodeAbsent (node : Nat) (s : State) : Host.Outcome State Fault Refusal :=
  .next (if wadiRuns s then dropNode node s else s)

/-! ### Roles (R399, R403) -/

/-- A change of role with its entry 0x0D01. -/
def setRole (role : Nat) (s : State) : State :=
  if role = s.wadi.role then s
  else
    let t := setWadi (fun w => { w with role := role }) s
    log 5 0x0D 0x0D01 ([byte s.wadi.role, byte role] ++ leBytes 2 t.wadi.masterNode ++ superframeBytes t) false t

/-- WAD starts to listen for the next beacon (R410); a node keeps its index while its IDs stay. -/
def wadiListen (keepIndex : Bool) (s : State) : State :=
  setWadi (fun w => { w with
    role := if wadiOn s then 1 else 0, index := if keepIndex then w.index else none, position := none, silent := 0
    joinWait := 0, joinAt := none, owner := none, windows := 0, test := none, duplicate := false, heldBack := false }) s

/-- The lowest index that no node has (R399). -/
def freeIndex (s : State) : Nat :=
  ((List.range 256).find? (fun i => !s.wadi.indices.any (fun x => x.2 == i))).getD 255

/-- The index of a node, assigned if it has none. -/
def assignIndex (node : Nat) (s : State) : State :=
  if s.wadi.indices.any (fun x => x.1 == node) then s
  else setWadi (fun w => { w with indices := w.indices ++ [(node, freeIndex s)] }) s

/-- The index count N (R397). -/
def indexCount (s : State) : Nat := s.wadi.indices.foldl (fun n x => max n (x.2 + 1)) 1

/-- MASTER_LOST (R403): the node waits for a beacon again. -/
def execMasterLost (s : State) : Host.Outcome State Fault Refusal :=
  .next (if wadiRuns s ∧ s.wadi.role ≠ 4 then setRole 1 (setWadi (fun w => { w with silent := 3 }) s) else s)

/-- The silent superframes that a candidate waits (R403). -/
def candidateWait (s : State) : Nat := 3 + wadiPriority s + wadiNode s % 8

/-- MASTER_CANDIDATE_START (R403): the candidate becomes site master and keeps counting superframes (log entry 12). -/
def execMasterCandidateStart (s : State) : Host.Outcome State Fault Refusal :=
  .next (
    if wadiRuns s && wadiSender s && wadiPriority s ≠ 0 && s.wadi.role ≠ 4 then
      let known := s.wadi.neighbours.filter (fun n => n.present)
      let t := setWadi (fun w => { w with
        masterNode := wadiNode s, masterSlot := wadiSlot s, masterPriority := wadiPriority s
        superframe := w.superframe + BitVec.ofNat 32 (candidateWait s)
        indices := (w.index.elim [] (fun i => [(wadiNode s, i)])) ++ known.map (fun n => (n.node, n.index))
        rotation := 0, windows := 0, owner := none, silent := 0, joinWait := 0, joinAt := none }) s
      let t := assignIndex (wadiNode s) t
      setRole 4 (setWadi (fun w => { w with
        index := (w.indices.find? (fun x => x.1 == wadiNode s)).map (fun x => x.2) }) t)
    else s)

/-- A joining node chooses its superframe and window at random (R399). -/
def chooseJoin (s : State) : State :=
  let send := Config.freeBool s.freeCount
  let second := Config.freeBool (s.freeCount + 1)
  draw (draw (setWadi (fun w => { w with joinAt := if send then some (if second then 248 else 240) else none }) s))

/-- JOIN_TIMEOUT (R399). -/
def execJoinTimeout (s : State) : Host.Outcome State Fault Refusal :=
  .next (if wadiRuns s ∧ s.wadi.role = 2 then chooseJoin (setWadi (fun w => { w with joinWait := 0 }) s) else s)

/-- INDEX_FREE (R399): the master frees an index. -/
def execIndexFree (index : Fin 256) (s : State) : Host.Outcome State Fault Refusal :=
  .next (if wadiRuns s ∧ s.wadi.role = 4 then
      setWadi (fun w => { w with indices := w.indices.filter (fun x => x.2 != index.val) }) s
    else s)

/-! ### Site power allocation (R406) -/

/-- A node as the site master allocates to it. -/
structure SiteNode where
  node   : Nat
  weight : Nat
  demand : Int
  dc     : Int
  ac     : List Nat
  q      : Nat
  deriving DecidableEq, Repr

/-- The demands of the own stack on the own node's phases, A (R400): the AC demand of an outlet over its n phases. -/
def ownAcDemand (s : State) : List Nat :=
  (List.range 3).map (fun x => sumNat ((stackDemands s).map (fun d =>
    if (d.type = 3 ∨ d.type = 4) ∧ (List.range d.phases).any (fun own => gridPhase d.rotation own == x) then
      (openRound ((d.demand : Rat) * 100 / ((d.phases : Rat) * nominalVolts s))).toNat
    else 0)))

/-- The weights of the stack's outlets in S3 to S6 (R400). -/
def nodeWeight (s : State) : Nat :=
  sumNat (((stackDemands s).filter (fun d => 3 ≤ d.state && d.state ≤ 6)).map (fun d => d.weight))

/-- What the own node demands (R400): weight, demand, DC part, AC part. -/
def ownNode (s : State) : SiteNode :=
  let ds := stackDemands s
  { node := wadiNode s, weight := nodeWeight s, demand := sumInt (ds.map (fun d => d.demand))
    dc := sumInt (ds.map (fun d => if d.type = 1 ∨ d.type = 2 then d.demand else 0)), ac := ownAcDemand s, q := 0 }

/-- The nodes that demand power (P of R406); the master counts its own stack. -/
def siteNodes (s : State) : List SiteNode :=
  (ownNode s :: (s.wadi.neighbours.filter (fun n => n.present)).map (fun n =>
    { node := n.node, weight := n.weight, demand := n.demand, dc := n.dcDemand, ac := n.acDemand, q := n.q })).filter
      (fun n => 0 < n.demand)

/-- A node's share: its DC allocation in W and its AC currents on its own phases in mA. -/
structure SiteShare where
  site : SiteNode
  dc   : Rat
  ac   : List Rat
  deriving DecidableEq, Repr

/-- The split of a node's fill into DC power and AC currents (R406). -/
def siteShare (vn : Nat) (n : SiteNode) (a : Int) : SiteShare :=
  let acw : Rat := ((sumNat n.ac * vn : Nat) : Rat) / 100
  let aac : Rat := min (a : Rat) acw
  { site := n, dc := (a : Rat) - aac
    ac := n.ac.map (fun x => if acw = 0 then 0 else ((1000 * x : Nat) : Rat) * aac / acw) }

/-- The AC current on a site phase. -/
def siteAc (l : List SiteShare) (phase : Nat) : Rat :=
  sumRat (l.map (fun x => sumRat ((List.range 3).map (fun own =>
    if sitePhase x.site.q own = phase then x.ac.getD own 0 else 0))))

/-- The phase check on one site phase: the AC currents on it are scaled and rounded down (R194). -/
def sitePhaseCheck (limit dc : Rat) (phase : Nat) (l : List SiteShare) : List SiteShare :=
  let f := acFactor limit dc (siteAc l phase)
  if f = 1 then l
  else l.map (fun x => { x with ac := (List.range 3).map (fun own =>
    let c := x.ac.getD own 0
    if sitePhase x.site.q own = phase then ((c * f).floor : Rat) else c) })

/-- The site phase limits, mA (R412). -/
def siteLimits (s : State) : List Rat := (List.range 3).map (fun x => (cfgN s 0x0D02 0 (4 + 4 * x) 4 630000 : Rat))

/-- The shares of the site's nodes after the phase check. -/
def siteShares (s : State) : List SiteShare :=
  let vn := nominalVolts s
  let ns := siteNodes s
  let a := waterFill (ns.map (fun n => (n.demand, max 1 n.weight))) (cfgN s 0x0D02 0 0 4 400000)
  let l := (ns.zip a).map (fun x => siteShare vn x.1 x.2)
  let dc := dcPhaseCurrent vn (sumRat (l.map (fun x => x.dc)))
  let limits := siteLimits s
  let g := dcFactor limits dc
  let l := (List.range 3).foldl (fun l x => sitePhaseCheck (limits.getD x 0) dc x l) l
  if g = 1 then l else l.map (fun x => { x with dc := ((x.dc * g).floor : Rat) })

/-- A node's budget, W; no rounding is stated (log entry 6). -/
def shareBudget (vn : Nat) (x : SiteShare) : Int := openRound (x.dc + sumRat x.ac * vn / 100000)

/-- A node's phase caps, A. -/
def shareCaps (vn : Nat) (x : SiteShare) : List Nat :=
  x.ac.map (fun c => ((dcPhaseCurrent vn x.dc + c) / 1000).floor.toNat)

/-- A stack master takes an entry as its site budget and phase caps (R409). -/
def takeSiteEntry (budget : Int) (caps : List Nat) (s : State) : State :=
  setWadi (fun w => { w with siteBudget := some budget, caps := caps })
    { s with
      sess := { s.sess with siteBudget := some budget, siteAt := s.clockMs, siteStale := false }
      trellis := { s.trellis with adopted := none } }

/-- WADI_ALLOCATION (R406): budgets and caps of every node. A node without a demand gets no power. -/
def execWadiAllocation (s : State) : Host.Outcome State Fault Refusal :=
  .next (
    if wadiRuns s ∧ s.wadi.role = 4 then
      let vn := nominalVolts s
      let l := siteShares s
      let find (node : Nat) : Int × List Nat :=
        match l.find? (fun x => x.site.node == node) with
        | some x => (shareBudget vn x, shareCaps vn x)
        | none => (0, [0, 0, 0])
      let t := setWadi (fun w => { w with neighbours := w.neighbours.map (fun n =>
        { n with budget := (find n.node).1, caps := (find n.node).2 }) }) s
      takeSiteEntry (find (wadiNode s)).1 (find (wadiNode s)).2 t
    else s)

/-! ### Opcodes (R414) -/

/-- A site budget's age in s, and its field. -/
def siteAge (s : State) : Nat := min 65535 ((s.clockMs - s.sess.siteAt) / 1000)

/-- The payload of opcode 0x0D01; what has no value yet is open. -/
def wadiStatusBytes (s : State) : List Byte :=
  let w := s.wadi
  [byte w.role] ++ w.index.elim (openField 1 s) (fun i => [byte i]) ++ leBytes 2 w.masterNode ++ wordBytes 4 w.superframe ++
    [byte w.ownQ, byte w.ownMode] ++ leInt 1 w.beaconSnr ++ [0] ++
    w.siteBudget.elim (openField 4 s) (fun b => leInt 4 b) ++ w.siteBudget.elim (openField 2 s) (fun _ => leBytes 2 (siteAge s)) ++
    leBytes 2 (w.neighbours.filter (fun n => n.present)).length ++ wordBytes 4 w.sent ++ wordBytes 4 w.received ++
    wordBytes 4 w.checkFails ++ wordBytes 4 w.blanked ++ wordBytes 4 w.resends

/-- WADI_STATUS (R414). -/
def execWadiStatus (r : Request) (s : State) : Host.Outcome State Fault Refusal :=
  .next (hostRequest (opNone 0x0D01 [clsN, clsH]) r (fun s => reply (wadiStatusBytes s) (draw s)) s)

/-- An entry of the neighbour table. -/
def neighbourBytes (n : Neighbour) : List Byte :=
  leBytes 2 n.node ++ [byte n.index, byte n.q] ++ wordBytes 4 n.counter ++ leBytes 4 n.heard ++ leInt 1 n.snr ++
    [byte n.mode, byte (flags [n.present, n.master, n.stack]), byte n.slot] ++ leInt 4 n.demand ++ leInt 4 n.budget

/-- The neighbour table: 256 entries of 24 bytes. -/
def neighbourTable (s : State) : List Byte :=
  let used := s.wadi.neighbours.flatMap neighbourBytes
  used ++ (List.replicate (256 - s.wadi.neighbours.length) ([0, 0, 0, 0xFF] ++ zeros 20)).flatten

/-- NEIGHBOUR_TABLE (R414). -/
def execNeighbourTable (r : Request) (s : State) : Host.Outcome State Fault Refusal :=
  .next (hostRequest (opRead 0x0D02 [clsN, clsB]) r (fun s => bulkRead (neighbourTable s) r s) s)

/-- TRANSMIT_TEST (R414). -/
def execTransmitTest (r : Request) (s : State) : Host.Outcome State Fault Refusal :=
  let mode := fieldN r.payload 0 1
  let time := fieldN r.payload 2 2
  .next (hostRequest (opLen 0x0D03 [clsN] 4) r
    (fun s => guarded [ need (mode ≤ 3) St.range, reservedOk r.payload 1 1, need (time ≠ 0) St.lenZero
                      , need (time ≤ 60) St.range, need (inService s && allIdle s) St.refusedState ]
      (fun s => done (emit (.wadiTest mode (wadiPorts s) (wadiLevel s)) (setWadi (fun w => { w with test := some mode }) s))) s) s)

/-- TRANSMIT_TEST_END (R414). -/
def execTransmitTestEnd (s : State) : Host.Outcome State Fault Refusal :=
  .next (setWadi (fun w => { w with test := none }) s)

end Sys2Proof.Machine
end

