-- ==== Sys2Proof/Machine/Start.lean ====
section
/-! DEFINITION. Starting (R475): what ROM decides (R418, R434), the start after a power loss, the warm reset (R476, R477) and
the engine reset (R476). -/

namespace Sys2Proof.Machine

/-! ### Shared steps -/

/-- A button that is already pressed when the module starts counts as stuck (R484). How long it was held is open. -/
def buttonAtStart (s : State) : State :=
  if s.power.pressed && !s.power.stuck then
    draw (log 0 0x11 0x1103 (openField 4 s ++ byte 2 :: zeros 11) false (setPower (fun p => { p with stuck := true }) s))
  else s

/-- Entry 0x1101 and the start's time (R487, R488); `valid` tells whether retention SRAM was valid. -/
def startEntry (cause : Nat) (valid : Bool) (s : State) : State :=
  let p := s.power
  let lost := if valid then s.logs.lost else 0
  let t := log 0 0x11 0x1101 ([byte cause, byte (flag valid), byte p.before, 0] ++ leBytes 4 p.lowest24 ++
    leBytes 2 p.vbat ++ leBytes 2 lost ++ zeros 4) false s
  buttonAtStart (setPower (fun x => { x with
    cause := cause, retentionAtStart := valid, startMs := s.clockMs, startUtc := utcNow s, lowest24 := x.v24 })
    { t with logs := { t.logs with lost := 0 } })

/-- The tamper store takes the enable mask of record 0x0907 (R288). -/
def enableTamper (s : State) : State :=
  setBill (fun b => { b with tamper := { b.tamper with enabled := BitVec.ofNat 4 (cfgN s 0x0907 0 0 1 15) } }) s

/-- The tariff records of an image with a serial other than the last start's are logged. -/
def imageTariffs (last : Option Digest) (s : State) : State :=
  if s.cfg.slot = 2 ∨ last.any (fun d => d.serial == s.cfg.serial) = true then s
  else logTariffs 0 0 s.cfg.serial (s.cfg.recs.filter (fun r => 0x0902 ≤ r.type && r.type ≤ 0x0906)) s

/-- The configuration is read (R42). A table of the image whose serial is new is logged as applied (R297). -/
def readImage (s : State) : State :=
  imageTariffs (digestInUse s) (enableTamper (readConfiguration s))

/-- The new image's path and energy records come into force at their own points (R84, R129). -/
def reloadMetrology (s : State) : State :=
  { s with acq := { s.acq with reload := true }, energy := { s.energy with reload := true } }

/-- The domain that is active after a start (R365, R475): A unless a failure stands against it. -/
def chooseDomain (s : State) : State :=
  setDom (fun d => { d with active := if d.healthA &&& 0x1FC#32 = 0 then 0 else 1 }) s

/-! ### ROM recovery (R434) -/

/-- In recovery ROM takes its addresses from the confirmed CONFIG image, where that passes R45 (R434). -/
def recoveryNetwork (s : State) : State :=
  let data := (slotOf s 4 (confirmedB s 4)).data
  if configImageStatus data s = St.ok then
    { s with cfg := { s.cfg with recs := (imageResult data s).1.filter (fun r => r.type == 0x0102) } }
  else s

/-- ROM enters recovery mode: as after a power-on, with Sundial started (once: `fresh` tells that this start has done so), and
entries 0x1101 and 0x0E08. Of CIS, the identity key is at hand; no image is measured, so no wrapped key is. -/
def enterRecovery (fresh : Bool) (why nominal : Nat) (s : State) : State :=
  let t := powerDown .recovery s
  let t := if fresh then { t with sun := s.sun } else sundialStart nominal t
  let t := setPower (fun p => { p with charged := s.power.charged, state := .run }) (recoveryNetwork (buildStore t))
  updateLog 0 0x0E08 0 (byte why :: zeros 15) (startEntry 8 s.power.retention t)

/-! ### The start after a power loss (R475, steps 4 and 5) -/

/-- The engines that a warm reset keeps running start with the image just read. -/
def startEngines (i : StartInput) (s : State) : State :=
  let t := startMclk { s with
    acq := { s.acq with recs := metRecords s, mclkCode := mclkCodeOf (metRecords s), legalB := runningB s 1 }
    energy := { s.energy with reload := true } }
  let held := ((blockContent t 1).map (fun b => fieldN b 0 4)).or (t.hedge.stored.map (fun v => v.toNat))
  let t := takeBlock (safetyBlock t) i.blockOk (tagConfirmed t) held t
  let t := if i.hedgeOk then t else tripModule .fault t
  let t := startChannels t
  let t := forOutlets (fun o u => commandGen o .static12 u) t
  let t := [0, 1].foldl (fun (u : State) (p : Fin 2) =>
    if portEnabled u p then setReader p (fun r => { r with state := 1 }) u else u) t
  wiredWrite 1 (statusBlock t) (wiredWrite 0 (identityBlock t) t)

/-- Energy, billing, accounts, pulses and display counters are restored (R116, R267, R284, R312). -/
def restoreAll (i : StartInput) (s : State) : State :=
  let fromSlot := s.power.retention && (newestCommit s).isSome
  let cut := s.power.retention && s.energy.markState == 1
  let t := restoreAccounts (restoreBilling fromSlot i.badTariffs (reloadEnergy (restoreEnergy i.badRegs s)))
  let t := if cut then draw (log 0 0x11 0x1104 (byte 2 :: zeros 3 ++ openField 4 t ++ zeros 8) false t) else t
  writeLane (displayStart (loadStress t))

/-- The images that ROM boots run from here on; the ENGINE slot is the one in force for every engine (R425). -/
def bootSlots (s : State) : State :=
  setUpdate (fun u => { u with engineB := runningB s 3, inForce := List.replicate 10 (runningB s 3), completed := false }) s

/-- The start goes on until the first seed completes it. -/
def coldBoot (i : StartInput) (s : State) : State :=
  if !i.imagesOk then setPower (fun p => { p with phase := .bootFailed }) s
  else
    let valid := s.power.retention
    let t := startCistern i (bootSlots s)
    let t := chooseDomain (readImage t)
    let t := restoreAll i (startEngines i t)
    let t := wadiListen false { t with trellis := { t.trellis with listening := memberMask t != 0 } }
    let t := startEntry s.power.cause valid (setPower (fun p => { p with phase := .booting }) t)
    settle (setPower (fun p => { p with retention := true }) t)

/-! ### What ROM decides (R418) -/

/-- ROM programs the ledger, falls back after a failed trial boot, and enters recovery after two failed boots; otherwise the
boot goes on. -/
def romBoot (fresh : Bool) (nominal : Nat) (boot : State → State) (s : State) : State :=
  let t := ledgerStart s
  if 1 ≤ failedBoots t ∧ t.update.trial ≠ 0 then boot (fallBackTrial 0 1 t)
  else if 2 ≤ failedBoots t then enterRecovery fresh 3 nominal t
  else boot t

/-! ### The start test (R466, R467) -/

/-- Entries of earlier runs, written at this start (R472): duration and peak are open where no step gave them. -/
def logEarlierRun (s : State) : State :=
  if s.rake.unlogged then
    let m := s.rake.measured
    setRake (fun k => { k with unlogged := false, measured := none })
      (draw (logRake (m.elim (openField 2 s) (fun x => leBytes 2 x.1)) (m.elim (openField 2 s) (fun x => leBytes 2 x.2)) s))
  else s

/-- A start test's mark on a domain. -/
def failDomain (d : Nat) (failed : Bool) (s : State) : State :=
  if failed then setHealth d (withBit 0 Health.rakeFail) s else s

/-- The start after step 2: the start test, short with a usable signature and long without one, and ROM's boot. With both
domains, or in the short form the ROM, failed, the module stays in reset. -/
def startTested (i : StartInput) (s : State) : State :=
  let short := signatureUsable s
  let six := i.groups ++ List.replicate (6 - i.groups.length) 3
  let failA := if short then !i.coreA else six.getD 0 3 != 0
  let failB := if short then !i.coreB else six.getD 1 3 != 0
  let nominal := nominalFreq (readConfiguration s)
  let t := logEarlierRun (sundialStart nominal s)
  let t := if short then t
    else
      let u := noteResults 3 (six.take 6) t
      logRake (leBytes 2 i.duration) (leBytes 2 i.peak)
        (setRake (fun k => { k with permitOk := ((six.take 6).drop 2).all (fun x => x == 0) }) u)
  if (failA && failB) || (short && !i.romOk) then setPower (fun p => { p with phase := .heldReset }) t
  else
    let t := failDomain 1 failB (failDomain 0 failA t)
    if t.power.recover || t.power.cause == 8 then
      enterRecovery true (if t.power.recover then 1 else if t.power.byButton then 2 else Config.freeNat t.freeCount) nominal
        (draw (ledgerStart t))
    else romBoot true nominal (coldBoot i) t

/-! ### The warm reset (R476, R477) -/

/-- Open transfers are closed (R476, R519), and with them the updates they carried. -/
def closeTransfers (s : State) : State :=
  let t := { s with host := { s.host with
    absent := false
    transfers := s.host.transfers.map (fun x =>
      if x.state = .receiving then { x with state := .byReset, status := St.refusedState, blocks := [] } else x) } }
  (List.range 5).foldl (fun u r => setRegion r (fun g => if g.path = 1 then g else endTransfer g) u) t

/-- Every TLS session ends with the key store (R327). -/
def endTls (s : State) : State := forOutlets (fun o t => if (t.link.get o).tls ≠ 0 then closeTcp o t else t) s

/-- The records of engines that keep running, held for an outlet until it enters S0 (R476). -/
def heldFor (s : State) (o : Outlet) : List Rec :=
  if (sessOf s o).state = .s0 then []
  else [0x0501, 0x0703].map (fun type => (inForce s type o.val).getD
    { type := type, key := o.val, flags := 0, level := 0, status := 0xFF, defined := true, padOk := true, body := [] })

/-- What returns to its default at any reset that reads the configuration (R481). -/
def dropTests (s : State) : State :=
  let t := forOutlets (fun o u => endPilotTest o (setSess o (fun x => { x with preAuth := none }) u)) (dropTrials s)
  { t with
    sess := { t.sess with heldCard := none }
    disp := { t.disp with test := none }
    hedge := { t.hedge with wrongTimes := [] } }

/-- Hedge takes the new block, or waits with it while drive is on (R232). -/
def newBlock (agrees : Bool) (s : State) : State :=
  let b := safetyBlock s
  if anyDrive s then setHedgeM (fun h => { h with nextBlock := if h.block = some b then none else some b }) s
  else takeBlock b agrees (tagConfirmed s) (if s.hedge.block.isSome then some (checkValue s) else none) s

/-- Health words after a warm reset: failures stand, and no sweep has been made. -/
def freshHealth (s : State) : State :=
  let t := setHealth 0 (s.dom.healthA &&& 0x1FC#32) s
  setDom (fun d => { d with switchTo := false }) (setHealth 1 (t.dom.healthB &&& 0x1FC#32) t)

/-- The new active domain restores: from the newest valid seed of the image and configuration just booted, else by the
path without a seed; then S2 to S7 take cause 15 (R477). -/
def warmRestore (s : State) : State :=
  let seed := (chooseSeed s).filter (fun n =>
    (seedOf s n).version == runningVersion s 2 && (seedOf s n).serial == s.cfg.serial)
  cutSessions (restoreDomain seed { s with fabric := { s.fabric with domainException := false } })

/-- Unconfigured, every outlet is held in S0 (R42). -/
def holdIdle (s : State) : State :=
  if s.cfg.slot = 2 then
    forOutlets (fun o t => if (sessOf t o).state = .s0 then t
      else enterS0 o (closeSession o 15 (putSetpoint o setpointOff (setDrive o false t)))) s
  else s

/-- Steps 4 to 6 of R475 after a warm reset. -/
def warmBoot (cause : Nat) (i : StartInput) (s : State) : State :=
  if !i.imagesOk then setPower (fun p => { p with phase := .bootFailed }) s
  else
    let ids := (wadiNode s, wadiSite s)
    let held := [0, 1, 2, 3].flatMap (fun (o : Outlet) => heldFor s o)
    let t := endTls (buildStore (measureImages s))
    let t := readImage { t with cfg := { t.cfg with held := [] } }
    let t := { t with cfg := { t.cfg with held := held } }
    let t := setUpdate (fun u => { u with
      engineB := runningB s 3, completed := false
      inForce := modifyAt (modifyAt u.inForce 4 (fun _ => runningB s 3)) 8 (fun _ => runningB s 3) }) t
    let t := newBlock i.blockOk (reloadLegal (runningB t 1) (reloadMetrology (reloadChannels (dropTests t))))
    let t := chooseDomain (freshHealth (wadiListen ((wadiNode t, wadiSite t) == ids) t))
    let t := startEntry cause t.power.retention (setPower (fun p => { p with phase := .booting }) t)
    let t := wiredWrite 1 (statusBlock t) (wiredWrite 0 (identityBlock t) t)
    settle (holdIdle (warmRestore t))

/-- A warm reset. Where the engines have not been started yet, as after ROM recovery or a start that failed at an image,
the boot also does what a start does. -/
def warmRestart (cause : Nat) (i : StartInput) (s : State) : State :=
  let t := setPower (fun p => { p with
    cause := cause, before := p.state.code, warmResets := p.warmResets + 1, orderly := none, shutting := false, expired := false
    phase := if p.phase = .recovery ∨ p.phase = .bootFailed then .charging else p.phase })
    (setUpdate (fun u => { u with go := none }) (closeTransfers s))
  romBoot false (nominalFreq s) (if s.acq.mclkOn then warmBoot cause i else coldBoot i) t

/-! ### The engine reset (R476) -/

/-- An engine restarts from its slot in force, with the effect that its chapter gives: R158, R206, R304, R327, R410. -/
def engineRestart (elem : Nat) (s : State) : State :=
  if h : 4 ≤ elem ∧ elem ≤ 7 then
    let o : Outlet := ⟨elem - 4, by omega⟩
    settle (linkCause o 15 (closeTcp o s))
  else if elem = Elem.wad then wadiListen true s
  else if elem = Elem.scr then
    forOutlets (fun o t => setScr o (fun c => { c with persist := List.replicate 7 0 }) t) s
  else if elem = Elem.fld then
    [0, 1].foldl (fun (u : State) (p : Fin 2) =>
      if portEnabled u p then setReader p (fun r => { r with state := 1, run := 0, waiting := false }) u else u) s
  else if elem = Elem.cis then
    settle (forOutlets (fun o t =>
      if (s.link.get o).tls ≠ 0 then linkCause o 15 (closeTcp o t) else t) (buildStore s))
  else s

end Sys2Proof.Machine
end

