-- ==== Sys2Proof/Machine/Takeover.lean ====
section
/-! DEFINITION. What starts a takeover (R353, R354), the takeover itself (R362) and the restart in place (R364). -/

namespace Sys2Proof.Machine

/-- Entry 0x0C02 (R384). The duration is open within the limit of R364. -/
def logRestart (cause result : Nat) (s : State) : State :=
  draw (log 0 0x0C 0x0C02 ([byte s.dom.active, byte cause, byte result, 0] ++
    leBytes 4 (min 150 (Config.freeNat s.freeCount)) ++ zeros 8) false s)

/-- A restart in place (R364): the domain reloads and restores as in a takeover; beyond the limit of the last hour the
module makes a warm reset. -/
def restartInPlace (cause : Nat) (i : StartInput) (s : State) : State :=
  let recent := recentRestarts s
  if cfgN s 0x0C03 0 0 1 3 < recent.length + 1 then warmRestart 6 i (logRestart cause 1 s)
  else
    let t := setDom (fun x => { x with restarts := s.clockMs :: recent, lastCause := cause }) s
    logRestart cause 0 (restoreDomain (chooseSeed s) t)

/-- The active domain has failed (R362, R364): an eligible standby takes over; the failed domain has to pass the domain
test. -/
def takeOver (cause : Nat) (i : StartInput) (s : State) : State :=
  let a := s.dom.active
  if eligible s (standby s) then
    let seed := chooseSeed s
    let replayed := seed.elim 0 (fun x => entriesSince s (seedOf s x))
    let t := moveControl cause seed replayed (setDom (fun x => { x with failed := some a, switchTo := false }) s)
    setHealth a (withBit (withoutBit (withoutBit (healthOf t a) Health.ready) Health.sweeping) Health.rakePending) t
  else restartInPlace cause i s

/-- MISCOMPARE (R353, R354). -/
def execMiscompare (i : StartInput) (s : State) : Host.Outcome State Fault Refusal :=
  .next (if domainRuns s then takeOver 1 i s else s)

/-- WATCHDOG_EXPIRY (R353). -/
def execWatchdogExpiry (i : StartInput) (s : State) : Host.Outcome State Fault Refusal :=
  .next (if domainRuns s then takeOver 3 i s else s)

end Sys2Proof.Machine
end

