-- ==== Sys2Proof/Machine/Flash.lean ====
section
/-! DEFINITION. The flash as its window shows it (R11, R15): image slots, key tails (R328 to R330), directory (R417), the LOG
partition with the digests (R57, R58, R61, R62), RECORDS (R269) and STRESS (R312). -/

namespace Sys2Proof.Machine

/-- The image slot whose partition holds a flash address, and the place in it. -/
def slotAt (off : Nat) : Option (Nat × Bool × Nat) :=
  ([0, 1, 2, 3, 4].flatMap (fun r => [(r, false), (r, true)])).findSome? (fun x =>
    let p := slotPartition x.1 x.2
    if p.offset ≤ off ∧ off < p.offset + p.size then some (x.1, x.2, off - p.offset) else none)

/-- A byte of an open place in flash. -/
def openFlash (s : State) (off : Nat) : Byte := Config.flashOpen s.freeCount off

/-- A byte of an area that holds these bytes, and is erased after them. -/
def storedByte (bytes : List Byte) (i : Nat) : Byte := bytes.getD i 0xFF

/-! ### Key tails (R328 to R330) -/

/-- The label of a wrapped class's KEK (R321). -/
def kekLabel (cls : Nat) : String :=
  if cls = 2 then "kek-tls" else if cls = 3 then "kek-wadi" else if cls = 4 then "kek-trellis" else "kek-host"

/-- The KEK of a class under a measurement and a generation: 32 bytes of output (R322). -/
def kek (s : State) (cls : Nat) (meas : BitVec 256) (gen : Nat) : BitVec 256 :=
  (Config.derive s.otp.root (ascii "SGA4400/" ++ ascii (kekLabel cls) ++ digestBytes meas ++ leBytes 2 gen ++
    serialBytes s)).setWidth 256

/-- A blob (R330): 96 bytes. -/
def blobBytes (s : State) (b : Blob) : List Byte :=
  let head := [byte b.cls, 0] ++ leBytes 2 32 ++ leBytes 2 b.gen ++ zeros 2
  let nonce := wordBytes 12 b.nonce
  head ++ nonce ++ wordBytes 48 (Config.gcmSeal (kek s b.cls b.meas b.gen) nonce head (digestBytes b.key)) ++ zeros 28

/-- A key block (R329): 4 KiB. -/
def keyBlockBytes (s : State) (b : KeyBlock) : List Byte :=
  let body := leBytes 4 0x544B4753 ++ leBytes 4 b.writeGen ++ leBytes 2 b.gen ++ leBytes 2 b.blobs.length ++
    leBytes 2 b.statements.length ++ zeros 18 ++
    (List.range 8).flatMap (fun i => (b.blobs[i]?).elim (zeros 96) (blobBytes s)) ++
    (List.range 4).flatMap (fun i => (b.statements[i]?).elim (zeros 224) (fun x => byte x.state :: zeros 3 ++ statementBytes s x)) ++
    zeros 2396
  body ++ wordBytes 4 (crc32c body)

/-- A byte of a key tail: two copies of the key block, the rest erased. -/
def tailByte (s : State) (t : KeyTail) (i : Nat) : Byte :=
  if i < 0x1000 then t.copy0.elim 0xFF (fun b => storedByte (keyBlockBytes s b) i)
  else if i < 0x2000 then t.copy1.elim 0xFF (fun b => storedByte (keyBlockBytes s b) (i - 0x1000))
  else 0xFF

/-! ### LOG (R57, R58, R61, R62) -/

/-- A digest copy (R61): a header sector, then one entry per record. -/
def digestCopyBytes (d : Digest) : List Byte :=
  let entries := d.entries.flatMap (fun e =>
    leBytes 2 e.type ++ leBytes 2 e.key ++ [byte e.status] ++ zeros 3 ++ wordBytes 4 e.check)
  let head := leBytes 4 0x47444753 ++ wordBytes 4 d.generation ++ leBytes 4 d.serial ++ byte d.slot :: zeros 3 ++
    leBytes 4 d.entries.length ++ wordBytes 4 (crc32c entries) ++ zeros 4068
  head ++ wordBytes 4 (crc32c head) ++ entries

/-- A byte of the LOG partition: the legal log, the general log's ring, spare sectors, and the two digest copies. -/
def logByte (s : State) (off : Nat) : Byte :=
  if off < 0x40000 then
    (s.logs.legal.reverse[off / 64]?).elim 0xFF (fun e => storedByte (entryBytes e.entry ++ digestBytes e.chain) (off % 64))
  else if off < 0x241000 then
    (s.logs.general.find? (fun e => e.index % 65664 == (off - 0x40000) / 32)).elim 0xFF
      (fun e => storedByte (entryBytes e) (off % 32))
  else if off < 0x33E000 then openFlash s off
  else if off < 0x39F000 then s.cfg.digestA.elim 0xFF (fun d => storedByte (digestCopyBytes d) (off - 0x33E000))
  else s.cfg.digestB.elim 0xFF (fun d => storedByte (digestCopyBytes d) (off - 0x39F000))

/-! ### RECORDS (R269) -/

/-- A byte of a copy of the account store (R280, R284): a header sector of which the manual gives the contents and not their
places, then 4,096 entries of 40 bytes. -/
def accountByte (s : State) (c : Option AccountStore) (i : Nat) : Byte :=
  match c with
  | none => 0xFF
  | some c =>
    if i < 0x1000 then openFlash s i
    else
      let k := (i - 0x1000) / 40
      ((c.accounts.find? (fun a => a.index == k)).elim (leBytes 2 k ++ zeros 38) (fun a => accountBytes a true)).getD
        ((i - 0x1000) % 40) 0xFF

/-- A byte of the RECORDS partition: the rings of session records and of billing period records, the account store, and the
tariff table store, whose layout the manual does not give. -/
def recordsByte (s : State) (off : Nat) : Byte :=
  if off < 0x81000 then
    (s.bill.records.find? (fun r => r.number % 2064 == off / 256)).elim 0xFF (fun r => storedByte r.bytes (off % 256))
  else if off < 0x92000 then
    (s.bill.periods.find? (fun r => r.number % 17 == (off - 0x81000) / 4096)).elim 0xFF
      (fun r => storedByte r.bytes ((off - 0x81000) % 4096))
  else if off < 0xBB000 then accountByte s s.bill.storeA (off - 0x92000)
  else if off < 0xE4000 then accountByte s s.bill.storeB (off - 0xBB000)
  else if off < 0xE8000 then openFlash s off
  else 0xFF

/-! ### The window -/

/-- A byte of the STRESS partition (R312): two copies. -/
def stressByte (s : State) (off : Nat) : Byte :=
  if off < 0x20000 then s.disp.copyA.elim 0xFF (fun c => storedByte (stressBytes c) off)
  else s.disp.copyB.elim 0xFF (fun c => storedByte (stressBytes c) (off - 0x20000))

/-- A byte of the flash window: an image slot shows its image, and erased bytes after it; an APP slot ends with its key tail;
the last sector of a BOOT slot shows the directory's newest copy (R417), and that of the other slot is open. -/
def flashByte (s : State) (off : Nat) : Byte :=
  match slotAt off with
  | some (r, b, i) =>
    if r = 2 ∧ 0x7F0000 ≤ i then tailByte s (if b then s.cis.tailB else s.cis.tailA) (i - 0x7F0000)
    else if r = 0 ∧ 0x7F000 ≤ i then
      (if b = s.update.copyB then storedByte (directoryBytes s) (i - 0x7F000) else openFlash s off)
    else storedByte (slotOf s r b).data i
  | none =>
    if Partition.offset .reserved ≤ off then 0xFF
    else if Partition.offset .stress ≤ off then stressByte s (off - Partition.offset .stress)
    else if Partition.offset .records ≤ off then recordsByte s (off - Partition.offset .records)
    else logByte s (off - Partition.offset .log)

end Sys2Proof.Machine
end

