-- ==== Sys2Proof/Machine/Fabric.lean ====
section
/-! DEFINITION. Accesses to memory and their permissions (R11 to R14) and integrity of memory (R16, R17, R20, R517). The
arbiters' order (R21 to R23) is timing and left out (NOTES, Scope). -/

namespace Sys2Proof.Machine

/-! ### What an element reads (R11, R14, R317) -/

/-- A thermometer field: bits programmed from bit 0 of the lowest byte upwards. -/
def thermometerBytes (n count : Nat) : List Byte := leBytes n (2 ^ min count (8 * n) - 1)

/-- The 4 KiB that the window shows. The root secret reads as 0. -/
def otpWindow (o : Otp) : List Byte :=
  o.serial ++ o.macBase ++ zeros 50 ++ [byte (flags [o.factoryDone, o.rootValid, o.retired])] ++ zeros 63 ++ zeros 32 ++ zeros 96 ++
    o.updateKeys.flatMap (wordBytes 64) ++ [byte (o.programmed.toNat + 16 * o.revoked.toNat)] ++ zeros 63 ++
    thermometerBytes 64 o.entriesY ++ thermometerBytes 64 o.exitsX ++ thermometerBytes 256 o.keyCounter ++ zeros 64 ++
    o.floors.flatMap (thermometerBytes 128) ++ zeros (1024 - 128 * o.floors.length) ++ zeros 2048

/-- The byte that an element reads at an address. -/
def readByte (s : State) (addr : Nat) : Byte :=
  match windowOf addr with
  | some .otp => (otpWindow s.otp).getD (addr - 0x30000000) 0
  | some .flash => flashByte s (addr - 0x40000000)
  | _ => Memory.read s.fabric.mem addr

/-- What an access returns to the element: the word as it was. -/
def accessAnswer (s : State) (a : Access) (addr : Nat) : Nat :=
  if accessReads a then leNat ((List.range (accessLength a)).map (fun i => readByte s (addr + i))) else 0

/-- A permitted access takes effect. -/
def access (a : Access) (addr : Nat) (s : State) : State :=
  { s with fabric := { s.fabric with mem := accessResult s.fabric.mem a addr, answer := accessAnswer s a addr, marked := false } }

/-- An access that finds a double-bit error (R16): nothing is written, and a read returns the stored data with an uncorrectable
mark. The bits in error are not known, so the data are open (log entry 62). -/
def markedAccess (a : Access) (s : State) : State :=
  if accessReads a then
    draw { s with fabric := { s.fabric with
      answer := Config.freeNat s.freeCount % 2 ^ (8 * accessLength a), marked := true } }
  else s

/-! ### Integrity -/

/-- The correction count of an array. -/
def arrayOf (s : State) (a : Nat) : ArrayErrors := (s.fabric.arrays.find? (fun x => x.array == a)).getD ⟨a, 0, 0, none⟩

/-- Put an array's correction count. -/
def putArray (x : ArrayErrors) (s : State) : State :=
  { s with fabric := { s.fabric with arrays := x :: s.fabric.arrays.filter (fun y => y.array != x.array) } }

/-- A single-bit error is corrected: the count rises and entry 0x0102 is written at most once per 60 s (R20). -/
def correctBit (array addr : Nat) (s : State) : State :=
  let x := arrayOf s array
  let n := x.unlogged + 1
  if x.lastLog.all (fun t => t + 60000 ≤ s.clockMs) then
    log 0 0x01 0x0102 ([byte array, 0, 0, 0] ++ leBytes 4 n ++ leBytes 4 addr ++ zeros 4) false
      (putArray { x with total := x.total + 1, unlogged := 0, lastLog := some s.clockMs } s)
  else putArray { x with total := x.total + 1, unlogged := n } s

/-- RETENTION_SCRUB (R17): at angle 16,384; the offsets of corrected words in retention SRAM are the scrubber's finding. -/
def execRetentionScrub (corrected : List Nat) (s : State) : Host.Outcome State Fault Refusal :=
  .next (if up s then
      corrected.foldl (fun t a => correctBit arrayRetention (retentionBase + a) t) (reachAngle 16384 s)
    else s)

/-- SCRUB_ACCESS (R16, R17): an address of the array's own window (R11). -/
def execScrubAccess (array addr : Nat) (singleBit : Bool) (s : State) : Host.Outcome State Fault Refusal :=
  .next (if up s ∧ singleBit = true ∧ windowOf addr = arrayWindow array then correctBit array addr s else s)

/-- The seed slot that an address of bank 11 lies in (R357): slots of 256 KiB. -/
def seedSlotOf (addr : Nat) : Nat := addr / 0x40000 % 2

/-- A seed slot is invalid. -/
def spoilSeed (slot : Nat) (s : State) : State :=
  setDom (fun x => if slot = 0 then { x with seed0 := { x.seed0 with good := false } }
    else { x with seed1 := { x.seed1 with good := false } }) s

/-- The Sieve entry at an address reads as a miss until it is rewritten. -/
def spoilSieve (addr : Nat) (s : State) : State :=
  let i := addr / 16
  { s with fabric := { s.fabric with sieve := s.fabric.sieve.map (fun e =>
      if e.bucket = i / 16 % 2048 ∧ e.pos = i % 16 then { e with bad := true } else e) } }

/-- Entry 0x0103: legal for metrology engines' memory and for retention SRAM (R20). -/
def logDoubleBit (array elem addr : Nat) (s : State) : State :=
  let legal := array = arrayRetention ∨ (6 ≤ array ∧ array ≤ 10 ∧ (elem = Elem.met0 ∨ elem = Elem.met1))
  log 0 0x01 0x0103 ([byte array, byte elem, 0, 0] ++ leBytes 4 addr ++ zeros 8) legal s

/-- The register whose entry in a commit slot holds an address (R114). -/
def registerAt (addr : Nat) : Option Nat :=
  let o := (addr - retentionBase) % 1024
  if retentionBase ≤ addr ∧ addr < retentionBase + 2048 ∧ 32 ≤ o ∧ o < 880 then some ((o - 32) / 16) else none

/-- The response to a double-bit error (R20). Its table names a reading engine for banks 6 to 10: an error there that a domain
reads is logged and has no other response (DESIGN CHOICE, log entry 62). -/
def respondDoubleBit (array elem addr : Nat) (i : StartInput) (s : State) : State :=
  if array ≤ 5 then
    if elem = s.dom.active then takeOver 2 i s
    else if elem = standby s then failHealth elem Health.memoryFail s
    else s
  else if array ≤ 10 then
    if elem = Elem.met0 then holdMet 0 s
    else if elem = Elem.met1 then holdMet 1 s
    else if elem = Elem.pnl ∧ array = 9 ∧ Config.counterArea addr = true then loadStress (engineRestart elem s)
    else if 4 ≤ elem ∧ elem ≤ 13 then engineRestart elem s
    else s
  else if array = 11 then spoilSeed (seedSlotOf addr) s
  else if array = arraySieve then spoilSieve addr s
  else if array = arrayRetention then (registerAt addr).elim s (fun m => markCorrupt m s)
  else s

/-- DOUBLE_BIT_ERROR (R16, R20): an access finds the error. In ROM, boot stops and the module stays in reset, with all partners
seeing an absent module (R485): pilots at 0 V, channels off, pulses released, SAFE_OK low, displays dark. No log is available.
-/
def execDoubleBitError (array elem addr : Nat) (a : Access) (i : StartInput) (s : State) : Host.Outcome State Fault Refusal :=
  .next (
    if array = arrayRom then
      (if s.power.state = .battery ∨ s.power.state = .off then s else powerDown .heldReset s)
    else if up s then respondDoubleBit array elem addr i (logDoubleBit array elem addr (markedAccess a s))
    else s)

/-- A blocked access (R13): it has no effect, a read returns 0, and it is logged; an engine is restarted, the active domain has
a synchronous exception, and the standby's health word shows it. -/
def violate (elem : Nat) (write : Bool) (addr : Nat) (s : State) : State :=
  let t := log 0 0x01 0x0101 ([byte elem, byte (flag write), 0, 0] ++ leBytes 4 addr ++ zeros 8) false
    { s with fabric := { s.fabric with answer := 0, marked := false } }
  if elem = s.dom.active then { t with fabric := { t.fabric with domainException := true } }
  else if elem = standby s then failHealth elem Health.violation t
  else engineRestart elem t

/-- PERMISSION_VIOLATION (R11 to R14): an element accesses an address. The bank judges it: a permitted access takes effect as
one access, any other is a violation. -/
def execPermissionViolation (elem : Fin 14) (a : Access) (addr : Nat) (s : State) : Host.Outcome State Fault Refusal :=
  .next (
    if !up s then s
    else if accessPermitted s elem.val a addr then access a addr s
    else violate elem.val (accessWrites a) addr s)

/-- ENGINE_RESET (R476): one engine restarts from its slot in force, with the effects of its chapter. -/
def execEngineReset (elem : Fin 14) (s : State) : Host.Outcome State Fault Refusal :=
  .next (if up s ∧ 2 ≤ elem.val then engineRestart elem.val s else s)

end Sys2Proof.Machine
end

