-- ==== Sys2Proof/Machine/HostPacket.lean ====
section
/-! DEFINITION. A host packet as raw bytes: the framing checks of R51 (steps 1 to 3) and a packet whose opcode no chapter
defines (step 7). A packet that carries a defined opcode is that opcode's own command. -/

namespace Sys2Proof.Machine

/-- The opcodes that the chapters define for requests, as ranges. -/
def opcodeRanges : List (Nat × Nat) :=
  [(0x0101, 0x0107), (0x0201, 0x0201), (0x0301, 0x0303), (0x0401, 0x0405), (0x0501, 0x0503), (0x0602, 0x0609), (0x0701, 0x0704), (0x0801, 0x0803), (0x0901, 0x090B), (0x0A01, 0x0A05),
   (0x0B01, 0x0B06), (0x0C01, 0x0C04), (0x0D01, 0x0D03), (0x0E01, 0x0E09), (0x0F01, 0x0F04), (0x1001, 0x1002), (0x1101, 0x1103)]

/-- The opcode is defined for requests (R51, step 7). -/
def opcodeDefined (code : Nat) : Bool := opcodeRanges.any (fun x => x.1 ≤ code && code ≤ x.2)

/-- Steps 1 to 3 of R51: length, CRC-32C, magic and version. -/
def framingOk (frameLen : Nat) (b : List Byte) : Bool :=
  b.length == frameLen && frameLen == 36 + fieldN b 12 2 &&
    fieldN b (frameLen - 4) 4 == (crc32c (b.take (frameLen - 4))).toNat && fieldN b 0 2 == 0x5347 && fieldN b 2 1 == 1

/-- The request that the bytes of a packet spell. -/
def requestOf (port : Port) (src : Nat) (b : List Byte) (load queued : Nat) : Request :=
  { port, src, cls := fieldN b 3 1, seq := BitVec.ofNat 32 (fieldN b 6 4), flags := byte (fieldN b 10 1)
    status := byte (fieldN b 11 1), reserved := fieldN b 14 2, payload := slice b 16 (fieldN b 12 2)
    mac := BitVec.ofNat 128 (fieldN b (b.length - 20) 16), load, queued }

/-- Steps 6 and 7 of R51. -/
def undefinedStatus (r : Request) : Nat :=
  if r.flags.toNat &&& 0xFB ≠ 0 ∨ r.status ≠ 0 ∨ r.reserved ≠ 0 then St.range else St.unknown

/-- HOST_PACKET_UNDEFINED (R51): a bad frame is dropped and counted; an undefined opcode is answered UNKNOWN after the steps
before it. -/
def execHostPacketUndefined (port : Port) (src frameLen : Nat) (bytes : List Byte) (load queued : Nat) (s : State) :
    Host.Outcome State Fault Refusal :=
  let r := requestOf port src bytes load queued
  .next (
    if !(portOpen s port && permitted s port src) then s
    else if !framingOk frameLen bytes then setOrigin port (fun o => { o with drops := o.drops + 1 }) (spiTransfer port s)
    else if opcodeDefined (fieldN bytes 4 2) then s
    else acceptRequest (fieldN bytes 4 2) r (fun t => (t, .now (undefinedStatus r) [])) s)

end Sys2Proof.Machine
end

