-- ==== Sys2Proof/Machine/Rake.lean ====
section
/-! DEFINITION. The Rake self-test's runs (R460 to R464), its record's maintenance window, and the chapter's opcodes. -/

namespace Sys2Proof.Machine

/-! ### Starting a run (R463) -/

/-- No update is receiving, on trial or migrating. -/
def noUpdate (s : State) : Bool :=
  (List.range 5).all (fun r => regionState s r != 1 && regionState s r != 3 && regionState s r != 5)

/-- A run starts after the partial commit; doorbells, packets, tag requests and frames are ignored from here (R464). -/
def startRake (kind : Nat) (groups : List Nat) (w : WindowInput) (last : Fin 256) (s : State) : State :=
  let t := partialCommit w last s
  { setRake (fun k => { k with lastKind := kind, left := groups, results := [], repeated := false }) t with
    power := { t.power with phase := .rake } }

/-- The local time lies inside the maintenance window of a day of the mask; a window may end on the next day. -/
def inMaintenance (s : State) : Bool :=
  let days := cfgN s 0x1001 0 1 1 0x40
  let first := cfgN s 0x1001 0 2 2 180
  let inside (m : Nat) : Bool := decide (first ≤ m) && decide (m < first + cfgN s 0x1001 0 4 2 60)
  (localClock s).any (fun c =>
    (days.testBit c.1 && inside c.2) || (days.testBit ((c.1 + 6) % 7) && inside (c.2 + 1440)))

/-- A maintenance run took place in the window that ends now. -/
def ranInWindow (s : State) : Bool :=
  s.rake.lastKind == 1 && s.rake.lastUtc.any (fun u => decide (s.sun.utc ≤ u + 60 * cfgN s 0x1001 0 4 2 60))

/-- The trigger of a maintenance run: record 0x1001 on, the day and time inside its window, the signature older than
24 h or absent (R463). -/
def maintenanceDue (s : State) : Bool :=
  cfgN s 0x1001 0 0 1 1 == 2 &&
  (match s.rake.signature with
    | some x => !s.rake.magic || decide (x.utc + 86400 < s.sun.utc)
    | none => true) && inMaintenance s

/-- MAINTENANCE_WINDOW (R463). -/
def execMaintenanceWindow (w : WindowInput) (lastSample : Fin 256) (s : State) : Host.Outcome State Fault Refusal :=
  .next (
    if domainRuns s && maintenanceDue s && allIdle s && noUpdate s && s.sun.utcValid then
      startRake 1 [1, 2, 3, 4, 5, 6] w lastSample s
    else s)

/-- MAINTENANCE_WINDOW_END (R463): a window that passed without a run is logged with what held it back. -/
def execMaintenanceWindowEnd (s : State) : Host.Outcome State Fault Refusal :=
  let cause := if !s.sun.utcValid then 3 else if !allIdle s then 1 else 2
  let stale := match s.rake.signature with
    | some x => !s.rake.magic || decide (x.utc + 86400 < s.sun.utc)
    | none => true
  .next (
    if domainRuns s && cfgN s 0x1001 0 0 1 1 == 2 && (stale || !s.sun.utcValid) && !ranInWindow s then
      log 9 0x10 0x1002 (byte cause :: zeros 15) false s
    else s)

/-! ### The run (R460, R461) -/

/-- A run is in progress. -/
def raking (s : State) : Bool := s.power.phase = .rake && !s.rake.left.isEmpty

/-- The running group ends with a result; after the last one the run ends (R465). -/
def endGroup (result : Nat) (s : State) : State :=
  match s.rake.left with
  | [] => s
  | g :: rest =>
    let t := setRake (fun k => { k with left := rest, results := k.results ++ [(g, result)], repeated := false }) s
    if rest = [] then endRake t else t

/-- RAKE_GROUP_COMPLETE (R460). -/
def execRakeGroupComplete (result : Nat) (s : State) : Host.Outcome State Fault Refusal :=
  .next (if raking s then endGroup result s else s)

/-- RAKE_POWER_LIMIT (R460): the group runs again once at half the rate, and then has the result 4. -/
def execRakePowerLimit (s : State) : Host.Outcome State Fault Refusal :=
  .next (
    if !raking s then s
    else if s.rake.repeated then endGroup 4 s
    else setRake (fun k => { k with repeated := true }) s)

/-- RAKE_CONDITION_TIMEOUT (R461): group 6 has the result 3. -/
def execRakeConditionTimeout (s : State) : Host.Outcome State Fault Refusal :=
  .next (if raking s ∧ s.rake.left.head? = some 6 then endGroup 3 s else s)

/-- RAKE_RESTART (R463): the end of a maintenance or commanded run restarts the module. -/
def execRakeRestart (straps : Slot) (recover : Bool) (s : State) : Host.Outcome State Fault Refusal :=
  .next (if s.power.phase = .rake ∧ s.rake.left = [] then fullRestart 9 straps recover s else s)

/-! ### Opcodes (R471) -/

/-- The payload of opcode 0x1001; the UTC of a last run that there was none of is open. -/
def rakeStatusBytes (s : State) : List Byte :=
  signatureBytes s ++ [byte (flag (signatureUsable s)), byte s.rake.lastKind] ++
    (s.rake.lastResults.map byte) ++ zeros 4 ++ s.rake.lastUtc.elim (openField 4 s) (leBytes 4) ++
    leBytes 4 (if cfgN s 0x1001 0 0 1 1 = 2 then
        utcField (nextLocal (cfgN s 0x1001 0 2 2 180) (cfgN s 0x1001 0 1 1 0x40) s)
      else 0xFFFFFFFF)

/-- RAKE_STATUS (R471). -/
def execRakeStatus (r : Request) (s : State) : Host.Outcome State Fault Refusal :=
  .next (hostRequest (opNone 0x1001 [clsN, clsH]) r (fun s => reply (rakeStatusBytes s) (draw s)) s)

/-- The groups of a mask. -/
def groupsOf (mask : Nat) : List Nat := (List.range 6).filterMap (fun i => if mask.testBit i then some (i + 1) else none)

/-- A commanded run that was accepted starts after its response (R471). -/
def runIfAsked (w : WindowInput) (last : Fin 256) (s : State) : State :=
  if s.rake.left ≠ [] ∧ s.power.phase ≠ .rake then startRake 2 s.rake.left w last s else s

/-- RAKE_RUN (R471). -/
def execRakeRun (r : Request) (w : WindowInput) (lastSample : Fin 256) (s : State) : Host.Outcome State Fault Refusal :=
  let mask := fieldN r.payload 0 1
  .next (runIfAsked w lastSample (hostRequest (opLen 0x1002 [clsN] 4) r
    (fun s => guarded [ need (mask ≠ 0 ∧ mask < 64) St.range, reservedOk r.payload 1 3
                      , need (inService s && allIdle s) St.refusedState ]
      (fun s => done (setRake (fun k => { k with left := groupsOf mask }) s)) s) s))

end Sys2Proof.Machine
end

