-- ==== Sys2Proof/Machine/Sowing.lean ====
section
/-! DEFINITION. The sowing chain (R430 to R433): who owns the bulk windows, what a sender sends, and what a receiver
does with a bulk frame. -/

namespace Sys2Proof.Machine

/-- Change the sowing that the module takes part in. -/
def setSowing (f : Sowing → Sowing) (s : State) : State :=
  setUpdate (fun u => { u with sowing := u.sowing.map f }) s

/-- The body of a bulk frame (R431). -/
def bulkBody (x : Sowing) (kind offset : Nat) (data : List Byte) : List Byte :=
  leBytes 4 x.id ++ [byte x.region, byte kind, byte x.status, 0] ++ leBytes 4 offset ++ leBytes 4 x.verified ++ data

/-- The whole length of the block stream. -/
def sowTotal (x : Sowing) : Nat := streamLength x.header

/-- The targets that are not absent: an absent one is skipped (R402, R432). -/
def sowTargets (s : State) (x : Sowing) : List SowTarget :=
  x.targets.filter (fun t => (neighbourOf s t.node).all (fun n => n.present))

/-- The chain: the master with the whole stream, then the targets. -/
def sowChain (s : State) (x : Sowing) : List (Nat × Nat) :=
  (wadiNode s, sowTotal x) :: (sowTargets s x).map (fun t => (t.node, t.held))

/-- A target has refused the package: its status is known and not OK. -/
def SowTarget.refuses (t : SowTarget) : Bool := t.status != 0xFF && t.status != St.ok

/-- How much each target holds, and so needs no more of: a last target that has refused needs nothing more
(R433). -/
def sowNeeds (s : State) (x : Sowing) : List Nat :=
  let l := sowTargets s x
  (List.range l.length).filterMap (fun i => (l[i]?).map (fun t =>
    if i + 1 = l.length ∧ t.refuses = true then sowTotal x else t.held))

/-- The senders that hold bytes their receiver lacks, in chain order (R432). -/
def sowSenders (s : State) (x : Sowing) : List Nat :=
  ((sowChain s x).zip (sowNeeds s x)).filterMap (fun y => if y.2 < y.1.2 then some y.1.1 else none)

/-- The bulk owner that the site master names and its windows (R432, R433): the next such sender with 20, or the last
target with one for its report. -/
def bulkOwner (s : State) : Option (Nat × Nat) :=
  s.update.sowing.bind (fun x =>
    if !(x.master && x.running) then none
    else
      let l := sowSenders s x
      match l[x.turn % max 1 l.length]? with
      | some n => some (n, 20)
      | none => ((sowTargets s x).getLast?).map (fun t => (t.node, 1)))

/-- The next superframe serves the next sender. When the master's own receiver is absent, the next target takes its place. -/
def turnOwner (s : State) : State :=
  setSowing (fun x =>
    let y := { x with turn := x.turn + 1 }
    match x.master, (sowTargets s x).head? with
    | true, some t => if t.node = x.next then y else { y with next := t.node, position := 0, headerSent := 0 }
    | _, _ => y) s

/-- The policy and the target after the next, as the sowing header carries them; only the master knows the chain. -/
def sowingHeader (s : State) (x : Sowing) : List Byte :=
  x.header ++ (if x.master then leBytes 2 (((sowTargets s x)[1]?).elim 0 (fun t => t.node)) else openField 2 s) ++
    [byte x.policy, 0]

/-- What the module sends in a bulk window that it owns: the receiver, the body, and the state after it. -/
def bulkFrame (mode : Nat) (s : State) : Option (Nat × List Byte × State) :=
  s.update.sowing.bind (fun x =>
    let room := min 648 (payloadLimit s mode - 44)
    if !x.running then none
    else if x.next = 0 then some (s.wadi.masterNode, bulkBody x 2 0 [], setSowing (fun y => { y with running := false }) s)
    else if x.headerSent < 260 then
      let data := slice (sowingHeader s x) x.headerSent (min room (260 - x.headerSent))
      some (x.next, bulkBody x 0 x.headerSent data,
        draw (setSowing (fun y => { y with headerSent := x.headerSent + data.length }) s))
    else if x.position < x.verified then
      let data := slice x.stream x.position (min room (x.verified - x.position))
      some (x.next, bulkBody x 1 x.position data,
        setSowing (fun y => { y with position := x.position + data.length }) s)
    else none)

/-- A frame is reported lost: the sender goes back to its offset (R432). -/
def bulkLost (body : List Byte) (s : State) : State :=
  setSowing (fun x => if fieldN body 5 1 = 0 then { x with headerSent := min x.headerSent (fieldN body 8 4) }
    else { x with position := min x.position (fieldN body 8 4) }) s

/-! ### The master hears the chain (R433) -/

/-- Entry 0x0E07 for a target. -/
def logSowing (x : Sowing) (t : SowTarget) (s : State) : State :=
  updateLog 10 0x0E07 0 (leBytes 2 t.node ++ [byte t.hop, byte t.status] ++ leBytes 4 t.held ++ leBytes 4 x.id ++ zeros 4) s

/-- The master notes what a bulk frame tells of its sender and, by its offset, of its receiver. -/
def masterHears (src dest : Nat) (body : List Byte) (s : State) : State :=
  match s.update.sowing with
  | none => s
  | some x =>
    if !(x.master && x.running && x.id == fieldN body 0 4) then s
    else
      let kind := fieldN body 5 1
      let reach := fieldN body 8 4 + (body.length - 16)
      let targets := x.targets.map (fun t =>
        if t.node = src then { t with status := fieldN body 6 1, held := max t.held (fieldN body 12 4) }
        else if t.node = dest ∧ kind = 1 then { t with held := max t.held reach } else t)
      let t := setSowing (fun y => { y with targets := targets }) s
      if kind = 2 then targets.foldl (fun t g => logSowing x g t) (setSowing (fun y => { y with running := false }) t)
      else t

/-! ### A target (R433) -/

/-- Whether a target stores the image: the status of its refusal, or OK. -/
def sowAccept (h : List Byte) (s : State) : Nat × Nat :=
  if s.update.lock then (St.locked, 0)
  else if cfgN s 0x0E01 0 1 1 2 = 1 then (St.refusedState, 0)
  else match overlap s (fieldN h 8 1) (packageCounter h) false with
    | .refused st => (st, 0)
    | _ => match headerChecks s h with
      | some (step, st) => (st, step)
      | none => (St.ok, 0)

/-- A sowing header for this node is complete (R431). -/
def takeSowHeader (id : Nat) (data : List Byte) (s : State) : State :=
  let h := data.take 256
  let (status, step) := sowAccept h s
  let t := if status = St.ok then openUpdate 10 1 id h s else logPackage 10 (fieldN h 8 1) status step h s
  let x : Sowing :=
    { id, region := fieldN h 8 1, slot := 0, policy := fieldN data 258 1, master := false, running := true, targets := []
      header := h, stream := [], verified := 0, ahead := [], next := fieldN data 256 2, position := 0
      headerSent := 0, storing := status == St.ok, status := if status = St.ok then 0xFF else status, turn := 0 }
  setUpdate (fun u => { u with sowing := some x }) t

/-- Bytes that join a stream received so far, from the frame and from those kept beyond the gap. -/
def joinAhead : Nat → List Byte → List (Nat × List Byte) → List Byte
  | 0, stream, _ => stream
  | n + 1, stream, ahead =>
    match ahead.find? (fun a => a.1 ≤ stream.length && stream.length < a.1 + a.2.length) with
    | none => stream
    | some a => joinAhead n (stream ++ a.2.drop (stream.length - a.1)) ahead

/-- The verified blocks of a stream. -/
def verifiedBlocks (x : Sowing) : Nat := if x.verified = sowTotal x then fieldN x.header 32 2 else x.verified / 1024

/-- A block stream frame for this node (R431 to R433): up to 64 KiB beyond a gap are kept. -/
def takeSowData (off : Nat) (data : List Byte) (x : Sowing) (s : State) : State :=
  let keep := off ≤ x.stream.length + 65536
  let ahead := if keep then (off, data) :: x.ahead else x.ahead
  let stream := joinAhead (ahead.length + 1) x.stream ahead
  let k := verifiedBlocks x
  let (n, bad) := verifyBlocks (fieldN x.header 32 2 + 1) x.header stream k
  let total := sowTotal x
  let verified := if n = fieldN x.header 32 2 then total else 1024 * n
  let stream' := if bad then stream.take (1024 * n) else stream
  let y := { x with stream := stream', verified := verified
                    ahead := if bad then [] else ahead.filter (fun a => stream'.length < a.1 + a.2.length) }
  let t := setUpdate (fun u => { u with sowing := some y }) s
  let r := x.region
  if !x.storing then t
  else
    let t := setSlot r (!confirmedB s r) (fun z => { z with data := z.data ++ blocksData x.header stream k n }) t
    let t := setRegion r (fun z => { z with received := stream'.length }) t
    if verified = total then
      let (t, status) := completeUpdate 10 x.header t
      let t := setSowing (fun z => { z with status := status, storing := false }) t
      if status = St.ok ∧ x.policy = 1 then
        setUpdate (fun u => { u with waiting := some ((u.waiting.getD 0) ||| 2 ^ r), waitingBy := 10 }) t
      else t
    else t

/-- A piece of a sowing header: pieces arrive in order from offset 0 on. -/
def takeSowPiece (id off : Nat) (data : List Byte) (s : State) : State :=
  let old := s.update.sowHeader
  if off = 0 ∨ (old.1 = id ∧ off = old.2.length) then
    let all := (if off = 0 then [] else old.2) ++ data
    if all.length < 260 then setUpdate (fun u => { u with sowHeader := (id, all) }) s
    else takeSowHeader id (all.take 260) (setUpdate (fun u => { u with sowHeader := (0, []) }) s)
  else s

/-- A bulk frame addressed to this node. -/
def takeBulk (body : List Byte) (s : State) : State :=
  let id := fieldN body 0 4
  let data := body.drop 16
  if fieldN body 5 1 = 0 then
    if s.update.sowing.any (fun x => x.id == id && x.running) then s else takeSowPiece id (fieldN body 8 4) data s
  else if fieldN body 5 1 = 1 then
    match s.update.sowing with
    | some x => if x.id = id ∧ x.running = true ∧ x.master = false then takeSowData (fieldN body 8 4) data x s else s
    | none => s
  else s

end Sys2Proof.Machine
end

