-- ==== Sys2Proof/Machine/WadiFrames.lean ====
section
/-! DEFINITION. The frames of the Wadi: what a node sends in a window it owns (R396 to R401, R407, R408) and what it does
with a frame it decodes (R392 to R405). -/

namespace Sys2Proof.Machine

/-! ### Sending -/

/-- The beacon body (R397). -/
def beaconBody (s : State) : List Byte :=
  let w := s.wadi
  wordBytes 4 w.superframe ++ leBytes 4 (utcField (utcNow s)) ++ leBytes 2 ((utcMs s) % 1000).toNat ++
    leBytes 2 w.count ++ [byte w.rotation, byte (w.owner.getD 0), byte w.windows, byte (wadiPriority s),
     byte (flags [s.sun.utcValid, w.owner.isSome]), 0, 0, 0]

/-- The site master starts a superframe (R397, R398, R432): the number rises, the rotation goes on after the last index
served, and the bulk owner of the superframe is named. While no domain runs, WAD raises the number alone (R410). -/
def startSuperframe (s : State) : State :=
  if !domainRuns s then setWadi (fun w => { w with superframe := w.superframe + 1 }) s
  else
  let n := indexCount s
  let own := (bulkOwner s).bind (fun o => (s.wadi.indices.find? (fun x => x.1 == o.1)).map (fun x => (x.2, o.2)))
  turnOwner (setWadi (fun w => { w with
    superframe := w.superframe + 1, count := n, rotation := (w.rotation + 27 - w.windows) % n
    owner := own.map (fun o => o.1), windows := own.elim 0 (fun o => min 20 o.2) }) s)

/-- An allocation entry (R407). -/
def entryBytesOf (node index mode : Nat) (budget : Int) (caps : List Nat) : List Byte :=
  leBytes 2 node ++ [byte index, byte mode] ++ leInt 4 budget ++
    (List.range 3).flatMap (fun x => leBytes 2 (min 65535 (caps.getD x 0)))

/-- Insert a neighbour into a list ordered by when its entry was renewed. -/
def insertRenewed (n : Neighbour) : List Neighbour → List Neighbour
  | [] => [n]
  | m :: l => if n.renewed ≤ m.renewed then n :: m :: l else m :: insertRenewed n l

/-- The nodes that have an index, the one renewed longest ago first. -/
def renewalOrder (s : State) : List Neighbour :=
  (s.wadi.neighbours.filter (fun n => n.present && s.wadi.indices.any (fun x => x.1 == n.node))).foldl
    (fun l n => insertRenewed n l) []

/-- The entries that a frame of a mode carries: at most 46, and no more than its payload holds (R390, R407, R408). -/
def allocationNodes (s : State) (mode : Nat) : List Neighbour :=
  ((renewalOrder s).filter (fun n => mode ≤ bestMode n.beaconSnr)).take (min 46 ((payloadLimit s mode - 36) / 14))

/-- The index of a node. -/
def indexOf (s : State) (node : Nat) : Nat := ((s.wadi.indices.find? (fun x => x.1 == node)).map (fun x => x.2)).getD 0

/-- An allocation frame (R407, R408): its mode is what the node whose turn it is supports. While no domain runs there is
none (R410). -/
def sendAllocation (s : State) : State :=
  if !domainRuns s then s
  else match (renewalOrder s).head? with
  | none => s
  | some first =>
    let mode := bestMode first.beaconSnr
    let ns := allocationNodes s mode
    let body := wordBytes 4 s.wadi.superframe ++ [byte ns.length, 0, 0, 0] ++
      ns.flatMap (fun n => entryBytesOf n.node (indexOf s n.node) (bestMode n.snr) n.budget n.caps)
    let now := 256 * s.wadi.superframe.toNat + s.wadi.position.getD 0 + 1
    sendWadi 2 0xFFFF mode 0 body (setWadi (fun w => { w with neighbours := w.neighbours.map (fun n =>
      if ns.any (fun m => m.node == n.node) then { n with renewed := now } else n) }) s)

/-- The node beacon's resend requests: three at most. -/
def requestBytesOf (l : List Resend) : List Byte :=
  (List.range 3).flatMap (fun e => match l[e]? with
    | some x => leBytes 2 x.source ++ [byte x.slot, byte x.low]
    | none => zeros 4)

/-- The content of the node beacon (R400). -/
def nodeBeaconBody (s : State) : List Byte :=
  let n := ownNode s
  [byte (s.wadi.index.getD 0),
      byte (flags [s.trellis.role ≠ 0, s.sun.quality.getLsbD 0, wadiPriority s ≠ 0])] ++ leInt 1 s.wadi.beaconSnr ++
    [byte n.weight] ++ leInt 4 n.demand ++ leInt 4 n.dc ++ n.ac.flatMap (fun a => leBytes 2 (min 65535 a)) ++
    [byte (wadiPriority s), 0] ++ requestBytesOf s.wadi.requests

/-- A running domain writes the node beacon's content. -/
def writeNodeBeacon (s : State) : State :=
  if domainRuns s then
    setWadi (fun w => { w with beacon := nodeBeaconBody s, requests := w.requests.drop 3 }) s
  else s

/-- Send the node beacon (R400), while no domain runs with the content last written (R410). -/
def sendNodeBeacon (s : State) : State :=
  let t := writeNodeBeacon s
  if t.wadi.beacon = [] then t
  else sendWadi 3 0xFFFF t.wadi.ownMode 0 t.wadi.beacon (setWadi (fun w => { w with lastBeacon := true }) t)

/-- Send a frame again (R401). -/
def sendAgain (f : SentFrame) (s : State) : State :=
  sendWadi f.type f.dest f.mode (f.resends + 1) f.body
    (setWadi (fun w => { w with again := w.again.drop 1, lastBeacon := false }) s)

/-- The index that a node window serves (R398). -/
def windowIndex (s : State) (w : Nat) : Option Nat :=
  if w < s.wadi.windows then s.wadi.owner
  else some ((s.wadi.rotation + (w - s.wadi.windows)) % max 1 s.wadi.count)

/-- What a node sends in a window of its own: a frame again, a bulk frame in a bulk window, or its node beacon; every
second window outside the bulk windows carries the node beacon (R398, R401). -/
def sendOwnWindow (w : Nat) (s : State) : State :=
  if w < s.wadi.windows then
    match s.wadi.again.head? with
    | some f => sendAgain f s
    | none => match bulkFrame s.wadi.ownMode s with
      | some (dest, body, t) => sendWadi 5 dest s.wadi.ownMode 0 body t
      | none => sendNodeBeacon s
  else match s.wadi.again.head? with
    | some f => if s.wadi.lastBeacon then sendAgain f s else sendNodeBeacon s
    | none => sendNodeBeacon s

/-- The frame that goes out in a window, by the site cycle that opens it (R396). -/
def sendWindow (position : Nat) (s : State) : State :=
  if position = 0 then
    if s.wadi.role = 4 then
      let t := startSuperframe s
      sendWadi 1 0xFFFF 0 0 (beaconBody t) t
    else s
  else if position = 8 ∨ position = 16 then (if s.wadi.role = 4 then sendAllocation s else s)
  else if 24 ≤ position ∧ position < 240 ∧ position % 8 = 0 then
    if (s.wadi.role = 3 ∨ s.wadi.role = 4) ∧ s.wadi.index.isSome ∧ windowIndex s ((position - 24) / 8) = s.wadi.index then
      sendOwnWindow ((position - 24) / 8) s
    else s
  else if s.wadi.role = 2 ∧ s.wadi.joinAt = some position then
    sendWadi 4 s.wadi.masterNode 0 0 ([byte (wadiPriority s), 0, 0, 0] ++ leBytes 4 (runningVersion s 2))
      (setWadi (fun w => { w with joinAt := none, joinWait := 1 }) s)
  else s

/-- WADI_FRAME_START (R390, R391, R404): only while LOCKED, and only by the stack's Wadi node. -/
def execWadiFrameStart (position : Fin 256) (s : State) : Host.Outcome State Fault Refusal :=
  .next (
    let s := if up s then reachAngle 4096 s else s
    if wadiRuns s && s.wadi.test.isNone then
      let t := setWadi (fun w => { w with
        position := some position.val, heldBack := w.heldBack && position.val ≠ 0 }) s
      if t.sun.quality.getLsbD 0 && wadiSender t then sendWindow position.val t else t
    else s)

/-! ### Receiving -/

/-- A received frame counts as a check failure; one addressed to this node is asked for again (R401). -/
def discardFrame (blanked addressed : Bool) (source slot low : Nat) (s : State) : State :=
  setWadi (fun w => { w with
    blanked := if blanked then w.blanked + 1 else w.blanked
    checkFails := if blanked then w.checkFails else w.checkFails + 1
    requests := if addressed then w.requests ++ [⟨source, slot, low⟩] else w.requests }) s

/-- The phase measurement of a frame (R392): three equal classes set or change the sender's class. -/
def measurePhase (node : Nat) (start : Nat) (s : State) : State :=
  match neighbourOf s node with
  | none => s
  | some n =>
    let theta := phaseOffset start
    let q := phaseClass theta
    let run := if n.runLen ≠ 0 ∧ n.runQ = q then n.runLen + 1 else 1
    let m := { n with runQ := q, runLen := min 3 run }
    if 3 ≤ run ∧ n.q ≠ q then
      let t := putNeighbour { m with q := q } s
      let t := if node = s.wadi.masterNode then setWadi (fun w => { w with ownQ := q }) t else t
      log 5 0x0D 0x0D03 (leBytes 2 node ++ [byte n.q, byte q] ++ leBytes 2 theta ++ zeros 10) false t
    else putNeighbour m s

/-- An accepted frame enters the neighbour table, and a node that was absent is present again (R402, R414). -/
def hearNode (node slot mode : Nat) (snr : Int) (epoch : U16) (counter : U32) (s : State) : State :=
  let old := (neighbourOf s node).getD (newNeighbour node)
  let heard := 256 * s.wadi.superframe.toNat + s.wadi.position.getD 0
  let t := putNeighbour { old with counter := counter, heard := heard, snr := snr, mode := mode, slot := slot, present := true } s
  let t := setWadi (fun w => { w with
    received := w.received + 1
    replays := ⟨node, slot, epoch, counter⟩ :: w.replays.filter (fun r => !(r.node == node && r.slot == slot)) }) t
  if (neighbourOf s node).any (fun n => !n.present) then logNodePresence node 0 old.index t else t

/-- The length of a frame in ms, from its start to its end, when it has been decoded. -/
def frameMs (mode bytes : Nat) : Int := (((10 + payloadSymbols mode bytes) * 8 + 5) / 10 : Nat)

/-- A member follows the master's time (R405): the difference at the start of the frame; only differences above 100 ms
count. -/
def followTime (body : List Byte) (s : State) : State :=
  let own := utcMs s - frameMs 0 (body.length + 28)
  let delta := (fieldN body 4 4 : Int) * 1000 + fieldN body 8 2 - own
  if cfgN s 0x0D01 0 6 1 1 = 1 ∧ (fieldN body 16 1).testBit 0 ∧ s.sun.utcValid ∧ 100 < delta.natAbs then
    (clockSlew 5 delta s).1
  else s

/-- The own class towards a site master: that of the neighbour table (R392). -/
def classTowards (s : State) (master : Nat) : Nat := (neighbourOf s master).elim 255 (fun n => n.q)

/-- A member takes a beacon (R396, R397, R399). A node that has sent a join request waits for its entry (JOIN_TIMEOUT). -/
def followBeacon (source slot : Nat) (snr : Int) (body : List Byte) (s : State) : State :=
  let again := s.wadi.position.isSome
  let t := setWadi (fun w => { w with
    masterNode := source, masterSlot := slot, masterPriority := fieldN body 15 1, position := some 0
    superframe := BitVec.ofNat 32 (fieldN body 0 4), count := max 1 (fieldN body 10 2), rotation := fieldN body 12 1
    owner := if (fieldN body 16 1).testBit 1 then some (fieldN body 13 1) else none
    windows := min 20 (fieldN body 14 1), beaconSnr := snr, silent := 0, heldBack := false
    ownQ := classTowards s source
    neighbours := w.neighbours.map (fun n => { n with master := n.node == source }) }) s
  let t := if s.wadi.role = 1 then
      (if s.wadi.index.isSome then setRole 3 t else if again then chooseJoin (setRole 2 (setWadi (fun w => { w with joinWait := 0 }) t)) else t)
    else if s.wadi.role ≠ 2 then t
    else if s.wadi.joinWait = 0 then chooseJoin t
    else setWadi (fun w => { w with joinWait := w.joinWait + 1 }) t
  followTime body t

/-- A beacon (R403): a site master yields to a lower priority value, or to a lower node ID at the same value. -/
def takeBeacon (source slot : Nat) (snr : Int) (body : List Byte) (s : State) : State :=
  let p := fieldN body 15 1
  if s.wadi.role ≠ 4 then followBeacon source slot snr body s
  else if p < wadiPriority s ∨ (p = wadiPriority s ∧ source < wadiNode s) then
    followBeacon source slot snr body (setRole 3 (setWadi (fun w => { w with masterNode := source }) s))
  else s

/-- The allocation entries of a body. -/
def allocationEntries (body : List Byte) : List (List Byte) :=
  (List.range (fieldN body 4 1)).map (fun e => slice body (8 + 14 * e) 14)

/-- An allocation frame (R399, R407, R409): the own entry gives index, mode, budget and caps. -/
def takeAllocation (body : List Byte) (s : State) : State :=
  match (allocationEntries body).find? (fun e => fieldN e 0 2 == wadiNode s) with
  | none => s
  | some e =>
    let t := setWadi (fun w => { w with
      index := some (fieldN e 2 1), ownMode := min 3 (fieldN e 3 1), joinWait := 0, joinAt := none }) s
    let t := if s.wadi.role = 2 then setRole 3 t else t
    if wadiSender s then takeSiteEntry (fieldI e 4 4) ((List.range 3).map (fun x => fieldN e (8 + 2 * x) 2)) t else t

/-- A resend request that names this node (R401). -/
def takeResend (low : Nat) (s : State) : State :=
  match s.wadi.history.find? (fun f => f.counter.toNat % 256 == low) with
  | none => s
  | some f =>
    if f.type = 1 ∨ f.type = 2 then s
    else if f.resends < retryLimit s then setWadi (fun w => { w with again := w.again ++ [f] }) s
    else if f.type = 5 then bulkLost f.body s else s

/-- A node beacon (R400). A site master takes the index that a node reports (R403). -/
def takeNodeBeacon (source : Nat) (body : List Byte) (s : State) : State :=
  let old := (neighbourOf s source).getD (newNeighbour source)
  let t := putNeighbour { old with
    index := fieldN body 0 1, stack := (fieldN body 1 1).testBit 0, beaconSnr := fieldI body 2 1, weight := fieldN body 3 1
    demand := fieldI body 4 4, dcDemand := fieldI body 8 4, priority := fieldN body 18 1
    acDemand := (List.range 3).map (fun x => fieldN body (12 + 2 * x) 2) } s
  let t := if s.wadi.role = 4 ∧ ¬ (s.wadi.indices.any (fun x => x.1 == source || x.2 == fieldN body 0 1)) then
      setWadi (fun w => { w with indices := w.indices ++ [(source, fieldN body 0 1)] }) t
    else t
  (List.range 3).foldl (fun t e =>
    if fieldN body (20 + 4 * e) 2 = wadiNode s ∧ fieldN body (22 + 4 * e) 1 = wadiSlot s then
      takeResend (fieldN body (23 + 4 * e) 1) t
    else t) t

/-- A frame that passed every check, by its type. -/
def takeFrame (source slot dest type : Nat) (snr : Int) (body : List Byte) (s : State) : State :=
  if type = 1 then takeBeacon source slot snr body s
  else if type = 2 then takeAllocation body s
  else if type = 3 then takeNodeBeacon source body s
  else if type = 4 then (if s.wadi.role = 4 then assignIndex source s else s)
  else if type = 5 then
    let t := masterHears source dest body s
    if dest = wadiNode s then takeBulk body t else t
  else s

/-- The pair (epoch, counter) is later than the last one accepted from the source (R395). -/
def freshFrame (s : State) (node slot : Nat) (epoch : U16) (counter : U32) : Bool :=
  match s.wadi.replays.find? (fun r => r.node == node && r.slot == slot) with
  | none => true
  | some r => laterGen16 epoch r.epoch || (epoch == r.epoch && decide (r.counter.toNat < counter.toNat))
where
  laterGen16 (a b : U16) : Bool := 1 ≤ (a - b).toNat ∧ (a - b).toNat < 2 ^ 15

/-- The input that is decoded: the one with the highest preamble SNR among those of the coupling (R388). The first of equals is
taken, which the manual leaves open (log entry 65). -/
def bestInput (s : State) (f : WadiRx) : Option WadiHeard :=
  (f.inputs.take (wadiPorts s).length).foldl (fun b x => match b with
    | none => some x
    | some y => if y.snr < x.snr then some x else some y) none

/-- A frame whose frame control passed its CRC, decoded on one input (R392, R393, R395, R415). -/
def decodeFrame (key : BitVec 256) (f : WadiRx) (x : WadiHeard) (s : State) : State :=
  let p := x.payload
  let source := fieldN p 2 2
  let dest := fieldN p 4 2
  let slot := fieldN p 6 1
  let epoch := fieldN p 8 2
  let len := fieldN p 10 2
  let counter := fieldN p 12 4
  let mine := dest == wadiNode s
  if frameBlanked (cfgN s 0x0D03 0 0 1 8) (cfgN s 0x0D03 0 1 1 5) x.preamble x.samples then
    discardFrame true mine source slot (counter % 256) s
  else if fieldN p 0 2 ≠ wadiSite s then discardFrame false false 0 0 0 s
  else if p.length < 28 + len ∨ slice p (20 + len) 8 ≠
      wordBytes 8 (Config.gcmTag key (wadiNonce source slot epoch (BitVec.ofNat 32 counter)) (p.take (20 + len))) then
    discardFrame false mine source slot (counter % 256) s
  else if source = wadiNode s ∧ slot = wadiSlot s then
    setWadi (fun w => { w with duplicate := true })
      (log 5 0x0D 0x0D04 (leBytes 2 source ++ [byte slot, 0] ++ leBytes 4 counter ++ zeros 8) false s)
  else if !freshFrame s source slot (BitVec.ofNat 16 epoch) (BitVec.ofNat 32 counter) then
    discardFrame false false 0 0 0 s
  else
    let t := hearNode source slot (controlMode x.control) x.snr (BitVec.ofNat 16 epoch) (BitVec.ofNat 32 counter) s
    let t := if s.sun.quality.getLsbD 0 then measurePhase source (startAngle f.syncAngle.val s.sun.dialFreq) t else t
    takeFrame source slot dest (fieldN p 7 1) x.snr (slice p 20 len) t

/-- WADI_FRAME_RECEIVED (R388, R389). -/
def execWadiFrameReceived (inputs : List WadiHeard) (syncAngle : Fin 65536) (s : State) : Host.Outcome State Fault Refusal :=
  let f : WadiRx := ⟨inputs, syncAngle⟩
  .next (
    match s.cis.wadi, bestInput s f with
    | some key, some x =>
      if !wadiRuns s then s
      else if !controlOk x.control then discardFrame false false 0 0 0 s
      else decodeFrame key f x s
    | _, _ => s)

end Sys2Proof.Machine
end

