-- ==== Sys2Proof/Machine/Update.lean ====
section
/-! DEFINITION. The opcodes and events of chapter 15: writing a package (R422, R429), activating and ending a trial (R423 to
R428), engines at their safe points (R425), sowing (R430) and leaving ROM recovery (R434). -/

namespace Sys2Proof.Machine

/-! ### Writing a package (R422) -/

/-- The longest object: an APP package. -/
def longestPackage : Nat := 256 + 8323072 + 32 * 8391

/-- The bytes of an object from its start that have arrived without a gap. -/
def prefixBytes (blocks : List (Nat × List Byte)) (total : Nat) : List Byte :=
  ((List.range total).map (fun i => byteAt blocks i)).takeWhile (fun b => b.isSome) |>.filterMap id

/-- The verified blocks that a slot already holds. -/
def storedBlocks (h data : List Byte) : Nat := if data.length = fieldN h 28 4 then fieldN h 32 2 else data.length / 992

/-- A block of the object has arrived: verified data goes to the slot, a block that fails step 7 is discarded, and the
last one ends the update (R421, R422). -/
def takePackageBlock (origin : Nat) (h : List Byte) (t : Transfer) (off : Nat) (data : List Byte)
    (s : State) : State × Nat :=
  let r := fieldN h 8 1
  let b := !confirmedB s r
  let blocks := t.blocks ++ [(off, data)]
  let stream := (prefixBytes blocks t.total).drop 256
  let k := storedBlocks h (slotOf s r b).data
  let (n, bad) := verifyBlocks (fieldN h 32 2 + 1) h stream k
  let keep := if bad then [(0, h ++ stream.take (1024 * n))] else blocks
  let s1 := setSlot r b (fun x => { x with data := x.data ++ blocksData h stream k n }) s
  let s1 := setRegion r (fun x => { x with received := receivedBytes keep t.total }) s1
  if n = fieldN h 32 2 then
    let (s2, status) := completeUpdate origin h s1
    (putTransfer { t with
      blocks := [], received := t.total, status := status
      state := if status = St.ok then .applied else .refused } s2, status)
  else
    (putTransfer { t with blocks := keep, received := receivedBytes keep t.total } s1, if bad then St.checkFail else St.ok)

/-- The checks ahead of the package's own that open an update by opcode 0x0E01, in order. -/
def openChecks (s : State) (r : Request) : List Nat :=
  let p := r.payload
  [ need (fieldN p 4 4 = 0 ∧ 256 ≤ fieldN p 12 2) St.range
  , need (openTransfers s < 4) St.busy
  , need (!(s.power.phase = .recovery && s.cis.lifecycle = 4)) St.refusedState
  , need (!s.update.lock || s.power.phase = .recovery) St.locked
  , need (fieldN p (16 + 8) 1 ≤ 4) St.checkFail ]

/-- The update of a checked header opens and takes its first block. -/
def beginPackage (r : Request) (h : List Byte) (s : State) : State × Answer :=
  let p := r.payload
  let total := fieldN p 8 4
  let origin := portOrigin r.port
  let path := if s.power.phase = .recovery then 2 else 0
  match headerChecks s h with
  | some (step, st) => (logPackage origin (fieldN h 8 1) st step h s, .now st [])
  | none =>
    if total ≠ 256 + streamLength h then (logPackage origin (fieldN h 8 1) St.lenBad 5 h s, .now St.lenBad [])
    else
      let t : Transfer := { id := fieldN p 0 4, object := 0x0E01, port := r.port, total := total, blocks := []
                            received := 0, state := .receiving, status := St.ok }
      let s1 := putTransfer t (openUpdate origin path t.id h s)
      let (s2, st) := takePackageBlock origin h t 0 (slice p 16 (fieldN p 12 2)) s1
      (s2, .now st (if st = St.ok then p.take 16 else []))

/-- The first block of a new transfer (R422, R429). -/
def openPackage (r : Request) (s : State) : State × Answer :=
  let h := slice r.payload 16 256
  let reg := fieldN h 8 1
  guarded (openChecks s r) (fun s =>
    match overlap s reg (packageCounter h) (r.flags.getLsbD 2) with
    | .refused st => refuse st s
    | .opens => beginPackage r h s
    | .aborts =>
      let old := runningCounter s reg
      if (headerChecks s h).isSome ∨ fieldN r.payload 8 4 ≠ 256 + streamLength h then beginPackage r h s
      else beginPackage r h (updateLog (portOrigin r.port) 0x0E06 (2 ^ reg) ([byte reg, 0, 0, 0] ++ leBytes 4 old ++
        leBytes 4 (packageCounter h) ++ zeros 4) (abortUpdate reg s))
    | .fallsBack =>
      done (setRegion reg (fun x => { x with status := St.superseded })
        (setUpdate (fun u => { u with fallback := some 4, fallbackBy := portOrigin r.port }) s))) s

/-- A further block of a transfer that is open or has ended. -/
def continuePackage (t : Transfer) (r : Request) (s : State) : State × Answer :=
  let p := r.payload
  let data := slice p 16 (fieldN p 12 2)
  if t.state ≠ .receiving then (s, .now t.status (if t.status = St.ok then p.take 16 else []))
  else guarded [ need (t.port == r.port) St.busy, need (t.object == 0x0E01) St.checkFail
               , need (t.total == fieldN p 8 4) St.checkFail
               , need (blockAgrees t.blocks (fieldN p 4 4) data) St.checkFail ] (fun s =>
    match (List.range 5).findSome? (fun x =>
        let g := regionOf s x
        if g.transfer = t.id then g.incoming else none) with
    | none => refuse St.superseded s
    | some h =>
      let (s1, st) := takePackageBlock (portOrigin r.port) h t (fieldN p 4 4) data s
      (s1, .now st (if st = St.ok then p.take 16 else []))) s

/-- UPDATE_WRITE (R422): the block's head and its data. -/
def execUpdateWrite (head : Request) (data : List Byte) (s : State) : Host.Outcome State Fault Refusal :=
  let r := head.append data
  .next (hostRequest (opBulk 0x0E01 [clsB]) r
    (guarded (blockChecks longestPackage r.payload) (fun s =>
      match findTransfer s (fieldN r.payload 0 4) with
      | some t => continuePackage t r s
      | none => openPackage r s)) s)

/-! ### Status (R436) -/

/-- The 24 bytes of a region. -/
def regionBytes (s : State) (r : Nat) : List Byte :=
  let g := regionOf s r
  let other := otherSlot s r
  [byte (regionState s r), byte (flag (confirmedB s r)), byte g.status, 0] ++ leBytes 4 g.transfer ++ leBytes 4 g.received ++
    leBytes 4 (headerVersion (slotOf s r (confirmedB s r))) ++ leBytes 4 (headerVersion other) ++
    leBytes 4 (match g.incoming with
      | some h => packageCounter h
      | none => other.header.elim 0 packageCounter)

/-- UPDATE_STATUS (R436). -/
def execUpdateStatus (r : Request) (s : State) : Host.Outcome State Fault Refusal :=
  .next (hostRequest (opNone 0x0E02 [clsN, clsH]) r (fun s => reply
    ([byte (flag s.update.lock), byte s.update.trial.toNat, byte (failedBoots s), byte (flag (s.power.phase = .recovery))] ++
      wordBytes 4 s.update.generation ++ (List.range 5).flatMap (regionBytes s)) s) s)

/-! ### Activation (R423, R424) -/

/-- The slot of a region that would run with a mask activated. -/
def wouldRun (s : State) (mask r : Nat) : RegionSlot :=
  if mask.testBit r then otherSlot s r else slotOf s r (confirmedB s r)

/-- The images that would run meet each other's minimum versions (R419). -/
def minimumsMet (s : State) (mask : Nat) : Bool :=
  (List.range 5).all (fun r => (wouldRun s mask r).header.all (fun h =>
    (List.range 4).all (fun m => decide (fieldN h (52 + 4 * m) 4 ≤ headerVersion (wouldRun s mask m)))))

/-- The data format version that the confirmed images write: the highest that all of them have (log entry 14). -/
def formatWritten (s : State) : Option Nat :=
  ((List.range 5).filterMap (fun r => (slotOf s r (confirmedB s r)).header.map (fun h => fieldN h 70 2))).foldl
    (fun m v => some (m.elim v (min v))) none

/-- Every activated image's data format range holds that version. -/
def formatsMet (s : State) (mask : Nat) : Bool :=
  (formatWritten s).all (fun v => (regionsOf mask).all (fun r =>
    (otherSlot s r).header.all (fun h => decide (fieldN h 68 2 ≤ v) && decide (v ≤ fieldN h 70 2))))

/-- The conditions of R423 in its order; with the when-idle flag the state conditions wait. -/
def activateChecks (s : State) (mask : Nat) (whenIdle : Bool) : List Nat :=
  [ need (!s.update.lock) St.locked
  , need ((regionsOf mask).all (fun r => regionState s r == 2) && s.update.trial == 0) St.refusedState
  , need (whenIdle || stateConditions s) St.refusedState
  , need (minimumsMet s mask && formatsMet s mask) St.checkFail
  , need s.cis.migrating.isNone St.busy
  , need (!mask.testBit 1 || legalRoom s) St.noSpace ]

/-- An activation proceeds (R424): keys migrate, the directory names the trial set, and a warm reset boots it. -/
def activateNow (origin mask : Nat) (i : StartInput) (s : State) : State :=
  let t := setUpdate (fun u => { u with waiting := none, go := none }) (migrateKeys mask s)
  let t := writeDirectory (fun u => { u with trial := BitVec.ofNat 5 mask, trialStart := utcNow s }) t
  warmRestart 4 i (updateLog origin 0x0E03 mask ([byte mask, 0, 0, 0] ++ versionTriples t mask) t)

/-- ACTIVATE (R423): the warm reset follows the response. -/
def execActivate (r : Request) (i : StartInput) (s : State) : Host.Outcome State Fault Refusal :=
  let mask := fieldN r.payload 0 1
  let whenIdle := fieldN r.payload 1 1 = 1
  let t := hostRequest (opLen 0x0E03 [clsN] 4) r
    (fun s => guarded ([ need (mask ≠ 0 ∧ mask < 32 ∧ fieldN r.payload 1 1 ≤ 1) St.range, reservedOk r.payload 2 2 ] ++
        activateChecks s mask whenIdle)
      (fun s => done (setUpdate (fun u =>
        if whenIdle then { u with waiting := some mask, waitingBy := portOrigin r.port } else { u with go := some mask }) s)) s) s
  .next (match t.update.go with
    | some m => activateNow (portOrigin r.port) m i t
    | none => t)

/-- An activation that waits proceeds once the state conditions hold and every outlet is in S0 or S1 (R423). -/
def activateWaiting (i : StartInput) (s : State) : State :=
  match s.update.waiting with
  | none => s
  | some mask =>
    if domainRuns s && stateConditions s && allWaiting s && (activateChecks
        (setUpdate (fun u => { u with waiting := none }) s) mask true).all (fun c => c == St.ok) then
      activateNow s.update.waitingBy mask i s
    else s

/-- ACTIVATION_WHEN_IDLE (R423). -/
def execActivationWhenIdle (i : StartInput) (s : State) : Host.Outcome State Fault Refusal :=
  .next (activateWaiting i s)

/-- IDLE_WAIT_EXPIRY (R423): the activation ends with TIMEOUT. -/
def execIdleWaitExpiry (s : State) : Host.Outcome State Fault Refusal :=
  .next (match s.update.waiting with
    | none => s
    | some mask => (regionsOf mask).foldl (fun t r => setRegion r (fun x => { x with status := St.timeout }) t)
        (setUpdate (fun u => { u with waiting := none }) s))

/-! ### Engines at their safe points (R425) -/

/-- The place of an engine in the ENGINE region's list. -/
def enginePlace (elem : Nat) : Option Nat :=
  if 4 ≤ elem ∧ elem ≤ 7 then some (elem - 4) else if 8 ≤ elem ∧ elem ≤ 13 then some (elem - 4) else none

/-- A request of class H waits for its response (R425, HST). -/
def urgentQueued (s : State) : Bool :=
  [s.host.e0, s.host.e1, s.host.spi].any (fun o => o.progress.any (fun p => p.cls == clsH))

/-- The engine stands at its safe point. -/
def atSafePoint (s : State) (elem : Nat) : Bool :=
  if elem = Elem.fld then decide (s.reader0.state ≤ 1) && decide (s.reader1.state ≤ 1)
  else if elem = Elem.hst then openTransfers s == 0 && !urgentQueued s
  else if elem = Elem.scr then allWaiting s
  else if 4 ≤ elem ∧ elem ≤ 7 then
    outlets.all (fun o => o.val + 4 != elem || (sessOf s o).state = .s0 || outletType s o = 0)
  else true

/-- ENGINE_SAFE_POINT (R425): the engine changes to the new slot by an engine reset. -/
def execEngineSafePoint (elem : Fin 14) (s : State) : Host.Outcome State Fault Refusal :=
  .next (match enginePlace elem.val with
    | none => s
    | some p =>
      if up s && s.update.inForce.getD p false != s.update.engineB && atSafePoint s elem.val then
        engineRestart elem.val (setUpdate (fun u => { u with inForce := modifyAt u.inForce p (fun _ => u.engineB) }) s)
      else s)

/-- Every engine runs the trial ENGINE slot. -/
def enginesChanged (s : State) : Bool := s.update.inForce.all (fun b => b == s.update.engineB)

/-! ### The end of a trial (R427, R428) -/

/-- CIS raises the version floors of the images that ask for it; a floor never falls (R428). -/
def raiseFloors (mask : Nat) (s : State) : State × Nat :=
  (regionsOf mask).foldl (fun acc r =>
    match (otherSlot acc.1 r).header with
    | none => acc
    | some h =>
      let v := min 1024 (fieldN h 16 2)
      if (fieldN h 9 1).testBit 1 ∧ acc.1.otp.floors.getD r 0 < v then
        ({ acc.1 with otp := { acc.1.otp with floors := modifyAt acc.1.otp.floors r (fun _ => v) } }, acc.2 + 2 ^ r)
      else acc) (s, 0)

/-- The trial slots become confirmed (R427). -/
def confirmTrial (origin : Nat) (s : State) : State :=
  let mask := s.update.trial.toNat
  let versions := versionTriples s mask
  let (t, raised) := raiseFloors mask s
  let t := keysConfirm mask (writeDirectory (fun u => { u with
    confirmed := u.confirmed ^^^ u.trial, trial := 0, trialStart := none, fallback := none }) t)
  updateLog origin 0x0E04 mask ([byte mask, byte raised, 0, 0] ++ versions) t

/-- CONFIRM (R427, R425). -/
def execConfirm (r : Request) (s : State) : Host.Outcome State Fault Refusal :=
  let mask := fieldN r.payload 0 1
  .next (hostRequest (opLen 0x0E04 [clsN] 4) r
    (fun s => guarded [ reservedOk r.payload 1 3, need (mask = s.update.trial.toNat) St.range
                      , need (s.update.trial ≠ 0 ∧ s.update.completed = true) St.refusedState
                      , need (!onTrial s 3 || enginesChanged s) St.refusedState ]
      (fun s => done (confirmTrial (portOrigin r.port) s)) s) s)

/-- A fallback that waits goes through by a warm reset once the state conditions hold (R427). -/
def runFallback (i : StartInput) (s : State) : State :=
  match s.update.fallback with
  | some cause => if stateConditions s then warmRestart 4 i (fallBackTrial s.update.fallbackBy cause s) else s
  | none => s

/-- REJECT (R427, R436). -/
def execReject (r : Request) (i : StartInput) (s : State) : Host.Outcome State Fault Refusal :=
  let mask := fieldN r.payload 0 1
  .next (runFallback i (hostRequest (opLen 0x0E05 [clsN] 4) r
    (fun s => guarded [ reservedOk r.payload 1 3
                      , need (s.update.trial ≠ 0 ∧ mask = s.update.trial.toNat) St.refusedState ]
      (fun s => done (setUpdate (fun u => { u with fallback := some 2, fallbackBy := portOrigin r.port }) s)) s) s))

/-- TRIAL_LIMIT_EXPIRY (R425, R427): policy 2 confirms, unless an engine still runs the old slot; else the trial falls
back. -/
def execTrialLimitExpiry (i : StartInput) (s : State) : Host.Outcome State Fault Refusal :=
  .next (
    if s.update.trial = 0 ∨ up s = false then s
    else if cfgN s 0x0E01 0 0 1 1 = 2 ∧ s.update.completed = true ∧ (onTrial s 3 = false ∨ enginesChanged s = true) then
      confirmTrial 0 s
    else runFallback i (setUpdate (fun u => { u with fallback := some 3, fallbackBy := 0 }) s))

/-! ### The owner lock and sowing (R428, R430, R436) -/

/-- OWNER_LOCK (R428). -/
def execOwnerLock (r : Request) (s : State) : Host.Outcome State Fault Refusal :=
  let v := fieldN r.payload 0 1
  .next (hostRequest (opLen 0x0E07 [clsN] 4) r
    (guarded [need (v ≤ 1) St.range, reservedOk r.payload 1 3]
      (fun s => done (writeDirectory (fun u => { u with lock := v == 1 }) s))) s)

/-- The node IDs of opcode 0x0E06. -/
def sowNodes (p : List Byte) : List Nat := (List.range (fieldN p 4 2)).map (fun i => fieldN p (8 + 2 * i) 2)

/-- The sowing that a master starts (R430): it holds the whole stream. -/
def newSowing (p h data : List Byte) : Sowing :=
  let nodes := sowNodes p
  let stream := blockStream data
  { id := packageCounter h, region := fieldN p 0 1, slot := fieldN p 1 1, policy := fieldN p 2 1, master := true
    running := true
    targets := (List.range nodes.length).map (fun i => ⟨nodes.getD i 0, 0xFF, i + 1, 0⟩)
    header := h, stream := stream, verified := stream.length, ahead := [], next := nodes.headD 0, position := 0
    headerSent := 0, storing := false, status := St.ok, turn := 0 }

/-- SOW (R430). -/
def execSow (r : Request) (s : State) : Host.Outcome State Fault Refusal :=
  let p := r.payload
  let slot := fun (s : State) => slotOf s (fieldN p 0 1) (fieldN p 1 1 = 1)
  .next (hostRequest ⟨0x0E06, [clsN], false, fun n => decide (8 ≤ n) && n == 8 + 2 * fieldN p 4 2⟩ r
    (fun s => guarded [ need (fieldN p 0 1 ≤ 4 ∧ fieldN p 1 1 ≤ 1 ∧ fieldN p 2 1 ≤ 1) St.range, reservedOk p 3 1
                      , need (fieldN p 4 2 ≠ 0) St.lenZero, need (fieldN p 4 2 ≤ 64) St.range, reservedOk p 6 2
                      , need ((sowNodes p).all (fun n => 1 ≤ n && n ≤ 65534)) St.range
                      , need (s.wadi.role = 4) St.refusedState
                      , need ((slot s).header.isSome) St.refusedState
                      , need (!s.update.sowing.any (fun x => x.running)) St.busy ]
      (fun s => match (slot s).header with
        | some h => done (setUpdate (fun u => { u with sowing := some (newSowing p h (slot s).data) }) s)
        | none => refuse St.refusedState s) s) s)

/-- SOWING_STATUS (R436). -/
def execSowingStatus (r : Request) (s : State) : Host.Outcome State Fault Refusal :=
  .next (hostRequest (opNone 0x0E09 [clsN, clsB]) r (fun s =>
    let l := s.update.sowing.elim [] (fun x => x.targets)
    reply (leBytes 2 l.length ++ [0, 0] ++
      l.flatMap (fun t => leBytes 2 t.node ++ [byte t.status, byte t.hop] ++ leBytes 4 t.held)) s) s)

/-! ### ROM recovery (R434) -/

/-- The regions written in recovery, which boot as one trial set. -/
def recoveredMask (s : State) : Nat :=
  sumNat ((List.range 5).map (fun r =>
    if (regionOf s r).path = 2 ∧ (otherSlot s r).header.isSome ∧ (regionOf s r).incoming = none then 2 ^ r else 0))

/-- The warm reset that leaves recovery, without migration. -/
def leaveRecovery (i : StartInput) (s : State) : State :=
  let mask := recoveredMask s
  let t := if mask = 0 then s
    else writeDirectory (fun u => { u with trial := BitVec.ofNat 5 mask, trialStart := utcNow s }) s
  warmRestart 10 i (setUpdate (fun u => { u with go := none }) t)

/-- RECOVERY_EXIT (R434): in recovery only. -/
def execRecoveryExit (r : Request) (i : StartInput) (s : State) : Host.Outcome State Fault Refusal :=
  let t := hostRequest (opNone 0x0E08 [clsN]) r
    (guarded [need (s.power.phase = .recovery) St.refusedState]
      (fun s => done (setUpdate (fun u => { u with go := some 0 }) s))) s
  .next (if t.update.go.isSome then leaveRecovery i t else t)

/-- RECOVERY_TIMEOUT (R434): 30 min without a packet. -/
def execRecoveryTimeout (i : StartInput) (s : State) : Host.Outcome State Fault Refusal :=
  .next (if s.power.phase = .recovery then leaveRecovery i s else s)

end Sys2Proof.Machine
end

