-- ==== Sys2Proof/Machine/Power.lean ====
section
/-! DEFINITION. Power states, resets and the reset button (chapter 18): HOLD and its ends (R473, R474), power-on and
brown-out (R475, R476), orderly resets and the shutdown (R478, R479), IDLE, the button (R484) and the opcodes (R487). -/

namespace Sys2Proof.Machine

/-! ### HOLD (R119, R473, R474) -/

/-- Entry 0x1102. -/
def logPower (old new : PowerState) (s : State) : State :=
  log 0 0x11 0x1102 ([byte old.code, byte new.code, 0, 0] ++ leBytes 4 s.power.v24 ++ zeros 8) false s

/-- The outlets that HOLD cuts: S4 to S7. -/
def cutMarks (s : State) : PerOutlet Bool :=
  perOutlet (fun o => 4 ≤ (sessOf s o).state.code && (sessOf s o).state.code ≤ 7)

/-- The pilots go to 0 V; what is commanded stays. -/
def pilotsOff (s : State) : State := forOutlets (fun o t => applyGen o .zero t) s

/-- The supply has fallen below 16 V. -/
def supplyLost (v24 : Nat) (s : State) : State :=
  setPower (fun p => { p with state := .hold, v24 := v24, lowest24 := v24 }) s

/-- HOLD entry of a started module. -/
def enterHold (v24 : Nat) (s : State) : State :=
  let marks := cutMarks s
  let t := ledgerEnd 0x07 (writeMarker (supplyLost v24 s))
  let t := spoilDemand 1 (displayStop (pilotsOff (setPower (fun p => { p with cut := marks }) t)))
  logPower s.power.state .hold t

/-- HOLD_ENTRY (R119, R473, R474). A Rake stops at once and writes no signature (R464). -/
def execHoldEntry (v24 : Nat) (s : State) : Host.Outcome State Fault Refusal :=
  .next (
    if s.power.state ≠ .run ∧ s.power.state ≠ .idle then s
    else if up s then enterHold v24 s
    else if s.power.phase = .rake then
      setPower (fun p => { p with phase := .unpowered })
        (setRake (fun k => { k with left := [], results := [] }) (supplyLost v24 s))
    else if s.power.phase = .recovery then ledgerEnd 0x07 (supplyLost v24 s)
    else supplyLost v24 s)

/-- The return of a started module to RUN: pilots at their commanded output, cause 15 for the outlets marked cut. -/
def leaveHold (v24 : Nat) (s : State) : State :=
  let marks := s.power.cut
  let t := setPower (fun p => { p with state := .run, v24 := v24, cut := .all false }) s
  let t := logPower .hold .run (displayStart (setEnergy (fun e => { e with markState := 0, tail := false }) t))
  let t := forOutlets (fun o u => applyGen o (u.link.get o).commanded (setLink o (fun l => { l with test := false }) u)) t
  settle (forOutlets (fun o u => if marks.get o then giveCause o 15 u else u) t)

/-- HOLD_RETURN (R473, R474). A module whose Rake was stopped starts again, and so does one that was shut down (R479). -/
def execHoldReturn (v24 : Nat) (s : State) : Host.Outcome State Fault Refusal :=
  let t := setPower (fun p => { p with v24 := v24 }) s
  .next (
    if s.power.state ≠ .hold then s
    else if up s then leaveHold v24 s
    else if s.power.phase = .unpowered then fullRestart 9 s.power.straps s.power.recover t
    else if s.power.phase = .shutDown then fullRestart 1 s.power.straps s.power.recover t
    else setPower (fun p => { p with state := .run }) t)

/-- Of the entries made in HOLD, those beyond the first 64 may be lost at holdup end; how many is open (R60). -/
def loseEntries (s : State) : State :=
  let k := min (Config.freeNat s.freeCount) (s.logs.inHold - 64)
  draw { s with logs := { s.logs with general := s.logs.general.drop k, lost := k } }

/-- HOLDUP_END (R473): to BATTERY with VBAT at 2.0 V or above, else to OFF. -/
def execHoldupEnd (vbat : Nat) (s : State) : Host.Outcome State Fault Refusal :=
  .next (
    if s.power.state ≠ .hold then s
    else
      let t := powerDown .unpowered (if up s then loseEntries s else s)
      let t := setPower (fun p => { p with state := if 200 ≤ vbat then .battery else .off, vbat := vbat }) t
      if 200 ≤ vbat then t else loseRetention t)

/-- VBAT_LOSS (R473): in BATTERY, VBAT has fallen below 2.0 V. -/
def execVbatLoss (vbat : Nat) (s : State) : Host.Outcome State Fault Refusal :=
  .next (
    if s.power.state = .battery then loseRetention (setPower (fun p => { p with state := .off, vbat := vbat }) s) else s)

/-- VBAT_LOW (R473): VBAT is measured; below 2.6 V it sets the flag. -/
def execVbatLow (v : Nat) (s : State) : Host.Outcome State Fault Refusal :=
  let low := decide (v < 260)
  let t := setPower (fun p => { p with vbat := v, vbatLow := low }) s
  .next (
    if up s ∧ low = true ∧ s.power.vbatLow = false then
      log 0 0x11 0x1104 (byte 3 :: zeros 3 ++ leBytes 4 v ++ zeros 8) false t
    else t)

/-! ### Power-on and brown-out (R475, R476) -/

/-- POWER_ON_RESET (R473, R475): in BATTERY and OFF. -/
def execPowerOnReset (v24 vbat : Nat) (straps : Slot) (recover buttonPressed : Bool) (s : State) :
    Host.Outcome State Fault Refusal :=
  .next (
    if s.power.state = .battery ∨ s.power.state = .off then
      fullRestart 1 straps recover (setPower (fun p => { p with
        v24 := v24, vbat := vbat, vbatLow := decide (vbat < 260), pressed := buttonPressed, stuck := false }) s)
    else s)

/-- The module is supplied: RUN, IDLE or HOLD. -/
def supplied (s : State) : Bool := s.power.state ≠ .battery && s.power.state ≠ .off

/-- BROWN_OUT (R476). -/
def execBrownOut (cause : BrownOutCause) (s : State) : Host.Outcome State Fault Refusal :=
  .next (match cause with
    | .rail => if supplied s then fullRestart 2 s.power.straps s.power.recover s else s
    | .pll => if supplied s then fullRestart 3 s.power.straps s.power.recover s else s
    | .holdup => if s.power.state = .hold ∧ up s = true ∧ s.energy.tail = true then
        fullRestart 2 s.power.straps s.power.recover s else s)

/-- PLL_LOCK_WAIT_EXPIRY (R476): still no lock, and a further brown-out reset. -/
def execPllLockWaitExpiry (s : State) : Host.Outcome State Fault Refusal :=
  .next (if s.power.phase = .pllWait then fullRestart 3 s.power.straps s.power.recover s else s)

/-- HOLDUP_CHARGED (R475, steps 2 to 5). -/
def execHoldupCharged (i : StartInput) (s : State) : Host.Outcome State Fault Refusal :=
  .next (
    if (s.power.phase = .charging ∨ s.power.phase = .pllWait) ∧ s.power.state = .run then
      startTested i (setPower (fun p => { p with charged := true }) s)
    else s)

/-- HOLDUP_CHARGE_TIMEOUT (R488). -/
def execHoldupChargeTimeout (v : Nat) (s : State) : Host.Outcome State Fault Refusal :=
  .next (if s.power.phase = .charging ∧ s.power.charged = false then
      log 0 0x11 0x1104 (byte 1 :: zeros 3 ++ leBytes 4 v ++ zeros 8) false s
    else s)

/-- BOOT_TIMEOUT (R418): 30 s without a complete boot. -/
def execBootTimeout (i : StartInput) (s : State) : Host.Outcome State Fault Refusal :=
  .next (
    if (s.power.phase = .booting ∨ s.power.phase = .bootFailed) ∧ s.power.state ≠ .hold then warmRestart 7 i s else s)

/-! ### Orderly resets (R478) -/

/-- Every session that an orderly reset waits for has ended. -/
def sessionsEnded (s : State) : Bool := allSess s (fun x => x = .s0 || x = .s1 || x = .s9 || x = .se)

/-- Every outlet in S2 to S8 takes cause 9. -/
def endSessions (s : State) : State :=
  settle (forOutlets (fun o t => if (sessOf t o).state.running then giveCause o 9 t else t) s)

/-- A reset or a shutdown is pending. -/
def resetPending (s : State) : Bool := s.power.orderly.isSome || s.power.shutting

/-- A press asks for an orderly reset; while one is pending it changes nothing. -/
def askByButton (recovery : Bool) (s : State) : State :=
  if resetPending s then s else endSessions (setPower (fun p => { p with orderly := some (recovery, true) }) s)

/-- A recovery entry that is pending happens. -/
def recoveryReset (s : State) : State :=
  match s.power.orderly with
  | some (true, button) => fullRestart 8 s.power.straps s.power.recover (setPower (fun p => { p with byButton := button }) s)
  | _ => s

/-- The pending reset happens. -/
def orderlyReset (i : StartInput) (s : State) : State :=
  match s.power.orderly with
  | some (false, button) => warmRestart (if button then 5 else 4) i s
  | _ => recoveryReset s

/-- WARM_RESET (R476, R478): each source, once what it waits for is there. -/
def execWarmReset (cause : WarmCause) (i : StartInput) (s : State) : Host.Outcome State Fault Refusal :=
  .next (match cause with
    | .opcode => if awake s ∧ sessionsEnded s = true ∧ s.power.orderly = some (false, false) then orderlyReset i s else s
    | .button => if awake s ∧ sessionsEnded s = true ∧ s.power.orderly = some (false, true) then orderlyReset i s else s
    | .restartFailed => if domainRuns s then warmRestart 6 i s else s
    | .bootTimeout =>
      if (s.power.phase = .booting ∨ s.power.phase = .bootFailed) ∧ s.power.state ≠ .hold then warmRestart 7 i s else s
    | .recoveryExit => if s.power.phase = .recovery then leaveRecovery i s else s
    | .activation => activateWaiting i s
    | .fallback => if domainRuns s then runFallback i s else s)

/-- ORDERLY_RESET_TIMEOUT (R478): 10 s after the request. -/
def execOrderlyResetTimeout (i : StartInput) (s : State) : Host.Outcome State Fault Refusal :=
  .next (
    if awake s = false then s
    else if s.power.orderly.isSome then orderlyReset i s
    else if s.power.shutting then setPower (fun p => { p with expired := true }) s
    else s)

/-- RECOVERY_ENTRY (R434): by the button once sessions have ended, or found by ROM during a boot. -/
def execRecoveryEntry (cause : RecoveryCause) (s : State) : Host.Outcome State Fault Refusal :=
  .next (match cause with
    | .button => if awake s ∧ sessionsEnded s = true then recoveryReset s else s
    | .strap => if s.power.phase = .booting ∨ s.power.phase = .bootFailed then enterRecovery false 1 (nominalFreq s) s else s
    | .failedBoots => if s.power.phase = .bootFailed ∧ 1 ≤ failedBoots s ∧ s.update.trial = 0 then
        enterRecovery false 3 (nominalFreq s) (ledgerStart s) else s)

/-! ### IDLE (R473) -/

/-- The conditions of IDLE but for its delay. -/
def idleConditions (s : State) : Bool := allIdle s && openTransfers s == 0 && noUpdate s

/-- IDLE_ENTRY (R473). -/
def execIdleEntry (s : State) : Host.Outcome State Fault Refusal :=
  .next (
    if s.power.state = .run ∧ s.power.phase = .running ∧ idleConditions s = true then
      logPower .run .idle (setPower (fun p => { p with state := .idle }) s)
    else s)

/-- IDLE_EXIT (R473). -/
def execIdleExit (s : State) : Host.Outcome State Fault Refusal :=
  .next (
    if s.power.state = .idle ∧ idleConditions s = false then
      logPower .idle .run (setPower (fun p => { p with state := .run }) s)
    else s)

/-! ### The reset button (R484, R486) -/

/-- Button mode of record 0x1101. -/
def buttonMode (s : State) : Nat := cfgN s 0x1101 0 0 1 1

/-- Presses have no effect: HOLD, BATTERY, OFF, a Rake. -/
def buttonDead (s : State) : Bool :=
  s.power.state = .hold || s.power.state = .battery || s.power.state = .off || s.power.phase = .rake

/-- RESET_BUTTON_PRESS (R484). -/
def execResetButtonPress (s : State) : Host.Outcome State Fault Refusal :=
  let t := setPower (fun p => { p with pressed := true, stuck := false }) s
  .next (
    if buttonDead s then s
    else if s.power.phase = .shutDown then fullRestart 1 s.power.straps s.power.recover t
    else t)

/-- Entry 0x1103. -/
def logButton (held action : Nat) (s : State) : State :=
  log 0 0x11 0x1103 (leBytes 4 held ++ byte action :: zeros 11) false s

/-- What a release does by the time held (ms) and the button mode. -/
def releaseEffect (held : Nat) (s : State) : State :=
  if s.power.phase = .recovery then
    if 5000 ≤ held ∧ held ≤ 10000 then
      fullRestart 8 s.power.straps s.power.recover (setPower (fun p => { p with byButton := true }) s)
    else s
  else if !up s || buttonMode s == 3 then s
  else if held < 2000 then (if buttonMode s = 1 then askByButton false s else s)
  else if held < 5000 then logButton held 0 s
  else if held ≤ 10000 then askByButton true s
  else if held < 30000 then logButton held 0 s
  else s

/-- RESET_BUTTON_RELEASE (R484): after a stuck press the release only re-arms the button. -/
def execResetButtonRelease (held : Nat) (s : State) : Host.Outcome State Fault Refusal :=
  let t := setPower (fun p => { p with pressed := false, stuck := false }) s
  .next (
    if s.power.pressed = false then s
    else if s.power.stuck || buttonDead s then t
    else releaseEffect held t)

/-- RESET_BUTTON_STUCK (R484): the press has reached 30 s. -/
def execResetButtonStuck (s : State) : Host.Outcome State Fault Refusal :=
  .next (
    if awake s ∧ s.power.pressed = true ∧ s.power.stuck = false then
      logButton 30000 1 (setPower (fun p => { p with stuck := true }) s)
    else s)

/-! ### Opcodes (R487) -/

/-- The payload of opcode 0x1101. -/
def powerBytes (s : State) : List Byte :=
  let p := s.power
  [byte p.state.code, byte p.cause] ++ leBytes 2 p.warmResets ++ leBytes 4 p.v24 ++ leBytes 2 p.vbat ++
    [byte (flag p.charged), byte (flags [p.vbatLow, p.retentionAtStart, p.stuck, resetPending s])] ++
    leBytes 4 ((s.clockMs - p.startMs) / 1000) ++ leBytes 4 (utcField p.startUtc)

/-- POWER_STATUS (R487). -/
def execPowerStatus (r : Request) (s : State) : Host.Outcome State Fault Refusal :=
  .next (hostRequest (opNone 0x1101 [clsN, clsH]) r (fun s => reply (powerBytes s) s) s)

/-- RESET (R478, R487): the response goes out before the sessions end. -/
def execReset (r : Request) (s : State) : Host.Outcome State Fault Refusal :=
  let p := r.payload
  let t := hostRequest (opLen 0x1102 [clsN] 4) r
    (fun s => guarded [need (fieldN p 0 1 ≤ 1) St.range, reservedOk p 1 3, need (!resetPending s) St.busy]
      (fun s => done (setPower (fun x => { x with orderly := some (fieldN p 0 1 == 1, false) }) s)) s) s
  .next (if s.power.orderly.isNone && t.power.orderly.isSome then endSessions t else t)

/-- SHUTDOWN (R479, R487). -/
def execShutdown (r : Request) (s : State) : Host.Outcome State Fault Refusal :=
  let p := r.payload
  let t := hostRequest (opLen 0x1103 [clsN] 4) r
    (fun s => guarded [ need (fieldN p 0 1 ≤ 1) St.range, reservedOk p 1 3, need (!resetPending s) St.busy
                      , need (fieldN p 0 1 = 1 ∨ allSess s (fun x => !x.running)) St.refusedState ]
      (fun s => done (setPower (fun x => { x with shutting := true, expired := false }) s)) s) s
  .next (if !s.power.shutting && t.power.shutting then endSessions t else t)

/-- The shutdown proceeds in the order of R479. -/
def shutDown (w : WindowInput) (last : Fin 256) (k : RakeOutcome) (s : State) : State :=
  let six := k.groups ++ List.replicate (6 - k.groups.length) 3
  let t := snapshotAll (partialCommit w last (dialAtLeast (last.val * 256) s))
  let t := displayStop (saveStress k.saveOk (writeAccountStore t))
  let t := setRake (fun x => { x with unlogged := true, measured := some (k.duration, k.peak) }) (noteResults 0 (six.take 6) t)
  powerDown .shutDown t

/-- SHUTDOWN_SEQUENCE (R479): once sessions have ended, or 10 s after the request. -/
def execShutdownSequence (w : WindowInput) (lastSample : Fin 256) (k : RakeOutcome) (s : State) :
    Host.Outcome State Fault Refusal :=
  .next (
    if domainRuns s && s.power.shutting && (sessionsEnded s || s.power.expired) then shutDown w lastSample k s else s)

end Sys2Proof.Machine
end

