-- ==== Sys2Proof/Machine/Switch.lean ====
section
/-! DEFINITION. The commands of chapter 09 (R244 to R260): commanded states, short, over-current, temperature, open load, group
limit, supply dips, and the chapter's opcodes. -/

namespace Sys2Proof.Machine

/-- A change in the switch controller, and all that follows from it. -/
def switchStep (f : State → State) (s : State) : Host.Outcome State Fault Refusal := .next (if up s then settle (f s) else s)

/-! ### Commands and latches (R244, R247 to R250) -/

/-- CHANNEL_COMMAND_WRITE (R244). -/
def execChannelCommandWrite (ch : SwCh) (on : Bool) (s : State) : Host.Outcome State Fault Refusal :=
  switchStep (fun s => if domainRuns s then commandChannel ch.val on s else s) s

/-- A latched contactor channel takes Scarecrow's permit from its outlet (R249). -/
def reportLatch (i : Nat) (s : State) : State :=
  if i < 8 then setScr (contactorOutlet i) (fun c => { c with cut := true, permit := false }) s else s

/-- A channel latches off and is reported. -/
def tripChannel (i cause : Nat) (sample dT : List Byte) (s : State) : State := reportLatch i (latchChannel i cause sample dT s)

/-- CHANNEL_SHORT (R247): the last normal-path sample, mA. The temperature in the entry is open. -/
def execChannelShort (ch : SwCh) (sample : Nat) (s : State) : Host.Outcome State Fault Refusal :=
  switchStep (fun s =>
    if (chanSw s ch.val).on then draw (tripChannel ch.val 1 (leBytes 4 sample) (openField 1 s) s) else s) s

/-- Over-current samples N and the thermal restart count (R258). -/
def overSamples (s : State) : Nat := cfgN s 0x0802 0 0 1 3
def restartCount (s : State) : Nat := cfgN s 0x0802 0 1 1 8

/-- The threshold in force, mA: the inrush threshold inside the window (R248). -/
def chanThreshold (s : State) (i : Nat) : Nat := if (chanSw s i).inrush then chanField s i 6 2 else chanField s i 4 2

/-- One normal-path sample of a channel that is on, mA: N in a row at or above the threshold in force latch it off. -/
def takeNormal (i : Nat) (s : State) (sample : Nat) : State :=
  let x := chanSw s i
  if !x.on then s
  else if sample < chanThreshold s i then setChanSw i (fun x => { x with overCount := 0 }) s
  else if overSamples s ≤ x.overCount + 1 then draw (tripChannel i 2 (leBytes 4 sample) (openField 1 s) s)
  else setChanSw i (fun x => { x with overCount := x.overCount + 1 }) s

/-- CHANNEL_OVERCURRENT (R248): normal-path samples in a row, mA, all taken on one side of the window's end. -/
def execChannelOvercurrent (ch : SwCh) (samples : List Nat) (s : State) : Host.Outcome State Fault Refusal :=
  switchStep (fun s => samples.foldl (takeNormal ch.val) s) s

/-- INRUSH_WINDOW_END (R248): samples taken in the window do not count after it. -/
def execInrushWindowEnd (ch : SwCh) (s : State) : Host.Outcome State Fault Refusal :=
  .next (setChanSw ch.val (fun x =>
    if x.inrush then { x with inrush := false, overCount := 0, inrushEnd := s.clockMs } else x) s)

/-! ### Temperature (R251) -/

/-- A switch-off is consecutive: the channel had been on again for less than 10 s. -/
def consecutive (s : State) (x : Switch) : Bool := x.onSince.any (fun t => decide (s.clockMs < t + 10000))

/-- CHANNEL_THERMAL (R251): Tj − Tcase and Tj, K and °C. The sample in a latch's entry is open. -/
def execChannelThermal (ch : SwCh) (dT tj : Int) (s : State) : Host.Outcome State Fault Refusal :=
  switchStep (fun s =>
    let x := chanSw s ch.val
    if x.on ∧ ((chanField s ch.val 13 1 : Int) < dT ∨ 150 ≤ tj) then
      let n := if consecutive s x then x.restarts + 1 else 0
      let t := setChanSw ch.val (fun x => { x with thermal := true, restarts := n }) s
      if restartCount s ≤ n then draw (tripChannel ch.val 3 (openField 4 s) (leInt 1 dT) t)
      else setChanSw ch.val (fun x => { x with on := false, inrush := false, overCount := 0 }) t
    else s) s

/-- THERMAL_RESTART (R251). -/
def execThermalRestart (ch : SwCh) (dT tj : Int) (s : State) : Host.Outcome State Fault Refusal :=
  switchStep (fun s =>
    if (chanSw s ch.val).thermal ∧ dT ≤ (chanField s ch.val 13 1 : Int) - 15 ∧ tj ≤ 135 then
      setChanSw ch.val (fun x => { x with thermal := false, onSince := some s.clockMs }) s
    else s) s

/-! ### Open load (R252) -/

/-- What a current in µA reads in a channel's range (R246): code and SAT. The rounding is open (log entry 6). -/
def currentCode (s : State) (i microamps : Nat) : Nat × Bool :=
  if chanField s i 9 1 = 1 then
    if 64000 < microamps then (16383, true) else (min 16383 (openRound ((microamps : Rat) * 256 / 1000)).toNat, false)
  else (min 16383 (openRound ((microamps : Rat) / 1000)).toNat, false)

/-- The current that a reading shows, µA. -/
def shownCurrent (s : State) (i microamps : Nat) : Nat :=
  if chanField s i 9 1 = 1 then (if 64000 < microamps then 64000 else microamps) else min 16383000 microamps

/-- Open-load detection runs on a channel (R252); the supply voltage VSWg in 10 mV. -/
def openLoadRuns (s : State) (i supply : Nat) : Bool :=
  let x := chanSw s i
  chanField s i 10 2 != 0 && x.on && !x.inrush && decide (x.inrushEnd + cfgN s 0x0802 0 4 2 100 ≤ s.clockMs) &&
    decide (1600 ≤ supply)

/-- The open-load threshold, µA. -/
def openLoadLimit (s : State) (i : Nat) : Nat := 100 * chanField s i 10 2

/-- OPEN_LOAD changes, with entry 0x0802. -/
def putOpenLoad (i mean : Nat) (v : Bool) (s : State) : State :=
  log 0 0x08 0x0802 ([byte i, byte (flag v), 0, 0] ++ leBytes 4 mean ++ zeros 8) false
    (setChanSw i (fun x => { x with openLoad := v }) s)

/-- OPEN_LOAD_SET (R252): the 100 ms mean, µA, has been below the threshold for the open-load time, and VSWg, 10 mV. A mean
with SAT is never below it. -/
def execOpenLoadSet (ch : SwCh) (m : LoadMean) (s : State) : Host.Outcome State Fault Refusal :=
  .next (
    if up s ∧ openLoadRuns s ch.val m.supply ∧ (chanSw s ch.val).openLoad = false ∧ (currentCode s ch.val m.mean).2 = false ∧
        shownCurrent s ch.val m.mean < openLoadLimit s ch.val then putOpenLoad ch.val (shownCurrent s ch.val m.mean) true s
    else s)

/-- OPEN_LOAD_CLEAR (R252): the mean has been at or above 1.25 × the threshold for 100 ms. -/
def execOpenLoadClear (ch : SwCh) (m : LoadMean) (s : State) : Host.Outcome State Fault Refusal :=
  .next (
    if up s ∧ openLoadRuns s ch.val m.supply ∧ (chanSw s ch.val).openLoad ∧
        5 * openLoadLimit s ch.val ≤ 4 * shownCurrent s ch.val m.mean then
      putOpenLoad ch.val (shownCurrent s ch.val m.mean) false s
    else s)

/-! ### Groups (R253, R254) -/

/-- The group limit, mA. -/
def groupLimit : Nat := 10000

/-- The channel that a group sheds next. -/
def shedChannel (s : State) (g : Nat) : Option Nat :=
  [4 * g + 3, 4 * g + 2, 4 * g + 1, 4 * g].find? (fun i => (chanSw s i).on && !safetyRelated s i)

/-- Put GROUP_OVER of a group. -/
def putOver (g : Nat) (v : Bool) (s : State) : State :=
  setSw (fun w => { w with overFlags := modifyAt w.overFlags g (fun _ => v) }) s

/-- One group's check: G0 and G1 report, G2 and G3 shed at once and after each further 10 checks. -/
def checkGroup (g mean : Nat) (s : State) : State :=
  let n := s.sw.overChecks.getD g 0
  let t := setSw (fun w => { w with means := modifyAt w.means g (fun _ => mean) }) s
  let put (k : Nat) (t : State) : State := setSw (fun w => { w with overChecks := modifyAt w.overChecks g (fun _ => k) }) t
  if mean ≤ groupLimit then put 0 (putOver g false t)
  else if g < 2 then
    let t := putOver g true t
    if s.sw.overFlags.getD g false then t
    else log 0 0x08 0x0803 ([byte g, 0, 0, 0] ++ leBytes 4 mean ++ zeros 8) false t
  else if n = 0 ∨ n = 10 then
    match shedChannel s g with
    | some i => draw (draw (latchChannel i 4 (openField 4 t) (openField 1 (draw t)) (put 1 t)))
    | none => put 1 (putOver g true t)
  else put (n + 1) t

/-- GROUP_MEAN_CHECK (R253): the 1 s means, mA. -/
def execGroupMeanCheck (g0 g1 g2 g3 : Nat) (s : State) : Host.Outcome State Fault Refusal :=
  switchStep (fun s => checkGroup 3 g3 (checkGroup 2 g2 (checkGroup 1 g1 (checkGroup 0 g0 s)))) s

/-- Change every channel of a group. -/
def forGroup (g : Nat) (f : Nat → Switch → Switch) (s : State) : State :=
  setSw (fun w => { w with chans := w.chans.mapIdx (fun i x => if groupOf i = g then f i x else x) }) s

/-- Entry 0x0804. -/
def logSupply (g : Nat) (release : Bool) (lowest : Nat) (s : State) : State :=
  log 0 0x08 0x0804 ([byte g, byte (flag release), 0, 0] ++ leBytes 4 lowest ++ zeros 8) false s

/-- UNDERVOLTAGE_RELEASE (R254): VSWg has been below 6.0 V for more than 1 ms, 10 mV. -/
def execUndervoltageRelease (g : Fin 4) (v : Nat) (s : State) : Host.Outcome State Fault Refusal :=
  switchStep (fun s =>
    if 600 ≤ v then s
    else
      let was := s.sw.released.getD g.val false
      let low := if was then min v (s.sw.lowest.getD g.val v) else v
      let t := forGroup g.val (fun i x => { x with
          undervoltage := true, on := false, inrush := false, needsCycle := x.needsCycle || (decide (i < 8) && x.commanded) })
        (setSw (fun w => { w with
          released := modifyAt w.released g.val (fun _ => true), lowest := modifyAt w.lowest g.val (fun _ => low) }) s)
      if was then t else logSupply g.val true low t) s

/-- UNDERVOLTAGE_RETURN (R254): VSWg has risen above 7.0 V. A contactor channel waits for its request to be made again. -/
def execUndervoltageReturn (g : Fin 4) (v : Nat) (s : State) : Host.Outcome State Fault Refusal :=
  switchStep (fun s =>
    if v ≤ 700 ∨ s.sw.released.getD g.val false = false then s
    else
      logSupply g.val false (s.sw.lowest.getD g.val 0)
        (forGroup g.val (fun i x => { x with undervoltage := decide (i < 8) && x.commanded })
          (setSw (fun w => { w with released := modifyAt w.released g.val (fun _ => false) }) s))) s

/-! ### Opcodes (R259, R260) -/

/-- A measured value that no command brings: free (log entry 23). -/
def openAt (n k : Nat) (s : State) : List Byte := leBytes n (Config.freeNat (s.freeCount + k))

/-- Several free values are drawn. -/
def drawMany (n : Nat) (s : State) : State := { s with freeCount := s.freeCount + n }

/-- The 100 ms mean current of a channel, µA: no command brings it (log entry 23). -/
def chanCurrent (s : State) (i : Nat) : Nat := Config.freeNat (s.freeCount + 2 + 2 * i)

/-- The flags of a channel (R260). SAT follows the current (R246). -/
def chanFlags (s : State) (i : Nat) : Nat :=
  let x := chanSw s i
  flags [x.on, x.overcur, x.short, x.thermal, x.thermalLatch, x.openLoad, x.undervoltage, hedgeOff s i, scrOff s i, x.inrush,
    (currentCode s i (chanCurrent s i)).2, x.shed]

/-- The response of opcode 0x0801. -/
def switchStatusBytes (s : State) : List Byte :=
  openAt 4 0 s ++ openAt 2 1 s ++ [byte (flags s.sw.overFlags), 0] ++ s.sw.means.flatMap (fun m => leBytes 2 (min m 65535)) ++
    (List.range 16).flatMap (fun i =>
      [byte (flag (chanSw s i).commanded), 0] ++ leBytes 2 (chanFlags s i) ++
        leBytes 4 (shownCurrent s i (chanCurrent s i)) ++ openAt 1 (3 + 2 * i) s ++ zeros 3)

/-- SWITCH_STATUS (R260). -/
def execSwitchStatus (r : Request) (s : State) : Host.Outcome State Fault Refusal :=
  .next (hostRequest (opNone 0x0801 [clsN, clsH]) r (fun s => reply (switchStatusBytes s) (drawMany 40 s)) s)

/-- SWITCH_COMMAND (R250, R259). -/
def execSwitchCommand (r : Request) (s : State) : Host.Outcome State Fault Refusal :=
  let p := r.payload
  let i := fieldN p 0 1
  let on := fieldN p 1 1 == 1
  .next (hostRequest (opLen 0x0802 [clsN, clsH] 4) r
    (fun s => guarded
      [ need (8 ≤ i && i < 16) St.range, need (fieldN p 1 1 < 2) St.range, reservedOk p 2 2
      , need (chanUse s i == 2) St.refusedState
      , need (!(on && (chanSw s i).latched && (chanSw s i).commanded)) St.refusedState ]
      (fun s => done (settle (commandChannel i on s))) s) s)

/-- CURRENT_CAPTURE (R259): one at a time; it responds when the last sample is taken. -/
def execCurrentCapture (r : Request) (s : State) : Host.Outcome State Fault Refusal :=
  let p := r.payload
  .next (hostRequest (opLen 0x0803 [clsN, clsB] 4) r
    (fun s => guarded
      [ need (fieldN p 0 1 < 16) St.range, reservedOk p 1 1, need (fieldN p 2 2 ≠ 0) St.lenZero
      , need (fieldN p 2 2 ≤ 640) St.range, need s.sw.capture.isNone St.busy ]
      (fun s => (setSw (fun w => { w with
          capture := some ⟨r.port, r.seq, r.cls, fieldN p 0 1, fieldN p 2 2, s.sun.cycle⟩ }) s, .later)) s) s)

/-- CURRENT_CAPTURE_COMPLETE (R259): the currents of the 100 µs intervals, µA; the response has their codes by R246. -/
def execCurrentCaptureComplete (samples : List Nat) (s : State) : Host.Outcome State Fault Refusal :=
  .next (
    match s.sw.capture with
    | none => s
    | some c =>
      let l := samples.take c.count
      completeRequest c.port c.cls 0x0803 c.seq St.ok
        ([byte c.channel, byte (chanField s c.channel 9 1)] ++ leBytes 2 l.length ++ wordBytes 4 c.cycle ++
          l.flatMap (fun x => leBytes 2 (currentCode s c.channel x).1))
        (setSw (fun w => { w with capture := none }) s))

end Sys2Proof.Machine
end

