-- ==== Sys2Proof/Machine/Dispatch.lean ====
section
/-! DEFINITION. The effect of each command on everything but the queue: one arm per row of the opcode table. -/

namespace Sys2Proof.Machine

def exec (i : Instr) (s : State) : Host.Outcome State Fault Refusal :=
  match i with
  | .identity r => Sys2Proof.Machine.execIdentity r s
  | .keepalive r => Sys2Proof.Machine.execKeepalive r s
  | .configurationReport r => Sys2Proof.Machine.execConfigurationReport r s
  | .generalLogRead r => Sys2Proof.Machine.execGeneralLogRead r s
  | .legalLogRead r => Sys2Proof.Machine.execLegalLogRead r s
  | .bulkTransferStatus r => Sys2Proof.Machine.execBulkTransferStatus r s
  | .legalLogArchive r => Sys2Proof.Machine.execLegalLogArchive r s
  | .hostPacketUndefined port src frameLen bytes load queued => Sys2Proof.Machine.execHostPacketUndefined port src frameLen bytes load queued s
  | .bulkTransferTimeout id => Sys2Proof.Machine.execBulkTransferTimeout id s
  | .keepalivePeriod => Sys2Proof.Machine.execKeepalivePeriod s
  | .hostAbsenceTimeout => Sys2Proof.Machine.execHostAbsenceTimeout s
  | .sundialStatus r => Sys2Proof.Machine.execSundialStatus r s
  | .dialCycleBoundary m => Sys2Proof.Machine.execDialCycleBoundary m s
  | .gridCoherentSample k tk streams => Sys2Proof.Machine.execGridCoherentSample k tk streams s
  | .stuckDetected ch run => Sys2Proof.Machine.execStuckDetected ch run s
  | .retentionScrub corrected => Sys2Proof.Machine.execRetentionScrub corrected s
  | .scrubAccess array addr singleBit => Sys2Proof.Machine.execScrubAccess array addr singleBit s
  | .doubleBitError array elem addr access x => Sys2Proof.Machine.execDoubleBitError array elem addr access x s
  | .permissionViolation elem access addr => Sys2Proof.Machine.execPermissionViolation elem access addr s
  | .energyCommit w => Sys2Proof.Machine.execEnergyCommit w s
  | .coolantTemperatureTimeout o => Sys2Proof.Machine.execCoolantTemperatureTimeout o s
  | .pulseEmit m => Sys2Proof.Machine.execPulseEmit m s
  | .pulseEnd m => Sys2Proof.Machine.execPulseEnd m s
  | .snapshotPeriod => Sys2Proof.Machine.execSnapshotPeriod s
  | .channelMeasure r => Sys2Proof.Machine.execChannelMeasure r s
  | .channelMeasureComplete => Sys2Proof.Machine.execChannelMeasureComplete s
  | .trialCalibration r => Sys2Proof.Machine.execTrialCalibration r s
  | .acquisitionStatus r => Sys2Proof.Machine.execAcquisitionStatus r s
  | .registerRead r => Sys2Proof.Machine.execRegisterRead r s
  | .signedRegisterSnapshot r => Sys2Proof.Machine.execSignedRegisterSnapshot r s
  | .instantaneousValues r => Sys2Proof.Machine.execInstantaneousValues r s
  | .pulseStatus r => Sys2Proof.Machine.execPulseStatus r s
  | .registerRestore r => Sys2Proof.Machine.execRegisterRestore r s
  | .holdEntry v24 => Sys2Proof.Machine.execHoldEntry v24 s
  | .partialCommit w lastSample => Sys2Proof.Machine.execPartialCommit w lastSample s
  | .holdReturn v24 => Sys2Proof.Machine.execHoldReturn v24 s
  | .holdupEnd vbat => Sys2Proof.Machine.execHoldupEnd vbat s
  | .vbatLoss vbat => Sys2Proof.Machine.execVbatLoss vbat s
  | .powerOnReset v24 vbat straps recover buttonPressed => Sys2Proof.Machine.execPowerOnReset v24 vbat straps recover buttonPressed s
  | .brownOut cause => Sys2Proof.Machine.execBrownOut cause s
  | .pllLockWaitExpiry => Sys2Proof.Machine.execPllLockWaitExpiry s
  | .holdupCharged x => Sys2Proof.Machine.execHoldupCharged x s
  | .bootTimeout x => Sys2Proof.Machine.execBootTimeout x s
  | .warmReset cause x => Sys2Proof.Machine.execWarmReset cause x s
  | .engineReset elem => Sys2Proof.Machine.execEngineReset elem s
  | .recoveryEntry cause => Sys2Proof.Machine.execRecoveryEntry cause s
  | .recoveryTimeout x => Sys2Proof.Machine.execRecoveryTimeout x s
  | .idleEntry => Sys2Proof.Machine.execIdleEntry s
  | .idleExit => Sys2Proof.Machine.execIdleExit s
  | .resetButtonPress => Sys2Proof.Machine.execResetButtonPress s
  | .resetButtonRelease held => Sys2Proof.Machine.execResetButtonRelease held s
  | .resetButtonStuck => Sys2Proof.Machine.execResetButtonStuck s
  | .powerStatus r => Sys2Proof.Machine.execPowerStatus r s
  | .reset r => Sys2Proof.Machine.execReset r s
  | .shutdown r => Sys2Proof.Machine.execShutdown r s
  | .shutdownSequence w lastSample k => Sys2Proof.Machine.execShutdownSequence w lastSample k s
  | .doorbell elem event => Sys2Proof.Machine.execDoorbell elem event s
  | .utcSecond => Sys2Proof.Machine.execUtcSecond s
  | .crystalTrim ppm => Sys2Proof.Machine.execCrystalTrim ppm s
  | .clockSlewComplete => Sys2Proof.Machine.execClockSlewComplete s
  | .pilotStateRecognised o high low => Sys2Proof.Machine.execPilotStateRecognised o high low s
  | .pilotInvalid levels => Sys2Proof.Machine.execPilotInvalid levels s
  | .proximityClassified o ohms => Sys2Proof.Machine.execProximityClassified o ohms s
  | .generatorCommand o g => Sys2Proof.Machine.execGeneratorCommand o g s
  | .cmSlacParamReq o runId => Sys2Proof.Machine.execCmSlacParamReq o runId s
  | .cmStartAttenCharInd o runId => Sys2Proof.Machine.execCmStartAttenCharInd o runId s
  | .cmMnbcSoundInd o runId att => Sys2Proof.Machine.execCmMnbcSoundInd o runId att s
  | .cmAttenCharInd o => Sys2Proof.Machine.execCmAttenCharInd o s
  | .cmAttenCharRsp o runId => Sys2Proof.Machine.execCmAttenCharRsp o runId s
  | .cmValidateReq o runId => Sys2Proof.Machine.execCmValidateReq o runId s
  | .cmSlacMatchReq o runId => Sys2Proof.Machine.execCmSlacMatchReq o runId s
  | .vehicleJoined o => Sys2Proof.Machine.execVehicleJoined o s
  | .matchingTimeout o => Sys2Proof.Machine.execMatchingTimeout o s
  | .slacRetryStateFEnd o => Sys2Proof.Machine.execSlacRetryStateFEnd o s
  | .t1sFirstFrame o mac => Sys2Proof.Machine.execT1sFirstFrame o mac s
  | .sdpRequest o security => Sys2Proof.Machine.execSdpRequest o security s
  | .tcpConnect o => Sys2Proof.Machine.execTcpConnect o s
  | .tcpClose o => Sys2Proof.Machine.execTcpClose o s
  | .v2gtpInvalid o => Sys2Proof.Machine.execV2gtpInvalid o s
  | .tlsHandshake o t => Sys2Proof.Machine.execTlsHandshake o t s
  | .supportedAppProtocol o offers => Sys2Proof.Machine.execSupportedAppProtocol o offers s
  | .sessionSetup o evccid => Sys2Proof.Machine.execSessionSetup o evccid s
  | .serviceDiscovery o => Sys2Proof.Machine.execServiceDiscovery o s
  | .serviceDetail o certificateService => Sys2Proof.Machine.execServiceDetail o certificateService s
  | .paymentServiceSelection o contract service dynamic => Sys2Proof.Machine.execPaymentServiceSelection o contract service dynamic s
  | .paymentDetails o c => Sys2Proof.Machine.execPaymentDetails o c s
  | .authorizationSetup o => Sys2Proof.Machine.execAuthorizationSetup o s
  | .authorization o c => Sys2Proof.Machine.execAuthorization o c s
  | .chargeParameterDiscovery o p => Sys2Proof.Machine.execChargeParameterDiscovery o p s
  | .scheduleExchange o dynamic => Sys2Proof.Machine.execScheduleExchange o dynamic s
  | .cableCheck o => Sys2Proof.Machine.execCableCheck o s
  | .cableCheckFinished o => Sys2Proof.Machine.execCableCheckFinished o s
  | .preCharge o targetVoltage => Sys2Proof.Machine.execPreCharge o targetVoltage s
  | .powerDelivery o start => Sys2Proof.Machine.execPowerDelivery o start s
  | .currentDemand o targetVoltage targetCurrent presentVoltage => Sys2Proof.Machine.execCurrentDemand o targetVoltage targetCurrent presentVoltage s
  | .chargingStatus o => Sys2Proof.Machine.execChargingStatus o s
  | .weldingDetection o => Sys2Proof.Machine.execWeldingDetection o s
  | .meteringReceipt o => Sys2Proof.Machine.execMeteringReceipt o s
  | .certificateInstallation o => Sys2Proof.Machine.execCertificateInstallation o s
  | .certificateUpdate o => Sys2Proof.Machine.execCertificateUpdate o s
  | .sessionStop o => Sys2Proof.Machine.execSessionStop o s
  | .unsupportedMessage o => Sys2Proof.Machine.execUnsupportedMessage o s
  | .domainAnswer o a => Sys2Proof.Machine.execDomainAnswer o a s
  | .v2gSeccSequenceTimeout o => Sys2Proof.Machine.execV2gSeccSequenceTimeout o s
  | .communicationsetupTimeout o => Sys2Proof.Machine.execCommunicationsetupTimeout o s
  | .readytochargeTimeout o => Sys2Proof.Machine.execReadytochargeTimeout o s
  | .cpstateDetectionTimeout o => Sys2Proof.Machine.execCpstateDetectionTimeout o s
  | .tcpConnectionWaitTimeout o => Sys2Proof.Machine.execTcpConnectionWaitTimeout o s
  | .responseTimeout o loop => Sys2Proof.Machine.execResponseTimeout o loop s
  | .standingReplyWrite o f => Sys2Proof.Machine.execStandingReplyWrite o f s
  | .standingReplyExpiry o => Sys2Proof.Machine.execStandingReplyExpiry o s
  | .cardWaitExpiry o => Sys2Proof.Machine.execCardWaitExpiry o s
  | .hostAnswerTimeout o => Sys2Proof.Machine.execHostAnswerTimeout o s
  | .heldCredentialExpiry => Sys2Proof.Machine.execHeldCredentialExpiry s
  | .preAuthorisationExpiry o => Sys2Proof.Machine.execPreAuthorisationExpiry o s
  | .authorisationAnswer r => Sys2Proof.Machine.execAuthorisationAnswer r s
  | .remoteAuthorise r => Sys2Proof.Machine.execRemoteAuthorise r s
  | .stopSession r => Sys2Proof.Machine.execStopSession r s
  | .sieveLoad r => Sys2Proof.Machine.execSieveLoad r s
  | .sieveStatus r => Sys2Proof.Machine.execSieveStatus r s
  | .sessionStatus r => Sys2Proof.Machine.execSessionStatus r s
  | .outletAvailability r => Sys2Proof.Machine.execOutletAvailability r s
  | .powerTarget r => Sys2Proof.Machine.execPowerTarget r s
  | .rampDownStep o => Sys2Proof.Machine.execRampDownStep o s
  | .openThresholdReached o => Sys2Proof.Machine.execOpenThresholdReached o s
  | .rampDownTimeout o => Sys2Proof.Machine.execRampDownTimeout o s
  | .cableCheckTimeout o => Sys2Proof.Machine.execCableCheckTimeout o s
  | .prechargeTimeout o => Sys2Proof.Machine.execPrechargeTimeout o s
  | .weldCheckTimeEnd o => Sys2Proof.Machine.execWeldCheckTimeEnd o s
  | .converterStatusFrame f => Sys2Proof.Machine.execConverterStatusFrame f s
  | .converterLimitsFrame f => Sys2Proof.Machine.execConverterLimitsFrame f s
  | .converterLost o => Sys2Proof.Machine.execConverterLost o s
  | .sequenceEchoLag o lag => Sys2Proof.Machine.execSequenceEchoLag o lag s
  | .heartbeat => Sys2Proof.Machine.execHeartbeat s
  | .setpointRepeat o => Sys2Proof.Machine.execSetpointRepeat o s
  | .setpointSend o p => Sys2Proof.Machine.execSetpointSend o p s
  | .tripFrame started => Sys2Proof.Machine.execTripFrame started s
  | .powerAllocation => Sys2Proof.Machine.execPowerAllocation s
  | .acReductionExpiry slot o => Sys2Proof.Machine.execAcReductionExpiry slot o s
  | .allocationMissing => Sys2Proof.Machine.execAllocationMissing s
  | .siteBudgetTimeout => Sys2Proof.Machine.execSiteBudgetTimeout s
  | .estopOpen channelB => Sys2Proof.Machine.execEstopOpen channelB s
  | .estopClosed => Sys2Proof.Machine.execEstopClosed s
  | .testPulse lineB seenA seenB => Sys2Proof.Machine.execTestPulse lineB seenA seenB s
  | .estopDiscrepancy => Sys2Proof.Machine.execEstopDiscrepancy s
  | .overcurrentTrip o input => Sys2Proof.Machine.execOvercurrentTrip o input s
  | .contactorDelayEnd o => Sys2Proof.Machine.execContactorDelayEnd o s
  | .residualCurrentCheck o before latest => Sys2Proof.Machine.execResidualCurrentCheck o before latest s
  | .insulationPolarityChange o m => Sys2Proof.Machine.execInsulationPolarityChange o m s
  | .insulationSelfTimed o m => Sys2Proof.Machine.execInsulationSelfTimed o m s
  | .insulationNoValue o => Sys2Proof.Machine.execInsulationNoValue o s
  | .pilotLoss levels => Sys2Proof.Machine.execPilotLoss levels s
  | .pilotBTimeout levels => Sys2Proof.Machine.execPilotBTimeout levels s
  | .weldCheckStart o => Sys2Proof.Machine.execWeldCheckStart o s
  | .weldDetected o onV onL => Sys2Proof.Machine.execWeldDetected o onV onL s
  | .hedgeFault => Sys2Proof.Machine.execHedgeFault s
  | .tripResetAutomatic o => Sys2Proof.Machine.execTripResetAutomatic o s
  | .safeFrameCyclic => Sys2Proof.Machine.execSafeFrameCyclic s
  | .safeFrameTripSend => Sys2Proof.Machine.execSafeFrameTripSend s
  | .safeFrameReceive p bytes => Sys2Proof.Machine.execSafeFrameReceive p bytes s
  | .safeFrameCopyMissing slot => Sys2Proof.Machine.execSafeFrameCopyMissing slot s
  | .safeFramePairTimeout slot => Sys2Proof.Machine.execSafeFramePairTimeout slot s
  | .safeFrameSequenceClear slot => Sys2Proof.Machine.execSafeFrameSequenceClear slot s
  | .safeFrameFaultClear => Sys2Proof.Machine.execSafeFrameFaultClear s
  | .groupTripClear => Sys2Proof.Machine.execGroupTripClear s
  | .safetyStatus r => Sys2Proof.Machine.execSafetyStatus r s
  | .confirmCheckValue r => Sys2Proof.Machine.execConfirmCheckValue r s
  | .confirmationLockExpiry => Sys2Proof.Machine.execConfirmationLockExpiry s
  | .tripReset r => Sys2Proof.Machine.execTripReset r s
  | .weldClear r => Sys2Proof.Machine.execWeldClear r s
  | .parameterBlockLoad agrees => Sys2Proof.Machine.execParameterBlockLoad agrees s
  | .scarecrowCheck o m => Sys2Proof.Machine.execScarecrowCheck o m s
  | .scarecrowRampWithdraw o => Sys2Proof.Machine.execScarecrowRampWithdraw o s
  | .scarecrowPermitTimeout o => Sys2Proof.Machine.execScarecrowPermitTimeout o s
  | .channelCommandWrite ch on => Sys2Proof.Machine.execChannelCommandWrite ch on s
  | .channelShort ch sample => Sys2Proof.Machine.execChannelShort ch sample s
  | .channelOvercurrent ch samples => Sys2Proof.Machine.execChannelOvercurrent ch samples s
  | .inrushWindowEnd ch => Sys2Proof.Machine.execInrushWindowEnd ch s
  | .channelThermal ch dT tj => Sys2Proof.Machine.execChannelThermal ch dT tj s
  | .thermalRestart ch dT tj => Sys2Proof.Machine.execThermalRestart ch dT tj s
  | .openLoadSet ch m => Sys2Proof.Machine.execOpenLoadSet ch m s
  | .openLoadClear ch m => Sys2Proof.Machine.execOpenLoadClear ch m s
  | .groupMeanCheck g0 g1 g2 g3 => Sys2Proof.Machine.execGroupMeanCheck g0 g1 g2 g3 s
  | .undervoltageRelease g v => Sys2Proof.Machine.execUndervoltageRelease g v s
  | .undervoltageReturn g v => Sys2Proof.Machine.execUndervoltageReturn g v s
  | .switchStatus r => Sys2Proof.Machine.execSwitchStatus r s
  | .switchCommand r => Sys2Proof.Machine.execSwitchCommand r s
  | .currentCapture r => Sys2Proof.Machine.execCurrentCapture r s
  | .currentCaptureComplete samples => Sys2Proof.Machine.execCurrentCaptureComplete samples s
  | .tariffEvaluation => Sys2Proof.Machine.execTariffEvaluation s
  | .accountStoreWrite => Sys2Proof.Machine.execAccountStoreWrite s
  | .tamperSample opened => Sys2Proof.Machine.execTamperSample opened s
  | .billingStatus r => Sys2Proof.Machine.execBillingStatus r s
  | .clockSet r => Sys2Proof.Machine.execClockSet r s
  | .sessionRecordRead r => Sys2Proof.Machine.execSessionRecordRead r s
  | .billingPeriodRead r => Sys2Proof.Machine.execBillingPeriodRead r s
  | .billingPeriodClose r => Sys2Proof.Machine.execBillingPeriodClose r s
  | .tariffRegisters r => Sys2Proof.Machine.execTariffRegisters r s
  | .tariffLoad r => Sys2Proof.Machine.execTariffLoad r s
  | .accountLoad r => Sys2Proof.Machine.execAccountLoad r s
  | .accountCredit r => Sys2Proof.Machine.execAccountCredit r s
  | .accountRead r => Sys2Proof.Machine.execAccountRead r s
  | .tamperRead r => Sys2Proof.Machine.execTamperRead r s
  | .vppInRange v => Sys2Proof.Machine.execVppInRange v s
  | .vppStartTimeout v => Sys2Proof.Machine.execVppStartTimeout v s
  | .vppFault v => Sys2Proof.Machine.execVppFault v s
  | .vppFaultRestart => Sys2Proof.Machine.execVppFaultRestart s
  | .displayFrame => Sys2Proof.Machine.execDisplayFrame s
  | .dwellStep => Sys2Proof.Machine.execDwellStep s
  | .gainRecompute => Sys2Proof.Machine.execGainRecompute s
  | .stressSave ok => Sys2Proof.Machine.execStressSave ok s
  | .displayStatus r => Sys2Proof.Machine.execDisplayStatus r s
  | .applicationRows r => Sys2Proof.Machine.execApplicationRows r s
  | .stressRead r => Sys2Proof.Machine.execStressRead r s
  | .stressRestore r => Sys2Proof.Machine.execStressRestore r s
  | .displayTest r => Sys2Proof.Machine.execDisplayTest r s
  | .displayTestEnd => Sys2Proof.Machine.execDisplayTestEnd s
  | .trngTestFail test => Sys2Proof.Machine.execTrngTestFail test s
  | .trngRetest ok => Sys2Proof.Machine.execTrngRetest ok s
  | .cisRequest cls elem => Sys2Proof.Machine.execCisRequest cls elem s
  | .cisternStatus r => Sys2Proof.Machine.execCisternStatus r s
  | .publicKeyRead r => Sys2Proof.Machine.execPublicKeyRead r s
  | .keyUpdate r key sig => Sys2Proof.Machine.execKeyUpdate r key sig s
  | .tlsKeyGenerate r => Sys2Proof.Machine.execTlsKeyGenerate r s
  | .lifeCycleChange r sig => Sys2Proof.Machine.execLifeCycleChange r sig s
  | .attest r => Sys2Proof.Machine.execAttest r s
  | .miscompare x => Sys2Proof.Machine.execMiscompare x s
  | .watchdogExpiry x => Sys2Proof.Machine.execWatchdogExpiry x s
  | .seedWrite clocks => Sys2Proof.Machine.execSeedWrite clocks s
  | .handback => Sys2Proof.Machine.execHandback s
  | .standbySweep x => Sys2Proof.Machine.execStandbySweep x s
  | .domainTestComplete result duration => Sys2Proof.Machine.execDomainTestComplete result duration s
  | .takeoverStatus r => Sys2Proof.Machine.execTakeoverStatus r s
  | .domainSwitch r => Sys2Proof.Machine.execDomainSwitch r s
  | .stackStatus r => Sys2Proof.Machine.execStackStatus r s
  | .mastershipTransfer r => Sys2Proof.Machine.execMastershipTransfer r s
  | .trellisFrameStart k => Sys2Proof.Machine.execTrellisFrameStart k s
  | .syncReceived bytes => Sys2Proof.Machine.execSyncReceived bytes s
  | .slotFrameReceived slot bytes => Sys2Proof.Machine.execSlotFrameReceived slot bytes s
  | .slotAbsent slot => Sys2Proof.Machine.execSlotAbsent slot s
  | .spareTakeover => Sys2Proof.Machine.execSpareTakeover s
  | .memberSilence => Sys2Proof.Machine.execMemberSilence s
  | .listenTimeExpiry => Sys2Proof.Machine.execListenTimeExpiry s
  | .syncReadbackMismatch => Sys2Proof.Machine.execSyncReadbackMismatch s
  | .trellisPairFailed pairB failed errors => Sys2Proof.Machine.execTrellisPairFailed pairB failed errors s
  | .wadiFrameStart position => Sys2Proof.Machine.execWadiFrameStart position s
  | .wadiFrameReceived inputs syncAngle => Sys2Proof.Machine.execWadiFrameReceived inputs syncAngle s
  | .wadiAllocation => Sys2Proof.Machine.execWadiAllocation s
  | .nodeAbsent node => Sys2Proof.Machine.execNodeAbsent node s
  | .masterLost => Sys2Proof.Machine.execMasterLost s
  | .masterCandidateStart => Sys2Proof.Machine.execMasterCandidateStart s
  | .joinTimeout => Sys2Proof.Machine.execJoinTimeout s
  | .indexFree index => Sys2Proof.Machine.execIndexFree index s
  | .wadiStatus r => Sys2Proof.Machine.execWadiStatus r s
  | .neighbourTable r => Sys2Proof.Machine.execNeighbourTable r s
  | .transmitTest r => Sys2Proof.Machine.execTransmitTest r s
  | .updateWrite r data => Sys2Proof.Machine.execUpdateWrite r data s
  | .updateStatus r => Sys2Proof.Machine.execUpdateStatus r s
  | .activate r x => Sys2Proof.Machine.execActivate r x s
  | .activationWhenIdle x => Sys2Proof.Machine.execActivationWhenIdle x s
  | .idleWaitExpiry => Sys2Proof.Machine.execIdleWaitExpiry s
  | .engineSafePoint elem => Sys2Proof.Machine.execEngineSafePoint elem s
  | .confirm r => Sys2Proof.Machine.execConfirm r s
  | .reject r x => Sys2Proof.Machine.execReject r x s
  | .trialLimitExpiry x => Sys2Proof.Machine.execTrialLimitExpiry x s
  | .sow r => Sys2Proof.Machine.execSow r s
  | .ownerLock r => Sys2Proof.Machine.execOwnerLock r s
  | .recoveryExit r x => Sys2Proof.Machine.execRecoveryExit r x s
  | .sowingStatus r => Sys2Proof.Machine.execSowingStatus r s
  | .antennaSense port load => Sys2Proof.Machine.execAntennaSense port load s
  | .guardTimeEnd port a b v => Sys2Proof.Machine.execGuardTimeEnd port a b v s
  | .repoll port a b v => Sys2Proof.Machine.execRepoll port a b v s
  | .cardRemoval port => Sys2Proof.Machine.execCardRemoval port s
  | .pairingWaitExpiry port => Sys2Proof.Machine.execPairingWaitExpiry port s
  | .tagFieldOn => Sys2Proof.Machine.execTagFieldOn s
  | .tagFieldOff => Sys2Proof.Machine.execTagFieldOff s
  | .tagCommandRead first count => Sys2Proof.Machine.execTagCommandRead first count s
  | .tagCommandWrite block data collapse => Sys2Proof.Machine.execTagCommandWrite block data collapse s
  | .password value => Sys2Proof.Machine.execPassword value s
  | .challenge => Sys2Proof.Machine.execChallenge s
  | .respond slot nr sigR sigS => Sys2Proof.Machine.execRespond slot nr sigR sigS s
  | .leave => Sys2Proof.Machine.execLeave s
  | .tagState => Sys2Proof.Machine.execTagState s
  | .tagRequest requestBlock => Sys2Proof.Machine.execTagRequest requestBlock s
  | .tagStatusUpdate => Sys2Proof.Machine.execTagStatusUpdate s
  | .tagLogMirror => Sys2Proof.Machine.execTagLogMirror s
  | .wiredWriteRetryExpiry block retries => Sys2Proof.Machine.execWiredWriteRetryExpiry block retries s
  | .contactlessStatus r => Sys2Proof.Machine.execContactlessStatus r s
  | .tagRead r => Sys2Proof.Machine.execTagRead r s
  | .tagWrite r committed => Sys2Proof.Machine.execTagWrite r committed s
  | .tagSecurity r => Sys2Proof.Machine.execTagSecurity r s
  | .maintenanceWindow w lastSample => Sys2Proof.Machine.execMaintenanceWindow w lastSample s
  | .maintenanceWindowEnd => Sys2Proof.Machine.execMaintenanceWindowEnd s
  | .rakeGroupComplete result => Sys2Proof.Machine.execRakeGroupComplete result s
  | .rakePowerLimit => Sys2Proof.Machine.execRakePowerLimit s
  | .rakeConditionTimeout => Sys2Proof.Machine.execRakeConditionTimeout s
  | .rakeRestart straps recover => Sys2Proof.Machine.execRakeRestart straps recover s
  | .rakeStatus r => Sys2Proof.Machine.execRakeStatus r s
  | .rakeRun r w lastSample => Sys2Proof.Machine.execRakeRun r w lastSample s
  | .linkStatus r => Sys2Proof.Machine.execLinkStatus r s
  | .linkCounters r => Sys2Proof.Machine.execLinkCounters r s
  | .pilotTest r => Sys2Proof.Machine.execPilotTest r s
  | .pilotTestEnd o => Sys2Proof.Machine.execPilotTestEnd o s
  | .transmitTestEnd => Sys2Proof.Machine.execTransmitTestEnd s
  | .orderlyResetTimeout x => Sys2Proof.Machine.execOrderlyResetTimeout x s
  | .holdupChargeTimeout v => Sys2Proof.Machine.execHoldupChargeTimeout v s
  | .vbatLow v => Sys2Proof.Machine.execVbatLow v s
  | .neighbourDiscovery o echo => Sys2Proof.Machine.execNeighbourDiscovery o echo s

end Sys2Proof.Machine
end

