-- ==== Sys2Proof/Safety.lean ====
section
/-! DEFINITION. The terms in which the statements are made: what it means that a command completes, that a host request is
admitted and answered, that OTP is one-way, and that the host link stays within its bounds. -/

namespace Sys2Proof.Machine

/-! ### Commands -/

/-- The command ends in a next state with the given property. -/
def Completes (c : Instr) (s : State) (p : State → Prop) : Prop := ∃ t, exec c s = .next t ∧ p t

/-- The command carries out its own effect, which leads to a state with the given property, and then every standing condition of
the protection and of the sessions takes effect (`settle`). -/
def CarriesOut (c : Instr) (s : State) (p : State → Prop) : Prop := ∃ t, exec c s = .next (settle t) ∧ p t

/-- The command has no effect: it leaves the whole state as it is. -/
def Ignores (c : Instr) (s : State) : Prop := exec c s = .next s

/-! ### Host requests (R51, R52) -/

/-- A request passes every step of R51 before its opcode's own action: its port is open and its source permitted, its HMAC is
right, its sequence is fresh, its fields, class, length and queue are accepted, and the module's condition allows it. -/
def Admitted (op : OpSpec) (r : Request) (s : State) : Prop :=
  portOpen s r.port = true ∧ permitted s r.port r.src = true ∧ macGood s op.code r = true ∧
    (op.code = 0x0101 ∨ seqClass (originOf s r.port) r.seq = .fresh) ∧ admitStatus op r = St.ok ∧
    conditionRefuses s op.code = false

/-- The state on which an admitted request acts: its SPI transfer is over (R504), the host is present, and its sequence is the
last that the origin accepted (R52). -/
def admitted (code : Nat) (r : Request) (s : State) : State :=
  let s0 := present (spiTransfer r.port s)
  if code = 0x0101 then s0 else setOrigin r.port (acceptSeq r.seq) s0

/-- The last thing that the module sent is the response to a request, with a status and a payload (R49, R52). -/
def Answers (s : State) (r : Request) (code status : Nat) (payload : List Byte) (t : State) : Prop :=
  t.out.head? = some (.packet (packetOf s r.port r.cls code r.seq 1 status payload))

/-- Everything that a read opcode leaves alone: all of the state but the host link, the domain's journal and the outputs. -/
def SameModule (s t : State) : Prop :=
  t = { s with host := t.host, dom := t.dom, out := t.out, freeCount := t.freeCount }

/-- The header of a write block agrees with R54 and R55 for an object of a number of bytes at most. -/
def BlockFits (maxTotal : Nat) (p : List Byte) : Prop :=
  let off := fieldN p 4 4
  let total := fieldN p 8 4
  let len := fieldN p 12 2
  fieldN p 0 4 ≠ 0 ∧ off % 8 = 0 ∧ total ≠ 0 ∧ total ≤ maxTotal ∧ len ≠ 0 ∧ len ≤ 1384 ∧ off + len ≤ total ∧
    (len % 8 = 0 ∨ off + len = total) ∧ p.length = 16 + len ∧ fieldN p 14 2 = 0

/-- A new transfer can open: its ID is not held, fewer than 4 are open, and none of the opcode is open from another port. -/
def MayOpen (s : State) (code : Nat) (port : Port) (id : Nat) : Prop :=
  findTransfer s id = none ∧ openTransfers s < 4 ∧
    s.host.transfers.all (fun t => t.state != .receiving || t.object != code || t.port == port) = true

/-! ### Messages of a vehicle (R149, R153) -/

/-- The sequence timer of an outlet stops: a request has come (R153). -/
def requestSeen (o : Outlet) (s : State) : State :=
  { s with link := s.link.set o { s.link.get o with timers := { (s.link.get o).timers with sequence := false } } }

/-- A message of a vehicle, on an open connection under a negotiated protocol that defines it, carries out its effect on the state in
which the request has been seen. -/
def Delivers (c : Instr) (o : Outlet) (p : Protocol) (s : State) (post : State → State → Prop) : Prop :=
  domainRuns s = true → (s.link.get o).tcpOpen = true → (s.link.get o).protocol = some p →
    CarriesOut c s (fun t => post (requestSeen o s) t)

/-! ### Families

Two groups of commands that have a frame in common; a command that acts on both sides is in neither. -/

/-- The commands of the vehicle link, the session, protection and the power switches (chapters 06 to 09) that act on nothing
beyond those, billing, logs and the host link. -/
def vehicleSide : Instr → Bool
  | .registerRestore .. | .pilotStateRecognised .. | .pilotInvalid .. | .proximityClassified .. | .generatorCommand .. |
    .cmSlacParamReq .. | .cmStartAttenCharInd .. | .cmAttenCharInd .. | .cmAttenCharRsp .. | .cmValidateReq .. |
    .cmSlacMatchReq .. | .vehicleJoined .. | .matchingTimeout .. | .slacRetryStateFEnd .. | .t1sFirstFrame .. |
    .sdpRequest .. | .tcpConnect .. | .tcpClose .. | .v2gtpInvalid .. | .tlsHandshake .. | .supportedAppProtocol .. |
    .sessionSetup .. | .serviceDiscovery .. | .serviceDetail .. | .paymentServiceSelection .. | .paymentDetails .. |
    .authorizationSetup .. | .authorization .. | .chargeParameterDiscovery .. | .scheduleExchange .. | .cableCheck .. |
    .cableCheckFinished .. | .preCharge .. | .powerDelivery .. | .currentDemand .. | .chargingStatus .. |
    .weldingDetection .. | .meteringReceipt .. | .certificateInstallation .. | .certificateUpdate .. | .sessionStop .. |
    .unsupportedMessage .. | .domainAnswer .. | .v2gSeccSequenceTimeout .. | .communicationsetupTimeout .. |
    .readytochargeTimeout .. | .cpstateDetectionTimeout .. | .tcpConnectionWaitTimeout .. | .standingReplyWrite .. |
    .standingReplyExpiry .. | .cardWaitExpiry .. | .hostAnswerTimeout .. | .heldCredentialExpiry |
    .preAuthorisationExpiry .. | .authorisationAnswer .. | .remoteAuthorise .. | .stopSession .. | .sieveStatus .. |
    .sessionStatus .. | .outletAvailability .. | .powerTarget .. | .rampDownStep .. | .openThresholdReached .. |
    .rampDownTimeout .. | .cableCheckTimeout .. | .prechargeTimeout .. | .weldCheckTimeEnd .. | .converterStatusFrame .. |
    .converterLimitsFrame .. | .converterLost .. | .sequenceEchoLag .. | .heartbeat | .setpointRepeat .. |
    .setpointSend .. | .tripFrame .. | .allocationMissing | .siteBudgetTimeout | .estopOpen .. | .estopClosed |
    .testPulse .. | .estopDiscrepancy | .overcurrentTrip .. | .contactorDelayEnd .. | .residualCurrentCheck .. |
    .insulationPolarityChange .. | .insulationSelfTimed .. | .insulationNoValue .. | .pilotLoss .. | .pilotBTimeout .. |
    .weldCheckStart .. | .weldDetected .. | .hedgeFault | .tripResetAutomatic .. | .safeFrameCyclic | .safeFrameTripSend |
    .safeFrameReceive .. | .safeFramePairTimeout .. | .safeFrameSequenceClear .. | .safeFrameFaultClear | .groupTripClear
    | .safetyStatus .. | .confirmationLockExpiry | .tripReset .. | .weldClear .. | .parameterBlockLoad .. |
    .scarecrowCheck .. | .scarecrowRampWithdraw .. | .channelCommandWrite .. | .channelShort .. | .channelOvercurrent .. |
    .inrushWindowEnd .. | .channelThermal .. | .thermalRestart .. | .openLoadSet .. | .openLoadClear .. |
    .groupMeanCheck .. | .undervoltageRelease .. | .undervoltageReturn .. | .switchStatus .. | .switchCommand .. |
    .currentCapture .. | .currentCaptureComplete .. | .linkStatus .. | .linkCounters .. | .pilotTest .. |
    .neighbourDiscovery .. | .cmMnbcSoundInd .. | .responseTimeout .. | .safeFrameCopyMissing .. |
    .scarecrowPermitTimeout .. | .pilotTestEnd .. => true
  | _ => false

/-- The commands of the other chapters that leave links, sessions, protection and switches alone. -/
def otherSide : Instr → Bool
  | .identity .. | .keepalive .. | .configurationReport .. | .generalLogRead .. | .legalLogRead .. |
    .bulkTransferStatus .. | .legalLogArchive .. | .hostPacketUndefined .. | .bulkTransferTimeout .. | .keepalivePeriod |
    .hostAbsenceTimeout | .sundialStatus .. | .gridCoherentSample .. | .retentionScrub .. | .scrubAccess .. |
    .coolantTemperatureTimeout .. | .pulseEmit .. | .pulseEnd .. | .snapshotPeriod | .channelMeasure .. |
    .channelMeasureComplete | .trialCalibration .. | .acquisitionStatus .. | .registerRead .. | .signedRegisterSnapshot ..
    | .instantaneousValues .. | .pulseStatus .. | .partialCommit .. | .idleEntry | .idleExit | .resetButtonStuck |
    .powerStatus .. | .doorbell .. | .utcSecond | .crystalTrim .. | .clockSlewComplete | .accountStoreWrite |
    .tamperSample .. | .billingStatus .. | .clockSet .. | .sessionRecordRead .. | .billingPeriodRead .. |
    .billingPeriodClose .. | .tariffRegisters .. | .tariffLoad .. | .accountLoad .. | .accountCredit .. | .accountRead ..
    | .tamperRead .. | .vppInRange .. | .vppStartTimeout .. | .vppFault .. | .vppFaultRestart | .displayFrame | .dwellStep
    | .gainRecompute | .stressSave .. | .displayStatus .. | .applicationRows .. | .stressRead .. | .stressRestore .. |
    .displayTest .. | .displayTestEnd | .trngTestFail .. | .trngRetest .. | .cisRequest .. | .cisternStatus .. |
    .publicKeyRead .. | .tlsKeyGenerate .. | .lifeCycleChange .. | .attest .. | .standbySweep .. | .domainTestComplete ..
    | .takeoverStatus .. | .domainSwitch .. | .stackStatus .. | .mastershipTransfer .. | .syncReceived .. | .slotAbsent ..
    | .spareTakeover | .memberSilence | .listenTimeExpiry | .syncReadbackMismatch | .trellisPairFailed .. |
    .wadiFrameStart .. | .nodeAbsent .. | .masterLost | .masterCandidateStart | .joinTimeout | .indexFree .. |
    .wadiStatus .. | .neighbourTable .. | .transmitTest .. | .updateWrite .. | .updateStatus .. | .idleWaitExpiry |
    .sow .. | .ownerLock .. | .sowingStatus .. | .antennaSense .. | .cardRemoval .. | .pairingWaitExpiry .. | .tagFieldOn
    | .tagFieldOff .. | .tagCommandRead .. | .tagCommandWrite .. | .password .. | .challenge | .leave | .tagState |
    .tagStatusUpdate | .tagLogMirror | .wiredWriteRetryExpiry .. | .contactlessStatus .. | .tagWrite .. | .tagSecurity ..
    | .maintenanceWindow .. | .maintenanceWindowEnd | .rakeGroupComplete .. | .rakePowerLimit | .rakeConditionTimeout |
    .rakeStatus .. | .rakeRun .. | .transmitTestEnd | .holdupChargeTimeout .. | .vbatLow .. | .respond .. | .tagRead .. => true
  | _ => false

/-! ### Invariants -/

/-- What is programmed in OTP `k` is programmed in `o`: fuses, update keys and revocations stay, counts and floors do not
fall. -/
structure OtpKeeps (k o : Otp) : Prop where
  factory : k.factoryDone = true → o.factoryDone = true
  root : k.rootValid = true → o.rootValid = true
  retired : k.retired = true → o.retired = true
  destroyed : k.rootDestroyed = true → o.rootDestroyed = true
  programmed : ∀ i, k.programmed.getLsbD i = true → o.programmed.getLsbD i = true
  revoked : ∀ i, k.revoked.getLsbD i = true → o.revoked.getLsbD i = true
  entries : k.entriesY ≤ o.entriesY
  exits : k.exitsX ≤ o.exitsX
  counter : k.keyCounter ≤ o.keyCounter
  floors : ∀ r, k.floors.getD r 0 ≤ o.floors.getD r 0

/-- The host link stays within what R52 and R519 give it: 16 cached responses per origin, 32 transfers. -/
structure HostBounded (s : State) : Prop where
  e0 : s.host.e0.cache.length ≤ 16
  e1 : s.host.e1.cache.length ≤ 16
  spi : s.host.spi.cache.length ≤ 16
  transfers : s.host.transfers.length ≤ 32

end Sys2Proof.Machine
end

