-- ==== Sys2Proof/Laws/Host.lean ====
section
/-! SUPPORT. What the host link does with an admitted request: the opcode's own action, and one response; everything else of
the module stays as the action left it. -/

namespace Sys2Proof.Machine

theorem SameModule.refl (s : State) : SameModule s s := rfl

theorem SameModule.trans {a b c : State} (h : SameModule a b) (g : SameModule b c) : SameModule a c := by
  unfold SameModule at *
  rw [h] at g
  exact g

theorem admitted_same (code : Nat) (r : Request) (s : State) : SameModule s (admitted code r s) := by
  unfold admitted
  dsimp only
  split
  · rfl
  · cases r.port <;> rfl

theorem admitted_eq (code : Nat) (r : Request) (s : State) :
    admitted code r s = { s with host := (admitted code r s).host } := by
  unfold admitted
  dsimp only
  split
  · rfl
  · cases r.port <;> rfl

@[simp] theorem admitted_transfers (code : Nat) (r : Request) (s : State) :
    (admitted code r s).host.transfers = s.host.transfers := by
  unfold admitted
  dsimp only
  split
  · rfl
  · cases r.port <;> rfl

@[simp] theorem originOf_transfer (p q : Port) (s : State) : originOf (present (spiTransfer p s)) q = originOf s q := by
  cases q <;> rfl

theorem sendPacket_same (p : Packet) (s : State) : SameModule s (sendPacket p s) := rfl

theorem setOrigin_same (p : Port) (f : Origin → Origin) (s : State) : SameModule s (setOrigin p f s) := by
  cases p <;> rfl

@[simp] theorem setOrigin_out (p : Port) (f : Origin → Origin) (s : State) : (setOrigin p f s).out = s.out := by
  cases p <;> rfl

theorem journal_same (kind object seq : Nat) (s : State) : SameModule s (journal kind object seq s) := by
  unfold journal
  split <;> rfl

theorem sendCopies_same (n : Nat) (p : Packet) (s : State) :
    SameModule s ((List.replicate (n + 1) ()).foldl (fun t _ => sendPacket p t) s) ∧
      ((List.replicate (n + 1) ()).foldl (fun t _ => sendPacket p t) s).out.head? = some (.packet p) := by
  induction n generalizing s with
  | zero => exact ⟨rfl, rfl⟩
  | succ n ih =>
    rw [List.replicate_succ, List.foldl_cons]
    exact ⟨(sendPacket_same p s).trans (ih _).1, (ih _).2⟩

theorem completeRequest_same (port : Port) (cls code : Nat) (seq : U32) (st : Nat) (pl : List Byte) (s : State) :
    SameModule s (completeRequest port cls code seq st pl s) := by
  unfold completeRequest
  dsimp only
  refine .trans ?_ (setOrigin_same _ _ _)
  exact (journal_same _ _ _ _).trans (sendCopies_same _ _ _).1

theorem completeRequest_out (port : Port) (cls code : Nat) (seq : U32) (st : Nat) (pl : List Byte) (s : State) :
    (completeRequest port cls code seq st pl s).out.head? = some (.packet (packetOf s port cls code seq 1 st pl)) := by
  unfold completeRequest
  dsimp only
  rw [setOrigin_out]
  exact (sendCopies_same _ _ _).2

/-- What a packet to a host takes from the state: the key of its HMAC and the module's address (R50, R65). -/
def SameSender (s u : State) : Prop := hostKeyOf u = hostKeyOf s ∧ ∀ p, hostAddress u p = hostAddress s p

theorem packetOf_key {s u : State} (h : SameSender s u) (port : Port) (cls code : Nat) (seq : U32)
    (f st : Nat) (pl : List Byte) : packetOf u port cls code seq f st pl = packetOf s port cls code seq f st pl := by
  simp only [packetOf, hostMac, h.1, h.2]

/-- An admitted request whose opcode answers at once. -/
theorem host_now {op : OpSpec} {r : Request} {s u : State} {act : State → State × Answer} {st : Nat} {pl : List Byte}
    (h : Admitted op r s) (ha : act (admitted op.code r s) = (u, .now st pl)) (hk : SameSender s u) :
    Answers s r op.code st pl (hostRequest op r act s) ∧ SameModule u (hostRequest op r act s) := by
  obtain ⟨h1, h2, h3, h4, h5, h6⟩ := h
  unfold hostRequest acceptRequest
  rw [h1, h2, h3]
  dsimp only
  have hrun : ∀ t, t = admitted op.code r s → runRequest op r act t = (u, .now st pl) := by
    intro t ht
    unfold runRequest
    rw [if_neg (by simp [h5]), ht]
    have : conditionRefuses (admitted op.code r s) op.code = false := by
      rw [show admitted op.code r s = _ from admitted_same op.code r s]
      exact h6
    rw [if_neg (by simp [this]), ha]
  have key : ∀ p cls code seq, packetOf u p cls code seq 1 st pl = packetOf s p cls code seq 1 st pl :=
    fun _ _ _ _ => packetOf_key hk _ _ _ _ _ _ _
  by_cases c : op.code = 0x0101
  · simp only [Bool.and_self, Bool.not_true, Bool.false_eq_true, if_false, if_pos c]
    rw [hrun _ (by simp [admitted, c])]
    dsimp only [plainResponse]
    exact ⟨by simp [Answers, sendPacket, emit, key], sendPacket_same _ _⟩
  · obtain h4 := h4.resolve_left c
    simp only [Bool.and_self, Bool.not_true, Bool.false_eq_true, if_false, if_neg c, h4]
    rw [hrun _ (by simp [admitted, c])]
    dsimp only
    exact ⟨by rw [Answers, completeRequest_out, key], completeRequest_same _ _ _ _ _ _ _⟩

/-- The shape of most statements about a host opcode: the action leads to `u`, which is `v` but for the host link. -/
theorem host_done {op : OpSpec} {c : Instr} {r : Request} {s u v : State} {act : State → State × Answer} {st : Nat}
    {pl : List Byte} (h : Admitted op r s) (hc : exec c s = .next (hostRequest op r act s))
    (ha : act (admitted op.code r s) = (u, .now st pl)) (hk : SameSender s u) (hs : SameModule v u) :
    Completes c s (fun t => Answers s r op.code st pl t ∧ SameModule v t) :=
  ⟨_, hc, (host_now h ha hk).1, hs.trans (host_now h ha hk).2⟩

/-- The same, for an action that is known on the state with any host link that has the same transfers and, under opcode 0x0101,
the same sequence states. -/
theorem host_answers {op : OpSpec} {c : Instr} {r : Request} {s v : State} {act : State → State × Answer} {st : Nat}
    {pl : List Byte} (hc : exec c s = .next (hostRequest op r act s))
    (ha : ∀ x : HostLink, x.transfers = s.host.transfers → (op.code = 0x0101 → ∀ p, originOf { s with host := x } p = originOf s p) →
      ∃ u, act { s with host := x } = (u, .now st pl) ∧ SameSender s u ∧ SameModule v u) :
    Admitted op r s → Completes c s (fun t => Answers s r op.code st pl t ∧ SameModule v t) := by
  intro h
  obtain ⟨u, h1, h2, h3⟩ := ha (admitted op.code r s).host (admitted_transfers _ _ _) (fun hc p => by
    rw [← admitted_eq]; simp [admitted, hc])
  rw [← admitted_eq] at h1
  exact host_done h hc h1 h2 h3

theorem guarded_pass {l : List Nat} {act : State → State × Answer} {s : State} (h : ∀ x ∈ l, x = St.ok) :
    guarded l act s = act s := by
  unfold guarded
  rw [List.find?_eq_none.mpr (by simpa using h)]

theorem guarded_stop {l : List Nat} {act : State → State × Answer} {s : State} {x : Nat}
    (h : l.find? (fun c => c != St.ok) = some x) : guarded l act s = (s, .now x []) := by
  unfold guarded
  rw [h]
  rfl

end Sys2Proof.Machine
end

