-- ==== Sys2Proof/Certificates/Slice0/Obligations.lean ====
section
/-! DEFINITION. The statements for the provers. Reads and writes of host opcodes are stated for an admitted request (`Admitted`);
commands that end in the standing conditions of protection and sessions are stated up to `settle`, whose frame is a statement of
its own. -/

set_option linter.unusedVariables false

section

open Sys2Proof Sys2Proof.Machine

/-! ### The block -/

/-- A step takes the command at the front of the queue and carries it out on the state with the queue's rest. -/
def Obligations.StepRunsCommand : Prop :=
  ∀ (c : Instr) (rest : List Instr) (s : State), s.pending = c :: rest → step s = exec c { s with pending := rest }

/-- The model's choice (log entries 2, 20, 66 and 68): on an empty queue a millisecond passes. The clock counts it. The dial
moves on by its frequency word at each of the 400,000 clocks (R27), up to the end of its cycle, which is a command of its own;
each pilot generator takes the output that waits for its next PWM period (R138); a Sieve load that is being applied ends
(R180); while the module is supplied, the system block is kept up to date (R483). What belongs to no such process is as before.
-/
def Obligations.IdleStepIsOneMillisecond : Prop :=
  ∀ s : State, s.pending = [] → ∃ t, step s = .next t ∧ t.pending = [] ∧ t.clockMs = s.clockMs + 1 ∧
    (let p := min (2 ^ 48 - 1) (s.sun.angle * 2 ^ 32 + s.sun.frac.toNat + 400000 * s.sun.freqWord)
     t.sun = { s.sun with angle := p / 2 ^ 32, frac := BitVec.ofNat 32 p }) ∧
    (∀ o : Outlet, (t.link.get o).gen = (s.link.get o).next.getD (s.link.get o).gen ∧ (t.link.get o).next = none) ∧
    t.sess.loading = none ∧
    (up s = true → newestSystem t.power = some (systemNow ((newestSystem t.power).elim 0 (fun b => b.generation)) t)) ∧
    t.cfg = s.cfg ∧ t.host = s.host ∧ t.acq = s.acq ∧ t.energy = s.energy ∧ t.sw = s.sw ∧ t.bill = s.bill ∧ t.otp = s.otp ∧
    t.cis = s.cis ∧ t.disp = s.disp ∧ t.trellis = s.trellis ∧ t.wadi = s.wadi ∧ t.update = s.update ∧
    t.reader0 = s.reader0 ∧ t.reader1 = s.reader1 ∧ t.tag = s.tag ∧ t.rake = s.rake

/-- R317: the OTP is one-way. From every state, a step of the block leaves each programmed fuse, update key and revocation
programmed, and lets no thermometer count and no security floor fall. -/
def Obligations.OtpIsOneWay : Prop := ∀ (k : Otp) (s t : State), OtpKeeps k s.otp → step s = .next t → OtpKeeps k t.otp

/-- R52, R519: from every state within the bounds, a step leaves at most 16 cached responses per origin and at most 32
transfers. -/
def Obligations.HostLinkStaysBounded : Prop := ∀ s t : State, HostBounded s → step s = .next t → HostBounded t

/-- The machine after reset: Sundial runs free with HOLD, LOCKED and the UTC clock off (R29, R32, R37), no image is in force
(R42), every outlet is in S0 with its contactors not driven and open (R180, R210), no key is held (R325), domain A is active
and no stack role is taken (R353, R375). The machine after reset is within those bounds, and its queue is empty. -/
def Obligations.ResetState : Prop :=
  (State.reset.sun.mode = .freewheel ∧ State.reset.sun.quality = 0x0048 ∧ State.reset.sun.utcValid = false ∧
     State.reset.cfg.slot = 2 ∧ State.reset.cfg.recs = [] ∧
     (∀ o : Outlet, (sessOf State.reset o).state = .s0 ∧ (sessOf State.reset o).drive = false ∧
       (State.reset.hedge.out.get o).closed = false) ∧
     State.reset.cis.hostKey = none ∧ State.reset.cis.metrology = none ∧ State.reset.dom.active = 0 ∧
     State.reset.trellis.role = 0 ∧ State.reset.logs.legal = [] ∧ State.reset.logs.general = []) ∧
  (HostBounded State.reset ∧ State.reset.pending = [])

/-- What every standing condition does when it takes effect stays within links, sessions, protection, switches, billing, logs
and outputs: time, power, Sundial, the acquisition, both links to other modules, updates, readers, tag, Rake, display, the
Sieve and the OTP are as before. -/
def Obligations.SettleFrame : Prop :=
  ∀ s : State, (settle s).clockMs = s.clockMs ∧ (settle s).power = s.power ∧ (settle s).sun = s.sun ∧ (settle s).acq = s.acq ∧
    (settle s).trellis = s.trellis ∧ (settle s).wadi = s.wadi ∧ (settle s).update = s.update ∧
    (settle s).reader0 = s.reader0 ∧ (settle s).reader1 = s.reader1 ∧ (settle s).tag = s.tag ∧ (settle s).rake = s.rake ∧
    (settle s).disp = s.disp ∧ (settle s).fabric = s.fabric ∧ (settle s).otp = s.otp ∧ (settle s).pending = s.pending

/-- The frame of the commands of the vehicle side (chapters 06 to 09 but for those that also act elsewhere): time, power,
Sundial, the acquisition, both links to other modules, updates, readers, tag, Rake, display and Sieve are as before. The frame
of the commands that have nothing to do with a vehicle: links, sessions, protection and switches are as before. No command
looks at the queue: it is left as it is. -/
def Obligations.CommandFrames : Prop :=
  (∀ (c : Instr) (s t : State), vehicleSide c = true → exec c s = .next t →
     t.clockMs = s.clockMs ∧ t.power = s.power ∧ t.sun = s.sun ∧ t.acq = s.acq ∧ t.trellis = s.trellis ∧ t.wadi = s.wadi ∧
     t.update = s.update ∧ t.reader0 = s.reader0 ∧ t.reader1 = s.reader1 ∧ t.tag = s.tag ∧ t.rake = s.rake ∧ t.disp = s.disp ∧
     t.fabric = s.fabric) ∧
  (∀ (c : Instr) (s t : State), otherSide c = true → exec c s = .next t →
     t.link = s.link ∧ t.sess = s.sess ∧ t.hedge = s.hedge ∧ t.sw = s.sw) ∧
  (∀ (c : Instr) (s t : State), exec c s = .next t → t.pending = s.pending)

/-! ### The host link (R49 to R55, R64, R65) -/

/-- R51, step 4: a request whose HMAC is wrong is not acted on. Only its origin's counters and times, the general log, the
journal and the outputs may change; the origin's last sequence and cached responses do not. R51, R64, R65: what arrives at a
port without a listener, or from a source that is not permitted, leaves the module as it is. The second half is the model's
reading (log entry 8). R52: a copy of a request still in progress is not executed but counted; a request whose response is
cached gets that response again; any other sequence that is not new is refused with COUNTER_STALE and leaves no trace in the
origin's sequence. -/
def Obligations.RequestNotExecuted : Prop :=
  (∀ (code : Nat) (r : Request) (run : State → State × Answer) (s : State),
     portOpen s r.port = true → permitted s r.port r.src = true → macGood s code r = false →
     let t := acceptRequest code r run s
     SameModule { s with logs := t.logs } t ∧ t.logs.legal = s.logs.legal ∧
       (originOf t r.port).lastSeq = (originOf s r.port).lastSeq ∧ (originOf t r.port).cache = (originOf s r.port).cache ∧
       (originOf t r.port).progress = (originOf s r.port).progress ∧
       ((originOf s r.port).authTimes = [] →
         t.out.head? = some (.packet (packetOf s r.port r.cls code r.seq 1 St.authFail [])))) ∧
  (∀ (code : Nat) (r : Request) (run : State → State × Answer) (s : State),
     (portOpen s r.port = false ∨ permitted s r.port r.src = false) → acceptRequest code r run s = s) ∧
  (∀ (code : Nat) (r : Request) (run : State → State × Answer) (s : State),
     portOpen s r.port = true → permitted s r.port r.src = true → macGood s code r = true → code ≠ 0x0101 →
     let t := acceptRequest code r run s
     (later r.seq (originOf s r.port).lastSeq = false →
       (originOf s r.port).progress.any (fun p => p.seq == r.seq) = true →
         SameModule s t ∧ t.out = s.out ∧ (originOf t r.port).lastSeq = (originOf s r.port).lastSeq ∧
           (originOf t r.port).progress = (originOf s r.port).progress.map
             (fun p => if p.seq = r.seq then { p with copies := p.copies + 1 } else p)) ∧
     (later r.seq (originOf s r.port).lastSeq = false →
       (originOf s r.port).progress.any (fun p => p.seq == r.seq) = false →
       ∀ p, (originOf s r.port).cache.find? (fun p => p.seq == r.seq) = some p →
         SameModule s t ∧ t.out = .packet p :: s.out ∧ originOf t r.port = originOf s r.port) ∧
     (later r.seq (originOf s r.port).lastSeq = false →
       (originOf s r.port).progress.any (fun p => p.seq == r.seq) = false →
       (originOf s r.port).cache.find? (fun p => p.seq == r.seq) = none →
         SameModule s t ∧ t.out = .packet (packetOf s r.port r.cls code r.seq 1 St.counterStale []) :: s.out ∧
           originOf t r.port = originOf s r.port))

/-- R52: a new request is accepted, whatever becomes of it in the later steps: its sequence is the origin's last at once, the
host counts as present (R64), and its response is the newest of the cached ones. R51, steps 6 and 8 to 12, and the conditions
of R42 and R434: a new request that fails one of them is answered with the status of the first failed step and is not acted on.
The order of the steps 6 to 12 of R51: reserved header fields before the class, the class before the length, and the length
before the queue and the load (R491). R434: ROM recovery accepts the opcodes 0x0101, 0x0E01, 0x0E02 and 0x0E08, and refuses
every other. -/
def Obligations.RequestAccepted : Prop :=
  (∀ (code : Nat) (r : Request) (run : State → State × Answer) (s : State),
     portOpen s r.port = true → permitted s r.port r.src = true → macGood s code r = true → code ≠ 0x0101 →
     later r.seq (originOf s r.port).lastSeq = true →
     let u := admitted code r s
     let t := acceptRequest code r run s
     ∀ (v : State) (st : Nat) (pl : List Byte), run u = (v, .now st pl) → v.host = u.host →
       (originOf t r.port).lastSeq = r.seq ∧ t.host.absent = false ∧ SameModule v t ∧
         (originOf t r.port).cache.head? = some (packetOf v r.port r.cls code r.seq 1 st pl) ∧
         t.out.head? = some (.packet (packetOf v r.port r.cls code r.seq 1 st pl))) ∧
  (∀ (op : OpSpec) (r : Request) (act : State → State × Answer) (s : State),
     portOpen s r.port = true → permitted s r.port r.src = true → macGood s op.code r = true →
     (op.code = 0x0101 ∨ seqClass (originOf s r.port) r.seq = .fresh) →
     (admitStatus op r ≠ St.ok → Answers s r op.code (admitStatus op r) [] (hostRequest op r act s) ∧
       SameModule s (hostRequest op r act s)) ∧
     (admitStatus op r = St.ok → conditionRefuses s op.code = true →
       Answers s r op.code St.refusedState [] (hostRequest op r act s) ∧ SameModule s (hostRequest op r act s))) ∧
  (∀ (op : OpSpec) (r : Request),
     ((r.flags.toNat &&& 0xFB ≠ 0 ∨ r.status ≠ 0 ∨ r.reserved ≠ 0) → admitStatus op r = St.range) ∧
     (r.flags = 0 → r.status = 0 → r.reserved = 0 →
       (r.cls ∉ op.classes → admitStatus op r = St.range) ∧
       (r.cls ∈ op.classes →
         (r.payload = [] → op.zeroOk = false → admitStatus op r = St.lenZero) ∧
         (r.payload ≠ [] → (1400 < r.payload.length ∨ op.lenOk r.payload.length = false) → admitStatus op r = St.lenBad) ∧
         (r.payload ≠ [] → r.payload.length ≤ 1400 → op.lenOk r.payload.length = true →
           (r.cls = clsH → (admitStatus op r = if 4 ≤ r.queued then St.busy else St.ok)) ∧
           (r.cls = clsN → (admitStatus op r = if 32 ≤ r.queued ∨ 990 < r.load then St.busy else St.ok)) ∧
           (r.cls = clsB → (admitStatus op r = if 8 ≤ r.queued ∨ 950 < r.load then St.busy else St.ok)))))) ∧
  (∀ (s : State) (code : Nat), s.power.phase = .recovery →
     (conditionRefuses s code = false ↔ code = 0x0101 ∨ code = 0x0E01 ∨ code = 0x0E02 ∨ code = 0x0E08))

/-! ### Reads -/

/-- R67, R519: the reads of the host link. Each answers with its payload and changes nothing of the module; a legal-log read
signs, and with the first signature under a key whose statement is pending that statement comes in force (R345). -/
def Obligations.HostLinkReads : Prop :=
  ∀ (s : State) (r : Request),
    (Admitted (opNone 0x0101 [clsN, clsH]) r s → ∃ t, exec (.identity r) s = .next t ∧
      Answers s r 0x0101 St.ok (identityBytes r.port s) t ∧ SameModule s t) ∧
    (Admitted (opNone 0x0102 [clsH, clsN]) r s → ∃ t, exec (.keepalive r) s = .next t ∧
      Answers s r 0x0102 St.ok (wordBytes 2 s.sun.quality ++
        [byte (sessOf s 0).state.code, byte (sessOf s 1).state.code, byte (sessOf s 2).state.code,
        byte (sessOf s 3).state.code, byte (flag s.hedge.safeOk), 0]) t ∧
      SameModule s t) ∧
    (fieldN r.payload 0 4 ≠ 0 → fieldN r.payload 4 4 % 8 = 0 → fieldN r.payload 12 2 ≤ 1384 → fieldN r.payload 14 2 = 0 →
      let data := slice (reportBytes s) (fieldN r.payload 4 4) (fieldN r.payload 12 2)
      (Admitted (opRead 0x0103 [clsN, clsB]) r s → ∃ t, exec (.configurationReport r) s = .next t ∧
        Answers s r 0x0103 St.ok (blockHeader (fieldN r.payload 0 4) (fieldN r.payload 4 4) (reportBytes s).length data.length ++ data) t ∧
        SameModule s t)) ∧
    (fieldN r.payload 4 2 ≤ 43 → fieldN r.payload 6 2 = 0 →
      (Admitted (opLen 0x0104 [clsN, clsB] 8) r s → ∃ t, exec (.generalLogRead r) s = .next t ∧
        Answers s r 0x0104 St.ok (generalLogReply r.payload s) t ∧ SameModule s t)) ∧
    (fieldN r.payload 0 2 ≤ 4095 → fieldN r.payload 2 2 ≤ 20 →
      (Admitted (opLen 0x0105 [clsN, clsB] 4) r s → ∃ t, exec (.legalLogRead r) s = .next t ∧
        Answers s r 0x0105 St.ok (legalLogReply r.payload s) t ∧ SameModule (signed s) t)) ∧
    (Admitted (opLen 0x0106 [clsN, clsB] 4) r s → ∃ t, exec (.bulkTransferStatus r) s = .next t ∧
      Answers s r 0x0106 St.ok (transferReply s (fieldN r.payload 0 4)) t ∧ SameModule s t) ∧
    (Admitted (opNone 0x0201 [clsN, clsH]) r s → ∃ t, exec (.sundialStatus r) s = .next t ∧
      Answers s r 0x0201 St.ok (sundialBytes s) t ∧ SameModule s t)

/-- R84, R131, R133: the reads of acquisition and metering. The register snapshot signs (R345). R163, R203, R239, R259: the
reads of links, sessions, protection and switches. -/
def Obligations.MeterAndVehicleReads : Prop :=
  (∀ (s : State) (r : Request),
     (Admitted (opNone 0x0303 [clsN, clsH]) r s → ∃ t, exec (.acquisitionStatus r) s = .next t ∧
       Answers s r 0x0303 St.ok (acquisitionBytes s) t ∧ SameModule s t) ∧
     (fieldN r.payload 0 1 ≤ 52 → fieldN r.payload 1 1 ≤ 53 → fieldN r.payload 2 2 = 0 →
       (Admitted (opLen 0x0401 [clsN, clsH, clsB] 4) r s → ∃ t, exec (.registerRead r) s = .next t ∧
         Answers s r 0x0401 St.ok (registerReply s (fieldN r.payload 0 1) (fieldN r.payload 1 1)) t ∧ SameModule s t)) ∧
     (Admitted (opNone 0x0402 [clsN]) r s → ∃ t, exec (.signedRegisterSnapshot r) s = .next t ∧
       Answers s r 0x0402 St.ok (registerReply s 0 53 ++ wordBytes 64 (metrologySign s (registerReply s 0 53))) t ∧
       SameModule (signed s) t) ∧
     (Admitted (opNone 0x0403 [clsN, clsH]) r s → ∃ t, exec (.instantaneousValues r) s = .next t ∧
       Answers s r 0x0403 St.ok (valuesBytes s.energy.values) t ∧ SameModule s t) ∧
     (Admitted (opNone 0x0404 [clsN, clsH]) r s → ∃ t, exec (.pulseStatus r) s = .next t ∧
       Answers s r 0x0404 St.ok (pulseBytes s) t ∧ SameModule s t) ∧
     (Admitted (opNone 0x1101 [clsN, clsH]) r s → ∃ t, exec (.powerStatus r) s = .next t ∧
       Answers s r 0x1101 St.ok (powerBytes s) t ∧ SameModule s t)) ∧
  (∀ (s : State) (r : Request),
     (Admitted (opNone 0x0501 [clsN, clsH]) r s → ∃ t, exec (.linkStatus r) s = .next t ∧
       Answers s r 0x0501 St.ok (linkBytes s 0 ++ linkBytes s 1 ++ linkBytes s 2 ++ linkBytes s 3) t ∧ SameModule s t) ∧
     (∀ o : Outlet, fieldN r.payload 0 1 = o.val → fieldN r.payload 1 3 = 0 →
       let c := (s.link.get o).counters
       (Admitted (opLen 0x0502 [clsN, clsB] 4) r s → ∃ t, exec (.linkCounters r) s = .next t ∧
         Answers s r 0x0502 St.ok (leBytes 4 c.runs ++ leBytes 4 c.failures ++ leBytes 4 c.tlsFails ++ leBytes 4 c.timers ++
           leBytes 4 c.invalid ++
           leBytes 4 c.dropped) t ∧
         SameModule s t)) ∧
     (Admitted (opNone 0x0606 [clsN, clsB]) r s → ∃ t, exec (.sieveStatus r) s = .next t ∧
       Answers s r 0x0606 St.ok (sieveStatusBytes s) t ∧ SameModule s t) ∧
     (Admitted (opNone 0x0607 [clsN, clsH]) r s → ∃ t, exec (.sessionStatus r) s = .next t ∧
       Answers s r 0x0607 St.ok (statusPayload s) t ∧ SameModule s t) ∧
     (Admitted (opNone 0x0701 [clsN, clsH]) r s → ∃ t, exec (.safetyStatus r) s = .next t ∧
       Answers s r 0x0701 St.ok (safetyStatusBytes s) t ∧ SameModule s t) ∧
     (Admitted (opNone 0x0801 [clsN, clsH]) r s → ∃ t, exec (.switchStatus r) s = .next t ∧
       Answers s r 0x0801 St.ok (switchStatusBytes s) t ∧ SameModule s t))

/-- R297, R315, R350: the reads of billing, display and key store. A request for a closed billing period that is not stored is
refused with CHECK_FAIL. Reading the tamper store with acknowledgement needs SERVICE and clears its mark. -/
def Obligations.LegalSideReads : Prop :=
  ∀ (s : State) (r : Request),
    (Admitted (opNone 0x0901 [clsN, clsH]) r s → ∃ t, exec (.billingStatus r) s = .next t ∧
      Answers s r 0x0901 St.ok (billingBytes s) t ∧ SameModule s t) ∧
    (fieldN r.payload 4 1 ≤ 5 → fieldN r.payload 5 3 = 0 →
      (Admitted (opLen 0x0903 [clsN, clsB] 8) r s → ∃ t, exec (.sessionRecordRead r) s = .next t ∧
        Answers s r 0x0903 St.ok (sessionRecordReply r.payload s) t ∧ SameModule s t)) ∧
    (∀ x, s.bill.periods.find? (fun x => x.number == fieldN r.payload 0 4) = some x →
      (Admitted (opLen 0x0904 [clsN, clsB] 4) r s → ∃ t, exec (.billingPeriodRead r) s = .next t ∧
        Answers s r 0x0904 St.ok x.bytes t ∧ SameModule s t)) ∧
    (s.bill.periods.find? (fun x => x.number == fieldN r.payload 0 4) = none →
      (Admitted (opLen 0x0904 [clsN, clsB] 4) r s → ∃ t, exec (.billingPeriodRead r) s = .next t ∧
        Answers s r 0x0904 St.checkFail [] t ∧ SameModule s t)) ∧
    (Admitted (opNone 0x0906 [clsN, clsH, clsB]) r s → ∃ t, exec (.tariffRegisters r) s = .next t ∧
      Answers s r 0x0906 St.ok (tariffRegisterBytes s) t ∧ SameModule s t) ∧
    (fieldN r.payload 0 2 ≤ 4095 → fieldN r.payload 2 2 = 0 →
      (Admitted (opLen 0x090A [clsN] 4) r s → ∃ t, exec (.accountRead r) s = .next t ∧
        Answers s r 0x090A St.ok (accountReply (fieldN r.payload 0 2) s) t ∧ SameModule s t)) ∧
    (fieldN r.payload 0 1 = 0 → fieldN r.payload 1 3 = 0 →
      (Admitted (opLen 0x090B [clsN] 4) r s → ∃ t, exec (.tamperRead r) s = .next t ∧
        Answers s r 0x090B St.ok (tamperStore s) t ∧ SameModule s t)) ∧
    (fieldN r.payload 0 1 = 1 → fieldN r.payload 1 3 = 0 →
      (s.cis.lifecycle = 3 → (Admitted (opLen 0x090B [clsN] 4) r s → ∃ t, exec (.tamperRead r) s = .next t ∧
         Answers s r 0x090B St.ok (tamperStore s) t ∧
         SameModule { s with bill := { s.bill with tamper := { s.bill.tamper with unacked := false } } } t)) ∧
      (s.cis.lifecycle ≠ 3 → (Admitted (opLen 0x090B [clsN] 4) r s → ∃ t, exec (.tamperRead r) s = .next t ∧
         Answers s r 0x090B St.refusedState [] t ∧ SameModule s t))) ∧
    (Admitted (opNone 0x0A01 [clsN, clsH]) r s → ∃ t, exec (.displayStatus r) s = .next t ∧
      Answers s r 0x0A01 St.ok (displayBytes s) t ∧ SameModule s t) ∧
    (fieldN r.payload 0 4 ≠ 0 → fieldN r.payload 4 4 % 8 = 0 → fieldN r.payload 12 2 ≤ 1384 → fieldN r.payload 14 2 = 0 →
      let object := (newestStress s).elim [] stressBytes
      let data := slice object (fieldN r.payload 4 4) (fieldN r.payload 12 2)
      (Admitted (opRead 0x0A03 [clsN, clsB]) r s → ∃ t, exec (.stressRead r) s = .next t ∧
        Answers s r 0x0A03 St.ok (blockHeader (fieldN r.payload 0 4) (fieldN r.payload 4 4) object.length data.length ++ data) t ∧
        SameModule s t)) ∧
    (Admitted (opNone 0x0B01 [clsN, clsH]) r s → ∃ t, exec (.cisternStatus r) s = .next t ∧
      Answers s r 0x0B01 St.ok (cisternBytes s) t ∧ SameModule s t) ∧
    (fieldN r.payload 1 3 = 0 → (fieldN r.payload 0 1 ≤ 5 ∨ (8 ≤ fieldN r.payload 0 1 ∧ fieldN r.payload 0 1 ≤ 11)) →
      let x := publicItem s (fieldN r.payload 0 1)
      (Admitted (opLen 0x0B02 [clsN, clsB] 4) r s → ∃ t, exec (.publicKeyRead r) s = .next t ∧
        Answers s r 0x0B02 St.ok ([byte (fieldN r.payload 0 1), byte (flag x.1.isSome), 0, 0] ++ x.1.getD (zeros x.2)) t ∧
        SameModule s t)) ∧
    (∀ d, s.cis.identity = some d →
      let body := [byte s.cis.lifecycle, 0] ++ leBytes 2 (keyGen s) ++
        leBytes 4 ((statementInForce s).elim 0 (fun x => x.number)) ++ digestBytes s.cis.legalMeas ++ digestBytes s.cis.appMeas
      (Admitted (opLen 0x0B06 [clsN, clsH] 32) r s → ∃ t, exec (.attest r) s = .next t ∧
        Answers s r 0x0B06 St.ok (body ++ wordBytes 64 (Config.sign d (r.payload ++ body) s.freeCount)) t ∧ SameModule s t))

/-- R383, R414, R436, R457, R471: the reads of domains, stack, Wadi, updates, tag and Rake. A tag block that cannot be read
refuses the request with CHECK_FAIL and is logged. -/
def Obligations.ModuleReads : Prop :=
  ∀ (s : State) (r : Request),
    (Admitted (opNone 0x0C01 [clsN, clsH]) r s → ∃ t, exec (.takeoverStatus r) s = .next t ∧
      Answers s r 0x0C01 St.ok (takeoverStatusBytes s) t ∧ SameModule s t) ∧
    (Admitted (opNone 0x0C03 [clsN, clsH, clsB]) r s → ∃ t, exec (.stackStatus r) s = .next t ∧
      Answers s r 0x0C03 St.ok (stackStatusBytes s) t ∧ SameModule s t) ∧
    (Admitted (opNone 0x0D01 [clsN, clsH]) r s → ∃ t, exec (.wadiStatus r) s = .next t ∧
      Answers s r 0x0D01 St.ok (wadiStatusBytes s) t ∧ SameModule s t) ∧
    (fieldN r.payload 0 4 ≠ 0 → fieldN r.payload 4 4 % 8 = 0 → fieldN r.payload 12 2 ≤ 1384 → fieldN r.payload 14 2 = 0 →
      let data := slice (neighbourTable s) (fieldN r.payload 4 4) (fieldN r.payload 12 2)
      (Admitted (opRead 0x0D02 [clsN, clsB]) r s → ∃ t, exec (.neighbourTable r) s = .next t ∧
        Answers s r 0x0D02 St.ok (blockHeader (fieldN r.payload 0 4) (fieldN r.payload 4 4) (neighbourTable s).length data.length ++ data) t ∧
        SameModule s t)) ∧
    (Admitted (opNone 0x0E02 [clsN, clsH]) r s → ∃ t, exec (.updateStatus r) s = .next t ∧
      Answers s r 0x0E02 St.ok ([byte (flag s.update.lock), byte s.update.trial.toNat, byte (failedBoots s), byte (flag (s.power.phase = .recovery))] ++
        wordBytes 4 s.update.generation ++ regionBytes s 0 ++ regionBytes s 1 ++ regionBytes s 2 ++ regionBytes s 3 ++
        regionBytes s 4) t ∧
      SameModule s t) ∧
    (Admitted (opNone 0x0E09 [clsN, clsB]) r s → ∃ w, exec (.sowingStatus r) s = .next w ∧
      Answers s r 0x0E09 St.ok (let l := s.update.sowing.elim [] (fun x => x.targets)
       leBytes 2 l.length ++ [0, 0] ++
         l.flatMap (fun t => leBytes 2 t.node ++ [byte t.status, byte t.hop] ++ leBytes 4 t.held)) w ∧
      SameModule s w) ∧
    (Admitted (opNone 0x0F01 [clsN, clsH]) r s → ∃ t, exec (.contactlessStatus r) s = .next t ∧
      Answers s r 0x0F01 St.ok (readerBytes s.reader0 ++ readerBytes s.reader1 ++
        [byte (flags [s.tag.field, s.tag.secured, s.tag.locked, tagPowered s]), byte s.tag.attempts, 0, 0] ++
        leBytes 4 s.tag.fieldWrites ++ leBytes 4 s.tag.abandoned) t ∧
      SameModule s t) ∧
    (let first := fieldN r.payload 0 1
     let count := fieldN r.payload 1 1
     count ≠ 0 → count ≤ 32 → first + count ≤ 256 → fieldN r.payload 2 2 = 0 →
      (∀ i, i < count → (blockContent s (first + i)).isSome = true) →
      (Admitted (opLen 0x0F02 [clsN, clsB] 4) r s → ∃ t, exec (.tagRead r) s = .next t ∧
        Answers s r 0x0F02 St.ok (r.payload.take 2 ++ [0, 0] ++
        (List.range count).flatMap (fun i => (blockContent s (first + i)).getD (zeros 32))) t ∧
        SameModule s t)) ∧
    (Admitted (opNone 0x1001 [clsN, clsH]) r s → ∃ t, exec (.rakeStatus r) s = .next t ∧
      Answers s r 0x1001 St.ok (rakeStatusBytes s) t ∧ SameModule s t)

/-! ### Logs (R57 to R63) -/

/-- R58, R60, R62, R63: an event writes one entry of the general log with the next index, the dial stamp and the UTC converted
from it, or none while UTC_INVALID stands (R38); a legal event also enters the legal log, chained to the entry before it, or
raises the overflow counter when that log is full. Nothing else changes but the journal of the active domain. R68: the archive
leaves one entry in the legal log: subsystem 0x01, code 0x0012, and in its detail bytes 0 to 13 of the old chain value and the
old used count. -/
def Obligations.LogEntries : Prop :=
  (∀ (origin sub code : Nat) (detail : List Byte) (legal : Bool) (s : State),
     let t := log origin sub code detail legal s
     let e := newEntry s origin sub code detail
     t = { s with logs := t.logs, dom := t.dom } ∧ t.logs.next = s.logs.next + 1 ∧ t.logs.general.head? = some e ∧
       e.index = s.logs.next ∧ e.origin = origin ∧ e.sub = sub ∧ e.code = code ∧ e.stamp = ⟨s.sun.cycle, s.sun.angle⟩ ∧
       e.utc = (if s.sun.quality.getLsbD 6 then none else utcNow s) ∧
       (∀ x, x ∈ t.logs.general → x = e ∨ x ∈ s.logs.general) ∧
       (legal = false → t.logs.legal = s.logs.legal ∧ t.logs.overflow = s.logs.overflow) ∧
       (legal = true → s.logs.legal.length < 4096 →
         t.logs.legal = ⟨e, Config.sha256 (digestBytes (lastChain s) ++ entryBytes e)⟩ :: s.logs.legal ∧
           t.logs.overflow = s.logs.overflow) ∧
       (legal = true → 4096 ≤ s.logs.legal.length →
         t.logs.legal = s.logs.legal ∧ t.logs.overflow = s.logs.overflow + 1)) ∧
  (∀ (origin : Nat) (s : State), ∃ e : LegalEntry,
     (archiveLegal origin s).logs.legal = [e] ∧ e.entry.origin = origin ∧ e.entry.sub = 0x01 ∧ e.entry.code = 0x0012 ∧
       e.entry.detail = (digestBytes (lastChain s)).take 14 ++ leBytes 2 s.logs.legal.length ∧
       e.chain = Config.sha256 (digestBytes 0 ++ entryBytes e.entry))

/-! ### Chapters 01 to 03 -/

/-- R51, R55, R64, R68: the other commands of the host link. A bad frame is only counted; a packet whose opcode no chapter
defines is answered UNKNOWN once the steps before it are passed; a transfer without a block for its time is closed with
TIMEOUT; the keepalive goes out as an event on each open port; an absent host is noted; the archive of the legal log needs
SERVICE and the chain value of the last entry. -/
def Obligations.HostLinkCommands : Prop :=
  ∀ (s : State) (r : Request) (port : Port) (src frameLen : Nat) (bytes : List Byte) (load queued id : Nat),
    (let op := opLen 0x0107 [clsN] 32
     (s.cis.lifecycle = 3 → r.payload = digestBytes (lastChain s) →
       (Admitted op r s → ∃ t, exec (.legalLogArchive r) s = .next t ∧
         Answers s r op.code St.ok [] t ∧ SameModule (archiveLegal (portOrigin r.port) s) t)) ∧
     (s.cis.lifecycle = 3 → r.payload ≠ digestBytes (lastChain s) → (Admitted op r s →
       ∃ t, exec (.legalLogArchive r) s = .next t ∧
        Answers s r op.code St.checkFail [] t ∧ SameModule s t)) ∧
     (s.cis.lifecycle ≠ 3 → (Admitted op r s → ∃ t, exec (.legalLogArchive r) s = .next t ∧
        Answers s r op.code St.refusedState [] t ∧ SameModule s t))) ∧
    (let c := Instr.hostPacketUndefined port src frameLen bytes load queued
     ((portOpen s port = false ∨ permitted s port src = false) → Ignores c s) ∧
     (portOpen s port = true → permitted s port src = true → framingOk frameLen bytes = false →
       Completes c s (fun t => SameModule s t ∧ t.out = s.out ∧
         t.host = (setOrigin port (fun o => { o with drops := o.drops + 1 }) (spiTransfer port s)).host)) ∧
     (portOpen s port = true → permitted s port src = true → framingOk frameLen bytes = true →
       opcodeDefined (fieldN bytes 4 2) = false →
       let q := requestOf port src bytes load queued
       macGood s (fieldN bytes 4 2) q = true → seqClass (originOf s port) q.seq = .fresh →
       Completes c s (fun t => SameModule s t ∧ Answers s q (fieldN bytes 4 2)
         (if q.flags.toNat &&& 0xFB ≠ 0 ∨ q.status ≠ 0 ∨ q.reserved ≠ 0 then St.range else St.unknown) [] t))) ∧
    Completes (.bulkTransferTimeout id) s (fun t =>
      t = { s with host := { s.host with transfers := s.host.transfers.map (fun x =>
        if x.id = id ∧ x.state = .receiving then { x with state := .inactive, status := St.timeout, blocks := [] } else x) } }) ∧
    (up s = true → Completes .keepalivePeriod s (fun t =>
      SameModule s t ∧ ∀ p : Port,
        (originOf t p).eventSeq = (originOf s p).eventSeq + (if portOpen s p then 1 else 0) ∧
        (portOpen s p = true →
          .packet (packetOf s p clsN 0x0102 ((originOf s p).eventSeq + 1) 2 0 (keepalivePayload s)) ∈ t.out))) ∧
    (up s = false → Ignores .keepalivePeriod s) ∧
    Completes .hostAbsenceTimeout s (fun t => t = { s with host := { s.host with absent := true } })

/-- R28, R29, R36 to R38, R277: the commands of Sundial. At a boundary the cycle count rises by one, the angle is 0 and the
mode follows the judgement of the cycle, by the settings in force as it begins; in ROM recovery Sundial alone takes the
boundary. A doorbell slot is armed with an angle and a period, or disarmed with period 0, and an angle that has passed waits
for the next cycle; a doorbell that is due goes out as the dial reaches its angle, and wakes its element. The UTC second counts
unless the module is off, and while Sundial runs the pair of UTC and stamp is latched, with the one before it; the slew of the
clock goes towards 0. -/
def Obligations.SundialCommands : Prop :=
  ∀ (s : State) (m : CycleMeasure) (elem : Fin 14) (slot : Fin 4) (angle : U16) (period : Byte) (ppm : Int),
    (let u := energyBoundary (acquisitionBoundary m.tc (startPeriods (finishLoad s)))
     let good := if cycleMissing u m then 0 else s.sun.goodRun + 1
     let miss := if cycleMissing u m then s.sun.missRun + 1 else 0
     let judged (t : State) : Prop :=
       t.sun.cycle = s.sun.cycle + 1 ∧ t.sun.angle = 0 ∧ t.sun.tc = m.tc ∧ t.sun.goodRun = good ∧ t.sun.missRun = miss ∧
         t.sun.mode = nextMode u (crossing u m) (cycleMissing u m) good miss ∧ t.sun.utc = s.sun.utc ∧
         t.sun.epoch = s.sun.epoch ∧ (t.sun.mode = .freewheel → t.sun.dialFreq = nominalFreq u)
     up s = true → CarriesOut (.dialCycleBoundary m) s judged) ∧
    (up s = false → s.power.phase = .recovery → Completes (.dialCycleBoundary m) s (fun t =>
      t.sun.cycle = s.sun.cycle + 1 ∧ t.sun.angle = 0 ∧ t.energy = s.energy ∧ t.acq = s.acq)) ∧
    (up s = false → s.power.phase ≠ .recovery → Ignores (.dialCycleBoundary m) s) ∧
    (up s = true → Completes (.doorbell elem ⟨slot, .arm angle period⟩) s (fun t =>
      t = { s with fabric := { s.fabric with doorbells := t.fabric.doorbells } } ∧
        t.fabric.doorbells.find? (fun d => d.elem == elem.val && d.slot == slot.val) =
          if period = 0 then none
          else some ⟨elem.val, slot.val, angle.toNat, period.toNat, 0, decide (angle.toNat ≤ s.sun.angle)⟩)) ∧
    (up s = true → Completes (.doorbell elem ⟨slot, .wait⟩) s (fun t =>
      t = { s with fabric := { s.fabric with waiting := withBit s.fabric.waiting elem.val } })) ∧
    (∀ d, s.fabric.doorbells.find? (fun d => d.elem == elem.val && d.slot == slot.val) = some d →
      (up s = true → d.due = true → Completes (.doorbell elem ⟨slot, .reach⟩) s (fun t =>
        t.out.head? = some (.doorbell elem.val slot.val) ∧ t.sun = { s.sun with angle := d.angle, frac := 0 } ∧
          t.fabric.waiting.getLsbD elem.val = false ∧ t = { s with sun := t.sun, fabric := t.fabric, out := t.out })) ∧
      (d.due = false → Ignores (.doorbell elem ⟨slot, .reach⟩) s)) ∧
    (s.fabric.doorbells.find? (fun d => d.elem == elem.val && d.slot == slot.val) = none →
      Ignores (.doorbell elem ⟨slot, .reach⟩) s) ∧
    (up s = false → ∀ act : DoorbellAct, Ignores (.doorbell elem ⟨slot, act⟩) s) ∧
    (s.power.state = .off → Ignores .utcSecond s) ∧
    (s.power.state ≠ .off → sunRuns s = false → Completes .utcSecond s (fun t =>
      t = { s with sun := { s.sun with utc := s.sun.utc + 1, utcMark := s.clockMs } })) ∧
    (s.power.state ≠ .off → sunRuns s = true → Completes .utcSecond s (fun t =>
      t = { s with
        sun := { s.sun with
          utc := s.sun.utc + 1, utcMark := s.clockMs, lastUtc := s.sun.pairUtc, lastStamp := s.sun.pairStamp
          pairUtc := if s.sun.utcValid then s.sun.utc + 1 else 0xFFFFFFFF, pairStamp := ⟨s.sun.cycle, s.sun.angle⟩ }
        bill := { s.bill with slew := t.bill.slew } } ∧
      (10 ≤ s.bill.slew → t.bill.slew = s.bill.slew - 10) ∧ (s.bill.slew ≤ -10 → t.bill.slew = s.bill.slew + 10) ∧
      (s.bill.slew = 0 → t.bill.slew = 0))) ∧
    (sunRuns s = true → Completes (.crystalTrim ppm) s (fun t => t = { s with sun := { s.sun with trim := ppm } })) ∧
    (sunRuns s = false → Ignores (.crystalTrim ppm) s) ∧
    Completes .clockSlewComplete s (fun t => t = { s with bill := { s.bill with slew := 0 } })

/-- R13, R14, R16, R17, R20, R476: the commands of memory integrity. A single-bit error is counted for its array and logged at
most once per 60 s; an error in ROM leaves the module in reset, with every pilot at 0 V and every contactor open; a double-bit
error is logged and answered element by element. A permitted access takes effect whole and leaves every byte outside its own
alone; a fetch-and-add adds, a swap replaces, a compare-and-swap replaces where the word is the expected one. An access that is
not permitted has no effect but its entry, the domain's exception, the standby's health word or the engine's restart. -/
def Obligations.IntegrityCommands : Prop :=
  ∀ (s : State) (corrected : List Nat) (array elem addr : Nat) (e : Fin 14) (i : StartInput) (a : Access),
    (up s = true → Completes (.retentionScrub corrected) s (fun t =>
      t.sun = { s.sun with angle := 16384, frac := 0 } ∧ (arrayOf t 14).total = (arrayOf s 14).total + corrected.length ∧
        t.logs.legal = s.logs.legal ∧ t.energy = s.energy ∧ t.sess = s.sess ∧ t.otp = s.otp)) ∧
    (up s = true → windowOf addr = arrayWindow array → Completes (.scrubAccess array addr true) s (fun t =>
      (arrayOf t array).total = (arrayOf s array).total + 1 ∧ (∀ b, b ≠ array → arrayOf t b = arrayOf s b) ∧
        ((arrayOf s array).lastLog = none →
          t.logs.general.head? = some (newEntry s 0 0x01 0x0102
            ([byte array, 0, 0, 0] ++ leBytes 4 ((arrayOf s array).unlogged + 1) ++ leBytes 4 addr ++ zeros 4))) ∧
        (∀ x, (arrayOf s array).lastLog = some x → s.clockMs < x + 60000 → t.logs = s.logs))) ∧
    Ignores (.scrubAccess array addr false) s ∧
    (s.power.state ≠ .battery → s.power.state ≠ .off → Completes (.doubleBitError 12 elem addr a i) s (fun t =>
      t.power.phase = .heldReset ∧ t.hedge.safeOk = false ∧
        (∀ o : Outlet, (t.link.get o).gen = .zero ∧ (t.hedge.out.get o).closed = false ∧ (sessOf t o).drive = false) ∧
        t.sw.chans.all (fun x => !x.on) = true ∧ t.energy.pulses.all (fun p => !p.conducting) = true ∧
          t.logs = { s.logs with inHold := 0 })) ∧
    ((s.power.state = .battery ∨ s.power.state = .off) → Ignores (.doubleBitError 12 elem addr a i) s) ∧
    (up s = true → Completes (.doubleBitError 14 elem addr a i) s (fun t =>
      t = (registerAt addr).elim (logDoubleBit 14 elem addr (markedAccess a s)) (fun m => markCorrupt m (logDoubleBit 14 elem addr (markedAccess a s))))) ∧
    (∀ slot m off : Nat, slot < 2 → m < 53 → off < 16 → registerAt (0x31000000 + 1024 * slot + 32 + 16 * m + off) = some m) ∧
    (up s = true → Completes (.doubleBitError 11 elem addr a i) s (fun t =>
      t = spoilSeed (addr / 0x40000 % 2) (logDoubleBit 11 elem addr (markedAccess a s)))) ∧
    (up s = true → Completes (.doubleBitError 13 elem addr a i) s (fun t =>
      t = spoilSieve addr (logDoubleBit 13 elem addr (markedAccess a s)))) ∧
    (up s = true → s.dom.active ≠ elem → elem = standby s → array ≤ 5 →
      Completes (.doubleBitError array elem addr a i) s (fun t =>
      t = failHealth elem Health.memoryFail (logDoubleBit array elem addr (markedAccess a s)))) ∧
    (up s = true → 6 ≤ array → array ≤ 10 → Completes (.doubleBitError array elem addr a i) s (fun t =>
      (elem = Elem.met0 → t = holdMet 0 (logDoubleBit array elem addr (markedAccess a s))) ∧
        (elem = Elem.met1 → t = holdMet 1 (logDoubleBit array elem addr (markedAccess a s))) ∧
        (4 ≤ elem → elem ≤ 13 → (array ≠ 9 ∨ elem ≠ Elem.pnl) →
          t = engineRestart elem (logDoubleBit array elem addr (markedAccess a s))))) ∧
    (accessReads a = true →
      (markedAccess a s).fabric = { s.fabric with answer := (markedAccess a s).fabric.answer, marked := true } ∧
      (markedAccess a s).logs = s.logs ∧ (markedAccess a s).energy = s.energy) ∧
    (accessReads a = false → markedAccess a s = s) ∧
    (up s = false → array ≠ 12 → Ignores (.doubleBitError array elem addr a i) s) ∧
    (up s = true → accessPermitted s e.val a addr = true → Completes (.permissionViolation e a addr) s (fun t =>
      t = { s with fabric := { s.fabric with mem := accessResult s.fabric.mem a addr, answer := accessAnswer s a addr, marked := false } } ∧
        (Memory.wf s.fabric.mem = true → Memory.wf t.fabric.mem = true) ∧
        (∀ x, (x < addr ∨ addr + accessLength a ≤ x) → Memory.read t.fabric.mem x = Memory.read s.fabric.mem x))) ∧
    (Memory.wf s.fabric.mem = true → ∀ (w : Bool) (v old : Nat),
      let n := wordLen w
      let after (a : Access) : Nat := Memory.load (accessResult s.fabric.mem a addr) addr n
      old = Memory.load s.fabric.mem addr n →
      after (.fetchAdd w v) = (old + v) % 2 ^ (8 * n) ∧ after (.swap w v) = v % 2 ^ (8 * n) ∧
        after (.compareSwap w old v) = v % 2 ^ (8 * n) ∧
        (∀ x, x ≠ old → accessResult s.fabric.mem (.compareSwap w x v) addr = s.fabric.mem)) ∧
    (let entry := [byte e.val, byte (flag (accessWrites a)), 0, 0] ++ leBytes 4 addr ++ zeros 8
     let u := log 0 0x01 0x0101 entry false { s with fabric := { s.fabric with answer := 0, marked := false } }
     up s = true → accessPermitted s e.val a addr = false → Completes (.permissionViolation e a addr) s (fun t =>
      (e.val = s.dom.active → t = { u with fabric := { u.fabric with domainException := true } }) ∧
      (e.val ≠ s.dom.active → e.val = standby s → t = failHealth e.val Health.violation u) ∧
      (e.val ≠ s.dom.active → e.val ≠ standby s → t = engineRestart e.val u))) ∧
    (up s = false → Ignores (.permissionViolation e a addr) s) ∧
    (up s = true → e.val = 9 → Completes (.engineReset e) s (fun t =>
      ∀ o : Outlet, t.hedge.scr.get o = { s.hedge.scr.get o with persist := List.replicate 7 0 })) ∧
    (up s = true → ∀ o : Outlet, e.val = 4 + o.val → Completes (.engineReset e) s (fun t =>
      t = settle (giveCause o 15 (closeTcp o s)))) ∧
    ((up s = false ∨ e.val < 2) → Ignores (.engineReset e) s)

/-! ### Chapters 04 and 05: acquisition and metering -/

/-- R113 (with R111 and R118): a register that is not CORRUPT takes the increment that its window brings; one that would carry
A past −2^79 or 2^79 − 1 is not added and the register is flagged CORRUPT; a CORRUPT register takes none and stays CORRUPT. A
stays within its limits, and its residue is A mod 7. R106: the reactive energy of a window goes, as |EQ|, to the register of
the quadrant that the signs of EP and Q set, and to no other; import receives max(EP, 0) and export max(−EP, 0). -/
def Obligations.EnergyArithmetic : Prop :=
  (∀ (session : Bool) (w : RegWindow) (x : Register) (inc : Int),
     let y := stepRegister session w x
     (x.corrupt = false → w.status.getLsbD Reg.noData = false → w.inc = some inc →
       (-(2 ^ 79) ≤ x.acc + inc → x.acc + inc < 2 ^ 79 → y.acc = x.acc + inc) ∧
       ((x.acc + inc < -(2 ^ 79) ∨ 2 ^ 79 ≤ x.acc + inc) → y.acc = x.acc ∧ y.corrupt = true)) ∧
     (x.corrupt = true → y.acc = x.acc ∧ y.corrupt = true) ∧
     (w.status.getLsbD Reg.noData = true → y.acc = x.acc) ∧
     (-(2 ^ 79) ≤ x.acc ∧ x.acc < 2 ^ 79 → -(2 ^ 79) ≤ y.acc ∧ y.acc < 2 ^ 79) ∧
     y.residue = (y.acc % 7).toNat) ∧
  ((∀ (ps : List WinPos) (v i : List Rat),
      let ep := sumRat ((v.zipWith (· * ·) i).zipWith (fun x p => x * p.dt / (36 / 10)) ps)
      let q := reactive ps v i
      let t := windowTime ps / (36 / 10)
      let eq := units (max (q * t) (-(q * t)))
      let l := gridIncrements ps v i
      l[0]? = some (units (max ep 0)) ∧ l[1]? = some (units (max (-ep) 0)) ∧
        ∀ j < 4, l[2 + j]? = some (if quadrant ep q = j then eq else 0)) ∧
   (∀ ep q : Rat, (0 ≤ ep → 0 ≤ q → quadrant ep q = 0) ∧ (ep < 0 → 0 ≤ q → quadrant ep q = 1) ∧
      (ep < 0 → q < 0 → quadrant ep q = 2) ∧ (0 ≤ ep → q < 0 → quadrant ep q = 3)))

/-- R114, R115, R119: a commit that is written takes the next number, the cycle and angle of the window's end and its kind,
holds the registers as they then stand, and is the newest complete one; a partial commit also sets the marker's state to 2.
With both metrology engines held no commit is written, and the marker stays. -/
def Obligations.CommitWritten : Prop :=
  ∀ (w : WindowInput) (last : Fin 256) (s : State),
    (∀ t changes, energyRegular w s = (t, some changes) → ∃ c : CommitSlot, newestCommit t = some c ∧
      c.number = (newestCommit s).elim 1 (fun x => x.number + 1) ∧ c.stamp = ⟨s.sun.cycle, 32768⟩ ∧ c.partialKind = false ∧
      c.regs = t.energy.regs.map slotRegister) ∧
    (∀ t changes, energyPartial w last.val s = (t, some changes) → ∃ c : CommitSlot, newestCommit t = some c ∧
      c.number = (newestCommit s).elim 1 (fun x => x.number + 1) ∧
      c.stamp = ⟨s.sun.cycle, if last.val = 127 then 32768 else 256 * last.val⟩ ∧ c.partialKind = true ∧
      c.regs = t.energy.regs.map slotRegister ∧ t.energy.markState = 2) ∧
    (s.acq.held0 = true → s.acq.held1 = true →
      newestCommit (energyRegular w s).1 = newestCommit s ∧ newestCommit (energyPartial w last.val s).1 = newestCommit s ∧
        (energyPartial w last.val s).1.energy.markState = s.energy.markState)

/-- R75, R78 to R83, R89 to R91: the commands of the acquisition. A sample of a live channel enters the running cycle; a stuck
run is noted with its count where it is longer than the limit; a measurement waits for its cycles and is answered when they are
complete; a trial calibration is taken in SERVICE with every outlet idle and enters the legal log. -/
def Obligations.AcquisitionCommands : Prop :=
  ∀ (s : State) (r : Request) (k : Fin 256) (tk run : Nat) (streams : List ChanStream) (st : ChanStream) (ch : Chan),
    (up s = true → Completes (.gridCoherentSample k tk streams) s (fun t =>
      t = { s with
        sun := { s.sun with angle := 256 * k.val, frac := 0 }, acq := t.acq, fabric := t.fabric, out := t.out, hedge := t.hedge } ∧
      t.fabric = { s.fabric with doorbells := t.fabric.doorbells, waiting := t.fabric.waiting })) ∧
    (up s = true → s.acq.coverNow = false → s.acq.measure = none → chanLive s st.chan.val = true →
      let c := st.chan.val
      let codes := protSamples s c st.protect
      ∀ y, sampleAt (inverted s c) s.acq.mclkCode (calOfChan s c) s.acq.t0 tk st = some y →
      Completes (.gridCoherentSample k tk [st]) s (fun t =>
        t.acq = { s.acq with chans := modifyAt s.acq.chans c (fun x => { x with
          prot := if c = 23 then x.prot else codes.getLast?.getD x.prot
          cur := x.cur ++ [⟨k.val, y, st.stuckSpan || s.acq.restartLeft != 0⟩]
          overrange := x.overrange || (c != 23 && (protFeed st.protect).any (fun v => overrangeLevel s < v.natAbs))
          clip := x.clip || (metFeed s.acq.mclkCode st.metrology).any saturated }) })) ∧
    (up s = false → Ignores (.gridCoherentSample k tk streams) s) ∧
    (up s = true → chanOn s ch.val = true → stuckLimit s < run → chanOutlet ch.val = none →
      Completes (.stuckDetected ch run) s (fun t =>
      t = { s with acq := { s.acq with chans := modifyAt s.acq.chans ch.val (fun x => { x with
        stuck := true, stuckRun := true, sinceStuck := 0, stuckEvents := min 65535 (x.stuckEvents + 1) }) } })) ∧
    (up s = true → chanOn s ch.val = true → stuckLimit s < run → chanOutlet ch.val ≠ none →
      CarriesOut (.stuckDetected ch run) s (fun t =>
      t.acq = { s.acq with chans := modifyAt s.acq.chans ch.val (fun x => { x with
        stuck := true, stuckRun := true, sinceStuck := 0, stuckEvents := min 65535 (x.stuckEvents + 1) }) })) ∧
    ((up s = false ∨ chanOn s ch.val = false ∨ run ≤ stuckLimit s) → Ignores (.stuckDetected ch run) s) ∧
    (let p := r.payload
     firstFail p measureFields = St.ok → fieldN p 0 1 ≠ fieldN p 1 1 → chanOn s (fieldN p 0 1) = true →
     s.acq.measure = none → Admitted (opLen 0x0301 [clsN, clsB] 8) r s → Completes (.channelMeasure r) s (fun t =>
      SameModule { s with acq := { s.acq with measure := some {
        port := r.port, seq := r.seq, cls := r.cls, channel := fieldN p 0 1, reference := fieldN p 1 1, mode := fieldN p 2 1
        wanted := fieldN p 4 2, started := false, flags := 0, rawCur := [], cycles := [] } } } t ∧
      t.out = s.out ∧ (originOf t r.port).progress = ⟨r.seq, r.cls, 0x0301, 0⟩ :: (originOf s r.port).progress)) ∧
    (firstFail r.payload measureFields = St.ok → fieldN r.payload 0 1 ≠ fieldN r.payload 1 1 →
      chanOn s (fieldN r.payload 0 1) = true → s.acq.measure ≠ none →
      (Admitted (opLen 0x0301 [clsN, clsB] 8) r s → ∃ t, exec (.channelMeasure r) s = .next t ∧
        Answers s r 0x0301 St.busy [] t ∧ SameModule s t)) ∧
    (∀ m : Measure, s.acq.measure = some m → m.started = true → m.wanted ≤ m.cycles.length →
      Completes .channelMeasureComplete s (fun t =>
        SameModule { s with acq := { s.acq with measure := none } } t ∧
        t.out.head? = some (.packet (packetOf s m.port m.cls 0x0301 m.seq 1 St.ok (measureReply s m))))) ∧
    (s.acq.measure = none → Ignores .channelMeasureComplete s) ∧
    (let p := r.payload
     let op := opLen 0x0302 [clsN] 16
     firstFail p calFields = St.ok →
     (s.cis.lifecycle = 3 → allIdle s = true → measuring s (fieldN p 0 1) = false → legalRoom s = true →
       (Admitted op r s → ∃ t, exec (.trialCalibration r) s = .next t ∧ Answers s r op.code St.ok [] t ∧
         SameModule (log (portOrigin r.port) 0x03 0x0302 p true
        { s with acq := { s.acq with chans := modifyAt s.acq.chans (fieldN p 0 1) (fun x => { x with
          nextTrial := some ⟨fieldN p 4 4, fieldI p 8 4, fieldI p 12 2⟩, dropTrial := false }) } }) t)) ∧
     ((s.cis.lifecycle ≠ 3 ∨ allIdle s = false) → (Admitted op r s → ∃ t, exec (.trialCalibration r) s = .next t ∧
         Answers s r op.code St.refusedState [] t ∧ SameModule s t)) ∧
     (s.cis.lifecycle = 3 → allIdle s = true → measuring s (fieldN p 0 1) = false → legalRoom s = false →
       (Admitted op r s → ∃ t, exec (.trialCalibration r) s = .next t ∧ Answers s r op.code St.noSpace [] t ∧ SameModule s t)))

/-- R104, R115, R117, R119, R123, R133: the commands of metering. -/
def Obligations.MeterCommands : Prop :=
  ∀ (s : State) (r : Request) (w : WindowInput) (last : Fin 256) (o : Outlet) (m : Fin 8),
    (up s = true → (s.power.state ≠ .hold ∨ s.energy.tail = true) → Completes (.energyCommit w) s (fun t =>
      t = regularCommit w (reachAngle 32768 s) ∧
        ∀ u, energyRegular w (reachAngle 32768 s) = (u, none) → t = u)) ∧
    ((up s = false ∨ (s.power.state = .hold ∧ s.energy.tail = false)) → Ignores (.energyCommit w) s) ∧
    (up s = true → s.power.state = .hold → s.energy.tail = true → Completes (.partialCommit w last) s (fun t =>
      let u := energyPartial w last.val (dialAtLeast (256 * last.val) s)
      t = u.2.elim u.1 (fun changes => writeLane (billWindow true changes u.1)))) ∧
    ((up s = false ∨ s.power.state ≠ .hold ∨ s.energy.tail = false) → Ignores (.partialCommit w last) s) ∧
    Completes (.coolantTemperatureTimeout o) s (fun t =>
      t = { s with energy := { s.energy with coolant := t.energy.coolant } } ∧ t.energy.coolant.get o = none ∧
        ∀ p, p ≠ o → t.energy.coolant.get p = s.energy.coolant.get p) ∧
    (let p := s.energy.pulses.getD m.val .init
     let out := engineOut s (regOfMet1 (pulseReg s m.val))
     (up s = true → s.energy.pulsesHeld = false → out = false → pulseConst s m.val ≠ 0 → 0 < p.backlog → p.conducting = false →
       Completes (.pulseEmit m) s (fun t =>
        t = { s with energy := { s.energy with pulses := modifyAt s.energy.pulses m.val (fun p => { p with conducting := true }) } })) ∧
     ((up s = false ∨ s.energy.pulsesHeld = true ∨ out = true ∨ pulseConst s m.val = 0 ∨ p.backlog = 0 ∨ p.conducting = true) →
       Ignores (.pulseEmit m) s)) ∧
    Completes (.pulseEnd m) s (fun t =>
      t = { s with energy := { s.energy with pulses := modifyAt s.energy.pulses m.val (fun p =>
        if p.conducting then { p with backlog := p.backlog - 1, counter := p.counter + 1, conducting := false } else p) } }) ∧
    (up s = true → s.energy.changed = true → Completes .snapshotPeriod s (fun t =>
      t = { s with energy := { s.energy with changed := false }, logs := t.logs, dom := t.dom } ∧
        t.logs.next = s.logs.next + 53 ∧ t.logs.legal = s.logs.legal)) ∧
    ((up s = false ∨ s.energy.changed = false) → Ignores .snapshotPeriod s) ∧
    (let m := fieldN r.payload 0 1
     let v := fieldI r.payload 4 8
     let op := opLen 0x0405 [clsN] 12
     m ≤ 52 → fieldN r.payload 1 3 = 0 →
     (s.cis.lifecycle = 3 → allIdle s = true → (regAt s m).corrupt = true → restoreFits m v = true → legalRoom s = true →
       (Admitted op r s → ∃ t, exec (.registerRestore r) s = .next t ∧ Answers s r op.code St.ok [] t ∧
         SameModule (log (portOrigin r.port) 0x04 0x0407 (byte m :: zeros 7 ++ leInt 8 v) true
        { s with energy := { s.energy with restore := s.energy.restore.filter (fun x => x.1 != m) ++ [(m, v)] } }) t)) ∧
     ((s.cis.lifecycle ≠ 3 ∨ allIdle s = false ∨ (regAt s m).corrupt = false) →
       (Admitted op r s → ∃ t, exec (.registerRestore r) s = .next t ∧
         Answers s r op.code St.refusedState [] t ∧ SameModule s t)) ∧
     (s.cis.lifecycle = 3 → allIdle s = true → (regAt s m).corrupt = true → restoreFits m v = false →
       (Admitted op r s → ∃ t, exec (.registerRestore r) s = .next t ∧ Answers s r op.code St.range [] t ∧ SameModule s t)))

/-! ### Chapter 18: power, resets and the button -/

/-- R476, R480, R481: what a restart that works like a power-on keeps and what it takes back. The queue, OTP, logs, the commit
slots, the weld latches, each origin's L, the Wadi frame counter, the closed records and the tag's memory stay; energy
registers, sessions, links and the key store's working state are as after reset, and no outlet is driven. R480: retention SRAM
that lost its content reads as the last column of the table says: no commit, no marker, no signature, an invalid clock, the
session number of the latest entry, and the log index after the newest entry. Flash, OTP and the tag stay. -/
def Obligations.RestartKeeps : Prop :=
  (∀ (cause : Nat) (straps : Slot) (recover : Bool) (s : State),
     let t := fullRestart cause straps recover s
     t.pending = s.pending ∧ t.otp = s.otp ∧ t.logs = { s.logs with inHold := 0 } ∧ t.power.state = .run ∧
       t.power.phase = (if cause = 3 then .pllWait else .charging) ∧ t.power.cause = cause ∧ t.power.straps = straps ∧
       t.energy.slot0 = s.energy.slot0 ∧ t.energy.slot1 = s.energy.slot1 ∧ t.energy.markState = s.energy.markState ∧
       t.energy.regs = State.reset.energy.regs ∧ t.link = State.reset.link ∧ t.acq = State.reset.acq ∧
       t.sess.lastNumber = s.sess.lastNumber ∧
       (∀ p, (originOf t p).lastSeq = (originOf s p).lastSeq ∧ (originOf t p).cache = []) ∧
       (∀ o : Outlet, (sessOf t o).state = .s0 ∧ (sessOf t o).drive = false ∧ (t.hedge.out.get o).closed = false ∧
         (t.hedge.out.get o).latched = if (s.hedge.out.get o).latched.getLsbD 5 then 0x20 else 0) ∧
       t.wadi.txEpoch = s.wadi.txEpoch ∧ t.wadi.txCounter = s.wadi.txCounter ∧ t.bill.records = s.bill.records ∧
       t.bill.periods = s.bill.periods ∧ t.bill.pStep = s.bill.pStep ∧ t.bill.pIncomplete = s.bill.pIncomplete ∧
       t.bill.pLost = s.bill.pLost ∧ t.bill.lastEnd = s.bill.lastEnd ∧ t.bill.demand0 = s.bill.demand0 ∧
       t.bill.demand1 = s.bill.demand1 ∧ newestSystem t.power = newestSystem (saveSystem s).power ∧
         t.tag.blocks = s.tag.blocks ∧ t.cis.keyNumber = s.cis.keyNumber ∧ t.cis.hostKey = none ∧
       t.update.trial = s.update.trial ∧ t.update.confirmed = s.update.confirmed ∧ t.update.ledger = s.update.ledger ∧
       t.rake.signature = s.rake.signature ∧ t.power.orderly = none ∧ t.power.shutting = false) ∧
  (∀ s : State,
     let t := loseRetention s
     t.power.retention = false ∧ t.sun.utcValid = false ∧ newestCommit t = none ∧ t.energy.markState = 0 ∧
       newestSystem t.power = none ∧ t.bill.tamper = .init ∧ t.rake.signature = none ∧ t.rake.magic = false ∧
         t.hedge.stored = none ∧
       (s.logs.general = [] → t.logs.next = 0) ∧
       (∀ e l, s.logs.general = e :: l → t.logs.next = e.index + 1) ∧
       t.logs.general = s.logs.general ∧ t.logs.legal = s.logs.legal ∧ t.logs.overflow = 0 ∧
       (∀ e, latestEntry s 0x06 0x0601 (fun _ => true) = some e → t.sess.lastNumber = fieldN e.detail 4 4) ∧
       (latestEntry s 0x06 0x0601 (fun _ => true) = none → t.sess.lastNumber = 0) ∧
       t.otp = s.otp ∧ t.tag = s.tag ∧ t.update = s.update ∧ t.bill.records = s.bill.records ∧ t.disp = s.disp)

/-- R60, R119, R473, R474: supply and hold-up. HOLD entry writes the marker, takes the pilots to 0 V, darkens the panels and
marks the outlets with energy flowing; the return brings back the commanded pilots and gives the marked outlets cause 15; at
the end of hold-up the module goes to BATTERY or OFF by VBAT, and loses retention SRAM in OFF. -/
def Obligations.SupplyCommands : Prop :=
  ∀ (s : State) (v v24 vbat : Nat) (straps : Slot) (recover pressed : Bool),
    (up s = true → s.power.state ≠ .hold → Completes (.holdEntry v24) s (fun t =>
      t.power.state = .hold ∧ t.power.v24 = v24 ∧ t.power.lowest24 = v24 ∧
      (∀ o : Outlet, t.power.cut.get o = decide (4 ≤ (sessOf s o).state.code ∧ (sessOf s o).state.code ≤ 7)) ∧
      t.energy.markState = 1 ∧ t.energy.markStamp = stamp s ∧ t.energy.regs = s.energy.regs ∧
      (∀ o : Outlet, (t.link.get o).gen = .zero ∧ (t.link.get o).pilot = none ∧
        (t.link.get o).commanded = (s.link.get o).commanded) ∧
      (∀ o : Outlet, t.hedge.out.get o = { s.hedge.out.get o with high := 0, low := 0 }) ∧
      t.hedge = { s.hedge with out := t.hedge.out } ∧
      t.disp.state = .off ∧ t.disp.dispEn = false ∧ t.sess = s.sess ∧ t.otp = s.otp ∧ t.out = s.out ∧
      t.logs.general.head? = some (newEntry s 0 0x11 0x1102 ([byte s.power.state.code, 2, 0, 0] ++ leBytes 4 v24 ++ zeros 8)))) ∧
    (s.power.state ≠ .run → s.power.state ≠ .idle → Ignores (.holdEntry v24) s) ∧
    ((s.power.state = .run ∨ s.power.state = .idle) → s.power.phase = .rake → Completes (.holdEntry v24) s (fun t =>
      t.power.state = .hold ∧ t.power.phase = .unpowered ∧ t.rake.left = [] ∧ t.rake.signature = s.rake.signature)) ∧
    (up s = true → s.power.state = .hold → CarriesOut (.holdReturn v24) s (fun t => ∃ u : State,
      t = forOutlets (fun o w => if s.power.cut.get o then giveCause o 15 w else w) u ∧
      u.power = { s.power with state := .run, v24 := v24, cut := .all false } ∧ u.energy.markState = 0 ∧
      u.disp.state = .starting ∧ u.disp.dispEn = true ∧
      (∀ o : Outlet, (u.link.get o).gen = (s.link.get o).commanded ∧ (u.link.get o).test = false) ∧
      u.logs.general.head? = some (newEntry s 0 0x11 0x1102 ([2, 0, 0, 0] ++ leBytes 4 v24 ++ zeros 8)))) ∧
    (s.power.state = .hold → s.power.phase = .unpowered → Completes (.holdReturn v24) s (fun t =>
      t = fullRestart 9 s.power.straps s.power.recover { s with power := { s.power with v24 := v24 } })) ∧
    (s.power.state ≠ .hold → Ignores (.holdReturn v24) s) ∧
    (s.power.state = .hold → 200 ≤ vbat → Completes (.holdupEnd vbat) s (fun t =>
      t.power.state = .battery ∧ t.power.phase = .unpowered ∧ t.power.vbat = vbat ∧ t.power.retention = s.power.retention ∧
      t.energy.slot0 = s.energy.slot0 ∧ t.energy.slot1 = s.energy.slot1 ∧ t.logs.legal = s.logs.legal ∧
      (up s = true → t.logs.lost ≤ s.logs.inHold - 64 ∧ t.logs.general = s.logs.general.drop t.logs.lost))) ∧
    (s.power.state = .hold → vbat < 200 → Completes (.holdupEnd vbat) s (fun t =>
      t.power.state = .off ∧ t.power.phase = .unpowered ∧ t.power.retention = false ∧ newestCommit t = none ∧
      t.logs.legal = s.logs.legal ∧ t.otp = s.otp)) ∧
    (s.power.state ≠ .hold → Ignores (.holdupEnd vbat) s) ∧
    (s.power.state = .battery → Completes (.vbatLoss vbat) s (fun t =>
      t = loseRetention { s with power := { s.power with state := .off, vbat := vbat } })) ∧
    (s.power.state ≠ .battery → Ignores (.vbatLoss vbat) s) ∧
    (up s = true → v < 260 → s.power.vbatLow = false → Completes (.vbatLow v) s (fun t =>
      t.power = { s.power with vbat := v, vbatLow := true } ∧
      t.logs.general.head? = some (newEntry s 0 0x11 0x1104 ([3, 0, 0, 0] ++ leBytes 4 v ++ zeros 8)))) ∧
    ((up s = false ∨ 260 ≤ v ∨ s.power.vbatLow = true) → Completes (.vbatLow v) s (fun t =>
      t = { s with power := { s.power with vbat := v, vbatLow := decide (v < 260) } })) ∧
    ((s.power.state = .battery ∨ s.power.state = .off) → Completes (.powerOnReset v24 vbat straps recover pressed) s (fun t =>
      t = fullRestart 1 straps recover { s with power := { s.power with
        v24 := v24, vbat := vbat, vbatLow := decide (vbat < 260), pressed := pressed, stuck := false } })) ∧
    (s.power.state ≠ .battery → s.power.state ≠ .off → Ignores (.powerOnReset v24 vbat straps recover pressed) s)

/-- R475, R476, R488: brown-out, the lock wait and the start. A rail or the clock takes a supplied module through a restart
with its cause; with the hold-up charged the start test runs; with a failed test of both domains the module stays in reset, and
with a bad image it waits for the boot timeout; otherwise the images boot. -/
def Obligations.StartCommands : Prop :=
  ∀ (s : State) (i : StartInput) (v : Nat),
    (supplied s = true → Completes (.brownOut .rail) s (fun t => t = fullRestart 2 s.power.straps s.power.recover s)) ∧
    (supplied s = true → Completes (.brownOut .pll) s (fun t => t = fullRestart 3 s.power.straps s.power.recover s)) ∧
    (s.power.state = .hold → up s = true → s.energy.tail = true →
      Completes (.brownOut .holdup) s (fun t => t = fullRestart 2 s.power.straps s.power.recover s)) ∧
    (supplied s = false → Ignores (.brownOut .rail) s ∧ Ignores (.brownOut .pll) s) ∧
    ((s.power.state ≠ .hold ∨ up s = false ∨ s.energy.tail = false) → Ignores (.brownOut .holdup) s) ∧
    (s.power.phase = .pllWait → Completes .pllLockWaitExpiry s (fun t => t = fullRestart 3 s.power.straps s.power.recover s)) ∧
    (s.power.phase ≠ .pllWait → Ignores .pllLockWaitExpiry s) ∧
    (s.power.phase = .charging → s.power.charged = false → Completes (.holdupChargeTimeout v) s (fun t =>
      t.power = s.power ∧ t.logs.general.head? = some (newEntry s 0 0x11 0x1104 ([1, 0, 0, 0] ++ leBytes 4 v ++ zeros 8)))) ∧
    ((s.power.phase ≠ .charging ∨ s.power.charged = true) → Ignores (.holdupChargeTimeout v) s) ∧
    (let ready := (s.power.phase = .charging ∨ s.power.phase = .pllWait) ∧ s.power.state = .run
     (¬ready → Ignores (.holdupCharged i) s) ∧
     (ready → signatureUsable s = true → i.romOk = false → Completes (.holdupCharged i) s (fun t =>
       t.power.phase = .heldReset ∧ t.power.charged = true ∧ t.rake.lastKind = s.rake.lastKind)) ∧
     (ready → signatureUsable s = true → i.coreA = false → i.coreB = false → Completes (.holdupCharged i) s (fun t =>
       t.power.phase = .heldReset)) ∧
     (ready → signatureUsable s = false → i.groups.getD 0 3 ≠ 0 → i.groups.getD 1 3 ≠ 0 →
       Completes (.holdupCharged i) s (fun t => t.power.phase = .heldReset ∧ t.rake.lastKind = 3)) ∧
     (let passed := (signatureUsable s = true ∧ i.romOk = true ∧ (i.coreA = true ∨ i.coreB = true)) ∨
        (signatureUsable s = false ∧ (i.groups.getD 0 3 = 0 ∨ i.groups.getD 1 3 = 0))
      ready → passed → s.power.recover = false → s.power.cause ≠ 8 → s.update.ledger.take 2 ≠ [0x0F, 0x0F] → s.update.trial = 0 →
      Completes (.holdupCharged i) s (fun t =>
        t.update.ledger.head? = some 0x0F ∧
        (i.imagesOk = false → t.power.phase = .bootFailed) ∧
        (i.imagesOk = true → t.power.phase = .booting ∧ t.power.retention = true ∧
          t.power.retentionAtStart = s.power.retention ∧ t.power.startMs = s.clockMs ∧ t.disp.state = .starting))) ∧
     (ready → signatureUsable s = true → i.romOk = true → i.coreA = true → (s.power.recover = true ∨ s.power.cause = 8) →
      Completes (.holdupCharged i) s (fun t => t.power.phase = .recovery ∧ t.power.charged = true)))

/-- R418, R476 to R478: a warm reset. What runs on stays: Sundial, the energy registers and commits, OTP, the power state and
the legal log; open transfers are closed, tests and pre-authorisations end, and the count of warm resets rises. Two failed
boots lead to recovery instead. R418, R434, R476, R478: the events that lead to a warm reset, and recovery. -/
def Obligations.ResetCommands : Prop :=
  (∀ (cause : Nat) (i : StartInput) (s : State),
     let t := warmRestart cause i s
     s.acq.mclkOn = true →
     (s.update.ledger.take 2 ≠ [0x0F, 0x0F] → s.update.trial = 0 →
       t.otp = s.otp ∧ t.pending = s.pending ∧ t.sun = s.sun ∧ t.power.state = s.power.state ∧ t.power.cause = cause ∧
       t.power.warmResets = s.power.warmResets + 1 ∧ t.power.orderly = none ∧ t.power.shutting = false ∧
       t.energy.slot0 = s.energy.slot0 ∧ t.energy.slot1 = s.energy.slot1 ∧
       t.update.ledger.head? = some 0x0F ∧ t.host.transfers.all (fun x => x.state != .receiving) = true ∧
       (i.imagesOk = false → t.power.phase = .bootFailed ∧ t.link = s.link ∧ t.sess = s.sess ∧ t.hedge = s.hedge) ∧
       (i.imagesOk = true → t.power.phase = .booting ∧
         t.disp.test = none ∧ (∀ o : Outlet, (t.link.get o).test = false))) ∧
     (s.update.ledger.take 2 = [0x0F, 0x0F] → s.update.trial = 0 → s.update.ledger.length < 1024 →
       t.power.phase = .recovery ∧ t.otp = s.otp ∧ t.energy.slot0 = s.energy.slot0)) ∧
  (∀ (s : State) (i : StartInput) (r : Request),
     let ended := awake s = true ∧ sessionsEnded s = true
     let booting := (s.power.phase = .booting ∨ s.power.phase = .bootFailed) ∧ s.power.state ≠ .hold
     (ended → s.power.orderly = some (false, false) → Completes (.warmReset .opcode i) s (fun t => t = warmRestart 4 i s)) ∧
     (ended → s.power.orderly = some (false, true) → Completes (.warmReset .button i) s (fun t => t = warmRestart 5 i s)) ∧
     (¬ended → Ignores (.warmReset .opcode i) s ∧ Ignores (.warmReset .button i) s) ∧
     (domainRuns s = true → Completes (.warmReset .restartFailed i) s (fun t => t = warmRestart 6 i s)) ∧
     (booting → Completes (.warmReset .bootTimeout i) s (fun t => t = warmRestart 7 i s) ∧
       Completes (.bootTimeout i) s (fun t => t = warmRestart 7 i s)) ∧
     (¬booting → Ignores (.bootTimeout i) s) ∧
     (s.power.phase = .recovery → Completes (.recoveryTimeout i) s (fun t => t = leaveRecovery i s)) ∧
     (s.power.phase ≠ .recovery → Ignores (.recoveryTimeout i) s) ∧
     (s.power.phase = .recovery →
       (Admitted (opNone 0x0E08 [clsN]) r s → ∃ t, exec (.recoveryExit r i) s = .next t ∧
         ∃ v, Answers s r 0x0E08 St.ok [] v ∧ SameModule { s with update := { s.update with go := some 0 } } v ∧
         t = (leaveRecovery i) v)) ∧
     (s.power.phase ≠ .recovery → s.update.go = none → (Admitted (opNone 0x0E08 [clsN]) r s →
       ∃ t, exec (.recoveryExit r i) s = .next t ∧
        Answers s r 0x0E08 St.refusedState [] t ∧ SameModule s t)) ∧
     (recoveredMask s = 0 → leaveRecovery i s = warmRestart 10 i { s with update := { s.update with go := none } }) ∧
     (s.power.phase = .booting → Completes (.recoveryEntry .strap) s (fun t => t.power.phase = .recovery ∧ t.otp = s.otp)) ∧
     (ended → ∀ b, s.power.orderly = some (true, b) → Completes (.recoveryEntry .button) s (fun t =>
       t = fullRestart 8 s.power.straps s.power.recover { s with power := { s.power with byButton := b } })) ∧
     (¬ended → Ignores (.recoveryEntry .button) s) ∧
     (s.power.phase = .bootFailed → 1 ≤ failedBoots s → s.update.trial = 0 →
       Completes (.recoveryEntry .failedBoots) s (fun t => t.power.phase = .recovery ∧ t.otp = s.otp)) ∧
     (awake s = true → ∀ b, s.power.orderly = some (false, b) →
       Completes (.orderlyResetTimeout i) s (fun t => t = warmRestart (if b then 5 else 4) i s)) ∧
     (awake s = true → s.power.orderly = none → s.power.shutting = true →
       Completes (.orderlyResetTimeout i) s (fun t => t = { s with power := { s.power with expired := true } })) ∧
     ((awake s = false ∨ (s.power.orderly = none ∧ s.power.shutting = false)) → Ignores (.orderlyResetTimeout i) s))

/-- R473, R478, R479, R484, R487: IDLE, the button, and the opcodes for reset and shutdown. The response goes out before
sessions end; one reset or shutdown is pending at a time; the shutdown runs its sequence when the sessions have ended or after
its wait. -/
def Obligations.ShutdownCommands : Prop :=
  ∀ (s : State) (r : Request) (held : Nat) (w : WindowInput) (last : Fin 256) (k : RakeOutcome),
    (s.power.state = .run → s.power.phase = .running → idleConditions s = true → Completes .idleEntry s (fun t =>
      t = { s with power := { s.power with state := .idle }, logs := t.logs, dom := t.dom } ∧
      t.logs.general.head? = some (newEntry s 0 0x11 0x1102 ([0, 1, 0, 0] ++ leBytes 4 s.power.v24 ++ zeros 8)))) ∧
    ((s.power.state ≠ .run ∨ s.power.phase ≠ .running ∨ idleConditions s = false) → Ignores .idleEntry s) ∧
    (s.power.state = .idle → idleConditions s = false → Completes .idleExit s (fun t =>
      t = { s with power := { s.power with state := .run }, logs := t.logs, dom := t.dom })) ∧
    ((s.power.state ≠ .idle ∨ idleConditions s = true) → Ignores .idleExit s) ∧
    (buttonDead s = true → Ignores .resetButtonPress s) ∧
    (buttonDead s = false → s.power.phase ≠ .shutDown → Completes .resetButtonPress s (fun t =>
      t = { s with power := { s.power with pressed := true, stuck := false } })) ∧
    (buttonDead s = false → s.power.phase = .shutDown → Completes .resetButtonPress s (fun t =>
      t.power.state = .run ∧ t.power.phase = .charging ∧ t.power.cause = 1 ∧ t.power.pressed = true)) ∧
    (s.power.pressed = false → Ignores (.resetButtonRelease held) s) ∧
    (let t0 : State := { s with power := { s.power with pressed := false, stuck := false } }
     s.power.pressed = true →
     ((s.power.stuck = true ∨ buttonDead s = true) → Completes (.resetButtonRelease held) s (fun t => t = t0)) ∧
     (s.power.stuck = false → buttonDead s = false → up s = true → buttonMode s ≠ 3 →
       (held < 2000 → buttonMode s ≠ 1 → Completes (.resetButtonRelease held) s (fun t => t = t0)) ∧
       (held < 2000 → buttonMode s = 1 → resetPending s = false → Completes (.resetButtonRelease held) s (fun t =>
         t = endSessions { t0 with power := { t0.power with orderly := some (false, true) } })) ∧
       (5000 ≤ held → held ≤ 10000 → resetPending s = false → Completes (.resetButtonRelease held) s (fun t =>
         t = endSessions { t0 with power := { t0.power with orderly := some (true, true) } })) ∧
       ((2000 ≤ held ∧ held < 5000 ∨ 10000 < held ∧ held < 30000) → Completes (.resetButtonRelease held) s (fun t =>
         t = { t0 with logs := t.logs, dom := t.dom } ∧
         t.logs.general.head? = some (newEntry s 0 0x11 0x1103 (leBytes 4 held ++ zeros 12)))) ∧
       (held ≤ 10000 → 5000 ≤ held → resetPending s = true → Completes (.resetButtonRelease held) s (fun t => t = t0)))) ∧
    (awake s = true → s.power.pressed = true → s.power.stuck = false → Completes .resetButtonStuck s (fun t =>
      t = { s with power := { s.power with stuck := true }, logs := t.logs, dom := t.dom })) ∧
    ((awake s = false ∨ s.power.pressed = false ∨ s.power.stuck = true) → Ignores .resetButtonStuck s) ∧
    (let p := r.payload
     let op := opLen 0x1102 [clsN] 4
     fieldN p 0 1 ≤ 1 → fieldN p 1 3 = 0 →
     (resetPending s = false → (Admitted op r s → ∃ t, exec (.reset r) s = .next t ∧
        ∃ v, Answers s r op.code St.ok [] v ∧
        SameModule { s with power := { s.power with orderly := some (fieldN p 0 1 == 1, false) } } v ∧ t = endSessions v)) ∧
     (resetPending s = true → (Admitted op r s → ∃ t, exec (.reset r) s = .next t ∧
        Answers s r op.code St.busy [] t ∧ SameModule s t))) ∧
    (let p := r.payload
     let op := opLen 0x1103 [clsN] 4
     fieldN p 0 1 ≤ 1 → fieldN p 1 3 = 0 →
     (resetPending s = false → (fieldN p 0 1 = 1 ∨ allSess s (fun x => !x.running) = true) → (Admitted op r s →
       ∃ t, exec (.shutdown r) s = .next t ∧
        ∃ v, Answers s r op.code St.ok [] v ∧
        SameModule { s with power := { s.power with shutting := true, expired := false } } v ∧ t = endSessions v)) ∧
     (resetPending s = false → fieldN p 0 1 = 0 → allSess s (fun x => !x.running) = false →
       (Admitted op r s → ∃ t, exec (.shutdown r) s = .next t ∧ Answers s r op.code St.refusedState [] t ∧ SameModule s t)) ∧
     (resetPending s = true → (Admitted op r s → ∃ t, exec (.shutdown r) s = .next t ∧
        Answers s r op.code St.busy [] t ∧ SameModule s t))) ∧
    (domainRuns s = true → s.power.shutting = true → (sessionsEnded s = true ∨ s.power.expired = true) →
      Completes (.shutdownSequence w last k) s (fun t =>
        t.power.phase = .shutDown ∧ t.power.state = s.power.state ∧ t.power.shutting = false ∧
        t.disp.dispEn = false ∧ t.rake.lastKind = 0 ∧ t.rake.unlogged = true ∧ t.otp = s.otp ∧
        (∀ o : Outlet, (sessOf t o).state = .s0 ∧ (sessOf t o).drive = false))) ∧
    ((domainRuns s = false ∨ s.power.shutting = false) → Ignores (.shutdownSequence w last k) s)

/-! ### Chapter 06: the vehicle link -/

/-- R140: the report of a proximity resistance by its range; outside the table's ranges it is 255. R141: with a socket outlet
the cable rating is what PP reports, and 0 for a report of 0 or 255; with a tethered cable it is the record's field. -/
def Obligations.CableRating : Prop :=
  (∀ ohms : Nat,
     (4500 < ohms → proxOf ohms = 0) ∧
     (1100 ≤ ohms → ohms ≤ 2460 → proxOf ohms = 13) ∧
     (400 ≤ ohms → ohms ≤ 936 → proxOf ohms = 20) ∧
     (164 ≤ ohms → ohms ≤ 308 → proxOf ohms = 32) ∧
     (80 ≤ ohms → ohms ≤ 140 → proxOf ohms = 63) ∧
     ((ohms < 80 ∨ (140 < ohms ∧ ohms < 164) ∨ (308 < ohms ∧ ohms < 400) ∨ (936 < ohms ∧ ohms < 1100) ∨
       (2460 < ohms ∧ ohms ≤ 4500)) → proxOf ohms = 255)) ∧
  (∀ (s : State) (o : Outlet),
     (linkField s o 8 0 = 0 → (s.link.get o).prox ≠ 255 → cableRating s o = (s.link.get o).prox) ∧
     (linkField s o 8 0 = 0 → ((s.link.get o).prox = 0 ∨ (s.link.get o).prox = 255) → cableRating s o = 0) ∧
     (linkField s o 8 0 = 1 → cableRating s o = linkField s o 9 32) ∧
     (isAc s o.val = true → cableRating s o = 0 → mayIdentify s o = false))

/-- R102, R108: BPT is offered on an outlet only where the import, export and absolute registers of both its points are in
signed mode: with one of them in absolute mode, no bidirectional service is offered. -/
def Obligations.AbsoluteRegistersBarBpt : Prop :=
  ∀ (s : State) (o : Outlet) (p : Protocol) (i : Nat), i ∈ [0, 1, 3, 4, 5, 7] → absolute s (8 * o.val + i) = true →
    EnergyService.dcBpt ∉ servicesOf s o p ∧ EnergyService.acBpt ∉ servicesOf s o p

/-- R135 to R138, R140, R163, R169, R170: pilot, proximity and generator. Hedge's comparators take in the plateaus. The high
plateau gives the class by its band, and a low plateau outside its band while PWM runs in B, C or D is the diode fault, state
E. What is recognised is reported, a level outside every band is so after 100 ms, a pilot away from B, C and D fails a run or
takes a type 2 link down, and C or D to B stops a DC session and pauses an AC one. The generator changes with the next PWM
period; in HOLD, in state F of a retry and in a pilot test the command only waits. A pilot test needs SERVICE and S0. -/
def Obligations.PilotCommands : Prop :=
  ∀ (s : State) (o : Outlet) (high low : Int) (ohms : Nat) (g : Generator) (r : Request),
    (let l := s.link.get o
     let c := Instr.pilotStateRecognised o high low
     let d := diodeMissing l.gen high low
     let pp := if d then .e else pilotBand high
     let u : State := { seePilot o high low s with link := s.link.set o { l with pilot := some pp, diodeFault := d } }
     up s = true → l.gen ≠ .zero → pilotBand high ≠ .invalid →
     (pp = .b → l.test = false → chargingState l.pilot = false → CarriesOut c s (fun t => t = u)) ∧
     (pp = .b → l.test = false → chargingState l.pilot = true →
       (isDc s o.val = true → (sessOf s o).state = .s4 ∨ (sessOf s o).state = .s5 ∨ (sessOf s o).state = .s6 →
         CarriesOut c s (fun t => t = giveCause o 8 u)) ∧
       (isDc s o.val = false → (sessOf s o).state = .s6 →
         CarriesOut c s (fun t => t = setSess o (fun x => { x with paused := true }) u))) ∧
     ((pp = .c ∨ pp = .d) → l.test = false → CarriesOut c s (fun t =>
       t = setLink o (fun l => { l with timers := { l.timers with cpState := false } })
        (setSess o (fun x => { x with paused := false }) u))) ∧
     (plugged pp = false → l.matching.inRetry = false → l.matching.step ≠ 0 →
       CarriesOut c s (fun t => t = linkGone o (pilotCause o (failMatching o false u)))) ∧
     (plugged pp = false → l.matching.inRetry = false → l.matching.step = 0 →
       CarriesOut c s (fun t => t = linkGone o (pilotCause o u)))) ∧
    (up s = false → Ignores (.pilotStateRecognised o high low) s ∧ Ignores (.pilotInvalid ⟨o, high, low⟩) s) ∧
    (up s = true → ((s.link.get o).gen = .zero ∨ pilotBand high = .invalid) →
      CarriesOut (.pilotStateRecognised o high low) s (fun t => t = seePilot o high low s)) ∧
    (up s = true → ((s.link.get o).gen = .zero ∨ pilotBand high ≠ .invalid) →
      CarriesOut (.pilotInvalid ⟨o, high, low⟩) s (fun t => t = seePilot o high low s)) ∧
    (∀ mV : Int,
      (11000 ≤ mV → mV ≤ 13000 → pilotBand mV = .a) ∧ (8000 ≤ mV → mV ≤ 10000 → pilotBand mV = .b) ∧
      (5000 ≤ mV → mV ≤ 7000 → pilotBand mV = .c) ∧ (2000 ≤ mV → mV ≤ 4000 → pilotBand mV = .d) ∧
      (-1000 ≤ mV → mV ≤ 1000 → pilotBand mV = .e) ∧ (-13000 ≤ mV → mV ≤ -11000 → pilotBand mV = .f)) ∧
    (let l := s.link.get o
     up s = true → l.gen ≠ .zero → pilotBand high = .invalid → l.matching.inRetry = false → l.matching.step = 0 →
     CarriesOut (.pilotInvalid ⟨o, high, low⟩) s (fun t => t = linkGone o (pilotCause o { seePilot o high low s with
       link := s.link.set o { l with
         pilot := some .invalid, diodeFault := false, counters := { l.counters with invalid := l.counters.invalid + 1 } } }))) ∧
    (up s = true → isAc s o.val = true → CarriesOut (.proximityClassified o ohms) s (fun t =>
      t = { s with link := s.link.set o { s.link.get o with prox := proxOf ohms } })) ∧
    ((up s = false ∨ isAc s o.val = false) → Ignores (.proximityClassified o ohms) s) ∧
    (let new := if outletType s o.val = 0 then .zero else g
     let held := (s.link.get o).matching.inRetry = true ∨ (s.link.get o).test = true ∨ s.power.state = .hold
     domainRuns s = true →
     (¬held → CarriesOut (.generatorCommand o g) s (fun t =>
       t = setLink o (fun l => { l with commanded := new, next := some new }) s)) ∧
     (held → CarriesOut (.generatorCommand o g) s (fun t => t = setLink o (fun l => { l with commanded := new }) s))) ∧
    (domainRuns s = false → Ignores (.generatorCommand o g) s) ∧
    (let p := r.payload
     let mode := fieldN p 1 1
     let value := fieldN p 2 2
     let op := opLen 0x0503 [clsN] 8
     fieldN p 0 1 = o.val → ((mode = 0 ∧ value < 3) ∨ (mode = 1 ∧ 50 ≤ value ∧ value ≤ 960)) → 1 ≤ fieldN p 4 2 →
     fieldN p 4 2 ≤ 60 → fieldN p 6 2 = 0 →
     (s.cis.lifecycle = 3 → (sessOf s o).state = .s0 →
       (Admitted op r s → ∃ t, exec (.pilotTest r) s = .next t ∧
         Answers s r op.code St.ok [] t ∧ SameModule (settle (startPilotTest o (testGen mode value) (admitted 0x0503 r s))) t)) ∧
     ((s.cis.lifecycle ≠ 3 ∨ (sessOf s o).state ≠ .s0) → (Admitted op r s → ∃ t, exec (.pilotTest r) s = .next t ∧
         Answers s r op.code St.refusedState [] t ∧ SameModule s t))) ∧
    ((s.link.get o).test = true → CarriesOut (.pilotTestEnd o) s (fun t =>
      t = commandGen o .static12 { s with link := s.link.set o { s.link.get o with test := false } })) ∧
    ((s.link.get o).test = false → CarriesOut (.pilotTestEnd o) s (fun t => t = s))

/-- R142 to R146, R172: matching and the link. Each step of a run needs the step before it and the run's identifier; the tenth
sound and those after it do not count; a run without a sound fails; a run that reaches step 7 is up when the vehicle joins.
R144: a failed match is logged with its step, its retry count and its sounds. At pilot A it waits at step 1; with retries left
it applies state F with the next PWM period; else it reports MATCH_FAIL, or a type 4 outlet changes to PWM-only operation, as
it does when the first step passes its limit. What the modem sends goes out at the record's transmit PSD, and Neighbour
Discovery answers with the link-local address of the outlet's MAC address. -/
def Obligations.MatchingCommands : Prop :=
  (∀ (s : State) (o : Outlet) (id : BitVec 64) (att : List Nat) (mac : BitVec 48) (echo : Bool),
     let l := s.link.get o
     let m := l.matching
     let withRun (x : Matching) : State := { s with link := s.link.set o { l with matching := x } }
     (up s = true → m.step = 1 → Completes (.cmSlacParamReq o id) s (fun t =>
       t = { s with
         link := s.link.set o { l with
           link := 1, counters := { l.counters with runs := l.counters.runs + 1 }
           matching := { Matching.init with retries := m.retries, step := 2, runId := some id } }
         out := .slac o (transmitPsd s o) (.paramCnf id) :: s.out })) ∧
     (m.step ≠ 1 → Ignores (.cmSlacParamReq o id) s) ∧
     (up s = true → m.runId = some id →
       (m.step = 2 → Completes (.cmStartAttenCharInd o id) s (fun t => t = withRun { m with step := 3, mnbc := true })) ∧
       ((m.step = 3 ∨ m.step = 4) → m.sounds < 10 → Completes (.cmMnbcSoundInd o id att) s (fun t =>
         t = withRun { m with
           step := 4, sounds := m.sounds + 1, sums := (List.range 58).map (fun i => m.sums.getD i 0 + att.getD i 0) })) ∧
       (m.step = 5 → Completes (.cmAttenCharRsp o id) s (fun t => t = withRun { m with step := 6 })) ∧
       (m.step = 6 → Completes (.cmValidateReq o id) s (fun t =>
         t = { s with out := .slac o (transmitPsd s o) (.validateCnf notRequired) :: s.out })) ∧
       (m.step = 6 → Completes (.cmSlacMatchReq o id) s (fun t =>
         t.link = (withRun { m with step := 7 }).link ∧
         ∃ nid, t = { withRun { m with step := 7 } with out := .slac o (transmitPsd s o) (.matchCnf id l.nmk nid) :: s.out, freeCount := t.freeCount }))) ∧
     ((up s = false ∨ m.runId ≠ some id ∨ m.step ≠ 2) → Ignores (.cmStartAttenCharInd o id) s) ∧
     ((up s = false ∨ m.runId ≠ some id ∨ 10 ≤ m.sounds ∨ (m.step ≠ 3 ∧ m.step ≠ 4)) → Ignores (.cmMnbcSoundInd o id att) s) ∧
     ((up s = false ∨ m.runId ≠ some id ∨ m.step ≠ 5) → Ignores (.cmAttenCharRsp o id) s) ∧
     ((up s = false ∨ m.runId ≠ some id ∨ m.step ≠ 6) → Ignores (.cmValidateReq o id) s ∧ Ignores (.cmSlacMatchReq o id) s) ∧
     (up s = true → (m.step = 3 ∨ m.step = 4) → m.sounds ≠ 0 → Completes (.cmAttenCharInd o) s (fun t =>
       (t.link.get o).matching = { m with step := 5 } ∧
       t.out = .slac o (transmitPsd s o) (.attenCharInd (m.runId.getD 0) m.sounds (groupMeans s o m)) :: s.out)) ∧
     (up s = true → (m.step = 3 ∨ m.step = 4) → m.sounds = 0 →
       CarriesOut (.cmAttenCharInd o) s (fun t => t = failMatching o false s)) ∧
     (up s = true → m.step = 7 → Completes (.vehicleJoined o) s (fun t =>
       t = { s with link := s.link.set o { l with
         link := 2, matching := { Matching.init with retries := m.retries }, timers := { l.timers with commSetup := true } } })) ∧
     (m.step ≠ 7 → Ignores (.vehicleJoined o) s) ∧
     (up s = true → m.step ≠ 0 → CarriesOut (.matchingTimeout o) s (fun t => t = failMatching o true s)) ∧
     (m.step = 0 → Ignores (.matchingTimeout o) s) ∧
     (up s = true → m.inRetry = true → CarriesOut (.slacRetryStateFEnd o) s (fun t =>
       (t.link.get o).next = (if s.power.state = .hold then l.next else some l.commanded) ∧
       (t.link.get o).matching = { Matching.init with retries := m.retries } ∧ (∀ x, x ≠ o → t.link.get x = s.link.get x))) ∧
     (m.inRetry = false → Ignores (.slacRetryStateFEnd o) s) ∧
     (up s = true → outletType s o.val = 2 →
       (∀ x, l.t1sMac = some x → x ≠ mac → Completes (.t1sFirstFrame o mac) s (fun t =>
         t = { s with link := s.link.set o { l with counters := { l.counters with dropped := l.counters.dropped + 1 } } })) ∧
       (l.t1sMac = some mac → Ignores (.t1sFirstFrame o mac) s) ∧
       (l.t1sMac = none → l.gen = .duty 50 → pilotBcd s o = true → Completes (.t1sFirstFrame o mac) s (fun t =>
         (t.link.get o).link = 2 ∧ (t.link.get o).t1sMac = some mac ∧ (t.link.get o).timers.commSetup = true))) ∧
     (outletType s o.val ≠ 2 → Ignores (.t1sFirstFrame o mac) s) ∧
     (up s = true → l.link = 2 →
       Completes (.neighbourDiscovery o echo) s (fun t =>
       t = { s with out := .neighbour o (linkLocal (outletMac s o)) echo :: s.out })) ∧
     (l.link ≠ 2 → Ignores (.neighbourDiscovery o echo) s)) ∧
  (∀ (o : Outlet) (limit : Bool) (s : State),
     let l := s.link.get o
     let m := l.matching
     let t := failMatching o limit s
     (outletType s o.val = 4 → m.step = 1 → limit = true →
       (t.link.get o).pwmOnly = true ∧ (t.link.get o).link = 0 ∧
         (t.link.get o).matching = { Matching.init with retries := m.retries }) ∧
     (outletType s o.val = 4 → (m.step ≠ 1 ∨ limit = false) → l.pilot ≠ some .a → m.retries = 0 → (t.link.get o).pwmOnly = true) ∧
     (¬(outletType s o.val = 4 ∧ m.step = 1 ∧ limit = true) →
     (l.pilot = some .a → (t.link.get o).matching = { Matching.init with retries := m.retries, step := 1 } ∧
       (t.link.get o).link = 0) ∧
     (l.pilot ≠ some .a → 0 < m.retries →
       (t.link.get o).matching = { Matching.init with retries := m.retries - 1, inRetry := true } ∧
       (t.link.get o).next = some .stateF ∧ (t.link.get o).commanded = l.commanded ∧ (t.link.get o).matchFail = l.matchFail ∧
       (t.link.get o).counters.failures = l.counters.failures + 1 ∧
       t.logs.general.head? = some (newEntry s 7 0x05 0x0501 ([byte o.val, byte m.step, byte m.retries, byte m.sounds] ++
         zeros 12))) ∧
     (l.pilot ≠ some .a → m.retries = 0 → outletType s o.val ≠ 4 → (t.link.get o).matchFail = true)))

/-- R145 to R148, R151 to R154, R157, R171: the connection. SDP answers on a link that is up with the link-local address, the
port chosen once for the session and TCP as the transport; one TCP connection is open at a time, a failed handshake is counted,
logged and closes the connection; each protocol timer that runs out is logged with its row and gives cause 13, but that a type
4 outlet whose CommunicationSetup runs out changes to PWM-only operation; a standing reply that is written is fresh, and one
that expires is marked. -/
def Obligations.ConnectionCommands : Prop :=
  ∀ (s : State) (o : Outlet) (sec : Nat) (x : TlsOffer) (f : StandingFields) (loop : Bool),
    let l := s.link.get o
    (∀ b, sdpSecurity s o sec = some b → up s = true → l.link = 2 → Completes (.sdpRequest o sec) s (fun t =>
      ∃ port, (l.tcpPort = 0 → 49152 ≤ port ∧ port ≤ 65535) ∧ (l.tcpPort ≠ 0 → port = l.tcpPort) ∧
        t.out = .sdp o (linkLocal (outletMac s o)) port b 0 :: s.out ∧
          t.link = s.link.set o { l with security := b, tcpPort := port, timers := { l.timers with tcpWait := true } })) ∧
    ((sdpSecurity s o sec = none ∨ up s = false ∨ l.link ≠ 2) → Ignores (.sdpRequest o sec) s) ∧
    (up s = true → l.link = 2 → l.tcpPort ≠ 0 →
      (l.tcpOpen = true → Completes (.tcpConnect o) s (fun t => t = { s with out := .tcpReset o :: s.out })) ∧
      (l.tcpOpen = false → Completes (.tcpConnect o) s (fun t =>
        t = { s with link := s.link.set o { l with
          tcpOpen := true, tls := 0, protocol := none, timers := { l.timers with tcpWait := false } } }))) ∧
    ((up s = false ∨ l.link ≠ 2 ∨ l.tcpPort = 0) → Ignores (.tcpConnect o) s) ∧
    (up s = true → l.tcpOpen = true → CarriesOut (.tcpClose o) s (fun t =>
      t = giveCause o 15 { s with link := s.link.set o (dropConnection l) })) ∧
    ((up s = false ∨ l.tcpOpen = false) → Ignores (.tcpClose o) s) ∧
    (up s = true → l.tcpOpen = true → CarriesOut (.v2gtpInvalid o) s (fun t => t = giveCause o 15 (closeTcp o s))) ∧
    (up s = true → l.tcpOpen = false → CarriesOut (.v2gtpInvalid o) s (fun t => t = s)) ∧
    (up s = false → Ignores (.v2gtpInvalid o) s) ∧
    (up s = true → l.tcpOpen = true →
      Completes (.tlsHandshake o x) s (fun t => ∀ v, tlsPasses s o x = some v →
        t = { s with link := s.link.set o { l with tls := v, certUnchecked := !s.sun.utcValid } }) ∧
      (tlsPasses s o x = none → CarriesOut (.tlsHandshake o x) s (fun t => ∃ u : State,
        t = giveCause o 15 (closeTcp o u) ∧ (u.link.get o).counters.tlsFails = l.counters.tlsFails + 1 ∧
        u.out.head? = some (.tlsAlert o x.alert) ∧
        u.logs.general.head? = some (newEntry s 7 0x05 0x0502 ([byte o.val, byte x.alert] ++ zeros 14))))) ∧
    ((up s = false ∨ l.tcpOpen = false) → Ignores (.tlsHandshake o x) s) ∧
    (∀ (c : Instr) (row : Nat) (on : Bool) (stopped : Timers), up s = true → on = true → (row = 2 → outletType s o.val ≠ 4) →
      (c, row, on, stopped) ∈ [
        (.v2gSeccSequenceTimeout o, 1, l.timers.sequence, { l.timers with sequence := false }),
        (.communicationsetupTimeout o, 2, l.timers.commSetup, { l.timers with commSetup := false }),
        (.readytochargeTimeout o, 3, l.timers.ready, { l.timers with ready := false }),
        (.cpstateDetectionTimeout o, 4, l.timers.cpState, { l.timers with cpState := false }),
        (.tcpConnectionWaitTimeout o, 5, l.timers.tcpWait, { l.timers with tcpWait := false }),
        (.responseTimeout o true, 6, l.timers.respLoop, { l.timers with respLoop := false }) ] →
      CarriesOut c s (fun t =>
        t = giveCause o 13 (log 7 0x05 0x0504 ([byte o.val, byte row] ++ zeros 14) false
          { s with link := s.link.set o { l with
            timers := stopped, counters := { l.counters with timers := l.counters.timers + 1 } } }))) ∧
    (up s = true → l.timers.commSetup = true → outletType s o.val = 4 → CarriesOut (.communicationsetupTimeout o) s (fun t =>
      t = pwmOnlyFrom o (log 7 0x05 0x0504 ([byte o.val, 2] ++ zeros 14) false { s with link := s.link.set o { l with
        timers := { l.timers with commSetup := false }, counters := { l.counters with timers := l.counters.timers + 1 } } }))) ∧
    (up s = true → l.timers.respOther = true → CarriesOut (.responseTimeout o false) s (fun t =>
      t = giveCause o 13 (log 7 0x05 0x0504 ([byte o.val, 7] ++ zeros 14) false
        { s with link := s.link.set o { l with
          heldLate := true, timers := { l.timers with respOther := false }
          counters := { l.counters with timers := l.counters.timers + 1 } } }))) ∧
    (up s = false → Ignores (.responseTimeout o loop) s ∧ Ignores (.v2gSeccSequenceTimeout o) s) ∧
    (domainRuns s = true → Completes (.standingReplyWrite o f) s (fun t =>
      (t.link.get o).reply = f ∧ (t.link.get o).replyGen = l.replyGen + 2 ∧ (t.link.get o).replyOver = false ∧
      (t.link.get o).gen = l.gen ∧ (∀ y, y ≠ o → t.link.get y = s.link.get y) ∧ t.sess = s.sess ∧
      (nominalDuty s o = true → ((sessOf s o).state = .s3 ∨ (sessOf s o).state = .s6) →
        (t.link.get o).commanded = genOf f.acDuty ∧
        (l.test = false → l.matching.inRetry = false → s.power.state ≠ .hold → (t.link.get o).next = some (genOf f.acDuty))) ∧
      ((nominalDuty s o = false ∨ ((sessOf s o).state ≠ .s3 ∧ (sessOf s o).state ≠ .s6)) →
        (t.link.get o).commanded = l.commanded ∧ (t.link.get o).next = l.next))) ∧
    (domainRuns s = false → Ignores (.standingReplyWrite o f) s) ∧
    (up s = true → (sessOf s o).state.running = true → dutyOutlet s o = false → CarriesOut (.standingReplyExpiry o) s (fun t =>
      t = { s with link := s.link.set o { l with replyOver := true } })) ∧
    (up s = true → (sessOf s o).state.running = true → dutyOutlet s o = true → CarriesOut (.standingReplyExpiry o) s (fun t =>
      (t.link.get o).replyOver = true ∧ (t.link.get o).commanded = .static12 ∧
      (l.test = false → l.matching.inRetry = false → s.power.state ≠ .hold → (t.link.get o).next = some .static12) ∧
      (∀ y, y ≠ o → t.link.get y = s.link.get y) ∧ t.sess = s.sess)) ∧
    ((up s = false ∨ (sessOf s o).state.running = false) → Ignores (.standingReplyExpiry o) s)

/-- R148, R149, R155, R156: a message without an open connection is not taken; one before the protocol is settled, or that the
settled protocol does not define, or that is for the other kind of current, closes the connection with cause 15. R153, R155: a
response goes out, its timers stop and the sequence timer starts; a request that the manual leaves to the domain is held with
its timer running, and so is every other but those of the loops while no domain is at work; the domain's answer is sent in its
place, or is discarded when it is late. -/
def Obligations.MessageAnswered : Prop :=
  (∀ (s : State) (o : Outlet) (ev : List Byte) (k st dy : Bool) (e : EnergyService) (ct : Contract) (oc : Option Contract)
       (p : EvParams) (a b v : Nat),
     ∀ (c : Instr) (msg : Nat) (defined : Protocol → Bool),
       (c, msg, defined) ∈ [
         (.sessionSetup o ev, 1, fun _ => true), (.serviceDiscovery o, 2, fun _ => true), (.sessionStop o, 3, fun _ => true),
         (.serviceDetail o k, 4, fun x => x ≠ .din), (.paymentServiceSelection o k e dy, 5, fun _ => true),
         (.paymentDetails o ct, 6, fun x => x = .iso2), (.authorizationSetup o, 7, fun x => x = .iso20),
         (.authorization o oc, 8, fun _ => true), (.chargeParameterDiscovery o p, 9, fun _ => true),
         (.scheduleExchange o dy, 10, fun x => x = .iso20), (.cableCheck o, 11, fun _ => isDc s o.val),
         (.preCharge o v, 12, fun _ => isDc s o.val), (.weldingDetection o, 13, fun _ => isDc s o.val),
         (.powerDelivery o st, 14, fun _ => true), (.currentDemand o v a b, 15, fun _ => isDc s o.val),
         (.chargingStatus o, 16, fun x => isAc s o.val && decide (x ≠ .din)), (.meteringReceipt o, 17, fun x => x ≠ .din),
         (.certificateInstallation o, 18, fun x => x ≠ .din), (.certificateUpdate o, 19, fun x => x = .iso2),
         (.unsupportedMessage o, 20, fun x => x = .iso20) ] →
       ((up s = false ∨ (s.link.get o).tcpOpen = false) → Ignores c s) ∧
       (up s = true → (s.link.get o).tcpOpen = true → (s.link.get o).protocol = none →
         CarriesOut c s (fun t => t = giveCause o 15 (closeTcp o (requestSeen o s)))) ∧
       (∀ q, up s = true → domainRuns s = false → (s.link.get o).tcpOpen = true → (s.link.get o).protocol = some q →
         defined q = true → msg ≠ 15 → msg ≠ 16 → Completes c s (fun t => t = hold o msg (requestSeen o s))) ∧
       (∀ q, up s = true → (s.link.get o).tcpOpen = true → (s.link.get o).protocol = some q → defined q = false →
         CarriesOut c s (fun t => t = giveCause o 15 (closeTcp o (requestSeen o s))))) ∧
  (∀ (s : State) (o : Outlet) (msg code n : Nat) (ongoing : Bool) (values : List Int) (a : DomainReply),
     let l := s.link.get o
     respond o msg code ongoing n values s = { s with
       link := s.link.set o { l with
         held := none, heldLate := false, timers := { l.timers with respOther := false, respLoop := false, sequence := true } }
       out := .v2g o ⟨msg, code, ongoing, n, values, none⟩ :: s.out } ∧
     hold o msg s = { s with link := s.link.set o { l with
       held := some msg, heldLate := false, timers := { l.timers with respOther := true } } } ∧
     (domainRuns s = true → l.held = some msg → l.heldLate = false →
       Completes (.domainAnswer o .ok) s (fun t => t = respond o msg 0 false 0 [] s) ∧
       Completes (.domainAnswer o .ongoing) s (fun t => t = respond o msg 0 true 0 [] s) ∧
       Completes (.domainAnswer o .failed) s (fun t => t = respond o msg 1 false 0 [] s) ∧
       Completes (.domainAnswer o .certificate) s (fun t => t = respond o msg 3 false 0 [] s)) ∧
     (domainRuns s = true → l.held = some msg → l.heldLate = true → Completes (.domainAnswer o a) s (fun t =>
       t = { s with link := s.link.set o { l with held := none, heldLate := false } })) ∧
     ((domainRuns s = false ∨ l.held = none) → Ignores (.domainAnswer o a) s))

/-- R148 to R150, R173, R177, R178, R183, R198: the messages up to the start of power transfer, each on its own connection and
protocol. -/
def Obligations.SetupMessages : Prop :=
  ∀ (s : State) (o : Outlet) (pr : Protocol) (ev : List Byte) (k dy : Bool) (e : EnergyService) (ct : Contract) (p : EvParams)
      (offers : List AppOffer),
    (let c := Instr.supportedAppProtocol o offers
     let l := s.link.get o
     ((up s = false ∨ l.tcpOpen = false) → Ignores c s) ∧
     (up s = true → l.tcpOpen = true →
       (l.protocol ≠ none → CarriesOut c s (fun t => t = giveCause o 15 (closeTcp o s))) ∧
       (l.protocol = none → offersTaken s o offers = [] → CarriesOut c s (fun t =>
         t = giveCause o 15 (closeTcp o (respond o 0 5 false 0 [] s)))) ∧
       (l.protocol = none → ∀ a, chooseOffer (linkField s o 2 0 == 1) (offersTaken s o offers) = some a →
         Completes c s (fun t => (t.link.get o).protocol = some a.protocol ∧ (t.link.get o).timers.sequence = true ∧
           t.out = .v2g o ⟨0, 0, false, 0, [a.schema, flag (a.minor != 0)], none⟩ :: s.out ∧ a ∈ offersTaken s o offers)))) ∧
    Delivers (.sessionSetup o ev) o pr s (fun u t =>
      let w := respond o 1 0 false 0 [] (setLink o (fun l => { l with
        timers := { l.timers with commSetup := false, ready := true } }) u)
      ((identOption s o 0 = false ∨ ev.length ≠ 6) → t = w) ∧
      (identOption s o 0 = true → ev.length = 6 → t = vehicleCredential o 3 ev w)) ∧
    Delivers (.serviceDiscovery o) o pr s (fun u t =>
      t = respond o 2 0 false 0 ((servicesOf s o pr).map (fun x => (serviceCode x : Int))) u) ∧
    (pr ≠ .din → Delivers (.serviceDetail o k) o pr s (fun u t =>
      t = respond o 4 (if k = decide (pr = .iso2) then 0 else 1) false 0 [] u)) ∧
    Delivers (.paymentServiceSelection o k e dy) o pr s (fun u t =>
      (paymentAllowed s o pr k = false → t = respond o 5 4 false 0 [] u) ∧
      (paymentAllowed s o pr k = true → serviceAllowed s o pr e dy = false → t = respond o 5 1 false 0 [] u) ∧
      (paymentAllowed s o pr k = true → serviceAllowed s o pr e dy = true →
        t = respond o 5 0 false 0 [] (setSess o (fun x => { x with
          bpt := decide (e = .dcBpt ∨ e = .acBpt), dynamic := decide (pr = .iso20) && dy }) u))) ∧
    (pr = .iso2 → (sessOf s o).auth ≠ 1 → (sessOf s o).auth ≠ 3 → Delivers (.paymentDetails o ct) o pr s (fun u t =>
      t = hold o 6 (noteUnchecked o u))) ∧
    (pr = .iso20 → Delivers (.authorizationSetup o) o pr s (fun u t => t = hold o 7 u)) ∧
    Delivers (.authorization o none) o pr s (fun u t =>
      ((sessOf s o).auth = 1 → t = respond o 8 0 true 0 [] u) ∧
      ((sessOf s o).auth = 2 → t = respond o 8 0 false 0 [] u) ∧
      ((sessOf s o).auth = 3 → t = respond o 8 1 false 0 [] u) ∧
      ((sessOf s o).auth = 0 → t = hold o 8 u)) ∧
    (pr = .iso20 → (sessOf s o).auth = 2 → Delivers (.authorization o (some ct)) o pr s (fun u t =>
      t = respond o 8 0 false 0 [] (noteUnchecked o u))) ∧
    Delivers (.chargeParameterDiscovery o p) o pr s (fun u t =>
      (sessOf t o).ev = { p with targetCurrent := if p.targetCurrent = 0 then p.maxCurrent else p.targetCurrent } ∧
      (pr = .iso2 → (sessOf t o).offered = some (sessOf s o).alloc) ∧
      (pr ≠ .iso2 → (sessOf t o).offered = (sessOf s o).offered) ∧ (t.link.get o).timers.sequence = true ∧
      (isDc s o.val = true → t.out = .v2g o ⟨9, 0, false, 0, [(ratedVoltage s o : Int), ratedCurrent s o, ratedPower s o] ++
        if pr = .iso2 then [(sessOf s o).alloc, 86400] else [], none⟩ :: s.out) ∧
      (isDc s o.val = false → t.out = .v2g o ⟨9, 0, false, 0, [(acCurrent s o : Int)] ++
        if pr = .iso2 then [(sessOf s o).alloc, 86400] else [], none⟩ :: s.out)) ∧
    (pr = .iso20 → Delivers (.scheduleExchange o dy) o pr s (fun u t =>
      (dy = true → t = respond o 10 0 false 0 [] u) ∧
      (dy = false → t = respond o 10 0 false 0 [(sessOf s o).alloc, 86400]
        (setSess o (fun x => watchSchedule s { x with offered := some (sessOf s o).alloc }) u))))

/-- R149, R150, R153 to R157, R169, R170, R181 to R184: the messages of the DC path, of the loops and of the end. A loop
message is answered in VLn, also while no domain is at work; once the standing reply's validity has passed the answer ends the
transfer: notification 3 (Terminate) under ISO 15118-20, EVSE_Shutdown else, with the currents and powers towards the vehicle
at 0. The answer carries the legal import value, and under the ISO protocols the meter signature. -/
def Obligations.TransferMessages : Prop :=
  ∀ (s : State) (o : Outlet) (pr : Protocol) (v tv ti : Nat),
    let loopSeen (u : State) : State := setLink o (fun l => { l with timers := { l.timers with respLoop := true } }) u
    (isDc s o.val = true →
      Delivers (.cableCheck o) o pr s (fun u t =>
        ((sessOf s o).state = .s3 → t = enterS4 o (respond o 11 0 true 0 [] u)) ∧
        ((sessOf s o).state = .s4 → (sessOf s o).checkDone = false → t = respond o 11 0 true 0 [] u) ∧
        ((sessOf s o).state = .s4 → (sessOf s o).checkDone = true →
          t = respond o 11 0 false 0 [flag ((s.hedge.out.get o).imd.status == .warning)] u) ∧
        ((sessOf s o).state ≠ .s3 → (sessOf s o).state ≠ .s4 → t = hold o 11 u)) ∧
      Delivers (.preCharge o v) o pr s (fun u t =>
        ((sessOf s o).state = .s5 → t = respond o 12 0 false 0 [meanVolts s o] (precharge o v u)) ∧
        ((sessOf s o).state ≠ .s4 → (sessOf s o).state ≠ .s5 → t = hold o 12 u) ∧
        ((sessOf s o).state = .s4 → (sessOf s o).checkDone = false → t = hold o 12 u) ∧
        ((sessOf s o).state = .s4 → (sessOf s o).checkDone = true → (sessOf t o).state = .s5 ∧ (sessOf t o).preVoltage = v)) ∧
      Delivers (.weldingDetection o) o pr s (fun u t =>
        (((sessOf s o).state = .s7 ∨ (sessOf s o).state = .s8) → t = respond o 13 0 false 0 [meanVolts s o] u) ∧
        ((sessOf s o).state ≠ .s7 → (sessOf s o).state ≠ .s8 → t = hold o 13 u)) ∧
      Delivers (.currentDemand o tv ti v) o pr s (fun u t => ∃ w : State,
        w = updateSet o (setSess o (fun x => { x with ev := { x.ev with targetVoltage := tv, targetCurrent := ti } }) (loopSeen u)) ∧
        t = loopAnswer o 15 pr w)) ∧
    (isAc s o.val = true → pr ≠ .din →
      Delivers (.chargingStatus o) o pr s (fun u t => t = loopAnswer o 16 pr (updateSet o (loopSeen u)))) ∧
    (up s = true → domainRuns s = false → (s.link.get o).tcpOpen = true → (s.link.get o).protocol = some pr →
      (isDc s o.val = true →
        Completes (.currentDemand o tv ti v) s (fun t => t = loopAnswer o 15 pr (loopSeen (requestSeen o s)))) ∧
      (isAc s o.val = true → pr ≠ .din → Completes (.chargingStatus o) s (fun t =>
        t = loopAnswer o 16 pr (loopSeen (requestSeen o s))))) ∧
    (let lapsed := replyLapsed s o
     let f := (s.link.get o).reply
     ∃ r : V2gRes, (loopAnswer o 15 pr s).out = .v2g o r :: s.out ∧ r.msg = 15 ∧ r.code = 0 ∧ r.ongoing = false ∧
       r.notification = (if lapsed = true ∧ pr = .iso20 then 3 else f.notification) ∧
       r.values.drop 2 = [(f.maxVoltage : Int), if lapsed then 0 else f.maxCurrent, if lapsed then 0 else f.maxPower, f.maxDisCurrent,
         f.maxDisPower, f.flags, legalImport s o, flag (lapsed && pr != .iso20)] ∧
       r.signature = meterSignature s o pr) ∧
    (domainRuns s = true → (sessOf s o).state = .s4 → (sessOf s o).setpoint.mode = 1 →
      ((s.hedge.out.get o).imd.status = .valid ∨ (s.hedge.out.get o).imd.status = .warning) →
      CarriesOut (.cableCheckFinished o) s (fun t => t = setSess o (fun x => { x with checkDone := true }) s)) ∧
    ((domainRuns s = false ∨ (sessOf s o).state ≠ .s4 ∨ (sessOf s o).setpoint.mode ≠ 1) → Ignores (.cableCheckFinished o) s) ∧
    Delivers (.powerDelivery o false) o pr s (fun u t => t = giveCause o 8 (respond o 14 0 false 0 [] u)) ∧
    Delivers (.powerDelivery o true) o pr s (fun u t =>
      (isDc s o.val = true → (sessOf s o).state = .s5 → t = enterS6 o (startTransfer o u)) ∧
      (isDc s o.val = false → isAc s o.val = true → (sessOf s o).state = .s3 →
        t = setSess o (fun x => { x with started := true }) (startTransfer o u)) ∧
      ((sessOf s o).state = .s6 → t = respond o 14 0 false 0 [] u) ∧
      ((sessOf s o).state ≠ .s3 → (sessOf s o).state ≠ .s5 → (sessOf s o).state ≠ .s6 → t = hold o 14 u)) ∧
    (pr ≠ .din → Delivers (.meteringReceipt o) o pr s (fun u t =>
      t = signed (respondWith o ⟨17, 0, false, 0, [legalImport s o], meterSignature s o pr⟩ u)) ∧
      Delivers (.certificateInstallation o) o pr s (fun u t => t = hold o 18 u)) ∧
    (pr = .iso2 → Delivers (.certificateUpdate o) o pr s (fun u t => t = hold o 19 u)) ∧
    Delivers (.sessionStop o) o pr s (fun u t => t = giveCause o 8 (respond o 3 0 false 0 [] u)) ∧
    (pr = .iso20 → Delivers (.unsupportedMessage o) o pr s (fun u t =>
      t = giveCause o 15 (closeTcp o (respond o 20 2 false 0 [] u))))

/-! ### Chapter 07: sessions and power -/

/-- R184: each step of the ramp-down takes the current limit towards 0 by the ramp rate over 10 ms and never past it; voltage
and power of the setpoint stay. R169, R170: where a cause leads. From S2 or S3 the causes of the table close the session and
lead to S9, or to S0 when the vehicle left; from S4 to S6 the ramp-down begins; a session in S0, S8, S9 or SE takes no cause.
R169, R117, R143: a session is closed once. Its end reason is recorded, entry 0x0603 is written, its record is closed, its link
gets a fresh key and loses its connection; closing it again changes nothing. R168, R200: an outlet that takes a vehicle in
opens a session with the next session number, cleared of what the last one left, in S1 and with static +12 V. -/
def Obligations.SessionRules : Prop :=
  (∀ (s : State) (o : Outlet),
     let p := (sessOf s o).setpoint
     let q := rampStep s o
     let step : Int := 10000 * rampRate s o
     q.voltage = p.voltage ∧ q.power = p.power ∧
       (p.mode = 3 → p.current ≤ 0 → q.mode = 3 ∧ p.current ≤ q.current ∧ q.current ≤ 0 ∧
         (p.current ≤ -step → q.current = p.current + step) ∧ (-step ≤ p.current → q.current = 0)) ∧
       (p.mode ≠ 3 → 0 ≤ p.current → q.mode = 2 ∧ q.current ≤ p.current ∧ 0 ≤ q.current ∧
         (step ≤ p.current → q.current = p.current - step) ∧ (p.current ≤ step → q.current = 0))) ∧
  (∀ (s : State) (o : Outlet) (cause : Nat),
     let x := sessOf s o
     let t := giveCause o cause s
     causeApplies s o cause = true →
     ((x.state = .s2 ∨ x.state = .s3) → cause ∈ [4, 8, 9, 10, 11, 12, 13, 14, 15, 19] →
       (sessOf t o).state = .s9 ∧ (sessOf t o).closed = true ∧ (x.closed = false → (sessOf t o).reason = cause)) ∧
     ((x.state = .s1 ∨ x.state = .s2 ∨ x.state = .s3) → cause = 3 → (sessOf t o).state = .s0 ∧ (sessOf t o).closed = true) ∧
     ((x.state = .s4 ∨ x.state = .s5 ∨ x.state = .s6) → cause ∈ [5, 6, 7, 8, 9, 10, 11, 12, 13, 15, 16, 17] →
       (sessOf t o).state = .s7 ∧ (sessOf t o).cause = cause ∧ (sessOf t o).closed = x.closed) ∧
     ((x.state = .s0 ∨ x.state = .s8 ∨ x.state = .s9 ∨ x.state = .se) → (sessOf t o).state = x.state) ∧
     (∀ y, y ≠ o → sessOf t y = sessOf s y)) ∧
  (∀ (s : State) (o : Outlet) (reason : Nat),
     let t := closeSession o reason s
     ((sessOf s o).closed = true → t = s) ∧
     ((sessOf s o).closed = false →
       (sessOf t o).closed = true ∧ (sessOf t o).reason = reason ∧ (sessOf t o).state = (sessOf s o).state ∧
       (t.link.get o).tcpOpen = false ∧ (t.link.get o).link = 0 ∧ ((s.link.get o).matching.inRetry = false →
         (t.link.get o).matching.step = 0) ∧
       t.energy = s.energy ∧ (∀ y, y ≠ o → sessOf t y = sessOf s y) ∧
       (∃ e, t.logs.general.head? = some e ∧ e.sub = 0x06 ∧ e.code = 0x0603)) ∧
     closeSession o reason t = t) ∧
  (∀ (s : State) (o : Outlet),
     let t := enterS1 o s
     t.sess.lastNumber = (s.sess.lastNumber + 1) % 4294967296 ∧ (sessOf t o).number = t.sess.lastNumber ∧
       (sessOf t o).state = .s1 ∧ (sessOf t o).closed = false ∧ (sessOf t o).auth = 0 ∧ (sessOf t o).cred = none ∧
       (sessOf t o).drive = false ∧ (sessOf t o).reason = (sessOf s o).reason ∧ (sessOf t o).startUtc = utcNow s ∧
       (t.link.get o).protocol = none ∧ (t.link.get o).matchFail = false ∧ (t.link.get o).pwmOnly = false ∧
       (outletType s o.val ≠ 0 → (t.link.get o).commanded = .static12) ∧ (∀ y, y ≠ o → sessOf t y = sessOf s y) ∧
       t.logs.general.head? = some (newEntry s 0 0x06 0x0601
         ([byte o.val, byte (outletType s o.val), 0, 0] ++ leBytes 4 t.sess.lastNumber ++ zeros 8)))

/-- R171, R175 to R177, R180, R197, R200, R201: the commands of authorisation and the opcodes of sessions. R201: availability
acts at once in S0, S1 and S9, and otherwise waits for one of S9 and S0. -/
def Obligations.AuthorisationCommands : Prop :=
  (∀ (s : State) (o : Outlet) (r : Request),
     let p := r.payload
     (domainRuns s = true → identifying s o = true → CarriesOut (.cardWaitExpiry o) s (fun t => t = giveCause o 19 s)) ∧
     ((domainRuns s = false ∨ identifying s o = false) → Ignores (.cardWaitExpiry o) s) ∧
     (domainRuns s = true → (sessOf s o).query = .pending →
       CarriesOut (.hostAnswerTimeout o) s (fun t => t = byPolicy o true s)) ∧
     ((domainRuns s = false ∨ (sessOf s o).query ≠ .pending) → Ignores (.hostAnswerTimeout o) s) ∧
     Completes .heldCredentialExpiry s (fun t => t = { s with sess := { s.sess with heldCard := none } }) ∧
     Completes (.preAuthorisationExpiry o) s (fun t => t = setSess o (fun x => { x with preAuth := none }) s) ∧
     (let op := opLen 0x0602 [clsH, clsN] 16
      let c := Instr.authorisationAnswer r
      fieldN p 4 1 < 2 → fieldN p 5 1 = 0 → 0 ≤ fieldI p 8 8 →
      (outletOf s (fieldN p 0 4) = none → (Admitted op r s → ∃ t, exec c s = .next t ∧
         Answers s r op.code St.range [] t ∧ SameModule s t)) ∧
      (outletOf s (fieldN p 0 4) = some o →
        ((sessOf s o).query = .pending → (Admitted op r s → ∃ t, exec c s = .next t ∧ Answers s r op.code St.ok [] t ∧
            SameModule (settle (decide' o 3 (portOrigin r.port) (fieldN p 4 1 == 0)
          ⟨fieldN p 6 2, fieldI p 8 8⟩ (setSess o (fun y => { y with query := .answered }) (admitted op.code r s)))) t)) ∧
        ((sessOf s o).query = .byPolicy → (Admitted op r s → ∃ t, exec c s = .next t ∧
            Answers s r op.code St.timeout [] t ∧ SameModule s t)) ∧
        ((sessOf s o).query = .answered → (Admitted op r s → ∃ t, exec c s = .next t ∧
            Answers s r op.code St.refusedState [] t ∧ SameModule s t)) ∧
        ((sessOf s o).query = .none → (sessOf s o).informational = false → (Admitted op r s → ∃ t, exec c s = .next t ∧
            Answers s r op.code St.range [] t ∧ SameModule s t)) ∧
        ((sessOf s o).query = .none → (sessOf s o).informational = true →
          (fieldN p 4 1 = 0 → (Admitted op r s → ∃ t, exec c s = .next t ∧ Answers s r op.code St.ok [] t ∧ SameModule s t)) ∧
          (fieldN p 4 1 = 1 → (Admitted op r s → ∃ t, exec c s = .next t ∧ Answers s r op.code St.ok [] t ∧
             SameModule (settle (decide' o 3 (portOrigin r.port) false
            ⟨fieldN p 6 2, fieldI p 8 8⟩ (admitted op.code r s))) t))))) ∧
     (let op := opLen 0x0603 [clsN] 12
      let c := Instr.remoteAuthorise r
      fieldN p 0 1 = o.val → fieldN p 1 1 = 0 → 0 ≤ fieldI p 4 8 →
      (identOption s o 1 = false → (Admitted op r s → ∃ t, exec c s = .next t ∧
         Answers s r op.code St.refusedState [] t ∧ SameModule s t)) ∧
      (identOption s o 1 = true → 2 < (sessOf s o).state.code → (Admitted op r s → ∃ t, exec c s = .next t ∧
         Answers s r op.code St.refusedState [] t ∧ SameModule s t)) ∧
      (identOption s o 1 = true → ((sessOf s o).state = .s0 ∨ (sessOf s o).state = .s1) →
        (Admitted op r s → ∃ t, exec c s = .next t ∧ Answers s r op.code St.ok [] t ∧
          SameModule (setSess o (fun x => { x with
          preAuth := some ⟨fieldN p 2 2, fieldI p 4 8⟩, preOrigin := portOrigin r.port }) s) t)) ∧
      (identOption s o 1 = true → (sessOf s o).state = .s2 →
        (Admitted op r s → ∃ t, exec c s = .next t ∧ Answers s r op.code St.ok [] t ∧
          SameModule (settle (decide' o 1 (portOrigin r.port) true ⟨fieldN p 2 2, fieldI p 4 8⟩
          (setSess o (fun x => { x with query := if x.query = .pending then .answered else x.query }) (admitted op.code r s)))) t))) ∧
     (let op := opLen 0x0604 [clsH, clsN] 4
      fieldN p 0 1 = o.val → fieldN p 1 3 = 0 →
      ((sessOf s o).state.running = true →
        (Admitted op r s → ∃ t, exec (.stopSession r) s = .next t ∧
          Answers s r op.code St.ok [] t ∧ SameModule (settle (giveCause o 9 (admitted op.code r s))) t)) ∧
      ((sessOf s o).state.running = false → (Admitted op r s → ∃ t, exec (.stopSession r) s = .next t ∧
          Answers s r op.code St.refusedState [] t ∧ SameModule s t))) ∧
     (let p := r.payload
      let total := fieldN p 8 4
      let len := fieldN p 12 2
      let data := slice p 16 len
      let header := blockHeader (fieldN p 0 4) (fieldN p 4 4) total len
      let u := (applyLoad (portOrigin r.port) (fieldN p 0 4)) data s
      BlockFits sieveMax p → (fun n => decide (16 ≤ n ∧ (n - 16) % 16 = 0)) total = true →
        MayOpen s 0x0605 r.port (fieldN p 0 4) →
      Admitted (opBulk 0x0605 [clsB]) r s → ∃ t, exec (.sieveLoad r) s = .next t ∧
        (len = total → Answers s r 0x0605 u.2 (if u.2 = St.ok then header else []) t ∧ SameModule u.1 t) ∧
        (len < total → Answers s r 0x0605 St.ok header t ∧ SameModule s t)) ∧
     (let op := opLen 0x0608 [clsN] 4
      fieldN p 0 1 = o.val → fieldN p 1 1 < 2 → fieldN p 2 2 = 0 →
      (Admitted op r s → ∃ t, exec (.outletAvailability r) s = .next t ∧
        Answers s r op.code St.ok [] t ∧ SameModule (settle (takeAvailability o (fieldN p 1 1 == 1) (admitted op.code r s))) t)) ∧
     (let op := opLen 0x0609 [clsH, clsN] 8
      fieldN p 0 1 = o.val → fieldN p 1 3 = 0 →
      (bptDynamic (sessOf s o) = true → 0 ≤ fieldI p 4 4 → (Admitted op r s → ∃ t, exec (.powerTarget r) s = .next t ∧
         Answers s r op.code St.ok [] t ∧
         SameModule (settle (setSess o (fun x => { x with target := some (fieldI p 4 4) }) (admitted op.code r s))) t)) ∧
      (bptDynamic (sessOf s o) = true → fieldI p 4 4 < 0 → bptOffered s o = false → (Admitted op r s →
        ∃ t, exec (.powerTarget r) s = .next t ∧
         Answers s r op.code St.range [] t ∧ SameModule s t)) ∧
      (bptDynamic (sessOf s o) = false → (Admitted op r s → ∃ t, exec (.powerTarget r) s = .next t ∧
         Answers s r op.code St.refusedState [] t ∧ SameModule s t)))) ∧
  (∀ (s : State) (o : Outlet) (out : Bool),
     let t := takeAvailability o out s
     let u := enterS9 o t
     (∀ y, y ≠ o → sessOf t y = sessOf s y) ∧
     (((sessOf s o).state = .s0 ∨ (sessOf s o).state = .s1 ∨ (sessOf s o).state = .s9) →
       (sessOf t o).outOfService = out ∧ (sessOf t o).availLater = none) ∧
     ((sessOf s o).state = .s6 → (sessOf t o).outOfService = (sessOf s o).outOfService ∧ (sessOf u o).outOfService = out ∧
       (sessOf u o).availLater = none))

/-- R169, R171, R184, R219: ramp-down, its end and the limits of the states. -/
def Obligations.SessionLimitCommands : Prop :=
  ∀ (s : State) (o : Outlet),
    let x := sessOf s o
    (domainRuns s = true → x.state = .s7 → CarriesOut (.rampDownStep o) s (fun t =>
      t = renewReply o (putSetpoint o (rampStep s o) s))) ∧
    ((domainRuns s = false ∨ x.state ≠ .s7) → Ignores (.rampDownStep o) s ∧ Ignores (.rampDownTimeout o) s) ∧
    (domainRuns s = true → x.state = .s7 → isDc s o.val = true → CarriesOut (.openThresholdReached o) s (fun t =>
      t = enterS8 o s ∧ (sessOf t o).state = .s8 ∧ (sessOf t o).drive = false)) ∧
    (domainRuns s = true → x.state = .s7 → isDc s o.val = false → CarriesOut (.openThresholdReached o) s (fun t =>
      t = enterS9 o (closeSession o x.cause (setDrive o false s)) ∧ (sessOf t o).state = .s9)) ∧
    (domainRuns s = true → x.state = .s6 → x.paused = true → isAc s o.val = true →
      CarriesOut (.openThresholdReached o) s (fun t =>
      (sessOf t o).state = .s3 ∧ (sessOf t o).drive = false ∧ (sessOf t o).paused = false ∧ (sessOf t o).started = x.started)) ∧
    (domainRuns s = true → x.state ≠ .s7 → x.state ≠ .s6 → CarriesOut (.openThresholdReached o) s (fun t => t = s)) ∧
    (domainRuns s = true → x.state = .s7 → CarriesOut (.rampDownTimeout o) s (fun t =>
      (sessOf t o).state = .se ∧ (sessOf t o).drive = false ∧ (sessOf t o).closed = true ∧ (x.closed = false →
        (sessOf t o).reason = 18))) ∧
    (domainRuns s = true → x.state = .s4 → CarriesOut (.cableCheckTimeout o) s (fun t =>
      t = giveCause o 16 s ∧ (sessOf t o).state = .s7)) ∧
    (x.state ≠ .s4 → Ignores (.cableCheckTimeout o) s) ∧
    (domainRuns s = true → x.state = .s5 → CarriesOut (.prechargeTimeout o) s (fun t =>
      t = giveCause o 17 s ∧ (sessOf t o).state = .s7)) ∧
    (x.state ≠ .s5 → Ignores (.prechargeTimeout o) s) ∧
    (domainRuns s = true → x.state = .s8 → CarriesOut (.weldCheckTimeEnd o) s (fun t =>
      (sessOf t o).state = .s9 ∧ (sessOf t o).closed = true ∧ (x.closed = false → (sessOf t o).reason = x.cause) ∧
      ((s.hedge.out.get o).weldHigh < 6000 → (t.hedge.out.get o).weldInconclusive = true))) ∧
    (x.state ≠ .s8 → Ignores (.weldCheckTimeEnd o) s)

/-- R185 to R189, R211, R222: the converter bus. Frames of another channel, identifier or length are not an outlet's; state 6
is logged once and is cause 7; a lost converter is raised once; a lagging echo is logged at most once per 60 s; heartbeats go
out on both channels and count; a setpoint goes out only through the gate; a waiting trip frame goes out once it can start, and
every frame that was queued behind it follows. -/
def Obligations.ConverterCommands : Prop :=
  ∀ (s : State) (o : Outlet) (f : CanFrame) (lag : Nat) (p : Setpoint) (started : Bool),
    let c := s.sess.conv.get o
    (up s = true → frameOutlets s 8 f = [o] → (readStatus s o f).state ≠ 6 → CarriesOut (.converterStatusFrame f) s (fun t =>
      t.sess.conv.get o = readStatus s o f ∧ (∀ y, y ≠ o → t.sess.conv.get y = s.sess.conv.get y) ∧ t.sess.out = s.sess.out ∧
        t.logs = s.logs)) ∧
    (up s = true → frameOutlets s 8 f = [o] → (readStatus s o f).state = 6 → c.state = 6 → domainRuns s = true →
      CarriesOut (.converterStatusFrame f) s (fun t => ∃ u : State, t = giveCause o 7 u ∧ u.sess.conv.get o = readStatus s o f ∧
        u.sess.out = s.sess.out ∧ u.logs = s.logs)) ∧
    (up s = true → frameOutlets s 8 f = [] → CarriesOut (.converterStatusFrame f) s (fun t => t = s)) ∧
    (up s = true → frameOutlets s 9 f = [o] → Completes (.converterLimitsFrame f) s (fun t =>
      t.sess.conv.get o = readLimits s o f ∧ (∀ y, y ≠ o → t.sess.conv.get y = s.sess.conv.get y) ∧
      (∀ v, (readLimits s o f).coolant = some v → t.energy.coolant.get o = some v) ∧ t.sess.out = s.sess.out ∧ t.out = s.out)) ∧
    (frameOutlets s 9 f = [] → Ignores (.converterLimitsFrame f) s) ∧
    (up s = false → Ignores (.converterStatusFrame f) s ∧ Ignores (.converterLimitsFrame f) s ∧ Ignores .heartbeat s) ∧
    (up s = true → isDc s o.val = true → c.lost = false → CarriesOut (.converterLost o) s (fun t =>
      t.sess.conv.get o = { c with lost := true } ∧ t.logs.general.head? = some (newEntry s 0 0x06 0x0605
        ([byte o.val, byte (convChannel s o.val)] ++ leBytes 2 c.fault ++ [byte c.state] ++ zeros 11)))) ∧
    ((up s = false ∨ isDc s o.val = false ∨ c.lost = true) → Ignores (.converterLost o) s) ∧
    (up s = true → isDc s o.val = true →
      ((c.lagLog = none ∨ ∃ y, c.lagLog = some y ∧ y + 60000 ≤ s.clockMs) → Completes (.sequenceEchoLag o lag) s (fun t =>
        t.sess.conv.get o = { c with lags := 0, longest := 0, lagLog := some s.clockMs } ∧
        t.logs.general.head? = some (newEntry s 0 0x06 0x0606
          ([byte o.val, byte (convChannel s o.val), (sessOf s o).setSeq, byte c.echo] ++ leBytes 4 (c.lags + 1) ++
            leBytes 4 (max c.longest lag) ++ zeros 4)))) ∧
      (∀ y, c.lagLog = some y → s.clockMs < y + 60000 → Completes (.sequenceEchoLag o lag) s (fun t =>
        t = setConv o (fun c => { c with lags := c.lags + 1, longest := max c.longest lag }) s))) ∧
    (up s = true → Completes .heartbeat s (fun t =>
      t.sess = { s.sess with heartbeat := s.sess.heartbeat + 1, canQueue := t.sess.canQueue } ∧ t.logs = s.logs ∧
      (mapEntries s 1 = [] →
        let frame (c : Nat) : List Byte := [s.sess.heartbeat, 0] ++ leBytes 2 (runMask s c) ++ wordBytes 4 s.sun.cycle
        let f0 : CanOut := ⟨0, false, 0x010, frame 0, false⟩
        let f1 : CanOut := ⟨1, false, 0x010, frame 1, false⟩
        (s.sess.tripWait = none → t.out = .can f1 :: .can f0 :: s.out ∧ t.sess.canQueue = s.sess.canQueue) ∧
        (s.sess.tripWait ≠ none → t.out = s.out ∧ t.sess.canQueue = s.sess.canQueue ++ [f0, f1])))) ∧
    (domainRuns s = true → isDc s o.val = true → gatePasses s o (sessOf s o).setpoint = true →
      CarriesOut (.setpointRepeat o) s (fun t =>
      t = sendSetpoint o (setSess o (fun x => { x with inForce := x.setpoint }) s))) ∧
    (domainRuns s = true → isDc s o.val = true → gatePasses s o (sessOf s o).setpoint = false →
      CarriesOut (.setpointRepeat o) s (fun t =>
      t.out = s.out ∧ (sessOf t o).inForce = (sessOf s o).inForce ∧ (t.hedge.scr.get o).ramp = true)) ∧
    ((domainRuns s = false ∨ isDc s o.val = false) → Ignores (.setpointRepeat o) s ∧ Ignores (.setpointSend o p) s) ∧
    (domainRuns s = true → isDc s o.val = true → (sessOf s o).setpoint ≠ p → CarriesOut (.setpointSend o p) s (fun t =>
      (sessOf t o).setpoint = p ∧ (sessOf t o).setSeq = (sessOf s o).setSeq + 1 ∧
      (gatePasses s o p = true → (sessOf t o).inForce = p) ∧ (gatePasses s o p = false →
        (sessOf t o).inForce = (sessOf s o).inForce))) ∧
    (∀ w, s.sess.tripWait = some w → up s = true → mapEntries s 0 = [] → Completes (.tripFrame true) s (fun t =>
      let data := leBytes 2 w.mask ++ [byte w.reason, w.counter] ++ zeros 4
      t = { s with
        sess := { s.sess with tripWait := none, canQueue := [] }
        out := (s.sess.canQueue.map Out.can).reverse ++
          .can ⟨1, false, 0, data, true⟩ :: .can ⟨0, false, 0, data, true⟩ :: s.out })) ∧
    ((s.sess.tripWait = none ∨ up s = false ∨ started = false) → Ignores (.tripFrame started) s)

/-- R191 to R195, R197: allocation. A module that computes the stack's allocations keeps them with the falls of AC outlets; the
spare only shadows them; a reduction leaves by its oldest; after 3 cycles without one each outlet takes the fallback at most; a
budget received goes stale. -/
def Obligations.AllocationCommands : Prop :=
  ∀ (s : State) (slot : Slot) (o : Outlet),
    (domainRuns s = true → allocates s = true → Completes .powerAllocation s (fun t =>
      let new := slotAllocs s (allocateStack s)
      t.trellis.allocs = new ∧ t.trellis.budget = budgetInForce s ∧ t.trellis.allocCycle = some s.sun.cycle ∧
      t.trellis.reductions = s.trellis.reductions ++ acFalls s s.trellis.allocs new ∧ t.logs = s.logs ∧ t.link = s.link ∧
      t.energy = s.energy ∧ t.hedge = s.hedge)) ∧
    (domainRuns s = true → allocates s = false → s.trellis.role = 2 → Completes .powerAllocation s (fun t =>
      let new := slotAllocs s (allocateStack s)
      t = { s with trellis := { s.trellis with
        shadow := new, allocCycle := some s.sun.cycle
        reductions := s.trellis.reductions ++ acFalls s s.trellis.shadow new } })) ∧
    ((domainRuns s = false ∨ (allocates s = false ∧ s.trellis.role ≠ 2)) → Ignores .powerAllocation s) ∧
    (∀ w l₁ l₂, s.trellis.reductions = l₁ ++ (slot.val, o.val, w) :: l₂ → (∀ r ∈ l₁, ¬(r.1 = slot.val ∧ r.2.1 = o.val)) →
      Completes (.acReductionExpiry slot o) s (fun t => t = { s with trellis := { s.trellis with reductions := l₁ ++ l₂ } })) ∧
    ((∀ r ∈ s.trellis.reductions, ¬(r.1 = slot.val ∧ r.2.1 = o.val)) → Ignores (.acReductionExpiry slot o) s) ∧
    (domainRuns s = true → 3 ≤ s.sess.noAlloc → CarriesOut .allocationMissing s (fun t =>
      (∀ y, (sessOf t y).alloc = if (sessOf s y).state = .s7 then (sessOf s y).alloc
        else min (outletDemand s y) (cfgN s 0x0602 0 20 4 0)) ∧ t.trellis = s.trellis)) ∧
    ((domainRuns s = false ∨ s.sess.noAlloc < 3) → Ignores .allocationMissing s) ∧
    (s.sess.siteBudget ≠ none →
      Completes .siteBudgetTimeout s (fun t => t = { s with sess := { s.sess with siteStale := true } })) ∧
    (s.sess.siteBudget = none → Ignores .siteBudgetTimeout s)

/-! ### Chapters 08 and 09: protection and switches -/

/-- R205, R209, R210, R213 to R215, R217 to R219: Hedge's inputs. An overcurrent trips when N protection samples in a row are
at or above the threshold code of the channel that reads the current; the residual current is judged by the mean and the AC
part of the last 20 ms. The pilot is lost at a high plateau of 10.5 V and above or of 1.5 V and below, or with a low plateau
above −10.5 V while PWM runs; between 7.0 V and 8.0 V the threshold from B to C is open. -/
def Obligations.ProtectionCommands : Prop :=
  ∀ (s : State) (o : Outlet) (ph : Fin 3) (b : Bool) (v onL high low : Int) (m : ImdInput) (before feed : Feed),
    let h := s.hedge.out.get o
    let lost := 10500 ≤ high ∨ high ≤ 1500 ∨ ((∃ d, (s.link.get o).gen = .duty d) ∧ -10500 < low)
    (hedgeLive s = true → CarriesOut (.estopOpen b) s (fun t => ∃ u : State, t = tripModule .estop u ∧
      u.hedge.openA = (s.hedge.openA || !b) ∧ u.hedge.openB = (s.hedge.openB || b) ∧
      (u.hedge.openA = true → u.hedge.openB = true → u.hedge.bothOpened = true) ∧ u.hedge.out = s.hedge.out)) ∧
    Completes .estopClosed s (fun t => t = { s with hedge := { s.hedge with openA := false, openB := false } }) ∧
    (hedgeLive s = true → block0701 s 0 1 = 1 → s.hedge.openA = false →
      CarriesOut (.testPulse false true false) s (fun t => t = { s with hedge := { s.hedge with missA := 0 } }) ∧
      (s.hedge.missA = 0 → CarriesOut (.testPulse false false false) s (fun t =>
        t = { s with hedge := { s.hedge with missA := 1 } })) ∧
      (1 ≤ s.hedge.missA → CarriesOut (.testPulse false false false) s (fun t =>
        t = tripModule .wiring { s with hedge := { s.hedge with missA := s.hedge.missA + 1 } })) ∧
      CarriesOut (.testPulse false true true) s (fun t =>
        t = tripModule .wiring { s with hedge := { s.hedge with missA := 0 } })) ∧
    (hedgeLive s = true → block0701 s 0 1 ≠ 1 → CarriesOut (.testPulse b true true) s (fun t => t = s)) ∧
    (hedgeLive s = true → s.hedge.openA ≠ s.hedge.openB → CarriesOut .estopDiscrepancy s (fun t => t = tripModule .wiring s)) ∧
    (hedgeLive s = true → s.hedge.openA = s.hedge.openB → CarriesOut .estopDiscrepancy s (fun t => t = s)) ∧
    (hedgeLive s = true → hedgeType s o ≠ 0 →
      let c := if hedgeDc s o = true then 4 * o.val + 1 else 4 * o.val + ph.val
      let hit := runOf (block0702 s o 2 1)
        (fun x : Int => decide (protCode (block0702 s o 4 4) (fullScale s c) ≤ x.natAbs)) 0 (protSamples s c feed)
      (hit = true → CarriesOut (.overcurrentTrip o ⟨ph, feed, v⟩) s (fun t => t = tripOutlet o 0 (some 1) (leInt 4 v) s)) ∧
      (hit = false → CarriesOut (.overcurrentTrip o ⟨ph, feed, v⟩) s (fun t => t = s))) ∧
    (∀ (n : Nat) (q : Int → Bool) (l : List Int), 0 < n →
      (runOf n q 0 l = true ↔ ∃ i, i + n ≤ l.length ∧ ∀ j, j < n → q (l.getD (i + j) 0) = true)) ∧
    (h.delaying = true → CarriesOut (.contactorDelayEnd o) s (fun t =>
      t = { s with hedge := { s.hedge with out := s.hedge.out.set o { h with delaying := false, closed := false } } })) ∧
    (h.delaying = false → Ignores (.contactorDelayEnd o) s) ∧
    (hedgeLive s = true → hedgeAc s o = true →
      let fs := fullScale s (4 * o.val + 3)
      let l := protSamples s (4 * o.val + 3) before ++ protSamples s (4 * o.val + 3) feed
      let mean : Rat := (sumInt l : Rat) / l.length
      let square : Rat := (sumInt (l.map (fun x => x * x)) : Rat) / l.length - mean * mean
      let dcCode : Rat := (protCode 6 fs : Nat)
      let acCode : Rat := (protCode 30 fs : Nat)
      (mean * mean < dcCode * dcCode → square < acCode * acCode → CarriesOut (.residualCurrentCheck o before feed) s (fun t =>
        (t.hedge.out.get o).residualDc = openRound (mean * ((fs : Rat) * 1000 / 5461)) ∧
        (t.hedge.out.get o).latched = h.latched ∧
        (t.hedge.out.get o).causes.getLsbD 1 = false ∧ (t.hedge.out.get o).causes.getLsbD 2 = false ∧ t.logs = s.logs)) ∧
      (dcCode * dcCode ≤ mean * mean → CarriesOut (.residualCurrentCheck o before feed) s (fun t =>
        (t.hedge.out.get o).latched.getLsbD 1 = true)) ∧
      (acCode * acCode ≤ square → CarriesOut (.residualCurrentCheck o before feed) s (fun t =>
        (t.hedge.out.get o).latched.getLsbD 2 = true))) ∧
    (hedgeLive s = true → hedgeAc s o = false → CarriesOut (.residualCurrentCheck o before feed) s (fun t => t = s)) ∧
    (hedgeLive s = true → h.imd.running = true → block0702 s o 12 2 ≤ h.imd.cycles →
      CarriesOut (.insulationPolarityChange o m) s (fun t => t = halfPeriod o false m s)) ∧
    (hedgeLive s = true → h.imd.cycles < block0702 s o 12 2 → CarriesOut (.insulationPolarityChange o m) s (fun t => t = s)) ∧
    (hedgeLive s = true → h.imd.running = true → CarriesOut (.insulationSelfTimed o m) s (fun t =>
      t = halfPeriod o true m s ∧ (t.hedge.out.get o).imd.selfTimed = true)) ∧
    (hedgeLive s = true → h.imd.running = false → CarriesOut (.insulationPolarityChange o m) s (fun t => t = s) ∧
      CarriesOut (.insulationSelfTimed o m) s (fun t => t = s)) ∧
    (hedgeLive s = true → h.imd.running = true → 8 ≤ h.imd.noValue → CarriesOut (.insulationNoValue o) s (fun t =>
      (t.hedge.out.get o).latched.getLsbD 3 = true ∧ (t.hedge.out.get o).imd.status = .fault)) ∧
    (hedgeLive s = true → (h.imd.running = false ∨ h.imd.noValue < 8) → CarriesOut (.insulationNoValue o) s (fun t => t = s)) ∧
    (hedgeLive s = true → driveOn s o = true → (s.link.get o).gen ≠ .stateF → lost →
      CarriesOut (.pilotLoss ⟨o, high, low⟩) s (fun t =>
      (t.hedge.out.get o).latched.getLsbD 4 = true ∧ (t.hedge.out.get o).high = high ∧ (t.hedge.out.get o).low = low)) ∧
    (hedgeLive s = true → (driveOn s o = false ∨ (s.link.get o).gen = .stateF ∨ ¬lost) →
      CarriesOut (.pilotLoss ⟨o, high, low⟩) s (fun t => t = seePilot o high low s)) ∧
    (hedgeLive s = true → driveOn s o = true → ¬lost → 8000 ≤ high → CarriesOut (.pilotBTimeout ⟨o, high, low⟩) s (fun t =>
      (t.hedge.out.get o).latched.getLsbD 4 = true ∧ (t.hedge.out.get o).high = high ∧ (t.hedge.out.get o).low = low)) ∧
    (hedgeLive s = true → (driveOn s o = false ∨ lost ∨ high ≤ 7000) →
      CarriesOut (.pilotBTimeout ⟨o, high, low⟩) s (fun t => t = seePilot o high low s)) ∧
    (hedgeLive s = true → hedgeDc s o = true → (sessOf s o).drive = false → h.closed = false →
      CarriesOut (.weldCheckStart o) s (fun t =>
        t = { s with hedge := { s.hedge with out := s.hedge.out.set o { h with weldRun := true } } })) ∧
    (hedgeLive s = true → h.weldRun = true → (sessOf s o).drive = false →
      (6000 ≤ v.natAbs → (v - onL).natAbs ≤ 100 * block0702 s o 14 2 → CarriesOut (.weldDetected o v onL) s (fun t =>
        t = tripOutlet o 5 none (leInt 4 v) s)) ∧
      (v.natAbs < 6000 → CarriesOut (.weldDetected o v onL) s (fun t => t = s))) ∧
    (up s = true → CarriesOut .hedgeFault s (fun t => t = tripModule .fault s)) ∧
    (up s = false → Ignores .hedgeFault s) ∧
    (hedgeLive s = true → block0701 s 1 1 = 1 →
      CarriesOut (.tripResetAutomatic (some o)) s (fun t => t = (resetOutlet 8 o s).1) ∧
      CarriesOut (.tripResetAutomatic none) s (fun t => t = (resetModule 8 s).1)) ∧
    (hedgeLive s = true → block0701 s 1 1 ≠ 1 → CarriesOut (.tripResetAutomatic none) s (fun t => t = s)) ∧
    (hedgeLive s = false → ∀ c ∈ ([.estopOpen b, .testPulse b b b, .estopDiscrepancy, .overcurrentTrip o ⟨ph, feed, v⟩,
      .residualCurrentCheck o before feed, .insulationPolarityChange o m, .insulationSelfTimed o m, .insulationNoValue o,
      .pilotLoss ⟨o, high, low⟩, .pilotBTimeout ⟨o, high, low⟩, .weldCheckStart o, .weldDetected o v onL, .tripResetAutomatic none] : List Instr), Ignores c s)

/-- R225 to R228: safe frames. A frame that fails step 1 or 2 is only counted; two equal copies on the two paths make a pair;
unequal ones, a missing second copy and a missing pair are the safe-frame fault; the group trip request of a trip frame acts
with its first copy. On E0 a frame goes to the group address of record 0x0704 at port 49411; a cyclic frame goes out unless one
waits; a trip frame goes out once bits 0, 1 or 3 of the state byte differ from those of the latest trip frame. -/
def Obligations.SafeFrameCommands : Prop :=
  ∀ (s : State) (p : Path) (bytes : List Byte) (slot : Slot),
    let src := fieldN bytes 0 2 % 16
    let x := sourceOf s src
    (hedgeLive s = true → copyValid s bytes = true → copyLater s bytes = true → tripFrameBytes bytes = false →
      (x.waiting = [] → CarriesOut (.safeFrameReceive p bytes) s (fun t =>
        (sourceOf t src).waiting = [(p, bytes)] ∧ (sourceOf t src).seq = x.seq ∧ (sourceOf t src).fault = x.fault ∧
        t.logs = s.logs)) ∧
      (∀ q, q ≠ p → x.waiting = [(q, bytes)] → CarriesOut (.safeFrameReceive p bytes) s (fun t =>
        (sourceOf t src).waiting = [] ∧ (sourceOf t src).seq = some (seqOf bytes) ∧ (sourceOf t src).fault = false ∧
        (sourceOf t src).group = (fieldN bytes 8 1).testBit 1 ∧
        ((fieldN bytes 8 1).testBit 1 = true → t.hedge.group = true))) ∧
      (∀ q other, q ≠ p → x.waiting = [(q, other)] → seqOf other = seqOf bytes → other ≠ bytes →
        CarriesOut (.safeFrameReceive p bytes) s (fun t =>
          (sourceOf t src).waiting = [] ∧ (sourceOf t src).fault = true ∧ t.hedge.safeFault = true))) ∧
    (hedgeLive s = true → copyValid s bytes = true → copyLater s bytes = true → tripFrameBytes bytes = true →
      (fieldN bytes 8 1).testBit 1 = true → CarriesOut (.safeFrameReceive p bytes) s (fun t =>
        (sourceOf t src).group = true ∧ t.hedge.group = true)) ∧
    (hedgeLive s = true → (copyValid s bytes = false ∨ copyLater s bytes = false) →
      Completes (.safeFrameReceive p bytes) s (fun t =>
      t = { s with hedge := { s.hedge with safeDiscards := s.hedge.safeDiscards + 1 } })) ∧
    (hedgeLive s = false → Ignores (.safeFrameReceive p bytes) s) ∧
    (∀ w rest, (sourceOf s slot.val).waiting = w :: rest → CarriesOut (.safeFrameCopyMissing slot) s (fun t =>
      (sourceOf t slot.val).waiting = rest ∧ (sourceOf t slot.val).fault = true ∧ t.hedge.safeFault = true)) ∧
    ((sourceOf s slot.val).waiting = [] → Ignores (.safeFrameCopyMissing slot) s) ∧
    (hedgeLive s = true → slot.val ∈ otherMembers s → (sourceOf s slot.val).seq ≠ none →
      CarriesOut (.safeFramePairTimeout slot) s (fun t =>
      (sourceOf t slot.val).fault = true ∧ t.hedge.safeFault = true)) ∧
    ((hedgeLive s = false ∨ slot.val ∉ otherMembers s ∨ (sourceOf s slot.val).seq = none) →
      Ignores (.safeFramePairTimeout slot) s) ∧
    Completes (.safeFrameSequenceClear slot) s (fun t =>
      (sourceOf t slot.val).seq = none ∧ (sourceOf t slot.val).waiting = (sourceOf s slot.val).waiting ∧
      ∀ y, y ≠ slot.val → sourceOf t y = sourceOf s y) ∧
    (s.hedge.safeFault = true → membersMatch s = true → CarriesOut .safeFrameFaultClear s (fun t =>
      t = { s with hedge := { s.hedge with safeFault := false } })) ∧
    ((s.hedge.safeFault = false ∨ membersMatch s = false) → Ignores .safeFrameFaultClear s) ∧
    (s.hedge.group = true → (∀ y ∈ s.hedge.sources, y.group = false) → Completes .groupTripClear s (fun t =>
      t = { s with hedge := { s.hedge with groupGone := true } })) ∧
    (s.hedge.group = false → Ignores .groupTripClear s) ∧
    (sendsSafe s = true →
      (s.hedge.safeWait = none → Completes .safeFrameCyclic s (fun t =>
        t.out = .safeFrame .e0 (some (block0704 s 8 4, 49411)) (safeFrameBytes s 1) :: s.out ∧ t.hedge = { s.hedge with
          safeSeq := s.hedge.safeSeq + 1, safeWait := some (safeFrameBytes s 1) })) ∧
      (s.hedge.safeWait ≠ none → Ignores .safeFrameCyclic s) ∧
      (tripChanged s = true → Completes .safeFrameTripSend s (fun t =>
        t.out = .safeFrame .e0 (some (block0704 s 8 4, 49411)) (safeFrameBytes s 2) :: s.out ∧ t.hedge = { s.hedge with
          safeSeq := s.hedge.safeSeq + 1, lastState := safeState s, safeWait := some (safeFrameBytes s 2) })) ∧
      (tripChanged s = false → Ignores .safeFrameTripSend s)) ∧
    (sendsSafe s = false → Ignores .safeFrameCyclic s ∧ Ignores .safeFrameTripSend s)

/-- R206, R208, R212, R221, R231 to R233, R239: confirmation, resets by opcode, and Scarecrow. Three wrong values within 10 min
lock the confirmation; the weld latch is cleared only in SERVICE with the vehicle gone. -/
def Obligations.SafetyOpcodes : Prop :=
  ∀ (s : State) (o : Outlet) (r : Request) (agrees : Bool) (m : ScrInput),
    let p := r.payload
    (let op := opLen 0x0702 [clsN] 4
     let c := Instr.confirmCheckValue r
     let v := fieldN p 0 4
     let may := lifeAllows s = true ∧ allWaiting s = true ∧ hedgeStateCode s = 0 ∧ s.hedge.block ≠ none
     (may → s.hedge.lockedOut = false → v = checkValue s → s.hedge.confirmed = true → Admitted op r s →
       Completes c s (fun t => Answers s r op.code St.ok [] t)) ∧
     (may → s.hedge.lockedOut = false → v ≠ checkValue s → Admitted op r s →
       Completes c s (fun t => Answers s r op.code St.checkFail [] t)) ∧
     (may → s.hedge.lockedOut = true → Admitted op r s → Completes c s (fun t => Answers s r op.code St.locked [] t)) ∧
     (¬may → Admitted op r s → Completes c s (fun t => Answers s r op.code St.refusedState [] t)) ∧
     (may → s.hedge.lockedOut = false → v = checkValue s → s.hedge.confirmed = false →
       let w := admitted op.code r s
       let u := (confirmCheck 0 (portOrigin r.port) v w).1
       (Admitted op r s → ∃ t, exec c s = .next t ∧
         Answers s r op.code St.ok [] t ∧ SameModule (settle (storeConfirmation w u)) t) ∧ u.hedge.confirmed = true ∧
           u.hedge.stored = some (BitVec.ofNat 32 v)) ∧
     (may → s.hedge.lockedOut = false → v ≠ checkValue s →
       let u := (confirmCheck 0 1 v s).1
       u.hedge.confirmed = s.hedge.confirmed ∧ u.hedge.stored = s.hedge.stored ∧
       (u.hedge.lockedOut = true ↔ 2 ≤ (s.hedge.wrongTimes.filter (fun t => s.clockMs < t + 600000)).length))) ∧
    (let op := opLen 0x0703 [clsN, clsH] 4
     fieldN p 1 3 = 0 → Admitted op r s →
     (fieldN p 0 1 = o.val → Completes (.tripReset r) s (fun t =>
       Answers s r op.code (if (resetOutlet (portOrigin r.port) o s).2 = 0 then St.ok else St.refusedState) [] t)) ∧
     (fieldN p 0 1 = 0xFF → Completes (.tripReset r) s (fun t =>
       Answers s r op.code (if (resetModule (portOrigin r.port) s).2 = 0 then St.ok else St.refusedState) [] t))) ∧
    (let op := opLen 0x0704 [clsN] 4
     fieldN p 0 1 = o.val → fieldN p 1 3 = 0 →
     (s.cis.lifecycle = 3 → (s.link.get o).pilot = some .a → (s.hedge.out.get o).latched.getLsbD 5 = true →
       (Admitted op r s → ∃ t, exec (.weldClear r) s = .next t ∧
         Answers s r op.code St.ok [] t ∧ SameModule (settle (clearWeld (portOrigin r.port) o (admitted op.code r s))) t)) ∧
     ((s.cis.lifecycle ≠ 3 ∨ (s.link.get o).pilot ≠ some .a ∨ (s.hedge.out.get o).latched.getLsbD 5 = false) →
       (Admitted op r s → ∃ t, exec (.weldClear r) s = .next t ∧ Answers s r op.code St.refusedState [] t ∧ SameModule s t))) ∧
    (∀ b, s.hedge.nextBlock = some b → anyDrive s = false → CarriesOut (.parameterBlockLoad agrees) s (fun t =>
      t.hedge.block = some b ∧ t.hedge.nextBlock = none ∧ t.hedge.mismatch = !agrees ∧ t.hedge.out = s.hedge.out)) ∧
    ((s.hedge.nextBlock = none ∨ anyDrive s = true) → Ignores (.parameterBlockLoad agrees) s) ∧
    (s.hedge.lockedOut = true → Completes .confirmationLockExpiry s (fun t =>
      t = { s with hedge := { s.hedge with lockedOut := false, wrongTimes := [] } })) ∧
    (s.hedge.lockedOut = false → Ignores .confirmationLockExpiry s) ∧
    (up s = true → CarriesOut (.scarecrowCheck o m) s (fun t =>
      (t.hedge.scr.get o).lapsed = false ∧
      (outletStuck s o = true → 4 ≤ (sessOf s o).state.code → (sessOf s o).state.code ≤ 7 → (t.hedge.scr.get o).cut = true) ∧
      ((s.hedge.scr.get o).cut = true → (t.hedge.scr.get o).cut = true) ∧ (∀ y, y ≠ o → t.hedge.scr.get y = s.hedge.scr.get y) ∧
      t.sess = s.sess)) ∧
    (up s = false → Ignores (.scarecrowCheck o m) s ∧ Ignores (.scarecrowRampWithdraw o) s) ∧
    (up s = true → (s.hedge.scr.get o).ramp = true → CarriesOut (.scarecrowRampWithdraw o) s (fun t =>
      t = setScr o (fun c => { c with cut := true, permit := false }) s)) ∧
    ((s.hedge.scr.get o).ramp = false → Ignores (.scarecrowRampWithdraw o) s) ∧
    CarriesOut (.scarecrowPermitTimeout o) s (fun t => t = setScr o (fun c => { c with lapsed := true, permit := false }) s)

/-- R207: Hedge grants an outlet's permit only with drive requested, the block loaded and confirmed, no trip latched on the
outlet or the module, no stuck channel, a pilot that its own comparators see in B, C or D, a life-cycle state that allows it
and a passed Rake; at the first grant of a request the protection path's link voltage of a DC outlet is at most the code of 60
V, and the residual DC of another at most 3 mA. R209 to R211, R240: a trip of an outlet latches its bit, takes the permit, and
opens the switches at once or after the contactor delay; with drive on a trip frame for the outlet's converter waits. A trip
that is latched already is not logged again. R212: a module trip takes every outlet's permit and asks for a trip frame for all
of them; it is latched once. Clearing it by the reset policy needs its cause gone: both E-stop channels closed, and for a
wiring trip both to have been open; a safe-frame fault and a Hedge fault stay, and what remains decides the answer and is
logged. R203, R208, R244, R250: a channel conducts only when it is commanded, used, free of latches, restarts, supply faults
and pending cycles, and let by both gates, and is not the second channel of an AC outlet with one contactor; bringing the
outputs to their conditions switches exactly those on, and opens the inrush window of one that was off. -/
def Obligations.TripRules : Prop :=
  (∀ (s : State) (o : Outlet),
     let t := hedgePermit o s
     let h := t.hedge.out.get o
     (h.permit = true →
       (sessOf s o).drive = true ∧ hedgeLive s = true ∧ hedgeType s o ≠ 0 ∧ s.hedge.confirmed = true ∧ h.latched = 0 ∧
       s.hedge.estop = false ∧ s.hedge.wiring = false ∧ s.hedge.safeFault = false ∧ s.hedge.group = false ∧
       s.hedge.fault = false ∧ s.hedge.mismatch = false ∧ outletStuck s o = false ∧ 1500 < h.high ∧ h.high < 10500 ∧
       s.cis.lifecycle ≠ 0 ∧ s.cis.lifecycle ≠ 4 ∧ s.rake.permitOk = true ∧ h.closed = true ∧
       ((s.hedge.out.get o).granted = true ∨
         (hedgeDc s o = true ∧ (chanState s (4 * o.val + 2)).prot.natAbs ≤ 6000 * 5461 / fullScale s (4 * o.val + 2)) ∨
         (hedgeDc s o = false ∧ h.residualDc.natAbs ≤ 3000))) ∧
     (h.permit = false → (s.hedge.out.get o).delaying = false → h.closed = false) ∧
     ((sessOf s o).drive = false → h.permit = false ∧ h.granted = false) ∧
     (10500 ≤ h.high → h.latched.getLsbD 3 = false ∧ h.latched.getLsbD 4 = false ∧
       h.latched.getLsbD 5 = (s.hedge.out.get o).latched.getLsbD 5) ∧
     (∀ y, y ≠ o → t.hedge.out.get y = s.hedge.out.get y)) ∧
  (∀ (s : State) (o : Outlet) (bit : Nat) (reason : Option Nat) (value : List Byte), bit < 7 →
     let t := tripOutlet o bit reason value s
     let h := t.hedge.out.get o
     h.latched.getLsbD bit = true ∧ h.causes.getLsbD bit = true ∧
       (∀ i, i ≠ bit → h.latched.getLsbD i = (s.hedge.out.get o).latched.getLsbD i) ∧
       (∀ y, y ≠ o → t.hedge.out.get y = s.hedge.out.get y) ∧ t.link = s.link ∧ t.sess.out = s.sess.out ∧
       ((s.hedge.out.get o).latched.getLsbD bit = true → t.logs = s.logs ∧ t.sess = s.sess) ∧
       ((s.hedge.out.get o).latched.getLsbD bit = false →
         h.permit = false ∧ h.newTrip = true ∧ h.newWeld = decide (bit = 5) ∧
         (block0701 s 2 1 = 0 → h.closed = false ∧ h.delaying = false) ∧
         (block0701 s 2 1 ≠ 0 → h.closed = (s.hedge.out.get o).closed ∧ h.delaying = (s.hedge.out.get o).closed) ∧
         t.logs.next = s.logs.next + 1 ∧
         ((driveOn s o = false ∨ reason = none) → t.sess = s.sess) ∧
         (∀ r, driveOn s o = true → reason = some r → s.sess.tripWait = none →
           t.sess.tripWait = some ⟨addressMask s [o], r, s.sess.tripCount⟩ ∧ t.sess.tripCount = s.sess.tripCount + 1) ∧
         (∀ r w, driveOn s o = true → reason = some r → s.sess.tripWait = some w →
           t.sess.tripWait = some ⟨w.mask ||| addressMask s [o], if r = 1 then 1 else w.reason, w.counter⟩))) ∧
  (∀ (s : State) (k : ModuleTrip) (origin : Nat) (o : Outlet),
     (tripLatch k s.hedge = true → tripModule k s = s) ∧
     (tripLatch k s.hedge = false →
       let t := tripModule k s
       tripLatch k t.hedge = true ∧ (∀ y : Outlet, (t.hedge.out.get y).permit = false ∧ (t.hedge.out.get y).newTrip = true ∧
         (t.hedge.out.get y).latched = (s.hedge.out.get y).latched) ∧ t.sess.tripWait ≠ none ∧ t.logs.next = s.logs.next + 1) ∧
     (let t := (resetModule origin s).1
      (s.hedge.openA = true ∨ s.hedge.openB = true → t.hedge.estop = s.hedge.estop ∧ t.hedge.wiring = s.hedge.wiring) ∧
      (s.hedge.openA = false → s.hedge.openB = false → t.hedge.estop = false ∧
        (s.hedge.bothOpened = true → t.hedge.wiring = false) ∧ (s.hedge.bothOpened = false → t.hedge.wiring = s.hedge.wiring)) ∧
      t.hedge.safeFault = s.hedge.safeFault ∧ t.hedge.fault = s.hedge.fault ∧ t.hedge.out = s.hedge.out ∧
      (t.hedge.group = true ↔ s.hedge.group = true ∧ s.hedge.groupGone = false) ∧
      (resetModule origin s).2 = moduleBits t.hedge ∧
      (moduleTrip s = true → t.logs.next = s.logs.next + 1) ∧ (moduleTrip s = false → t = s)) ∧
     (let t := (resetOutlet origin o s).1
      let h := s.hedge.out.get o
      (t.hedge.out.get o).latched = h.latched &&& ~~~(h.latched &&& 0x47 &&& ~~~h.causes) ∧
        (resetOutlet origin o s).2 = (t.hedge.out.get o).latched.toNat ∧ (h.latched = 0 → t = s))) ∧
  (∀ (s : State) (i : Nat), i < s.sw.chans.length →
     let t := driveChannels s
     let x := chanSw s i
     ((chanSw t i).on = true ↔
       x.commanded = true ∧ x.short = false ∧ x.overcur = false ∧ x.thermalLatch = false ∧ x.shed = false ∧ x.thermal = false ∧
       x.undervoltage = false ∧ x.needsCycle = false ∧ chanUse s i ≠ 0 ∧
       (i < 8 → (s.hedge.out.get (contactorOutlet i)).closed = true ∧ (s.hedge.scr.get (contactorOutlet i)).permit = true) ∧
       (i < 8 → i % 2 = 1 → isAc s (contactorOutlet i).val = true → cfgN s 0x0702 (contactorOutlet i).val 1 1 2 ≠ 1) ∧
       (8 ≤ i → chanField s i 2 1 = 1 → moduleTrip s = false)) ∧
     ((chanSw t i).on = true → x.on = false → (chanSw t i).inrush = (chanField s i 8 1 != 0)) ∧
     ((chanSw t i).on = false → (chanSw t i).inrush = false) ∧
     (chanSw t i).commanded = x.commanded ∧ (chanSw t i).short = x.short ∧ (chanSw t i).overcur = x.overcur)

/-- R246 to R254: the controller's commands. A latch switches the channel off with its entry; N samples in a row at or above
the threshold in force are an over-current; open-load detection runs on a channel that is on, past its inrush window and settle
time, with a threshold and a supply of 16 V; restarts count up to the limit, then latch; groups 2 and 3 shed a channel that is
not safety-related; a supply dip releases a group until it returns. R250, R259: the opcodes of the switches. A host load is
commanded; a command that would only repeat a latched request is refused; one capture runs at a time and is answered when its
samples are complete. -/
def Obligations.SwitchCommands : Prop :=
  (∀ (s : State) (ch : SwCh) (on : Bool) (v supply : Nat) (samples : List Nat) (dT tj : Int) (g : Fin 4)
       (m : Nat),
     let i := ch.val
     let x := chanSw s i
     let have16 := s.sw.chans.length = 16
     (domainRuns s = true → CarriesOut (.channelCommandWrite ch on) s (fun t => t = commandChannel i on s)) ∧
     (up s = true → x.on = true → have16 → CarriesOut (.channelShort ch v) s (fun t =>
       (chanSw t i).short = true ∧ (chanSw t i).on = false ∧ (i < 8 → (t.hedge.scr.get (contactorOutlet i)).cut = true) ∧
       t.logs.next = s.logs.next + 1)) ∧
     (up s = true → x.on = false → CarriesOut (.channelShort ch v) s (fun t => t = s)) ∧
     let run := runOf (overSamples s) (fun v => decide ((if x.inrush = true then chanField s i 6 2 else chanField s i 4 2) ≤ v))
       x.overCount samples
     (up s = true → x.on = true → run = true → have16 → CarriesOut (.channelOvercurrent ch samples) s (fun t =>
       (chanSw t i).overcur = true ∧ (chanSw t i).on = false ∧ t.logs.next = s.logs.next + 1)) ∧
     (up s = true → x.on = true → run = false → have16 → CarriesOut (.channelOvercurrent ch samples) s (fun t =>
       ∃ n, t = setChanSw i (fun x => { x with overCount := n }) s)) ∧
     (up s = true → x.on = false → CarriesOut (.channelOvercurrent ch samples) s (fun t => t = s)) ∧
     (x.inrush = true → Completes (.inrushWindowEnd ch) s (fun t =>
       t = setChanSw i (fun x => { x with inrush := false, overCount := 0, inrushEnd := s.clockMs }) s)) ∧
     (x.inrush = false → Ignores (.inrushWindowEnd ch) s) ∧
     (up s = true → x.on = true → ((chanField s i 13 1 : Int) < dT ∨ 150 ≤ tj) → have16 →
       let n := if consecutive s x then x.restarts + 1 else 0
       (n < restartCount s → CarriesOut (.channelThermal ch dT tj) s (fun t =>
         t = setChanSw i (fun x => { x with
           thermal := true, restarts := n, on := false, inrush := false, overCount := 0 }) s)) ∧
       (restartCount s ≤ n → CarriesOut (.channelThermal ch dT tj) s (fun t =>
         (chanSw t i).thermalLatch = true ∧ (chanSw t i).thermal = false ∧ (chanSw t i).on = false))) ∧
     (up s = true → x.on = true → dT ≤ (chanField s i 13 1 : Int) → tj < 150 →
       CarriesOut (.channelThermal ch dT tj) s (fun t => t = s)) ∧
     (up s = true → x.thermal = true → dT ≤ (chanField s i 13 1 : Int) - 15 → tj ≤ 135 →
       CarriesOut (.thermalRestart ch dT tj) s (fun t =>
       t = setChanSw i (fun x => { x with thermal := false, onSince := some s.clockMs }) s)) ∧
     (up s = true → (x.thermal = false ∨ (chanField s i 13 1 : Int) - 15 < dT ∨ 135 < tj) →
       CarriesOut (.thermalRestart ch dT tj) s (fun t => t = s)) ∧
     (let runs := chanField s i 10 2 ≠ 0 ∧ x.on = true ∧ x.inrush = false ∧ x.inrushEnd + cfgN s 0x0802 0 4 2 100 ≤ s.clockMs ∧
        1600 ≤ supply
      let fine := chanField s i 9 1 = 1
      let shown := if fine then (if 64000 < v then 64000 else v) else min 16383000 v
      let limit := 100 * chanField s i 10 2
      (up s = true → runs → x.openLoad = false → ¬(fine ∧ 64000 < v) → shown < limit →
        Completes (.openLoadSet ch ⟨v, supply⟩) s (fun t =>
          t.sw = (setChanSw i (fun x => { x with openLoad := true }) s).sw ∧ t.logs.general.head? =
            some (newEntry s 0 0x08 0x0802 ([byte i, 1, 0, 0] ++ leBytes 4 shown ++ zeros 8)))) ∧
      ((up s = false ∨ ¬runs ∨ x.openLoad = true ∨ (fine ∧ 64000 < v) ∨ limit ≤ shown) →
        Ignores (.openLoadSet ch ⟨v, supply⟩) s) ∧
      (up s = true → runs → x.openLoad = true → 5 * limit ≤ 4 * shown → Completes (.openLoadClear ch ⟨v, supply⟩) s (fun t =>
        t.sw = (setChanSw i (fun x => { x with openLoad := false }) s).sw ∧ t.logs.general.head? =
          some (newEntry s 0 0x08 0x0802 ([byte i, 0, 0, 0] ++ leBytes 4 shown ++ zeros 8)))) ∧
      ((up s = false ∨ ¬runs ∨ x.openLoad = false ∨ 4 * shown < 5 * limit) → Ignores (.openLoadClear ch ⟨v, supply⟩) s) ∧
      (fine → 64000 < v → currentCode s i v = (16383, true))) ∧
     (up s = true → m ≤ 10000 → s.sw.means.length = 4 → CarriesOut (.groupMeanCheck m m m m) s (fun t =>
       t.sw.means = [m, m, m, m] ∧ t.sw.chans = s.sw.chans ∧ t.logs = s.logs)) ∧
     (10000 < m → s.sw.overChecks.getD 2 0 = 0 → have16 → ∀ k, shedChannel s 2 = some k →
       let t := checkGroup 2 m s
       (chanSw t k).shed = true ∧ (chanSw t k).on = false ∧ safetyRelated s k = false ∧ k / 4 = 2) ∧
     (up s = true → v < 600 → s.sw.chans.length = 16 → s.sw.released.length = 4 →
       CarriesOut (.undervoltageRelease g v) s (fun t =>
       t.sw.released.getD g.val false = true ∧
       (i / 4 = g.val → (chanSw t i).on = false ∧ (chanSw t i).undervoltage = true) ∧ (i / 4 ≠ g.val → chanSw t i = x))) ∧
     (up s = true → 600 ≤ v → CarriesOut (.undervoltageRelease g v) s (fun t => t = s)) ∧
     (up s = true → 700 < v → s.sw.released.getD g.val false = true → have16 → CarriesOut (.undervoltageReturn g v) s (fun t =>
       t.sw.released.getD g.val false = false ∧
       (i / 4 = g.val → (chanSw t i).undervoltage = (decide (i < 8) && x.commanded)) ∧ (i / 4 ≠ g.val → chanSw t i = x))) ∧
     (up s = true → (v ≤ 700 ∨ s.sw.released.getD g.val false = false) →
       CarriesOut (.undervoltageReturn g v) s (fun t => t = s)) ∧
     (up s = false → Ignores (.channelShort ch v) s ∧ Ignores (.groupMeanCheck m m m m) s ∧
       Ignores (.undervoltageRelease g v) s)) ∧
  (∀ (s : State) (r : Request) (samples : List Nat),
     let p := r.payload
     let i := fieldN p 0 1
     (let op := opLen 0x0802 [clsN, clsH] 4
      8 ≤ i → i < 16 → fieldN p 1 1 < 2 → fieldN p 2 2 = 0 →
      (chanUse s i = 2 → (fieldN p 1 1 = 0 ∨ (chanSw s i).latched = false ∨ (chanSw s i).commanded = false) →
        (Admitted op r s → ∃ t, exec (.switchCommand r) s = .next t ∧
          Answers s r op.code St.ok [] t ∧ SameModule (settle (commandChannel i (fieldN p 1 1 == 1) (admitted op.code r s))) t)) ∧
      (chanUse s i ≠ 2 → (Admitted op r s → ∃ t, exec (.switchCommand r) s = .next t ∧
         Answers s r op.code St.refusedState [] t ∧ SameModule s t)) ∧
      (chanUse s i = 2 → fieldN p 1 1 = 1 → (chanSw s i).latched = true → (chanSw s i).commanded = true →
        (Admitted op r s → ∃ t, exec (.switchCommand r) s = .next t ∧
          Answers s r op.code St.refusedState [] t ∧ SameModule s t))) ∧
     (let op := opLen 0x0803 [clsN, clsB] 4
      i < 16 → fieldN p 1 1 = 0 → 1 ≤ fieldN p 2 2 → fieldN p 2 2 ≤ 640 →
      (s.sw.capture = none → Admitted op r s → Completes (.currentCapture r) s (fun t =>
        SameModule { s with sw := { s.sw with capture := some ⟨r.port, r.seq, r.cls, i, fieldN p 2 2, s.sun.cycle⟩ } } t ∧
        t.out = s.out ∧ (originOf t r.port).progress = ⟨r.seq, r.cls, 0x0803, 0⟩ :: (originOf s r.port).progress)) ∧
      (s.sw.capture ≠ none → (Admitted op r s → ∃ t, exec (.currentCapture r) s = .next t ∧
         Answers s r op.code St.busy [] t ∧ SameModule s t))) ∧
     (∀ c : Capture, s.sw.capture = some c → Completes (.currentCaptureComplete samples) s (fun t =>
       SameModule { s with sw := { s.sw with capture := none } } t ∧
       t.out.head? = some (.packet (packetOf s c.port c.cls 0x0803 c.seq 1 St.ok
         ([byte c.channel, byte (chanField s c.channel 9 1)] ++ leBytes 2 (samples.take c.count).length ++ wordBytes 4 c.cycle ++
           (samples.take c.count).flatMap (fun v => leBytes 2 (currentCode s c.channel v).1)))))) ∧
     (s.sw.capture = none → Ignores (.currentCaptureComplete samples) s))

/-! ### Chapters 03, 10, 11 and 12: bulk data, billing, display, key store -/

/-- R54, R55: a block of a transfer that is no longer open is answered with the transfer's status and not applied; a block that
completes the object applies it once and closes the transfer with the outcome; one that leaves bytes missing is only kept; one
that contradicts what has come is refused. -/
def Obligations.BulkBlocks : Prop :=
  ∀ (code maxTotal : Nat) (check : Nat → Nat) (apply : List Byte → State → State × Nat) (r : Request) (s : State) (x : Transfer),
    let p := r.payload
    let off := fieldN p 4 4
    let total := fieldN p 8 4
    let data := slice p 16 (fieldN p 12 2)
    let header := blockHeader (fieldN p 0 4) off total data.length
    let blocks := x.blocks ++ [(off, data)]
    findTransfer s (fieldN p 0 4) = some x →
    (x.state ≠ .receiving → bulkWrite code maxTotal check apply r s =
      (s, .now x.status (if x.status = St.ok then header else []))) ∧
    (x.state = .receiving → BlockFits maxTotal p → x.port = r.port → x.object = code → x.total = total →
      (blockAgrees x.blocks off data = false → bulkWrite code maxTotal check apply r s = (s, .now St.checkFail [])) ∧
      (blockAgrees x.blocks off data = true → assemble blocks total = none →
        bulkWrite code maxTotal check apply r s =
          (putTransfer { x with blocks := blocks, received := receivedBytes blocks total } s, .now St.ok header)) ∧
      (blockAgrees x.blocks off data = true → ∀ object, assemble blocks total = some object →
        bulkWrite code maxTotal check apply r s =
          (putTransfer { x with
            blocks := [], received := total, status := (apply object s).2
            state := if (apply object s).2 = St.ok then .applied else .refused } (apply object s).1,
           .now (apply object s).2 (if (apply object s).2 = St.ok then header else [])))) ∧
    (x.state = .receiving → BlockFits maxTotal p → x.port ≠ r.port →
      bulkWrite code maxTotal check apply r s = (s, .now St.busy []))

/-- R281: the available credit is the balance, less the cost of every open session on the account, plus the limit where
emergency credit is allowed; the credit check accepts a valid account whose available credit is above 0, and no other. -/
def Obligations.AvailableCredit : Prop :=
  ∀ (s : State) (a : Account) (i : Nat),
    availableCredit s a =
      a.balance - (([0, 1, 2, 3] : List Outlet).map (fun o =>
        if (sessOf s o).prepaid = true ∧ (sessOf s o).closed = false ∧ (sessOf s o).grant.account = a.index then
          (s.bill.outlets.get o).cost else 0)).sum + (if a.emergencyAllowed then a.limit else 0) ∧
    (creditAccepts s i = true ↔
      ∃ x, s.bill.accounts.find? (fun x => x.index == i) = some x ∧ 0 < availableCredit s x)

/-- R282: no part of a cost is lost. A window adds its energy times the price to cost and remainder together, and the remainder
stays below one unit. R268 to R270: a period that closes is stored with its number and its end, its maxima are taken back, and
the next period starts; at most 16 are held, and the tariff values run on. R277: a step sets the clock, makes it valid, ends a
slew and enters the legal log; a slew needs a valid clock and at most 2 s. -/
def Obligations.BillingRules : Prop :=
  (∀ (price minor : Nat) (delta : Int) (x : OutletBill),
     let y := addCost price minor delta x
     (x.stopped = true → y = x) ∧
     (x.stopped = false → y.cost * 100000000 + y.remainder = x.cost * 100000000 + x.remainder + delta * price * minor ∧
       y.remainder < 100000000 ∧ y.residue = residueOf y.cost ∧ y.account = x.account)) ∧
  (∀ (origin : Nat) (endUtc : Option Nat) (late byCommand : Bool) (s : State),
     let t := closePeriod origin endUtc late byCommand s
     t.bill.period = s.bill.period + 1 ∧ t.bill.lastEnd = endUtc ∧ t.bill.values = s.bill.values ∧
       t.bill.demand.maxima = List.replicate 16 (0, 0) ∧ t.bill.demand.maxMask = 0 ∧ t.bill.periods.length ≤ 16 ∧
       (demandGood s.bill.demand0 = true → demandGood t.bill.demand0 = true ∧ t.bill.demand0.maxima = List.replicate 16 (0, 0)) ∧
       (demandGood s.bill.demand1 = true → demandGood t.bill.demand1 = true ∧ t.bill.demand1.maxima = List.replicate 16 (0, 0)) ∧
       (∃ r l, t.bill.periods = r :: l ∧ r.number = s.bill.period ∧ r.endUtc = endUtc ∧ r.values = s.bill.values ∧
         l = s.bill.periods.take 15) ∧
       (∃ e, t.logs.general.head? = some e ∧ e.origin = origin ∧ e.sub = 0x09 ∧ e.code = 0x0901) ∧ t.sess = s.sess ∧
         t.energy = s.energy) ∧
  (∀ (s : State) (origin utc ms : Nat) (delta : Int),
     (origin ∈ [1, 2, 3] → legalRoom s = true →
       let t := (clockStep origin utc ms s).1
       (clockStep origin utc ms s).2.1 = St.ok ∧
       t.sun = { s.sun with utc := utc, utcMark := (s.clockMs : Int) - ms, utcValid := true } ∧ t.bill.slew = 0 ∧
       (clockStep origin utc ms s).2.2 = (if s.sun.utcValid then (utc : Int) * 1000 + ms - utcMs s else -2147483648) ∧
       t.logs.legal.length = s.logs.legal.length + 1 ∧ t.sess = s.sess) ∧
     (origin ∈ [1, 2, 3] → legalRoom s = false → clockStep origin utc ms s = (s, St.noSpace, 0)) ∧
     (s.sun.utcValid = false → clockSlew origin delta s = (s, St.refusedState)) ∧
     (s.sun.utcValid = true → 2000 < delta.natAbs → clockSlew origin delta s = (s, St.range)) ∧
     (s.sun.utcValid = true → delta.natAbs ≤ 2000 →
       (clockSlew origin delta s).2 = St.ok ∧ (clockSlew origin delta s).1.bill = { s.bill with slew := delta } ∧
       (clockSlew origin delta s).1.sun = s.sun ∧ (clockSlew origin delta s).1.logs.legal = s.logs.legal))

/-- R263, R274, R275, R277, R280, R284, R287, R288, R296 to R298: the commands of billing. -/
def Obligations.BillingCommands : Prop :=
  ∀ (s : State) (r : Request) (opened : BitVec 4),
    let p := r.payload
    (evaluates s = true → CarriesOut .tariffEvaluation s (fun t =>
      t.sun = { s.sun with angle := 40960, frac := 0 } ∧ t.bill.control.generation = s.bill.control.generation + 1 ∧
      t.bill.control.forced = !s.sun.utcValid ∧ t.bill.afterCut = false ∧ t.bill.stepPending = false ∧ t.bill.nextTable = none ∧
      t.bill.table = s.bill.nextTable.or s.bill.table ∧ (s.sun.utcValid = false → t.bill.subInterval = none))) ∧
    (evaluates s = false → Ignores .tariffEvaluation s) ∧
    (up s = true → s.bill.accountsChanged = true → Completes .accountStoreWrite s (fun t =>
      t.bill.accountsChanged = false ∧ t.bill.accounts = s.bill.accounts ∧
      (∃ c, (t.bill.storeA = some c ∨ t.bill.storeB = some c) ∧ c.accounts = s.bill.accounts ∧
        c.lastRecord = s.bill.lastRecord))) ∧
    ((up s = false ∨ s.bill.accountsChanged = false) → Ignores .accountStoreWrite s) ∧
    (let u := (List.range 4).foldl (sampleInput s opened) s.bill.tamper
     (s.power.state = .off → Ignores (.tamperSample opened) s) ∧
     (s.power.state ≠ .off → (s.power.state ≠ .run ∨ up s = false ∨ u.events = []) → Completes (.tamperSample opened) s (fun t =>
       t = { s with bill := { s.bill with tamper := u } })) ∧
     (up s = true → s.power.state = .run → u.events ≠ [] → Completes (.tamperSample opened) s (fun t =>
       t.bill.tamper = { u with events := [], overflow := 0 } ∧ t.logs.next = s.logs.next + u.events.length))) ∧
    (let op := opLen 0x0902 [clsN] 8
     let delta : Int := (fieldN p 0 4 : Int) * 1000 + fieldN p 4 2 - utcMs s
     fieldN p 4 2 ≤ 999 → fieldN p 7 1 = 0 →
     (fieldN p 6 1 = 1 → legalRoom s = true →
       (Admitted op r s → ∃ t, exec (.clockSet r) s = .next t ∧
         Answers s r op.code St.ok (leInt 4 (clockStep (portOrigin r.port) (fieldN p 0 4) (fieldN p 4 2) s).2.2) t ∧
         SameModule (clockStep (portOrigin r.port) (fieldN p 0 4) (fieldN p 4 2) s).1 t)) ∧
     (fieldN p 6 1 = 0 → s.sun.utcValid = true → 2000 < delta.natAbs → (Admitted op r s → ∃ t, exec (.clockSet r) s = .next t ∧
        Answers s r op.code St.range [] t ∧ SameModule s t)) ∧
     (fieldN p 6 1 = 1 → legalRoom s = false → (Admitted op r s → ∃ t, exec (.clockSet r) s = .next t ∧
        Answers s r op.code St.noSpace [] t ∧ SameModule s t)) ∧
     (fieldN p 6 1 = 0 → s.sun.utcValid = true → delta.natAbs ≤ 2000 →
       (Admitted op r s → ∃ t, exec (.clockSet r) s = .next t ∧
         Answers s r op.code St.ok (leInt 4 delta) t ∧ SameModule (clockSlew (portOrigin r.port) delta s).1 t)) ∧
     (fieldN p 6 1 = 0 → s.sun.utcValid = false → (Admitted op r s → ∃ t, exec (.clockSet r) s = .next t ∧
        Answers s r op.code St.refusedState [] t ∧ SameModule s t))) ∧
    (let op := opNone 0x0905 [clsN]
     (s.bill.deferred = false → legalRoom s = true →
       (Admitted op r s → ∃ t, exec (.billingPeriodClose r) s = .next t ∧
         Answers s r op.code St.ok (leBytes 4 s.bill.period) t ∧
         SameModule (closePeriod (portOrigin r.port) (utcNow s) false true s) t)) ∧
     (s.bill.deferred = true → (Admitted op r s → ∃ t, exec (.billingPeriodClose r) s = .next t ∧
        Answers s r op.code St.refusedState [] t ∧ SameModule s t)) ∧
     (s.bill.deferred = false → legalRoom s = false → (Admitted op r s → ∃ t, exec (.billingPeriodClose r) s = .next t ∧
        Answers s r op.code St.noSpace [] t ∧ SameModule s t))) ∧
    (let p := r.payload
     let total := fieldN p 8 4
     let len := fieldN p 12 2
     let data := slice p 16 len
     let header := blockHeader (fieldN p 0 4) (fieldN p 4 4) total len
     let u := (applyTable (portOrigin r.port)) data s
     BlockFits 8192 p → (fun _ => true) total = true → MayOpen s 0x0907 r.port (fieldN p 0 4) →
     Admitted (opBulk 0x0907 [clsB]) r s → ∃ t, exec (.tariffLoad r) s = .next t ∧
       (len = total → Answers s r 0x0907 u.2 (if u.2 = St.ok then header else []) t ∧ SameModule u.1 t) ∧
       (len < total → Answers s r 0x0907 St.ok header t ∧ SameModule s t)) ∧
    (let p := r.payload
     let total := fieldN p 8 4
     let len := fieldN p 12 2
     let data := slice p 16 len
     let header := blockHeader (fieldN p 0 4) (fieldN p 4 4) total len
     let u := (applyAccounts (portOrigin r.port)) data s
     BlockFits (16 + 40 * 4096) p → (fun n => decide (16 ≤ n ∧ (n - 16) % 40 = 0)) total = true →
       MayOpen s 0x0908 r.port (fieldN p 0 4) →
     Admitted (opBulk 0x0908 [clsB]) r s → ∃ t, exec (.accountLoad r) s = .next t ∧
       (len = total → Answers s r 0x0908 u.2 (if u.2 = St.ok then header else []) t ∧ SameModule u.1 t) ∧
       (len < total → Answers s r 0x0908 St.ok header t ∧ SameModule s t)) ∧
    (let op := opLen 0x0909 [clsN, clsH] 12
     let amount := fieldI p 4 8
     fieldN p 2 2 = 0 →
     (accountOf s (fieldN p 0 2) = none → (Admitted op r s → ∃ t, exec (.accountCredit r) s = .next t ∧
        Answers s r op.code St.range [] t ∧ SameModule s t)) ∧
     ((accountOf s (fieldN p 0 2)).isSome = true → amount = 0 → (Admitted op r s → ∃ t, exec (.accountCredit r) s = .next t ∧
         Answers s r op.code St.lenZero [] t ∧ SameModule s t)) ∧
     ((accountOf s (fieldN p 0 2)).isSome = true → amount ≠ 0 → heldElsewhere 0x0908 r.port s = true →
       (Admitted op r s → ∃ t, exec (.accountCredit r) s = .next t ∧ Answers s r op.code St.busy [] t ∧ SameModule s t)) ∧
     (amount ≠ 0 → heldElsewhere 0x0908 r.port s = false → ∀ a, accountOf s (fieldN p 0 2) = some a →
       (Admitted op r s → ∃ t, exec (.accountCredit r) s = .next t ∧
         Answers s r op.code St.ok (leInt 8 (a.balance + amount)) t ∧
         SameModule (creditAccount (portOrigin r.port) a amount s) t) ∧
       (∃ b, accountOf (creditAccount (portOrigin r.port) a amount s) (fieldN p 0 2) = some b ∧ b.balance = a.balance + amount ∧
         b.limit = a.limit ∧ b.windows = a.windows)))

/-- R310: a frame adds c × g to a pixel's stress and loses none of it: counter and sub-accumulator together rise by that much,
and the sub-accumulator stays below 80,000; a counter at its end stays there. R300 to R312, R315: the display. The scan starts
when VPP is in range and stops at a fault; a frame brings the rows that wait and ends a test pattern once an outlet has left
S0; the gains follow the stress; a save goes to the older copy. -/
def Obligations.DisplayCommands : Prop :=
  (∀ (g : Nat) (x : Pixel),
     let y := stressPixel g x
     (x.counter = 0xFFFFFFFF → y = x) ∧
     (x.counter ≠ 0xFFFFFFFF → y.counter * 80000 + y.sub = x.counter * 80000 + x.sub + x.code * g ∧
       (x.sub < 80000 → x.code * g ≤ 80000 → y.sub < 80000) ∧ y.index = x.index ∧ y.code = x.code ∧ y.worn = x.worn)) ∧
  (∀ (s : State) (r : Request) (v : Nat),
     let p := r.payload
     let d := s.disp
     (awake s = true → d.state = .starting →
       (900 ≤ v → v ≤ 1600 →
         Completes (.vppInRange v) s (fun t => t = { s with disp := { d with vpp := v, state := scanState d } })) ∧
       Completes (.vppStartTimeout v) s (fun t =>
         t.disp = { d with vpp := v, state := .vppFault, dispEn := false } ∧
         t.logs.general.head? = some (newEntry s 0 0x0A 0x0A01 (leBytes 2 v ++ [1] ++ zeros 13)))) ∧
     ((awake s = false ∨ d.state ≠ .starting) →
       Completes (.vppInRange v) s (fun t => t = { s with disp := { d with vpp := v } }) ∧
       Completes (.vppStartTimeout v) s (fun t => t = { s with disp := { d with vpp := v } })) ∧
     (awake s = true → d.state = .scanning →
       ((v < 850 ∨ 1650 < v) → Completes (.vppFault v) s (fun t =>
         t.disp = { d with vpp := v, state := .vppFault, dispEn := false } ∧
         t.logs.general.head? = some (newEntry s 0 0x0A 0x0A01 (leBytes 2 v ++ [2] ++ zeros 13)))) ∧
       (850 ≤ v → v ≤ 1650 → Completes (.vppFault v) s (fun t => t = { s with disp := { d with vpp := v } }))) ∧
     (awake s = true → d.state = .vppFault → Completes .vppFaultRestart s (fun t =>
       t = { s with disp := { d with state := .starting, dispEn := true } })) ∧
     ((awake s = false ∨ d.state ≠ .vppFault) → Ignores .vppFaultRestart s) ∧
     (awake s = true → scans s = true → Completes .displayFrame s (fun t =>
       t = { s with disp := t.disp, logs := t.logs, dom := t.dom, freeCount := t.freeCount } ∧ t.disp.nextRows = [] ∧
       (∀ x, x ∈ d.nextRows → x ∈ t.disp.rows) ∧ t.disp.test = (if allIdle s then d.test else none) ∧
       (d.lane.generation ≠ 0 → d.shown = none → t.disp.shown = some d.lane ∧
         t.disp.state = (if fontGood d.lane then .scanning else .fontFault)))) ∧
     ((awake s = false ∨ scans s = false) → Ignores .displayFrame s) ∧
     (awake s = true → Completes .dwellStep s (fun t =>
       t = { s with disp := { d with position := (d.position + 1) % max 1 (legalList s).length } })) ∧
     (awake s = true → Completes .gainRecompute s (fun t =>
       t.disp.pixels = d.pixels.map (fun x => { x with code := driveCode s x.counter, worn := x.worn || wearsOut s x.counter }) ∧
       t.logs.legal = s.logs.legal ∧ t.disp.state = d.state)) ∧
     (awake s = true → Completes (.stressSave true) s (fun t => ∃ c : StressCopy, newestStress t = some c ∧
       c.generation = (newestStress s).elim 0 (fun c => c.generation) + 1 ∧ t.logs = s.logs ∧
       c.counters = (d.pixels.filter (fun x => x.counter != 0)).map (fun x => (x.index, x.counter)))) ∧
     (awake s = true → Completes (.stressSave false) s (fun t =>
       t.logs.next = s.logs.next + 1 ∧ t.disp.pixels = d.pixels ∧ (t.disp.copyA = none ∨ t.disp.copyB = none))) ∧
     (awake s = false → Ignores .dwellStep s ∧ Ignores .gainRecompute s ∧ Ignores (.stressSave true) s ∧
       Ignores (.stressSave false) s) ∧
     (let n := fieldN p 2 1
      fieldN p 0 1 = 1 → 1 ≤ n → n ≤ 21 → fieldN p 1 1 ≤ 63 → fieldN p 1 1 + n ≤ 64 → fieldN p 3 1 = 0 → p.length = 4 + 64 * n →
      (Admitted rowsSpec r s → ∃ t, exec (.applicationRows r) s = .next t ∧
        Answers s r rowsSpec.code St.ok [] t ∧ SameModule (writeRows p s) t)) ∧
     (p.length = 4 + 64 * fieldN p 2 1 → fieldN p 0 1 = 0 → (Admitted rowsSpec r s → ∃ t, exec (.applicationRows r) s = .next t ∧
        Answers s r rowsSpec.code St.locked [] t ∧ SameModule s t)) ∧
     (serviceIdle s = true → (let p := r.payload
                              let total := fieldN p 8 4
                              let len := fieldN p 12 2
                              let data := slice p 16 len
                              let header := blockHeader (fieldN p 0 4) (fieldN p 4 4) total len
                              let u := (applyStress (portOrigin r.port)) data s
                              BlockFits stressLength p → (fun n => n == stressLength) total = true →
                                MayOpen s 0x0A04 r.port (fieldN p 0 4) →
                              Admitted (opBulk 0x0A04 [clsB]) r s → ∃ t, exec (.stressRestore r) s = .next t ∧
                                (len = total → Answers s r 0x0A04 u.2 (if u.2 = St.ok then header else []) t ∧ SameModule u.1 t) ∧
                                (len < total → Answers s r 0x0A04 St.ok header t ∧ SameModule s t))) ∧
     (serviceIdle s = false → (Admitted (opBulk 0x0A04 [clsB]) r s → ∃ t, exec (.stressRestore r) s = .next t ∧
        Answers s r 0x0A04 St.refusedState [] t ∧ SameModule s t)) ∧
     (let op := opLen 0x0A05 [clsN] 4
      fieldN p 0 1 ≤ 2 → fieldN p 1 1 = 0 → 1 ≤ fieldN p 2 2 → fieldN p 2 2 ≤ 60 →
      (serviceIdle s = true → (Admitted op r s → ∃ t, exec (.displayTest r) s = .next t ∧
         Answers s r op.code St.ok [] t ∧ SameModule { s with disp := { d with test := some (fieldN p 0 1) } } t)) ∧
      (serviceIdle s = false → (Admitted op r s → ∃ t, exec (.displayTest r) s = .next t ∧
         Answers s r op.code St.refusedState [] t ∧ SameModule s t))) ∧
     Completes .displayTestEnd s (fun t => t = { s with disp := { d with test := none } }))

/-- R333: the life-cycle state that OTP gives. -/
def Obligations.LifecycleFromOtp : Prop :=
  ∀ o : Otp,
    (o.retired = true → lifecycleOf o = (4, false)) ∧
    (o.retired = false → o.rootValid = false → lifecycleOf o = (0, false)) ∧
    (o.retired = false → o.rootValid = true →
      (o.entriesY = 0 → lifecycleOf o = (1, false)) ∧
      (o.entriesY ≠ 0 → o.entriesY = o.exitsX + 1 → lifecycleOf o = (2, false)) ∧
      (o.entriesY ≠ 0 → o.entriesY = o.exitsX → lifecycleOf o = (3, false)) ∧
      (o.entriesY ≠ 0 → o.entriesY ≠ o.exitsX + 1 → o.entriesY ≠ o.exitsX → lifecycleOf o = (3, true)))

/-- R320, R326, R334, R338 to R343, R350, R351: the commands of the Cistern. A refused key message is logged and has no other
effect; an accepted one programs the counter. -/
def Obligations.CisternCommands : Prop :=
  ∀ (s : State) (r : Request) (key sig : List Byte) (ok : Bool) (test : Fin 2) (cls : Fin 7) (e : Fin 14),
    (up s = true → Completes (.trngTestFail test) s (fun t =>
      t.cis = { s.cis with trngFault := true } ∧
      t.logs.general.head? = some (newEntry s 0 0x0B 0x0B07 (byte (test.val + 1) :: zeros 15)))) ∧
    (up s = true →
      Completes (.trngRetest ok) s (fun t => t = { s with cis := { s.cis with trngFault := s.cis.trngFault && !ok } })) ∧
    (up s = false → Ignores (.trngTestFail test) s ∧ Ignores (.trngRetest ok) s ∧ Ignores (.cisRequest cls e) s) ∧
    (up s = true → hasQueue s e.val = true → cls.val ≠ 1 → Completes (.cisRequest cls e) s (fun t =>
      t = { s with out := .cis e.val cls.val (grants s cls.val) :: s.out })) ∧
    (up s = true → hasQueue s e.val = true → Completes (.cisRequest 1 e) s (fun t =>
      t = (if grants s 1 then signed else id) { s with out := .cis e.val 1 (grants s 1) :: s.out })) ∧
    (hasQueue s e.val = false → Ignores (.cisRequest cls e) s) ∧
    (let op : OpSpec := ⟨0x0B03, [clsN], false, fun n => 172 ≤ n && n ≤ 236⟩
     let q := r.append (key ++ sig)
     let p := q.payload
     let c := Instr.keyUpdate r key sig
     let st := keyMessageStatus s p
     let u := applyKeyMessage (portOrigin q.port) p (admitted op.code q s)
     Admitted op q s → Completes c s (fun t =>
       if st = St.ok then SameModule u t ∧ t.otp.keyCounter = fieldN p 20 4 ∧
         t.out.head? = some (.packet (packetOf u q.port q.cls op.code q.seq 1 St.ok []))
       else Answers s q op.code st [] t ∧ SameModule { s with logs := t.logs } t ∧
         t.logs.general.head? = some (newEntry s (portOrigin q.port) 0x0B 0x0B04
           ([byte (fieldN p 2 1), byte st, 0, 0] ++ leBytes 4 (fieldN p 20 4) ++ zeros 8)))) ∧
    (let op := opLen 0x0B05 [clsN] 92
     let q := r.append sig
     let p := q.payload
     let c := Instr.lifeCycleChange r sig
     let st := lifeMessageStatus s p
     let w := changeLifecycle (portOrigin q.port) 0 (fieldN p 2 1) (programCounter (fieldN p 20 4) (admitted op.code q s))
     Admitted op q s → Completes c s (fun t =>
       if st = St.ok then SameModule (warnCounter w) t ∧
         t.out.head? = some (.packet (packetOf w q.port q.cls op.code q.seq 1 St.ok [byte w.cis.lifecycle, 0, 0, 0]))
       else Answers s q op.code st [] t ∧ SameModule s t)) ∧
    (let op := opNone 0x0B04 [clsN]
     let c := Instr.tlsKeyGenerate r
     let may := s.cis.lifecycle = 1 ∨ s.cis.lifecycle = 3
     (may → s.cis.migrating = none → s.cis.trngFault = false → Admitted op r s → Completes c s (fun t =>
       ∃ (k : BitVec 256) (sig : List Byte), t.cis.tls = some k ∧ t.cis.hostKey = s.cis.hostKey ∧
         Answers s r op.code St.ok (wordBytes 64 (Config.publicKey k) ++ sig) t ∧ sig.length = 64)) ∧
     (¬may → (Admitted op r s → ∃ t, exec c s = .next t ∧ Answers s r op.code St.refusedState [] t ∧ SameModule s t)) ∧
     (may → s.cis.migrating ≠ none → (Admitted op r s → ∃ t, exec c s = .next t ∧
        Answers s r op.code St.busy [] t ∧ SameModule s t)) ∧
     (may → s.cis.migrating = none → s.cis.trngFault = true → (Admitted op r s → ∃ t, exec c s = .next t ∧
        Answers s r op.code St.refusedState [] t ∧ SameModule s t)))

/-- R321, R334, R335: a life-cycle change. Entry into FIELD counts Y up and derives the FIELD metrology key; leaving it counts
X up, and with it the generation, and destroys the keys of the wrapped classes; retirement destroys the root secret and every
key. R340, R342: the checks of a key update message: one that is stale, too far ahead, of another module or not signed under a
usable slot is not accepted, none is while an APP image is on trial or keys migrate, and one that passes every check is
accepted. -/
def Obligations.KeyStoreRules : Prop :=
  (∀ (origin path : Nat) (s : State),
     (let t := changeLifecycle origin path 2 s
      t.cis.lifecycle = 2 ∧ t.otp = { s.otp with entriesY := s.otp.entriesY + 1 } ∧ t.cis.metrology ≠ none ∧
        t.cis.tls = s.cis.tls ∧ t.cis.hostKey = s.cis.hostKey ∧ t.cis.keyNumber = s.cis.keyNumber + 1) ∧
     (let t := changeLifecycle origin path 3 s
      t.cis.lifecycle = 3 ∧ t.otp = { s.otp with exitsX := s.otp.exitsX + 1 } ∧ t.cis.metrology ≠ none ∧ t.cis.tls = none ∧
        t.cis.wadi = none ∧ t.cis.trellis = none ∧ t.cis.hostKey = none) ∧
     (let t := changeLifecycle origin path 4 s
      t.cis.lifecycle = 4 ∧ t.otp.retired = true ∧ t.otp.rootDestroyed = true ∧ t.otp.root = BitVec.allOnes 256 ∧
        t.cis.identity = none ∧ t.cis.metrology = none ∧ t.cis.tls = none ∧ t.cis.wadi = none ∧ t.cis.trellis = none ∧
        t.cis.hostKey = none ∧ t.otp.serial = s.otp.serial)) ∧
  (∀ (s : State) (p : List Byte),
     let cls := fieldN p 2 1
     let n := fieldN p 20 4
     let len := fieldN p 26 2
     keyMessageStatus s p = St.ok ↔
       p.length = 172 + len ∧ fieldsOk p = true ∧ bindingMine s (slice p 4 16) = true ∧ keyUsable s (fieldN p 24 1) = true ∧
       keyVerifies s (fieldN p 24 1) (p.take (108 + len)) (slice p (108 + len) 64) = true ∧
       s.otp.keyCounter < n ∧ n ≤ s.otp.keyCounter + 16 ∧ n ≤ 2048 ∧
         operationAllowed s cls (fieldN p 3 1) (fieldN p 25 1) = true ∧
       onTrial s 2 = false ∧ s.cis.migrating = none ∧
       (3 ≤ cls ∧ cls ≤ 5 ∧ fieldN p 3 1 = 1 → (unwrapped s p).isSome = true) ∧ (cls = 6 → legalRoom s = true)) ∧
  (∀ (s : State) (op slot : Nat), s.cis.lifecycle = 0 ∨ s.cis.lifecycle = 4 → ∀ cls, operationAllowed s cls op slot = false) ∧
  (∀ (s : State) (slot : Nat), s.cis.lifecycle = 2 ∨ s.otp.programmed.getLsbD slot = true → operationAllowed s 6 1 slot = false)

/-! ### Chapters 13 to 17: domains, stack, site line, updates, contactless, self-test -/

/-- R353 to R366, R468: the two domains. A failure of the active one hands control to an eligible standby, which holds what the
module released where a seed is valid; without one the domain restarts in place. A seed goes to the slot not written last. A
commanded switch and a handback take place at steady points only. The standby's health word follows its sweep and its domain
test. -/
def Obligations.DomainCommands : Prop :=
  ∀ (s : State) (r : Request) (i : StartInput) (x : SweepResult) (clocks result duration : Nat),
    let a := s.dom.active
    let b := standby s
    (domainRuns s = true → eligible s b = true → ∀ c ∈ [(Instr.miscompare i, 1), (Instr.watchdogExpiry i, 3)],
      Completes c.1 s (fun t =>
        t.dom.active = 1 - a ∧ t.dom.takeovers = s.dom.takeovers + 1 ∧ t.dom.lastCause = c.2 ∧ t.dom.failed = some a ∧
        t.dom.switchTo = false ∧ (healthOf t a).getLsbD 0 = false ∧ (healthOf t a).getLsbD 5 = true ∧
        healthOf t b = healthOf s b ∧ t.energy = s.energy ∧ t.otp = s.otp ∧
        ((chooseSeed s).isSome = true → ∀ o : Outlet, (sessOf t o).state = (sessOf s o).state ∧
          (t.hedge.out.get o) = (s.hedge.out.get o) ∧ causesNow t o = causesNow s o))) ∧
    (domainRuns s = true → eligible s b = false → ∀ c ∈ [(Instr.miscompare i, 1), (Instr.watchdogExpiry i, 3)],
      ((recentRestarts s).length + 1 ≤ cfgN s 0x0C03 0 0 1 3 → Completes c.1 s (fun t =>
        t.dom.active = a ∧ t.dom.lastCause = c.2 ∧ t.dom.restarts = s.clockMs :: recentRestarts s ∧
        t.dom.takeovers = s.dom.takeovers ∧ t.energy = s.energy)) ∧
      (cfgN s 0x0C03 0 0 1 3 < (recentRestarts s).length + 1 →
        Completes c.1 s (fun t => t = warmRestart 6 i (logRestart c.2 1 s)))) ∧
    (domainRuns s = false → Ignores (.miscompare i) s ∧ Ignores (.watchdogExpiry i) s ∧ Ignores (.seedWrite clocks) s) ∧
    (domainRuns s = true → (s.dom.switchTo && steady s && eligible s b) = false → Completes (.seedWrite clocks) s (fun t =>
      t.dom.newest = 1 - s.dom.newest ∧ (seedOf t t.dom.newest).good = true ∧ (seedOf t t.dom.newest).cycle = s.sun.cycle ∧
      (seedOf t t.dom.newest).epoch = s.sun.epoch ∧ (seedOf t t.dom.newest).writer = a ∧
      (seedOf t t.dom.newest).latch = some clocks ∧ t.dom.active = a ∧
      (s.power.phase = .booting → t.power.phase = .running ∧ t.update.completed = true ∧
        t.update.ledger = (ledgerEnd 0 s).update.ledger) ∧
      (s.power.phase ≠ .booting → t.power = s.power ∧ t.update = s.update))) ∧
    (domainRuns s = true → (s.dom.switchTo && steady s && eligible s b) = true → Completes (.seedWrite clocks) s (fun t =>
      t.dom.active = 1 - a ∧ t.dom.lastCause = 4 ∧ t.dom.switchTo = false ∧ t.dom.suspended = true ∧
      t.dom.newest = 1 - s.dom.newest ∧ (seedOf t t.dom.newest).flags = 2)) ∧
    (let back := domainRuns s && a == 1 && eligible s 0 && cfgN s 0x0C01 0 0 1 2 == 2 && !handbackSuspended s && steady s
     (back = true → Completes .handback s (fun t =>
       t.dom.active = 0 ∧ t.dom.lastCause = 5 ∧ t.dom.takeovers = s.dom.takeovers + 1 ∧ (seedOf t t.dom.newest).flags = 1)) ∧
     (back = false → Ignores .handback s)) ∧
    (awake s = true → (healthOf s b).getLsbD 6 = false → Completes (.standbySweep x) s (fun t =>
      let w := healthOf t b
      let bad := !(x.core && x.memory && x.seed && x.clock)
      w.getLsbD 0 = (!bad && x.code) ∧ w.getLsbD 1 = true ∧ w.getLsbD 2 = !x.memory ∧ w.getLsbD 3 = !x.core ∧
      w.getLsbD 7 = !x.seed ∧ w.getLsbD 8 = !x.clock ∧ w.getLsbD 5 = (bad || (healthOf s b).getLsbD 5) ∧
      healthOf t a = healthOf s a ∧ t.dom.active = a ∧ t.sess = s.sess)) ∧
    ((awake s = false ∨ (healthOf s b).getLsbD 6 = true) → Ignores (.standbySweep x) s) ∧
    (awake s = true → (healthOf s b).getLsbD 5 = true → Completes (.domainTestComplete result duration) s (fun t =>
      (result = 0 → ∀ k ∈ [0, 1, 2, 3, 4, 5, 7, 8], (healthOf t b).getLsbD k = false) ∧
      (result ≠ 0 → (healthOf t b).getLsbD 5 = false ∧ (healthOf t b).getLsbD 6 = true) ∧
      healthOf t a = healthOf s a ∧
      (∃ e, t.logs.general.head? = some e ∧ e.sub = 0x10 ∧ e.code = 0x1003))) ∧
    ((awake s = false ∨ (healthOf s b).getLsbD 5 = false) → Ignores (.domainTestComplete result duration) s) ∧
    (let op := opNone 0x0C02 [clsN]
     (inService s = true → eligible s b = true → Admitted op r s → Completes (.domainSwitch r) s (fun t =>
       Answers s r op.code St.ok [] t ∧ SameModule s t ∧ t.dom.switchTo = true ∧ t.dom.active = a)) ∧
     ((inService s = false ∨ eligible s b = false) → (Admitted op r s → ∃ t, exec (.domainSwitch r) s = .next t ∧
         Answers s r op.code St.refusedState [] t ∧ SameModule s t)))

/-- R367 to R378, R383: the stack. The master numbers the frames and sends a sync frame and its slot frame in each; a member
that may send sends its slot frame. A sync with a good MAC is followed unless its term is older; one with a bad MAC gives a
member its timing only. The spare, or a candidate that listened in vain, becomes master with the next term. -/
def Obligations.StackCommands : Prop :=
  ∀ (s : State) (r : Request) (k : Fin 20) (bytes : List Byte) (pairB failed : Bool) (n : Nat),
    let x := s.trellis
    let runs := trellisRuns s = true ∧ x.role ≠ 0 ∧ k.val < framesPerCycle s
    let d := if up s && decide (k.val < framesPerCycle s) then reachAngle (k.val * 65536 / framesPerCycle s) s else s
    let takes (cause : Nat) (c : Instr) := Completes c s (fun t =>
      t.trellis.role = 3 ∧ t.trellis.term = x.term + 1 ∧ t.trellis.masterSlot = ownSlot s ∧
      t.trellis.spareSlot = (spareCandidates s).headD 255 ∧ t.trellis.listening = false ∧ t.trellis.silent = false ∧
      t.trellis.allocs = x.shadow ∧
      t.logs.general.head? = some (newEntry s 4 0x0C 0x0C04 ([byte x.masterSlot, byte (ownSlot s), byte cause, 0] ++
        wordBytes 2 (x.term + 1) ++ zeros 2 ++ wordBytes 4 x.frame ++ zeros 4)) ∧
      (∃ b, t.out = .trellisSync b :: s.out ∧ b.length = 64 ∧ fieldN b 16 2 = (x.term + 1).toNat ∧ fieldN b 14 1 = ownSlot s))
    (¬runs → Completes (.trellisFrameStart k) s (fun t => t = d)) ∧
    (runs → Completes (.trellisFrameStart k) s (fun t =>
      t.sun = { s.sun with angle := k.val * 65536 / framesPerCycle s, frac := 0 } ∧ t.energy = s.energy ∧ t.link = s.link)) ∧
    (runs → x.role = 3 → x.transfer = none → Completes (.trellisFrameStart k) s (fun t =>
      t.trellis.frame = x.frame + 1 ∧ t.trellis.index = k.val ∧ t.hedge = { s.hedge with safeWait := none } ∧ t.sess = s.sess ∧
      (∃ f b, t.out = .trellisSlot (ownSlot s) f :: .trellisSync b :: d.out ∧ b.length = 64 ∧
        fieldN b 4 4 = (x.frame + 1).toNat ∧ fieldN b 8 4 = s.sun.cycle.toNat ∧ fieldN b 12 1 = k.val))) ∧
    (runs → x.role = 3 → (∃ m, x.transfer = some (m, 0)) → Completes (.trellisFrameStart k) s (fun t =>
      t.trellis.transfer = none ∧ t.trellis.role = 3 ∧ (∃ f, t.out = .trellisSlot (ownSlot s) f :: d.out))) ∧
    (runs → x.role = 3 → (∀ m j, x.transfer = some (m, j + 1) → Completes (.trellisFrameStart k) s (fun t =>
      t.trellis.transfer = some (m, j) ∧ (∃ f b, t.out = .trellisSlot (ownSlot s) f :: .trellisSync b :: d.out ∧
        fieldN b 3 1 = 1)))) ∧
    (runs → x.role ≠ 3 → x.transfer ≠ some (ownSlot s, 0) → Completes (.trellisFrameStart k) s (fun t =>
      t.trellis.missed = x.missed + 1 ∧ t.trellis.role = x.role ∧
      t.trellis.backoff = x.backoff - 1 ∧
      (x.listening = false → x.silent = false → x.backoff = 0 → ∃ f, t.out = .trellisSlot (ownSlot s) f :: d.out) ∧
      ((x.listening = true ∨ x.silent = true ∨ 0 < x.backoff) → t.out = d.out))) ∧
    (runs → x.role ≠ 3 → x.transfer = some (ownSlot s, 0) → Completes (.trellisFrameStart k) s (fun t =>
      t.trellis.role = 3 ∧ t.trellis.term = x.term + 1 ∧ t.trellis.masterSlot = ownSlot s ∧ t.trellis.transfer = none)) ∧
    (let good := macIsGood s (bytes.take 44) (slice bytes 44 16)
     let term : U16 := BitVec.ofNat 16 (fieldN bytes 16 2)
     (trellisRuns s = false → Ignores (.syncReceived bytes) s ∧ ∀ slot, Ignores (.slotFrameReceived slot bytes) s) ∧
     (trellisRuns s = true → (bytes.length ≠ 64 ∨ checkIsGood bytes = false) → Completes (.syncReceived bytes) s (fun t =>
       t = { s with trellis := { x with errorsA := x.errorsA + 1, errorsB := x.errorsB + 1 } })) ∧
     (trellisRuns s = true → bytes.length = 64 → checkIsGood bytes = true →
       ((fieldN bytes 0 2 ≠ stackId s ∨ fieldN bytes 2 1 ≠ 2) → Ignores (.syncReceived bytes) s) ∧
       (fieldN bytes 0 2 = stackId s → fieldN bytes 2 1 = 2 →
         (good = false → x.role = 3 → Completes (.syncReceived bytes) s (fun t =>
           t = { s with trellis := { x with macFails := x.macFails + 1 } })) ∧
         (good = false → x.role ≠ 3 → Completes (.syncReceived bytes) s (fun t =>
           t.trellis.frame = BitVec.ofNat 32 (fieldN bytes 4 4) ∧ t.trellis.missed = 0 ∧ t.trellis.listening = false ∧
           t.trellis.silent = false ∧ t.trellis.term = x.term ∧ t.trellis.masterSlot = x.masterSlot ∧
           t.trellis.present = x.present ∧ t.trellis.macFails = x.macFails + 1)) ∧
         (good = true → x.role = 3 → laterTerm term x.term = false → Ignores (.syncReceived bytes) s) ∧
         (good = true → x.role ≠ 3 → x.listening = false → laterTerm x.term term = true → Ignores (.syncReceived bytes) s) ∧
         (good = true → ((x.role = 3 ∧ laterTerm term x.term = true) ∨
             (x.role ≠ 3 ∧ (x.listening = true ∨ laterTerm x.term term = false))) → Completes (.syncReceived bytes) s (fun t =>
           t.trellis.role = (if fieldN bytes 15 1 = ownSlot s then 2 else 1) ∧ t.trellis.term = term ∧
           t.trellis.masterSlot = fieldN bytes 14 1 ∧ t.trellis.spareSlot = fieldN bytes 15 1 ∧ t.trellis.missed = 0 ∧
           t.trellis.listening = false ∧ t.trellis.frame = BitVec.ofNat 32 (fieldN bytes 4 4) ∧
           t.trellis.present = BitVec.ofNat 16 (fieldN bytes 18 2) ∧ t.trellis.budget = fieldI bytes 20 4 ∧
           t.trellis.budgetDiffers = (fieldN bytes 24 4 != budgetCheck s) ∧ t.sess = s.sess ∧ t.out = s.out))))) ∧
    (∀ slot : Slot, trellisRuns s = true →
      (slot.val = ownSlot s → Ignores (.slotFrameReceived slot bytes) s) ∧
      (slot.val ≠ ownSlot s → (bytes.length ≠ 144 ∨ checkIsGood bytes = false) →
        Completes (.slotFrameReceived slot bytes) s (fun t =>
        t = { s with trellis := { x with errorsA := x.errorsA + 1, errorsB := x.errorsB + 1 } })) ∧
      (slot.val ≠ ownSlot s → bytes.length = 144 → checkIsGood bytes = true →
        let safe := slice bytes 8 32
        let u := if leNat safe = 0 then s else receiveSafe .trellis safe s
        ((fieldN bytes 0 2 ≠ sourceId s slot.val ∨ fieldN bytes 2 1 ≠ 1) →
          Completes (.slotFrameReceived slot bytes) s (fun t => t = u)) ∧
        (fieldN bytes 0 2 = sourceId s slot.val → fieldN bytes 2 1 = 1 →
          (macIsGood s (bytes.take 8 ++ slice bytes 40 84) (slice bytes 124 16) = true →
            Completes (.slotFrameReceived slot bytes) s (fun t =>
              t.trellis.present.getLsbD slot.val = true ∧ t.trellis.role = x.role ∧ t.trellis.term = x.term ∧
                t.hedge = u.hedge)) ∧
          (macIsGood s (bytes.take 8 ++ slice bytes 40 84) (slice bytes 124 16) = false →
            Completes (.slotFrameReceived slot bytes) s (fun t =>
              t.trellis.present = x.present ∧ t.trellis.macFails = x.macFails + 1 ∧ t.trellis.demands = x.demands ∧
              t.hedge = u.hedge)))) ∧
      ((x.role = 3 ∨ x.role = 2) → x.present.getLsbD slot.val = true → slot.val ≠ ownSlot s →
        Completes (.slotAbsent slot) s (fun t =>
        t.trellis.present.getLsbD slot.val = false ∧ (∀ d ∈ t.trellis.demands, d.slot ≠ slot.val) ∧
        (∀ y ∈ t.trellis.allocs, y.slot ≠ slot.val) ∧ t.trellis.role = x.role ∧
        (x.role = 3 → t.logs.general.head? = some (newEntry s 4 0x0C 0x0C05 ([byte slot.val, 1, 0, 0] ++
          wordBytes 4 x.frame ++ zeros 8))) ∧
        (x.role = 2 → t.logs = s.logs))) ∧
      (¬((x.role = 3 ∨ x.role = 2) ∧ x.present.getLsbD slot.val = true ∧ slot.val ≠ ownSlot s) → Ignores (.slotAbsent slot) s)) ∧
    (trellisRuns s = true → x.role = 2 → takes 1 .spareTakeover) ∧
    ((trellisRuns s = false ∨ x.role ≠ 2) → Ignores .spareTakeover s) ∧
    (trellisRuns s = true → x.listening = true → (ownSlot s = 0 ∨ (candidateMask s).testBit (ownSlot s) = true) →
      takes 2 .listenTimeExpiry) ∧
    ((trellisRuns s = false ∨ x.listening = false ∨ (ownSlot s ≠ 0 ∧ (candidateMask s).testBit (ownSlot s) = false)) →
      Ignores .listenTimeExpiry s) ∧
    (trellisRuns s = true → (x.role = 1 ∨ x.role = 2) → Completes .memberSilence s (fun t =>
      t = { s with trellis := { x with silent := true } })) ∧
    ((trellisRuns s = false ∨ (x.role ≠ 1 ∧ x.role ≠ 2)) → Ignores .memberSilence s) ∧
    (trellisRuns s = true → x.role = 3 → Completes .syncReadbackMismatch s (fun t =>
      t = { s with trellis := { x with role := 1, listening := false, backoff := if laterTerm x.highTerm x.term then 4 else 1 } })) ∧
    ((trellisRuns s = false ∨ x.role ≠ 3) → Ignores .syncReadbackMismatch s) ∧
    (let was := if pairB then x.failedB else x.failedA
     (trellisRuns s = true → was ≠ failed → Completes (.trellisPairFailed pairB failed n) s (fun t =>
       (if pairB then t.trellis.failedB else t.trellis.failedA) = failed ∧
       (if pairB then t.trellis.failedA else t.trellis.failedB) = (if pairB then x.failedA else x.failedB) ∧
       (∃ e, t.logs.general.head? = some e ∧ e.sub = 0x0C ∧ e.code = 0x0C07))) ∧
     ((trellisRuns s = false ∨ was = failed) → Ignores (.trellisPairFailed pairB failed n) s)) ∧
    (let op := opLen 0x0C04 [clsN] 4
     let target := fieldN r.payload 0 1
     fieldN r.payload 1 3 = 0 →
     (x.role = 3 → target ∈ spareCandidates s → (Admitted op r s → ∃ t, exec (.mastershipTransfer r) s = .next t ∧
        Answers s r op.code St.ok [] t ∧
        SameModule { s with trellis := { x with spareSlot := target, transfer := some (target, 2) } } t)) ∧
     (x.role = 3 → target ∉ spareCandidates s → (Admitted op r s → ∃ t, exec (.mastershipTransfer r) s = .next t ∧
        Answers s r op.code St.range [] t ∧ SameModule s t)) ∧
     (x.role ≠ 3 → (Admitted op r s → ∃ t, exec (.mastershipTransfer r) s = .next t ∧
        Answers s r op.code St.refusedState [] t ∧ SameModule s t)))

/-- R390 to R406, R414, R415: the site line. Only a LOCKED module that is its stack's Wadi node sends; the site master opens
each superframe with a beacon, and a node sends its beacon in its window. A frame is accepted once: afterwards its counter is
stale. An absent node loses its demand, a node without demand gets no power, a lost master sends the nodes back to listening,
and a candidate takes over. -/
def Obligations.WadiCommands : Prop :=
  ∀ (s : State) (r : Request) (position index : Fin 256) (f : WadiRx) (node : Nat),
    let w := s.wadi
    let d := if up s then reachAngle 4096 s else s
    let v := { d with wadi := { w with position := some position.val, heldBack := w.heldBack && decide (position.val ≠ 0) } }
    ((wadiRuns s = false ∨ w.test ≠ none) → Completes (.wadiFrameStart position) s (fun t => t = d)) ∧
    (wadiRuns s = true → w.test = none →
      ((s.sun.quality.getLsbD 0 = false ∨ wadiSender v = false) → Completes (.wadiFrameStart position) s (fun t => t = v)) ∧
      (s.sun.quality.getLsbD 0 = true → wadiSender v = true →
        (w.role = 4 → s.cis.wadi ≠ none → w.duplicate = false → position.val = 0 →
          Completes (.wadiFrameStart position) s (fun t =>
          t.wadi.superframe = w.superframe + 1 ∧ t.wadi.txCounter = nextCounter s + 1 ∧ t.wadi.sent = w.sent + 1 ∧
            t.sess = s.sess ∧
          (∃ b, t.out = .wadi 1 0 b (wadiAir s 0 b) :: d.out ∧ fieldN b 0 2 = wadiSite s % 65536 ∧ fieldN b 7 1 = 1 ∧
            fieldN b 20 4 = (w.superframe + 1).toNat))) ∧
        (w.role ≠ 4 → position.val = 0 → Completes (.wadiFrameStart position) s (fun t => t = v)) ∧
        (24 ≤ position.val → position.val < 240 → position.val % 8 = 0 → (w.role = 3 ∨ w.role = 4) → w.index ≠ none →
          w.windows ≤ (position.val - 24) / 8 → windowIndex s ((position.val - 24) / 8) = w.index → w.again = [] →
          s.cis.wadi ≠ none → w.duplicate = false →
          (domainRuns s = true → Completes (.wadiFrameStart position) s (fun t =>
            t.wadi.sent = w.sent + 1 ∧ t.wadi.lastBeacon = true ∧ t.wadi.requests = w.requests.drop 3 ∧
            (∃ b, t.out = .wadi 3 w.ownMode b (wadiAir s w.ownMode b) :: d.out ∧ fieldN b 7 1 = 3 ∧
              slice b 20 32 = t.wadi.beacon))) ∧
          (domainRuns s = false → w.beacon.length = 32 → Completes (.wadiFrameStart position) s (fun t =>
            t.wadi.sent = w.sent + 1 ∧ t.wadi.beacon = w.beacon ∧ t.wadi.requests = w.requests ∧
            (∃ b, t.out = .wadi 3 w.ownMode b (wadiAir s w.ownMode b) :: d.out ∧ slice b 20 32 = w.beacon))) ∧
          (domainRuns s = false → w.beacon = [] → Completes (.wadiFrameStart position) s (fun t => t = v))))) ∧
    ((wadiRuns s = false ∨ s.cis.wadi = none ∨ bestInput s f = none) → Ignores (.wadiFrameReceived f.inputs f.syncAngle) s) ∧
    (∀ key x, wadiRuns s = true → s.cis.wadi = some key → bestInput s f = some x →
      let p := x.payload
      let source := fieldN p 2 2
      let slot := fieldN p 6 1
      let epoch : U16 := BitVec.ofNat 16 (fieldN p 8 2)
      let len := fieldN p 10 2
      let counter : U32 := BitVec.ofNat 32 (fieldN p 12 4)
      let fails := Completes (.wadiFrameReceived f.inputs f.syncAngle) s (fun t =>
        t = { s with wadi := { w with checkFails := w.checkFails + 1 } })
      let blanked := frameBlanked (cfgN s 0x0D03 0 0 1 8) (cfgN s 0x0D03 0 1 1 5) x.preamble x.samples
      (∀ y ∈ f.inputs.take (wadiPorts s).length, y.snr ≤ x.snr) ∧
      (controlOk x.control = false → fails) ∧
      (controlOk x.control = true → blanked = true → Completes (.wadiFrameReceived f.inputs f.syncAngle) s (fun t =>
        t = { s with wadi := { w with blanked := w.blanked + 1, requests := t.wadi.requests } })) ∧
      (controlOk x.control = true → blanked = false →
        (fieldN p 0 2 ≠ wadiSite s → fails) ∧
        (fieldN p 0 2 = wadiSite s → 28 + len ≤ p.length →
          slice p (20 + len) 8 = wordBytes 8 (Config.gcmTag key (wadiNonce source slot (fieldN p 8 2) counter) (p.take (20 + len))) →
          (source = wadiNode s → slot = wadiSlot s → Completes (.wadiFrameReceived f.inputs f.syncAngle) s (fun t =>
            t.wadi = { w with duplicate := true } ∧ (∃ e, t.logs.general.head? = some e ∧ e.sub = 0x0D ∧ e.code = 0x0D04))) ∧
          ((source ≠ wadiNode s ∨ slot ≠ wadiSlot s) → freshFrame s source slot epoch counter = false → fails) ∧
          ((source ≠ wadiNode s ∨ slot ≠ wadiSlot s) → freshFrame s source slot epoch counter = true →
            Completes (.wadiFrameReceived f.inputs f.syncAngle) s (fun t =>
              t.wadi.received = w.received + 1 ∧ t.wadi.checkFails = w.checkFails ∧
                freshFrame t source slot epoch counter = false))))) ∧
    (wadiRuns s = true → w.role = 4 → Completes .wadiAllocation s (fun t =>
      t.sess.siteAt = s.clockMs ∧ t.sess.siteStale = false ∧ t.sess.siteBudget = t.wadi.siteBudget ∧ t.sess.siteBudget ≠ none ∧
      (∀ n ∈ t.wadi.neighbours, (∀ y ∈ siteNodes s, y.node ≠ n.node) → n.budget = 0 ∧ n.caps = [0, 0, 0]) ∧
      t.wadi.neighbours.length = w.neighbours.length ∧
        t.sess = { s.sess with siteBudget := t.sess.siteBudget, siteAt := s.clockMs, siteStale := false })) ∧
    ((wadiRuns s = false ∨ w.role ≠ 4) → Ignores .wadiAllocation s ∧ Ignores (.indexFree index) s) ∧
    (wadiRuns s = true → w.role = 4 → Completes (.indexFree index) s (fun t =>
      t = { s with wadi := { w with indices := t.wadi.indices } } ∧
      (∀ y, y ∈ t.wadi.indices ↔ y ∈ w.indices ∧ y.2 ≠ index.val))) ∧
    (wadiRuns s = true → ∀ n, neighbourOf s node = some n → n.present = true → Completes (.nodeAbsent node) s (fun t =>
      (∃ m, neighbourOf t node = some m ∧ m.present = false ∧ m.demand = 0 ∧ m.dcDemand = 0 ∧ m.budget = 0 ∧ m.index = n.index) ∧
      (∀ y ∈ t.wadi.replays, y.node ≠ node) ∧
      t.logs.general.head? = some (newEntry s 5 0x0D 0x0D02 (leBytes 2 node ++ [1, byte n.index] ++ superframeBytes s)))) ∧
    ((wadiRuns s = false ∨ (∀ n, neighbourOf s node = some n → n.present = false)) → Ignores (.nodeAbsent node) s) ∧
    (wadiRuns s = true → w.role ≠ 4 → Completes .masterLost s (fun t =>
      t.wadi = { w with role := 1, silent := 3 } ∧ t.sess = s.sess)) ∧
    ((wadiRuns s = false ∨ w.role = 4) → Ignores .masterLost s ∧ Ignores .masterCandidateStart s) ∧
    (wadiRuns s = true → wadiSender s = true → wadiPriority s ≠ 0 → w.role ≠ 4 → Completes .masterCandidateStart s (fun t =>
      t.wadi.role = 4 ∧ t.wadi.masterNode = wadiNode s ∧ t.wadi.masterPriority = wadiPriority s ∧ t.wadi.index ≠ none ∧
      t.wadi.superframe = w.superframe + BitVec.ofNat 32 (candidateWait s) ∧
      (∃ e, t.logs.general.head? = some e ∧ e.sub = 0x0D ∧ e.code = 0x0D01))) ∧
    ((wadiSender s = false ∨ wadiPriority s = 0) → Ignores .masterCandidateStart s) ∧
    (wadiRuns s = true → w.role = 2 → Completes .joinTimeout s (fun t =>
      t.wadi.joinWait = 0 ∧ t.wadi.role = 2 ∧ (t.wadi.joinAt = none ∨ t.wadi.joinAt = some 240 ∨ t.wadi.joinAt = some 248))) ∧
    ((wadiRuns s = false ∨ w.role ≠ 2) → Ignores .joinTimeout s) ∧
    (let op := opLen 0x0D03 [clsN] 4
     let mode := fieldN r.payload 0 1
     let time := fieldN r.payload 2 2
     mode ≤ 3 → fieldN r.payload 1 1 = 0 →
     (1 ≤ time → time ≤ 60 → inService s = true → allIdle s = true →
       (Admitted op r s → ∃ t, exec (.transmitTest r) s = .next t ∧
         Answers s r op.code St.ok [] t ∧ SameModule { s with wadi := { w with test := some mode } } t)) ∧
     (1 ≤ time → time ≤ 60 → inService s = true → allIdle s = true → Admitted op r s → Completes (.transmitTest r) s (fun t =>
       .wadiTest mode (wadiPorts s) (wadiLevel s) ∈ t.out)) ∧
     (1 ≤ time → time ≤ 60 → (inService s = false ∨ allIdle s = false) → (Admitted op r s →
       ∃ t, exec (.transmitTest r) s = .next t ∧
        Answers s r op.code St.refusedState [] t ∧ SameModule s t)) ∧
     (time = 0 → (Admitted op r s → ∃ t, exec (.transmitTest r) s = .next t ∧
        Answers s r op.code St.lenZero [] t ∧ SameModule s t)) ∧
     (60 < time → (Admitted op r s → ∃ t, exec (.transmitTest r) s = .next t ∧
        Answers s r op.code St.range [] t ∧ SameModule s t))) ∧
    Completes .transmitTestEnd s (fun t => t = { s with wadi := { w with test := none } })

/-- R422 to R429, R436: updates. A package whose header passes its checks opens the update of its region; one that fails a
check, or comes under the owner lock, is refused with that status; a transfer that has ended answers with its outcome. An
activation proceeds by a warm reset, a confirmed trial's slots become the confirmed ones, and a rejected trial falls back once
the state conditions hold. -/
def Obligations.UpdateCommands : Prop :=
  ∀ (s : State) (r : Request) (data : List Byte) (i : StartInput) (elem : Fin 14),
    let p := r.payload
    let u := s.update
    let mask := fieldN p 0 1
    (let op := opBulk 0x0E01 [clsB]
     let q := r.append data
     let p := q.payload
     let h := slice p 16 256
     let reg := fieldN h 8 1
     BlockFits longestPackage p →
     (∀ x, findTransfer s (fieldN p 0 4) = some x →
       (x.state ≠ .receiving → x.status = St.ok → (Admitted op q s → ∃ t, exec (.updateWrite r data) s = .next t ∧
          Answers s q op.code St.ok (p.take 16) t ∧ SameModule s t)) ∧
       (x.state ≠ .receiving → x.status ≠ St.ok → (Admitted op q s → ∃ t, exec (.updateWrite r data) s = .next t ∧
          Answers s q op.code x.status [] t ∧ SameModule s t)) ∧
       (x.state = .receiving → x.port ≠ q.port → (Admitted op q s → ∃ t, exec (.updateWrite r data) s = .next t ∧
          Answers s q op.code St.busy [] t ∧ SameModule s t))) ∧
     (findTransfer s (fieldN p 0 4) = none → fieldN p 4 4 = 0 → fieldN p 12 2 = 256 → openTransfers s < 4 →
       s.power.phase ≠ .recovery →
       (u.lock = true → (Admitted op q s → ∃ t, exec (.updateWrite r data) s = .next t ∧
          Answers s q op.code St.locked [] t ∧ SameModule s t)) ∧
       (u.lock = false → reg ≤ 4 →
         (∀ st, overlap s reg (packageCounter h) (q.flags.getLsbD 2) = .refused st → (Admitted op q s →
           ∃ t, exec (.updateWrite r data) s = .next t ∧
            Answers s q op.code st [] t ∧ SameModule s t)) ∧
         (overlap s reg (packageCounter h) (q.flags.getLsbD 2) = .opens →
           (∀ step st, headerChecks s h = some (step, st) →
             Admitted op q s → Completes (.updateWrite r data) s (fun t => Answers s q op.code st [] t ∧
               SameModule (logPackage (portOrigin q.port) reg st step h s) t)) ∧
           (fieldN p 8 4 = 256 + streamLength h →
             Admitted op q s → Completes (.updateWrite r data) s (fun t => headerChecks s h = none →
               Answers s q op.code St.ok (p.take 16) t ∧ regionState t reg = 1 ∧ (regionOf t reg).incoming = some h ∧
               (regionOf t reg).received = 256 ∧ (otherSlot t reg).data = [] ∧ (otherSlot t reg).header = none ∧
               (∃ x, findTransfer t (fieldN p 0 4) = some x ∧ x.state = .receiving ∧ x.port = q.port ∧ x.total = fieldN p 8 4) ∧
               t.otp = s.otp ∧ t.update.trial = u.trial ∧ t.update.confirmed = u.confirmed)))))) ∧
    (let op := opLen 0x0E03 [clsN] 4
     1 ≤ mask → mask < 32 → fieldN p 2 2 = 0 → u.go = none →
     ((fieldN p 1 1 ≤ 1 → u.lock = true → (Admitted op r s → ∃ t, exec (.activate r i) s = .next t ∧
         Answers s r op.code St.locked [] t ∧ SameModule s t)) ∧
      (fieldN p 1 1 ≤ 1 → u.lock = false → u.trial ≠ 0 → (Admitted op r s → ∃ t, exec (.activate r i) s = .next t ∧
         Answers s r op.code St.refusedState [] t ∧ SameModule s t)) ∧
      (u.lock = false → u.trial = 0 → (∀ x ∈ regionsOf mask, regionState s x = 2) → s.cis.migrating = none →
        minimumsMet s mask = true → formatsMet s mask = true → (mask.testBit 1 = true → legalRoom s = true) →
        (fieldN p 1 1 = 0 → stateConditions s = true → (Admitted op r s → ∃ t, exec (.activate r i) s = .next t ∧
           ∃ v, Answers s r op.code St.ok [] v ∧ SameModule { s with update := { u with go := some mask } } v ∧
           t = (activateNow (portOrigin r.port) mask i) v)) ∧
        (fieldN p 1 1 = 0 → stateConditions s = false → (Admitted op r s → ∃ t, exec (.activate r i) s = .next t ∧
           Answers s r op.code St.refusedState [] t ∧ SameModule s t)) ∧
        (fieldN p 1 1 = 1 → (Admitted op r s → ∃ t, exec (.activate r i) s = .next t ∧ Answers s r op.code St.ok [] t ∧
           SameModule { s with update := { u with waiting := some mask, waitingBy := portOrigin r.port } } t))))) ∧
    (∀ origin, ∃ v, activateNow origin mask i s = warmRestart 4 i v ∧ v.update.trial = BitVec.ofNat 5 mask ∧
      v.update.trialStart = utcNow s ∧ v.update.waiting = none ∧ v.update.confirmed = u.confirmed ∧
      v.update.generation = u.generation + 1 ∧ v.otp = s.otp ∧ v.sess = s.sess ∧ v.energy = s.energy ∧
      (∃ e, v.logs.general.head? = some e ∧ e.origin = origin ∧ e.sub = 0x0E ∧ e.code = 0x0E03)) ∧
    (u.waiting = none → Ignores (.activationWhenIdle i) s ∧ Ignores .idleWaitExpiry s) ∧
    (∀ m, u.waiting = some m →
      ((domainRuns s && stateConditions s && allWaiting s && (activateChecks { s with update := { u with waiting := none } } m true).all
          (fun c => c == St.ok)) = true → Completes (.activationWhenIdle i) s (fun t => t = activateNow u.waitingBy m i s)) ∧
      ((domainRuns s && stateConditions s && allWaiting s && (activateChecks { s with update := { u with waiting := none } } m true).all
          (fun c => c == St.ok)) = false → Ignores (.activationWhenIdle i) s) ∧
      Completes .idleWaitExpiry s (fun t => t.update.waiting = none ∧ (∀ x ∈ regionsOf m, (regionOf t x).status = St.timeout) ∧
        t.update.trial = u.trial ∧ t.power = s.power)) ∧
    ((∀ k, enginePlace elem.val = some k → up s = true → u.inForce.getD k false ≠ u.engineB → atSafePoint s elem.val = true →
        Completes (.engineSafePoint elem) s (fun t =>
          t = engineRestart elem.val { s with update := { u with inForce := u.inForce.modify k (fun _ => u.engineB) } })) ∧
      ((enginePlace elem.val = none ∨ up s = false ∨ atSafePoint s elem.val = false) → Ignores (.engineSafePoint elem) s)) ∧
    (let op := opLen 0x0E04 [clsN] 4
     let t := confirmTrial (portOrigin r.port) s
     fieldN p 1 3 = 0 →
     (mask ≠ u.trial.toNat → (Admitted op r s → ∃ t, exec (.confirm r) s = .next t ∧
        Answers s r op.code St.range [] t ∧ SameModule s t)) ∧
     (mask = u.trial.toNat → (u.trial = 0 ∨ u.completed = false ∨ (onTrial s 3 = true ∧ enginesChanged s = false)) →
       (Admitted op r s → ∃ t, exec (.confirm r) s = .next t ∧ Answers s r op.code St.refusedState [] t ∧ SameModule s t)) ∧
     (mask = u.trial.toNat → u.trial ≠ 0 → u.completed = true → (onTrial s 3 = false ∨ enginesChanged s = true) →
       (Admitted op r s → ∃ w, exec (.confirm r) s = .next w ∧ Answers s r op.code St.ok [] w ∧ SameModule t w) ∧
         t.update.trial = 0 ∧ t.update.confirmed = u.confirmed ^^^ u.trial ∧
       t.update.trialStart = none ∧ t.update.generation = u.generation + 1)) ∧
    (let op := opLen 0x0E05 [clsN] 4
     let rejected : State := { s with update := { u with fallback := some 2, fallbackBy := portOrigin r.port } }
     fieldN p 1 3 = 0 → u.fallback = none →
     (u.trial ≠ 0 → mask = u.trial.toNat → stateConditions s = true →
       (Admitted op r s → ∃ t, exec (.reject r i) s = .next t ∧
         ∃ v, Answers s r op.code St.ok [] v ∧ SameModule rejected v ∧
         t = (fun v => warmRestart 4 i (fallBackTrial (portOrigin r.port) 2 v)) v)) ∧
     (u.trial ≠ 0 → mask = u.trial.toNat → stateConditions s = false → (Admitted op r s → ∃ t, exec (.reject r i) s = .next t ∧
        Answers s r op.code St.ok [] t ∧ SameModule rejected t)) ∧
     ((u.trial = 0 ∨ mask ≠ u.trial.toNat) → (Admitted op r s → ∃ t, exec (.reject r i) s = .next t ∧
         Answers s r op.code St.refusedState [] t ∧ SameModule s t))) ∧
    (∀ origin cause, u.trial ≠ 0 →
      let t := fallBackTrial origin cause s
      t.update.trial = 0 ∧ t.update.confirmed = u.confirmed ∧ t.update.fallback = none ∧
      (∀ x, x < 5 → u.trial.getLsbD x = true → (otherSlot t x).header = none ∧
        slotOf t x (confirmedB s x) = slotOf s x (confirmedB s x)) ∧
      (∃ e, t.logs.general.head? = some e ∧ e.origin = origin ∧ e.sub = 0x0E ∧ e.code = 0x0E05)) ∧
    ((u.trial = 0 ∨ up s = false) → Ignores (.trialLimitExpiry i) s) ∧
    (u.trial ≠ 0 → up s = true →
      let confirms := cfgN s 0x0E01 0 0 1 1 = 2 ∧ u.completed = true ∧ (onTrial s 3 = false ∨ enginesChanged s = true)
      (confirms → Completes (.trialLimitExpiry i) s (fun t => t = confirmTrial 0 s)) ∧
      (¬confirms → stateConditions s = true → Completes (.trialLimitExpiry i) s (fun t =>
        t = warmRestart 4 i (fallBackTrial 0 3 { s with update := { u with fallback := some 3, fallbackBy := 0 } }))) ∧
      (¬confirms → stateConditions s = false → Completes (.trialLimitExpiry i) s (fun t =>
        t = { s with update := { u with fallback := some 3, fallbackBy := 0 } }))) ∧
    (let op : OpSpec := ⟨0x0E06, [clsN], false, fun n => decide (8 ≤ n) && n == 8 + 2 * fieldN p 4 2⟩
     let slot := slotOf s (fieldN p 0 1) (fieldN p 1 1 = 1)
     fieldN p 0 1 ≤ 4 → fieldN p 1 1 ≤ 1 → fieldN p 2 1 ≤ 1 → fieldN p 3 1 = 0 → 1 ≤ fieldN p 4 2 → fieldN p 4 2 ≤ 64 →
     fieldN p 6 2 = 0 → (∀ n ∈ sowNodes p, 1 ≤ n ∧ n ≤ 65534) →
     (s.wadi.role ≠ 4 → (Admitted op r s → ∃ t, exec (.sow r) s = .next t ∧
        Answers s r op.code St.refusedState [] t ∧ SameModule s t)) ∧
     (s.wadi.role = 4 → slot.header = none → (Admitted op r s → ∃ t, exec (.sow r) s = .next t ∧
        Answers s r op.code St.refusedState [] t ∧ SameModule s t)) ∧
     (s.wadi.role = 4 → ∀ h, slot.header = some h →
       ((∃ x, u.sowing = some x ∧ x.running = true) → (Admitted op r s → ∃ t, exec (.sow r) s = .next t ∧
           Answers s r op.code St.busy [] t ∧ SameModule s t)) ∧
       ((∀ x, u.sowing = some x → x.running = false) →
         (Admitted op r s → ∃ t, exec (.sow r) s = .next t ∧ Answers s r op.code St.ok [] t ∧
           SameModule { s with update := { u with sowing := some (newSowing p h slot.data) } } t) ∧
         (newSowing p h slot.data).targets.map (fun t => t.node) = sowNodes p ∧
         (newSowing p h slot.data).stream = blockStream slot.data))) ∧
    (let op := opLen 0x0E07 [clsN] 4
     fieldN p 1 3 = 0 →
     (mask ≤ 1 → (Admitted op r s → ∃ t, exec (.ownerLock r) s = .next t ∧ Answers s r op.code St.ok [] t ∧
        SameModule { s with update := { u with lock := mask == 1, generation := u.generation + 1, copyB := !u.copyB } } t)) ∧
     (1 < mask → (Admitted op r s → ∃ t, exec (.ownerLock r) s = .next t ∧ Answers s r op.code St.range [] t ∧ SameModule s t)))

/-- R439 to R443: the reader ports. Three deviations in a row raise the field; a port that finds no card goes back to the low
field with the present load as its baseline; a card is delivered once until it is removed and the hold-off has passed; a
removal ends its presence; with pairing one port waits for the other. -/
def Obligations.ReaderCommands : Prop :=
  ∀ (s : State) (q : Fin 2) (load : Int) (a b v : PollResult),
    let x := readerOf s q
    let y := readerOf s (otherPort q)
    let on := awake s = true ∧ portEnabled s q = true
    let held := cfgN s 0x0F01 0 3 1 0 = 1 ∧ 2 ≤ y.state
    (¬on → Ignores (.antennaSense q load) s ∧ Ignores (.guardTimeEnd q a b v) s ∧ Ignores (.repoll q a b v) s) ∧
    (on → (2 ≤ x.state ∨ x.waiting = true) → Completes (.antennaSense q load) s (fun t =>
      t = setReader q (fun z => { z with load := load }) s)) ∧
    (on → x.state < 2 → x.waiting = false →
      (deviates s x.baseline load = false → Completes (.antennaSense q load) s (fun t =>
        let z := readerOf t q
        z = { x with state := 1, load := load, run := 0, baseline := z.baseline } ∧ min x.baseline load ≤ z.baseline ∧
        z.baseline ≤ max x.baseline load ∧ readerOf t (otherPort q) = y ∧ t.sess = s.sess)) ∧
      (deviates s x.baseline load = true → x.run ≠ 2 → Completes (.antennaSense q load) s (fun t =>
        t = setReader q (fun z => { z with state := 1, load := load, run := x.run + 1 }) s)) ∧
      (deviates s x.baseline load = true → x.run = 2 → held → Completes (.antennaSense q load) s (fun t =>
        t = setReader q (fun z => { z with state := 1, load := load, run := 0, waiting := true }) s)) ∧
      (deviates s x.baseline load = true → x.run = 2 → ¬held → Completes (.antennaSense q load) s (fun t =>
        t = setReader q (fun z => { z with state := 2, load := load, run := 0 }) s))) ∧
    (on → x.state ≠ 2 → Ignores (.guardTimeEnd q a b v) s) ∧
    (on → x.state ≠ 4 → Ignores (.repoll q a b v) s) ∧
    (on → x.state = 2 → Completes (.guardTimeEnd q .none .none .none) s (fun t =>
      readerOf t q = { x with state := 1, run := 0, empty := x.empty + 1, baseline := x.load } ∧ t.sess = s.sess ∧
      (y.waiting = false → readerOf t (otherPort q) = y) ∧
      (y.waiting = true → readerOf t (otherPort q) = { y with state := 2, run := 0, waiting := false }))) ∧
    (on → x.state = 4 → CarriesOut (.repoll q .none .none .none) s (fun t => t = s)) ∧
    (∀ ident, on → (portStandards s q).testBit 0 = true →
      ∀ d ∈ [(Instr.guardTimeEnd q (.one ident) b v, 2), (Instr.repoll q (.one ident) b v, 4)],
      x.state = d.2 → randomUid 0 ident = false →
      (mayDeliver s q ident = true → CarriesOut d.1 s (fun t =>
        (readerOf t q).state = 4 ∧ (readerOf t q).std = 0 ∧ (readerOf t q).delivered = x.delivered + 1 ∧
          mayDeliver t q ident = false)) ∧
      (mayDeliver s q ident = false → CarriesOut d.1 s (fun t =>
        t = setReader q (fun z => { z with state := 4, std := 0 }) s))) ∧
    (on → x.state = 2 → (portStandards s q).testBit 0 = true → CarriesOut (.guardTimeEnd q .several b v) s (fun t =>
      (readerOf t q).state = 4 ∧ (readerOf t q).delivered = x.delivered ∧ t.sess = s.sess ∧
      t.logs.general.head? = some (newEntry s 0 0x0F 0x0F01 [byte q.val, 2, 0, 0]))) ∧
    (awake s = true → 3 ≤ x.state → Completes (.cardRemoval q) s (fun t =>
      (readerOf t q).state = 1 ∧ (∀ c ∈ (readerOf t q).cards, c.removed ≠ none) ∧
      (readerOf t q).cards.map (fun c => c.ident) = x.cards.map (fun c => c.ident) ∧ t.sess = s.sess)) ∧
    ((awake s = false ∨ x.state < 3) → Ignores (.cardRemoval q) s) ∧
    (awake s = true → x.waiting = true → Completes (.pairingWaitExpiry q) s (fun t =>
      readerOf t q = { x with waiting := false, state := 2 } ∧
      readerOf t (otherPort q) = { y with state := 1, run := 0, waiting := fullField y })) ∧
    ((awake s = false ∨ x.waiting = false) → Ignores (.pairingWaitExpiry q) s)

/-- R451, R452: a write of a tag block is atomic. Wherever the field collapses, the block's committed content afterwards is
what it was, or all 32 bytes of the new content; a write that is not cut short leaves the new content. -/
def Obligations.TagWriteAtomic : Prop :=
  ∀ (b : TagBlock) (data : List Byte) (c : Collapse),
    let content := fun (b : TagBlock) => (committedCopy b).map (fun one => (copyOf b one).data)
    (content (programBlock b data c) = content b ∨ content (programBlock b data c) = some (padTo 32 data)) ∧
    ((c = .never ∨ c = .afterMarker) → content (programBlock b data c) = some (padTo 32 data)) ∧
    ((c = .step1 ∨ c = .step2) → programBlock b data c = b) ∧ (programBlock b data c).index = b.index

/-- R444 to R453, R457, R458: the service tag. Its commands need a field session; reading is free, writing needs the secured
state and the block's rights, and eight wrong attempts lock the tag. The wired side keeps the status block and the log mirror,
and handles a request once. -/
def Obligations.TagCommands : Prop :=
  ∀ (s : State) (r : Request) (first count block slot retries : Nat) (data : List Byte) (collapse : Collapse) (value : U32)
    (nr : BitVec 128) (sigR sigS : BitVec 256) (wants committed : Bool),
    let g := s.tag
    let sends (c : Instr) (status : Nat) (body : List Byte) := Completes c s (fun t => t = emit (.tag (byte status :: body)) s)
    (Completes .tagFieldOn s (fun t => t.tag = { g with field := true, secured := false, uid := t.tag.uid } ∧
      t.tag.uid.toNat % 256 = 8 ∧ t.out = .tagActive 4 t.tag.uid 0x20 8 4 :: s.out)) ∧
    Completes .tagFieldOff s (fun t =>
      t.tag = { g with field := t.tag.field, secured := false, nonce := none } ∧ (g.field = false → t.tag.field = false) ∧
      t.out = s.out ∧ t.logs = s.logs ∧ t.sess = s.sess) ∧
    (g.field = false → Ignores (.tagCommandRead first count) s ∧ Ignores (.tagCommandWrite block data collapse) s ∧
      Ignores (.password value) s ∧ Ignores .challenge s ∧ Ignores (.respond slot nr sigR sigS) s ∧ Ignores .leave s ∧
      Ignores .tagState s) ∧
    (g.field = true →
      ((count = 0 ∨ 4 < count ∨ 256 < first + count) → sends (.tagCommandRead first count) St.range []) ∧
      (1 ≤ count → count ≤ 4 → first + count ≤ 256 → ∀ contents : Nat → List Byte,
        (∀ j, j < count → blockContent s (first + j) = some (contents j)) →
        sends (.tagCommandRead first count) St.ok ((List.range count).flatMap contents)) ∧
      (256 ≤ block → sends (.tagCommandWrite block data collapse) St.range []) ∧
      (block < 256 → (g.secured = false ∨ fieldRights block = 0) → collapse ≠ .step1 →
        sends (.tagCommandWrite block data collapse) St.locked []) ∧
      (block < 256 → g.secured = true → fieldRights block ≠ 0 → Completes (.tagCommandWrite block data .never) s (fun t =>
        blockContent t block = some (padTo 32 (mergedContent s block data)) ∧ t.tag.fieldWrites = g.fieldWrites + 1 ∧
        (∀ k, k ≠ block → blockContent t k = blockContent s k) ∧ t.out = .tag [byte St.ok] :: s.out)) ∧
      (block < 256 → g.secured = true → fieldRights block ≠ 0 → tagPowered s = false →
        Completes (.tagCommandWrite block data .beforeMarker) s
        (fun t => t.tag.field = false ∧ t.tag.secured = false ∧ t.out = s.out ∧ t.tag.fieldWrites = g.fieldWrites)) ∧
      (block < 256 → g.secured = true → fieldRights block ≠ 0 → tagPowered s = true → collapse ≠ .never → collapse ≠ .step1 →
        Completes (.tagCommandWrite block data collapse) s (fun t =>
          blockContent t block = some (padTo 32 (mergedContent s block data)) ∧ t.tag.fieldWrites = g.fieldWrites + 1 ∧
          t.tag.field = false ∧ t.tag.secured = false ∧ t.out = s.out)) ∧
      (g.locked = true → sends (.password value) St.locked [] ∧ sends .challenge St.locked [] ∧
        sends (.respond slot nr sigR sigS) St.locked []) ∧
      (g.locked = false → g.password ≠ 0 → value = g.password → Completes (.password value) s (fun t =>
        t.tag = { g with secured := true, attempts := 0 } ∧ t.out = .tag [byte St.ok] :: s.out)) ∧
      (g.locked = false → value ≠ g.password → Completes (.password value) s (fun t =>
        t.tag = { g with attempts := g.attempts + 1, locked := decide (8 ≤ g.attempts + 1) } ∧
          t.out = .tag [byte St.authFail] :: s.out)) ∧
      (g.locked = false → (awake s = false ∨ s.cis.trngFault = true) → sends .challenge St.refusedState []) ∧
      (g.locked = false → awake s = true → s.cis.trngFault = false → Completes .challenge s (fun t =>
        ∃ nt, t.tag = { g with nonce := some (nt, s.clockMs) } ∧ t.out = .tag (byte St.ok :: wordBytes 16 nt) :: s.out)) ∧
      (g.locked = false → awake s = false → sends (.respond slot nr sigR sigS) St.refusedState []) ∧
      (g.locked = false → awake s = true → 4 ≤ slot → sends (.respond slot nr sigR sigS) St.range []) ∧
      (g.locked = false → awake s = true → slot < 4 →
        (g.nonce = none → sends (.respond slot nr sigR sigS) St.timeout []) ∧
        (∀ nt made, g.nonce = some (nt, made) →
          let wrong (t : State) : Prop :=
            t.tag = { g with nonce := none, attempts := g.attempts + 1, locked := decide (8 ≤ g.attempts + 1) } ∧
            t.out = .tag [byte St.authFail] :: s.out
          (made + 2000 < s.clockMs → Completes (.respond slot nr sigR sigS) s (fun t =>
            t.tag = { g with nonce := none } ∧ t.out = .tag [byte St.timeout] :: s.out)) ∧
          (s.clockMs ≤ made + 2000 → Completes (.respond slot nr sigR sigS) s (fun t =>
            (keyVerifies s slot (readerMessage s nt nr) (wordBytes 32 sigR ++ wordBytes 32 sigS) = true →
              t.tag = { g with nonce := none, secured := true, attempts := 0 } ∧
              t.out = .tag (byte St.ok :: wordBytes 64 (tagSignature s nt nr)) :: s.out) ∧
            (keyVerifies s slot (readerMessage s nt nr) (wordBytes 32 sigR ++ wordBytes 32 sigS) = false → wrong t))) ∧
          (s.clockMs ≤ made + 2000 → (s.otp.programmed.getLsbD slot = false ∨ s.otp.revoked.getLsbD slot = true) →
            Completes (.respond slot nr sigR sigS) s wrong))) ∧
      Completes .leave s (fun t => t.tag = { g with secured := false, nonce := none } ∧ t.out = .tag [byte St.ok] :: s.out) ∧
      sends .tagState St.ok [byte (flags [g.secured, g.locked, tagPowered s]), byte g.attempts]) ∧
    (awake s = false → Ignores (.tagRequest wants) s ∧ Ignores .tagStatusUpdate s ∧ Ignores .tagLogMirror s ∧
      ∀ k, Ignores (.wiredWriteRetryExpiry k retries) s) ∧
    (awake s = true →
      (∀ b, b.length = 32 → blockContent s 3 = some b →
        (fieldN b 0 2 = fieldN b 16 2 → Ignores (.tagRequest true) s) ∧
        (fieldN b 0 2 ≠ fieldN b 16 2 → Completes (.tagRequest true) s (fun t =>
          ∃ n, blockContent t 3 = some n ∧ n.take 16 = b.take 16 ∧ fieldN n 16 2 = fieldN b 0 2))) ∧
      (∀ b, b.length = 32 → blockContent s 2 = some b →
        (fieldN b 0 2 = fieldN b 8 2 → Ignores (.tagRequest false) s) ∧
        (fieldN b 0 2 ≠ fieldN b 8 2 → Completes (.tagRequest false) s (fun t =>
          ∃ n, blockContent t 2 = some n ∧ n.take 8 = b.take 8 ∧ fieldN n 8 2 = fieldN b 0 2))) ∧
      ((blockContent s 1).map withoutTime ≠ some (withoutTime (statusBlock s)) → Completes .tagStatusUpdate s (fun t =>
        blockContent t 1 = some (statusBlock s) ∧ t.sess = s.sess ∧ t.hedge = s.hedge)) ∧
      ((blockContent s 1).map withoutTime = some (withoutTime (statusBlock s)) → Ignores .tagStatusUpdate s) ∧
      (mirrorDue s = [] → Ignores .tagLogMirror s) ∧
      (mirrorDue s ≠ [] → Completes .tagLogMirror s (fun t =>
        t.tag.ring = (g.ring + (mirrorDue s).length) % 64 ∧ t.logs = s.logs ∧
        (∀ e, (mirrorDue s).getLast? = some e → t.tag.mirrored = e.index + 1 ∧ (g.ring < 64 →
          blockContent t (8 + (g.ring + ((mirrorDue s).length - 1)) % 64) = some (padTo 32 (entryBytes e)))))) ∧
      (∀ k : Fin 256, Completes (.wiredWriteRetryExpiry k retries) s (fun t =>
        t.tag.abandoned = g.abandoned + retries ∧ (∀ y ∈ t.tag.retrying, y.1 ≠ k.val) ∧
        (∃ e, t.logs.general.head? = some e ∧ e.sub = 0x0F ∧ e.code = 0x0F04)))) ∧
    (let op := opLen 0x0F03 [clsN] 36
     let k := fieldN r.payload 0 1
     fieldN r.payload 1 3 = 0 →
     (k < 72 → (Admitted op r s → ∃ t, exec (.tagWrite r committed) s = .next t ∧
        Answers s r op.code St.range [] t ∧ SameModule s t)) ∧
     (72 ≤ k → (Admitted op r s → ∃ t, exec (.tagWrite r true) s = .next t ∧
        Answers s r op.code St.ok [] t ∧ SameModule (wiredWrite k (slice r.payload 4 32) s) t) ∧
       blockContent (wiredWrite k (slice r.payload 4 32) s) k = some (padTo 32 (slice r.payload 4 32))) ∧
     (72 ≤ k → Admitted op r s → Completes (.tagWrite r false) s (fun t =>
       SameModule { s with tag := { g with retrying := (k, r.port, r.seq, r.cls) :: g.retrying } } t ∧ t.out = s.out))) ∧
    (let op := opLen 0x0F04 [clsN] 8
     let o := portOrigin r.port
     fieldN r.payload 1 3 = 0 → s.cis.lifecycle ≠ 0 → s.cis.lifecycle ≠ 4 →
     (fieldN r.payload 0 1 = 1 → (Admitted op r s → ∃ t, exec (.tagSecurity r) s = .next t ∧ Answers s r op.code St.ok [] t ∧
        SameModule (log o 0x0F 0x0F05 [byte o] false { s with tag := { g with password := BitVec.ofNat 32 (fieldN r.payload 4 4) } }) t)) ∧
     (fieldN r.payload 0 1 = 2 → g.locked = true → (Admitted op r s → ∃ t, exec (.tagSecurity r) s = .next t ∧
        Answers s r op.code St.ok [] t ∧
        SameModule (log o 0x0F 0x0F02 [0, 1, 0] false { s with tag := { g with locked := false, attempts := 0 } }) t)) ∧
     (fieldN r.payload 0 1 = 2 → g.locked = false → (Admitted op r s → ∃ t, exec (.tagSecurity r) s = .next t ∧
        Answers s r op.code St.ok [] t ∧ SameModule { s with tag := { g with locked := false, attempts := 0 } } t)) ∧
     (2 < fieldN r.payload 0 1 → (Admitted op r s → ∃ t, exec (.tagSecurity r) s = .next t ∧
        Answers s r op.code St.range [] t ∧ SameModule s t)))

/-- R460 to R467, R471: the self-test. A run starts when its trigger holds and every outlet is in S0; each group ends with its
result, twice over the power limit with result 4, group 6 without its condition with result 3; after the last group only a full
pass lifts the bar on permits and signs, and any other result clears the signature's magic. -/
def Obligations.RakeCommands : Prop :=
  ∀ (s : State) (r : Request) (w : WindowInput) (last : Fin 256) (result : Nat) (straps : Slot) (recover : Bool),
    let k := s.rake
    let starts := domainRuns s && maintenanceDue s && allIdle s && noUpdate s && s.sun.utcValid
    (starts = true → Completes (.maintenanceWindow w last) s (fun t =>
      t.power = { s.power with phase := .rake } ∧ t.rake.left = [1, 2, 3, 4, 5, 6] ∧ t.rake.results = [] ∧ t.rake.lastKind = 1 ∧
      t.rake.signature = k.signature ∧ t.sess = s.sess ∧ t.otp = s.otp)) ∧
    (starts = false → Ignores (.maintenanceWindow w last) s) ∧
    (let stale := match k.signature with
       | some x => !k.magic || decide (x.utc + 86400 < s.sun.utc)
       | none => true
     let told := domainRuns s && cfgN s 0x1001 0 0 1 1 == 2 && (stale || !s.sun.utcValid) && !ranInWindow s
     (told = true → Completes .maintenanceWindowEnd s (fun t =>
       t.logs.general.head? = some (newEntry s 9 0x10 0x1002
         [if s.sun.utcValid = false then 3 else if allIdle s = false then 1 else 2]) ∧ t.rake = k ∧ t.power = s.power)) ∧
     (told = false → Ignores .maintenanceWindowEnd s)) ∧
    (s.power.phase ≠ .rake ∨ k.left = [] → Ignores (.rakeGroupComplete result) s ∧ Ignores .rakePowerLimit s ∧
      Ignores .rakeConditionTimeout s) ∧
    (s.power.phase = .rake →
      (∀ g h l, k.left = g :: h :: l →
        Completes (.rakeGroupComplete result) s (fun t => t = { s with rake := { k with
          left := h :: l, results := k.results ++ [(g, result)], repeated := false } }) ∧
        (k.repeated = true → Completes .rakePowerLimit s (fun t => t = { s with rake := { k with
          left := h :: l, results := k.results ++ [(g, 4)], repeated := false } }))) ∧
      (k.left ≠ [] → k.repeated = false →
        Completes .rakePowerLimit s (fun t => t = { s with rake := { k with repeated := true } })) ∧
      (k.left.head? ≠ some 6 → Ignores .rakeConditionTimeout s) ∧
      (∀ g, k.left = [g] →
        let six := sixResults (k.results ++ [(g, result)])
        Completes (.rakeGroupComplete result) s (fun t =>
          t.rake.left = [] ∧ t.rake.lastResults = six ∧ t.rake.unlogged = true ∧
          t.rake.permitOk = (k.permitOk || sixPass six) ∧
          (sixPass six = false → t.rake.magic = false ∧ t.rake.signature = k.signature) ∧
          (sixPass six = true → s.sun.utcValid = true → t.rake.magic = true ∧ ∃ x, t.rake.signature = some x ∧
            x.utc = s.sun.utc ∧ x.cycle = s.sun.cycle ∧ x.kind = k.lastKind ∧ x.serial = s.otp.serial) ∧
          t.power = s.power ∧ t.otp = s.otp)) ∧
      (k.left = [6] → (∀ x ∈ k.results, x.1 ≠ 6) → Completes .rakeConditionTimeout s (fun t =>
        t.rake.left = [] ∧ t.rake.magic = false ∧ t.rake.lastResults = sixResults (k.results ++ [(6, 3)])))) ∧
    (s.power.phase = .rake → k.left = [] →
      Completes (.rakeRestart straps recover) s (fun t => t = fullRestart 9 straps recover s)) ∧
    ((s.power.phase ≠ .rake ∨ k.left ≠ []) → Ignores (.rakeRestart straps recover) s) ∧
    (let op := opLen 0x1002 [clsN] 4
     let mask := fieldN r.payload 0 1
     fieldN r.payload 1 3 = 0 → k.left = [] → s.power.phase ≠ .rake →
     (1 ≤ mask → mask < 64 → inService s = true → allIdle s = true →
       (Admitted op r s → ∃ t, exec (.rakeRun r w last) s = .next t ∧
         ∃ v, Answers s r op.code St.ok [] v ∧ SameModule { s with rake := { k with left := groupsOf mask } } v ∧
         t = (startRake 2 (groupsOf mask) w last) v)) ∧
     (1 ≤ mask → mask < 64 → (inService s = false ∨ allIdle s = false) → (Admitted op r s →
       ∃ t, exec (.rakeRun r w last) s = .next t ∧
        Answers s r op.code St.refusedState [] t ∧ SameModule s t)) ∧
     ((mask = 0 ∨ 64 ≤ mask) → (Admitted op r s → ∃ t, exec (.rakeRun r w last) s = .next t ∧
         Answers s r op.code St.range [] t ∧ SameModule s t)))

end
end

