-- ==== Sys2Proof/Laws/Calm.lean ====
section
/-! SUPPORT. What the operations of links, sessions, protection, logs and records leave alone: time, power, Sundial, the
acquisition, the Trellis and Wadi links, updates, readers, tag, Rake, display and fabric. One lemma per operation. -/

set_option linter.unusedSimpArgs false

namespace Sys2Proof.Machine

/-- The part of a state that this file is about. -/
structure Calm where
  clockMs : Nat
  power : Power
  sun : Sundial
  acq : Acquisition
  trellis : Trellis
  wadi : Wadi
  update : Update
  tag : Tag
  reader0 : Reader
  reader1 : Reader
  rake : Rake
  disp : Display
  fabric : Fabric

/-- That part of a state. -/
def calm (s : State) : Calm := ⟨s.clockMs, s.power, s.sun, s.acq, s.trellis, s.wadi, s.update, s.tag, s.reader0, s.reader1, s.rake, s.disp, s.fabric⟩

@[simp] theorem ite_calm (c : Prop) [Decidable c] (a b : State) : calm (if c then a else b) = if c then calm a else calm b := by split <;> rfl

@[simp] theorem foldl_calm {α : Type} (f : State → α → State) (hf : ∀ t a, calm (f t a) = calm t) (l : List α) (s : State) :
    calm (l.foldl f s) = calm s := by
  induction l generalizing s with
  | nil => rfl
  | cons a l ih => simp [ih, hf]

theorem elim_calm {α : Type} (o : Option α) (a : State) (f : α → State) (k : Calm) (ha : calm a = k) (hf : ∀ x, calm (f x) = k) : calm (o.elim a f) = k := by
  cases o with
  | none => exact ha
  | some x => exact hf x

@[simp] theorem calm_mk pending clockMs freeCount out_ power fabric sun cfg logs host acq energy link sess hedge sw bill disp otp cis dom trellis wadi update reader0 reader1 tag rake :
    calm (State.mk pending clockMs freeCount out_ power fabric sun cfg logs host acq energy link sess hedge sw bill disp otp cis dom trellis wadi update reader0 reader1 tag rake) = ⟨clockMs, power, sun, acq, trellis, wadi, update, tag, reader0, reader1, rake, disp, fabric⟩ := rfl

@[simp] theorem calm_eta (t : State) : Calm.mk t.clockMs t.power t.sun t.acq t.trellis t.wadi t.update t.tag t.reader0 t.reader1 t.rake t.disp t.fabric = calm t := rfl

@[simp] theorem draw_calm (s : State) : calm (draw s) = calm s := by simp [draw]

@[simp] theorem emit_calm (o : Out) (s : State) : calm (emit o s) = calm s := by simp [emit]

@[simp] theorem releaseRecords_calm (o : Outlet) (s : State) : calm (releaseRecords o s) = calm s := by simp [releaseRecords]

@[simp] theorem addGeneral_calm (e : LogEntry) (s : State) : calm (addGeneral e s) = calm s := by simp [addGeneral]

@[simp] theorem addLegal_calm (e : LogEntry) (s : State) : calm (addLegal e s) = calm s := by simp [addLegal]

@[simp] theorem journal_calm (kind : Nat) (object : Nat) (seq : Nat) (s : State) : calm (journal kind object seq s) = calm s := by simp [journal]

@[simp] theorem log_calm (origin : Nat) (sub : Nat) (code : Nat) (detail : List Byte) (legal : Bool) (s : State) : calm (log origin sub code detail legal s) = calm s := by simp [log]

@[simp] theorem setSess_calm (o : Outlet) (f : Session → Session) (s : State) : calm (setSess o f s) = calm s := by simp [setSess]

@[simp] theorem setConv_calm (o : Outlet) (f : Converter → Converter) (s : State) : calm (setConv o f s) = calm s := by simp [setConv]

@[simp] theorem setLink_calm (o : Outlet) (f : Link → Link) (s : State) : calm (setLink o f s) = calm s := by simp [setLink]

@[simp] theorem setHedge_calm (o : Outlet) (f : HedgeOutlet → HedgeOutlet) (s : State) : calm (setHedge o f s) = calm s := by simp [setHedge]

@[simp] theorem setScr_calm (o : Outlet) (f : Scarecrow → Scarecrow) (s : State) : calm (setScr o f s) = calm s := by simp [setScr]

@[simp] theorem forOutlets_calm (f : Outlet → State → State) (s : State) (hf : ∀ o t, calm (f o t) = calm t) : calm (forOutlets f s) = calm s := by
  simp [forOutlets, hf]

@[simp] theorem spiTransfer_calm (p : Port) (s : State) : calm (spiTransfer p s) = calm s := rfl

@[simp] theorem present_calm (s : State) : calm (present s) = calm s := rfl

@[simp] theorem sendPacket_calm (p : Packet) (s : State) : calm (sendPacket p s) = calm s := by
  simp [sendPacket, emit]

@[simp] theorem setOrigin_calm (p : Port) (f : Origin → Origin) (s : State) : calm (setOrigin p f s) = calm s := by
  unfold setOrigin; split <;> simp

@[simp] theorem sendEvent_calm (port : Port) (cls : Nat) (opcode : Nat) (payload : List Byte) (s : State) : calm (sendEvent port cls opcode payload s) = calm s := by simp [sendEvent]

@[simp] theorem eventAll_calm (cls : Nat) (opcode : Nat) (payload : List Byte) (s : State) : calm (eventAll cls opcode payload s) = calm s := by simp [eventAll]

@[simp] theorem completeRequest_calm (port : Port) (cls : Nat) (opcode : Nat) (seq : U32) (status : Nat) (payload : List Byte) (s : State) : calm (completeRequest port cls opcode seq status payload s) = calm s := by simp [completeRequest]

@[simp] theorem plainResponse_calm (port : Port) (cls : Nat) (opcode : Nat) (seq : U32) (status : Nat) (payload : List Byte) (s : State) : calm (plainResponse port cls opcode seq status payload s) = calm s := by simp [plainResponse]

@[simp] theorem authFailure_calm (opcode : Nat) (r : Request) (s : State) : calm (authFailure opcode r s) = calm s := by simp [authFailure]

@[simp] theorem runRequest_calm (op : OpSpec) (r : Request) (act : State → State × Answer) (s : State) (hf : ∀ t, calm (act t).1 = calm t) : calm (runRequest op r act s).1 = calm s := by
  unfold runRequest; repeat' split
  all_goals simp [hf]

@[simp] theorem acceptRequest_calm (code : Nat) (r : Request) (run : State → State × Answer) (s : State) (hf : ∀ t, calm (run t).1 = calm t) : calm (acceptRequest code r run s) = calm s := by
  unfold acceptRequest
  repeat (any_goals split)
  all_goals try dsimp only
  all_goals repeat (any_goals split)
  all_goals first
    | (simp; done)
    | (rename_i h; have h2 := congrArg (fun x => calm (Prod.fst x)) h; simp [hf] at h2; simp [← h2])

@[simp] theorem hostRequest_calm (op : OpSpec) (r : Request) (act : State → State × Answer) (s : State) (hf : ∀ t, calm (act t).1 = calm t) : calm (hostRequest op r act s) = calm s := by
  exact acceptRequest_calm _ _ _ _ (fun t => runRequest_calm _ _ _ _ hf)

@[simp] theorem refuse_calm (status : Nat) (s : State) : calm (refuse status s).1 = calm s := by simp [refuse]

@[simp] theorem done_calm (s : State) : calm (done s).1 = calm s := by simp [done]

@[simp] theorem reply_calm (payload : List Byte) (s : State) : calm (reply payload s).1 = calm s := by simp [reply]

@[simp] theorem guarded_calm (checks : List Nat) (act : State → State × Answer) (s : State) (hf : ∀ t, calm (act t).1 = calm t) : calm (guarded checks act s).1 = calm s := by
  unfold guarded; split <;> simp [hf]

@[simp] theorem putTransfer_calm (t : Transfer) (s : State) : calm (putTransfer t s) = calm s := by simp [putTransfer]

@[simp] theorem bulkWrite_calm (opcode : Nat) (maxTotal : Nat) (check : Nat → Nat) (apply : List Byte → State → State × Nat) (r : Request) (s : State) (hf : ∀ b t, calm (apply b t).1 = calm t) : calm (bulkWrite opcode maxTotal check apply r s).1 = calm s := by
  unfold bulkWrite
  repeat (any_goals (first | (simp [hf]; done) | split | (refine guarded_calm _ _ _ (fun _ => ?_)) | (refine foldl_calm _ (fun _ _ => ?_) _ _) | (refine elim_calm _ _ _ _ ?_ (fun _ => ?_)) | (rename_i h; have h2 := congrArg (fun x => calm (Prod.fst x)) h; simp at h2; simp [← h2]; done) | dsimp only))

@[simp] theorem bulkRead_calm (object : List Byte) (r : Request) (s : State) : calm (bulkRead object r s).1 = calm s := by simp [bulkRead]

@[simp] theorem closeTransfer_calm (id : Nat) (st : TransferState) (status : Nat) (s : State) : calm (closeTransfer id st status s) = calm s := by simp [closeTransfer]

@[simp] theorem setCis_calm (f : Cistern → Cistern) (s : State) : calm (setCis f s) = calm s := by simp [setCis]

@[simp] theorem putKeyBlock_calm (b : KeyBlock) (s : State) : calm (putKeyBlock b s) = calm s := by simp [putKeyBlock]

@[simp] theorem putStatements_calm (xs : List Statement) (s : State) : calm (putStatements xs s) = calm s := by
  unfold putStatements; split <;> simp

@[simp] theorem logStatement_calm (x : Statement) (s : State) : calm (logStatement x s) = calm s := by simp [logStatement]

@[simp] theorem bringInForce_calm (x : Statement) (s : State) : calm (bringInForce x s) = calm s := by simp [bringInForce]

@[simp] theorem signed_calm (s : State) : calm (signed s) = calm s := by
  unfold signed; repeat' split
  all_goals simp

@[simp] theorem archiveLegal_calm (origin : Nat) (s : State) : calm (archiveLegal origin s) = calm s := by simp [archiveLegal]

@[simp] theorem releaseIrq_calm (s : State) : calm (releaseIrq s) = calm s := by simp [releaseIrq]

@[simp] theorem sendCan_calm (f : CanOut) (s : State) : calm (sendCan f s) = calm s := by simp [sendCan]

@[simp] theorem sendNative_calm (channel : Nat) (code : Nat) (addr : Nat) (data : List Byte) (urgent : Bool) (s : State) : calm (sendNative channel code addr data urgent s) = calm s := by simp [sendNative]

@[simp] theorem sendSetpoint_calm (o : Outlet) (s : State) : calm (sendSetpoint o s) = calm s := by simp [sendSetpoint]

@[simp] theorem sendHeartbeat_calm (s : State) : calm (sendHeartbeat s) = calm s := by simp [sendHeartbeat]

@[simp] theorem sendTripFrame_calm (w : TripWait) (s : State) : calm (sendTripFrame w s) = calm s := by simp [sendTripFrame]

@[simp] theorem freshNmk_calm (o : Outlet) (s : State) : calm (freshNmk o s) = calm s := by simp [freshNmk]

@[simp] theorem applyGen_calm (o : Outlet) (g : Generator) (s : State) : calm (applyGen o g s) = calm s := by simp [applyGen]

@[simp] theorem queueGen_calm (o : Outlet) (g : Generator) (s : State) : calm (queueGen o g s) = calm s := by simp [queueGen]

@[simp] theorem startPeriod_calm (o : Outlet) (s : State) : calm (startPeriod o s) = calm s := by
  unfold startPeriod
  repeat (any_goals (first | (simp; done) | split | (refine guarded_calm _ _ _ (fun _ => ?_)) | (refine foldl_calm _ (fun _ _ => ?_) _ _) | (refine elim_calm _ _ _ _ ?_ (fun _ => ?_)) | (rename_i h; have h2 := congrArg (fun x => calm (Prod.fst x)) h; simp at h2; simp [← h2]; done) | dsimp only))

@[simp] theorem startPeriods_calm (s : State) : calm (startPeriods s) = calm s := by simp [startPeriods]

@[simp] theorem commandGen_calm (o : Outlet) (g : Generator) (s : State) : calm (commandGen o g s) = calm s := by simp [commandGen]

@[simp] theorem closeTcp_calm (o : Outlet) (s : State) : calm (closeTcp o s) = calm s := by simp [closeTcp]

@[simp] theorem endLink_calm (o : Outlet) (s : State) : calm (endLink o s) = calm s := by simp [endLink]

@[simp] theorem beginLink_calm (o : Outlet) (s : State) : calm (beginLink o s) = calm s := by simp [beginLink]

@[simp] theorem setNextAlloc_calm (w : List Int) (s : State) : calm (setNextAlloc w s) = calm s := by simp [setNextAlloc]

@[simp] theorem setSw_calm (f : Switches → Switches) (s : State) : calm (setSw f s) = calm s := by simp [setSw]

@[simp] theorem setChanSw_calm (i : Nat) (f : Switch → Switch) (s : State) : calm (setChanSw i f s) = calm s := by simp [setChanSw]

@[simp] theorem driveChannels_calm (s : State) : calm (driveChannels s) = calm s := by simp [driveChannels]

@[simp] theorem commandChannel_calm (i : Nat) (on : Bool) (s : State) : calm (commandChannel i on s) = calm s := by simp [commandChannel]

@[simp] theorem commandContactors_calm (o : Outlet) (on : Bool) (s : State) : calm (commandContactors o on s) = calm s := by simp [commandContactors]

@[simp] theorem followLoads_calm (s : State) : calm (followLoads s) = calm s := by simp [followLoads]

@[simp] theorem latchChannel_calm (i : Nat) (cause : Nat) (sample : List Byte) (dT : List Byte) (s : State) : calm (latchChannel i cause sample dT s) = calm s := by simp [latchChannel]

@[simp] theorem startChannels_calm (s : State) : calm (startChannels s) = calm s := by simp [startChannels]

@[simp] theorem reloadChannels_calm (s : State) : calm (reloadChannels s) = calm s := by simp [reloadChannels]

@[simp] theorem setHedgeM_calm (f : Hedge → Hedge) (s : State) : calm (setHedgeM f s) = calm s := by simp [setHedgeM]

@[simp] theorem seePilot_calm (o : Outlet) (high : Int) (low : Int) (s : State) : calm (seePilot o high low s) = calm s := by simp [seePilot]

@[simp] theorem hedgePermit_calm (o : Outlet) (s : State) : calm (hedgePermit o s) = calm s := by simp [hedgePermit]

@[simp] theorem scrPermit_calm (o : Outlet) (s : State) : calm (scrPermit o s) = calm s := by simp [scrPermit]

@[simp] theorem driveSafeOk_calm (s : State) : calm (driveSafeOk s) = calm s := by simp [driveSafeOk]

@[simp] theorem hedgeCauses_calm (o : Outlet) (s : State) : calm (hedgeCauses o s) = calm s := by simp [hedgeCauses]

@[simp] theorem refreshSafety_calm (s : State) : calm (refreshSafety s) = calm s := by simp [refreshSafety]

@[simp] theorem requestTrip_calm (mask : Nat) (reason : Nat) (s : State) : calm (requestTrip mask reason s) = calm s := by
  unfold requestTrip
  repeat (any_goals (first | (simp; done) | split | (refine guarded_calm _ _ _ (fun _ => ?_)) | (refine foldl_calm _ (fun _ _ => ?_) _ _) | (refine elim_calm _ _ _ _ ?_ (fun _ => ?_)) | (rename_i h; have h2 := congrArg (fun x => calm (Prod.fst x)) h; simp at h2; simp [← h2]; done) | dsimp only))

@[simp] theorem logTrip_calm (outlet : Nat) (bit : List Byte) (value : List Byte) (mask : Option Nat) (s : State) : calm (logTrip outlet bit value mask s) = calm s := by simp [logTrip]

@[simp] theorem tripSwitches_calm (weld : Bool) (o : Outlet) (s : State) : calm (tripSwitches weld o s) = calm s := by simp [tripSwitches]

@[simp] theorem tripOutlet_calm (o : Outlet) (bit : Nat) (reason : Option Nat) (value : List Byte) (s : State) : calm (tripOutlet o bit reason value s) = calm s := by
  unfold tripOutlet
  repeat (any_goals (first | (simp; done) | split | (refine guarded_calm _ _ _ (fun _ => ?_)) | (refine foldl_calm _ (fun _ _ => ?_) _ _) | (refine elim_calm _ _ _ _ ?_ (fun _ => ?_)) | (rename_i h; have h2 := congrArg (fun x => calm (Prod.fst x)) h; simp at h2; simp [← h2]; done) | dsimp only))

@[simp] theorem tripModule_calm (k : ModuleTrip) (s : State) : calm (tripModule k s) = calm s := by simp [tripModule]

@[simp] theorem logReset_calm (origin : Nat) (outlet : Nat) (cleared : Nat) (remaining : Nat) (s : State) : calm (logReset origin outlet cleared remaining s) = calm s := by simp [logReset]

@[simp] theorem resetOutlet_calm (origin : Nat) (o : Outlet) (s : State) : calm (resetOutlet origin o s).1 = calm s := by
  unfold resetOutlet
  repeat (any_goals (first | (simp; done) | split | (refine guarded_calm _ _ _ (fun _ => ?_)) | (refine foldl_calm _ (fun _ _ => ?_) _ _) | (refine elim_calm _ _ _ _ ?_ (fun _ => ?_)) | (rename_i h; have h2 := congrArg (fun x => calm (Prod.fst x)) h; simp at h2; simp [← h2]; done) | dsimp only))

@[simp] theorem resetModule_calm (origin : Nat) (s : State) : calm (resetModule origin s).1 = calm s := by
  unfold resetModule; dsimp only; split
  · rfl
  · simp [logReset, setHedgeM]

@[simp] theorem takeBlock_calm (block : List Byte) (agrees : Bool) (tag : Option Nat) (old : Option Nat) (s : State) : calm (takeBlock block agrees tag old s) = calm s := by
  unfold takeBlock; repeat' split
  all_goals simp

@[simp] theorem confirmCheck_calm (path : Nat) (origin : Nat) (value : Nat) (s : State) : calm (confirmCheck path origin value s).1 = calm s := by
  unfold confirmCheck; repeat' split
  all_goals simp

@[simp] theorem scrAction_calm (o : Outlet) (row : Nat) (cuts : Bool) (measured : List Byte) (limit : List Byte) (s : State) : calm (scrAction o row cuts measured limit s) = calm s := by simp [scrAction]

@[simp] theorem withhold_calm (o : Outlet) (p : Setpoint) (s : State) : calm (withhold o p s) = calm s := by simp [withhold]

@[simp] theorem releaseSetpoint_calm (o : Outlet) (s : State) : calm (releaseSetpoint o s) = calm s := by simp [releaseSetpoint]

@[simp] theorem putSetpoint_calm (o : Outlet) (p : Setpoint) (s : State) : calm (putSetpoint o p s) = calm s := by simp [putSetpoint]

@[simp] theorem writeReply_calm (o : Outlet) (f : StandingFields) (s : State) : calm (writeReply o f s) = calm s := by simp [writeReply]

@[simp] theorem renewReply_calm (o : Outlet) (s : State) : calm (renewReply o s) = calm s := by simp [renewReply]

@[simp] theorem freshReply_calm (o : Outlet) (s : State) : calm (freshReply o s) = calm s := by simp [freshReply]

@[simp] theorem renewReplies_calm (s : State) : calm (renewReplies s) = calm s := by simp [renewReplies]

@[simp] theorem followReply_calm (o : Outlet) (s : State) : calm (followReply o s) = calm s := by simp [followReply]

@[simp] theorem updateSet_calm (o : Outlet) (s : State) : calm (updateSet o s) = calm s := by simp [updateSet]

@[simp] theorem updateLog_calm (origin : Nat) (code : Nat) (mask : Nat) (detail : List Byte) (s : State) : calm (updateLog origin code mask detail s) = calm s := by simp [updateLog]

@[simp] theorem logChanges_calm (slot : Nat) (serial : Nat) (recs : List Rec) (s : State) : calm (logChanges slot serial recs s) = calm s := by
  unfold logChanges; split <;> simp

@[simp] theorem useImage_calm (slot : Nat) (b : List Byte) (s : State) : calm (useImage slot b s) = calm s := by simp [useImage]

@[simp] theorem useDefaults_calm (s : State) : calm (useDefaults s) = calm s := by simp [useDefaults]

@[simp] theorem logSlotFallback_calm (slot : Nat) (failed : Nat) (inForce : Nat) (other : Nat) (s : State) : calm (logSlotFallback slot failed inForce other s) = calm s := by simp [logSlotFallback]

@[simp] theorem readConfiguration_calm (s : State) : calm (readConfiguration s) = calm s := by simp [readConfiguration]

@[simp] theorem setEnergy_calm (f : Energy → Energy) (s : State) : calm (setEnergy f s) = calm s := by simp [setEnergy]

@[simp] theorem logCorrupt_calm (m : Nat) (x : Register) (s : State) : calm (logCorrupt m x s) = calm s := by simp [logCorrupt]

@[simp] theorem putReg_calm (m : Nat) (x : Register) (s : State) : calm (putReg m x s) = calm s := by simp [putReg]

@[simp] theorem logRun_calm (m : Nat) (w : RegWindow) (old : Register) (new : Register) (s : State) : calm (logRun m w old new s) = calm s := by simp [logRun]

@[simp] theorem commitRegister_calm (s : State) (x : Nat × RegWindow) : calm (commitRegister s x) = calm s := by simp [commitRegister]

@[simp] theorem commitPulses_calm (incs : List Int) (s : State) : calm (commitPulses incs s) = calm s := by simp [commitPulses]

@[simp] theorem setPulse_calm (m : Nat) (f : Pulse → Pulse) (s : State) : calm (setPulse m f s) = calm s := by simp [setPulse]

@[simp] theorem writeCommit_calm (partialKind : Bool) (angle : Nat) (s : State) : calm (writeCommit partialKind angle s) = calm s := by simp [writeCommit]

@[simp] theorem markCorrupt_calm (m : Nat) (s : State) : calm (markCorrupt m s) = calm s := by simp [markCorrupt]

@[simp] theorem logLost_calm (at' : Stamp) (s : State) : calm (logLost at' s) = calm s := by simp [logLost]

@[simp] theorem reloadEnergy_calm (s : State) : calm (reloadEnergy s) = calm s := by simp [reloadEnergy]

@[simp] theorem applyRestores_calm (s : State) : calm (applyRestores s) = calm s := by simp [applyRestores]

@[simp] theorem startWindowAt_calm (k : Nat) (s : State) : calm (startWindowAt k s) = calm s := by simp [startWindowAt]

@[simp] theorem energyBoundary_calm (s : State) : calm (energyBoundary s) = calm s := by simp [energyBoundary]

@[simp] theorem writeMarker_calm (s : State) : calm (writeMarker s) = calm s := by simp [writeMarker]

@[simp] theorem restoreSnapshots_calm (s : State) : calm (restoreSnapshots s) = calm s := by simp [restoreSnapshots]

@[simp] theorem restoreEnergy_calm (badRegs : List Nat) (s : State) : calm (restoreEnergy badRegs s) = calm s := by
  unfold restoreEnergy; split <;> simp

@[simp] theorem snapshot_calm (ms : List Nat) (s : State) : calm (snapshot ms s) = calm s := by simp [snapshot]

@[simp] theorem snapshotAll_calm (s : State) : calm (snapshotAll s) = calm s := by simp [snapshotAll]

@[simp] theorem clearSessionStatus_calm (o : Outlet) (s : State) : calm (clearSessionStatus o s) = calm s := by simp [clearSessionStatus]

@[simp] theorem setBill_calm (f : Billing → Billing) (s : State) : calm (setBill f s) = calm s := by simp [setBill]

@[simp] theorem billOutlet_calm (changes : List Int) (o : Outlet) (s : State) : calm (billOutlet changes o s) = calm s := by simp [billOutlet]

@[simp] theorem writeBillingSlot_calm (partialKind : Bool) (s : State) : calm (writeBillingSlot partialKind s) = calm s := by simp [writeBillingSlot]

@[simp] theorem billWindow_calm (partialKind : Bool) (changes : List Int) (s : State) : calm (billWindow partialKind changes s) = calm s := by simp [billWindow]

@[simp] theorem billingBoundary_calm (s : State) : calm (billingBoundary s) = calm s := by simp [billingBoundary]

@[simp] theorem putAccount_calm (a : Account) (s : State) : calm (putAccount a s) = calm s := by simp [putAccount]

@[simp] theorem writeAccountStore_calm (s : State) : calm (writeAccountStore s) = calm s := by simp [writeAccountStore]

@[simp] theorem debit_calm (i : Nat) (cost : Int) (s : State) : calm (debit i cost s) = calm s := by
  unfold debit; split <;> simp

@[simp] theorem restoreAccounts_calm (s : State) : calm (restoreAccounts s) = calm s := by
  unfold restoreAccounts
  repeat (any_goals (first | (simp; done) | split | (refine guarded_calm _ _ _ (fun _ => ?_)) | (refine foldl_calm _ (fun _ _ => ?_) _ _) | (refine elim_calm _ _ _ _ ?_ (fun _ => ?_)) | (rename_i h; have h2 := congrArg (fun x => calm (Prod.fst x)) h; simp at h2; simp [← h2]; done) | dsimp only))

@[simp] theorem openRecord_calm (o : Outlet) (s : State) : calm (openRecord o s) = calm s := by simp [openRecord]

@[simp] theorem closeRecord_calm (o : Outlet) (reason : Nat) (s : State) : calm (closeRecord o reason s) = calm s := by
  unfold closeRecord
  repeat (any_goals (first | (simp; done) | split | (refine guarded_calm _ _ _ (fun _ => ?_)) | (refine foldl_calm _ (fun _ _ => ?_) _ _) | (refine elim_calm _ _ _ _ ?_ (fun _ => ?_)) | (rename_i h; have h2 := congrArg (fun x => calm (Prod.fst x)) h; simp at h2; simp [← h2]; done) | dsimp only))

@[simp] theorem closePeriod_calm (origin : Nat) (endUtc : Option Nat) (late : Bool) (byCommand : Bool) (s : State) : calm (closePeriod origin endUtc late byCommand s) = calm s := by simp [closePeriod]

@[simp] theorem useSlot_calm (b : BillingSlot) (badTariffs : List Nat) (changes : Option (List Int)) (s : State) : calm (useSlot b badTariffs changes s) = calm s := by simp [useSlot]

@[simp] theorem restoreBilling_calm (fromSlot : Bool) (badTariffs : List Nat) (s : State) : calm (restoreBilling fromSlot badTariffs s) = calm s := by
  unfold restoreBilling
  repeat (any_goals (first | (simp; done) | split | (refine guarded_calm _ _ _ (fun _ => ?_)) | (refine foldl_calm _ (fun _ _ => ?_) _ _) | (refine elim_calm _ _ _ _ ?_ (fun _ => ?_)) | (rename_i h; have h2 := congrArg (fun x => calm (Prod.fst x)) h; simp at h2; simp [← h2]; done) | dsimp only))

@[simp] theorem logClock_calm (origin : Nat) (kind : Nat) (old : Nat) (new : Nat) (delta : Int) (s : State) : calm (logClock origin kind old new delta s) = calm s := by simp [logClock]

@[simp] theorem clockSlew_calm (origin : Nat) (delta : Int) (s : State) : calm (clockSlew origin delta s).1 = calm s := by
  unfold clockSlew; repeat' split
  all_goals simp

@[simp] theorem goTo_calm (o : Outlet) (x : SState) (s : State) : calm (goTo o x s) = calm s := by simp [goTo]

@[simp] theorem setDrive_calm (o : Outlet) (on : Bool) (s : State) : calm (setDrive o on s) = calm s := by simp [setDrive]

@[simp] theorem closeSession_calm (o : Outlet) (reason : Nat) (s : State) : calm (closeSession o reason s) = calm s := by simp [closeSession]

@[simp] theorem applyAvailability_calm (o : Outlet) (s : State) : calm (applyAvailability o s) = calm s := by simp [applyAvailability]

@[simp] theorem enterS0_calm (o : Outlet) (s : State) : calm (enterS0 o s) = calm s := by simp [enterS0]

@[simp] theorem enterS9_calm (o : Outlet) (s : State) : calm (enterS9 o s) = calm s := by simp [enterS9]

@[simp] theorem enterSE_calm (o : Outlet) (reason : Nat) (s : State) : calm (enterSE o reason s) = calm s := by simp [enterSE]

@[simp] theorem enterS8_calm (o : Outlet) (s : State) : calm (enterS8 o s) = calm s := by simp [enterS8]

@[simp] theorem enterS7_calm (o : Outlet) (cause : Nat) (s : State) : calm (enterS7 o cause s) = calm s := by simp [enterS7]

@[simp] theorem noteCause_calm (o : Outlet) (cause : Nat) (s : State) : calm (noteCause o cause s) = calm s := by simp [noteCause]

@[simp] theorem logCause_calm (s : State) : calm (logCause s) = calm s := by simp [logCause]

theorem causeStep_calm (s : State) (o : Outlet) (c : Nat) (f : State → State) (h : causeStep s o c = some f) (t : State) : calm (f t) = calm t := by
  unfold causeStep causeStep.early causeStep.ramp at h
  dsimp only at h
  repeat (any_goals (split at h))
  all_goals first
    | (simp at h; done)
    | (obtain rfl := Option.some.inj h; simp)

@[simp] theorem giveCause_calm (o : Outlet) (cause : Nat) (s : State) : calm (giveCause o cause s) = calm s := by
  unfold giveCause
  split
  · rename_i f h
    simp [causeStep_calm _ _ _ _ h]
  · split <;> simp

@[simp] theorem decide'_calm (o : Outlet) (path : Nat) (origin : Nat) (accept : Bool) (g : Grant) (s : State) : calm (decide' o path origin accept g s) = calm s := by simp [decide']

@[simp] theorem byPolicy_calm (o : Outlet) (queried : Bool) (s : State) : calm (byPolicy o queried s) = calm s := by simp [byPolicy]

@[simp] theorem hostQuery_calm (o : Outlet) (c : Credential) (s : State) : calm (hostQuery o c s) = calm s := by simp [hostQuery]

@[simp] theorem lookUp_calm (o : Outlet) (c : Credential) (s : State) : calm (lookUp o c s) = calm s := by
  unfold lookUp; repeat' split
  all_goals simp

@[simp] theorem presentCredential_calm (o : Outlet) (c : Credential) (s : State) : calm (presentCredential o c s) = calm s := by simp [presentCredential]

@[simp] theorem startAuthorisation_calm (o : Outlet) (s : State) : calm (startAuthorisation o s) = calm s := by
  unfold startAuthorisation
  repeat (any_goals (first | (simp; done) | split | (refine guarded_calm _ _ _ (fun _ => ?_)) | (refine foldl_calm _ (fun _ _ => ?_) _ _) | (refine elim_calm _ _ _ _ ?_ (fun _ => ?_)) | (rename_i h; have h2 := congrArg (fun x => calm (Prod.fst x)) h; simp at h2; simp [← h2]; done) | dsimp only))

@[simp] theorem cardRead_calm (port : Nat) (ident : List Byte) (s : State) : calm (cardRead port ident s) = calm s := by
  unfold cardRead
  repeat (any_goals (first | (simp; done) | split | (refine guarded_calm _ _ _ (fun _ => ?_)) | (refine foldl_calm _ (fun _ _ => ?_) _ _) | (refine elim_calm _ _ _ _ ?_ (fun _ => ?_)) | (rename_i h; have h2 := congrArg (fun x => calm (Prod.fst x)) h; simp at h2; simp [← h2]; done) | dsimp only))

@[simp] theorem enterS1_calm (o : Outlet) (s : State) : calm (enterS1 o s) = calm s := by simp [enterS1]

@[simp] theorem enterS2_calm (o : Outlet) (s : State) : calm (enterS2 o s) = calm s := by simp [enterS2]

@[simp] theorem enterS3_calm (o : Outlet) (s : State) : calm (enterS3 o s) = calm s := by simp [enterS3]

@[simp] theorem enterS4_calm (o : Outlet) (s : State) : calm (enterS4 o s) = calm s := by simp [enterS4]

@[simp] theorem enterS6_calm (o : Outlet) (s : State) : calm (enterS6 o s) = calm s := by simp [enterS6]

@[simp] theorem takeTrip_calm (o : Outlet) (s : State) : calm (takeTrip o s) = calm s := by simp [takeTrip]

@[simp] theorem earlyPilot_calm (o : Outlet) (s : State) (other : State → State) (hf : ∀ t, calm (other t) = calm t) : calm (earlyPilot o s other) = calm s := by simp [earlyPilot, hf]

@[simp] theorem runningCauses_calm (o : Outlet) (s : State) (other : State → State) (hf : ∀ t, calm (other t) = calm t) : calm (runningCauses o s other) = calm s := by simp [runningCauses, hf]

@[simp] theorem matchFailed_calm (o : Outlet) (s : State) (other : State → State) (hf : ∀ t, calm (other t) = calm t) : calm (matchFailed o s other) = calm s := by simp [matchFailed, hf]

@[simp] theorem besideCause_calm (o : Outlet) (cause : Nat) (stands : Bool) (s : State) : calm (besideCause o cause stands s) = calm s := by simp [besideCause]

@[simp] theorem besideCauses_calm (o : Outlet) (s : State) : calm (besideCauses o s) = calm s := by
  unfold besideCauses; split <;> simp

@[simp] theorem settleOutlet_calm (o : Outlet) (s : State) : calm (settleOutlet o s) = calm s := by
  unfold settleOutlet
  repeat (any_goals (first | (simp; done) | split | (refine guarded_calm _ _ _ (fun _ => ?_)) | (refine foldl_calm _ (fun _ _ => ?_) _ _) | (refine elim_calm _ _ _ _ ?_ (fun _ => ?_)) | (rename_i h; have h2 := congrArg (fun x => calm (Prod.fst x)) h; simp at h2; simp [← h2]; done) | dsimp only))

@[simp] theorem stopImd_calm (o : Outlet) (s : State) : calm (stopImd o s) = calm s := by simp [stopImd]

@[simp] theorem settleOnce_calm (s : State) : calm (settleOnce s) = calm s := by simp [settleOnce]

@[simp] theorem settle_calm (s : State) : calm (settle s) = calm s := by simp [settle]

@[simp] theorem linkCause_calm (o : Outlet) (cause : Nat) (s : State) : calm (linkCause o cause s) = calm s := by simp [linkCause]

@[simp] theorem loseTcp_calm (o : Outlet) (s : State) : calm (loseTcp o s) = calm s := by simp [loseTcp]

@[simp] theorem count_calm (o : Outlet) (f : LinkCounters → LinkCounters) (s : State) : calm (count o f s) = calm s := by simp [count]

@[simp] theorem pwmOnlyFrom_calm (o : Outlet) (s : State) : calm (pwmOnlyFrom o s) = calm s := by simp [pwmOnlyFrom]

@[simp] theorem failMatching_calm (o : Outlet) (limit : Bool) (s : State) : calm (failMatching o limit s) = calm s := by simp [failMatching]

@[simp] theorem endPilotTest_calm (o : Outlet) (s : State) : calm (endPilotTest o s) = calm s := by simp [endPilotTest]

@[simp] theorem unplug_calm (o : Outlet) (p : PilotState) (s : State) : calm (unplug o p s) = calm s := by simp [unplug]

@[simp] theorem linkGone_calm (o : Outlet) (s : State) : calm (linkGone o s) = calm s := by simp [linkGone]

@[simp] theorem pilotCause_calm (o : Outlet) (s : State) : calm (pilotCause o s) = calm s := by simp [pilotCause]

@[simp] theorem pilotB_calm (o : Outlet) (s : State) : calm (pilotB o s) = calm s := by simp [pilotB]

@[simp] theorem takePilot_calm (o : Outlet) (p : PilotState) (diode : Bool) (s : State) : calm (takePilot o p diode s) = calm s := by simp [takePilot]

@[simp] theorem seenBy_calm (o : Outlet) (high : Int) (low : Int) (s : State) : calm (seenBy o high low s) = calm s := by simp [seenBy]

@[simp] theorem setMatching_calm (o : Outlet) (m : Matching) (s : State) : calm (setMatching o m s) = calm s := by simp [setMatching]

@[simp] theorem linkUp_calm (o : Outlet) (s : State) : calm (linkUp o s) = calm s := by simp [linkUp]

@[simp] theorem expireReply_calm (o : Outlet) (s : State) : calm (expireReply o s) = calm s := by simp [expireReply]

@[simp] theorem replyBoundary_calm (o : Outlet) (s : State) : calm (replyBoundary o s) = calm s := by simp [replyBoundary]

@[simp] theorem startPilotTest_calm (o : Outlet) (g : Generator) (s : State) : calm (startPilotTest o g s) = calm s := by simp [startPilotTest]

@[simp] theorem respondWith_calm (o : Outlet) (r : V2gRes) (s : State) : calm (respondWith o r s) = calm s := by simp [respondWith]

@[simp] theorem respond_calm (o : Outlet) (msg : Nat) (code : Nat) (ongoing : Bool) (notification : Nat) (values : List Int) (s : State) : calm (respond o msg code ongoing notification values s) = calm s := by simp [respond]

@[simp] theorem answer_calm (o : Outlet) (msg : Nat) (code : Nat) (values : List Int) (s : State) : calm (answer o msg code values s) = calm s := by simp [answer]

@[simp] theorem hold_calm (o : Outlet) (msg : Nat) (s : State) : calm (hold o msg s) = calm s := by simp [hold]

@[simp] theorem vehicleCredential_calm (o : Outlet) (kind : Nat) (ident : List Byte) (s : State) : calm (vehicleCredential o kind ident s) = calm s := by simp [vehicleCredential]

@[simp] theorem noteUnchecked_calm (o : Outlet) (s : State) : calm (noteUnchecked o s) = calm s := by simp [noteUnchecked]

@[simp] theorem presentContract_calm (o : Outlet) (c : Contract) (s : State) : calm (presentContract o c s) = calm s := by simp [presentContract]

@[simp] theorem contractAnswer_calm (o : Outlet) (msg : Nat) (c : Contract) (s : State) (other : State → State) (hf : ∀ t, calm (other t) = calm t) : calm (contractAnswer o msg c s other) = calm s := by simp [contractAnswer, hf]

@[simp] theorem authorizationAnswer_calm (o : Outlet) (s : State) : calm (authorizationAnswer o s) = calm s := by
  unfold authorizationAnswer; split <;> simp

@[simp] theorem precharge_calm (o : Outlet) (targetVoltage : Nat) (s : State) : calm (precharge o targetVoltage s) = calm s := by simp [precharge]

@[simp] theorem startTransfer_calm (o : Outlet) (s : State) : calm (startTransfer o s) = calm s := by simp [startTransfer]

@[simp] theorem loopAnswer_calm (o : Outlet) (msg : Nat) (p : Protocol) (s : State) : calm (loopAnswer o msg p s) = calm s := by simp [loopAnswer]

@[simp] theorem takeAnswer_calm (o : Outlet) (origin : Nat) (accept : Bool) (g : Grant) (s : State) : calm (takeAnswer o origin accept g s).1 = calm s := by
  unfold takeAnswer
  repeat (any_goals (first | (simp; done) | split | (refine guarded_calm _ _ _ (fun _ => ?_)) | (refine foldl_calm _ (fun _ _ => ?_) _ _) | (refine elim_calm _ _ _ _ ?_ (fun _ => ?_)) | (rename_i h; have h2 := congrArg (fun x => calm (Prod.fst x)) h; simp at h2; simp [← h2]; done) | dsimp only))

@[simp] theorem takeRemote_calm (o : Outlet) (origin : Nat) (g : Grant) (s : State) : calm (takeRemote o origin g s) = calm s := by simp [takeRemote]

@[simp] theorem takeAvailability_calm (o : Outlet) (out : Bool) (s : State) : calm (takeAvailability o out s) = calm s := by simp [takeAvailability]

@[simp] theorem openThresholdMet_calm (o : Outlet) (s : State) : calm (openThresholdMet o s) = calm s := by simp [openThresholdMet]

@[simp] theorem judgeWeldCheck_calm (o : Outlet) (s : State) : calm (judgeWeldCheck o s) = calm s := by simp [judgeWeldCheck]

@[simp] theorem logConverter_calm (o : Outlet) (s : State) : calm (logConverter o s) = calm s := by simp [logConverter]

@[simp] theorem takeStatus_calm (f : CanFrame) (s : State) (o : Outlet) : calm (takeStatus f s o) = calm s := by simp [takeStatus]

@[simp] theorem takeLimits_calm (f : CanFrame) (s : State) (o : Outlet) : calm (takeLimits f s o) = calm s := by
  unfold takeLimits
  repeat (any_goals (first | (simp; done) | split | (refine guarded_calm _ _ _ (fun _ => ?_)) | (refine foldl_calm _ (fun _ _ => ?_) _ _) | (refine elim_calm _ _ _ _ ?_ (fun _ => ?_)) | (rename_i h; have h2 := congrArg (fun x => calm (Prod.fst x)) h; simp at h2; simp [← h2]; done) | dsimp only))

@[simp] theorem takeAlloc_calm (o : Outlet) (w : Int) (s : State) : calm (takeAlloc o w s) = calm s := by simp [takeAlloc]

@[simp] theorem allocBoundary_calm (s : State) : calm (allocBoundary s) = calm s := by
  unfold allocBoundary
  split
  · refine forOutlets_calm _ _ (fun o t => ?_)
    split <;> simp
  · simp

@[simp] theorem putKey_calm (cls : Nat) (k : Option (BitVec 256)) (s : State) : calm (putKey cls k s) = calm s := by simp [putKey]

@[simp] theorem drawNonces_calm (s : State) : calm (drawNonces s) = calm s := by simp [drawNonces]

@[simp] theorem writeKeys_calm (s : State) : calm (writeKeys s) = calm s := by simp [writeKeys]

@[simp] theorem eraseTail_calm (slotB : Bool) (s : State) : calm (eraseTail slotB s) = calm s := by simp [eraseTail]

@[simp] theorem loadBlob_calm (s : State) (b : Blob) : calm (loadBlob s b) = calm s := by
  unfold loadBlob; split <;> simp

@[simp] theorem loadBlobs_calm (s : State) : calm (loadBlobs s) = calm s := by
  unfold loadBlobs
  dsimp only
  split <;> simp

@[simp] theorem formStatement_calm (state : Nat) (signer : Nat) (by' : BitVec 256) (key : BitVec 256) (meas : BitVec 256) (s : State) : calm (formStatement state signer by' key meas s).1 = calm s := by simp [formStatement]

@[simp] theorem deriveMetrology_calm (s : State) : calm (deriveMetrology s) = calm s := by
  unfold deriveMetrology
  repeat (any_goals (first | (simp; done) | split | (refine guarded_calm _ _ _ (fun _ => ?_)) | (refine foldl_calm _ (fun _ _ => ?_) _ _) | (refine elim_calm _ _ _ _ ?_ (fun _ => ?_)) | (rename_i h; have h2 := congrArg (fun x => calm (Prod.fst x)) h; simp at h2; simp [← h2]; done) | dsimp only))

@[simp] theorem setOtp_calm (f : Otp → Otp) (s : State) : calm (setOtp f s) = calm s := by simp [setOtp]

@[simp] theorem logLifecycle_calm (origin : Nat) (old : Nat) (new : Nat) (path : Nat) (s : State) : calm (logLifecycle origin old new path s) = calm s := by simp [logLifecycle]

@[simp] theorem generateRoot_calm (rootOk : Bool) (s : State) : calm (generateRoot rootOk s) = calm s := by simp [generateRoot]

@[simp] theorem dropKeys_calm (s : State) : calm (dropKeys s) = calm s := by simp [dropKeys]

@[simp] theorem retire_calm (s : State) : calm (retire s) = calm s := by simp [retire]

@[simp] theorem measureImages_calm (s : State) : calm (measureImages s) = calm s := by simp [measureImages]

@[simp] theorem migrateLegal_calm (s : State) : calm (migrateLegal s) = calm s := by
  unfold migrateLegal
  repeat (any_goals (first | (simp; done) | split | (refine guarded_calm _ _ _ (fun _ => ?_)) | (refine foldl_calm _ (fun _ _ => ?_) _ _) | (refine elim_calm _ _ _ _ ?_ (fun _ => ?_)) | (rename_i h; have h2 := congrArg (fun x => calm (Prod.fst x)) h; simp at h2; simp [← h2]; done) | dsimp only))

@[simp] theorem migrateApp_calm (s : State) : calm (migrateApp s) = calm s := by simp [migrateApp]

@[simp] theorem migrateKeys_calm (mask : Nat) (s : State) : calm (migrateKeys mask s) = calm s := by simp [migrateKeys]

@[simp] theorem keysConfirm_calm (mask : Nat) (s : State) : calm (keysConfirm mask s) = calm s := by simp [keysConfirm]

@[simp] theorem supersede_calm (s : State) : calm (supersede s) = calm s := by simp [supersede]

@[simp] theorem keysFallBack_calm (mask : Nat) (s : State) : calm (keysFallBack mask s) = calm s := by
  unfold keysFallBack
  repeat (any_goals (first | (simp; done) | split | (refine guarded_calm _ _ _ (fun _ => ?_)) | (refine foldl_calm _ (fun _ _ => ?_) _ _) | (refine elim_calm _ _ _ _ ?_ (fun _ => ?_)) | (rename_i h; have h2 := congrArg (fun x => calm (Prod.fst x)) h; simp at h2; simp [← h2]; done) | dsimp only))

@[simp] theorem abandonMigration_calm (s : State) : calm (abandonMigration s) = calm s := by simp [abandonMigration]

@[simp] theorem newMetrology_calm (s : State) : calm (newMetrology s).1 = calm s := by simp [newMetrology]

@[simp] theorem leaveField_calm (origin : Nat) (path : Nat) (target : Nat) (s : State) : calm (leaveField origin path target s) = calm s := by simp [leaveField]

@[simp] theorem enterField_calm (origin : Nat) (s : State) : calm (enterField origin s) = calm s := by simp [enterField]

@[simp] theorem enterRetired_calm (origin : Nat) (s : State) : calm (enterRetired origin s) = calm s := by simp [enterRetired]

@[simp] theorem programCounter_calm (n : Nat) (s : State) : calm (programCounter n s) = calm s := by simp [programCounter]

@[simp] theorem warnCounter_calm (s : State) : calm (warnCounter s) = calm s := by simp [warnCounter]

@[simp] theorem logKey_calm (origin : Nat) (cls : Nat) (op : Nat) (slot : Nat) (n : Nat) (key : Option (List Byte)) (s : State) : calm (logKey origin cls op slot n key s) = calm s := by simp [logKey]

@[simp] theorem slotOperation_calm (op : Nat) (slot : Nat) (key : BitVec 512) (s : State) : calm (slotOperation op slot key s) = calm s := by simp [slotOperation]

@[simp] theorem applyKeyMessage_calm (origin : Nat) (p : List Byte) (s : State) : calm (applyKeyMessage origin p s) = calm s := by simp [applyKeyMessage]

@[simp] theorem logUnreadable_calm (k : Nat) (s : State) : calm (logUnreadable k s) = calm s := by simp [logUnreadable]

@[simp] theorem tagAnswer_calm (status : Nat) (data : List Byte) (s : State) : calm (tagAnswer status data s) = calm s := by simp [tagAnswer]

@[simp] theorem inField_calm (f : State → State) (s : State) (hf : ∀ t, calm (f t) = calm t) : calm (inField f s) = calm s := by simp [inField, hf]

@[simp] theorem residualTrip_calm (o : Outlet) (bit : Nat) (limit : Nat) (square : Rat) (mA : Int) (s : State) : calm (residualTrip o bit limit square mA s) = calm s := by simp [residualTrip]

@[simp] theorem halfPeriod_calm (o : Outlet) (selfTimed : Bool) (x : ImdInput) (s : State) : calm (halfPeriod o selfTimed x s) = calm s := by
  unfold halfPeriod
  repeat (any_goals (first | (simp; done) | split | (refine guarded_calm _ _ _ (fun _ => ?_)) | (refine foldl_calm _ (fun _ _ => ?_) _ _) | (refine elim_calm _ _ _ _ ?_ (fun _ => ?_)) | (rename_i h; have h2 := congrArg (fun x => calm (Prod.fst x)) h; simp at h2; simp [← h2]; done) | dsimp only))

@[simp] theorem startImd_calm (o : Outlet) (s : State) : calm (startImd o s) = calm s := by simp [startImd]

@[simp] theorem runCheck_calm (o : Outlet) (s : State) (c : ScrCheck) : calm (runCheck o s c) = calm s := by simp [runCheck]

@[simp] theorem noteMeasured_calm (o : Outlet) (s : State) : calm (noteMeasured o s) = calm s := by simp [noteMeasured]

@[simp] theorem clearWeld_calm (origin : Nat) (o : Outlet) (s : State) : calm (clearWeld origin o s) = calm s := by simp [clearWeld]

@[simp] theorem logTariffs_calm (origin : Nat) (kind : Nat) (serial : Nat) (recs : List Rec) (s : State) : calm (logTariffs origin kind serial recs s) = calm s := by simp [logTariffs]

@[simp] theorem takeTable_calm (s : State) : calm (takeTable s) = calm s := by
  unfold takeTable; split <;> simp

@[simp] theorem applyTable_calm (origin : Nat) (b : List Byte) (s : State) : calm (applyTable origin b s).1 = calm s := by
  unfold applyTable
  repeat (any_goals (first | (simp; done) | split | (refine guarded_calm _ _ _ (fun _ => ?_)) | (refine foldl_calm _ (fun _ _ => ?_) _ _) | (refine elim_calm _ _ _ _ ?_ (fun _ => ?_)) | (rename_i h; have h2 := congrArg (fun x => calm (Prod.fst x)) h; simp at h2; simp [← h2]; done) | dsimp only))

@[simp] theorem setDemand_calm (f : DemandBlock → DemandBlock) (s : State) : calm (setDemand f s) = calm s := by simp [setDemand]

@[simp] theorem spoilDemand_calm (cause : Nat) (s : State) : calm (spoilDemand cause s) = calm s := by simp [spoilDemand]

@[simp] theorem startSub_calm (utc : Nat) (cause : Nat) (s : State) : calm (startSub utc cause s) = calm s := by simp [startSub]

@[simp] theorem creditDemand_calm (utc : Nat) (cause : Nat) (demand : Int) (s : State) : calm (creditDemand utc cause demand s) = calm s := by simp [creditDemand]

@[simp] theorem writeDemand_calm (s : State) : calm (writeDemand s) = calm s := by simp [writeDemand]

@[simp] theorem endSub_calm (utc : Nat) (cause : Nat) (nextCause : Nat) (s : State) : calm (endSub utc cause nextCause s) = calm s := by simp [endSub]

@[simp] theorem demandStep_calm (utc : Nat) (local' : Int) (s : State) : calm (demandStep utc local' s) = calm s := by
  unfold demandStep; split <;> simp

@[simp] theorem demandInvalid_calm (s : State) : calm (demandInvalid s) = calm s := by simp [demandInvalid]

@[simp] theorem periodStep_calm (utc : Nat) (s : State) : calm (periodStep utc s) = calm s := by
  unfold periodStep
  repeat (any_goals (first | (simp; done) | split | (refine guarded_calm _ _ _ (fun _ => ?_)) | (refine foldl_calm _ (fun _ _ => ?_) _ _) | (refine elim_calm _ _ _ _ ?_ (fun _ => ?_)) | (rename_i h; have h2 := congrArg (fun x => calm (Prod.fst x)) h; simp at h2; simp [← h2]; done) | dsimp only))

@[simp] theorem useEmergency_calm (o : Outlet) (a : Account) (s : State) : calm (useEmergency o a s) = calm s := by simp [useEmergency]

@[simp] theorem setOutletBill_calm (o : Outlet) (f : OutletBill → OutletBill) (s : State) : calm (setOutletBill o f s) = calm s := by simp [setOutletBill]

@[simp] theorem setOpenRec_calm (o : Outlet) (f : OpenRecord → OpenRecord) (s : State) : calm (setOpenRec o f s) = calm s := by simp [setOpenRec]

@[simp] theorem exhausted_calm (o : Outlet) (a : Account) (s : State) : calm (exhausted o a s) = calm s := by simp [exhausted]

@[simp] theorem creditStep_calm (o : Outlet) (s : State) : calm (creditStep o s) = calm s := by
  unfold creditStep; split <;> simp

@[simp] theorem closeCut_calm (o : Outlet) (s : State) : calm (closeCut o s) = calm s := by simp [closeCut]

@[simp] theorem tariffStep_calm (s : State) : calm (tariffStep s) = calm s := by simp [tariffStep]

@[simp] theorem evaluate_calm (s : State) : calm (evaluate s) = calm s := by
  unfold evaluate; split <;> simp

@[simp] theorem logTamper_calm (e : TamperEvent) (overflow : Nat) (s : State) : calm (logTamper e overflow s) = calm s := by simp [logTamper]

@[simp] theorem drainTamper_calm (s : State) : calm (drainTamper s) = calm s := by
  unfold drainTamper
  repeat (any_goals (first | (simp; done) | split | (refine guarded_calm _ _ _ (fun _ => ?_)) | (refine foldl_calm _ (fun _ _ => ?_) _ _) | (refine elim_calm _ _ _ _ ?_ (fun _ => ?_)) | (rename_i h; have h2 := congrArg (fun x => calm (Prod.fst x)) h; simp at h2; simp [← h2]; done) | dsimp only))

@[simp] theorem logAccount_calm (origin : Nat) (index : Nat) (kind : Nat) (amount : Int) (s : State) : calm (logAccount origin index kind amount s) = calm s := by simp [logAccount]

@[simp] theorem loadAccount_calm (origin : Nat) (s : State) (e : List Byte) : calm (loadAccount origin s e) = calm s := by simp [loadAccount]

@[simp] theorem applyAccounts_calm (origin : Nat) (b : List Byte) (s : State) : calm (applyAccounts origin b s).1 = calm s := by
  unfold applyAccounts
  repeat (any_goals (first | (simp; done) | split | (refine guarded_calm _ _ _ (fun _ => ?_)) | (refine foldl_calm _ (fun _ _ => ?_) _ _) | (refine elim_calm _ _ _ _ ?_ (fun _ => ?_)) | (rename_i h; have h2 := congrArg (fun x => calm (Prod.fst x)) h; simp at h2; simp [← h2]; done) | dsimp only))

@[simp] theorem creditAccount_calm (origin : Nat) (a : Account) (amount : Int) (s : State) : calm (creditAccount origin a amount s) = calm s := by simp [creditAccount]

@[simp] theorem countPhases_calm (ps : List WinPos) (before : State) (o : Outlet) (s : State) : calm (countPhases ps before o s) = calm s := by simp [countPhases]

@[simp] theorem limitStep_calm (o : Outlet) (s : State) : calm (limitStep o s) = calm s := by simp [limitStep]

@[simp] theorem outletStep_calm (o : Outlet) (s : State) : calm (outletStep o s) = calm s := by simp [outletStep]

@[simp] theorem logMode_calm (old : BitVec 16) (new : BitVec 16) (e : Int) (freq : Nat) (s : State) : calm (logMode old new e freq s) = calm s := by simp [logMode]

@[simp] theorem logPackage_calm (origin : Nat) (r : Nat) (status : Nat) (step : Nat) (h : List Byte) (s : State) : calm (logPackage origin r status step h s) = calm s := by simp [logPackage]

@[simp] theorem setDom_calm (f : Domains → Domains) (s : State) : calm (setDom f s) = calm s := by simp [setDom]

@[simp] theorem setHealth_calm (d : Nat) (w : BitVec 32) (s : State) : calm (setHealth d w s) = calm s := by simp [setHealth]

@[simp] theorem failHealth_calm (d : Nat) (bit : Nat) (s : State) : calm (failHealth d bit s) = calm s := by simp [failHealth]

@[simp] theorem logTakeover_calm (cause : Nat) (source : Nat) (target : Nat) (slot : Nat) (cycle : U32) (replayed : Nat) (gap : Nat) (s : State) : calm (logTakeover cause source target slot cycle replayed gap s) = calm s := by simp [logTakeover]

@[simp] theorem writeSeed_calm (flagBits : Nat) (clocks : Nat) (s : State) : calm (writeSeed flagBits clocks s) = calm s := by simp [writeSeed]

@[simp] theorem cutSessions_calm (s : State) : calm (cutSessions s) = calm s := by simp [cutSessions]

@[simp] theorem restoreDomain_calm (seed : Option Nat) (s : State) : calm (restoreDomain seed s) = calm s := by simp [restoreDomain]

@[simp] theorem logRake_calm (duration : List Byte) (peak : List Byte) (s : State) : calm (logRake duration peak s) = calm s := by simp [logRake]

@[simp] theorem cardNotDelivered_calm (port : Fin 2) (cause : Nat) (std : Nat) (ident : List Byte) (s : State) : calm (cardNotDelivered port cause std ident s) = calm s := by simp [cardNotDelivered]

@[simp] theorem logNodePresence_calm (node : Nat) (absent : Nat) (index : Nat) (s : State) : calm (logNodePresence node absent index s) = calm s := by simp [logNodePresence]

@[simp] theorem sendSafe_calm (type : Nat) (s : State) : calm (sendSafe type s) = calm s := by simp [sendSafe]

@[simp] theorem putSource_calm (x : SafeSource) (s : State) : calm (putSource x s) = calm s := by simp [putSource]

@[simp] theorem safeFault_calm (slot : Nat) (kind : Nat) (path : List Byte) (seq : List Byte) (s : State) : calm (safeFault slot kind path seq s) = calm s := by simp [safeFault]

@[simp] theorem takeGroup_calm (slot : Nat) (bytes : List Byte) (s : State) : calm (takeGroup slot bytes s) = calm s := by simp [takeGroup]

@[simp] theorem takePair_calm (slot : Nat) (bytes : List Byte) (s : State) : calm (takePair slot bytes s) = calm s := by simp [takePair]

@[simp] theorem takeCopy_calm (slot : Nat) (path : Path) (bytes : List Byte) (s : State) : calm (takeCopy slot path bytes s) = calm s := by
  unfold takeCopy
  repeat (any_goals (first | (simp; done) | split | (refine guarded_calm _ _ _ (fun _ => ?_)) | (refine foldl_calm _ (fun _ _ => ?_) _ _) | (refine elim_calm _ _ _ _ ?_ (fun _ => ?_)) | (rename_i h; have h2 := congrArg (fun x => calm (Prod.fst x)) h; simp at h2; simp [← h2]; done) | dsimp only))

@[simp] theorem receiveSafe_calm (path : Path) (bytes : List Byte) (s : State) : calm (receiveSafe path bytes s) = calm s := by simp [receiveSafe]

@[simp] theorem logMastership_calm (old : Nat) (new : Nat) (cause : Nat) (s : State) : calm (logMastership old new cause s) = calm s := by simp [logMastership]

@[simp] theorem logMember_calm (slot : Nat) (absent : Nat) (s : State) : calm (logMember slot absent s) = calm s := by simp [logMember]

@[simp] theorem enableTamper_calm (s : State) : calm (enableTamper s) = calm s := by simp [enableTamper]

@[simp] theorem imageTariffs_calm (last : Option Digest) (s : State) : calm (imageTariffs last s) = calm s := by simp [imageTariffs]

@[simp] theorem readImage_calm (s : State) : calm (readImage s) = calm s := by simp [readImage]

@[simp] theorem chooseDomain_calm (s : State) : calm (chooseDomain s) = calm s := by simp [chooseDomain]

@[simp] theorem recoveryNetwork_calm (s : State) : calm (recoveryNetwork s) = calm s := by simp [recoveryNetwork]

@[simp] theorem failDomain_calm (d : Nat) (failed : Bool) (s : State) : calm (failDomain d failed s) = calm s := by simp [failDomain]

@[simp] theorem endTls_calm (s : State) : calm (endTls s) = calm s := by simp [endTls]

@[simp] theorem newBlock_calm (agrees : Bool) (s : State) : calm (newBlock agrees s) = calm s := by simp [newBlock]

@[simp] theorem freshHealth_calm (s : State) : calm (freshHealth s) = calm s := by simp [freshHealth]

@[simp] theorem holdIdle_calm (s : State) : calm (holdIdle s) = calm s := by simp [holdIdle]

@[simp] theorem logRestart_calm (cause : Nat) (result : Nat) (s : State) : calm (logRestart cause result s) = calm s := by simp [logRestart]

@[simp] theorem spoilSeed_calm (slot : Nat) (s : State) : calm (spoilSeed slot s) = calm s := by simp [spoilSeed]

@[simp] theorem logDoubleBit_calm (array : Nat) (elem : Nat) (addr : Nat) (s : State) : calm (logDoubleBit array elem addr s) = calm s := by simp [logDoubleBit]

@[simp] theorem logSowing_calm (x : Sowing) (t : SowTarget) (s : State) : calm (logSowing x t s) = calm s := by simp [logSowing]

@[simp] theorem followTime_calm (body : List Byte) (s : State) : calm (followTime body s) = calm s := by simp [followTime]

@[simp] theorem logPower_calm (old : PowerState) (new : PowerState) (s : State) : calm (logPower old new s) = calm s := by simp [logPower]

@[simp] theorem pilotsOff_calm (s : State) : calm (pilotsOff s) = calm s := by simp [pilotsOff]

@[simp] theorem loseEntries_calm (s : State) : calm (loseEntries s) = calm s := by simp [loseEntries]

@[simp] theorem endSessions_calm (s : State) : calm (endSessions s) = calm s := by simp [endSessions]

@[simp] theorem logButton_calm (held : Nat) (action : Nat) (s : State) : calm (logButton held action s) = calm s := by simp [logButton]

@[simp] theorem reportLatch_calm (i : Nat) (s : State) : calm (reportLatch i s) = calm s := by simp [reportLatch]

@[simp] theorem tripChannel_calm (i : Nat) (cause : Nat) (sample : List Byte) (dT : List Byte) (s : State) : calm (tripChannel i cause sample dT s) = calm s := by simp [tripChannel]

@[simp] theorem takeNormal_calm (i : Nat) (s : State) (sample : Nat) : calm (takeNormal i s sample) = calm s := by simp [takeNormal]

@[simp] theorem putOpenLoad_calm (i : Nat) (mean : Nat) (v : Bool) (s : State) : calm (putOpenLoad i mean v s) = calm s := by simp [putOpenLoad]

@[simp] theorem putOver_calm (g : Nat) (v : Bool) (s : State) : calm (putOver g v s) = calm s := by simp [putOver]

@[simp] theorem checkGroup_calm (g : Nat) (mean : Nat) (s : State) : calm (checkGroup g mean s) = calm s := by
  unfold checkGroup; repeat' split
  all_goals simp

@[simp] theorem forGroup_calm (g : Nat) (f : Nat → Switch → Switch) (s : State) : calm (forGroup g f s) = calm s := by simp [forGroup]

@[simp] theorem logSupply_calm (g : Nat) (release : Bool) (lowest : Nat) (s : State) : calm (logSupply g release lowest s) = calm s := by simp [logSupply]

@[simp] theorem drawMany_calm (n : Nat) (s : State) : calm (drawMany n s) = calm s := by simp [drawMany]

end Sys2Proof.Machine
end

