-- ==== Sys2Proof/Laws/Kept.lean ====
section
/-! SUPPORT. What almost no operation touches: the queue, the OTP, and the lengths of the caches and of the transfer
record of the host link (R52, R519). One lemma per operation. -/

set_option linter.unusedSimpArgs false

namespace Sys2Proof.Machine

/-- The part of a state that this file is about. -/
structure Kept where
  pending : List Instr
  otp : Otp
  ne0 : Nat
  ne1 : Nat
  nspi : Nat
  nt : Nat

/-- That part of a state. -/
def kept (s : State) : Kept := ⟨s.pending, s.otp, s.host.e0.cache.length, s.host.e1.cache.length, s.host.spi.cache.length, s.host.transfers.length⟩

@[simp] theorem ite_kept (c : Prop) [Decidable c] (a b : State) : kept (if c then a else b) = if c then kept a else kept b := by split <;> rfl

@[simp] theorem foldl_kept {α : Type} (f : State → α → State) (hf : ∀ t a, kept (f t a) = kept t) (l : List α) (s : State) :
    kept (l.foldl f s) = kept s := by
  induction l generalizing s with
  | nil => rfl
  | cons a l ih => simp [ih, hf]

theorem elim_kept {α : Type} (o : Option α) (a : State) (f : α → State) (k : Kept) (ha : kept a = k) (hf : ∀ x, kept (f x) = k) : kept (o.elim a f) = k := by
  cases o with
  | none => exact ha
  | some x => exact hf x

@[simp] theorem kept_mk pending clockMs freeCount out_ power fabric sun cfg logs host acq energy link sess hedge sw bill disp otp cis dom trellis wadi update reader0 reader1 tag rake :
    kept (State.mk pending clockMs freeCount out_ power fabric sun cfg logs host acq energy link sess hedge sw bill disp otp cis dom trellis wadi update reader0 reader1 tag rake) = ⟨pending, otp, host.e0.cache.length, host.e1.cache.length, host.spi.cache.length, host.transfers.length⟩ := rfl

@[simp] theorem kept_eta (t : State) : Kept.mk t.pending t.otp t.host.e0.cache.length t.host.e1.cache.length t.host.spi.cache.length t.host.transfers.length = kept t := rfl

@[simp] theorem draw_kept (s : State) : kept (draw s) = kept s := by simp [draw]

@[simp] theorem emit_kept (o : Out) (s : State) : kept (emit o s) = kept s := by simp [emit]

@[simp] theorem releaseRecords_kept (o : Outlet) (s : State) : kept (releaseRecords o s) = kept s := by simp [releaseRecords]

@[simp] theorem addGeneral_kept (e : LogEntry) (s : State) : kept (addGeneral e s) = kept s := by simp [addGeneral]

@[simp] theorem addLegal_kept (e : LogEntry) (s : State) : kept (addLegal e s) = kept s := by simp [addLegal]

@[simp] theorem journal_kept (kind : Nat) (object : Nat) (seq : Nat) (s : State) : kept (journal kind object seq s) = kept s := by simp [journal]

@[simp] theorem log_kept (origin : Nat) (sub : Nat) (code : Nat) (detail : List Byte) (legal : Bool) (s : State) : kept (log origin sub code detail legal s) = kept s := by simp [log]

@[simp] theorem setSess_kept (o : Outlet) (f : Session → Session) (s : State) : kept (setSess o f s) = kept s := by simp [setSess]

@[simp] theorem setConv_kept (o : Outlet) (f : Converter → Converter) (s : State) : kept (setConv o f s) = kept s := by simp [setConv]

@[simp] theorem setLink_kept (o : Outlet) (f : Link → Link) (s : State) : kept (setLink o f s) = kept s := by simp [setLink]

@[simp] theorem setHedge_kept (o : Outlet) (f : HedgeOutlet → HedgeOutlet) (s : State) : kept (setHedge o f s) = kept s := by simp [setHedge]

@[simp] theorem setScr_kept (o : Outlet) (f : Scarecrow → Scarecrow) (s : State) : kept (setScr o f s) = kept s := by simp [setScr]

@[simp] theorem forOutlets_kept (f : Outlet → State → State) (s : State) (hf : ∀ o t, kept (f o t) = kept t) : kept (forOutlets f s) = kept s := by
  simp [forOutlets, hf]

@[simp] theorem spiTransfer_kept (p : Port) (s : State) : kept (spiTransfer p s) = kept s := rfl

@[simp] theorem present_kept (s : State) : kept (present s) = kept s := rfl

@[simp] theorem sendPacket_kept (p : Packet) (s : State) : kept (sendPacket p s) = kept s := by
  simp [sendPacket, emit]

@[simp] theorem setOrigin_kept (p : Port) (f : Origin → Origin) (s : State) (hf : ∀ o, (f o).cache.length = o.cache.length) : kept (setOrigin p f s) = kept s := by
  unfold setOrigin; split <;> simp [hf]

@[simp] theorem sendEvent_kept (port : Port) (cls : Nat) (opcode : Nat) (payload : List Byte) (s : State) : kept (sendEvent port cls opcode payload s) = kept s := by simp [sendEvent]

@[simp] theorem eventAll_kept (cls : Nat) (opcode : Nat) (payload : List Byte) (s : State) : kept (eventAll cls opcode payload s) = kept s := by simp [eventAll]

@[simp] theorem plainResponse_kept (port : Port) (cls : Nat) (opcode : Nat) (seq : U32) (status : Nat) (payload : List Byte) (s : State) : kept (plainResponse port cls opcode seq status payload s) = kept s := by simp [plainResponse]

@[simp] theorem authFailure_kept (opcode : Nat) (r : Request) (s : State) : kept (authFailure opcode r s) = kept s := by simp [authFailure]

@[simp] theorem runRequest_kept (op : OpSpec) (r : Request) (act : State → State × Answer) (s : State) (hf : ∀ t, kept (act t).1 = kept t) : kept (runRequest op r act s).1 = kept s := by
  unfold runRequest; repeat' split
  all_goals simp [hf]

@[simp] theorem refuse_kept (status : Nat) (s : State) : kept (refuse status s).1 = kept s := by simp [refuse]

@[simp] theorem done_kept (s : State) : kept (done s).1 = kept s := by simp [done]

@[simp] theorem reply_kept (payload : List Byte) (s : State) : kept (reply payload s).1 = kept s := by simp [reply]

@[simp] theorem guarded_kept (checks : List Nat) (act : State → State × Answer) (s : State) (hf : ∀ t, kept (act t).1 = kept t) : kept (guarded checks act s).1 = kept s := by
  unfold guarded; split <;> simp [hf]

@[simp] theorem bulkRead_kept (object : List Byte) (r : Request) (s : State) : kept (bulkRead object r s).1 = kept s := by simp [bulkRead]

@[simp] theorem closeTransfer_kept (id : Nat) (st : TransferState) (status : Nat) (s : State) : kept (closeTransfer id st status s) = kept s := by simp [closeTransfer]

@[simp] theorem setCis_kept (f : Cistern → Cistern) (s : State) : kept (setCis f s) = kept s := by simp [setCis]

@[simp] theorem putKeyBlock_kept (b : KeyBlock) (s : State) : kept (putKeyBlock b s) = kept s := by simp [putKeyBlock]

@[simp] theorem putStatements_kept (xs : List Statement) (s : State) : kept (putStatements xs s) = kept s := by
  unfold putStatements; split <;> simp

@[simp] theorem logStatement_kept (x : Statement) (s : State) : kept (logStatement x s) = kept s := by simp [logStatement]

@[simp] theorem bringInForce_kept (x : Statement) (s : State) : kept (bringInForce x s) = kept s := by simp [bringInForce]

@[simp] theorem signed_kept (s : State) : kept (signed s) = kept s := by
  unfold signed; repeat' split
  all_goals simp

@[simp] theorem archiveLegal_kept (origin : Nat) (s : State) : kept (archiveLegal origin s) = kept s := by simp [archiveLegal]

@[simp] theorem releaseIrq_kept (s : State) : kept (releaseIrq s) = kept s := by simp [releaseIrq]

@[simp] theorem setSun_kept (f : Sundial → Sundial) (s : State) : kept (setSun f s) = kept s := by simp [setSun]

@[simp] theorem ring_kept (d : Doorbell) (s : State) : kept (ring d s) = kept s := by simp [ring]

@[simp] theorem ringPassed_kept (lo : Nat) (hi : Nat) (s : State) : kept (ringPassed lo hi s) = kept s := by simp [ringPassed]

@[simp] theorem ringCycle_kept (s : State) : kept (ringCycle s) = kept s := by simp [ringCycle]

@[simp] theorem reachAngle_kept (angle : Nat) (s : State) : kept (reachAngle angle s) = kept s := by simp [reachAngle]

@[simp] theorem dialAtLeast_kept (angle : Nat) (s : State) : kept (dialAtLeast angle s) = kept s := by simp [dialAtLeast]

@[simp] theorem tick_kept (s : State) : kept (tick s) = kept s := by simp [tick]

@[simp] theorem setAcq_kept (f : Acquisition → Acquisition) (s : State) : kept (setAcq f s) = kept s := by simp [setAcq]

@[simp] theorem setChan_kept (c : Nat) (f : ChanState → ChanState) (s : State) : kept (setChan c f s) = kept s := by simp [setChan]

@[simp] theorem takeProtect_kept (st : ChanStream) (s : State) : kept (takeProtect st s) = kept s := by simp [takeProtect]

@[simp] theorem takeSample_kept (k : Nat) (tk : Nat) (st : ChanStream) (s : State) : kept (takeSample k tk st s) = kept s := by
  unfold takeSample
  repeat (any_goals (first | (simp; done) | split | (refine guarded_kept _ _ _ (fun _ => ?_)) | (refine foldl_kept _ (fun _ _ => ?_) _ _) | (refine elim_kept _ _ _ _ ?_ (fun _ => ?_)) | (rename_i h; have h2 := congrArg (fun x => kept (Prod.fst x)) h; simp at h2; simp [← h2]; done) | dsimp only))

@[simp] theorem takeRaw_kept (k : Nat) (tk : Nat) (st : ChanStream) (s : State) : kept (takeRaw k tk st s) = kept s := by
  unfold takeRaw; repeat' split
  all_goals simp

@[simp] theorem noteStuck_kept (c : Nat) (s : State) : kept (noteStuck c s) = kept s := by simp [noteStuck]

@[simp] theorem holdMet_kept (e : Nat) (s : State) : kept (holdMet e s) = kept s := by simp [holdMet]

@[simp] theorem startMclk_kept (s : State) : kept (startMclk s) = kept s := by simp [startMclk]

@[simp] theorem changeMclk_kept (s : State) : kept (changeMclk s) = kept s := by simp [changeMclk]

@[simp] theorem reloadPath_kept (s : State) : kept (reloadPath s) = kept s := by simp [reloadPath]

@[simp] theorem reloadLegal_kept (slotB : Bool) (s : State) : kept (reloadLegal slotB s) = kept s := by simp [reloadLegal]

@[simp] theorem legalBoundary_kept (s : State) : kept (legalBoundary s) = kept s := by simp [legalBoundary]

@[simp] theorem measureBoundary_kept (s : State) : kept (measureBoundary s) = kept s := by
  unfold measureBoundary; split <;> simp

@[simp] theorem acquisitionBoundary_kept (tc : Nat) (s : State) : kept (acquisitionBoundary tc s) = kept s := by simp [acquisitionBoundary]

@[simp] theorem dropTrials_kept (s : State) : kept (dropTrials s) = kept s := by simp [dropTrials]

@[simp] theorem leaveService_kept (s : State) : kept (leaveService s) = kept s := dropTrials_kept s

@[simp] theorem sendCan_kept (f : CanOut) (s : State) : kept (sendCan f s) = kept s := by simp [sendCan]

@[simp] theorem sendNative_kept (channel : Nat) (code : Nat) (addr : Nat) (data : List Byte) (urgent : Bool) (s : State) : kept (sendNative channel code addr data urgent s) = kept s := by simp [sendNative]

@[simp] theorem sendSetpoint_kept (o : Outlet) (s : State) : kept (sendSetpoint o s) = kept s := by simp [sendSetpoint]

@[simp] theorem sendHeartbeat_kept (s : State) : kept (sendHeartbeat s) = kept s := by simp [sendHeartbeat]

@[simp] theorem sendTripFrame_kept (w : TripWait) (s : State) : kept (sendTripFrame w s) = kept s := by simp [sendTripFrame]

@[simp] theorem freshNmk_kept (o : Outlet) (s : State) : kept (freshNmk o s) = kept s := by simp [freshNmk]

@[simp] theorem applyGen_kept (o : Outlet) (g : Generator) (s : State) : kept (applyGen o g s) = kept s := by simp [applyGen]

@[simp] theorem queueGen_kept (o : Outlet) (g : Generator) (s : State) : kept (queueGen o g s) = kept s := by simp [queueGen]

@[simp] theorem startPeriod_kept (o : Outlet) (s : State) : kept (startPeriod o s) = kept s := by
  unfold startPeriod
  repeat (any_goals (first | (simp; done) | split | (refine guarded_kept _ _ _ (fun _ => ?_)) | (refine foldl_kept _ (fun _ _ => ?_) _ _) | (refine elim_kept _ _ _ _ ?_ (fun _ => ?_)) | (rename_i h; have h2 := congrArg (fun x => kept (Prod.fst x)) h; simp at h2; simp [← h2]; done) | dsimp only))

@[simp] theorem startPeriods_kept (s : State) : kept (startPeriods s) = kept s := by simp [startPeriods]

@[simp] theorem commandGen_kept (o : Outlet) (g : Generator) (s : State) : kept (commandGen o g s) = kept s := by simp [commandGen]

@[simp] theorem closeTcp_kept (o : Outlet) (s : State) : kept (closeTcp o s) = kept s := by simp [closeTcp]

@[simp] theorem endLink_kept (o : Outlet) (s : State) : kept (endLink o s) = kept s := by simp [endLink]

@[simp] theorem beginLink_kept (o : Outlet) (s : State) : kept (beginLink o s) = kept s := by simp [beginLink]

@[simp] theorem setNextAlloc_kept (w : List Int) (s : State) : kept (setNextAlloc w s) = kept s := by simp [setNextAlloc]

@[simp] theorem setSw_kept (f : Switches → Switches) (s : State) : kept (setSw f s) = kept s := by simp [setSw]

@[simp] theorem setChanSw_kept (i : Nat) (f : Switch → Switch) (s : State) : kept (setChanSw i f s) = kept s := by simp [setChanSw]

@[simp] theorem driveChannels_kept (s : State) : kept (driveChannels s) = kept s := by simp [driveChannels]

@[simp] theorem commandChannel_kept (i : Nat) (on : Bool) (s : State) : kept (commandChannel i on s) = kept s := by simp [commandChannel]

@[simp] theorem commandContactors_kept (o : Outlet) (on : Bool) (s : State) : kept (commandContactors o on s) = kept s := by simp [commandContactors]

@[simp] theorem followLoads_kept (s : State) : kept (followLoads s) = kept s := by simp [followLoads]

@[simp] theorem latchChannel_kept (i : Nat) (cause : Nat) (sample : List Byte) (dT : List Byte) (s : State) : kept (latchChannel i cause sample dT s) = kept s := by simp [latchChannel]

@[simp] theorem startChannels_kept (s : State) : kept (startChannels s) = kept s := by simp [startChannels]

@[simp] theorem reloadChannels_kept (s : State) : kept (reloadChannels s) = kept s := by simp [reloadChannels]

@[simp] theorem setHedgeM_kept (f : Hedge → Hedge) (s : State) : kept (setHedgeM f s) = kept s := by simp [setHedgeM]

@[simp] theorem seePilot_kept (o : Outlet) (high : Int) (low : Int) (s : State) : kept (seePilot o high low s) = kept s := by simp [seePilot]

@[simp] theorem hedgePermit_kept (o : Outlet) (s : State) : kept (hedgePermit o s) = kept s := by simp [hedgePermit]

@[simp] theorem scrPermit_kept (o : Outlet) (s : State) : kept (scrPermit o s) = kept s := by simp [scrPermit]

@[simp] theorem driveSafeOk_kept (s : State) : kept (driveSafeOk s) = kept s := by simp [driveSafeOk]

@[simp] theorem hedgeCauses_kept (o : Outlet) (s : State) : kept (hedgeCauses o s) = kept s := by simp [hedgeCauses]

@[simp] theorem refreshSafety_kept (s : State) : kept (refreshSafety s) = kept s := by simp [refreshSafety]

@[simp] theorem requestTrip_kept (mask : Nat) (reason : Nat) (s : State) : kept (requestTrip mask reason s) = kept s := by
  unfold requestTrip
  repeat (any_goals (first | (simp; done) | split | (refine guarded_kept _ _ _ (fun _ => ?_)) | (refine foldl_kept _ (fun _ _ => ?_) _ _) | (refine elim_kept _ _ _ _ ?_ (fun _ => ?_)) | (rename_i h; have h2 := congrArg (fun x => kept (Prod.fst x)) h; simp at h2; simp [← h2]; done) | dsimp only))

@[simp] theorem logTrip_kept (outlet : Nat) (bit : List Byte) (value : List Byte) (mask : Option Nat) (s : State) : kept (logTrip outlet bit value mask s) = kept s := by simp [logTrip]

@[simp] theorem tripSwitches_kept (weld : Bool) (o : Outlet) (s : State) : kept (tripSwitches weld o s) = kept s := by simp [tripSwitches]

@[simp] theorem tripOutlet_kept (o : Outlet) (bit : Nat) (reason : Option Nat) (value : List Byte) (s : State) : kept (tripOutlet o bit reason value s) = kept s := by
  unfold tripOutlet
  repeat (any_goals (first | (simp; done) | split | (refine guarded_kept _ _ _ (fun _ => ?_)) | (refine foldl_kept _ (fun _ _ => ?_) _ _) | (refine elim_kept _ _ _ _ ?_ (fun _ => ?_)) | (rename_i h; have h2 := congrArg (fun x => kept (Prod.fst x)) h; simp at h2; simp [← h2]; done) | dsimp only))

@[simp] theorem tripModule_kept (k : ModuleTrip) (s : State) : kept (tripModule k s) = kept s := by simp [tripModule]

@[simp] theorem logReset_kept (origin : Nat) (outlet : Nat) (cleared : Nat) (remaining : Nat) (s : State) : kept (logReset origin outlet cleared remaining s) = kept s := by simp [logReset]

@[simp] theorem resetOutlet_kept (origin : Nat) (o : Outlet) (s : State) : kept (resetOutlet origin o s).1 = kept s := by
  unfold resetOutlet
  repeat (any_goals (first | (simp; done) | split | (refine guarded_kept _ _ _ (fun _ => ?_)) | (refine foldl_kept _ (fun _ _ => ?_) _ _) | (refine elim_kept _ _ _ _ ?_ (fun _ => ?_)) | (rename_i h; have h2 := congrArg (fun x => kept (Prod.fst x)) h; simp at h2; simp [← h2]; done) | dsimp only))

@[simp] theorem resetModule_kept (origin : Nat) (s : State) : kept (resetModule origin s).1 = kept s := by
  unfold resetModule; dsimp only; split
  · rfl
  · simp [logReset, setHedgeM]

@[simp] theorem takeBlock_kept (block : List Byte) (agrees : Bool) (tag : Option Nat) (old : Option Nat) (s : State) : kept (takeBlock block agrees tag old s) = kept s := by
  unfold takeBlock; repeat' split
  all_goals simp

@[simp] theorem confirmCheck_kept (path : Nat) (origin : Nat) (value : Nat) (s : State) : kept (confirmCheck path origin value s).1 = kept s := by
  unfold confirmCheck; repeat' split
  all_goals simp

@[simp] theorem scrAction_kept (o : Outlet) (row : Nat) (cuts : Bool) (measured : List Byte) (limit : List Byte) (s : State) : kept (scrAction o row cuts measured limit s) = kept s := by simp [scrAction]

@[simp] theorem withhold_kept (o : Outlet) (p : Setpoint) (s : State) : kept (withhold o p s) = kept s := by simp [withhold]

@[simp] theorem releaseSetpoint_kept (o : Outlet) (s : State) : kept (releaseSetpoint o s) = kept s := by simp [releaseSetpoint]

@[simp] theorem putSetpoint_kept (o : Outlet) (p : Setpoint) (s : State) : kept (putSetpoint o p s) = kept s := by simp [putSetpoint]

@[simp] theorem writeReply_kept (o : Outlet) (f : StandingFields) (s : State) : kept (writeReply o f s) = kept s := by simp [writeReply]

@[simp] theorem renewReply_kept (o : Outlet) (s : State) : kept (renewReply o s) = kept s := by simp [renewReply]

@[simp] theorem freshReply_kept (o : Outlet) (s : State) : kept (freshReply o s) = kept s := by simp [freshReply]

@[simp] theorem renewReplies_kept (s : State) : kept (renewReplies s) = kept s := by simp [renewReplies]

@[simp] theorem followReply_kept (o : Outlet) (s : State) : kept (followReply o s) = kept s := by simp [followReply]

@[simp] theorem updateSet_kept (o : Outlet) (s : State) : kept (updateSet o s) = kept s := by simp [updateSet]

@[simp] theorem setSieve_kept (f : List SieveEntry → List SieveEntry) (s : State) : kept (setSieve f s) = kept s := by simp [setSieve]

@[simp] theorem setUpdate_kept (f : Update → Update) (s : State) : kept (setUpdate f s) = kept s := by simp [setUpdate]

@[simp] theorem setRegion_kept (r : Nat) (f : Region → Region) (s : State) : kept (setRegion r f s) = kept s := by simp [setRegion]

@[simp] theorem setSlot_kept (r : Nat) (b : Bool) (f : RegionSlot → RegionSlot) (s : State) : kept (setSlot r b f s) = kept s := by simp [setSlot]

@[simp] theorem writeDirectory_kept (f : Update → Update) (s : State) : kept (writeDirectory f s) = kept s := by simp [writeDirectory]

@[simp] theorem updateLog_kept (origin : Nat) (code : Nat) (mask : Nat) (detail : List Byte) (s : State) : kept (updateLog origin code mask detail s) = kept s := by simp [updateLog]

@[simp] theorem logChanges_kept (slot : Nat) (serial : Nat) (recs : List Rec) (s : State) : kept (logChanges slot serial recs s) = kept s := by
  unfold logChanges; split <;> simp

@[simp] theorem useImage_kept (slot : Nat) (b : List Byte) (s : State) : kept (useImage slot b s) = kept s := by simp [useImage]

@[simp] theorem useDefaults_kept (s : State) : kept (useDefaults s) = kept s := by simp [useDefaults]

@[simp] theorem logSlotFallback_kept (slot : Nat) (failed : Nat) (inForce : Nat) (other : Nat) (s : State) : kept (logSlotFallback slot failed inForce other s) = kept s := by simp [logSlotFallback]

@[simp] theorem readConfiguration_kept (s : State) : kept (readConfiguration s) = kept s := by simp [readConfiguration]

@[simp] theorem setEnergy_kept (f : Energy → Energy) (s : State) : kept (setEnergy f s) = kept s := by simp [setEnergy]

@[simp] theorem logCorrupt_kept (m : Nat) (x : Register) (s : State) : kept (logCorrupt m x s) = kept s := by simp [logCorrupt]

@[simp] theorem putReg_kept (m : Nat) (x : Register) (s : State) : kept (putReg m x s) = kept s := by simp [putReg]

@[simp] theorem logRun_kept (m : Nat) (w : RegWindow) (old : Register) (new : Register) (s : State) : kept (logRun m w old new s) = kept s := by simp [logRun]

@[simp] theorem commitRegister_kept (s : State) (x : Nat × RegWindow) : kept (commitRegister s x) = kept s := by simp [commitRegister]

@[simp] theorem commitPulses_kept (incs : List Int) (s : State) : kept (commitPulses incs s) = kept s := by simp [commitPulses]

@[simp] theorem setPulse_kept (m : Nat) (f : Pulse → Pulse) (s : State) : kept (setPulse m f s) = kept s := by simp [setPulse]

@[simp] theorem writeCommit_kept (partialKind : Bool) (angle : Nat) (s : State) : kept (writeCommit partialKind angle s) = kept s := by simp [writeCommit]

@[simp] theorem markCorrupt_kept (m : Nat) (s : State) : kept (markCorrupt m s) = kept s := by simp [markCorrupt]

@[simp] theorem logLost_kept (at' : Stamp) (s : State) : kept (logLost at' s) = kept s := by simp [logLost]

@[simp] theorem residueStep_kept (e : Nat) (r : ResidueOutcome) (s : State) : kept (residueStep e r s) = kept s := by
  unfold residueStep; split <;> simp

@[simp] theorem reloadEnergy_kept (s : State) : kept (reloadEnergy s) = kept s := by simp [reloadEnergy]

@[simp] theorem applyRestores_kept (s : State) : kept (applyRestores s) = kept s := by simp [applyRestores]

@[simp] theorem commitWindow_kept (partialKind : Bool) (angle : Nat) (ps : List WinPos) (w : WindowInput) (s : State) : kept (commitWindow partialKind angle ps w s).1 = kept s := by
  unfold commitWindow
  repeat (any_goals (first | (simp; done) | split | (refine guarded_kept _ _ _ (fun _ => ?_)) | (refine foldl_kept _ (fun _ _ => ?_) _ _) | (refine elim_kept _ _ _ _ ?_ (fun _ => ?_)) | (rename_i h; have h2 := congrArg (fun x => kept (Prod.fst x)) h; simp at h2; simp [← h2]; done) | dsimp only))

@[simp] theorem startWindowAt_kept (k : Nat) (s : State) : kept (startWindowAt k s) = kept s := by simp [startWindowAt]

@[simp] theorem energyRegular_kept (w : WindowInput) (s : State) : kept (energyRegular w s).1 = kept s := by simp [energyRegular]

@[simp] theorem energyPartial_kept (w : WindowInput) (last : Nat) (s : State) : kept (energyPartial w last s).1 = kept s := by simp [energyPartial]

@[simp] theorem energyBoundary_kept (s : State) : kept (energyBoundary s) = kept s := by simp [energyBoundary]

@[simp] theorem writeMarker_kept (s : State) : kept (writeMarker s) = kept s := by simp [writeMarker]

@[simp] theorem restoreSnapshots_kept (s : State) : kept (restoreSnapshots s) = kept s := by simp [restoreSnapshots]

@[simp] theorem restoreEnergy_kept (badRegs : List Nat) (s : State) : kept (restoreEnergy badRegs s) = kept s := by
  unfold restoreEnergy; split <;> simp

@[simp] theorem snapshot_kept (ms : List Nat) (s : State) : kept (snapshot ms s) = kept s := by simp [snapshot]

@[simp] theorem snapshotAll_kept (s : State) : kept (snapshotAll s) = kept s := by simp [snapshotAll]

@[simp] theorem clearSessionStatus_kept (o : Outlet) (s : State) : kept (clearSessionStatus o s) = kept s := by simp [clearSessionStatus]

@[simp] theorem setBill_kept (f : Billing → Billing) (s : State) : kept (setBill f s) = kept s := by simp [setBill]

@[simp] theorem billOutlet_kept (changes : List Int) (o : Outlet) (s : State) : kept (billOutlet changes o s) = kept s := by simp [billOutlet]

@[simp] theorem writeBillingSlot_kept (partialKind : Bool) (s : State) : kept (writeBillingSlot partialKind s) = kept s := by simp [writeBillingSlot]

@[simp] theorem billWindow_kept (partialKind : Bool) (changes : List Int) (s : State) : kept (billWindow partialKind changes s) = kept s := by simp [billWindow]

@[simp] theorem billingBoundary_kept (s : State) : kept (billingBoundary s) = kept s := by simp [billingBoundary]

@[simp] theorem putAccount_kept (a : Account) (s : State) : kept (putAccount a s) = kept s := by simp [putAccount]

@[simp] theorem writeAccountStore_kept (s : State) : kept (writeAccountStore s) = kept s := by simp [writeAccountStore]

@[simp] theorem debit_kept (i : Nat) (cost : Int) (s : State) : kept (debit i cost s) = kept s := by
  unfold debit; split <;> simp

@[simp] theorem restoreAccounts_kept (s : State) : kept (restoreAccounts s) = kept s := by
  unfold restoreAccounts
  repeat (any_goals (first | (simp; done) | split | (refine guarded_kept _ _ _ (fun _ => ?_)) | (refine foldl_kept _ (fun _ _ => ?_) _ _) | (refine elim_kept _ _ _ _ ?_ (fun _ => ?_)) | (rename_i h; have h2 := congrArg (fun x => kept (Prod.fst x)) h; simp at h2; simp [← h2]; done) | dsimp only))

@[simp] theorem openRecord_kept (o : Outlet) (s : State) : kept (openRecord o s) = kept s := by simp [openRecord]

@[simp] theorem closeRecord_kept (o : Outlet) (reason : Nat) (s : State) : kept (closeRecord o reason s) = kept s := by
  unfold closeRecord
  repeat (any_goals (first | (simp; done) | split | (refine guarded_kept _ _ _ (fun _ => ?_)) | (refine foldl_kept _ (fun _ _ => ?_) _ _) | (refine elim_kept _ _ _ _ ?_ (fun _ => ?_)) | (rename_i h; have h2 := congrArg (fun x => kept (Prod.fst x)) h; simp at h2; simp [← h2]; done) | dsimp only))

@[simp] theorem closePeriod_kept (origin : Nat) (endUtc : Option Nat) (late : Bool) (byCommand : Bool) (s : State) : kept (closePeriod origin endUtc late byCommand s) = kept s := by simp [closePeriod]

@[simp] theorem useSlot_kept (b : BillingSlot) (badTariffs : List Nat) (changes : Option (List Int)) (s : State) : kept (useSlot b badTariffs changes s) = kept s := by simp [useSlot]

@[simp] theorem restoreBilling_kept (fromSlot : Bool) (badTariffs : List Nat) (s : State) : kept (restoreBilling fromSlot badTariffs s) = kept s := by
  unfold restoreBilling
  repeat (any_goals (first | (simp; done) | split | (refine guarded_kept _ _ _ (fun _ => ?_)) | (refine foldl_kept _ (fun _ _ => ?_) _ _) | (refine elim_kept _ _ _ _ ?_ (fun _ => ?_)) | (rename_i h; have h2 := congrArg (fun x => kept (Prod.fst x)) h; simp at h2; simp [← h2]; done) | dsimp only))

@[simp] theorem logClock_kept (origin : Nat) (kind : Nat) (old : Nat) (new : Nat) (delta : Int) (s : State) : kept (logClock origin kind old new delta s) = kept s := by simp [logClock]

@[simp] theorem clockStep_kept (origin : Nat) (utc : Nat) (ms : Nat) (s : State) : kept (clockStep origin utc ms s).1 = kept s := by
  unfold clockStep; repeat' split
  all_goals simp

@[simp] theorem clockSlew_kept (origin : Nat) (delta : Int) (s : State) : kept (clockSlew origin delta s).1 = kept s := by
  unfold clockSlew; repeat' split
  all_goals simp

@[simp] theorem goTo_kept (o : Outlet) (x : SState) (s : State) : kept (goTo o x s) = kept s := by simp [goTo]

@[simp] theorem setDrive_kept (o : Outlet) (on : Bool) (s : State) : kept (setDrive o on s) = kept s := by simp [setDrive]

@[simp] theorem closeSession_kept (o : Outlet) (reason : Nat) (s : State) : kept (closeSession o reason s) = kept s := by simp [closeSession]

@[simp] theorem applyAvailability_kept (o : Outlet) (s : State) : kept (applyAvailability o s) = kept s := by simp [applyAvailability]

@[simp] theorem enterS0_kept (o : Outlet) (s : State) : kept (enterS0 o s) = kept s := by simp [enterS0]

@[simp] theorem enterS9_kept (o : Outlet) (s : State) : kept (enterS9 o s) = kept s := by simp [enterS9]

@[simp] theorem enterSE_kept (o : Outlet) (reason : Nat) (s : State) : kept (enterSE o reason s) = kept s := by simp [enterSE]

@[simp] theorem enterS8_kept (o : Outlet) (s : State) : kept (enterS8 o s) = kept s := by simp [enterS8]

@[simp] theorem enterS7_kept (o : Outlet) (cause : Nat) (s : State) : kept (enterS7 o cause s) = kept s := by simp [enterS7]

@[simp] theorem noteCause_kept (o : Outlet) (cause : Nat) (s : State) : kept (noteCause o cause s) = kept s := by simp [noteCause]

@[simp] theorem logCause_kept (s : State) : kept (logCause s) = kept s := by simp [logCause]

theorem causeStep_kept (s : State) (o : Outlet) (c : Nat) (f : State → State) (h : causeStep s o c = some f) (t : State) : kept (f t) = kept t := by
  unfold causeStep causeStep.early causeStep.ramp at h
  dsimp only at h
  repeat (any_goals (split at h))
  all_goals first
    | (simp at h; done)
    | (obtain rfl := Option.some.inj h; simp)

@[simp] theorem giveCause_kept (o : Outlet) (cause : Nat) (s : State) : kept (giveCause o cause s) = kept s := by
  unfold giveCause
  split
  · rename_i f h
    simp [causeStep_kept _ _ _ _ h]
  · split <;> simp

@[simp] theorem decide'_kept (o : Outlet) (path : Nat) (origin : Nat) (accept : Bool) (g : Grant) (s : State) : kept (decide' o path origin accept g s) = kept s := by simp [decide']

@[simp] theorem byPolicy_kept (o : Outlet) (queried : Bool) (s : State) : kept (byPolicy o queried s) = kept s := by simp [byPolicy]

@[simp] theorem hostQuery_kept (o : Outlet) (c : Credential) (s : State) : kept (hostQuery o c s) = kept s := by simp [hostQuery]

@[simp] theorem lookUp_kept (o : Outlet) (c : Credential) (s : State) : kept (lookUp o c s) = kept s := by
  unfold lookUp; repeat' split
  all_goals simp

@[simp] theorem presentCredential_kept (o : Outlet) (c : Credential) (s : State) : kept (presentCredential o c s) = kept s := by simp [presentCredential]

@[simp] theorem startAuthorisation_kept (o : Outlet) (s : State) : kept (startAuthorisation o s) = kept s := by
  unfold startAuthorisation
  repeat (any_goals (first | (simp; done) | split | (refine guarded_kept _ _ _ (fun _ => ?_)) | (refine foldl_kept _ (fun _ _ => ?_) _ _) | (refine elim_kept _ _ _ _ ?_ (fun _ => ?_)) | (rename_i h; have h2 := congrArg (fun x => kept (Prod.fst x)) h; simp at h2; simp [← h2]; done) | dsimp only))

@[simp] theorem cardRead_kept (port : Nat) (ident : List Byte) (s : State) : kept (cardRead port ident s) = kept s := by
  unfold cardRead
  repeat (any_goals (first | (simp; done) | split | (refine guarded_kept _ _ _ (fun _ => ?_)) | (refine foldl_kept _ (fun _ _ => ?_) _ _) | (refine elim_kept _ _ _ _ ?_ (fun _ => ?_)) | (rename_i h; have h2 := congrArg (fun x => kept (Prod.fst x)) h; simp at h2; simp [← h2]; done) | dsimp only))

@[simp] theorem enterS1_kept (o : Outlet) (s : State) : kept (enterS1 o s) = kept s := by simp [enterS1]

@[simp] theorem enterS2_kept (o : Outlet) (s : State) : kept (enterS2 o s) = kept s := by simp [enterS2]

@[simp] theorem enterS3_kept (o : Outlet) (s : State) : kept (enterS3 o s) = kept s := by simp [enterS3]

@[simp] theorem enterS4_kept (o : Outlet) (s : State) : kept (enterS4 o s) = kept s := by simp [enterS4]

@[simp] theorem enterS6_kept (o : Outlet) (s : State) : kept (enterS6 o s) = kept s := by simp [enterS6]

@[simp] theorem takeTrip_kept (o : Outlet) (s : State) : kept (takeTrip o s) = kept s := by simp [takeTrip]

@[simp] theorem earlyPilot_kept (o : Outlet) (s : State) (other : State → State) (hf : ∀ t, kept (other t) = kept t) : kept (earlyPilot o s other) = kept s := by simp [earlyPilot, hf]

@[simp] theorem runningCauses_kept (o : Outlet) (s : State) (other : State → State) (hf : ∀ t, kept (other t) = kept t) : kept (runningCauses o s other) = kept s := by simp [runningCauses, hf]

@[simp] theorem matchFailed_kept (o : Outlet) (s : State) (other : State → State) (hf : ∀ t, kept (other t) = kept t) : kept (matchFailed o s other) = kept s := by simp [matchFailed, hf]

@[simp] theorem besideCause_kept (o : Outlet) (cause : Nat) (stands : Bool) (s : State) : kept (besideCause o cause stands s) = kept s := by simp [besideCause]

@[simp] theorem besideCauses_kept (o : Outlet) (s : State) : kept (besideCauses o s) = kept s := by
  unfold besideCauses; split <;> simp

@[simp] theorem settleOutlet_kept (o : Outlet) (s : State) : kept (settleOutlet o s) = kept s := by
  unfold settleOutlet
  repeat (any_goals (first | (simp; done) | split | (refine guarded_kept _ _ _ (fun _ => ?_)) | (refine foldl_kept _ (fun _ _ => ?_) _ _) | (refine elim_kept _ _ _ _ ?_ (fun _ => ?_)) | (rename_i h; have h2 := congrArg (fun x => kept (Prod.fst x)) h; simp at h2; simp [← h2]; done) | dsimp only))

@[simp] theorem stopImd_kept (o : Outlet) (s : State) : kept (stopImd o s) = kept s := by simp [stopImd]

@[simp] theorem settleOnce_kept (s : State) : kept (settleOnce s) = kept s := by simp [settleOnce]

@[simp] theorem settle_kept (s : State) : kept (settle s) = kept s := by simp [settle]

@[simp] theorem linkCause_kept (o : Outlet) (cause : Nat) (s : State) : kept (linkCause o cause s) = kept s := by simp [linkCause]

@[simp] theorem loseTcp_kept (o : Outlet) (s : State) : kept (loseTcp o s) = kept s := by simp [loseTcp]

@[simp] theorem count_kept (o : Outlet) (f : LinkCounters → LinkCounters) (s : State) : kept (count o f s) = kept s := by simp [count]

@[simp] theorem pwmOnlyFrom_kept (o : Outlet) (s : State) : kept (pwmOnlyFrom o s) = kept s := by simp [pwmOnlyFrom]

@[simp] theorem failMatching_kept (o : Outlet) (limit : Bool) (s : State) : kept (failMatching o limit s) = kept s := by simp [failMatching]

@[simp] theorem endPilotTest_kept (o : Outlet) (s : State) : kept (endPilotTest o s) = kept s := by simp [endPilotTest]

@[simp] theorem unplug_kept (o : Outlet) (p : PilotState) (s : State) : kept (unplug o p s) = kept s := by simp [unplug]

@[simp] theorem linkGone_kept (o : Outlet) (s : State) : kept (linkGone o s) = kept s := by simp [linkGone]

@[simp] theorem pilotCause_kept (o : Outlet) (s : State) : kept (pilotCause o s) = kept s := by simp [pilotCause]

@[simp] theorem pilotB_kept (o : Outlet) (s : State) : kept (pilotB o s) = kept s := by simp [pilotB]

@[simp] theorem takePilot_kept (o : Outlet) (p : PilotState) (diode : Bool) (s : State) : kept (takePilot o p diode s) = kept s := by simp [takePilot]

@[simp] theorem seenBy_kept (o : Outlet) (high : Int) (low : Int) (s : State) : kept (seenBy o high low s) = kept s := by simp [seenBy]

@[simp] theorem setMatching_kept (o : Outlet) (m : Matching) (s : State) : kept (setMatching o m s) = kept s := by simp [setMatching]

@[simp] theorem linkUp_kept (o : Outlet) (s : State) : kept (linkUp o s) = kept s := by simp [linkUp]

@[simp] theorem expireReply_kept (o : Outlet) (s : State) : kept (expireReply o s) = kept s := by simp [expireReply]

@[simp] theorem replyBoundary_kept (o : Outlet) (s : State) : kept (replyBoundary o s) = kept s := by simp [replyBoundary]

@[simp] theorem startPilotTest_kept (o : Outlet) (g : Generator) (s : State) : kept (startPilotTest o g s) = kept s := by simp [startPilotTest]

@[simp] theorem respondWith_kept (o : Outlet) (r : V2gRes) (s : State) : kept (respondWith o r s) = kept s := by simp [respondWith]

@[simp] theorem respond_kept (o : Outlet) (msg : Nat) (code : Nat) (ongoing : Bool) (notification : Nat) (values : List Int) (s : State) : kept (respond o msg code ongoing notification values s) = kept s := by simp [respond]

@[simp] theorem answer_kept (o : Outlet) (msg : Nat) (code : Nat) (values : List Int) (s : State) : kept (answer o msg code values s) = kept s := by simp [answer]

@[simp] theorem hold_kept (o : Outlet) (msg : Nat) (s : State) : kept (hold o msg s) = kept s := by simp [hold]

@[simp] theorem vehicleCredential_kept (o : Outlet) (kind : Nat) (ident : List Byte) (s : State) : kept (vehicleCredential o kind ident s) = kept s := by simp [vehicleCredential]

@[simp] theorem noteUnchecked_kept (o : Outlet) (s : State) : kept (noteUnchecked o s) = kept s := by simp [noteUnchecked]

@[simp] theorem presentContract_kept (o : Outlet) (c : Contract) (s : State) : kept (presentContract o c s) = kept s := by simp [presentContract]

@[simp] theorem contractAnswer_kept (o : Outlet) (msg : Nat) (c : Contract) (s : State) (other : State → State) (hf : ∀ t, kept (other t) = kept t) : kept (contractAnswer o msg c s other) = kept s := by simp [contractAnswer, hf]

@[simp] theorem authorizationAnswer_kept (o : Outlet) (s : State) : kept (authorizationAnswer o s) = kept s := by
  unfold authorizationAnswer; split <;> simp

@[simp] theorem precharge_kept (o : Outlet) (targetVoltage : Nat) (s : State) : kept (precharge o targetVoltage s) = kept s := by simp [precharge]

@[simp] theorem startTransfer_kept (o : Outlet) (s : State) : kept (startTransfer o s) = kept s := by simp [startTransfer]

@[simp] theorem loopAnswer_kept (o : Outlet) (msg : Nat) (p : Protocol) (s : State) : kept (loopAnswer o msg p s) = kept s := by simp [loopAnswer]

@[simp] theorem takeAnswer_kept (o : Outlet) (origin : Nat) (accept : Bool) (g : Grant) (s : State) : kept (takeAnswer o origin accept g s).1 = kept s := by
  unfold takeAnswer
  repeat (any_goals (first | (simp; done) | split | (refine guarded_kept _ _ _ (fun _ => ?_)) | (refine foldl_kept _ (fun _ _ => ?_) _ _) | (refine elim_kept _ _ _ _ ?_ (fun _ => ?_)) | (rename_i h; have h2 := congrArg (fun x => kept (Prod.fst x)) h; simp at h2; simp [← h2]; done) | dsimp only))

@[simp] theorem takeRemote_kept (o : Outlet) (origin : Nat) (g : Grant) (s : State) : kept (takeRemote o origin g s) = kept s := by simp [takeRemote]

@[simp] theorem applyLoad_kept (origin : Nat) (transfer : Nat) (b : List Byte) (s : State) : kept (applyLoad origin transfer b s).1 = kept s := by
  unfold applyLoad; repeat' split
  all_goals simp

@[simp] theorem finishLoad_kept (s : State) : kept (finishLoad s) = kept s := by
  unfold finishLoad; split <;> simp

@[simp] theorem takeAvailability_kept (o : Outlet) (out : Bool) (s : State) : kept (takeAvailability o out s) = kept s := by simp [takeAvailability]

@[simp] theorem openThresholdMet_kept (o : Outlet) (s : State) : kept (openThresholdMet o s) = kept s := by simp [openThresholdMet]

@[simp] theorem judgeWeldCheck_kept (o : Outlet) (s : State) : kept (judgeWeldCheck o s) = kept s := by simp [judgeWeldCheck]

@[simp] theorem logConverter_kept (o : Outlet) (s : State) : kept (logConverter o s) = kept s := by simp [logConverter]

@[simp] theorem takeStatus_kept (f : CanFrame) (s : State) (o : Outlet) : kept (takeStatus f s o) = kept s := by simp [takeStatus]

@[simp] theorem takeLimits_kept (f : CanFrame) (s : State) (o : Outlet) : kept (takeLimits f s o) = kept s := by
  unfold takeLimits
  repeat (any_goals (first | (simp; done) | split | (refine guarded_kept _ _ _ (fun _ => ?_)) | (refine foldl_kept _ (fun _ _ => ?_) _ _) | (refine elim_kept _ _ _ _ ?_ (fun _ => ?_)) | (rename_i h; have h2 := congrArg (fun x => kept (Prod.fst x)) h; simp at h2; simp [← h2]; done) | dsimp only))

@[simp] theorem takeAlloc_kept (o : Outlet) (w : Int) (s : State) : kept (takeAlloc o w s) = kept s := by simp [takeAlloc]

@[simp] theorem allocBoundary_kept (s : State) : kept (allocBoundary s) = kept s := by
  unfold allocBoundary
  split
  · refine forOutlets_kept _ _ (fun o t => ?_)
    split <;> simp
  · simp

@[simp] theorem setTap_kept (f : TestPort → TestPort) (s : State) : kept (setTap f s) = kept s := by simp [setTap]

@[simp] theorem holdTap_kept (s : State) : kept (holdTap s) = kept s := by simp [holdTap]

@[simp] theorem clockTap_kept (tms : Bool) (s : State) : kept (clockTap tms s) = kept s := by simp [clockTap]

@[simp] theorem putKey_kept (cls : Nat) (k : Option (BitVec 256)) (s : State) : kept (putKey cls k s) = kept s := by simp [putKey]

@[simp] theorem drawNonces_kept (s : State) : kept (drawNonces s) = kept s := by simp [drawNonces]

@[simp] theorem writeKeys_kept (s : State) : kept (writeKeys s) = kept s := by simp [writeKeys]

@[simp] theorem eraseTail_kept (slotB : Bool) (s : State) : kept (eraseTail slotB s) = kept s := by simp [eraseTail]

@[simp] theorem loadBlob_kept (s : State) (b : Blob) : kept (loadBlob s b) = kept s := by
  unfold loadBlob; split <;> simp

@[simp] theorem loadBlobs_kept (s : State) : kept (loadBlobs s) = kept s := by
  unfold loadBlobs
  dsimp only
  split <;> simp

@[simp] theorem formStatement_kept (state : Nat) (signer : Nat) (by' : BitVec 256) (key : BitVec 256) (meas : BitVec 256) (s : State) : kept (formStatement state signer by' key meas s).1 = kept s := by simp [formStatement]

@[simp] theorem deriveMetrology_kept (s : State) : kept (deriveMetrology s) = kept s := by
  unfold deriveMetrology
  repeat (any_goals (first | (simp; done) | split | (refine guarded_kept _ _ _ (fun _ => ?_)) | (refine foldl_kept _ (fun _ _ => ?_) _ _) | (refine elim_kept _ _ _ _ ?_ (fun _ => ?_)) | (rename_i h; have h2 := congrArg (fun x => kept (Prod.fst x)) h; simp at h2; simp [← h2]; done) | dsimp only))

@[simp] theorem logLifecycle_kept (origin : Nat) (old : Nat) (new : Nat) (path : Nat) (s : State) : kept (logLifecycle origin old new path s) = kept s := by simp [logLifecycle]

@[simp] theorem dropKeys_kept (s : State) : kept (dropKeys s) = kept s := by simp [dropKeys]

@[simp] theorem measureImages_kept (s : State) : kept (measureImages s) = kept s := by simp [measureImages]

@[simp] theorem migrateLegal_kept (s : State) : kept (migrateLegal s) = kept s := by
  unfold migrateLegal
  repeat (any_goals (first | (simp; done) | split | (refine guarded_kept _ _ _ (fun _ => ?_)) | (refine foldl_kept _ (fun _ _ => ?_) _ _) | (refine elim_kept _ _ _ _ ?_ (fun _ => ?_)) | (rename_i h; have h2 := congrArg (fun x => kept (Prod.fst x)) h; simp at h2; simp [← h2]; done) | dsimp only))

@[simp] theorem migrateApp_kept (s : State) : kept (migrateApp s) = kept s := by simp [migrateApp]

@[simp] theorem migrateKeys_kept (mask : Nat) (s : State) : kept (migrateKeys mask s) = kept s := by simp [migrateKeys]

@[simp] theorem keysConfirm_kept (mask : Nat) (s : State) : kept (keysConfirm mask s) = kept s := by simp [keysConfirm]

@[simp] theorem supersede_kept (s : State) : kept (supersede s) = kept s := by simp [supersede]

@[simp] theorem abandonMigration_kept (s : State) : kept (abandonMigration s) = kept s := by simp [abandonMigration]

@[simp] theorem newMetrology_kept (s : State) : kept (newMetrology s).1 = kept s := by simp [newMetrology]

@[simp] theorem warnCounter_kept (s : State) : kept (warnCounter s) = kept s := by simp [warnCounter]

@[simp] theorem logKey_kept (origin : Nat) (cls : Nat) (op : Nat) (slot : Nat) (n : Nat) (key : Option (List Byte)) (s : State) : kept (logKey origin cls op slot n key s) = kept s := by simp [logKey]

@[simp] theorem setTag_kept (f : Tag → Tag) (s : State) : kept (setTag f s) = kept s := by simp [setTag]

@[simp] theorem putBlock_kept (b : TagBlock) (s : State) : kept (putBlock b s) = kept s := by simp [putBlock]

@[simp] theorem wiredWrite_kept (k : Nat) (data : List Byte) (s : State) : kept (wiredWrite k data s) = kept s := by simp [wiredWrite]

@[simp] theorem logUnreadable_kept (k : Nat) (s : State) : kept (logUnreadable k s) = kept s := by simp [logUnreadable]

@[simp] theorem tagAnswer_kept (status : Nat) (data : List Byte) (s : State) : kept (tagAnswer status data s) = kept s := by simp [tagAnswer]

@[simp] theorem tagOpen_kept (s : State) : kept (tagOpen s) = kept s := by simp [tagOpen]

@[simp] theorem inField_kept (f : State → State) (s : State) (hf : ∀ t, kept (f t) = kept t) : kept (inField f s) = kept s := by simp [inField, hf]

@[simp] theorem wrongAttempt_kept (s : State) : kept (wrongAttempt s) = kept s := by simp [wrongAttempt]

@[simp] theorem enterSecured_kept (s : State) : kept (enterSecured s) = kept s := by simp [enterSecured]

@[simp] theorem mirrorEntry_kept (e : LogEntry) (s : State) : kept (mirrorEntry e s) = kept s := by simp [mirrorEntry]

@[simp] theorem storeConfirmation_kept (before : State) (after : State) : kept (storeConfirmation before after) = kept after := by simp [storeConfirmation]

@[simp] theorem handleConfirmation_kept (b : List Byte) (s : State) : kept (handleConfirmation b s) = kept s := by simp [handleConfirmation]

@[simp] theorem residualTrip_kept (o : Outlet) (bit : Nat) (limit : Nat) (square : Rat) (mA : Int) (s : State) : kept (residualTrip o bit limit square mA s) = kept s := by simp [residualTrip]

@[simp] theorem halfPeriod_kept (o : Outlet) (selfTimed : Bool) (x : ImdInput) (s : State) : kept (halfPeriod o selfTimed x s) = kept s := by
  unfold halfPeriod
  repeat (any_goals (first | (simp; done) | split | (refine guarded_kept _ _ _ (fun _ => ?_)) | (refine foldl_kept _ (fun _ _ => ?_) _ _) | (refine elim_kept _ _ _ _ ?_ (fun _ => ?_)) | (rename_i h; have h2 := congrArg (fun x => kept (Prod.fst x)) h; simp at h2; simp [← h2]; done) | dsimp only))

@[simp] theorem startImd_kept (o : Outlet) (s : State) : kept (startImd o s) = kept s := by simp [startImd]

@[simp] theorem runCheck_kept (o : Outlet) (s : State) (c : ScrCheck) : kept (runCheck o s c) = kept s := by simp [runCheck]

@[simp] theorem noteMeasured_kept (o : Outlet) (s : State) : kept (noteMeasured o s) = kept s := by simp [noteMeasured]

@[simp] theorem clearWeld_kept (origin : Nat) (o : Outlet) (s : State) : kept (clearWeld origin o s) = kept s := by simp [clearWeld]

@[simp] theorem logTariffs_kept (origin : Nat) (kind : Nat) (serial : Nat) (recs : List Rec) (s : State) : kept (logTariffs origin kind serial recs s) = kept s := by simp [logTariffs]

@[simp] theorem takeTable_kept (s : State) : kept (takeTable s) = kept s := by
  unfold takeTable; split <;> simp

@[simp] theorem applyTable_kept (origin : Nat) (b : List Byte) (s : State) : kept (applyTable origin b s).1 = kept s := by
  unfold applyTable
  repeat (any_goals (first | (simp; done) | split | (refine guarded_kept _ _ _ (fun _ => ?_)) | (refine foldl_kept _ (fun _ _ => ?_) _ _) | (refine elim_kept _ _ _ _ ?_ (fun _ => ?_)) | (rename_i h; have h2 := congrArg (fun x => kept (Prod.fst x)) h; simp at h2; simp [← h2]; done) | dsimp only))

@[simp] theorem setDemand_kept (f : DemandBlock → DemandBlock) (s : State) : kept (setDemand f s) = kept s := by simp [setDemand]

@[simp] theorem spoilDemand_kept (cause : Nat) (s : State) : kept (spoilDemand cause s) = kept s := by simp [spoilDemand]

@[simp] theorem startSub_kept (utc : Nat) (cause : Nat) (s : State) : kept (startSub utc cause s) = kept s := by simp [startSub]

@[simp] theorem creditDemand_kept (utc : Nat) (cause : Nat) (demand : Int) (s : State) : kept (creditDemand utc cause demand s) = kept s := by simp [creditDemand]

@[simp] theorem writeDemand_kept (s : State) : kept (writeDemand s) = kept s := by simp [writeDemand]

@[simp] theorem endSub_kept (utc : Nat) (cause : Nat) (nextCause : Nat) (s : State) : kept (endSub utc cause nextCause s) = kept s := by simp [endSub]

@[simp] theorem demandStep_kept (utc : Nat) (local' : Int) (s : State) : kept (demandStep utc local' s) = kept s := by
  unfold demandStep; split <;> simp

@[simp] theorem demandInvalid_kept (s : State) : kept (demandInvalid s) = kept s := by simp [demandInvalid]

@[simp] theorem periodStep_kept (utc : Nat) (s : State) : kept (periodStep utc s) = kept s := by
  unfold periodStep
  repeat (any_goals (first | (simp; done) | split | (refine guarded_kept _ _ _ (fun _ => ?_)) | (refine foldl_kept _ (fun _ _ => ?_) _ _) | (refine elim_kept _ _ _ _ ?_ (fun _ => ?_)) | (rename_i h; have h2 := congrArg (fun x => kept (Prod.fst x)) h; simp at h2; simp [← h2]; done) | dsimp only))

@[simp] theorem useEmergency_kept (o : Outlet) (a : Account) (s : State) : kept (useEmergency o a s) = kept s := by simp [useEmergency]

@[simp] theorem setOutletBill_kept (o : Outlet) (f : OutletBill → OutletBill) (s : State) : kept (setOutletBill o f s) = kept s := by simp [setOutletBill]

@[simp] theorem setOpenRec_kept (o : Outlet) (f : OpenRecord → OpenRecord) (s : State) : kept (setOpenRec o f s) = kept s := by simp [setOpenRec]

@[simp] theorem exhausted_kept (o : Outlet) (a : Account) (s : State) : kept (exhausted o a s) = kept s := by simp [exhausted]

@[simp] theorem creditStep_kept (o : Outlet) (s : State) : kept (creditStep o s) = kept s := by
  unfold creditStep; split <;> simp

@[simp] theorem closeCut_kept (o : Outlet) (s : State) : kept (closeCut o s) = kept s := by simp [closeCut]

@[simp] theorem tariffStep_kept (s : State) : kept (tariffStep s) = kept s := by simp [tariffStep]

@[simp] theorem evaluate_kept (s : State) : kept (evaluate s) = kept s := by
  unfold evaluate; split <;> simp

@[simp] theorem logTamper_kept (e : TamperEvent) (overflow : Nat) (s : State) : kept (logTamper e overflow s) = kept s := by simp [logTamper]

@[simp] theorem drainTamper_kept (s : State) : kept (drainTamper s) = kept s := by
  unfold drainTamper
  repeat (any_goals (first | (simp; done) | split | (refine guarded_kept _ _ _ (fun _ => ?_)) | (refine foldl_kept _ (fun _ _ => ?_) _ _) | (refine elim_kept _ _ _ _ ?_ (fun _ => ?_)) | (rename_i h; have h2 := congrArg (fun x => kept (Prod.fst x)) h; simp at h2; simp [← h2]; done) | dsimp only))

@[simp] theorem logAccount_kept (origin : Nat) (index : Nat) (kind : Nat) (amount : Int) (s : State) : kept (logAccount origin index kind amount s) = kept s := by simp [logAccount]

@[simp] theorem loadAccount_kept (origin : Nat) (s : State) (e : List Byte) : kept (loadAccount origin s e) = kept s := by simp [loadAccount]

@[simp] theorem applyAccounts_kept (origin : Nat) (b : List Byte) (s : State) : kept (applyAccounts origin b s).1 = kept s := by
  unfold applyAccounts
  repeat (any_goals (first | (simp; done) | split | (refine guarded_kept _ _ _ (fun _ => ?_)) | (refine foldl_kept _ (fun _ _ => ?_) _ _) | (refine elim_kept _ _ _ _ ?_ (fun _ => ?_)) | (rename_i h; have h2 := congrArg (fun x => kept (Prod.fst x)) h; simp at h2; simp [← h2]; done) | dsimp only))

@[simp] theorem creditAccount_kept (origin : Nat) (a : Account) (amount : Int) (s : State) : kept (creditAccount origin a amount s) = kept s := by simp [creditAccount]

@[simp] theorem setClock_kept (r : Request) (s : State) : kept (setClock r s).1 = kept s := by
  unfold setClock
  repeat (any_goals (first | (simp; done) | split | (refine guarded_kept _ _ _ (fun _ => ?_)) | (refine foldl_kept _ (fun _ _ => ?_) _ _) | (refine elim_kept _ _ _ _ ?_ (fun _ => ?_)) | (rename_i h; have h2 := congrArg (fun x => kept (Prod.fst x)) h; simp at h2; simp [← h2]; done) | dsimp only))

@[simp] theorem setDisp_kept (f : Display → Display) (s : State) : kept (setDisp f s) = kept s := by simp [setDisp]

@[simp] theorem writeLane_kept (s : State) : kept (writeLane s) = kept s := by simp [writeLane]

@[simp] theorem loadStress_kept (s : State) : kept (loadStress s) = kept s := by
  unfold loadStress; split <;> simp

@[simp] theorem putStress_kept (c : Option StressCopy) (s : State) : kept (putStress c s) = kept s := by simp [putStress]

@[simp] theorem saveStress_kept (ok : Bool) (s : State) : kept (saveStress ok s) = kept s := by simp [saveStress]

@[simp] theorem displayStart_kept (s : State) : kept (displayStart s) = kept s := by simp [displayStart]

@[simp] theorem displayStop_kept (s : State) : kept (displayStop s) = kept s := by simp [displayStop]

@[simp] theorem vppFails_kept (v : Nat) (s : State) : kept (vppFails v s) = kept s := by simp [vppFails]

@[simp] theorem readVpp_kept (v : Nat) (s : State) : kept (readVpp v s) = kept s := by simp [readVpp]

@[simp] theorem takeLane_kept (s : State) : kept (takeLane s) = kept s := by simp [takeLane]

@[simp] theorem markWorn_kept (wears : Nat → Bool) (s : State) : kept (markWorn wears s) = kept s := by simp [markWorn]

@[simp] theorem stressFrame_kept (s : State) : kept (stressFrame s) = kept s := by simp [stressFrame]

@[simp] theorem takeRows_kept (s : State) : kept (takeRows s) = kept s := by simp [takeRows]

@[simp] theorem logWorn_kept (panel : Nat) (s : State) : kept (logWorn panel s) = kept s := by simp [logWorn]

@[simp] theorem recompute_kept (s : State) : kept (recompute s) = kept s := by simp [recompute]

@[simp] theorem writeRows_kept (p : List Byte) (s : State) : kept (writeRows p s) = kept s := by simp [writeRows]

@[simp] theorem applyStress_kept (origin : Nat) (b : List Byte) (s : State) : kept (applyStress origin b s).1 = kept s := by
  unfold applyStress
  repeat (any_goals (first | (simp; done) | split | (refine guarded_kept _ _ _ (fun _ => ?_)) | (refine foldl_kept _ (fun _ _ => ?_) _ _) | (refine elim_kept _ _ _ _ ?_ (fun _ => ?_)) | (rename_i h; have h2 := congrArg (fun x => kept (Prod.fst x)) h; simp at h2; simp [← h2]; done) | dsimp only))

@[simp] theorem countPhases_kept (ps : List WinPos) (before : State) (o : Outlet) (s : State) : kept (countPhases ps before o s) = kept s := by simp [countPhases]

@[simp] theorem limitStep_kept (o : Outlet) (s : State) : kept (limitStep o s) = kept s := by simp [limitStep]

@[simp] theorem outletStep_kept (o : Outlet) (s : State) : kept (outletStep o s) = kept s := by simp [outletStep]

@[simp] theorem regularCommit_kept (w : WindowInput) (s : State) : kept (regularCommit w s) = kept s := by
  unfold regularCommit
  split
  · rename_i h
    have h2 := congrArg (fun x => kept (Prod.fst x)) h
    simp only [energyRegular_kept] at h2
    rw [settle_kept, forOutlets_kept _ _ (fun o t => by simp), forOutlets_kept _ _ (fun o t => by simp), h2]
    simp
  · rename_i h
    have h2 := congrArg (fun x => kept (Prod.fst x)) h
    simp only [energyRegular_kept] at h2
    exact h2.symm

@[simp] theorem partialCommit_kept (w : WindowInput) (last : Fin 256) (s : State) : kept (partialCommit w last s) = kept s := by
  unfold partialCommit
  repeat (any_goals (first | (simp; done) | split | (refine guarded_kept _ _ _ (fun _ => ?_)) | (refine foldl_kept _ (fun _ _ => ?_) _ _) | (refine elim_kept _ _ _ _ ?_ (fun _ => ?_)) | (rename_i h; have h2 := congrArg (fun x => kept (Prod.fst x)) h; simp at h2; simp [← h2]; done) | dsimp only))

@[simp] theorem logMode_kept (old : BitVec 16) (new : BitVec 16) (e : Int) (freq : Nat) (s : State) : kept (logMode old new e freq s) = kept s := by simp [logMode]

@[simp] theorem sundialBoundary_kept (m : CycleMeasure) (s : State) : kept (sundialBoundary m s) = kept s := by simp [sundialBoundary]

@[simp] theorem armDoorbell_kept (elem : Nat) (slot : Nat) (angle : Nat) (period : Nat) (s : State) : kept (armDoorbell elem slot angle period s) = kept s := by simp [armDoorbell]

@[simp] theorem setPower_kept (f : Power → Power) (s : State) : kept (setPower f s) = kept s := by simp [setPower]

@[simp] theorem saveSystem_kept (s : State) : kept (saveSystem s) = kept s := by simp [saveSystem]

@[simp] theorem sundialStart_kept (nominal : Nat) (s : State) : kept (sundialStart nominal s) = kept s := by simp [sundialStart]

@[simp] theorem dialBoundary_kept (m : CycleMeasure) (s : State) : kept (dialBoundary m s) = kept s := by simp [dialBoundary]

@[simp] theorem elapse_kept (s : State) : kept (elapse s) = kept s := by simp [elapse]

@[simp] theorem ledgerStart_kept (s : State) : kept (ledgerStart s) = kept s := by simp [ledgerStart]

@[simp] theorem ledgerEnd_kept (value : Nat) (s : State) : kept (ledgerEnd value s) = kept s := by simp [ledgerEnd]

@[simp] theorem logPackage_kept (origin : Nat) (r : Nat) (status : Nat) (step : Nat) (h : List Byte) (s : State) : kept (logPackage origin r status step h s) = kept s := by simp [logPackage]

@[simp] theorem abortUpdate_kept (r : Nat) (s : State) : kept (abortUpdate r s) = kept s := by simp [abortUpdate]

@[simp] theorem openUpdate_kept (origin : Nat) (path : Nat) (id : Nat) (h : List Byte) (s : State) : kept (openUpdate origin path id h s) = kept s := by simp [openUpdate]

@[simp] theorem completeUpdate_kept (origin : Nat) (h : List Byte) (s : State) : kept (completeUpdate origin h s).1 = kept s := by simp [completeUpdate]

@[simp] theorem setDom_kept (f : Domains → Domains) (s : State) : kept (setDom f s) = kept s := by simp [setDom]

@[simp] theorem setHealth_kept (d : Nat) (w : BitVec 32) (s : State) : kept (setHealth d w s) = kept s := by simp [setHealth]

@[simp] theorem failHealth_kept (d : Nat) (bit : Nat) (s : State) : kept (failHealth d bit s) = kept s := by simp [failHealth]

@[simp] theorem logTakeover_kept (cause : Nat) (source : Nat) (target : Nat) (slot : Nat) (cycle : U32) (replayed : Nat) (gap : Nat) (s : State) : kept (logTakeover cause source target slot cycle replayed gap s) = kept s := by simp [logTakeover]

@[simp] theorem writeSeed_kept (flagBits : Nat) (clocks : Nat) (s : State) : kept (writeSeed flagBits clocks s) = kept s := by simp [writeSeed]

@[simp] theorem cutSessions_kept (s : State) : kept (cutSessions s) = kept s := by simp [cutSessions]

@[simp] theorem restoreDomain_kept (seed : Option Nat) (s : State) : kept (restoreDomain seed s) = kept s := by simp [restoreDomain]

@[simp] theorem moveControl_kept (cause : Nat) (seed : Option Nat) (replayed : Nat) (s : State) : kept (moveControl cause seed replayed s) = kept s := by simp [moveControl]

@[simp] theorem switchDomain_kept (cause : Nat) (flagBits : Nat) (clocks : Nat) (s : State) : kept (switchDomain cause flagBits clocks s) = kept s := by simp [switchDomain]

@[simp] theorem setRake_kept (f : Rake → Rake) (s : State) : kept (setRake f s) = kept s := by simp [setRake]

@[simp] theorem noteResults_kept (kind : Nat) (six : List Nat) (s : State) : kept (noteResults kind six s) = kept s := by simp [noteResults]

@[simp] theorem endRake_kept (s : State) : kept (endRake s) = kept s := by simp [endRake]

@[simp] theorem logRake_kept (duration : List Byte) (peak : List Byte) (s : State) : kept (logRake duration peak s) = kept s := by simp [logRake]

@[simp] theorem setReader_kept (p : Fin 2) (f : Reader → Reader) (s : State) : kept (setReader p f s) = kept s := by simp [setReader]

@[simp] theorem raiseField_kept (p : Fin 2) (s : State) : kept (raiseField p s) = kept s := by simp [raiseField]

@[simp] theorem lowerField_kept (p : Fin 2) (s : State) : kept (lowerField p s) = kept s := by simp [lowerField]

@[simp] theorem cardNotDelivered_kept (port : Fin 2) (cause : Nat) (std : Nat) (ident : List Byte) (s : State) : kept (cardNotDelivered port cause std ident s) = kept s := by simp [cardNotDelivered]

@[simp] theorem oneCard_kept (p : Fin 2) (std : Nat) (ident : List Byte) (s : State) : kept (oneCard p std ident s) = kept s := by simp [oneCard]

@[simp] theorem setWadi_kept (f : Wadi → Wadi) (s : State) : kept (setWadi f s) = kept s := by simp [setWadi]

@[simp] theorem sendWadi_kept (type : Nat) (dest : Nat) (mode : Nat) (resends : Nat) (body : List Byte) (s : State) : kept (sendWadi type dest mode resends body s) = kept s := by
  unfold sendWadi; split <;> simp

@[simp] theorem putNeighbour_kept (n : Neighbour) (s : State) : kept (putNeighbour n s) = kept s := by simp [putNeighbour]

@[simp] theorem logNodePresence_kept (node : Nat) (absent : Nat) (index : Nat) (s : State) : kept (logNodePresence node absent index s) = kept s := by simp [logNodePresence]

@[simp] theorem dropNode_kept (node : Nat) (s : State) : kept (dropNode node s) = kept s := by
  unfold dropNode; split <;> simp

@[simp] theorem setRole_kept (role : Nat) (s : State) : kept (setRole role s) = kept s := by simp [setRole]

@[simp] theorem wadiListen_kept (keepIndex : Bool) (s : State) : kept (wadiListen keepIndex s) = kept s := by simp [wadiListen]

@[simp] theorem assignIndex_kept (node : Nat) (s : State) : kept (assignIndex node s) = kept s := by simp [assignIndex]

@[simp] theorem chooseJoin_kept (s : State) : kept (chooseJoin s) = kept s := by simp [chooseJoin]

@[simp] theorem takeSiteEntry_kept (budget : Int) (caps : List Nat) (s : State) : kept (takeSiteEntry budget caps s) = kept s := by simp [takeSiteEntry]

@[simp] theorem sendSafe_kept (type : Nat) (s : State) : kept (sendSafe type s) = kept s := by simp [sendSafe]

@[simp] theorem putSource_kept (x : SafeSource) (s : State) : kept (putSource x s) = kept s := by simp [putSource]

@[simp] theorem safeFault_kept (slot : Nat) (kind : Nat) (path : List Byte) (seq : List Byte) (s : State) : kept (safeFault slot kind path seq s) = kept s := by simp [safeFault]

@[simp] theorem takeGroup_kept (slot : Nat) (bytes : List Byte) (s : State) : kept (takeGroup slot bytes s) = kept s := by simp [takeGroup]

@[simp] theorem takePair_kept (slot : Nat) (bytes : List Byte) (s : State) : kept (takePair slot bytes s) = kept s := by simp [takePair]

@[simp] theorem takeCopy_kept (slot : Nat) (path : Path) (bytes : List Byte) (s : State) : kept (takeCopy slot path bytes s) = kept s := by
  unfold takeCopy
  repeat (any_goals (first | (simp; done) | split | (refine guarded_kept _ _ _ (fun _ => ?_)) | (refine foldl_kept _ (fun _ _ => ?_) _ _) | (refine elim_kept _ _ _ _ ?_ (fun _ => ?_)) | (rename_i h; have h2 := congrArg (fun x => kept (Prod.fst x)) h; simp at h2; simp [← h2]; done) | dsimp only))

@[simp] theorem receiveSafe_kept (path : Path) (bytes : List Byte) (s : State) : kept (receiveSafe path bytes s) = kept s := by simp [receiveSafe]

@[simp] theorem setTrellis_kept (f : Trellis → Trellis) (s : State) : kept (setTrellis f s) = kept s := by simp [setTrellis]

@[simp] theorem sendSlot_kept (k : Nat) (s : State) : kept (sendSlot k s) = kept s := by simp [sendSlot]

@[simp] theorem sendSync_kept (s : State) : kept (sendSync s) = kept s := by simp [sendSync]

@[simp] theorem logMastership_kept (old : Nat) (new : Nat) (cause : Nat) (s : State) : kept (logMastership old new cause s) = kept s := by simp [logMastership]

@[simp] theorem nameSpare_kept (s : State) : kept (nameSpare s) = kept s := by simp [nameSpare]

@[simp] theorem becomeMaster_kept (cause : Nat) (s : State) : kept (becomeMaster cause s) = kept s := by simp [becomeMaster]

@[simp] theorem followSync_kept (b : List Byte) (s : State) : kept (followSync b s) = kept s := by simp [followSync]

@[simp] theorem logMember_kept (slot : Nat) (absent : Nat) (s : State) : kept (logMember slot absent s) = kept s := by simp [logMember]

@[simp] theorem compareShadow_kept (slot : Nat) (watts : List Int) (s : State) : kept (compareShadow slot watts s) = kept s := by
  unfold compareShadow; split <;> simp

@[simp] theorem takeMessage_kept (slot : Nat) (m : Nat × List Byte) (s : State) : kept (takeMessage slot m s) = kept s := by simp [takeMessage]

@[simp] theorem buttonAtStart_kept (s : State) : kept (buttonAtStart s) = kept s := by simp [buttonAtStart]

@[simp] theorem startEntry_kept (cause : Nat) (valid : Bool) (s : State) : kept (startEntry cause valid s) = kept s := by simp [startEntry]

@[simp] theorem enableTamper_kept (s : State) : kept (enableTamper s) = kept s := by simp [enableTamper]

@[simp] theorem imageTariffs_kept (last : Option Digest) (s : State) : kept (imageTariffs last s) = kept s := by simp [imageTariffs]

@[simp] theorem readImage_kept (s : State) : kept (readImage s) = kept s := by simp [readImage]

@[simp] theorem reloadMetrology_kept (s : State) : kept (reloadMetrology s) = kept s := by simp [reloadMetrology]

@[simp] theorem chooseDomain_kept (s : State) : kept (chooseDomain s) = kept s := by simp [chooseDomain]

@[simp] theorem recoveryNetwork_kept (s : State) : kept (recoveryNetwork s) = kept s := by simp [recoveryNetwork]

@[simp] theorem startEngines_kept (i : StartInput) (s : State) : kept (startEngines i s) = kept s := by simp [startEngines]

@[simp] theorem restoreAll_kept (i : StartInput) (s : State) : kept (restoreAll i s) = kept s := by simp [restoreAll]

@[simp] theorem bootSlots_kept (s : State) : kept (bootSlots s) = kept s := by simp [bootSlots]

@[simp] theorem logEarlierRun_kept (s : State) : kept (logEarlierRun s) = kept s := by simp [logEarlierRun]

@[simp] theorem failDomain_kept (d : Nat) (failed : Bool) (s : State) : kept (failDomain d failed s) = kept s := by simp [failDomain]

@[simp] theorem endTls_kept (s : State) : kept (endTls s) = kept s := by simp [endTls]

@[simp] theorem dropTests_kept (s : State) : kept (dropTests s) = kept s := by simp [dropTests]

@[simp] theorem newBlock_kept (agrees : Bool) (s : State) : kept (newBlock agrees s) = kept s := by simp [newBlock]

@[simp] theorem freshHealth_kept (s : State) : kept (freshHealth s) = kept s := by simp [freshHealth]

@[simp] theorem warmRestore_kept (s : State) : kept (warmRestore s) = kept s := by simp [warmRestore]

@[simp] theorem holdIdle_kept (s : State) : kept (holdIdle s) = kept s := by simp [holdIdle]

@[simp] theorem logRestart_kept (cause : Nat) (result : Nat) (s : State) : kept (logRestart cause result s) = kept s := by simp [logRestart]

@[simp] theorem access_kept (a : Access) (addr : Nat) (s : State) : kept (access a addr s) = kept s := by simp [access]

@[simp] theorem markedAccess_kept (a : Access) (s : State) : kept (markedAccess a s) = kept s := by
  unfold markedAccess
  split <;> simp

@[simp] theorem putArray_kept (x : ArrayErrors) (s : State) : kept (putArray x s) = kept s := by simp [putArray]

@[simp] theorem correctBit_kept (array : Nat) (addr : Nat) (s : State) : kept (correctBit array addr s) = kept s := by simp [correctBit]

@[simp] theorem spoilSeed_kept (slot : Nat) (s : State) : kept (spoilSeed slot s) = kept s := by simp [spoilSeed]

@[simp] theorem spoilSieve_kept (addr : Nat) (s : State) : kept (spoilSieve addr s) = kept s := by simp [spoilSieve]

@[simp] theorem logDoubleBit_kept (array : Nat) (elem : Nat) (addr : Nat) (s : State) : kept (logDoubleBit array elem addr s) = kept s := by simp [logDoubleBit]

@[simp] theorem setSowing_kept (f : Sowing → Sowing) (s : State) : kept (setSowing f s) = kept s := by simp [setSowing]

@[simp] theorem turnOwner_kept (s : State) : kept (turnOwner s) = kept s := by simp [turnOwner]

@[simp] theorem bulkLost_kept (body : List Byte) (s : State) : kept (bulkLost body s) = kept s := by simp [bulkLost]

@[simp] theorem logSowing_kept (x : Sowing) (t : SowTarget) (s : State) : kept (logSowing x t s) = kept s := by simp [logSowing]

@[simp] theorem masterHears_kept (src : Nat) (dest : Nat) (body : List Byte) (s : State) : kept (masterHears src dest body s) = kept s := by
  unfold masterHears; split <;> simp

@[simp] theorem takeSowHeader_kept (id : Nat) (data : List Byte) (s : State) : kept (takeSowHeader id data s) = kept s := by simp [takeSowHeader]

@[simp] theorem takeSowData_kept (off : Nat) (data : List Byte) (x : Sowing) (s : State) : kept (takeSowData off data x s) = kept s := by simp [takeSowData]

@[simp] theorem takeSowPiece_kept (id : Nat) (off : Nat) (data : List Byte) (s : State) : kept (takeSowPiece id off data s) = kept s := by simp [takeSowPiece]

@[simp] theorem takeBulk_kept (body : List Byte) (s : State) : kept (takeBulk body s) = kept s := by
  unfold takeBulk; repeat' split
  all_goals simp

@[simp] theorem startSuperframe_kept (s : State) : kept (startSuperframe s) = kept s := by simp [startSuperframe]

@[simp] theorem sendAllocation_kept (s : State) : kept (sendAllocation s) = kept s := by
  unfold sendAllocation; repeat' split
  all_goals simp

@[simp] theorem writeNodeBeacon_kept (s : State) : kept (writeNodeBeacon s) = kept s := by simp [writeNodeBeacon]

@[simp] theorem sendNodeBeacon_kept (s : State) : kept (sendNodeBeacon s) = kept s := by simp [sendNodeBeacon]

@[simp] theorem sendAgain_kept (f : SentFrame) (s : State) : kept (sendAgain f s) = kept s := by simp [sendAgain]

theorem bulkFrame_kept (mode : Nat) (s : State) (d : Nat) (b : List Byte) (t : State) (h : bulkFrame mode s = some (d, b, t)) : kept t = kept s := by
  unfold bulkFrame at h
  cases hx : s.update.sowing with
  | none => simp [hx] at h
  | some x =>
    simp only [hx, Option.bind_some] at h
    repeat (any_goals (split at h))
    all_goals first
      | (simp at h; done)
      | (obtain ⟨-, -, rfl⟩ := h; simp)
      | (simp only [Option.some.injEq, Prod.mk.injEq] at h; obtain ⟨-, -, rfl⟩ := h; simp)

@[simp] theorem sendOwnWindow_kept (w : Nat) (s : State) : kept (sendOwnWindow w s) = kept s := by
  unfold sendOwnWindow
  repeat (any_goals split)
  all_goals first
    | (simp; done)
    | (rename_i h; simp [bulkFrame_kept _ _ _ _ _ h])

@[simp] theorem sendWindow_kept (position : Nat) (s : State) : kept (sendWindow position s) = kept s := by simp [sendWindow]

@[simp] theorem discardFrame_kept (blanked : Bool) (addressed : Bool) (source : Nat) (slot : Nat) (low : Nat) (s : State) : kept (discardFrame blanked addressed source slot low s) = kept s := by simp [discardFrame]

@[simp] theorem measurePhase_kept (node : Nat) (start : Nat) (s : State) : kept (measurePhase node start s) = kept s := by
  unfold measurePhase; split <;> simp

@[simp] theorem hearNode_kept (node : Nat) (slot : Nat) (mode : Nat) (snr : Int) (epoch : U16) (counter : U32) (s : State) : kept (hearNode node slot mode snr epoch counter s) = kept s := by simp [hearNode]

@[simp] theorem followTime_kept (body : List Byte) (s : State) : kept (followTime body s) = kept s := by simp [followTime]

@[simp] theorem followBeacon_kept (source : Nat) (slot : Nat) (snr : Int) (body : List Byte) (s : State) : kept (followBeacon source slot snr body s) = kept s := by simp [followBeacon]

@[simp] theorem takeBeacon_kept (source : Nat) (slot : Nat) (snr : Int) (body : List Byte) (s : State) : kept (takeBeacon source slot snr body s) = kept s := by simp [takeBeacon]

@[simp] theorem takeAllocation_kept (body : List Byte) (s : State) : kept (takeAllocation body s) = kept s := by
  unfold takeAllocation; split <;> simp

@[simp] theorem takeResend_kept (low : Nat) (s : State) : kept (takeResend low s) = kept s := by
  unfold takeResend; split <;> simp

@[simp] theorem takeNodeBeacon_kept (source : Nat) (body : List Byte) (s : State) : kept (takeNodeBeacon source body s) = kept s := by simp [takeNodeBeacon]

@[simp] theorem takeFrame_kept (source : Nat) (slot : Nat) (dest : Nat) (type : Nat) (snr : Int) (body : List Byte) (s : State) : kept (takeFrame source slot dest type snr body s) = kept s := by simp [takeFrame]

@[simp] theorem decodeFrame_kept (key : BitVec 256) (f : WadiRx) (x : WadiHeard) (s : State) : kept (decodeFrame key f x s) = kept s := by simp [decodeFrame]

@[simp] theorem startRake_kept (kind : Nat) (groups : List Nat) (w : WindowInput) (last : Fin 256) (s : State) : kept (startRake kind groups w last s) = kept s := by simp [startRake]

@[simp] theorem endGroup_kept (result : Nat) (s : State) : kept (endGroup result s) = kept s := by
  unfold endGroup; split <;> simp

@[simp] theorem runIfAsked_kept (w : WindowInput) (last : Fin 256) (s : State) : kept (runIfAsked w last s) = kept s := by simp [runIfAsked]

@[simp] theorem logPower_kept (old : PowerState) (new : PowerState) (s : State) : kept (logPower old new s) = kept s := by simp [logPower]

@[simp] theorem pilotsOff_kept (s : State) : kept (pilotsOff s) = kept s := by simp [pilotsOff]

@[simp] theorem supplyLost_kept (v24 : Nat) (s : State) : kept (supplyLost v24 s) = kept s := by simp [supplyLost]

@[simp] theorem enterHold_kept (v24 : Nat) (s : State) : kept (enterHold v24 s) = kept s := by simp [enterHold]

@[simp] theorem leaveHold_kept (v24 : Nat) (s : State) : kept (leaveHold v24 s) = kept s := by simp [leaveHold]

@[simp] theorem loseEntries_kept (s : State) : kept (loseEntries s) = kept s := by simp [loseEntries]

@[simp] theorem endSessions_kept (s : State) : kept (endSessions s) = kept s := by simp [endSessions]

@[simp] theorem askByButton_kept (recovery : Bool) (s : State) : kept (askByButton recovery s) = kept s := by simp [askByButton]

@[simp] theorem logButton_kept (held : Nat) (action : Nat) (s : State) : kept (logButton held action s) = kept s := by simp [logButton]

@[simp] theorem reportLatch_kept (i : Nat) (s : State) : kept (reportLatch i s) = kept s := by simp [reportLatch]

@[simp] theorem tripChannel_kept (i : Nat) (cause : Nat) (sample : List Byte) (dT : List Byte) (s : State) : kept (tripChannel i cause sample dT s) = kept s := by simp [tripChannel]

@[simp] theorem takeNormal_kept (i : Nat) (s : State) (sample : Nat) : kept (takeNormal i s sample) = kept s := by simp [takeNormal]

@[simp] theorem putOpenLoad_kept (i : Nat) (mean : Nat) (v : Bool) (s : State) : kept (putOpenLoad i mean v s) = kept s := by simp [putOpenLoad]

@[simp] theorem putOver_kept (g : Nat) (v : Bool) (s : State) : kept (putOver g v s) = kept s := by simp [putOver]

@[simp] theorem checkGroup_kept (g : Nat) (mean : Nat) (s : State) : kept (checkGroup g mean s) = kept s := by
  unfold checkGroup; repeat' split
  all_goals simp

@[simp] theorem forGroup_kept (g : Nat) (f : Nat → Switch → Switch) (s : State) : kept (forGroup g f s) = kept s := by simp [forGroup]

@[simp] theorem logSupply_kept (g : Nat) (release : Bool) (lowest : Nat) (s : State) : kept (logSupply g release lowest s) = kept s := by simp [logSupply]

@[simp] theorem drawMany_kept (n : Nat) (s : State) : kept (drawMany n s) = kept s := by simp [drawMany]

end Sys2Proof.Machine
end

