-- ==== Sys2Proof/Laws/Log.lean ====
section
/-! SUPPORT. What a log entry (R58 to R60) leaves alone: every field but the logs and the domains, whose journal notes it. -/

namespace Sys2Proof.Machine

theorem journal_eq (kind object seq : Nat) (s : State) : journal kind object seq s = { s with dom := (journal kind object seq s).dom } := by
  unfold journal; split <;> rfl

theorem log_eq (origin sub code : Nat) (detail : List Byte) (legal : Bool) (s : State) :
    log origin sub code detail legal s =
      { s with logs := (log origin sub code detail legal s).logs, dom := (log origin sub code detail legal s).dom } := by
  have h := journal_eq 7 0 (newEntry s origin sub code detail).index s
  simp only [log]
  generalize journal 7 0 (newEntry s origin sub code detail).index s = u at h
  rw [h]
  cases legal <;> simp only [addGeneral, addLegal, Bool.false_eq_true, if_false, if_true] <;> try split <;> rfl

@[simp] theorem log_pending (origin sub code : Nat) (detail : List Byte) (legal : Bool) (s : State) :
    (log origin sub code detail legal s).pending = s.pending := by rw [log_eq]
@[simp] theorem log_clockMs (origin sub code : Nat) (detail : List Byte) (legal : Bool) (s : State) :
    (log origin sub code detail legal s).clockMs = s.clockMs := by rw [log_eq]
@[simp] theorem log_freeCount (origin sub code : Nat) (detail : List Byte) (legal : Bool) (s : State) :
    (log origin sub code detail legal s).freeCount = s.freeCount := by rw [log_eq]
@[simp] theorem log_out (origin sub code : Nat) (detail : List Byte) (legal : Bool) (s : State) :
    (log origin sub code detail legal s).out = s.out := by rw [log_eq]
@[simp] theorem log_power (origin sub code : Nat) (detail : List Byte) (legal : Bool) (s : State) :
    (log origin sub code detail legal s).power = s.power := by rw [log_eq]
@[simp] theorem log_fabric (origin sub code : Nat) (detail : List Byte) (legal : Bool) (s : State) :
    (log origin sub code detail legal s).fabric = s.fabric := by rw [log_eq]
@[simp] theorem log_sun (origin sub code : Nat) (detail : List Byte) (legal : Bool) (s : State) :
    (log origin sub code detail legal s).sun = s.sun := by rw [log_eq]
@[simp] theorem log_cfg (origin sub code : Nat) (detail : List Byte) (legal : Bool) (s : State) :
    (log origin sub code detail legal s).cfg = s.cfg := by rw [log_eq]
@[simp] theorem log_host (origin sub code : Nat) (detail : List Byte) (legal : Bool) (s : State) :
    (log origin sub code detail legal s).host = s.host := by rw [log_eq]
@[simp] theorem log_acq (origin sub code : Nat) (detail : List Byte) (legal : Bool) (s : State) :
    (log origin sub code detail legal s).acq = s.acq := by rw [log_eq]
@[simp] theorem log_energy (origin sub code : Nat) (detail : List Byte) (legal : Bool) (s : State) :
    (log origin sub code detail legal s).energy = s.energy := by rw [log_eq]
@[simp] theorem log_link (origin sub code : Nat) (detail : List Byte) (legal : Bool) (s : State) :
    (log origin sub code detail legal s).link = s.link := by rw [log_eq]
@[simp] theorem log_sess (origin sub code : Nat) (detail : List Byte) (legal : Bool) (s : State) :
    (log origin sub code detail legal s).sess = s.sess := by rw [log_eq]
@[simp] theorem log_hedge (origin sub code : Nat) (detail : List Byte) (legal : Bool) (s : State) :
    (log origin sub code detail legal s).hedge = s.hedge := by rw [log_eq]
@[simp] theorem log_sw (origin sub code : Nat) (detail : List Byte) (legal : Bool) (s : State) :
    (log origin sub code detail legal s).sw = s.sw := by rw [log_eq]
@[simp] theorem log_bill (origin sub code : Nat) (detail : List Byte) (legal : Bool) (s : State) :
    (log origin sub code detail legal s).bill = s.bill := by rw [log_eq]
@[simp] theorem log_disp (origin sub code : Nat) (detail : List Byte) (legal : Bool) (s : State) :
    (log origin sub code detail legal s).disp = s.disp := by rw [log_eq]
@[simp] theorem log_otp (origin sub code : Nat) (detail : List Byte) (legal : Bool) (s : State) :
    (log origin sub code detail legal s).otp = s.otp := by rw [log_eq]
@[simp] theorem log_cis (origin sub code : Nat) (detail : List Byte) (legal : Bool) (s : State) :
    (log origin sub code detail legal s).cis = s.cis := by rw [log_eq]
@[simp] theorem log_trellis (origin sub code : Nat) (detail : List Byte) (legal : Bool) (s : State) :
    (log origin sub code detail legal s).trellis = s.trellis := by rw [log_eq]
@[simp] theorem log_wadi (origin sub code : Nat) (detail : List Byte) (legal : Bool) (s : State) :
    (log origin sub code detail legal s).wadi = s.wadi := by rw [log_eq]
@[simp] theorem log_update (origin sub code : Nat) (detail : List Byte) (legal : Bool) (s : State) :
    (log origin sub code detail legal s).update = s.update := by rw [log_eq]
@[simp] theorem log_reader0 (origin sub code : Nat) (detail : List Byte) (legal : Bool) (s : State) :
    (log origin sub code detail legal s).reader0 = s.reader0 := by rw [log_eq]
@[simp] theorem log_reader1 (origin sub code : Nat) (detail : List Byte) (legal : Bool) (s : State) :
    (log origin sub code detail legal s).reader1 = s.reader1 := by rw [log_eq]
@[simp] theorem log_tag (origin sub code : Nat) (detail : List Byte) (legal : Bool) (s : State) :
    (log origin sub code detail legal s).tag = s.tag := by rw [log_eq]
@[simp] theorem log_rake (origin sub code : Nat) (detail : List Byte) (legal : Bool) (s : State) :
    (log origin sub code detail legal s).rake = s.rake := by rw [log_eq]

end Sys2Proof.Machine
end

