-- ==== Sys2Proof/Laws/Memory.lean ====
section
/-! SUPPORT. The laws of the memory that elements write (R14): every operation keeps its canonical form, a read after a write
gives the byte written, and a write leaves every other byte alone. -/

namespace Sys2Proof.Machine

/-- Every address of the list lies above one. -/
def Memory.above (x : Nat) (m : List Host.Cell) : Prop := ∀ c ∈ m, x < c.1

theorem Memory.wf_cons (a : Nat) (v : Byte) (m : List Host.Cell) :
    Memory.wf ((a, v) :: m) = true ↔ v ≠ 0 ∧ Memory.above a m ∧ Memory.wf m = true := by
  induction m generalizing a v with
  | nil => simp [Memory.wf, Memory.above]
  | cons c m ih =>
    have h := ih c.1 c.2
    rw [Memory.wf]
    simp only [List.head?_cons, Option.all_some, Bool.and_eq_true, bne_iff_ne, ne_eq, decide_eq_true_eq, Memory.above,
      List.mem_cons, forall_eq_or_imp] at h ⊢
    constructor
    · rintro ⟨⟨h1, h2⟩, h3⟩
      exact ⟨h1, ⟨h2, fun d hd => Nat.lt_trans h2 ((h.mp h3).2.1 d hd)⟩, h3⟩
    · rintro ⟨h1, ⟨h2, -⟩, h3⟩
      exact ⟨⟨h1, h2⟩, h3⟩

theorem Memory.read_above {x y : Nat} {m : List Host.Cell} (h : Memory.above x m) (hy : y ≤ x) : Memory.read m y = 0 := by
  induction m with
  | nil => rfl
  | cons c m ih =>
    have hc := h c (List.mem_cons_self ..)
    rw [Memory.read, if_neg (by omega)]
    exact ih (fun d hd => h d (List.mem_cons_of_mem _ hd))

theorem Memory.above_write {x a : Nat} {v : Byte} {m : List Host.Cell} (h : Memory.above a m) (hx : a < x) :
    Memory.above a (Memory.write m x v) := by
  induction m with
  | nil => unfold Memory.write; split <;> simp [Memory.above, hx]
  | cons c m ih =>
    have hc := h c (List.mem_cons_self ..)
    have hm : Memory.above a m := fun d hd => h d (List.mem_cons_of_mem _ hd)
    unfold Memory.write
    have step : ∀ l, Memory.above a l → Memory.above a (c :: l) := fun l hl d hd =>
      (List.mem_cons.mp hd).elim (fun e => e ▸ hc) (hl d)
    have first : ∀ l, Memory.above a l → Memory.above a ((x, v) :: l) := fun l hl d hd =>
      (List.mem_cons.mp hd).elim (fun e => e ▸ hx) (hl d)
    repeat' split
    all_goals first
      | exact h
      | exact first _ h
      | exact hm
      | exact first _ hm
      | exact step _ (ih hm)

/-- A write keeps the canonical form. -/
theorem Memory.write_wf {m : List Host.Cell} (h : Memory.wf m = true) (x : Nat) (v : Byte) :
    Memory.wf (Memory.write m x v) = true := by
  induction m with
  | nil => unfold Memory.write; split <;> simp_all [Memory.wf]
  | cons c m ih =>
    obtain ⟨a, w⟩ := c
    obtain ⟨hw, ha, hm⟩ := (Memory.wf_cons a w m).mp h
    unfold Memory.write
    split
    · split
      · exact h
      · refine (Memory.wf_cons _ _ _).mpr ⟨by assumption, ?_, h⟩
        intro c hc
        rcases List.mem_cons.mp hc with rfl | hc
        · assumption
        · exact Nat.lt_trans (by assumption) (ha c hc)
    · split
      · split
        · exact hm
        · exact (Memory.wf_cons _ _ _).mpr ⟨by assumption, by simp_all, hm⟩
      · exact (Memory.wf_cons _ _ _).mpr ⟨hw, Memory.above_write ha (by omega), ih hm⟩

/-- A read after a write to the same address gives the byte written. -/
theorem Memory.read_write_same {m : List Host.Cell} (h : Memory.wf m = true) (x : Nat) (v : Byte) :
    Memory.read (Memory.write m x v) x = v := by
  induction m with
  | nil => unfold Memory.write; split <;> simp_all [Memory.read]
  | cons c m ih =>
    obtain ⟨a, w⟩ := c
    obtain ⟨-, ha, hm⟩ := (Memory.wf_cons a w m).mp h
    unfold Memory.write
    split
    · split
      · rw [Memory.read, if_neg (by omega), Memory.read_above ha (by omega)]
        simp_all
      · simp [Memory.read]
    · split
      · split
        · rw [Memory.read_above ha (by omega)]
          simp_all
        · simp [Memory.read]
      · rw [Memory.read, if_neg (by omega)]
        exact ih hm

/-- A write leaves every other byte alone. -/
theorem Memory.read_write_other (m : List Host.Cell) {x y : Nat} (v : Byte) (hy : y ≠ x) :
    Memory.read (Memory.write m x v) y = Memory.read m y := by
  induction m with
  | nil => unfold Memory.write; split <;> simp [Memory.read, hy.symm]
  | cons c m ih =>
    obtain ⟨a, w⟩ := c
    unfold Memory.write
    by_cases e : a = y
    · subst e
      rw [if_neg hy.symm]
      repeat' split
      all_goals simp [Memory.read, hy.symm]
    · repeat' split
      all_goals simp_all [Memory.read, hy.symm]

/-- Storing bytes keeps the canonical form. -/
theorem Memory.store_wf {m : List Host.Cell} (h : Memory.wf m = true) (addr : Nat) (bs : List Byte) :
    Memory.wf (Memory.store m addr bs) = true := by
  induction bs generalizing m addr with
  | nil => exact h
  | cons b bs ih => exact ih (Memory.write_wf h _ _) _

/-- Storing bytes leaves every byte outside them alone. -/
theorem Memory.read_store_other (m : List Host.Cell) (addr : Nat) (bs : List Byte) {y : Nat}
    (hy : y < addr ∨ addr + bs.length ≤ y) : Memory.read (Memory.store m addr bs) y = Memory.read m y := by
  induction bs generalizing m addr with
  | nil => rfl
  | cons b bs ih =>
    simp only [List.length_cons] at hy
    rw [Memory.store, ih _ _ (by omega), Memory.read_write_other _ _ (by omega)]

/-- Stored bytes read back. -/
theorem Memory.read_store_same {m : List Host.Cell} (h : Memory.wf m = true) (addr : Nat) (bs : List Byte) {i : Nat}
    (hi : i < bs.length) : Memory.read (Memory.store m addr bs) (addr + i) = bs.getD i 0 := by
  induction bs generalizing m addr i with
  | nil => simp at hi
  | cons b bs ih =>
    rw [Memory.store]
    cases i with
    | zero =>
      rw [Memory.read_store_other _ _ _ (by omega)]
      simpa using Memory.read_write_same h addr b
    | succ i =>
      rw [show addr + (i + 1) = addr + 1 + i by omega, ih (Memory.write_wf h _ _) _ (by simpa using hi)]
      simp

/-- Every access keeps the canonical form. -/
theorem accessResult_wf {m : List Host.Cell} (h : Memory.wf m = true) (a : Access) (addr : Nat) :
    Memory.wf (accessResult m a addr) = true := by
  cases a <;> unfold accessResult
  case compareSwap =>
    dsimp only
    split
    · exact Memory.store_wf h _ _
    · exact h
  all_goals first | exact h | exact Memory.store_wf h _ _

end Sys2Proof.Machine
end

