-- ==== Sys2Proof/Laws/OneWay.lean ====
section
/-! SUPPORT. The operations that do touch the OTP, the caches or the transfer record: each programs OTP one way and keeps the
host link within its bounds. -/

namespace Sys2Proof.Machine

/-! ### The relation -/

theorem OtpKeeps.refl (o : Otp) : OtpKeeps o o := by constructor <;> simp

theorem OtpKeeps.trans {a b c : Otp} (h : OtpKeeps a b) (g : OtpKeeps b c) : OtpKeeps a c where
  factory x := g.factory (h.factory x)
  root x := g.root (h.root x)
  retired x := g.retired (h.retired x)
  destroyed x := g.destroyed (h.destroyed x)
  programmed i x := g.programmed i (h.programmed i x)
  revoked i x := g.revoked i (h.revoked i x)
  entries := Nat.le_trans h.entries g.entries
  exits := Nat.le_trans h.exits g.exits
  counter := Nat.le_trans h.counter g.counter
  floors r := Nat.le_trans (h.floors r) (g.floors r)

/-- One step keeps the queue, programs OTP one way and keeps the bounds. -/
structure Onward (a b : Kept) : Prop where
  pending : b.pending = a.pending
  otp : OtpKeeps a.otp b.otp
  e0 : a.ne0 ≤ 16 → b.ne0 ≤ 16
  e1 : a.ne1 ≤ 16 → b.ne1 ≤ 16
  spi : a.nspi ≤ 16 → b.nspi ≤ 16
  transfers : a.nt ≤ 32 → b.nt ≤ 32

@[simp] theorem Onward.refl (a : Kept) : Onward a a := ⟨rfl, .refl _, id, id, id, id⟩

theorem Onward.trans {a b c : Kept} (h : Onward a b) (g : Onward b c) : Onward a c :=
  ⟨g.pending.trans h.pending, h.otp.trans g.otp, g.e0 ∘ h.e0, g.e1 ∘ h.e1, g.spi ∘ h.spi, g.transfers ∘ h.transfers⟩

theorem Onward.of_eq {a b : Kept} (h : b = a) : Onward a b := h ▸ .refl a

theorem foldl_onward {α : Type} (f : State → α → State) (hf : ∀ t a, Onward (kept t) (kept (f t a))) (l : List α) (s : State) :
    Onward (kept s) (kept (l.foldl f s)) := by
  induction l generalizing s with
  | nil => exact .refl _
  | cons a l ih => exact (hf s a).trans (ih _)

/-! ### The host link -/

theorem completeRequest_onward (port : Port) (cls opcode : Nat) (seq : U32) (status : Nat) (payload : List Byte) (s : State) :
    Onward (kept s) (kept (completeRequest port cls opcode seq status payload s)) := by
  unfold completeRequest
  dsimp only
  generalize hx : List.foldl _ (journal 4 (portBit port) seq.toNat s) _ = x
  have hk : kept x = kept s := by rw [← hx]; simp
  rw [← hk]
  cases port <;> refine ⟨rfl, .refl _, ?_, ?_, ?_, ?_⟩ <;>
    (dsimp only [kept, setOrigin]; (try split) <;> (try simp only [List.length_take]) <;> omega)

theorem acceptSeq_onward (port : Port) (q : U32) (s : State) : Onward (kept s) (kept (setOrigin port (acceptSeq q) s)) := by
  cases port <;> refine ⟨rfl, .refl _, ?_, ?_, ?_, ?_⟩ <;>
    first
      | exact id
      | exact Nat.le_trans (List.length_filter_le _ _)

theorem runRequest_onward (op : OpSpec) (r : Request) (act : State → State × Answer) (s : State)
    (hf : ∀ t, Onward (kept t) (kept (act t).1)) : Onward (kept s) (kept (runRequest op r act s).1) := by
  unfold runRequest
  repeat' split
  all_goals first | exact .refl _ | exact hf s

theorem acceptRequest_onward (code : Nat) (r : Request) (run : State → State × Answer) (s : State)
    (hf : ∀ t, Onward (kept t) (kept (run t).1)) : Onward (kept s) (kept (acceptRequest code r run s)) := by
  have key : ∀ u t a, run u = (t, a) → Onward (kept u) (kept t) := fun u t a e => by
    have h := hf u
    rwa [e] at h
  have start := acceptSeq_onward r.port r.seq (present (spiTransfer r.port s))
  unfold acceptRequest
  dsimp only
  repeat (any_goals split)
  all_goals first
    | (refine .of_eq ?_; simp; done)
    | (rename_i h
       have h2 := key _ _ _ h
       first
        | (refine .trans ?_ (completeRequest_onward _ _ _ _ _ _ _); exact start.trans h2)
        | (rw [setOrigin_kept]
           · exact start.trans h2
           · exact fun _ => rfl)
        | (simpa using h2; done))

theorem hostRequest_onward (op : OpSpec) (r : Request) (act : State → State × Answer) (s : State)
    (hf : ∀ t, Onward (kept t) (kept (act t).1)) : Onward (kept s) (kept (hostRequest op r act s)) :=
  acceptRequest_onward _ _ _ _ (fun _ => runRequest_onward _ _ _ _ hf)

theorem guarded_onward (checks : List Nat) (act : State → State × Answer) (s : State)
    (hf : ∀ t, Onward (kept t) (kept (act t).1)) : Onward (kept s) (kept (guarded checks act s).1) := by
  unfold guarded
  split
  · exact .refl _
  · exact hf s

theorem putTransfer_onward (t : Transfer) (s : State) : Onward (kept s) (kept (putTransfer t s)) := by
  unfold putTransfer
  dsimp only
  refine ⟨rfl, .refl _, id, id, id, ?_⟩
  dsimp only [kept]
  split <;> simp <;> omega

theorem bulkWrite_onward (opcode maxTotal : Nat) (check : Nat → Nat) (apply : List Byte → State → State × Nat) (r : Request)
    (s : State) (hf : ∀ b t, Onward (kept t) (kept (apply b t).1)) :
    Onward (kept s) (kept (bulkWrite opcode maxTotal check apply r s).1) := by
  unfold bulkWrite
  dsimp only
  repeat (any_goals (first | exact .refl _ | split))
  all_goals
    refine guarded_onward _ _ _ (fun _ => ?_)
    first
      | exact putTransfer_onward _ _
      | exact (hf _ _).trans (putTransfer_onward _ _)

/-! ### OTP (R317 to R319, R334, R335, R340) -/

theorem setOtp_onward (f : Otp → Otp) (s : State) (hf : OtpKeeps s.otp (f s.otp)) : Onward (kept s) (kept (setOtp f s)) :=
  ⟨rfl, hf, id, id, id, id⟩

theorem thermometer_ge (base off bit count : Nat) : count ≤ thermometer base off bit count := by
  unfold thermometer; split <;> omega

theorem withBit_keeps {n : Nat} (x : BitVec n) (i j : Nat) (h : x.getLsbD j = true) : (withBit x i).getLsbD j = true := by
  simp [withBit, h]

theorem modifyAt_ge (l : List Nat) (i : Nat) (f : Nat → Nat) (hf : i < l.length → l.getD i 0 ≤ f (l.getD i 0)) (r : Nat) :
    l.getD r 0 ≤ (modifyAt l i f).getD r 0 := by
  simp only [modifyAt, List.getD_eq_getElem?_getD, List.getElem?_modify] at hf ⊢
  cases h : l[r]? with
  | none => simp
  | some x =>
    by_cases e : i = r
    · subst e
      have hl := (List.getElem?_eq_some_iff.mp h).1
      simpa [h] using hf hl
    · simp [e]

theorem pairEffect_onward (off bit pair : Nat) (s : State) : Onward (kept s) (kept (pairEffect off bit pair s).1) := by
  unfold pairEffect
  dsimp only
  repeat' refine iteInduction (motive := fun x => Onward (kept s) (kept (Prod.fst x))) (fun _ => ?_) (fun _ => ?_)
  all_goals try dsimp only
  all_goals first
    | exact .refl _
    | (refine .of_eq ?_; rw [setCis_kept]; done)
    | (split
       · exact .of_eq (setCis_kept _ _)
       · exact .refl _)
    | (refine setOtp_onward _ _ ?_
       constructor <;> simp only [thermometer_ge, Nat.le_refl, implies_true, imp_self]
       done)
    | (refine setOtp_onward _ _ ?_
       constructor <;> try simp only [Nat.le_refl, implies_true, imp_self]
       exact fun i => withBit_keeps _ _ _)
    | (refine setOtp_onward _ _ ?_
       constructor <;> try simp only [Nat.le_refl, implies_true, imp_self]
       exact modifyAt_ge _ _ _ (fun _ => thermometer_ge _ _ _ _))

theorem pairError_onward (s : State) (e : Nat × Nat × Nat) : Onward (kept s) (kept (pairError s e)) := by
  unfold pairError
  simpa using pairEffect_onward e.1 e.2.1 e.2.2 s

theorem generateRoot_onward (rootOk : Bool) (s : State) : Onward (kept s) (kept (generateRoot rootOk s)) := by
  unfold generateRoot
  dsimp only
  repeat (any_goals split)
  · simp
  · simp only [logLifecycle_kept]
    refine .trans ?_ (setOtp_onward _ _ (by constructor <;> simp))
    simp only [draw_kept]
    exact setOtp_onward _ _ (by constructor <;> simp)
  · simp only [setCis_kept, draw_kept]
    exact setOtp_onward _ _ (by constructor <;> simp)
  · exact .refl _

theorem retire_onward (s : State) : Onward (kept s) (kept (retire s)) := by
  unfold retire
  simp only [setCis_kept, dropKeys_kept]
  exact setOtp_onward _ _ (by constructor <;> simp)

theorem buildStore_onward (s : State) : Onward (kept s) (kept (buildStore s)) := by
  unfold buildStore
  dsimp only
  refine iteInduction (motive := fun x => Onward (kept s) (kept x)) (fun _ => ?_) (fun _ => ?_)
  · refine .trans ?_ (retire_onward _)
    simp only [holdTap_kept, draw_kept, setCis_kept, dropKeys_kept, Onward.refl]
  · refine .of_eq ?_
    simp only [ite_kept, deriveMetrology_kept, loadBlobs_kept, holdTap_kept, draw_kept, setCis_kept, dropKeys_kept, ite_self]

theorem startCistern_onward (i : StartInput) (s : State) : Onward (kept s) (kept (startCistern i s)) := by
  unfold startCistern
  refine .trans ?_ (buildStore_onward _)
  refine .trans ?_ (generateRoot_onward _ _)
  refine .trans ?_ (foldl_onward _ pairError_onward _ _)
  simp

theorem programCounter_onward (n : Nat) (s : State) (h : s.otp.keyCounter ≤ n) :
    Onward (kept s) (kept (programCounter n s)) :=
  setOtp_onward _ _ (by constructor <;> simp [h])

theorem slotOperation_onward (op slot : Nat) (key : BitVec 512) (s : State) :
    Onward (kept s) (kept (slotOperation op slot key s)) := by
  unfold slotOperation
  split <;> exact setOtp_onward _ _ (by constructor <;> simp +contextual [withBit_keeps])

theorem leaveField_onward (origin path target : Nat) (s : State) : Onward (kept s) (kept (leaveField origin path target s)) := by
  unfold leaveField
  simp
  exact setOtp_onward _ _ (by constructor <;> simp)

theorem enterField_onward (origin : Nat) (s : State) : Onward (kept s) (kept (enterField origin s)) := by
  unfold enterField
  simp
  exact setOtp_onward _ _ (by constructor <;> simp)

theorem enterRetired_onward (origin : Nat) (s : State) : Onward (kept s) (kept (enterRetired origin s)) := by
  unfold enterRetired
  split
  · exact (leaveField_onward _ _ _ _).trans (retire_onward _)
  · simpa using retire_onward s

theorem changeLifecycle_onward (origin path target : Nat) (s : State) :
    Onward (kept s) (kept (changeLifecycle origin path target s)) := by
  unfold changeLifecycle
  generalize ht : ite (s.cis.lifecycle = 3 ∧ target ≠ 3) (leaveService s) s = t
  have hk : kept t = kept s := by rw [← ht]; simp
  rw [← hk, holdTap_kept]
  refine iteInduction (motive := fun x => Onward (kept t) (kept x)) (fun _ => enterField_onward _ _) (fun _ => ?_)
  exact iteInduction (motive := fun x => Onward (kept t) (kept x)) (fun _ => leaveField_onward _ _ _ _)
    (fun _ => enterRetired_onward _ _)

theorem serviceByTag_onward (s : State) : Onward (kept s) (kept (serviceByTag s).1) := by
  have key := changeLifecycle_onward 6 1 3 s
  unfold serviceByTag
  generalize changeLifecycle 6 1 3 s = u at key ⊢
  generalize cfgN s 0x0B01 0 0 1 1 = n
  generalize allWaiting s = w
  by_cases h : n ≠ 2
  · rw [if_pos h]
    exact .refl _
  · rw [if_neg h]
    by_cases g : s.cis.lifecycle ≠ 2 ∨ w = false
    · rw [if_pos g]
      exact .refl _
    · rw [if_neg g]
      exact key

theorem handleRequest_onward (b : List Byte) (s : State) : Onward (kept s) (kept (handleRequest b s)) := by
  unfold handleRequest
  dsimp only
  rw [wiredWrite_kept]
  repeat (any_goals split)
  all_goals first
    | (refine .of_eq ?_; simp; done)
    | exact serviceByTag_onward _

theorem applyKeyMessage_onward (origin : Nat) (p : List Byte) (s : State) (h : s.otp.keyCounter ≤ fieldN p 20 4) :
    Onward (kept s) (kept (applyKeyMessage origin p s)) := by
  unfold applyKeyMessage
  dsimp only
  split
  · simp only [warnCounter_kept, logKey_kept]
    exact (programCounter_onward _ _ h).trans (slotOperation_onward _ _ _ _)
  · simpa using programCounter_onward _ _ h

theorem raiseFloors_onward (mask : Nat) (s : State) : Onward (kept s) (kept (raiseFloors mask s).1) := by
  unfold raiseFloors
  generalize (regionsOf mask) = l
  suffices H : ∀ (n : Nat) (t : State), Onward (kept t) (kept (List.foldl _ (t, n) l).1) from H 0 s
  induction l with
  | nil => exact fun _ _ => .refl _
  | cons r l ih =>
    intro n t
    rw [List.foldl_cons]
    dsimp only
    cases (otherSlot t r).header with
    | none => exact ih _ _
    | some h =>
      dsimp only
      by_cases c : (fieldN h 9 1).testBit 1 = true ∧ t.otp.floors.getD r 0 < min 1024 (fieldN h 16 2)
      · rw [if_pos c]
        refine .trans ?_ (ih _ _)
        refine ⟨rfl, ?_, id, id, id, id⟩
        constructor <;> try simp only [kept, Nat.le_refl, implies_true, imp_self]
        exact modifyAt_ge _ _ _ (fun _ => Nat.le_of_lt c.2)
      · rw [if_neg c]
        exact ih _ _

theorem confirmTrial_onward (origin : Nat) (s : State) : Onward (kept s) (kept (confirmTrial origin s)) := by
  unfold confirmTrial
  simp
  exact raiseFloors_onward _ _

/-! ### Restarts (R418, R475, R476) -/

@[simp] theorem keysFallBack_kept (mask : Nat) (s : State) : kept (keysFallBack mask s) = kept s := by
  unfold keysFallBack
  dsimp only
  split
  · cases statementInForce (supersede (keysConfirm mask s)) <;> simp
  · simp

@[simp] theorem fallBackTrial_kept (origin cause : Nat) (s : State) : kept (fallBackTrial origin cause s) = kept s := by
  unfold fallBackTrial
  dsimp only
  split <;> simp

@[simp] theorem loseRetention_kept (s : State) : kept (loseRetention s) = kept s := by
  simp [loseRetention, randomL]

@[simp] theorem closeTransfers_kept (s : State) : kept (closeTransfers s) = kept s := by
  simp [closeTransfers]

theorem powerDown_onward (phase : Phase) (s : State) : Onward (kept s) (kept (powerDown phase s)) := by
  rw [← saveSystem_kept s]
  exact ⟨rfl, .refl _, fun _ => Nat.zero_le _, fun _ => Nat.zero_le _, fun _ => Nat.zero_le _, fun _ => Nat.zero_le _⟩

theorem fullRestart_onward (cause : Nat) (straps : Slot) (recover : Bool) (s : State) :
    Onward (kept s) (kept (fullRestart cause straps recover s)) := by
  unfold fullRestart
  simpa using powerDown_onward _ s

theorem enterRecovery_onward (fresh : Bool) (why nominal : Nat) (s : State) :
    Onward (kept s) (kept (enterRecovery fresh why nominal s)) := by
  unfold enterRecovery
  dsimp only
  simp only [updateLog_kept, startEntry_kept, setPower_kept, recoveryNetwork_kept]
  refine .trans ?_ (buildStore_onward _)
  refine .trans (powerDown_onward .recovery s) (.of_eq ?_)
  split
  · rfl
  · simp

theorem coldBoot_onward (i : StartInput) (s : State) : Onward (kept s) (kept (coldBoot i s)) := by
  unfold coldBoot
  dsimp only
  split
  · simp
  · simp
    simpa using startCistern_onward i (bootSlots s)

theorem warmBoot_onward (cause : Nat) (i : StartInput) (s : State) : Onward (kept s) (kept (warmBoot cause i s)) := by
  unfold warmBoot
  dsimp only
  split
  · simp
  · simp
    simpa using buildStore_onward (measureImages s)

theorem romBoot_onward (fresh : Bool) (nominal : Nat) (boot : State → State) (s : State)
    (hf : ∀ t, Onward (kept t) (kept (boot t))) : Onward (kept s) (kept (romBoot fresh nominal boot s)) := by
  unfold romBoot
  dsimp only
  repeat (any_goals split)
  · simpa using hf (fallBackTrial 0 1 (ledgerStart s))
  · simpa using enterRecovery_onward fresh 3 nominal (ledgerStart s)
  · simpa using hf (ledgerStart s)

theorem warmRestart_onward (cause : Nat) (i : StartInput) (s : State) :
    Onward (kept s) (kept (warmRestart cause i s)) := by
  unfold warmRestart
  dsimp only
  refine .trans ?_ (romBoot_onward _ _ _ _ (fun t => ?_))
  · simp
  · split
    · exact warmBoot_onward _ _ _
    · exact coldBoot_onward _ _

theorem startTested_onward (i : StartInput) (s : State) : Onward (kept s) (kept (startTested i s)) := by
  unfold startTested
  dsimp only
  generalize ht : ite (signatureUsable s = true) (logEarlierRun _) _ = t
  have hk : kept t = kept s := by rw [← ht]; simp
  rw [← hk]
  refine iteInduction (motive := fun x => Onward (kept t) (kept x)) (fun _ => ?_) (fun _ => ?_)
  · simp
  · generalize hu : failDomain 1 _ _ = u
    have hk : kept u = kept t := by rw [← hu]; simp
    rw [← hk]
    refine iteInduction (motive := fun x => Onward (kept u) (kept x)) (fun _ => ?_) (fun _ => ?_)
    · refine .trans ?_ (enterRecovery_onward _ _ _ _)
      simp
    · exact romBoot_onward _ _ _ _ (coldBoot_onward i)

theorem engineRestart_onward (elem : Nat) (s : State) : Onward (kept s) (kept (engineRestart elem s)) := by
  unfold engineRestart
  dsimp only
  repeat (any_goals split)
  all_goals first
    | (refine .of_eq ?_; simp; done)
    | (rw [settle_kept, forOutlets_kept]
       · exact buildStore_onward s
       · intro o t; split <;> simp)
    | skip

theorem restartInPlace_onward (cause : Nat) (i : StartInput) (s : State) :
    Onward (kept s) (kept (restartInPlace cause i s)) := by
  unfold restartInPlace
  dsimp only
  split
  · simpa using warmRestart_onward 6 i (logRestart cause 1 s)
  · simp

theorem takeOver_onward (cause : Nat) (i : StartInput) (s : State) : Onward (kept s) (kept (takeOver cause i s)) := by
  unfold takeOver
  dsimp only
  split
  · simp
  · exact restartInPlace_onward _ _ _

theorem activateNow_onward (origin mask : Nat) (i : StartInput) (s : State) :
    Onward (kept s) (kept (activateNow origin mask i s)) := by
  unfold activateNow
  dsimp only
  refine .trans ?_ (warmRestart_onward _ _ _)
  simp

theorem activateWaiting_onward (i : StartInput) (s : State) : Onward (kept s) (kept (activateWaiting i s)) := by
  unfold activateWaiting
  repeat (any_goals split)
  all_goals first | exact .refl _ | exact activateNow_onward _ _ _ _

theorem runFallback_onward (i : StartInput) (s : State) : Onward (kept s) (kept (runFallback i s)) := by
  unfold runFallback
  repeat (any_goals split)
  all_goals first
    | exact .refl _
    | simpa using warmRestart_onward 4 i (fallBackTrial _ _ s)

theorem leaveRecovery_onward (i : StartInput) (s : State) : Onward (kept s) (kept (leaveRecovery i s)) := by
  unfold leaveRecovery
  dsimp only
  refine .trans ?_ (warmRestart_onward _ _ _)
  split <;> simp

theorem recoveryReset_onward (s : State) : Onward (kept s) (kept (recoveryReset s)) := by
  unfold recoveryReset
  split
  · refine .trans ?_ (fullRestart_onward _ _ _ _)
    simp
  · exact .refl _

theorem orderlyReset_onward (i : StartInput) (s : State) : Onward (kept s) (kept (orderlyReset i s)) := by
  unfold orderlyReset
  split
  · exact warmRestart_onward _ _ _
  · exact recoveryReset_onward _

theorem shutDown_onward (w : WindowInput) (last : Fin 256) (k : RakeOutcome) (s : State) :
    Onward (kept s) (kept (shutDown w last k s)) := by
  unfold shutDown
  dsimp only
  refine .trans ?_ (powerDown_onward _ _)
  simp

theorem releaseEffect_onward (held : Nat) (s : State) : Onward (kept s) (kept (releaseEffect held s)) := by
  unfold releaseEffect
  repeat (any_goals split)
  all_goals first
    | (refine .of_eq ?_; simp; done)
    | (refine .trans ?_ (fullRestart_onward _ _ _ _); simp; done)

theorem violate_onward (elem : Nat) (write : Bool) (addr : Nat) (s : State) :
    Onward (kept s) (kept (violate elem write addr s)) := by
  unfold violate
  dsimp only
  repeat (any_goals split)
  all_goals first
    | (refine .of_eq ?_; simp; done)
    | (refine .trans ?_ (engineRestart_onward _ _); simp; done)

theorem respondDoubleBit_onward (array elem addr : Nat) (i : StartInput) (s : State) :
    Onward (kept s) (kept (respondDoubleBit array elem addr i s)) := by
  unfold respondDoubleBit
  repeat (any_goals split)
  all_goals first
    | (refine .of_eq ?_; simp; done)
    | exact takeOver_onward _ _ _
    | (rw [loadStress_kept]; exact engineRestart_onward _ _)
    | exact engineRestart_onward _ _
    | (cases registerAt addr <;> simp)

/-! ### Packages (R421 to R424) -/

theorem takePackageBlock_onward (origin : Nat) (h : List Byte) (t : Transfer) (off : Nat) (data : List Byte)
    (s : State) : Onward (kept s) (kept (takePackageBlock origin h t off data s).1) := by
  unfold takePackageBlock
  dsimp only
  split
  · refine .trans ?_ (putTransfer_onward _ _)
    simp
  · refine .trans ?_ (putTransfer_onward _ _)
    simp

theorem beginPackage_onward (r : Request) (h : List Byte) (s : State) : Onward (kept s) (kept (beginPackage r h s).1) := by
  unfold beginPackage
  dsimp only
  cases headerChecks s h with
  | some x => simp
  | none =>
    dsimp only
    split
    · simp
    · dsimp only
      refine .trans ?_ (takePackageBlock_onward _ _ _ _ _ _)
      refine .trans ?_ (putTransfer_onward _ _)
      simp

theorem openPackage_onward (r : Request) (s : State) : Onward (kept s) (kept (openPackage r s).1) := by
  unfold openPackage
  dsimp only
  refine guarded_onward _ _ _ (fun t => ?_)
  repeat (any_goals split)
  · exact .refl _
  · exact beginPackage_onward _ _ _
  · exact beginPackage_onward _ _ _
  · refine .trans ?_ (beginPackage_onward _ _ _)
    simp
  · simp [done]

theorem continuePackage_onward (x : Transfer) (r : Request) (s : State) :
    Onward (kept s) (kept (continuePackage x r s).1) := by
  unfold continuePackage
  dsimp only
  split
  · exact .refl _
  · refine guarded_onward _ _ _ (fun t => ?_)
    split
    · exact .refl _
    · exact takePackageBlock_onward _ _ _ _ _ _

end Sys2Proof.Machine
end

