-- ==== Sys2Proof/Laws/State.lean ====
section
/-! SUPPORT. What each update of the state leaves in each of its fields, and the laws of a value per outlet. -/

namespace Sys2Proof.Machine

/-! ### A value per outlet -/

@[simp] theorem PerOutlet.get_set_same {α : Type} (x : PerOutlet α) (o : Outlet) (v : α) : (x.set o v).get o = v := by
  revert o
  simp [PerOutlet.get, PerOutlet.set, Fin.forall_fin_succ]

theorem PerOutlet.get_set_other {α : Type} (x : PerOutlet α) (o p : Outlet) (v : α) (h : p ≠ o) :
    (x.set o v).get p = x.get p := by
  revert o p
  simp [PerOutlet.get, PerOutlet.set, Fin.forall_fin_succ]

/-! ### One lemma per field per update -/

@[simp] theorem setAcq_pending (f : Acquisition → Acquisition) (s : State) : (setAcq f s).pending = s.pending := rfl
@[simp] theorem setAcq_clockMs (f : Acquisition → Acquisition) (s : State) : (setAcq f s).clockMs = s.clockMs := rfl
@[simp] theorem setAcq_freeCount (f : Acquisition → Acquisition) (s : State) : (setAcq f s).freeCount = s.freeCount := rfl
@[simp] theorem setAcq_out (f : Acquisition → Acquisition) (s : State) : (setAcq f s).out = s.out := rfl
@[simp] theorem setAcq_power (f : Acquisition → Acquisition) (s : State) : (setAcq f s).power = s.power := rfl
@[simp] theorem setAcq_fabric (f : Acquisition → Acquisition) (s : State) : (setAcq f s).fabric = s.fabric := rfl
@[simp] theorem setAcq_sun (f : Acquisition → Acquisition) (s : State) : (setAcq f s).sun = s.sun := rfl
@[simp] theorem setAcq_cfg (f : Acquisition → Acquisition) (s : State) : (setAcq f s).cfg = s.cfg := rfl
@[simp] theorem setAcq_logs (f : Acquisition → Acquisition) (s : State) : (setAcq f s).logs = s.logs := rfl
@[simp] theorem setAcq_host (f : Acquisition → Acquisition) (s : State) : (setAcq f s).host = s.host := rfl
@[simp] theorem setAcq_acq (f : Acquisition → Acquisition) (s : State) : (setAcq f s).acq = f s.acq := rfl
@[simp] theorem setAcq_energy (f : Acquisition → Acquisition) (s : State) : (setAcq f s).energy = s.energy := rfl
@[simp] theorem setAcq_link (f : Acquisition → Acquisition) (s : State) : (setAcq f s).link = s.link := rfl
@[simp] theorem setAcq_sess (f : Acquisition → Acquisition) (s : State) : (setAcq f s).sess = s.sess := rfl
@[simp] theorem setAcq_hedge (f : Acquisition → Acquisition) (s : State) : (setAcq f s).hedge = s.hedge := rfl
@[simp] theorem setAcq_sw (f : Acquisition → Acquisition) (s : State) : (setAcq f s).sw = s.sw := rfl
@[simp] theorem setAcq_bill (f : Acquisition → Acquisition) (s : State) : (setAcq f s).bill = s.bill := rfl
@[simp] theorem setAcq_disp (f : Acquisition → Acquisition) (s : State) : (setAcq f s).disp = s.disp := rfl
@[simp] theorem setAcq_otp (f : Acquisition → Acquisition) (s : State) : (setAcq f s).otp = s.otp := rfl
@[simp] theorem setAcq_cis (f : Acquisition → Acquisition) (s : State) : (setAcq f s).cis = s.cis := rfl
@[simp] theorem setAcq_dom (f : Acquisition → Acquisition) (s : State) : (setAcq f s).dom = s.dom := rfl
@[simp] theorem setAcq_trellis (f : Acquisition → Acquisition) (s : State) : (setAcq f s).trellis = s.trellis := rfl
@[simp] theorem setAcq_wadi (f : Acquisition → Acquisition) (s : State) : (setAcq f s).wadi = s.wadi := rfl
@[simp] theorem setAcq_update (f : Acquisition → Acquisition) (s : State) : (setAcq f s).update = s.update := rfl
@[simp] theorem setAcq_reader0 (f : Acquisition → Acquisition) (s : State) : (setAcq f s).reader0 = s.reader0 := rfl
@[simp] theorem setAcq_reader1 (f : Acquisition → Acquisition) (s : State) : (setAcq f s).reader1 = s.reader1 := rfl
@[simp] theorem setAcq_tag (f : Acquisition → Acquisition) (s : State) : (setAcq f s).tag = s.tag := rfl
@[simp] theorem setAcq_rake (f : Acquisition → Acquisition) (s : State) : (setAcq f s).rake = s.rake := rfl

@[simp] theorem setBill_pending (f : Billing → Billing) (s : State) : (setBill f s).pending = s.pending := rfl
@[simp] theorem setBill_clockMs (f : Billing → Billing) (s : State) : (setBill f s).clockMs = s.clockMs := rfl
@[simp] theorem setBill_freeCount (f : Billing → Billing) (s : State) : (setBill f s).freeCount = s.freeCount := rfl
@[simp] theorem setBill_out (f : Billing → Billing) (s : State) : (setBill f s).out = s.out := rfl
@[simp] theorem setBill_power (f : Billing → Billing) (s : State) : (setBill f s).power = s.power := rfl
@[simp] theorem setBill_fabric (f : Billing → Billing) (s : State) : (setBill f s).fabric = s.fabric := rfl
@[simp] theorem setBill_sun (f : Billing → Billing) (s : State) : (setBill f s).sun = s.sun := rfl
@[simp] theorem setBill_cfg (f : Billing → Billing) (s : State) : (setBill f s).cfg = s.cfg := rfl
@[simp] theorem setBill_logs (f : Billing → Billing) (s : State) : (setBill f s).logs = s.logs := rfl
@[simp] theorem setBill_host (f : Billing → Billing) (s : State) : (setBill f s).host = s.host := rfl
@[simp] theorem setBill_acq (f : Billing → Billing) (s : State) : (setBill f s).acq = s.acq := rfl
@[simp] theorem setBill_energy (f : Billing → Billing) (s : State) : (setBill f s).energy = s.energy := rfl
@[simp] theorem setBill_link (f : Billing → Billing) (s : State) : (setBill f s).link = s.link := rfl
@[simp] theorem setBill_sess (f : Billing → Billing) (s : State) : (setBill f s).sess = s.sess := rfl
@[simp] theorem setBill_hedge (f : Billing → Billing) (s : State) : (setBill f s).hedge = s.hedge := rfl
@[simp] theorem setBill_sw (f : Billing → Billing) (s : State) : (setBill f s).sw = s.sw := rfl
@[simp] theorem setBill_bill (f : Billing → Billing) (s : State) : (setBill f s).bill = f s.bill := rfl
@[simp] theorem setBill_disp (f : Billing → Billing) (s : State) : (setBill f s).disp = s.disp := rfl
@[simp] theorem setBill_otp (f : Billing → Billing) (s : State) : (setBill f s).otp = s.otp := rfl
@[simp] theorem setBill_cis (f : Billing → Billing) (s : State) : (setBill f s).cis = s.cis := rfl
@[simp] theorem setBill_dom (f : Billing → Billing) (s : State) : (setBill f s).dom = s.dom := rfl
@[simp] theorem setBill_trellis (f : Billing → Billing) (s : State) : (setBill f s).trellis = s.trellis := rfl
@[simp] theorem setBill_wadi (f : Billing → Billing) (s : State) : (setBill f s).wadi = s.wadi := rfl
@[simp] theorem setBill_update (f : Billing → Billing) (s : State) : (setBill f s).update = s.update := rfl
@[simp] theorem setBill_reader0 (f : Billing → Billing) (s : State) : (setBill f s).reader0 = s.reader0 := rfl
@[simp] theorem setBill_reader1 (f : Billing → Billing) (s : State) : (setBill f s).reader1 = s.reader1 := rfl
@[simp] theorem setBill_tag (f : Billing → Billing) (s : State) : (setBill f s).tag = s.tag := rfl
@[simp] theorem setBill_rake (f : Billing → Billing) (s : State) : (setBill f s).rake = s.rake := rfl

@[simp] theorem setSw_pending (f : Switches → Switches) (s : State) : (setSw f s).pending = s.pending := rfl
@[simp] theorem setSw_clockMs (f : Switches → Switches) (s : State) : (setSw f s).clockMs = s.clockMs := rfl
@[simp] theorem setSw_freeCount (f : Switches → Switches) (s : State) : (setSw f s).freeCount = s.freeCount := rfl
@[simp] theorem setSw_out (f : Switches → Switches) (s : State) : (setSw f s).out = s.out := rfl
@[simp] theorem setSw_power (f : Switches → Switches) (s : State) : (setSw f s).power = s.power := rfl
@[simp] theorem setSw_fabric (f : Switches → Switches) (s : State) : (setSw f s).fabric = s.fabric := rfl
@[simp] theorem setSw_sun (f : Switches → Switches) (s : State) : (setSw f s).sun = s.sun := rfl
@[simp] theorem setSw_cfg (f : Switches → Switches) (s : State) : (setSw f s).cfg = s.cfg := rfl
@[simp] theorem setSw_logs (f : Switches → Switches) (s : State) : (setSw f s).logs = s.logs := rfl
@[simp] theorem setSw_host (f : Switches → Switches) (s : State) : (setSw f s).host = s.host := rfl
@[simp] theorem setSw_acq (f : Switches → Switches) (s : State) : (setSw f s).acq = s.acq := rfl
@[simp] theorem setSw_energy (f : Switches → Switches) (s : State) : (setSw f s).energy = s.energy := rfl
@[simp] theorem setSw_link (f : Switches → Switches) (s : State) : (setSw f s).link = s.link := rfl
@[simp] theorem setSw_sess (f : Switches → Switches) (s : State) : (setSw f s).sess = s.sess := rfl
@[simp] theorem setSw_hedge (f : Switches → Switches) (s : State) : (setSw f s).hedge = s.hedge := rfl
@[simp] theorem setSw_sw (f : Switches → Switches) (s : State) : (setSw f s).sw = f s.sw := rfl
@[simp] theorem setSw_bill (f : Switches → Switches) (s : State) : (setSw f s).bill = s.bill := rfl
@[simp] theorem setSw_disp (f : Switches → Switches) (s : State) : (setSw f s).disp = s.disp := rfl
@[simp] theorem setSw_otp (f : Switches → Switches) (s : State) : (setSw f s).otp = s.otp := rfl
@[simp] theorem setSw_cis (f : Switches → Switches) (s : State) : (setSw f s).cis = s.cis := rfl
@[simp] theorem setSw_dom (f : Switches → Switches) (s : State) : (setSw f s).dom = s.dom := rfl
@[simp] theorem setSw_trellis (f : Switches → Switches) (s : State) : (setSw f s).trellis = s.trellis := rfl
@[simp] theorem setSw_wadi (f : Switches → Switches) (s : State) : (setSw f s).wadi = s.wadi := rfl
@[simp] theorem setSw_update (f : Switches → Switches) (s : State) : (setSw f s).update = s.update := rfl
@[simp] theorem setSw_reader0 (f : Switches → Switches) (s : State) : (setSw f s).reader0 = s.reader0 := rfl
@[simp] theorem setSw_reader1 (f : Switches → Switches) (s : State) : (setSw f s).reader1 = s.reader1 := rfl
@[simp] theorem setSw_tag (f : Switches → Switches) (s : State) : (setSw f s).tag = s.tag := rfl
@[simp] theorem setSw_rake (f : Switches → Switches) (s : State) : (setSw f s).rake = s.rake := rfl

@[simp] theorem setOtp_pending (f : Otp → Otp) (s : State) : (setOtp f s).pending = s.pending := rfl
@[simp] theorem setOtp_clockMs (f : Otp → Otp) (s : State) : (setOtp f s).clockMs = s.clockMs := rfl
@[simp] theorem setOtp_freeCount (f : Otp → Otp) (s : State) : (setOtp f s).freeCount = s.freeCount := rfl
@[simp] theorem setOtp_out (f : Otp → Otp) (s : State) : (setOtp f s).out = s.out := rfl
@[simp] theorem setOtp_power (f : Otp → Otp) (s : State) : (setOtp f s).power = s.power := rfl
@[simp] theorem setOtp_fabric (f : Otp → Otp) (s : State) : (setOtp f s).fabric = s.fabric := rfl
@[simp] theorem setOtp_sun (f : Otp → Otp) (s : State) : (setOtp f s).sun = s.sun := rfl
@[simp] theorem setOtp_cfg (f : Otp → Otp) (s : State) : (setOtp f s).cfg = s.cfg := rfl
@[simp] theorem setOtp_logs (f : Otp → Otp) (s : State) : (setOtp f s).logs = s.logs := rfl
@[simp] theorem setOtp_host (f : Otp → Otp) (s : State) : (setOtp f s).host = s.host := rfl
@[simp] theorem setOtp_acq (f : Otp → Otp) (s : State) : (setOtp f s).acq = s.acq := rfl
@[simp] theorem setOtp_energy (f : Otp → Otp) (s : State) : (setOtp f s).energy = s.energy := rfl
@[simp] theorem setOtp_link (f : Otp → Otp) (s : State) : (setOtp f s).link = s.link := rfl
@[simp] theorem setOtp_sess (f : Otp → Otp) (s : State) : (setOtp f s).sess = s.sess := rfl
@[simp] theorem setOtp_hedge (f : Otp → Otp) (s : State) : (setOtp f s).hedge = s.hedge := rfl
@[simp] theorem setOtp_sw (f : Otp → Otp) (s : State) : (setOtp f s).sw = s.sw := rfl
@[simp] theorem setOtp_bill (f : Otp → Otp) (s : State) : (setOtp f s).bill = s.bill := rfl
@[simp] theorem setOtp_disp (f : Otp → Otp) (s : State) : (setOtp f s).disp = s.disp := rfl
@[simp] theorem setOtp_otp (f : Otp → Otp) (s : State) : (setOtp f s).otp = f s.otp := rfl
@[simp] theorem setOtp_cis (f : Otp → Otp) (s : State) : (setOtp f s).cis = s.cis := rfl
@[simp] theorem setOtp_dom (f : Otp → Otp) (s : State) : (setOtp f s).dom = s.dom := rfl
@[simp] theorem setOtp_trellis (f : Otp → Otp) (s : State) : (setOtp f s).trellis = s.trellis := rfl
@[simp] theorem setOtp_wadi (f : Otp → Otp) (s : State) : (setOtp f s).wadi = s.wadi := rfl
@[simp] theorem setOtp_update (f : Otp → Otp) (s : State) : (setOtp f s).update = s.update := rfl
@[simp] theorem setOtp_reader0 (f : Otp → Otp) (s : State) : (setOtp f s).reader0 = s.reader0 := rfl
@[simp] theorem setOtp_reader1 (f : Otp → Otp) (s : State) : (setOtp f s).reader1 = s.reader1 := rfl
@[simp] theorem setOtp_tag (f : Otp → Otp) (s : State) : (setOtp f s).tag = s.tag := rfl
@[simp] theorem setOtp_rake (f : Otp → Otp) (s : State) : (setOtp f s).rake = s.rake := rfl

@[simp] theorem setDisp_pending (f : Display → Display) (s : State) : (setDisp f s).pending = s.pending := rfl
@[simp] theorem setDisp_clockMs (f : Display → Display) (s : State) : (setDisp f s).clockMs = s.clockMs := rfl
@[simp] theorem setDisp_freeCount (f : Display → Display) (s : State) : (setDisp f s).freeCount = s.freeCount := rfl
@[simp] theorem setDisp_out (f : Display → Display) (s : State) : (setDisp f s).out = s.out := rfl
@[simp] theorem setDisp_power (f : Display → Display) (s : State) : (setDisp f s).power = s.power := rfl
@[simp] theorem setDisp_fabric (f : Display → Display) (s : State) : (setDisp f s).fabric = s.fabric := rfl
@[simp] theorem setDisp_sun (f : Display → Display) (s : State) : (setDisp f s).sun = s.sun := rfl
@[simp] theorem setDisp_cfg (f : Display → Display) (s : State) : (setDisp f s).cfg = s.cfg := rfl
@[simp] theorem setDisp_logs (f : Display → Display) (s : State) : (setDisp f s).logs = s.logs := rfl
@[simp] theorem setDisp_host (f : Display → Display) (s : State) : (setDisp f s).host = s.host := rfl
@[simp] theorem setDisp_acq (f : Display → Display) (s : State) : (setDisp f s).acq = s.acq := rfl
@[simp] theorem setDisp_energy (f : Display → Display) (s : State) : (setDisp f s).energy = s.energy := rfl
@[simp] theorem setDisp_link (f : Display → Display) (s : State) : (setDisp f s).link = s.link := rfl
@[simp] theorem setDisp_sess (f : Display → Display) (s : State) : (setDisp f s).sess = s.sess := rfl
@[simp] theorem setDisp_hedge (f : Display → Display) (s : State) : (setDisp f s).hedge = s.hedge := rfl
@[simp] theorem setDisp_sw (f : Display → Display) (s : State) : (setDisp f s).sw = s.sw := rfl
@[simp] theorem setDisp_bill (f : Display → Display) (s : State) : (setDisp f s).bill = s.bill := rfl
@[simp] theorem setDisp_disp (f : Display → Display) (s : State) : (setDisp f s).disp = f s.disp := rfl
@[simp] theorem setDisp_otp (f : Display → Display) (s : State) : (setDisp f s).otp = s.otp := rfl
@[simp] theorem setDisp_cis (f : Display → Display) (s : State) : (setDisp f s).cis = s.cis := rfl
@[simp] theorem setDisp_dom (f : Display → Display) (s : State) : (setDisp f s).dom = s.dom := rfl
@[simp] theorem setDisp_trellis (f : Display → Display) (s : State) : (setDisp f s).trellis = s.trellis := rfl
@[simp] theorem setDisp_wadi (f : Display → Display) (s : State) : (setDisp f s).wadi = s.wadi := rfl
@[simp] theorem setDisp_update (f : Display → Display) (s : State) : (setDisp f s).update = s.update := rfl
@[simp] theorem setDisp_reader0 (f : Display → Display) (s : State) : (setDisp f s).reader0 = s.reader0 := rfl
@[simp] theorem setDisp_reader1 (f : Display → Display) (s : State) : (setDisp f s).reader1 = s.reader1 := rfl
@[simp] theorem setDisp_tag (f : Display → Display) (s : State) : (setDisp f s).tag = s.tag := rfl
@[simp] theorem setDisp_rake (f : Display → Display) (s : State) : (setDisp f s).rake = s.rake := rfl

@[simp] theorem setDom_pending (f : Domains → Domains) (s : State) : (setDom f s).pending = s.pending := rfl
@[simp] theorem setDom_clockMs (f : Domains → Domains) (s : State) : (setDom f s).clockMs = s.clockMs := rfl
@[simp] theorem setDom_freeCount (f : Domains → Domains) (s : State) : (setDom f s).freeCount = s.freeCount := rfl
@[simp] theorem setDom_out (f : Domains → Domains) (s : State) : (setDom f s).out = s.out := rfl
@[simp] theorem setDom_power (f : Domains → Domains) (s : State) : (setDom f s).power = s.power := rfl
@[simp] theorem setDom_fabric (f : Domains → Domains) (s : State) : (setDom f s).fabric = s.fabric := rfl
@[simp] theorem setDom_sun (f : Domains → Domains) (s : State) : (setDom f s).sun = s.sun := rfl
@[simp] theorem setDom_cfg (f : Domains → Domains) (s : State) : (setDom f s).cfg = s.cfg := rfl
@[simp] theorem setDom_logs (f : Domains → Domains) (s : State) : (setDom f s).logs = s.logs := rfl
@[simp] theorem setDom_host (f : Domains → Domains) (s : State) : (setDom f s).host = s.host := rfl
@[simp] theorem setDom_acq (f : Domains → Domains) (s : State) : (setDom f s).acq = s.acq := rfl
@[simp] theorem setDom_energy (f : Domains → Domains) (s : State) : (setDom f s).energy = s.energy := rfl
@[simp] theorem setDom_link (f : Domains → Domains) (s : State) : (setDom f s).link = s.link := rfl
@[simp] theorem setDom_sess (f : Domains → Domains) (s : State) : (setDom f s).sess = s.sess := rfl
@[simp] theorem setDom_hedge (f : Domains → Domains) (s : State) : (setDom f s).hedge = s.hedge := rfl
@[simp] theorem setDom_sw (f : Domains → Domains) (s : State) : (setDom f s).sw = s.sw := rfl
@[simp] theorem setDom_bill (f : Domains → Domains) (s : State) : (setDom f s).bill = s.bill := rfl
@[simp] theorem setDom_disp (f : Domains → Domains) (s : State) : (setDom f s).disp = s.disp := rfl
@[simp] theorem setDom_otp (f : Domains → Domains) (s : State) : (setDom f s).otp = s.otp := rfl
@[simp] theorem setDom_cis (f : Domains → Domains) (s : State) : (setDom f s).cis = s.cis := rfl
@[simp] theorem setDom_dom (f : Domains → Domains) (s : State) : (setDom f s).dom = f s.dom := rfl
@[simp] theorem setDom_trellis (f : Domains → Domains) (s : State) : (setDom f s).trellis = s.trellis := rfl
@[simp] theorem setDom_wadi (f : Domains → Domains) (s : State) : (setDom f s).wadi = s.wadi := rfl
@[simp] theorem setDom_update (f : Domains → Domains) (s : State) : (setDom f s).update = s.update := rfl
@[simp] theorem setDom_reader0 (f : Domains → Domains) (s : State) : (setDom f s).reader0 = s.reader0 := rfl
@[simp] theorem setDom_reader1 (f : Domains → Domains) (s : State) : (setDom f s).reader1 = s.reader1 := rfl
@[simp] theorem setDom_tag (f : Domains → Domains) (s : State) : (setDom f s).tag = s.tag := rfl
@[simp] theorem setDom_rake (f : Domains → Domains) (s : State) : (setDom f s).rake = s.rake := rfl

@[simp] theorem setEnergy_pending (f : Energy → Energy) (s : State) : (setEnergy f s).pending = s.pending := rfl
@[simp] theorem setEnergy_clockMs (f : Energy → Energy) (s : State) : (setEnergy f s).clockMs = s.clockMs := rfl
@[simp] theorem setEnergy_freeCount (f : Energy → Energy) (s : State) : (setEnergy f s).freeCount = s.freeCount := rfl
@[simp] theorem setEnergy_out (f : Energy → Energy) (s : State) : (setEnergy f s).out = s.out := rfl
@[simp] theorem setEnergy_power (f : Energy → Energy) (s : State) : (setEnergy f s).power = s.power := rfl
@[simp] theorem setEnergy_fabric (f : Energy → Energy) (s : State) : (setEnergy f s).fabric = s.fabric := rfl
@[simp] theorem setEnergy_sun (f : Energy → Energy) (s : State) : (setEnergy f s).sun = s.sun := rfl
@[simp] theorem setEnergy_cfg (f : Energy → Energy) (s : State) : (setEnergy f s).cfg = s.cfg := rfl
@[simp] theorem setEnergy_logs (f : Energy → Energy) (s : State) : (setEnergy f s).logs = s.logs := rfl
@[simp] theorem setEnergy_host (f : Energy → Energy) (s : State) : (setEnergy f s).host = s.host := rfl
@[simp] theorem setEnergy_acq (f : Energy → Energy) (s : State) : (setEnergy f s).acq = s.acq := rfl
@[simp] theorem setEnergy_energy (f : Energy → Energy) (s : State) : (setEnergy f s).energy = f s.energy := rfl
@[simp] theorem setEnergy_link (f : Energy → Energy) (s : State) : (setEnergy f s).link = s.link := rfl
@[simp] theorem setEnergy_sess (f : Energy → Energy) (s : State) : (setEnergy f s).sess = s.sess := rfl
@[simp] theorem setEnergy_hedge (f : Energy → Energy) (s : State) : (setEnergy f s).hedge = s.hedge := rfl
@[simp] theorem setEnergy_sw (f : Energy → Energy) (s : State) : (setEnergy f s).sw = s.sw := rfl
@[simp] theorem setEnergy_bill (f : Energy → Energy) (s : State) : (setEnergy f s).bill = s.bill := rfl
@[simp] theorem setEnergy_disp (f : Energy → Energy) (s : State) : (setEnergy f s).disp = s.disp := rfl
@[simp] theorem setEnergy_otp (f : Energy → Energy) (s : State) : (setEnergy f s).otp = s.otp := rfl
@[simp] theorem setEnergy_cis (f : Energy → Energy) (s : State) : (setEnergy f s).cis = s.cis := rfl
@[simp] theorem setEnergy_dom (f : Energy → Energy) (s : State) : (setEnergy f s).dom = s.dom := rfl
@[simp] theorem setEnergy_trellis (f : Energy → Energy) (s : State) : (setEnergy f s).trellis = s.trellis := rfl
@[simp] theorem setEnergy_wadi (f : Energy → Energy) (s : State) : (setEnergy f s).wadi = s.wadi := rfl
@[simp] theorem setEnergy_update (f : Energy → Energy) (s : State) : (setEnergy f s).update = s.update := rfl
@[simp] theorem setEnergy_reader0 (f : Energy → Energy) (s : State) : (setEnergy f s).reader0 = s.reader0 := rfl
@[simp] theorem setEnergy_reader1 (f : Energy → Energy) (s : State) : (setEnergy f s).reader1 = s.reader1 := rfl
@[simp] theorem setEnergy_tag (f : Energy → Energy) (s : State) : (setEnergy f s).tag = s.tag := rfl
@[simp] theorem setEnergy_rake (f : Energy → Energy) (s : State) : (setEnergy f s).rake = s.rake := rfl

@[simp] theorem setHedgeM_pending (f : Hedge → Hedge) (s : State) : (setHedgeM f s).pending = s.pending := rfl
@[simp] theorem setHedgeM_clockMs (f : Hedge → Hedge) (s : State) : (setHedgeM f s).clockMs = s.clockMs := rfl
@[simp] theorem setHedgeM_freeCount (f : Hedge → Hedge) (s : State) : (setHedgeM f s).freeCount = s.freeCount := rfl
@[simp] theorem setHedgeM_out (f : Hedge → Hedge) (s : State) : (setHedgeM f s).out = s.out := rfl
@[simp] theorem setHedgeM_power (f : Hedge → Hedge) (s : State) : (setHedgeM f s).power = s.power := rfl
@[simp] theorem setHedgeM_fabric (f : Hedge → Hedge) (s : State) : (setHedgeM f s).fabric = s.fabric := rfl
@[simp] theorem setHedgeM_sun (f : Hedge → Hedge) (s : State) : (setHedgeM f s).sun = s.sun := rfl
@[simp] theorem setHedgeM_cfg (f : Hedge → Hedge) (s : State) : (setHedgeM f s).cfg = s.cfg := rfl
@[simp] theorem setHedgeM_logs (f : Hedge → Hedge) (s : State) : (setHedgeM f s).logs = s.logs := rfl
@[simp] theorem setHedgeM_host (f : Hedge → Hedge) (s : State) : (setHedgeM f s).host = s.host := rfl
@[simp] theorem setHedgeM_acq (f : Hedge → Hedge) (s : State) : (setHedgeM f s).acq = s.acq := rfl
@[simp] theorem setHedgeM_energy (f : Hedge → Hedge) (s : State) : (setHedgeM f s).energy = s.energy := rfl
@[simp] theorem setHedgeM_link (f : Hedge → Hedge) (s : State) : (setHedgeM f s).link = s.link := rfl
@[simp] theorem setHedgeM_sess (f : Hedge → Hedge) (s : State) : (setHedgeM f s).sess = s.sess := rfl
@[simp] theorem setHedgeM_hedge (f : Hedge → Hedge) (s : State) : (setHedgeM f s).hedge = f s.hedge := rfl
@[simp] theorem setHedgeM_sw (f : Hedge → Hedge) (s : State) : (setHedgeM f s).sw = s.sw := rfl
@[simp] theorem setHedgeM_bill (f : Hedge → Hedge) (s : State) : (setHedgeM f s).bill = s.bill := rfl
@[simp] theorem setHedgeM_disp (f : Hedge → Hedge) (s : State) : (setHedgeM f s).disp = s.disp := rfl
@[simp] theorem setHedgeM_otp (f : Hedge → Hedge) (s : State) : (setHedgeM f s).otp = s.otp := rfl
@[simp] theorem setHedgeM_cis (f : Hedge → Hedge) (s : State) : (setHedgeM f s).cis = s.cis := rfl
@[simp] theorem setHedgeM_dom (f : Hedge → Hedge) (s : State) : (setHedgeM f s).dom = s.dom := rfl
@[simp] theorem setHedgeM_trellis (f : Hedge → Hedge) (s : State) : (setHedgeM f s).trellis = s.trellis := rfl
@[simp] theorem setHedgeM_wadi (f : Hedge → Hedge) (s : State) : (setHedgeM f s).wadi = s.wadi := rfl
@[simp] theorem setHedgeM_update (f : Hedge → Hedge) (s : State) : (setHedgeM f s).update = s.update := rfl
@[simp] theorem setHedgeM_reader0 (f : Hedge → Hedge) (s : State) : (setHedgeM f s).reader0 = s.reader0 := rfl
@[simp] theorem setHedgeM_reader1 (f : Hedge → Hedge) (s : State) : (setHedgeM f s).reader1 = s.reader1 := rfl
@[simp] theorem setHedgeM_tag (f : Hedge → Hedge) (s : State) : (setHedgeM f s).tag = s.tag := rfl
@[simp] theorem setHedgeM_rake (f : Hedge → Hedge) (s : State) : (setHedgeM f s).rake = s.rake := rfl

@[simp] theorem setCis_pending (f : Cistern → Cistern) (s : State) : (setCis f s).pending = s.pending := rfl
@[simp] theorem setCis_clockMs (f : Cistern → Cistern) (s : State) : (setCis f s).clockMs = s.clockMs := rfl
@[simp] theorem setCis_freeCount (f : Cistern → Cistern) (s : State) : (setCis f s).freeCount = s.freeCount := rfl
@[simp] theorem setCis_out (f : Cistern → Cistern) (s : State) : (setCis f s).out = s.out := rfl
@[simp] theorem setCis_power (f : Cistern → Cistern) (s : State) : (setCis f s).power = s.power := rfl
@[simp] theorem setCis_fabric (f : Cistern → Cistern) (s : State) : (setCis f s).fabric = s.fabric := rfl
@[simp] theorem setCis_sun (f : Cistern → Cistern) (s : State) : (setCis f s).sun = s.sun := rfl
@[simp] theorem setCis_cfg (f : Cistern → Cistern) (s : State) : (setCis f s).cfg = s.cfg := rfl
@[simp] theorem setCis_logs (f : Cistern → Cistern) (s : State) : (setCis f s).logs = s.logs := rfl
@[simp] theorem setCis_host (f : Cistern → Cistern) (s : State) : (setCis f s).host = s.host := rfl
@[simp] theorem setCis_acq (f : Cistern → Cistern) (s : State) : (setCis f s).acq = s.acq := rfl
@[simp] theorem setCis_energy (f : Cistern → Cistern) (s : State) : (setCis f s).energy = s.energy := rfl
@[simp] theorem setCis_link (f : Cistern → Cistern) (s : State) : (setCis f s).link = s.link := rfl
@[simp] theorem setCis_sess (f : Cistern → Cistern) (s : State) : (setCis f s).sess = s.sess := rfl
@[simp] theorem setCis_hedge (f : Cistern → Cistern) (s : State) : (setCis f s).hedge = s.hedge := rfl
@[simp] theorem setCis_sw (f : Cistern → Cistern) (s : State) : (setCis f s).sw = s.sw := rfl
@[simp] theorem setCis_bill (f : Cistern → Cistern) (s : State) : (setCis f s).bill = s.bill := rfl
@[simp] theorem setCis_disp (f : Cistern → Cistern) (s : State) : (setCis f s).disp = s.disp := rfl
@[simp] theorem setCis_otp (f : Cistern → Cistern) (s : State) : (setCis f s).otp = s.otp := rfl
@[simp] theorem setCis_cis (f : Cistern → Cistern) (s : State) : (setCis f s).cis = f s.cis := rfl
@[simp] theorem setCis_dom (f : Cistern → Cistern) (s : State) : (setCis f s).dom = s.dom := rfl
@[simp] theorem setCis_trellis (f : Cistern → Cistern) (s : State) : (setCis f s).trellis = s.trellis := rfl
@[simp] theorem setCis_wadi (f : Cistern → Cistern) (s : State) : (setCis f s).wadi = s.wadi := rfl
@[simp] theorem setCis_update (f : Cistern → Cistern) (s : State) : (setCis f s).update = s.update := rfl
@[simp] theorem setCis_reader0 (f : Cistern → Cistern) (s : State) : (setCis f s).reader0 = s.reader0 := rfl
@[simp] theorem setCis_reader1 (f : Cistern → Cistern) (s : State) : (setCis f s).reader1 = s.reader1 := rfl
@[simp] theorem setCis_tag (f : Cistern → Cistern) (s : State) : (setCis f s).tag = s.tag := rfl
@[simp] theorem setCis_rake (f : Cistern → Cistern) (s : State) : (setCis f s).rake = s.rake := rfl

@[simp] theorem setPower_pending (f : Power → Power) (s : State) : (setPower f s).pending = s.pending := rfl
@[simp] theorem setPower_clockMs (f : Power → Power) (s : State) : (setPower f s).clockMs = s.clockMs := rfl
@[simp] theorem setPower_freeCount (f : Power → Power) (s : State) : (setPower f s).freeCount = s.freeCount := rfl
@[simp] theorem setPower_out (f : Power → Power) (s : State) : (setPower f s).out = s.out := rfl
@[simp] theorem setPower_power (f : Power → Power) (s : State) : (setPower f s).power = f s.power := rfl
@[simp] theorem setPower_fabric (f : Power → Power) (s : State) : (setPower f s).fabric = s.fabric := rfl
@[simp] theorem setPower_sun (f : Power → Power) (s : State) : (setPower f s).sun = s.sun := rfl
@[simp] theorem setPower_cfg (f : Power → Power) (s : State) : (setPower f s).cfg = s.cfg := rfl
@[simp] theorem setPower_logs (f : Power → Power) (s : State) : (setPower f s).logs = s.logs := rfl
@[simp] theorem setPower_host (f : Power → Power) (s : State) : (setPower f s).host = s.host := rfl
@[simp] theorem setPower_acq (f : Power → Power) (s : State) : (setPower f s).acq = s.acq := rfl
@[simp] theorem setPower_energy (f : Power → Power) (s : State) : (setPower f s).energy = s.energy := rfl
@[simp] theorem setPower_link (f : Power → Power) (s : State) : (setPower f s).link = s.link := rfl
@[simp] theorem setPower_sess (f : Power → Power) (s : State) : (setPower f s).sess = s.sess := rfl
@[simp] theorem setPower_hedge (f : Power → Power) (s : State) : (setPower f s).hedge = s.hedge := rfl
@[simp] theorem setPower_sw (f : Power → Power) (s : State) : (setPower f s).sw = s.sw := rfl
@[simp] theorem setPower_bill (f : Power → Power) (s : State) : (setPower f s).bill = s.bill := rfl
@[simp] theorem setPower_disp (f : Power → Power) (s : State) : (setPower f s).disp = s.disp := rfl
@[simp] theorem setPower_otp (f : Power → Power) (s : State) : (setPower f s).otp = s.otp := rfl
@[simp] theorem setPower_cis (f : Power → Power) (s : State) : (setPower f s).cis = s.cis := rfl
@[simp] theorem setPower_dom (f : Power → Power) (s : State) : (setPower f s).dom = s.dom := rfl
@[simp] theorem setPower_trellis (f : Power → Power) (s : State) : (setPower f s).trellis = s.trellis := rfl
@[simp] theorem setPower_wadi (f : Power → Power) (s : State) : (setPower f s).wadi = s.wadi := rfl
@[simp] theorem setPower_update (f : Power → Power) (s : State) : (setPower f s).update = s.update := rfl
@[simp] theorem setPower_reader0 (f : Power → Power) (s : State) : (setPower f s).reader0 = s.reader0 := rfl
@[simp] theorem setPower_reader1 (f : Power → Power) (s : State) : (setPower f s).reader1 = s.reader1 := rfl
@[simp] theorem setPower_tag (f : Power → Power) (s : State) : (setPower f s).tag = s.tag := rfl
@[simp] theorem setPower_rake (f : Power → Power) (s : State) : (setPower f s).rake = s.rake := rfl

@[simp] theorem setRake_pending (f : Rake → Rake) (s : State) : (setRake f s).pending = s.pending := rfl
@[simp] theorem setRake_clockMs (f : Rake → Rake) (s : State) : (setRake f s).clockMs = s.clockMs := rfl
@[simp] theorem setRake_freeCount (f : Rake → Rake) (s : State) : (setRake f s).freeCount = s.freeCount := rfl
@[simp] theorem setRake_out (f : Rake → Rake) (s : State) : (setRake f s).out = s.out := rfl
@[simp] theorem setRake_power (f : Rake → Rake) (s : State) : (setRake f s).power = s.power := rfl
@[simp] theorem setRake_fabric (f : Rake → Rake) (s : State) : (setRake f s).fabric = s.fabric := rfl
@[simp] theorem setRake_sun (f : Rake → Rake) (s : State) : (setRake f s).sun = s.sun := rfl
@[simp] theorem setRake_cfg (f : Rake → Rake) (s : State) : (setRake f s).cfg = s.cfg := rfl
@[simp] theorem setRake_logs (f : Rake → Rake) (s : State) : (setRake f s).logs = s.logs := rfl
@[simp] theorem setRake_host (f : Rake → Rake) (s : State) : (setRake f s).host = s.host := rfl
@[simp] theorem setRake_acq (f : Rake → Rake) (s : State) : (setRake f s).acq = s.acq := rfl
@[simp] theorem setRake_energy (f : Rake → Rake) (s : State) : (setRake f s).energy = s.energy := rfl
@[simp] theorem setRake_link (f : Rake → Rake) (s : State) : (setRake f s).link = s.link := rfl
@[simp] theorem setRake_sess (f : Rake → Rake) (s : State) : (setRake f s).sess = s.sess := rfl
@[simp] theorem setRake_hedge (f : Rake → Rake) (s : State) : (setRake f s).hedge = s.hedge := rfl
@[simp] theorem setRake_sw (f : Rake → Rake) (s : State) : (setRake f s).sw = s.sw := rfl
@[simp] theorem setRake_bill (f : Rake → Rake) (s : State) : (setRake f s).bill = s.bill := rfl
@[simp] theorem setRake_disp (f : Rake → Rake) (s : State) : (setRake f s).disp = s.disp := rfl
@[simp] theorem setRake_otp (f : Rake → Rake) (s : State) : (setRake f s).otp = s.otp := rfl
@[simp] theorem setRake_cis (f : Rake → Rake) (s : State) : (setRake f s).cis = s.cis := rfl
@[simp] theorem setRake_dom (f : Rake → Rake) (s : State) : (setRake f s).dom = s.dom := rfl
@[simp] theorem setRake_trellis (f : Rake → Rake) (s : State) : (setRake f s).trellis = s.trellis := rfl
@[simp] theorem setRake_wadi (f : Rake → Rake) (s : State) : (setRake f s).wadi = s.wadi := rfl
@[simp] theorem setRake_update (f : Rake → Rake) (s : State) : (setRake f s).update = s.update := rfl
@[simp] theorem setRake_reader0 (f : Rake → Rake) (s : State) : (setRake f s).reader0 = s.reader0 := rfl
@[simp] theorem setRake_reader1 (f : Rake → Rake) (s : State) : (setRake f s).reader1 = s.reader1 := rfl
@[simp] theorem setRake_tag (f : Rake → Rake) (s : State) : (setRake f s).tag = s.tag := rfl
@[simp] theorem setRake_rake (f : Rake → Rake) (s : State) : (setRake f s).rake = f s.rake := rfl

@[simp] theorem setUpdate_pending (f : Update → Update) (s : State) : (setUpdate f s).pending = s.pending := rfl
@[simp] theorem setUpdate_clockMs (f : Update → Update) (s : State) : (setUpdate f s).clockMs = s.clockMs := rfl
@[simp] theorem setUpdate_freeCount (f : Update → Update) (s : State) : (setUpdate f s).freeCount = s.freeCount := rfl
@[simp] theorem setUpdate_out (f : Update → Update) (s : State) : (setUpdate f s).out = s.out := rfl
@[simp] theorem setUpdate_power (f : Update → Update) (s : State) : (setUpdate f s).power = s.power := rfl
@[simp] theorem setUpdate_fabric (f : Update → Update) (s : State) : (setUpdate f s).fabric = s.fabric := rfl
@[simp] theorem setUpdate_sun (f : Update → Update) (s : State) : (setUpdate f s).sun = s.sun := rfl
@[simp] theorem setUpdate_cfg (f : Update → Update) (s : State) : (setUpdate f s).cfg = s.cfg := rfl
@[simp] theorem setUpdate_logs (f : Update → Update) (s : State) : (setUpdate f s).logs = s.logs := rfl
@[simp] theorem setUpdate_host (f : Update → Update) (s : State) : (setUpdate f s).host = s.host := rfl
@[simp] theorem setUpdate_acq (f : Update → Update) (s : State) : (setUpdate f s).acq = s.acq := rfl
@[simp] theorem setUpdate_energy (f : Update → Update) (s : State) : (setUpdate f s).energy = s.energy := rfl
@[simp] theorem setUpdate_link (f : Update → Update) (s : State) : (setUpdate f s).link = s.link := rfl
@[simp] theorem setUpdate_sess (f : Update → Update) (s : State) : (setUpdate f s).sess = s.sess := rfl
@[simp] theorem setUpdate_hedge (f : Update → Update) (s : State) : (setUpdate f s).hedge = s.hedge := rfl
@[simp] theorem setUpdate_sw (f : Update → Update) (s : State) : (setUpdate f s).sw = s.sw := rfl
@[simp] theorem setUpdate_bill (f : Update → Update) (s : State) : (setUpdate f s).bill = s.bill := rfl
@[simp] theorem setUpdate_disp (f : Update → Update) (s : State) : (setUpdate f s).disp = s.disp := rfl
@[simp] theorem setUpdate_otp (f : Update → Update) (s : State) : (setUpdate f s).otp = s.otp := rfl
@[simp] theorem setUpdate_cis (f : Update → Update) (s : State) : (setUpdate f s).cis = s.cis := rfl
@[simp] theorem setUpdate_dom (f : Update → Update) (s : State) : (setUpdate f s).dom = s.dom := rfl
@[simp] theorem setUpdate_trellis (f : Update → Update) (s : State) : (setUpdate f s).trellis = s.trellis := rfl
@[simp] theorem setUpdate_wadi (f : Update → Update) (s : State) : (setUpdate f s).wadi = s.wadi := rfl
@[simp] theorem setUpdate_update (f : Update → Update) (s : State) : (setUpdate f s).update = f s.update := rfl
@[simp] theorem setUpdate_reader0 (f : Update → Update) (s : State) : (setUpdate f s).reader0 = s.reader0 := rfl
@[simp] theorem setUpdate_reader1 (f : Update → Update) (s : State) : (setUpdate f s).reader1 = s.reader1 := rfl
@[simp] theorem setUpdate_tag (f : Update → Update) (s : State) : (setUpdate f s).tag = s.tag := rfl
@[simp] theorem setUpdate_rake (f : Update → Update) (s : State) : (setUpdate f s).rake = s.rake := rfl

@[simp] theorem setSun_pending (f : Sundial → Sundial) (s : State) : (setSun f s).pending = s.pending := rfl
@[simp] theorem setSun_clockMs (f : Sundial → Sundial) (s : State) : (setSun f s).clockMs = s.clockMs := rfl
@[simp] theorem setSun_freeCount (f : Sundial → Sundial) (s : State) : (setSun f s).freeCount = s.freeCount := rfl
@[simp] theorem setSun_out (f : Sundial → Sundial) (s : State) : (setSun f s).out = s.out := rfl
@[simp] theorem setSun_power (f : Sundial → Sundial) (s : State) : (setSun f s).power = s.power := rfl
@[simp] theorem setSun_fabric (f : Sundial → Sundial) (s : State) : (setSun f s).fabric = s.fabric := rfl
@[simp] theorem setSun_sun (f : Sundial → Sundial) (s : State) : (setSun f s).sun = f s.sun := rfl
@[simp] theorem setSun_cfg (f : Sundial → Sundial) (s : State) : (setSun f s).cfg = s.cfg := rfl
@[simp] theorem setSun_logs (f : Sundial → Sundial) (s : State) : (setSun f s).logs = s.logs := rfl
@[simp] theorem setSun_host (f : Sundial → Sundial) (s : State) : (setSun f s).host = s.host := rfl
@[simp] theorem setSun_acq (f : Sundial → Sundial) (s : State) : (setSun f s).acq = s.acq := rfl
@[simp] theorem setSun_energy (f : Sundial → Sundial) (s : State) : (setSun f s).energy = s.energy := rfl
@[simp] theorem setSun_link (f : Sundial → Sundial) (s : State) : (setSun f s).link = s.link := rfl
@[simp] theorem setSun_sess (f : Sundial → Sundial) (s : State) : (setSun f s).sess = s.sess := rfl
@[simp] theorem setSun_hedge (f : Sundial → Sundial) (s : State) : (setSun f s).hedge = s.hedge := rfl
@[simp] theorem setSun_sw (f : Sundial → Sundial) (s : State) : (setSun f s).sw = s.sw := rfl
@[simp] theorem setSun_bill (f : Sundial → Sundial) (s : State) : (setSun f s).bill = s.bill := rfl
@[simp] theorem setSun_disp (f : Sundial → Sundial) (s : State) : (setSun f s).disp = s.disp := rfl
@[simp] theorem setSun_otp (f : Sundial → Sundial) (s : State) : (setSun f s).otp = s.otp := rfl
@[simp] theorem setSun_cis (f : Sundial → Sundial) (s : State) : (setSun f s).cis = s.cis := rfl
@[simp] theorem setSun_dom (f : Sundial → Sundial) (s : State) : (setSun f s).dom = s.dom := rfl
@[simp] theorem setSun_trellis (f : Sundial → Sundial) (s : State) : (setSun f s).trellis = s.trellis := rfl
@[simp] theorem setSun_wadi (f : Sundial → Sundial) (s : State) : (setSun f s).wadi = s.wadi := rfl
@[simp] theorem setSun_update (f : Sundial → Sundial) (s : State) : (setSun f s).update = s.update := rfl
@[simp] theorem setSun_reader0 (f : Sundial → Sundial) (s : State) : (setSun f s).reader0 = s.reader0 := rfl
@[simp] theorem setSun_reader1 (f : Sundial → Sundial) (s : State) : (setSun f s).reader1 = s.reader1 := rfl
@[simp] theorem setSun_tag (f : Sundial → Sundial) (s : State) : (setSun f s).tag = s.tag := rfl
@[simp] theorem setSun_rake (f : Sundial → Sundial) (s : State) : (setSun f s).rake = s.rake := rfl

@[simp] theorem setTag_pending (f : Tag → Tag) (s : State) : (setTag f s).pending = s.pending := rfl
@[simp] theorem setTag_clockMs (f : Tag → Tag) (s : State) : (setTag f s).clockMs = s.clockMs := rfl
@[simp] theorem setTag_freeCount (f : Tag → Tag) (s : State) : (setTag f s).freeCount = s.freeCount := rfl
@[simp] theorem setTag_out (f : Tag → Tag) (s : State) : (setTag f s).out = s.out := rfl
@[simp] theorem setTag_power (f : Tag → Tag) (s : State) : (setTag f s).power = s.power := rfl
@[simp] theorem setTag_fabric (f : Tag → Tag) (s : State) : (setTag f s).fabric = s.fabric := rfl
@[simp] theorem setTag_sun (f : Tag → Tag) (s : State) : (setTag f s).sun = s.sun := rfl
@[simp] theorem setTag_cfg (f : Tag → Tag) (s : State) : (setTag f s).cfg = s.cfg := rfl
@[simp] theorem setTag_logs (f : Tag → Tag) (s : State) : (setTag f s).logs = s.logs := rfl
@[simp] theorem setTag_host (f : Tag → Tag) (s : State) : (setTag f s).host = s.host := rfl
@[simp] theorem setTag_acq (f : Tag → Tag) (s : State) : (setTag f s).acq = s.acq := rfl
@[simp] theorem setTag_energy (f : Tag → Tag) (s : State) : (setTag f s).energy = s.energy := rfl
@[simp] theorem setTag_link (f : Tag → Tag) (s : State) : (setTag f s).link = s.link := rfl
@[simp] theorem setTag_sess (f : Tag → Tag) (s : State) : (setTag f s).sess = s.sess := rfl
@[simp] theorem setTag_hedge (f : Tag → Tag) (s : State) : (setTag f s).hedge = s.hedge := rfl
@[simp] theorem setTag_sw (f : Tag → Tag) (s : State) : (setTag f s).sw = s.sw := rfl
@[simp] theorem setTag_bill (f : Tag → Tag) (s : State) : (setTag f s).bill = s.bill := rfl
@[simp] theorem setTag_disp (f : Tag → Tag) (s : State) : (setTag f s).disp = s.disp := rfl
@[simp] theorem setTag_otp (f : Tag → Tag) (s : State) : (setTag f s).otp = s.otp := rfl
@[simp] theorem setTag_cis (f : Tag → Tag) (s : State) : (setTag f s).cis = s.cis := rfl
@[simp] theorem setTag_dom (f : Tag → Tag) (s : State) : (setTag f s).dom = s.dom := rfl
@[simp] theorem setTag_trellis (f : Tag → Tag) (s : State) : (setTag f s).trellis = s.trellis := rfl
@[simp] theorem setTag_wadi (f : Tag → Tag) (s : State) : (setTag f s).wadi = s.wadi := rfl
@[simp] theorem setTag_update (f : Tag → Tag) (s : State) : (setTag f s).update = s.update := rfl
@[simp] theorem setTag_reader0 (f : Tag → Tag) (s : State) : (setTag f s).reader0 = s.reader0 := rfl
@[simp] theorem setTag_reader1 (f : Tag → Tag) (s : State) : (setTag f s).reader1 = s.reader1 := rfl
@[simp] theorem setTag_tag (f : Tag → Tag) (s : State) : (setTag f s).tag = f s.tag := rfl
@[simp] theorem setTag_rake (f : Tag → Tag) (s : State) : (setTag f s).rake = s.rake := rfl

@[simp] theorem setTrellis_pending (f : Trellis → Trellis) (s : State) : (setTrellis f s).pending = s.pending := rfl
@[simp] theorem setTrellis_clockMs (f : Trellis → Trellis) (s : State) : (setTrellis f s).clockMs = s.clockMs := rfl
@[simp] theorem setTrellis_freeCount (f : Trellis → Trellis) (s : State) : (setTrellis f s).freeCount = s.freeCount := rfl
@[simp] theorem setTrellis_out (f : Trellis → Trellis) (s : State) : (setTrellis f s).out = s.out := rfl
@[simp] theorem setTrellis_power (f : Trellis → Trellis) (s : State) : (setTrellis f s).power = s.power := rfl
@[simp] theorem setTrellis_fabric (f : Trellis → Trellis) (s : State) : (setTrellis f s).fabric = s.fabric := rfl
@[simp] theorem setTrellis_sun (f : Trellis → Trellis) (s : State) : (setTrellis f s).sun = s.sun := rfl
@[simp] theorem setTrellis_cfg (f : Trellis → Trellis) (s : State) : (setTrellis f s).cfg = s.cfg := rfl
@[simp] theorem setTrellis_logs (f : Trellis → Trellis) (s : State) : (setTrellis f s).logs = s.logs := rfl
@[simp] theorem setTrellis_host (f : Trellis → Trellis) (s : State) : (setTrellis f s).host = s.host := rfl
@[simp] theorem setTrellis_acq (f : Trellis → Trellis) (s : State) : (setTrellis f s).acq = s.acq := rfl
@[simp] theorem setTrellis_energy (f : Trellis → Trellis) (s : State) : (setTrellis f s).energy = s.energy := rfl
@[simp] theorem setTrellis_link (f : Trellis → Trellis) (s : State) : (setTrellis f s).link = s.link := rfl
@[simp] theorem setTrellis_sess (f : Trellis → Trellis) (s : State) : (setTrellis f s).sess = s.sess := rfl
@[simp] theorem setTrellis_hedge (f : Trellis → Trellis) (s : State) : (setTrellis f s).hedge = s.hedge := rfl
@[simp] theorem setTrellis_sw (f : Trellis → Trellis) (s : State) : (setTrellis f s).sw = s.sw := rfl
@[simp] theorem setTrellis_bill (f : Trellis → Trellis) (s : State) : (setTrellis f s).bill = s.bill := rfl
@[simp] theorem setTrellis_disp (f : Trellis → Trellis) (s : State) : (setTrellis f s).disp = s.disp := rfl
@[simp] theorem setTrellis_otp (f : Trellis → Trellis) (s : State) : (setTrellis f s).otp = s.otp := rfl
@[simp] theorem setTrellis_cis (f : Trellis → Trellis) (s : State) : (setTrellis f s).cis = s.cis := rfl
@[simp] theorem setTrellis_dom (f : Trellis → Trellis) (s : State) : (setTrellis f s).dom = s.dom := rfl
@[simp] theorem setTrellis_trellis (f : Trellis → Trellis) (s : State) : (setTrellis f s).trellis = f s.trellis := rfl
@[simp] theorem setTrellis_wadi (f : Trellis → Trellis) (s : State) : (setTrellis f s).wadi = s.wadi := rfl
@[simp] theorem setTrellis_update (f : Trellis → Trellis) (s : State) : (setTrellis f s).update = s.update := rfl
@[simp] theorem setTrellis_reader0 (f : Trellis → Trellis) (s : State) : (setTrellis f s).reader0 = s.reader0 := rfl
@[simp] theorem setTrellis_reader1 (f : Trellis → Trellis) (s : State) : (setTrellis f s).reader1 = s.reader1 := rfl
@[simp] theorem setTrellis_tag (f : Trellis → Trellis) (s : State) : (setTrellis f s).tag = s.tag := rfl
@[simp] theorem setTrellis_rake (f : Trellis → Trellis) (s : State) : (setTrellis f s).rake = s.rake := rfl

@[simp] theorem setWadi_pending (f : Wadi → Wadi) (s : State) : (setWadi f s).pending = s.pending := rfl
@[simp] theorem setWadi_clockMs (f : Wadi → Wadi) (s : State) : (setWadi f s).clockMs = s.clockMs := rfl
@[simp] theorem setWadi_freeCount (f : Wadi → Wadi) (s : State) : (setWadi f s).freeCount = s.freeCount := rfl
@[simp] theorem setWadi_out (f : Wadi → Wadi) (s : State) : (setWadi f s).out = s.out := rfl
@[simp] theorem setWadi_power (f : Wadi → Wadi) (s : State) : (setWadi f s).power = s.power := rfl
@[simp] theorem setWadi_fabric (f : Wadi → Wadi) (s : State) : (setWadi f s).fabric = s.fabric := rfl
@[simp] theorem setWadi_sun (f : Wadi → Wadi) (s : State) : (setWadi f s).sun = s.sun := rfl
@[simp] theorem setWadi_cfg (f : Wadi → Wadi) (s : State) : (setWadi f s).cfg = s.cfg := rfl
@[simp] theorem setWadi_logs (f : Wadi → Wadi) (s : State) : (setWadi f s).logs = s.logs := rfl
@[simp] theorem setWadi_host (f : Wadi → Wadi) (s : State) : (setWadi f s).host = s.host := rfl
@[simp] theorem setWadi_acq (f : Wadi → Wadi) (s : State) : (setWadi f s).acq = s.acq := rfl
@[simp] theorem setWadi_energy (f : Wadi → Wadi) (s : State) : (setWadi f s).energy = s.energy := rfl
@[simp] theorem setWadi_link (f : Wadi → Wadi) (s : State) : (setWadi f s).link = s.link := rfl
@[simp] theorem setWadi_sess (f : Wadi → Wadi) (s : State) : (setWadi f s).sess = s.sess := rfl
@[simp] theorem setWadi_hedge (f : Wadi → Wadi) (s : State) : (setWadi f s).hedge = s.hedge := rfl
@[simp] theorem setWadi_sw (f : Wadi → Wadi) (s : State) : (setWadi f s).sw = s.sw := rfl
@[simp] theorem setWadi_bill (f : Wadi → Wadi) (s : State) : (setWadi f s).bill = s.bill := rfl
@[simp] theorem setWadi_disp (f : Wadi → Wadi) (s : State) : (setWadi f s).disp = s.disp := rfl
@[simp] theorem setWadi_otp (f : Wadi → Wadi) (s : State) : (setWadi f s).otp = s.otp := rfl
@[simp] theorem setWadi_cis (f : Wadi → Wadi) (s : State) : (setWadi f s).cis = s.cis := rfl
@[simp] theorem setWadi_dom (f : Wadi → Wadi) (s : State) : (setWadi f s).dom = s.dom := rfl
@[simp] theorem setWadi_trellis (f : Wadi → Wadi) (s : State) : (setWadi f s).trellis = s.trellis := rfl
@[simp] theorem setWadi_wadi (f : Wadi → Wadi) (s : State) : (setWadi f s).wadi = f s.wadi := rfl
@[simp] theorem setWadi_update (f : Wadi → Wadi) (s : State) : (setWadi f s).update = s.update := rfl
@[simp] theorem setWadi_reader0 (f : Wadi → Wadi) (s : State) : (setWadi f s).reader0 = s.reader0 := rfl
@[simp] theorem setWadi_reader1 (f : Wadi → Wadi) (s : State) : (setWadi f s).reader1 = s.reader1 := rfl
@[simp] theorem setWadi_tag (f : Wadi → Wadi) (s : State) : (setWadi f s).tag = s.tag := rfl
@[simp] theorem setWadi_rake (f : Wadi → Wadi) (s : State) : (setWadi f s).rake = s.rake := rfl

@[simp] theorem setSess_pending (o : Outlet) (f : Session → Session) (s : State) :
    (setSess o f s).pending = s.pending := rfl
@[simp] theorem setSess_clockMs (o : Outlet) (f : Session → Session) (s : State) :
    (setSess o f s).clockMs = s.clockMs := rfl
@[simp] theorem setSess_freeCount (o : Outlet) (f : Session → Session) (s : State) :
    (setSess o f s).freeCount = s.freeCount := rfl
@[simp] theorem setSess_out (o : Outlet) (f : Session → Session) (s : State) :
    (setSess o f s).out = s.out := rfl
@[simp] theorem setSess_power (o : Outlet) (f : Session → Session) (s : State) :
    (setSess o f s).power = s.power := rfl
@[simp] theorem setSess_fabric (o : Outlet) (f : Session → Session) (s : State) :
    (setSess o f s).fabric = s.fabric := rfl
@[simp] theorem setSess_sun (o : Outlet) (f : Session → Session) (s : State) :
    (setSess o f s).sun = s.sun := rfl
@[simp] theorem setSess_cfg (o : Outlet) (f : Session → Session) (s : State) :
    (setSess o f s).cfg = s.cfg := rfl
@[simp] theorem setSess_logs (o : Outlet) (f : Session → Session) (s : State) :
    (setSess o f s).logs = s.logs := rfl
@[simp] theorem setSess_host (o : Outlet) (f : Session → Session) (s : State) :
    (setSess o f s).host = s.host := rfl
@[simp] theorem setSess_acq (o : Outlet) (f : Session → Session) (s : State) :
    (setSess o f s).acq = s.acq := rfl
@[simp] theorem setSess_energy (o : Outlet) (f : Session → Session) (s : State) :
    (setSess o f s).energy = s.energy := rfl
@[simp] theorem setSess_link (o : Outlet) (f : Session → Session) (s : State) :
    (setSess o f s).link = s.link := rfl
@[simp] theorem setSess_sess (o : Outlet) (f : Session → Session) (s : State) :
    (setSess o f s).sess = { s.sess with out := s.sess.out.set o (f (s.sess.out.get o)) } := rfl
@[simp] theorem setSess_hedge (o : Outlet) (f : Session → Session) (s : State) :
    (setSess o f s).hedge = s.hedge := rfl
@[simp] theorem setSess_sw (o : Outlet) (f : Session → Session) (s : State) :
    (setSess o f s).sw = s.sw := rfl
@[simp] theorem setSess_bill (o : Outlet) (f : Session → Session) (s : State) :
    (setSess o f s).bill = s.bill := rfl
@[simp] theorem setSess_disp (o : Outlet) (f : Session → Session) (s : State) :
    (setSess o f s).disp = s.disp := rfl
@[simp] theorem setSess_otp (o : Outlet) (f : Session → Session) (s : State) :
    (setSess o f s).otp = s.otp := rfl
@[simp] theorem setSess_cis (o : Outlet) (f : Session → Session) (s : State) :
    (setSess o f s).cis = s.cis := rfl
@[simp] theorem setSess_dom (o : Outlet) (f : Session → Session) (s : State) :
    (setSess o f s).dom = s.dom := rfl
@[simp] theorem setSess_trellis (o : Outlet) (f : Session → Session) (s : State) :
    (setSess o f s).trellis = s.trellis := rfl
@[simp] theorem setSess_wadi (o : Outlet) (f : Session → Session) (s : State) :
    (setSess o f s).wadi = s.wadi := rfl
@[simp] theorem setSess_update (o : Outlet) (f : Session → Session) (s : State) :
    (setSess o f s).update = s.update := rfl
@[simp] theorem setSess_reader0 (o : Outlet) (f : Session → Session) (s : State) :
    (setSess o f s).reader0 = s.reader0 := rfl
@[simp] theorem setSess_reader1 (o : Outlet) (f : Session → Session) (s : State) :
    (setSess o f s).reader1 = s.reader1 := rfl
@[simp] theorem setSess_tag (o : Outlet) (f : Session → Session) (s : State) :
    (setSess o f s).tag = s.tag := rfl
@[simp] theorem setSess_rake (o : Outlet) (f : Session → Session) (s : State) :
    (setSess o f s).rake = s.rake := rfl

@[simp] theorem setConv_pending (o : Outlet) (f : Converter → Converter) (s : State) :
    (setConv o f s).pending = s.pending := rfl
@[simp] theorem setConv_clockMs (o : Outlet) (f : Converter → Converter) (s : State) :
    (setConv o f s).clockMs = s.clockMs := rfl
@[simp] theorem setConv_freeCount (o : Outlet) (f : Converter → Converter) (s : State) :
    (setConv o f s).freeCount = s.freeCount := rfl
@[simp] theorem setConv_out (o : Outlet) (f : Converter → Converter) (s : State) :
    (setConv o f s).out = s.out := rfl
@[simp] theorem setConv_power (o : Outlet) (f : Converter → Converter) (s : State) :
    (setConv o f s).power = s.power := rfl
@[simp] theorem setConv_fabric (o : Outlet) (f : Converter → Converter) (s : State) :
    (setConv o f s).fabric = s.fabric := rfl
@[simp] theorem setConv_sun (o : Outlet) (f : Converter → Converter) (s : State) :
    (setConv o f s).sun = s.sun := rfl
@[simp] theorem setConv_cfg (o : Outlet) (f : Converter → Converter) (s : State) :
    (setConv o f s).cfg = s.cfg := rfl
@[simp] theorem setConv_logs (o : Outlet) (f : Converter → Converter) (s : State) :
    (setConv o f s).logs = s.logs := rfl
@[simp] theorem setConv_host (o : Outlet) (f : Converter → Converter) (s : State) :
    (setConv o f s).host = s.host := rfl
@[simp] theorem setConv_acq (o : Outlet) (f : Converter → Converter) (s : State) :
    (setConv o f s).acq = s.acq := rfl
@[simp] theorem setConv_energy (o : Outlet) (f : Converter → Converter) (s : State) :
    (setConv o f s).energy = s.energy := rfl
@[simp] theorem setConv_link (o : Outlet) (f : Converter → Converter) (s : State) :
    (setConv o f s).link = s.link := rfl
@[simp] theorem setConv_sess (o : Outlet) (f : Converter → Converter) (s : State) :
    (setConv o f s).sess = { s.sess with conv := s.sess.conv.set o (f (s.sess.conv.get o)) } := rfl
@[simp] theorem setConv_hedge (o : Outlet) (f : Converter → Converter) (s : State) :
    (setConv o f s).hedge = s.hedge := rfl
@[simp] theorem setConv_sw (o : Outlet) (f : Converter → Converter) (s : State) :
    (setConv o f s).sw = s.sw := rfl
@[simp] theorem setConv_bill (o : Outlet) (f : Converter → Converter) (s : State) :
    (setConv o f s).bill = s.bill := rfl
@[simp] theorem setConv_disp (o : Outlet) (f : Converter → Converter) (s : State) :
    (setConv o f s).disp = s.disp := rfl
@[simp] theorem setConv_otp (o : Outlet) (f : Converter → Converter) (s : State) :
    (setConv o f s).otp = s.otp := rfl
@[simp] theorem setConv_cis (o : Outlet) (f : Converter → Converter) (s : State) :
    (setConv o f s).cis = s.cis := rfl
@[simp] theorem setConv_dom (o : Outlet) (f : Converter → Converter) (s : State) :
    (setConv o f s).dom = s.dom := rfl
@[simp] theorem setConv_trellis (o : Outlet) (f : Converter → Converter) (s : State) :
    (setConv o f s).trellis = s.trellis := rfl
@[simp] theorem setConv_wadi (o : Outlet) (f : Converter → Converter) (s : State) :
    (setConv o f s).wadi = s.wadi := rfl
@[simp] theorem setConv_update (o : Outlet) (f : Converter → Converter) (s : State) :
    (setConv o f s).update = s.update := rfl
@[simp] theorem setConv_reader0 (o : Outlet) (f : Converter → Converter) (s : State) :
    (setConv o f s).reader0 = s.reader0 := rfl
@[simp] theorem setConv_reader1 (o : Outlet) (f : Converter → Converter) (s : State) :
    (setConv o f s).reader1 = s.reader1 := rfl
@[simp] theorem setConv_tag (o : Outlet) (f : Converter → Converter) (s : State) :
    (setConv o f s).tag = s.tag := rfl
@[simp] theorem setConv_rake (o : Outlet) (f : Converter → Converter) (s : State) :
    (setConv o f s).rake = s.rake := rfl

@[simp] theorem setLink_pending (o : Outlet) (f : Link → Link) (s : State) :
    (setLink o f s).pending = s.pending := rfl
@[simp] theorem setLink_clockMs (o : Outlet) (f : Link → Link) (s : State) :
    (setLink o f s).clockMs = s.clockMs := rfl
@[simp] theorem setLink_freeCount (o : Outlet) (f : Link → Link) (s : State) :
    (setLink o f s).freeCount = s.freeCount := rfl
@[simp] theorem setLink_out (o : Outlet) (f : Link → Link) (s : State) :
    (setLink o f s).out = s.out := rfl
@[simp] theorem setLink_power (o : Outlet) (f : Link → Link) (s : State) :
    (setLink o f s).power = s.power := rfl
@[simp] theorem setLink_fabric (o : Outlet) (f : Link → Link) (s : State) :
    (setLink o f s).fabric = s.fabric := rfl
@[simp] theorem setLink_sun (o : Outlet) (f : Link → Link) (s : State) :
    (setLink o f s).sun = s.sun := rfl
@[simp] theorem setLink_cfg (o : Outlet) (f : Link → Link) (s : State) :
    (setLink o f s).cfg = s.cfg := rfl
@[simp] theorem setLink_logs (o : Outlet) (f : Link → Link) (s : State) :
    (setLink o f s).logs = s.logs := rfl
@[simp] theorem setLink_host (o : Outlet) (f : Link → Link) (s : State) :
    (setLink o f s).host = s.host := rfl
@[simp] theorem setLink_acq (o : Outlet) (f : Link → Link) (s : State) :
    (setLink o f s).acq = s.acq := rfl
@[simp] theorem setLink_energy (o : Outlet) (f : Link → Link) (s : State) :
    (setLink o f s).energy = s.energy := rfl
@[simp] theorem setLink_link (o : Outlet) (f : Link → Link) (s : State) :
    (setLink o f s).link = s.link.set o (f (s.link.get o)) := rfl
@[simp] theorem setLink_sess (o : Outlet) (f : Link → Link) (s : State) :
    (setLink o f s).sess = s.sess := rfl
@[simp] theorem setLink_hedge (o : Outlet) (f : Link → Link) (s : State) :
    (setLink o f s).hedge = s.hedge := rfl
@[simp] theorem setLink_sw (o : Outlet) (f : Link → Link) (s : State) :
    (setLink o f s).sw = s.sw := rfl
@[simp] theorem setLink_bill (o : Outlet) (f : Link → Link) (s : State) :
    (setLink o f s).bill = s.bill := rfl
@[simp] theorem setLink_disp (o : Outlet) (f : Link → Link) (s : State) :
    (setLink o f s).disp = s.disp := rfl
@[simp] theorem setLink_otp (o : Outlet) (f : Link → Link) (s : State) :
    (setLink o f s).otp = s.otp := rfl
@[simp] theorem setLink_cis (o : Outlet) (f : Link → Link) (s : State) :
    (setLink o f s).cis = s.cis := rfl
@[simp] theorem setLink_dom (o : Outlet) (f : Link → Link) (s : State) :
    (setLink o f s).dom = s.dom := rfl
@[simp] theorem setLink_trellis (o : Outlet) (f : Link → Link) (s : State) :
    (setLink o f s).trellis = s.trellis := rfl
@[simp] theorem setLink_wadi (o : Outlet) (f : Link → Link) (s : State) :
    (setLink o f s).wadi = s.wadi := rfl
@[simp] theorem setLink_update (o : Outlet) (f : Link → Link) (s : State) :
    (setLink o f s).update = s.update := rfl
@[simp] theorem setLink_reader0 (o : Outlet) (f : Link → Link) (s : State) :
    (setLink o f s).reader0 = s.reader0 := rfl
@[simp] theorem setLink_reader1 (o : Outlet) (f : Link → Link) (s : State) :
    (setLink o f s).reader1 = s.reader1 := rfl
@[simp] theorem setLink_tag (o : Outlet) (f : Link → Link) (s : State) :
    (setLink o f s).tag = s.tag := rfl
@[simp] theorem setLink_rake (o : Outlet) (f : Link → Link) (s : State) :
    (setLink o f s).rake = s.rake := rfl

@[simp] theorem setHedge_pending (o : Outlet) (f : HedgeOutlet → HedgeOutlet) (s : State) :
    (setHedge o f s).pending = s.pending := rfl
@[simp] theorem setHedge_clockMs (o : Outlet) (f : HedgeOutlet → HedgeOutlet) (s : State) :
    (setHedge o f s).clockMs = s.clockMs := rfl
@[simp] theorem setHedge_freeCount (o : Outlet) (f : HedgeOutlet → HedgeOutlet) (s : State) :
    (setHedge o f s).freeCount = s.freeCount := rfl
@[simp] theorem setHedge_out (o : Outlet) (f : HedgeOutlet → HedgeOutlet) (s : State) :
    (setHedge o f s).out = s.out := rfl
@[simp] theorem setHedge_power (o : Outlet) (f : HedgeOutlet → HedgeOutlet) (s : State) :
    (setHedge o f s).power = s.power := rfl
@[simp] theorem setHedge_fabric (o : Outlet) (f : HedgeOutlet → HedgeOutlet) (s : State) :
    (setHedge o f s).fabric = s.fabric := rfl
@[simp] theorem setHedge_sun (o : Outlet) (f : HedgeOutlet → HedgeOutlet) (s : State) :
    (setHedge o f s).sun = s.sun := rfl
@[simp] theorem setHedge_cfg (o : Outlet) (f : HedgeOutlet → HedgeOutlet) (s : State) :
    (setHedge o f s).cfg = s.cfg := rfl
@[simp] theorem setHedge_logs (o : Outlet) (f : HedgeOutlet → HedgeOutlet) (s : State) :
    (setHedge o f s).logs = s.logs := rfl
@[simp] theorem setHedge_host (o : Outlet) (f : HedgeOutlet → HedgeOutlet) (s : State) :
    (setHedge o f s).host = s.host := rfl
@[simp] theorem setHedge_acq (o : Outlet) (f : HedgeOutlet → HedgeOutlet) (s : State) :
    (setHedge o f s).acq = s.acq := rfl
@[simp] theorem setHedge_energy (o : Outlet) (f : HedgeOutlet → HedgeOutlet) (s : State) :
    (setHedge o f s).energy = s.energy := rfl
@[simp] theorem setHedge_link (o : Outlet) (f : HedgeOutlet → HedgeOutlet) (s : State) :
    (setHedge o f s).link = s.link := rfl
@[simp] theorem setHedge_sess (o : Outlet) (f : HedgeOutlet → HedgeOutlet) (s : State) :
    (setHedge o f s).sess = s.sess := rfl
@[simp] theorem setHedge_hedge (o : Outlet) (f : HedgeOutlet → HedgeOutlet) (s : State) :
    (setHedge o f s).hedge = { s.hedge with out := s.hedge.out.set o (f (s.hedge.out.get o)) } := rfl
@[simp] theorem setHedge_sw (o : Outlet) (f : HedgeOutlet → HedgeOutlet) (s : State) :
    (setHedge o f s).sw = s.sw := rfl
@[simp] theorem setHedge_bill (o : Outlet) (f : HedgeOutlet → HedgeOutlet) (s : State) :
    (setHedge o f s).bill = s.bill := rfl
@[simp] theorem setHedge_disp (o : Outlet) (f : HedgeOutlet → HedgeOutlet) (s : State) :
    (setHedge o f s).disp = s.disp := rfl
@[simp] theorem setHedge_otp (o : Outlet) (f : HedgeOutlet → HedgeOutlet) (s : State) :
    (setHedge o f s).otp = s.otp := rfl
@[simp] theorem setHedge_cis (o : Outlet) (f : HedgeOutlet → HedgeOutlet) (s : State) :
    (setHedge o f s).cis = s.cis := rfl
@[simp] theorem setHedge_dom (o : Outlet) (f : HedgeOutlet → HedgeOutlet) (s : State) :
    (setHedge o f s).dom = s.dom := rfl
@[simp] theorem setHedge_trellis (o : Outlet) (f : HedgeOutlet → HedgeOutlet) (s : State) :
    (setHedge o f s).trellis = s.trellis := rfl
@[simp] theorem setHedge_wadi (o : Outlet) (f : HedgeOutlet → HedgeOutlet) (s : State) :
    (setHedge o f s).wadi = s.wadi := rfl
@[simp] theorem setHedge_update (o : Outlet) (f : HedgeOutlet → HedgeOutlet) (s : State) :
    (setHedge o f s).update = s.update := rfl
@[simp] theorem setHedge_reader0 (o : Outlet) (f : HedgeOutlet → HedgeOutlet) (s : State) :
    (setHedge o f s).reader0 = s.reader0 := rfl
@[simp] theorem setHedge_reader1 (o : Outlet) (f : HedgeOutlet → HedgeOutlet) (s : State) :
    (setHedge o f s).reader1 = s.reader1 := rfl
@[simp] theorem setHedge_tag (o : Outlet) (f : HedgeOutlet → HedgeOutlet) (s : State) :
    (setHedge o f s).tag = s.tag := rfl
@[simp] theorem setHedge_rake (o : Outlet) (f : HedgeOutlet → HedgeOutlet) (s : State) :
    (setHedge o f s).rake = s.rake := rfl

@[simp] theorem setScr_pending (o : Outlet) (f : Scarecrow → Scarecrow) (s : State) :
    (setScr o f s).pending = s.pending := rfl
@[simp] theorem setScr_clockMs (o : Outlet) (f : Scarecrow → Scarecrow) (s : State) :
    (setScr o f s).clockMs = s.clockMs := rfl
@[simp] theorem setScr_freeCount (o : Outlet) (f : Scarecrow → Scarecrow) (s : State) :
    (setScr o f s).freeCount = s.freeCount := rfl
@[simp] theorem setScr_out (o : Outlet) (f : Scarecrow → Scarecrow) (s : State) :
    (setScr o f s).out = s.out := rfl
@[simp] theorem setScr_power (o : Outlet) (f : Scarecrow → Scarecrow) (s : State) :
    (setScr o f s).power = s.power := rfl
@[simp] theorem setScr_fabric (o : Outlet) (f : Scarecrow → Scarecrow) (s : State) :
    (setScr o f s).fabric = s.fabric := rfl
@[simp] theorem setScr_sun (o : Outlet) (f : Scarecrow → Scarecrow) (s : State) :
    (setScr o f s).sun = s.sun := rfl
@[simp] theorem setScr_cfg (o : Outlet) (f : Scarecrow → Scarecrow) (s : State) :
    (setScr o f s).cfg = s.cfg := rfl
@[simp] theorem setScr_logs (o : Outlet) (f : Scarecrow → Scarecrow) (s : State) :
    (setScr o f s).logs = s.logs := rfl
@[simp] theorem setScr_host (o : Outlet) (f : Scarecrow → Scarecrow) (s : State) :
    (setScr o f s).host = s.host := rfl
@[simp] theorem setScr_acq (o : Outlet) (f : Scarecrow → Scarecrow) (s : State) :
    (setScr o f s).acq = s.acq := rfl
@[simp] theorem setScr_energy (o : Outlet) (f : Scarecrow → Scarecrow) (s : State) :
    (setScr o f s).energy = s.energy := rfl
@[simp] theorem setScr_link (o : Outlet) (f : Scarecrow → Scarecrow) (s : State) :
    (setScr o f s).link = s.link := rfl
@[simp] theorem setScr_sess (o : Outlet) (f : Scarecrow → Scarecrow) (s : State) :
    (setScr o f s).sess = s.sess := rfl
@[simp] theorem setScr_hedge (o : Outlet) (f : Scarecrow → Scarecrow) (s : State) :
    (setScr o f s).hedge = { s.hedge with scr := s.hedge.scr.set o (f (s.hedge.scr.get o)) } := rfl
@[simp] theorem setScr_sw (o : Outlet) (f : Scarecrow → Scarecrow) (s : State) :
    (setScr o f s).sw = s.sw := rfl
@[simp] theorem setScr_bill (o : Outlet) (f : Scarecrow → Scarecrow) (s : State) :
    (setScr o f s).bill = s.bill := rfl
@[simp] theorem setScr_disp (o : Outlet) (f : Scarecrow → Scarecrow) (s : State) :
    (setScr o f s).disp = s.disp := rfl
@[simp] theorem setScr_otp (o : Outlet) (f : Scarecrow → Scarecrow) (s : State) :
    (setScr o f s).otp = s.otp := rfl
@[simp] theorem setScr_cis (o : Outlet) (f : Scarecrow → Scarecrow) (s : State) :
    (setScr o f s).cis = s.cis := rfl
@[simp] theorem setScr_dom (o : Outlet) (f : Scarecrow → Scarecrow) (s : State) :
    (setScr o f s).dom = s.dom := rfl
@[simp] theorem setScr_trellis (o : Outlet) (f : Scarecrow → Scarecrow) (s : State) :
    (setScr o f s).trellis = s.trellis := rfl
@[simp] theorem setScr_wadi (o : Outlet) (f : Scarecrow → Scarecrow) (s : State) :
    (setScr o f s).wadi = s.wadi := rfl
@[simp] theorem setScr_update (o : Outlet) (f : Scarecrow → Scarecrow) (s : State) :
    (setScr o f s).update = s.update := rfl
@[simp] theorem setScr_reader0 (o : Outlet) (f : Scarecrow → Scarecrow) (s : State) :
    (setScr o f s).reader0 = s.reader0 := rfl
@[simp] theorem setScr_reader1 (o : Outlet) (f : Scarecrow → Scarecrow) (s : State) :
    (setScr o f s).reader1 = s.reader1 := rfl
@[simp] theorem setScr_tag (o : Outlet) (f : Scarecrow → Scarecrow) (s : State) :
    (setScr o f s).tag = s.tag := rfl
@[simp] theorem setScr_rake (o : Outlet) (f : Scarecrow → Scarecrow) (s : State) :
    (setScr o f s).rake = s.rake := rfl

@[simp] theorem emit_pending (o : Out) (s : State) : (emit o s).pending = s.pending := rfl
@[simp] theorem emit_clockMs (o : Out) (s : State) : (emit o s).clockMs = s.clockMs := rfl
@[simp] theorem emit_freeCount (o : Out) (s : State) : (emit o s).freeCount = s.freeCount := rfl
@[simp] theorem emit_out (o : Out) (s : State) : (emit o s).out = o :: s.out := rfl
@[simp] theorem emit_power (o : Out) (s : State) : (emit o s).power = s.power := rfl
@[simp] theorem emit_fabric (o : Out) (s : State) : (emit o s).fabric = s.fabric := rfl
@[simp] theorem emit_sun (o : Out) (s : State) : (emit o s).sun = s.sun := rfl
@[simp] theorem emit_cfg (o : Out) (s : State) : (emit o s).cfg = s.cfg := rfl
@[simp] theorem emit_logs (o : Out) (s : State) : (emit o s).logs = s.logs := rfl
@[simp] theorem emit_host (o : Out) (s : State) : (emit o s).host = s.host := rfl
@[simp] theorem emit_acq (o : Out) (s : State) : (emit o s).acq = s.acq := rfl
@[simp] theorem emit_energy (o : Out) (s : State) : (emit o s).energy = s.energy := rfl
@[simp] theorem emit_link (o : Out) (s : State) : (emit o s).link = s.link := rfl
@[simp] theorem emit_sess (o : Out) (s : State) : (emit o s).sess = s.sess := rfl
@[simp] theorem emit_hedge (o : Out) (s : State) : (emit o s).hedge = s.hedge := rfl
@[simp] theorem emit_sw (o : Out) (s : State) : (emit o s).sw = s.sw := rfl
@[simp] theorem emit_bill (o : Out) (s : State) : (emit o s).bill = s.bill := rfl
@[simp] theorem emit_disp (o : Out) (s : State) : (emit o s).disp = s.disp := rfl
@[simp] theorem emit_otp (o : Out) (s : State) : (emit o s).otp = s.otp := rfl
@[simp] theorem emit_cis (o : Out) (s : State) : (emit o s).cis = s.cis := rfl
@[simp] theorem emit_dom (o : Out) (s : State) : (emit o s).dom = s.dom := rfl
@[simp] theorem emit_trellis (o : Out) (s : State) : (emit o s).trellis = s.trellis := rfl
@[simp] theorem emit_wadi (o : Out) (s : State) : (emit o s).wadi = s.wadi := rfl
@[simp] theorem emit_update (o : Out) (s : State) : (emit o s).update = s.update := rfl
@[simp] theorem emit_reader0 (o : Out) (s : State) : (emit o s).reader0 = s.reader0 := rfl
@[simp] theorem emit_reader1 (o : Out) (s : State) : (emit o s).reader1 = s.reader1 := rfl
@[simp] theorem emit_tag (o : Out) (s : State) : (emit o s).tag = s.tag := rfl
@[simp] theorem emit_rake (o : Out) (s : State) : (emit o s).rake = s.rake := rfl

@[simp] theorem draw_pending (s : State) : (draw s).pending = s.pending := rfl
@[simp] theorem draw_clockMs (s : State) : (draw s).clockMs = s.clockMs := rfl
@[simp] theorem draw_freeCount (s : State) : (draw s).freeCount = s.freeCount + 1 := rfl
@[simp] theorem draw_out (s : State) : (draw s).out = s.out := rfl
@[simp] theorem draw_power (s : State) : (draw s).power = s.power := rfl
@[simp] theorem draw_fabric (s : State) : (draw s).fabric = s.fabric := rfl
@[simp] theorem draw_sun (s : State) : (draw s).sun = s.sun := rfl
@[simp] theorem draw_cfg (s : State) : (draw s).cfg = s.cfg := rfl
@[simp] theorem draw_logs (s : State) : (draw s).logs = s.logs := rfl
@[simp] theorem draw_host (s : State) : (draw s).host = s.host := rfl
@[simp] theorem draw_acq (s : State) : (draw s).acq = s.acq := rfl
@[simp] theorem draw_energy (s : State) : (draw s).energy = s.energy := rfl
@[simp] theorem draw_link (s : State) : (draw s).link = s.link := rfl
@[simp] theorem draw_sess (s : State) : (draw s).sess = s.sess := rfl
@[simp] theorem draw_hedge (s : State) : (draw s).hedge = s.hedge := rfl
@[simp] theorem draw_sw (s : State) : (draw s).sw = s.sw := rfl
@[simp] theorem draw_bill (s : State) : (draw s).bill = s.bill := rfl
@[simp] theorem draw_disp (s : State) : (draw s).disp = s.disp := rfl
@[simp] theorem draw_otp (s : State) : (draw s).otp = s.otp := rfl
@[simp] theorem draw_cis (s : State) : (draw s).cis = s.cis := rfl
@[simp] theorem draw_dom (s : State) : (draw s).dom = s.dom := rfl
@[simp] theorem draw_trellis (s : State) : (draw s).trellis = s.trellis := rfl
@[simp] theorem draw_wadi (s : State) : (draw s).wadi = s.wadi := rfl
@[simp] theorem draw_update (s : State) : (draw s).update = s.update := rfl
@[simp] theorem draw_reader0 (s : State) : (draw s).reader0 = s.reader0 := rfl
@[simp] theorem draw_reader1 (s : State) : (draw s).reader1 = s.reader1 := rfl
@[simp] theorem draw_tag (s : State) : (draw s).tag = s.tag := rfl
@[simp] theorem draw_rake (s : State) : (draw s).rake = s.rake := rfl

/-! ### Time -/

/-- What the ringing of one doorbell leaves, the ringing of many leaves. -/
theorem ringPassed_keeps {α : Type} (g : State → α) (h : ∀ d t, g (ring d t) = g t) (lo hi : Nat) (s : State) :
    g (ringPassed lo hi s) = g s := by
  unfold ringPassed
  generalize s.fabric.doorbells.filter _ = l
  induction l generalizing s with
  | nil => rfl
  | cons d l ih => exact (ih (ring d s)).trans (h d s)

/-- A millisecond of the dial leaves, beside the clock, what neither the dial nor a doorbell changes. -/
theorem tick_keeps {α : Type} (g : State → α) (h : ∀ d t, g (ring d t) = g t) (hs : ∀ f t, g (setSun f t) = g t) (s : State) :
    g (tick s) = g { s with clockMs := s.clockMs + 1 } := by
  unfold tick
  exact (hs _ _).trans (ringPassed_keeps g h _ _ _)

@[simp] theorem ringPassed_pending (lo hi : Nat) (s : State) : (ringPassed lo hi s).pending = s.pending :=
  ringPassed_keeps (·.pending) (fun _ _ => rfl) lo hi s
@[simp] theorem tick_pending (s : State) : (tick s).pending = s.pending :=
  tick_keeps (·.pending) (fun _ _ => rfl) (fun _ _ => rfl) s
@[simp] theorem ringPassed_clockMs (lo hi : Nat) (s : State) : (ringPassed lo hi s).clockMs = s.clockMs :=
  ringPassed_keeps (·.clockMs) (fun _ _ => rfl) lo hi s
@[simp] theorem tick_clockMs (s : State) : (tick s).clockMs = s.clockMs + 1 :=
  tick_keeps (·.clockMs) (fun _ _ => rfl) (fun _ _ => rfl) s
@[simp] theorem ringPassed_freeCount (lo hi : Nat) (s : State) : (ringPassed lo hi s).freeCount = s.freeCount :=
  ringPassed_keeps (·.freeCount) (fun _ _ => rfl) lo hi s
@[simp] theorem tick_freeCount (s : State) : (tick s).freeCount = s.freeCount :=
  tick_keeps (·.freeCount) (fun _ _ => rfl) (fun _ _ => rfl) s
@[simp] theorem ringPassed_power (lo hi : Nat) (s : State) : (ringPassed lo hi s).power = s.power :=
  ringPassed_keeps (·.power) (fun _ _ => rfl) lo hi s
@[simp] theorem tick_power (s : State) : (tick s).power = s.power :=
  tick_keeps (·.power) (fun _ _ => rfl) (fun _ _ => rfl) s
@[simp] theorem ringPassed_cfg (lo hi : Nat) (s : State) : (ringPassed lo hi s).cfg = s.cfg :=
  ringPassed_keeps (·.cfg) (fun _ _ => rfl) lo hi s
@[simp] theorem tick_cfg (s : State) : (tick s).cfg = s.cfg :=
  tick_keeps (·.cfg) (fun _ _ => rfl) (fun _ _ => rfl) s
@[simp] theorem ringPassed_logs (lo hi : Nat) (s : State) : (ringPassed lo hi s).logs = s.logs :=
  ringPassed_keeps (·.logs) (fun _ _ => rfl) lo hi s
@[simp] theorem tick_logs (s : State) : (tick s).logs = s.logs :=
  tick_keeps (·.logs) (fun _ _ => rfl) (fun _ _ => rfl) s
@[simp] theorem ringPassed_host (lo hi : Nat) (s : State) : (ringPassed lo hi s).host = s.host :=
  ringPassed_keeps (·.host) (fun _ _ => rfl) lo hi s
@[simp] theorem tick_host (s : State) : (tick s).host = s.host :=
  tick_keeps (·.host) (fun _ _ => rfl) (fun _ _ => rfl) s
@[simp] theorem ringPassed_acq (lo hi : Nat) (s : State) : (ringPassed lo hi s).acq = s.acq :=
  ringPassed_keeps (·.acq) (fun _ _ => rfl) lo hi s
@[simp] theorem tick_acq (s : State) : (tick s).acq = s.acq :=
  tick_keeps (·.acq) (fun _ _ => rfl) (fun _ _ => rfl) s
@[simp] theorem ringPassed_energy (lo hi : Nat) (s : State) : (ringPassed lo hi s).energy = s.energy :=
  ringPassed_keeps (·.energy) (fun _ _ => rfl) lo hi s
@[simp] theorem tick_energy (s : State) : (tick s).energy = s.energy :=
  tick_keeps (·.energy) (fun _ _ => rfl) (fun _ _ => rfl) s
@[simp] theorem ringPassed_link (lo hi : Nat) (s : State) : (ringPassed lo hi s).link = s.link :=
  ringPassed_keeps (·.link) (fun _ _ => rfl) lo hi s
@[simp] theorem tick_link (s : State) : (tick s).link = s.link :=
  tick_keeps (·.link) (fun _ _ => rfl) (fun _ _ => rfl) s
@[simp] theorem ringPassed_sess (lo hi : Nat) (s : State) : (ringPassed lo hi s).sess = s.sess :=
  ringPassed_keeps (·.sess) (fun _ _ => rfl) lo hi s
@[simp] theorem tick_sess (s : State) : (tick s).sess = s.sess :=
  tick_keeps (·.sess) (fun _ _ => rfl) (fun _ _ => rfl) s
@[simp] theorem ringPassed_hedge (lo hi : Nat) (s : State) : (ringPassed lo hi s).hedge = s.hedge :=
  ringPassed_keeps (·.hedge) (fun _ _ => rfl) lo hi s
@[simp] theorem tick_hedge (s : State) : (tick s).hedge = s.hedge :=
  tick_keeps (·.hedge) (fun _ _ => rfl) (fun _ _ => rfl) s
@[simp] theorem ringPassed_sw (lo hi : Nat) (s : State) : (ringPassed lo hi s).sw = s.sw :=
  ringPassed_keeps (·.sw) (fun _ _ => rfl) lo hi s
@[simp] theorem tick_sw (s : State) : (tick s).sw = s.sw :=
  tick_keeps (·.sw) (fun _ _ => rfl) (fun _ _ => rfl) s
@[simp] theorem ringPassed_bill (lo hi : Nat) (s : State) : (ringPassed lo hi s).bill = s.bill :=
  ringPassed_keeps (·.bill) (fun _ _ => rfl) lo hi s
@[simp] theorem tick_bill (s : State) : (tick s).bill = s.bill :=
  tick_keeps (·.bill) (fun _ _ => rfl) (fun _ _ => rfl) s
@[simp] theorem ringPassed_disp (lo hi : Nat) (s : State) : (ringPassed lo hi s).disp = s.disp :=
  ringPassed_keeps (·.disp) (fun _ _ => rfl) lo hi s
@[simp] theorem tick_disp (s : State) : (tick s).disp = s.disp :=
  tick_keeps (·.disp) (fun _ _ => rfl) (fun _ _ => rfl) s
@[simp] theorem ringPassed_otp (lo hi : Nat) (s : State) : (ringPassed lo hi s).otp = s.otp :=
  ringPassed_keeps (·.otp) (fun _ _ => rfl) lo hi s
@[simp] theorem tick_otp (s : State) : (tick s).otp = s.otp :=
  tick_keeps (·.otp) (fun _ _ => rfl) (fun _ _ => rfl) s
@[simp] theorem ringPassed_cis (lo hi : Nat) (s : State) : (ringPassed lo hi s).cis = s.cis :=
  ringPassed_keeps (·.cis) (fun _ _ => rfl) lo hi s
@[simp] theorem tick_cis (s : State) : (tick s).cis = s.cis :=
  tick_keeps (·.cis) (fun _ _ => rfl) (fun _ _ => rfl) s
@[simp] theorem ringPassed_dom (lo hi : Nat) (s : State) : (ringPassed lo hi s).dom = s.dom :=
  ringPassed_keeps (·.dom) (fun _ _ => rfl) lo hi s
@[simp] theorem tick_dom (s : State) : (tick s).dom = s.dom :=
  tick_keeps (·.dom) (fun _ _ => rfl) (fun _ _ => rfl) s
@[simp] theorem ringPassed_trellis (lo hi : Nat) (s : State) : (ringPassed lo hi s).trellis = s.trellis :=
  ringPassed_keeps (·.trellis) (fun _ _ => rfl) lo hi s
@[simp] theorem tick_trellis (s : State) : (tick s).trellis = s.trellis :=
  tick_keeps (·.trellis) (fun _ _ => rfl) (fun _ _ => rfl) s
@[simp] theorem ringPassed_wadi (lo hi : Nat) (s : State) : (ringPassed lo hi s).wadi = s.wadi :=
  ringPassed_keeps (·.wadi) (fun _ _ => rfl) lo hi s
@[simp] theorem tick_wadi (s : State) : (tick s).wadi = s.wadi :=
  tick_keeps (·.wadi) (fun _ _ => rfl) (fun _ _ => rfl) s
@[simp] theorem ringPassed_update (lo hi : Nat) (s : State) : (ringPassed lo hi s).update = s.update :=
  ringPassed_keeps (·.update) (fun _ _ => rfl) lo hi s
@[simp] theorem tick_update (s : State) : (tick s).update = s.update :=
  tick_keeps (·.update) (fun _ _ => rfl) (fun _ _ => rfl) s
@[simp] theorem ringPassed_reader0 (lo hi : Nat) (s : State) : (ringPassed lo hi s).reader0 = s.reader0 :=
  ringPassed_keeps (·.reader0) (fun _ _ => rfl) lo hi s
@[simp] theorem tick_reader0 (s : State) : (tick s).reader0 = s.reader0 :=
  tick_keeps (·.reader0) (fun _ _ => rfl) (fun _ _ => rfl) s
@[simp] theorem ringPassed_reader1 (lo hi : Nat) (s : State) : (ringPassed lo hi s).reader1 = s.reader1 :=
  ringPassed_keeps (·.reader1) (fun _ _ => rfl) lo hi s
@[simp] theorem tick_reader1 (s : State) : (tick s).reader1 = s.reader1 :=
  tick_keeps (·.reader1) (fun _ _ => rfl) (fun _ _ => rfl) s
@[simp] theorem ringPassed_tag (lo hi : Nat) (s : State) : (ringPassed lo hi s).tag = s.tag :=
  ringPassed_keeps (·.tag) (fun _ _ => rfl) lo hi s
@[simp] theorem tick_tag (s : State) : (tick s).tag = s.tag :=
  tick_keeps (·.tag) (fun _ _ => rfl) (fun _ _ => rfl) s
@[simp] theorem ringPassed_rake (lo hi : Nat) (s : State) : (ringPassed lo hi s).rake = s.rake :=
  ringPassed_keeps (·.rake) (fun _ _ => rfl) lo hi s
@[simp] theorem tick_rake (s : State) : (tick s).rake = s.rake :=
  tick_keeps (·.rake) (fun _ _ => rfl) (fun _ _ => rfl) s

end Sys2Proof.Machine
end

