-- ==== Sys2Proof/Laws/Vehicle.lean ====
section
/-! SUPPORT. What the operations outside chapters 06 to 09 leave alone: vehicle links, sessions, Hedge with Scarecrow, and the
switch channels. One lemma per operation. -/

set_option linter.unusedSimpArgs false

namespace Sys2Proof.Machine

/-- The part of a state that this file is about. -/
structure Vehicle where
  link : PerOutlet Link
  sess : Sessions
  hedge : Hedge
  sw : Switches

/-- That part of a state. -/
def vehicle (s : State) : Vehicle := ⟨s.link, s.sess, s.hedge, s.sw⟩

@[simp] theorem ite_vehicle (c : Prop) [Decidable c] (a b : State) : vehicle (if c then a else b) = if c then vehicle a else vehicle b := by split <;> rfl

@[simp] theorem foldl_vehicle {α : Type} (f : State → α → State) (hf : ∀ t a, vehicle (f t a) = vehicle t) (l : List α) (s : State) :
    vehicle (l.foldl f s) = vehicle s := by
  induction l generalizing s with
  | nil => rfl
  | cons a l ih => simp [ih, hf]

theorem elim_vehicle {α : Type} (o : Option α) (a : State) (f : α → State) (k : Vehicle) (ha : vehicle a = k) (hf : ∀ x, vehicle (f x) = k) : vehicle (o.elim a f) = k := by
  cases o with
  | none => exact ha
  | some x => exact hf x

@[simp] theorem vehicle_mk pending clockMs freeCount out_ power fabric sun cfg logs host acq energy link sess hedge sw bill disp otp cis dom trellis wadi update reader0 reader1 tag rake :
    vehicle (State.mk pending clockMs freeCount out_ power fabric sun cfg logs host acq energy link sess hedge sw bill disp otp cis dom trellis wadi update reader0 reader1 tag rake) = ⟨link, sess, hedge, sw⟩ := rfl

@[simp] theorem vehicle_eta (t : State) : Vehicle.mk t.link t.sess t.hedge t.sw = vehicle t := rfl

@[simp] theorem draw_vehicle (s : State) : vehicle (draw s) = vehicle s := by simp [draw]

@[simp] theorem emit_vehicle (o : Out) (s : State) : vehicle (emit o s) = vehicle s := by simp [emit]

@[simp] theorem releaseRecords_vehicle (o : Outlet) (s : State) : vehicle (releaseRecords o s) = vehicle s := by simp [releaseRecords]

@[simp] theorem addGeneral_vehicle (e : LogEntry) (s : State) : vehicle (addGeneral e s) = vehicle s := by simp [addGeneral]

@[simp] theorem addLegal_vehicle (e : LogEntry) (s : State) : vehicle (addLegal e s) = vehicle s := by simp [addLegal]

@[simp] theorem journal_vehicle (kind : Nat) (object : Nat) (seq : Nat) (s : State) : vehicle (journal kind object seq s) = vehicle s := by simp [journal]

@[simp] theorem log_vehicle (origin : Nat) (sub : Nat) (code : Nat) (detail : List Byte) (legal : Bool) (s : State) : vehicle (log origin sub code detail legal s) = vehicle s := by simp [log]

@[simp] theorem forOutlets_vehicle (f : Outlet → State → State) (s : State) (hf : ∀ o t, vehicle (f o t) = vehicle t) : vehicle (forOutlets f s) = vehicle s := by
  simp [forOutlets, hf]

@[simp] theorem spiTransfer_vehicle (p : Port) (s : State) : vehicle (spiTransfer p s) = vehicle s := rfl

@[simp] theorem present_vehicle (s : State) : vehicle (present s) = vehicle s := rfl

@[simp] theorem sendPacket_vehicle (p : Packet) (s : State) : vehicle (sendPacket p s) = vehicle s := by
  simp [sendPacket, emit]

@[simp] theorem setOrigin_vehicle (p : Port) (f : Origin → Origin) (s : State) : vehicle (setOrigin p f s) = vehicle s := by
  unfold setOrigin; split <;> simp

@[simp] theorem sendEvent_vehicle (port : Port) (cls : Nat) (opcode : Nat) (payload : List Byte) (s : State) : vehicle (sendEvent port cls opcode payload s) = vehicle s := by simp [sendEvent]

@[simp] theorem eventAll_vehicle (cls : Nat) (opcode : Nat) (payload : List Byte) (s : State) : vehicle (eventAll cls opcode payload s) = vehicle s := by simp [eventAll]

@[simp] theorem completeRequest_vehicle (port : Port) (cls : Nat) (opcode : Nat) (seq : U32) (status : Nat) (payload : List Byte) (s : State) : vehicle (completeRequest port cls opcode seq status payload s) = vehicle s := by simp [completeRequest]

@[simp] theorem plainResponse_vehicle (port : Port) (cls : Nat) (opcode : Nat) (seq : U32) (status : Nat) (payload : List Byte) (s : State) : vehicle (plainResponse port cls opcode seq status payload s) = vehicle s := by simp [plainResponse]

@[simp] theorem authFailure_vehicle (opcode : Nat) (r : Request) (s : State) : vehicle (authFailure opcode r s) = vehicle s := by simp [authFailure]

@[simp] theorem runRequest_vehicle (op : OpSpec) (r : Request) (act : State → State × Answer) (s : State) (hf : ∀ t, vehicle (act t).1 = vehicle t) : vehicle (runRequest op r act s).1 = vehicle s := by
  unfold runRequest; repeat' split
  all_goals simp [hf]

@[simp] theorem acceptRequest_vehicle (code : Nat) (r : Request) (run : State → State × Answer) (s : State) (hf : ∀ t, vehicle (run t).1 = vehicle t) : vehicle (acceptRequest code r run s) = vehicle s := by
  unfold acceptRequest
  repeat (any_goals split)
  all_goals try dsimp only
  all_goals repeat (any_goals split)
  all_goals first
    | (simp; done)
    | (rename_i h; have h2 := congrArg (fun x => vehicle (Prod.fst x)) h; simp [hf] at h2; simp [← h2])

@[simp] theorem hostRequest_vehicle (op : OpSpec) (r : Request) (act : State → State × Answer) (s : State) (hf : ∀ t, vehicle (act t).1 = vehicle t) : vehicle (hostRequest op r act s) = vehicle s := by
  exact acceptRequest_vehicle _ _ _ _ (fun t => runRequest_vehicle _ _ _ _ hf)

@[simp] theorem refuse_vehicle (status : Nat) (s : State) : vehicle (refuse status s).1 = vehicle s := by simp [refuse]

@[simp] theorem done_vehicle (s : State) : vehicle (done s).1 = vehicle s := by simp [done]

@[simp] theorem reply_vehicle (payload : List Byte) (s : State) : vehicle (reply payload s).1 = vehicle s := by simp [reply]

@[simp] theorem guarded_vehicle (checks : List Nat) (act : State → State × Answer) (s : State) (hf : ∀ t, vehicle (act t).1 = vehicle t) : vehicle (guarded checks act s).1 = vehicle s := by
  unfold guarded; split <;> simp [hf]

@[simp] theorem putTransfer_vehicle (t : Transfer) (s : State) : vehicle (putTransfer t s) = vehicle s := by simp [putTransfer]

@[simp] theorem bulkWrite_vehicle (opcode : Nat) (maxTotal : Nat) (check : Nat → Nat) (apply : List Byte → State → State × Nat) (r : Request) (s : State) (hf : ∀ b t, vehicle (apply b t).1 = vehicle t) : vehicle (bulkWrite opcode maxTotal check apply r s).1 = vehicle s := by
  unfold bulkWrite
  repeat (any_goals (first | (simp [hf]; done) | split | (refine guarded_vehicle _ _ _ (fun _ => ?_)) | (refine foldl_vehicle _ (fun _ _ => ?_) _ _) | (refine elim_vehicle _ _ _ _ ?_ (fun _ => ?_)) | (rename_i h; have h2 := congrArg (fun x => vehicle (Prod.fst x)) h; simp at h2; simp [← h2]; done) | dsimp only))

@[simp] theorem bulkRead_vehicle (object : List Byte) (r : Request) (s : State) : vehicle (bulkRead object r s).1 = vehicle s := by simp [bulkRead]

@[simp] theorem closeTransfer_vehicle (id : Nat) (st : TransferState) (status : Nat) (s : State) : vehicle (closeTransfer id st status s) = vehicle s := by simp [closeTransfer]

@[simp] theorem setCis_vehicle (f : Cistern → Cistern) (s : State) : vehicle (setCis f s) = vehicle s := by simp [setCis]

@[simp] theorem putKeyBlock_vehicle (b : KeyBlock) (s : State) : vehicle (putKeyBlock b s) = vehicle s := by simp [putKeyBlock]

@[simp] theorem putStatements_vehicle (xs : List Statement) (s : State) : vehicle (putStatements xs s) = vehicle s := by
  unfold putStatements; split <;> simp

@[simp] theorem logStatement_vehicle (x : Statement) (s : State) : vehicle (logStatement x s) = vehicle s := by simp [logStatement]

@[simp] theorem bringInForce_vehicle (x : Statement) (s : State) : vehicle (bringInForce x s) = vehicle s := by simp [bringInForce]

@[simp] theorem signed_vehicle (s : State) : vehicle (signed s) = vehicle s := by
  unfold signed; repeat' split
  all_goals simp

@[simp] theorem archiveLegal_vehicle (origin : Nat) (s : State) : vehicle (archiveLegal origin s) = vehicle s := by simp [archiveLegal]

@[simp] theorem releaseIrq_vehicle (s : State) : vehicle (releaseIrq s) = vehicle s := by simp [releaseIrq]

@[simp] theorem setSun_vehicle (f : Sundial → Sundial) (s : State) : vehicle (setSun f s) = vehicle s := by simp [setSun]

@[simp] theorem ring_vehicle (d : Doorbell) (s : State) : vehicle (ring d s) = vehicle s := by simp [ring]

@[simp] theorem ringPassed_vehicle (lo : Nat) (hi : Nat) (s : State) : vehicle (ringPassed lo hi s) = vehicle s := by simp [ringPassed]

@[simp] theorem ringCycle_vehicle (s : State) : vehicle (ringCycle s) = vehicle s := by simp [ringCycle]

@[simp] theorem reachAngle_vehicle (angle : Nat) (s : State) : vehicle (reachAngle angle s) = vehicle s := by simp [reachAngle]

@[simp] theorem dialAtLeast_vehicle (angle : Nat) (s : State) : vehicle (dialAtLeast angle s) = vehicle s := by simp [dialAtLeast]

@[simp] theorem tick_vehicle (s : State) : vehicle (tick s) = vehicle s := by simp [tick]

@[simp] theorem setAcq_vehicle (f : Acquisition → Acquisition) (s : State) : vehicle (setAcq f s) = vehicle s := by simp [setAcq]

@[simp] theorem setChan_vehicle (c : Nat) (f : ChanState → ChanState) (s : State) : vehicle (setChan c f s) = vehicle s := by simp [setChan]

@[simp] theorem takeSample_vehicle (k : Nat) (tk : Nat) (st : ChanStream) (s : State) : vehicle (takeSample k tk st s) = vehicle s := by
  unfold takeSample
  repeat (any_goals (first | (simp; done) | split | (refine guarded_vehicle _ _ _ (fun _ => ?_)) | (refine foldl_vehicle _ (fun _ _ => ?_) _ _) | (refine elim_vehicle _ _ _ _ ?_ (fun _ => ?_)) | (rename_i h; have h2 := congrArg (fun x => vehicle (Prod.fst x)) h; simp at h2; simp [← h2]; done) | dsimp only))

@[simp] theorem takeRaw_vehicle (k : Nat) (tk : Nat) (st : ChanStream) (s : State) : vehicle (takeRaw k tk st s) = vehicle s := by
  unfold takeRaw; repeat' split
  all_goals simp

@[simp] theorem noteStuck_vehicle (c : Nat) (s : State) : vehicle (noteStuck c s) = vehicle s := by simp [noteStuck]

@[simp] theorem holdMet_vehicle (e : Nat) (s : State) : vehicle (holdMet e s) = vehicle s := by simp [holdMet]

@[simp] theorem startMclk_vehicle (s : State) : vehicle (startMclk s) = vehicle s := by simp [startMclk]

@[simp] theorem changeMclk_vehicle (s : State) : vehicle (changeMclk s) = vehicle s := by simp [changeMclk]

@[simp] theorem reloadPath_vehicle (s : State) : vehicle (reloadPath s) = vehicle s := by simp [reloadPath]

@[simp] theorem reloadLegal_vehicle (slotB : Bool) (s : State) : vehicle (reloadLegal slotB s) = vehicle s := by simp [reloadLegal]

@[simp] theorem legalBoundary_vehicle (s : State) : vehicle (legalBoundary s) = vehicle s := by simp [legalBoundary]

@[simp] theorem measureBoundary_vehicle (s : State) : vehicle (measureBoundary s) = vehicle s := by
  unfold measureBoundary; split <;> simp

@[simp] theorem acquisitionBoundary_vehicle (tc : Nat) (s : State) : vehicle (acquisitionBoundary tc s) = vehicle s := by simp [acquisitionBoundary]

@[simp] theorem dropTrials_vehicle (s : State) : vehicle (dropTrials s) = vehicle s := by simp [dropTrials]

@[simp] theorem leaveService_vehicle (s : State) : vehicle (leaveService s) = vehicle s := dropTrials_vehicle s

@[simp] theorem logTrip_vehicle (outlet : Nat) (bit : List Byte) (value : List Byte) (mask : Option Nat) (s : State) : vehicle (logTrip outlet bit value mask s) = vehicle s := by simp [logTrip]

@[simp] theorem logReset_vehicle (origin : Nat) (outlet : Nat) (cleared : Nat) (remaining : Nat) (s : State) : vehicle (logReset origin outlet cleared remaining s) = vehicle s := by simp [logReset]

@[simp] theorem setSieve_vehicle (f : List SieveEntry → List SieveEntry) (s : State) : vehicle (setSieve f s) = vehicle s := by simp [setSieve]

@[simp] theorem setUpdate_vehicle (f : Update → Update) (s : State) : vehicle (setUpdate f s) = vehicle s := by simp [setUpdate]

@[simp] theorem setRegion_vehicle (r : Nat) (f : Region → Region) (s : State) : vehicle (setRegion r f s) = vehicle s := by simp [setRegion]

@[simp] theorem setSlot_vehicle (r : Nat) (b : Bool) (f : RegionSlot → RegionSlot) (s : State) : vehicle (setSlot r b f s) = vehicle s := by simp [setSlot]

@[simp] theorem writeDirectory_vehicle (f : Update → Update) (s : State) : vehicle (writeDirectory f s) = vehicle s := by simp [writeDirectory]

@[simp] theorem updateLog_vehicle (origin : Nat) (code : Nat) (mask : Nat) (detail : List Byte) (s : State) : vehicle (updateLog origin code mask detail s) = vehicle s := by simp [updateLog]

@[simp] theorem logChanges_vehicle (slot : Nat) (serial : Nat) (recs : List Rec) (s : State) : vehicle (logChanges slot serial recs s) = vehicle s := by
  unfold logChanges; split <;> simp

@[simp] theorem useImage_vehicle (slot : Nat) (b : List Byte) (s : State) : vehicle (useImage slot b s) = vehicle s := by simp [useImage]

@[simp] theorem useDefaults_vehicle (s : State) : vehicle (useDefaults s) = vehicle s := by simp [useDefaults]

@[simp] theorem logSlotFallback_vehicle (slot : Nat) (failed : Nat) (inForce : Nat) (other : Nat) (s : State) : vehicle (logSlotFallback slot failed inForce other s) = vehicle s := by simp [logSlotFallback]

@[simp] theorem readConfiguration_vehicle (s : State) : vehicle (readConfiguration s) = vehicle s := by simp [readConfiguration]

@[simp] theorem setEnergy_vehicle (f : Energy → Energy) (s : State) : vehicle (setEnergy f s) = vehicle s := by simp [setEnergy]

@[simp] theorem logCorrupt_vehicle (m : Nat) (x : Register) (s : State) : vehicle (logCorrupt m x s) = vehicle s := by simp [logCorrupt]

@[simp] theorem putReg_vehicle (m : Nat) (x : Register) (s : State) : vehicle (putReg m x s) = vehicle s := by simp [putReg]

@[simp] theorem logRun_vehicle (m : Nat) (w : RegWindow) (old : Register) (new : Register) (s : State) : vehicle (logRun m w old new s) = vehicle s := by simp [logRun]

@[simp] theorem commitRegister_vehicle (s : State) (x : Nat × RegWindow) : vehicle (commitRegister s x) = vehicle s := by simp [commitRegister]

@[simp] theorem commitPulses_vehicle (incs : List Int) (s : State) : vehicle (commitPulses incs s) = vehicle s := by simp [commitPulses]

@[simp] theorem setPulse_vehicle (m : Nat) (f : Pulse → Pulse) (s : State) : vehicle (setPulse m f s) = vehicle s := by simp [setPulse]

@[simp] theorem writeCommit_vehicle (partialKind : Bool) (angle : Nat) (s : State) : vehicle (writeCommit partialKind angle s) = vehicle s := by simp [writeCommit]

@[simp] theorem markCorrupt_vehicle (m : Nat) (s : State) : vehicle (markCorrupt m s) = vehicle s := by simp [markCorrupt]

@[simp] theorem logLost_vehicle (at' : Stamp) (s : State) : vehicle (logLost at' s) = vehicle s := by simp [logLost]

@[simp] theorem residueStep_vehicle (e : Nat) (r : ResidueOutcome) (s : State) : vehicle (residueStep e r s) = vehicle s := by
  unfold residueStep; split <;> simp

@[simp] theorem reloadEnergy_vehicle (s : State) : vehicle (reloadEnergy s) = vehicle s := by simp [reloadEnergy]

@[simp] theorem applyRestores_vehicle (s : State) : vehicle (applyRestores s) = vehicle s := by simp [applyRestores]

@[simp] theorem commitWindow_vehicle (partialKind : Bool) (angle : Nat) (ps : List WinPos) (w : WindowInput) (s : State) : vehicle (commitWindow partialKind angle ps w s).1 = vehicle s := by
  unfold commitWindow
  repeat (any_goals (first | (simp; done) | split | (refine guarded_vehicle _ _ _ (fun _ => ?_)) | (refine foldl_vehicle _ (fun _ _ => ?_) _ _) | (refine elim_vehicle _ _ _ _ ?_ (fun _ => ?_)) | (rename_i h; have h2 := congrArg (fun x => vehicle (Prod.fst x)) h; simp at h2; simp [← h2]; done) | dsimp only))

@[simp] theorem startWindowAt_vehicle (k : Nat) (s : State) : vehicle (startWindowAt k s) = vehicle s := by simp [startWindowAt]

@[simp] theorem energyRegular_vehicle (w : WindowInput) (s : State) : vehicle (energyRegular w s).1 = vehicle s := by simp [energyRegular]

@[simp] theorem energyPartial_vehicle (w : WindowInput) (last : Nat) (s : State) : vehicle (energyPartial w last s).1 = vehicle s := by simp [energyPartial]

@[simp] theorem energyBoundary_vehicle (s : State) : vehicle (energyBoundary s) = vehicle s := by simp [energyBoundary]

@[simp] theorem writeMarker_vehicle (s : State) : vehicle (writeMarker s) = vehicle s := by simp [writeMarker]

@[simp] theorem restoreSnapshots_vehicle (s : State) : vehicle (restoreSnapshots s) = vehicle s := by simp [restoreSnapshots]

@[simp] theorem restoreEnergy_vehicle (badRegs : List Nat) (s : State) : vehicle (restoreEnergy badRegs s) = vehicle s := by
  unfold restoreEnergy; split <;> simp

@[simp] theorem snapshot_vehicle (ms : List Nat) (s : State) : vehicle (snapshot ms s) = vehicle s := by simp [snapshot]

@[simp] theorem snapshotAll_vehicle (s : State) : vehicle (snapshotAll s) = vehicle s := by simp [snapshotAll]

@[simp] theorem clearSessionStatus_vehicle (o : Outlet) (s : State) : vehicle (clearSessionStatus o s) = vehicle s := by simp [clearSessionStatus]

@[simp] theorem setBill_vehicle (f : Billing → Billing) (s : State) : vehicle (setBill f s) = vehicle s := by simp [setBill]

@[simp] theorem billOutlet_vehicle (changes : List Int) (o : Outlet) (s : State) : vehicle (billOutlet changes o s) = vehicle s := by simp [billOutlet]

@[simp] theorem writeBillingSlot_vehicle (partialKind : Bool) (s : State) : vehicle (writeBillingSlot partialKind s) = vehicle s := by simp [writeBillingSlot]

@[simp] theorem billWindow_vehicle (partialKind : Bool) (changes : List Int) (s : State) : vehicle (billWindow partialKind changes s) = vehicle s := by simp [billWindow]

@[simp] theorem billingBoundary_vehicle (s : State) : vehicle (billingBoundary s) = vehicle s := by simp [billingBoundary]

@[simp] theorem putAccount_vehicle (a : Account) (s : State) : vehicle (putAccount a s) = vehicle s := by simp [putAccount]

@[simp] theorem writeAccountStore_vehicle (s : State) : vehicle (writeAccountStore s) = vehicle s := by simp [writeAccountStore]

@[simp] theorem debit_vehicle (i : Nat) (cost : Int) (s : State) : vehicle (debit i cost s) = vehicle s := by
  unfold debit; split <;> simp

@[simp] theorem restoreAccounts_vehicle (s : State) : vehicle (restoreAccounts s) = vehicle s := by
  unfold restoreAccounts
  repeat (any_goals (first | (simp; done) | split | (refine guarded_vehicle _ _ _ (fun _ => ?_)) | (refine foldl_vehicle _ (fun _ _ => ?_) _ _) | (refine elim_vehicle _ _ _ _ ?_ (fun _ => ?_)) | (rename_i h; have h2 := congrArg (fun x => vehicle (Prod.fst x)) h; simp at h2; simp [← h2]; done) | dsimp only))

@[simp] theorem openRecord_vehicle (o : Outlet) (s : State) : vehicle (openRecord o s) = vehicle s := by simp [openRecord]

@[simp] theorem closeRecord_vehicle (o : Outlet) (reason : Nat) (s : State) : vehicle (closeRecord o reason s) = vehicle s := by
  unfold closeRecord
  repeat (any_goals (first | (simp; done) | split | (refine guarded_vehicle _ _ _ (fun _ => ?_)) | (refine foldl_vehicle _ (fun _ _ => ?_) _ _) | (refine elim_vehicle _ _ _ _ ?_ (fun _ => ?_)) | (rename_i h; have h2 := congrArg (fun x => vehicle (Prod.fst x)) h; simp at h2; simp [← h2]; done) | dsimp only))

@[simp] theorem closePeriod_vehicle (origin : Nat) (endUtc : Option Nat) (late : Bool) (byCommand : Bool) (s : State) : vehicle (closePeriod origin endUtc late byCommand s) = vehicle s := by simp [closePeriod]

@[simp] theorem useSlot_vehicle (b : BillingSlot) (badTariffs : List Nat) (changes : Option (List Int)) (s : State) : vehicle (useSlot b badTariffs changes s) = vehicle s := by simp [useSlot]

@[simp] theorem restoreBilling_vehicle (fromSlot : Bool) (badTariffs : List Nat) (s : State) : vehicle (restoreBilling fromSlot badTariffs s) = vehicle s := by
  unfold restoreBilling
  repeat (any_goals (first | (simp; done) | split | (refine guarded_vehicle _ _ _ (fun _ => ?_)) | (refine foldl_vehicle _ (fun _ _ => ?_) _ _) | (refine elim_vehicle _ _ _ _ ?_ (fun _ => ?_)) | (rename_i h; have h2 := congrArg (fun x => vehicle (Prod.fst x)) h; simp at h2; simp [← h2]; done) | dsimp only))

@[simp] theorem logClock_vehicle (origin : Nat) (kind : Nat) (old : Nat) (new : Nat) (delta : Int) (s : State) : vehicle (logClock origin kind old new delta s) = vehicle s := by simp [logClock]

@[simp] theorem clockStep_vehicle (origin : Nat) (utc : Nat) (ms : Nat) (s : State) : vehicle (clockStep origin utc ms s).1 = vehicle s := by
  unfold clockStep; repeat' split
  all_goals simp

@[simp] theorem clockSlew_vehicle (origin : Nat) (delta : Int) (s : State) : vehicle (clockSlew origin delta s).1 = vehicle s := by
  unfold clockSlew; repeat' split
  all_goals simp

@[simp] theorem logCause_vehicle (s : State) : vehicle (logCause s) = vehicle s := by simp [logCause]

@[simp] theorem logConverter_vehicle (o : Outlet) (s : State) : vehicle (logConverter o s) = vehicle s := by simp [logConverter]

@[simp] theorem setTap_vehicle (f : TestPort → TestPort) (s : State) : vehicle (setTap f s) = vehicle s := by simp [setTap]

@[simp] theorem holdTap_vehicle (s : State) : vehicle (holdTap s) = vehicle s := by simp [holdTap]

@[simp] theorem clockTap_vehicle (tms : Bool) (s : State) : vehicle (clockTap tms s) = vehicle s := by simp [clockTap]

@[simp] theorem putKey_vehicle (cls : Nat) (k : Option (BitVec 256)) (s : State) : vehicle (putKey cls k s) = vehicle s := by simp [putKey]

@[simp] theorem drawNonces_vehicle (s : State) : vehicle (drawNonces s) = vehicle s := by simp [drawNonces]

@[simp] theorem writeKeys_vehicle (s : State) : vehicle (writeKeys s) = vehicle s := by simp [writeKeys]

@[simp] theorem eraseTail_vehicle (slotB : Bool) (s : State) : vehicle (eraseTail slotB s) = vehicle s := by simp [eraseTail]

@[simp] theorem loadBlob_vehicle (s : State) (b : Blob) : vehicle (loadBlob s b) = vehicle s := by
  unfold loadBlob; split <;> simp

@[simp] theorem loadBlobs_vehicle (s : State) : vehicle (loadBlobs s) = vehicle s := by
  unfold loadBlobs
  dsimp only
  split <;> simp

@[simp] theorem formStatement_vehicle (state : Nat) (signer : Nat) (by' : BitVec 256) (key : BitVec 256) (meas : BitVec 256) (s : State) : vehicle (formStatement state signer by' key meas s).1 = vehicle s := by simp [formStatement]

@[simp] theorem deriveMetrology_vehicle (s : State) : vehicle (deriveMetrology s) = vehicle s := by
  unfold deriveMetrology
  repeat (any_goals (first | (simp; done) | split | (refine guarded_vehicle _ _ _ (fun _ => ?_)) | (refine foldl_vehicle _ (fun _ _ => ?_) _ _) | (refine elim_vehicle _ _ _ _ ?_ (fun _ => ?_)) | (rename_i h; have h2 := congrArg (fun x => vehicle (Prod.fst x)) h; simp at h2; simp [← h2]; done) | dsimp only))

@[simp] theorem setOtp_vehicle (f : Otp → Otp) (s : State) : vehicle (setOtp f s) = vehicle s := by simp [setOtp]

@[simp] theorem logLifecycle_vehicle (origin : Nat) (old : Nat) (new : Nat) (path : Nat) (s : State) : vehicle (logLifecycle origin old new path s) = vehicle s := by simp [logLifecycle]

@[simp] theorem generateRoot_vehicle (rootOk : Bool) (s : State) : vehicle (generateRoot rootOk s) = vehicle s := by simp [generateRoot]

@[simp] theorem dropKeys_vehicle (s : State) : vehicle (dropKeys s) = vehicle s := by simp [dropKeys]

@[simp] theorem retire_vehicle (s : State) : vehicle (retire s) = vehicle s := by simp [retire]

@[simp] theorem measureImages_vehicle (s : State) : vehicle (measureImages s) = vehicle s := by simp [measureImages]

@[simp] theorem buildStore_vehicle (s : State) : vehicle (buildStore s) = vehicle s := by simp [buildStore]

@[simp] theorem migrateLegal_vehicle (s : State) : vehicle (migrateLegal s) = vehicle s := by
  unfold migrateLegal
  repeat (any_goals (first | (simp; done) | split | (refine guarded_vehicle _ _ _ (fun _ => ?_)) | (refine foldl_vehicle _ (fun _ _ => ?_) _ _) | (refine elim_vehicle _ _ _ _ ?_ (fun _ => ?_)) | (rename_i h; have h2 := congrArg (fun x => vehicle (Prod.fst x)) h; simp at h2; simp [← h2]; done) | dsimp only))

@[simp] theorem migrateApp_vehicle (s : State) : vehicle (migrateApp s) = vehicle s := by simp [migrateApp]

@[simp] theorem migrateKeys_vehicle (mask : Nat) (s : State) : vehicle (migrateKeys mask s) = vehicle s := by simp [migrateKeys]

@[simp] theorem keysConfirm_vehicle (mask : Nat) (s : State) : vehicle (keysConfirm mask s) = vehicle s := by simp [keysConfirm]

@[simp] theorem supersede_vehicle (s : State) : vehicle (supersede s) = vehicle s := by simp [supersede]

@[simp] theorem keysFallBack_vehicle (mask : Nat) (s : State) : vehicle (keysFallBack mask s) = vehicle s := by
  unfold keysFallBack
  repeat (any_goals (first | (simp; done) | split | (refine guarded_vehicle _ _ _ (fun _ => ?_)) | (refine foldl_vehicle _ (fun _ _ => ?_) _ _) | (refine elim_vehicle _ _ _ _ ?_ (fun _ => ?_)) | (rename_i h; have h2 := congrArg (fun x => vehicle (Prod.fst x)) h; simp at h2; simp [← h2]; done) | dsimp only))

@[simp] theorem abandonMigration_vehicle (s : State) : vehicle (abandonMigration s) = vehicle s := by simp [abandonMigration]

@[simp] theorem newMetrology_vehicle (s : State) : vehicle (newMetrology s).1 = vehicle s := by simp [newMetrology]

@[simp] theorem leaveField_vehicle (origin : Nat) (path : Nat) (target : Nat) (s : State) : vehicle (leaveField origin path target s) = vehicle s := by simp [leaveField]

@[simp] theorem enterField_vehicle (origin : Nat) (s : State) : vehicle (enterField origin s) = vehicle s := by simp [enterField]

@[simp] theorem enterRetired_vehicle (origin : Nat) (s : State) : vehicle (enterRetired origin s) = vehicle s := by simp [enterRetired]

@[simp] theorem changeLifecycle_vehicle (origin : Nat) (path : Nat) (target : Nat) (s : State) : vehicle (changeLifecycle origin path target s) = vehicle s := by simp [changeLifecycle]

@[simp] theorem serviceByTag_vehicle (s : State) : vehicle (serviceByTag s).1 = vehicle s := by
  unfold serviceByTag; repeat' split
  all_goals simp

@[simp] theorem programCounter_vehicle (n : Nat) (s : State) : vehicle (programCounter n s) = vehicle s := by simp [programCounter]

@[simp] theorem warnCounter_vehicle (s : State) : vehicle (warnCounter s) = vehicle s := by simp [warnCounter]

@[simp] theorem logKey_vehicle (origin : Nat) (cls : Nat) (op : Nat) (slot : Nat) (n : Nat) (key : Option (List Byte)) (s : State) : vehicle (logKey origin cls op slot n key s) = vehicle s := by simp [logKey]

@[simp] theorem slotOperation_vehicle (op : Nat) (slot : Nat) (key : BitVec 512) (s : State) : vehicle (slotOperation op slot key s) = vehicle s := by simp [slotOperation]

@[simp] theorem applyKeyMessage_vehicle (origin : Nat) (p : List Byte) (s : State) : vehicle (applyKeyMessage origin p s) = vehicle s := by simp [applyKeyMessage]

@[simp] theorem setTag_vehicle (f : Tag → Tag) (s : State) : vehicle (setTag f s) = vehicle s := by simp [setTag]

@[simp] theorem putBlock_vehicle (b : TagBlock) (s : State) : vehicle (putBlock b s) = vehicle s := by simp [putBlock]

@[simp] theorem wiredWrite_vehicle (k : Nat) (data : List Byte) (s : State) : vehicle (wiredWrite k data s) = vehicle s := by simp [wiredWrite]

@[simp] theorem logUnreadable_vehicle (k : Nat) (s : State) : vehicle (logUnreadable k s) = vehicle s := by simp [logUnreadable]

@[simp] theorem tagAnswer_vehicle (status : Nat) (data : List Byte) (s : State) : vehicle (tagAnswer status data s) = vehicle s := by simp [tagAnswer]

@[simp] theorem tagOpen_vehicle (s : State) : vehicle (tagOpen s) = vehicle s := by simp [tagOpen]

@[simp] theorem inField_vehicle (f : State → State) (s : State) (hf : ∀ t, vehicle (f t) = vehicle t) : vehicle (inField f s) = vehicle s := by simp [inField, hf]

@[simp] theorem wrongAttempt_vehicle (s : State) : vehicle (wrongAttempt s) = vehicle s := by simp [wrongAttempt]

@[simp] theorem enterSecured_vehicle (s : State) : vehicle (enterSecured s) = vehicle s := by simp [enterSecured]

@[simp] theorem mirrorEntry_vehicle (e : LogEntry) (s : State) : vehicle (mirrorEntry e s) = vehicle s := by simp [mirrorEntry]

@[simp] theorem storeConfirmation_vehicle (before : State) (after : State) : vehicle (storeConfirmation before after) = vehicle after := by simp [storeConfirmation]

@[simp] theorem logTariffs_vehicle (origin : Nat) (kind : Nat) (serial : Nat) (recs : List Rec) (s : State) : vehicle (logTariffs origin kind serial recs s) = vehicle s := by simp [logTariffs]

@[simp] theorem takeTable_vehicle (s : State) : vehicle (takeTable s) = vehicle s := by
  unfold takeTable; split <;> simp

@[simp] theorem applyTable_vehicle (origin : Nat) (b : List Byte) (s : State) : vehicle (applyTable origin b s).1 = vehicle s := by
  unfold applyTable
  repeat (any_goals (first | (simp; done) | split | (refine guarded_vehicle _ _ _ (fun _ => ?_)) | (refine foldl_vehicle _ (fun _ _ => ?_) _ _) | (refine elim_vehicle _ _ _ _ ?_ (fun _ => ?_)) | (rename_i h; have h2 := congrArg (fun x => vehicle (Prod.fst x)) h; simp at h2; simp [← h2]; done) | dsimp only))

@[simp] theorem setDemand_vehicle (f : DemandBlock → DemandBlock) (s : State) : vehicle (setDemand f s) = vehicle s := by simp [setDemand]

@[simp] theorem spoilDemand_vehicle (cause : Nat) (s : State) : vehicle (spoilDemand cause s) = vehicle s := by simp [spoilDemand]

@[simp] theorem startSub_vehicle (utc : Nat) (cause : Nat) (s : State) : vehicle (startSub utc cause s) = vehicle s := by simp [startSub]

@[simp] theorem creditDemand_vehicle (utc : Nat) (cause : Nat) (demand : Int) (s : State) : vehicle (creditDemand utc cause demand s) = vehicle s := by simp [creditDemand]

@[simp] theorem writeDemand_vehicle (s : State) : vehicle (writeDemand s) = vehicle s := by simp [writeDemand]

@[simp] theorem endSub_vehicle (utc : Nat) (cause : Nat) (nextCause : Nat) (s : State) : vehicle (endSub utc cause nextCause s) = vehicle s := by simp [endSub]

@[simp] theorem demandStep_vehicle (utc : Nat) (local' : Int) (s : State) : vehicle (demandStep utc local' s) = vehicle s := by
  unfold demandStep; split <;> simp

@[simp] theorem demandInvalid_vehicle (s : State) : vehicle (demandInvalid s) = vehicle s := by simp [demandInvalid]

@[simp] theorem periodStep_vehicle (utc : Nat) (s : State) : vehicle (periodStep utc s) = vehicle s := by
  unfold periodStep
  repeat (any_goals (first | (simp; done) | split | (refine guarded_vehicle _ _ _ (fun _ => ?_)) | (refine foldl_vehicle _ (fun _ _ => ?_) _ _) | (refine elim_vehicle _ _ _ _ ?_ (fun _ => ?_)) | (rename_i h; have h2 := congrArg (fun x => vehicle (Prod.fst x)) h; simp at h2; simp [← h2]; done) | dsimp only))

@[simp] theorem useEmergency_vehicle (o : Outlet) (a : Account) (s : State) : vehicle (useEmergency o a s) = vehicle s := by simp [useEmergency]

@[simp] theorem setOutletBill_vehicle (o : Outlet) (f : OutletBill → OutletBill) (s : State) : vehicle (setOutletBill o f s) = vehicle s := by simp [setOutletBill]

@[simp] theorem setOpenRec_vehicle (o : Outlet) (f : OpenRecord → OpenRecord) (s : State) : vehicle (setOpenRec o f s) = vehicle s := by simp [setOpenRec]

@[simp] theorem closeCut_vehicle (o : Outlet) (s : State) : vehicle (closeCut o s) = vehicle s := by simp [closeCut]

@[simp] theorem tariffStep_vehicle (s : State) : vehicle (tariffStep s) = vehicle s := by simp [tariffStep]

@[simp] theorem evaluate_vehicle (s : State) : vehicle (evaluate s) = vehicle s := by
  unfold evaluate; split <;> simp

@[simp] theorem logTamper_vehicle (e : TamperEvent) (overflow : Nat) (s : State) : vehicle (logTamper e overflow s) = vehicle s := by simp [logTamper]

@[simp] theorem drainTamper_vehicle (s : State) : vehicle (drainTamper s) = vehicle s := by
  unfold drainTamper
  repeat (any_goals (first | (simp; done) | split | (refine guarded_vehicle _ _ _ (fun _ => ?_)) | (refine foldl_vehicle _ (fun _ _ => ?_) _ _) | (refine elim_vehicle _ _ _ _ ?_ (fun _ => ?_)) | (rename_i h; have h2 := congrArg (fun x => vehicle (Prod.fst x)) h; simp at h2; simp [← h2]; done) | dsimp only))

@[simp] theorem logAccount_vehicle (origin : Nat) (index : Nat) (kind : Nat) (amount : Int) (s : State) : vehicle (logAccount origin index kind amount s) = vehicle s := by simp [logAccount]

@[simp] theorem loadAccount_vehicle (origin : Nat) (s : State) (e : List Byte) : vehicle (loadAccount origin s e) = vehicle s := by simp [loadAccount]

@[simp] theorem applyAccounts_vehicle (origin : Nat) (b : List Byte) (s : State) : vehicle (applyAccounts origin b s).1 = vehicle s := by
  unfold applyAccounts
  repeat (any_goals (first | (simp; done) | split | (refine guarded_vehicle _ _ _ (fun _ => ?_)) | (refine foldl_vehicle _ (fun _ _ => ?_) _ _) | (refine elim_vehicle _ _ _ _ ?_ (fun _ => ?_)) | (rename_i h; have h2 := congrArg (fun x => vehicle (Prod.fst x)) h; simp at h2; simp [← h2]; done) | dsimp only))

@[simp] theorem creditAccount_vehicle (origin : Nat) (a : Account) (amount : Int) (s : State) : vehicle (creditAccount origin a amount s) = vehicle s := by simp [creditAccount]

@[simp] theorem setClock_vehicle (r : Request) (s : State) : vehicle (setClock r s).1 = vehicle s := by
  unfold setClock
  repeat (any_goals (first | (simp; done) | split | (refine guarded_vehicle _ _ _ (fun _ => ?_)) | (refine foldl_vehicle _ (fun _ _ => ?_) _ _) | (refine elim_vehicle _ _ _ _ ?_ (fun _ => ?_)) | (rename_i h; have h2 := congrArg (fun x => vehicle (Prod.fst x)) h; simp at h2; simp [← h2]; done) | dsimp only))

@[simp] theorem setDisp_vehicle (f : Display → Display) (s : State) : vehicle (setDisp f s) = vehicle s := by simp [setDisp]

@[simp] theorem writeLane_vehicle (s : State) : vehicle (writeLane s) = vehicle s := by simp [writeLane]

@[simp] theorem loadStress_vehicle (s : State) : vehicle (loadStress s) = vehicle s := by
  unfold loadStress; split <;> simp

@[simp] theorem putStress_vehicle (c : Option StressCopy) (s : State) : vehicle (putStress c s) = vehicle s := by simp [putStress]

@[simp] theorem saveStress_vehicle (ok : Bool) (s : State) : vehicle (saveStress ok s) = vehicle s := by simp [saveStress]

@[simp] theorem displayStart_vehicle (s : State) : vehicle (displayStart s) = vehicle s := by simp [displayStart]

@[simp] theorem displayStop_vehicle (s : State) : vehicle (displayStop s) = vehicle s := by simp [displayStop]

@[simp] theorem vppFails_vehicle (v : Nat) (s : State) : vehicle (vppFails v s) = vehicle s := by simp [vppFails]

@[simp] theorem readVpp_vehicle (v : Nat) (s : State) : vehicle (readVpp v s) = vehicle s := by simp [readVpp]

@[simp] theorem takeLane_vehicle (s : State) : vehicle (takeLane s) = vehicle s := by simp [takeLane]

@[simp] theorem markWorn_vehicle (wears : Nat → Bool) (s : State) : vehicle (markWorn wears s) = vehicle s := by simp [markWorn]

@[simp] theorem stressFrame_vehicle (s : State) : vehicle (stressFrame s) = vehicle s := by simp [stressFrame]

@[simp] theorem takeRows_vehicle (s : State) : vehicle (takeRows s) = vehicle s := by simp [takeRows]

@[simp] theorem logWorn_vehicle (panel : Nat) (s : State) : vehicle (logWorn panel s) = vehicle s := by simp [logWorn]

@[simp] theorem recompute_vehicle (s : State) : vehicle (recompute s) = vehicle s := by simp [recompute]

@[simp] theorem writeRows_vehicle (p : List Byte) (s : State) : vehicle (writeRows p s) = vehicle s := by simp [writeRows]

@[simp] theorem applyStress_vehicle (origin : Nat) (b : List Byte) (s : State) : vehicle (applyStress origin b s).1 = vehicle s := by
  unfold applyStress
  repeat (any_goals (first | (simp; done) | split | (refine guarded_vehicle _ _ _ (fun _ => ?_)) | (refine foldl_vehicle _ (fun _ _ => ?_) _ _) | (refine elim_vehicle _ _ _ _ ?_ (fun _ => ?_)) | (rename_i h; have h2 := congrArg (fun x => vehicle (Prod.fst x)) h; simp at h2; simp [← h2]; done) | dsimp only))

@[simp] theorem partialCommit_vehicle (w : WindowInput) (last : Fin 256) (s : State) : vehicle (partialCommit w last s) = vehicle s := by
  unfold partialCommit
  repeat (any_goals (first | (simp; done) | split | (refine guarded_vehicle _ _ _ (fun _ => ?_)) | (refine foldl_vehicle _ (fun _ _ => ?_) _ _) | (refine elim_vehicle _ _ _ _ ?_ (fun _ => ?_)) | (rename_i h; have h2 := congrArg (fun x => vehicle (Prod.fst x)) h; simp at h2; simp [← h2]; done) | dsimp only))

@[simp] theorem logMode_vehicle (old : BitVec 16) (new : BitVec 16) (e : Int) (freq : Nat) (s : State) : vehicle (logMode old new e freq s) = vehicle s := by simp [logMode]

@[simp] theorem sundialBoundary_vehicle (m : CycleMeasure) (s : State) : vehicle (sundialBoundary m s) = vehicle s := by simp [sundialBoundary]

@[simp] theorem armDoorbell_vehicle (elem : Nat) (slot : Nat) (angle : Nat) (period : Nat) (s : State) : vehicle (armDoorbell elem slot angle period s) = vehicle s := by simp [armDoorbell]

@[simp] theorem setPower_vehicle (f : Power → Power) (s : State) : vehicle (setPower f s) = vehicle s := by simp [setPower]

@[simp] theorem saveSystem_vehicle (s : State) : vehicle (saveSystem s) = vehicle s := by simp [saveSystem]

@[simp] theorem sundialStart_vehicle (nominal : Nat) (s : State) : vehicle (sundialStart nominal s) = vehicle s := by simp [sundialStart]

@[simp] theorem ledgerStart_vehicle (s : State) : vehicle (ledgerStart s) = vehicle s := by simp [ledgerStart]

@[simp] theorem ledgerEnd_vehicle (value : Nat) (s : State) : vehicle (ledgerEnd value s) = vehicle s := by simp [ledgerEnd]

@[simp] theorem fallBackTrial_vehicle (origin : Nat) (cause : Nat) (s : State) : vehicle (fallBackTrial origin cause s) = vehicle s := by simp [fallBackTrial]

@[simp] theorem logPackage_vehicle (origin : Nat) (r : Nat) (status : Nat) (step : Nat) (h : List Byte) (s : State) : vehicle (logPackage origin r status step h s) = vehicle s := by simp [logPackage]

@[simp] theorem abortUpdate_vehicle (r : Nat) (s : State) : vehicle (abortUpdate r s) = vehicle s := by simp [abortUpdate]

@[simp] theorem openUpdate_vehicle (origin : Nat) (path : Nat) (id : Nat) (h : List Byte) (s : State) : vehicle (openUpdate origin path id h s) = vehicle s := by simp [openUpdate]

@[simp] theorem completeUpdate_vehicle (origin : Nat) (h : List Byte) (s : State) : vehicle (completeUpdate origin h s).1 = vehicle s := by simp [completeUpdate]

@[simp] theorem setDom_vehicle (f : Domains → Domains) (s : State) : vehicle (setDom f s) = vehicle s := by simp [setDom]

@[simp] theorem setHealth_vehicle (d : Nat) (w : BitVec 32) (s : State) : vehicle (setHealth d w s) = vehicle s := by simp [setHealth]

@[simp] theorem failHealth_vehicle (d : Nat) (bit : Nat) (s : State) : vehicle (failHealth d bit s) = vehicle s := by simp [failHealth]

@[simp] theorem logTakeover_vehicle (cause : Nat) (source : Nat) (target : Nat) (slot : Nat) (cycle : U32) (replayed : Nat) (gap : Nat) (s : State) : vehicle (logTakeover cause source target slot cycle replayed gap s) = vehicle s := by simp [logTakeover]

@[simp] theorem writeSeed_vehicle (flagBits : Nat) (clocks : Nat) (s : State) : vehicle (writeSeed flagBits clocks s) = vehicle s := by simp [writeSeed]

@[simp] theorem setRake_vehicle (f : Rake → Rake) (s : State) : vehicle (setRake f s) = vehicle s := by simp [setRake]

@[simp] theorem noteResults_vehicle (kind : Nat) (six : List Nat) (s : State) : vehicle (noteResults kind six s) = vehicle s := by simp [noteResults]

@[simp] theorem endRake_vehicle (s : State) : vehicle (endRake s) = vehicle s := by simp [endRake]

@[simp] theorem logRake_vehicle (duration : List Byte) (peak : List Byte) (s : State) : vehicle (logRake duration peak s) = vehicle s := by simp [logRake]

@[simp] theorem setReader_vehicle (p : Fin 2) (f : Reader → Reader) (s : State) : vehicle (setReader p f s) = vehicle s := by simp [setReader]

@[simp] theorem raiseField_vehicle (p : Fin 2) (s : State) : vehicle (raiseField p s) = vehicle s := by simp [raiseField]

@[simp] theorem lowerField_vehicle (p : Fin 2) (s : State) : vehicle (lowerField p s) = vehicle s := by simp [lowerField]

@[simp] theorem cardNotDelivered_vehicle (port : Fin 2) (cause : Nat) (std : Nat) (ident : List Byte) (s : State) : vehicle (cardNotDelivered port cause std ident s) = vehicle s := by simp [cardNotDelivered]

@[simp] theorem setWadi_vehicle (f : Wadi → Wadi) (s : State) : vehicle (setWadi f s) = vehicle s := by simp [setWadi]

@[simp] theorem sendWadi_vehicle (type : Nat) (dest : Nat) (mode : Nat) (resends : Nat) (body : List Byte) (s : State) : vehicle (sendWadi type dest mode resends body s) = vehicle s := by
  unfold sendWadi; split <;> simp

@[simp] theorem putNeighbour_vehicle (n : Neighbour) (s : State) : vehicle (putNeighbour n s) = vehicle s := by simp [putNeighbour]

@[simp] theorem logNodePresence_vehicle (node : Nat) (absent : Nat) (index : Nat) (s : State) : vehicle (logNodePresence node absent index s) = vehicle s := by simp [logNodePresence]

@[simp] theorem dropNode_vehicle (node : Nat) (s : State) : vehicle (dropNode node s) = vehicle s := by
  unfold dropNode; split <;> simp

@[simp] theorem setRole_vehicle (role : Nat) (s : State) : vehicle (setRole role s) = vehicle s := by simp [setRole]

@[simp] theorem wadiListen_vehicle (keepIndex : Bool) (s : State) : vehicle (wadiListen keepIndex s) = vehicle s := by simp [wadiListen]

@[simp] theorem assignIndex_vehicle (node : Nat) (s : State) : vehicle (assignIndex node s) = vehicle s := by simp [assignIndex]

@[simp] theorem chooseJoin_vehicle (s : State) : vehicle (chooseJoin s) = vehicle s := by simp [chooseJoin]

@[simp] theorem setTrellis_vehicle (f : Trellis → Trellis) (s : State) : vehicle (setTrellis f s) = vehicle s := by simp [setTrellis]

@[simp] theorem sendSync_vehicle (s : State) : vehicle (sendSync s) = vehicle s := by simp [sendSync]

@[simp] theorem logMastership_vehicle (old : Nat) (new : Nat) (cause : Nat) (s : State) : vehicle (logMastership old new cause s) = vehicle s := by simp [logMastership]

@[simp] theorem nameSpare_vehicle (s : State) : vehicle (nameSpare s) = vehicle s := by simp [nameSpare]

@[simp] theorem becomeMaster_vehicle (cause : Nat) (s : State) : vehicle (becomeMaster cause s) = vehicle s := by simp [becomeMaster]

@[simp] theorem followSync_vehicle (b : List Byte) (s : State) : vehicle (followSync b s) = vehicle s := by simp [followSync]

@[simp] theorem logMember_vehicle (slot : Nat) (absent : Nat) (s : State) : vehicle (logMember slot absent s) = vehicle s := by simp [logMember]

@[simp] theorem compareShadow_vehicle (slot : Nat) (watts : List Int) (s : State) : vehicle (compareShadow slot watts s) = vehicle s := by
  unfold compareShadow; split <;> simp

@[simp] theorem buttonAtStart_vehicle (s : State) : vehicle (buttonAtStart s) = vehicle s := by simp [buttonAtStart]

@[simp] theorem startEntry_vehicle (cause : Nat) (valid : Bool) (s : State) : vehicle (startEntry cause valid s) = vehicle s := by simp [startEntry]

@[simp] theorem enableTamper_vehicle (s : State) : vehicle (enableTamper s) = vehicle s := by simp [enableTamper]

@[simp] theorem imageTariffs_vehicle (last : Option Digest) (s : State) : vehicle (imageTariffs last s) = vehicle s := by simp [imageTariffs]

@[simp] theorem readImage_vehicle (s : State) : vehicle (readImage s) = vehicle s := by simp [readImage]

@[simp] theorem reloadMetrology_vehicle (s : State) : vehicle (reloadMetrology s) = vehicle s := by simp [reloadMetrology]

@[simp] theorem chooseDomain_vehicle (s : State) : vehicle (chooseDomain s) = vehicle s := by simp [chooseDomain]

@[simp] theorem recoveryNetwork_vehicle (s : State) : vehicle (recoveryNetwork s) = vehicle s := by simp [recoveryNetwork]

@[simp] theorem restoreAll_vehicle (i : StartInput) (s : State) : vehicle (restoreAll i s) = vehicle s := by simp [restoreAll]

@[simp] theorem bootSlots_vehicle (s : State) : vehicle (bootSlots s) = vehicle s := by simp [bootSlots]

@[simp] theorem logEarlierRun_vehicle (s : State) : vehicle (logEarlierRun s) = vehicle s := by simp [logEarlierRun]

@[simp] theorem failDomain_vehicle (d : Nat) (failed : Bool) (s : State) : vehicle (failDomain d failed s) = vehicle s := by simp [failDomain]

@[simp] theorem closeTransfers_vehicle (s : State) : vehicle (closeTransfers s) = vehicle s := by simp [closeTransfers]

@[simp] theorem freshHealth_vehicle (s : State) : vehicle (freshHealth s) = vehicle s := by simp [freshHealth]

@[simp] theorem logRestart_vehicle (cause : Nat) (result : Nat) (s : State) : vehicle (logRestart cause result s) = vehicle s := by simp [logRestart]

@[simp] theorem access_vehicle (a : Access) (addr : Nat) (s : State) : vehicle (access a addr s) = vehicle s := by simp [access]

@[simp] theorem markedAccess_vehicle (a : Access) (s : State) : vehicle (markedAccess a s) = vehicle s := by
  unfold markedAccess
  split <;> simp

@[simp] theorem putArray_vehicle (x : ArrayErrors) (s : State) : vehicle (putArray x s) = vehicle s := by simp [putArray]

@[simp] theorem correctBit_vehicle (array : Nat) (addr : Nat) (s : State) : vehicle (correctBit array addr s) = vehicle s := by simp [correctBit]

@[simp] theorem spoilSeed_vehicle (slot : Nat) (s : State) : vehicle (spoilSeed slot s) = vehicle s := by simp [spoilSeed]

@[simp] theorem spoilSieve_vehicle (addr : Nat) (s : State) : vehicle (spoilSieve addr s) = vehicle s := by simp [spoilSieve]

@[simp] theorem logDoubleBit_vehicle (array : Nat) (elem : Nat) (addr : Nat) (s : State) : vehicle (logDoubleBit array elem addr s) = vehicle s := by simp [logDoubleBit]

@[simp] theorem setSowing_vehicle (f : Sowing → Sowing) (s : State) : vehicle (setSowing f s) = vehicle s := by simp [setSowing]

@[simp] theorem turnOwner_vehicle (s : State) : vehicle (turnOwner s) = vehicle s := by simp [turnOwner]

@[simp] theorem bulkLost_vehicle (body : List Byte) (s : State) : vehicle (bulkLost body s) = vehicle s := by simp [bulkLost]

@[simp] theorem logSowing_vehicle (x : Sowing) (t : SowTarget) (s : State) : vehicle (logSowing x t s) = vehicle s := by simp [logSowing]

@[simp] theorem masterHears_vehicle (src : Nat) (dest : Nat) (body : List Byte) (s : State) : vehicle (masterHears src dest body s) = vehicle s := by
  unfold masterHears; split <;> simp

@[simp] theorem takeSowHeader_vehicle (id : Nat) (data : List Byte) (s : State) : vehicle (takeSowHeader id data s) = vehicle s := by simp [takeSowHeader]

@[simp] theorem takeSowData_vehicle (off : Nat) (data : List Byte) (x : Sowing) (s : State) : vehicle (takeSowData off data x s) = vehicle s := by simp [takeSowData]

@[simp] theorem takeSowPiece_vehicle (id : Nat) (off : Nat) (data : List Byte) (s : State) : vehicle (takeSowPiece id off data s) = vehicle s := by simp [takeSowPiece]

@[simp] theorem takeBulk_vehicle (body : List Byte) (s : State) : vehicle (takeBulk body s) = vehicle s := by
  unfold takeBulk; repeat' split
  all_goals simp

@[simp] theorem startSuperframe_vehicle (s : State) : vehicle (startSuperframe s) = vehicle s := by simp [startSuperframe]

@[simp] theorem sendAllocation_vehicle (s : State) : vehicle (sendAllocation s) = vehicle s := by
  unfold sendAllocation; repeat' split
  all_goals simp

@[simp] theorem writeNodeBeacon_vehicle (s : State) : vehicle (writeNodeBeacon s) = vehicle s := by simp [writeNodeBeacon]

@[simp] theorem sendNodeBeacon_vehicle (s : State) : vehicle (sendNodeBeacon s) = vehicle s := by simp [sendNodeBeacon]

@[simp] theorem sendAgain_vehicle (f : SentFrame) (s : State) : vehicle (sendAgain f s) = vehicle s := by simp [sendAgain]

theorem bulkFrame_vehicle (mode : Nat) (s : State) (d : Nat) (b : List Byte) (t : State) (h : bulkFrame mode s = some (d, b, t)) : vehicle t = vehicle s := by
  unfold bulkFrame at h
  cases hx : s.update.sowing with
  | none => simp [hx] at h
  | some x =>
    simp only [hx, Option.bind_some] at h
    repeat (any_goals (split at h))
    all_goals first
      | (simp at h; done)
      | (obtain ⟨-, -, rfl⟩ := h; simp)
      | (simp only [Option.some.injEq, Prod.mk.injEq] at h; obtain ⟨-, -, rfl⟩ := h; simp)

@[simp] theorem sendOwnWindow_vehicle (w : Nat) (s : State) : vehicle (sendOwnWindow w s) = vehicle s := by
  unfold sendOwnWindow
  repeat (any_goals split)
  all_goals first
    | (simp; done)
    | (rename_i h; simp [bulkFrame_vehicle _ _ _ _ _ h])

@[simp] theorem sendWindow_vehicle (position : Nat) (s : State) : vehicle (sendWindow position s) = vehicle s := by simp [sendWindow]

@[simp] theorem discardFrame_vehicle (blanked : Bool) (addressed : Bool) (source : Nat) (slot : Nat) (low : Nat) (s : State) : vehicle (discardFrame blanked addressed source slot low s) = vehicle s := by simp [discardFrame]

@[simp] theorem measurePhase_vehicle (node : Nat) (start : Nat) (s : State) : vehicle (measurePhase node start s) = vehicle s := by
  unfold measurePhase; split <;> simp

@[simp] theorem hearNode_vehicle (node : Nat) (slot : Nat) (mode : Nat) (snr : Int) (epoch : U16) (counter : U32) (s : State) : vehicle (hearNode node slot mode snr epoch counter s) = vehicle s := by simp [hearNode]

@[simp] theorem followTime_vehicle (body : List Byte) (s : State) : vehicle (followTime body s) = vehicle s := by simp [followTime]

@[simp] theorem followBeacon_vehicle (source : Nat) (slot : Nat) (snr : Int) (body : List Byte) (s : State) : vehicle (followBeacon source slot snr body s) = vehicle s := by simp [followBeacon]

@[simp] theorem takeBeacon_vehicle (source : Nat) (slot : Nat) (snr : Int) (body : List Byte) (s : State) : vehicle (takeBeacon source slot snr body s) = vehicle s := by simp [takeBeacon]

@[simp] theorem takeResend_vehicle (low : Nat) (s : State) : vehicle (takeResend low s) = vehicle s := by
  unfold takeResend; split <;> simp

@[simp] theorem takeNodeBeacon_vehicle (source : Nat) (body : List Byte) (s : State) : vehicle (takeNodeBeacon source body s) = vehicle s := by simp [takeNodeBeacon]

@[simp] theorem takePackageBlock_vehicle (origin : Nat) (h : List Byte) (t : Transfer) (off : Nat) (data : List Byte) (s : State) : vehicle (takePackageBlock origin h t off data s).1 = vehicle s := by
  unfold takePackageBlock
  repeat (any_goals (first | (simp; done) | split | (refine guarded_vehicle _ _ _ (fun _ => ?_)) | (refine foldl_vehicle _ (fun _ _ => ?_) _ _) | (refine elim_vehicle _ _ _ _ ?_ (fun _ => ?_)) | (rename_i h; have h2 := congrArg (fun x => vehicle (Prod.fst x)) h; simp at h2; simp [← h2]; done) | dsimp only))

@[simp] theorem beginPackage_vehicle (r : Request) (h : List Byte) (s : State) : vehicle (beginPackage r h s).1 = vehicle s := by
  unfold beginPackage
  repeat (any_goals (first | (simp; done) | split | (refine guarded_vehicle _ _ _ (fun _ => ?_)) | (refine foldl_vehicle _ (fun _ _ => ?_) _ _) | (refine elim_vehicle _ _ _ _ ?_ (fun _ => ?_)) | (rename_i h; have h2 := congrArg (fun x => vehicle (Prod.fst x)) h; simp at h2; simp [← h2]; done) | dsimp only))

@[simp] theorem openPackage_vehicle (r : Request) (s : State) : vehicle (openPackage r s).1 = vehicle s := by
  unfold openPackage
  repeat (any_goals (first | (simp; done) | split | (refine guarded_vehicle _ _ _ (fun _ => ?_)) | (refine foldl_vehicle _ (fun _ _ => ?_) _ _) | (refine elim_vehicle _ _ _ _ ?_ (fun _ => ?_)) | (rename_i h; have h2 := congrArg (fun x => vehicle (Prod.fst x)) h; simp at h2; simp [← h2]; done) | dsimp only))

@[simp] theorem continuePackage_vehicle (t : Transfer) (r : Request) (s : State) : vehicle (continuePackage t r s).1 = vehicle s := by
  unfold continuePackage
  repeat (any_goals (first | (simp; done) | split | (refine guarded_vehicle _ _ _ (fun _ => ?_)) | (refine foldl_vehicle _ (fun _ _ => ?_) _ _) | (refine elim_vehicle _ _ _ _ ?_ (fun _ => ?_)) | (rename_i h; have h2 := congrArg (fun x => vehicle (Prod.fst x)) h; simp at h2; simp [← h2]; done) | dsimp only))

@[simp] theorem startRake_vehicle (kind : Nat) (groups : List Nat) (w : WindowInput) (last : Fin 256) (s : State) : vehicle (startRake kind groups w last s) = vehicle s := by simp [startRake]

@[simp] theorem endGroup_vehicle (result : Nat) (s : State) : vehicle (endGroup result s) = vehicle s := by
  unfold endGroup; split <;> simp

@[simp] theorem runIfAsked_vehicle (w : WindowInput) (last : Fin 256) (s : State) : vehicle (runIfAsked w last s) = vehicle s := by simp [runIfAsked]

@[simp] theorem logPower_vehicle (old : PowerState) (new : PowerState) (s : State) : vehicle (logPower old new s) = vehicle s := by simp [logPower]

@[simp] theorem supplyLost_vehicle (v24 : Nat) (s : State) : vehicle (supplyLost v24 s) = vehicle s := by simp [supplyLost]

@[simp] theorem loseEntries_vehicle (s : State) : vehicle (loseEntries s) = vehicle s := by simp [loseEntries]

@[simp] theorem logButton_vehicle (held : Nat) (action : Nat) (s : State) : vehicle (logButton held action s) = vehicle s := by simp [logButton]

@[simp] theorem logSupply_vehicle (g : Nat) (release : Bool) (lowest : Nat) (s : State) : vehicle (logSupply g release lowest s) = vehicle s := by simp [logSupply]

@[simp] theorem drawMany_vehicle (n : Nat) (s : State) : vehicle (drawMany n s) = vehicle s := by simp [drawMany]

end Sys2Proof.Machine
end

