-- ==== Sys2Proof/WellFormed.lean ====
section
/-! DEFINITION. Which commands are well formed: operands that name a field of the manual keep to the field's width,
and frames have their length. A value that a field can hold and a rule refuses is well formed: refusing it is the
command's meaning. -/

namespace Sys2Proof

/-- A request's header fields keep to their widths (R49). -/
def Request.wf (r : Request) : Bool :=
  decide (r.src < 2 ^ 32) && decide (r.cls < 256) && decide (r.reserved < 65536) && decide (r.payload.length ≤ 65535) &&
    decide (r.load ≤ 1000)

/-- A start has one result code per group (R462). -/
def StartInput.wf (i : StartInput) : Bool := decide (i.groups.length = 6)

/-- A code kept to 24 bits (R76). -/
def metLimit (x : Int) : Int := max (-8388608) (min 8388607 x)

/-- A feed is at most a window of the longest filter (R76). -/
def Feed.wf : Feed → Bool
  | .codes l => decide (l.length ≤ 65536)
  | .bits l => decide (l.length ≤ 1048576)

/-- An access takes in one 32-bit or 64-bit word at its alignment, or a write of less than 64 bits (R14, R16). -/
def Access.wf : Access → Bool
  | .read _ => true
  | .write bs => decide (1 ≤ bs.length) && decide (bs.length ≤ 8)
  | .fetchAdd w v => decide (v < 2 ^ (if w then 64 else 32))
  | .swap w v => decide (v < 2 ^ (if w then 64 else 32))
  | .compareSwap w e v => decide (e < 2 ^ (if w then 64 else 32)) && decide (v < 2 ^ (if w then 64 else 32))

/-- A frame is heard on one to three inputs, each with the payload of R390 at most. -/
def WadiRx.wf (f : WadiRx) : Bool :=
  decide (1 ≤ f.inputs.length) && decide (f.inputs.length ≤ 3) && f.inputs.all (fun h => decide (h.payload.length ≤ 692))

/-- The command is well formed. -/
def Instr.wf : Instr → Bool
  | .identity r => r.wf
  | .keepalive r => r.wf
  | .configurationReport r => r.wf
  | .generalLogRead r => r.wf
  | .legalLogRead r => r.wf
  | .bulkTransferStatus r => r.wf
  | .legalLogArchive r => r.wf
  | .hostPacketUndefined _ src _ bytes load _ => decide (src < 2 ^ 32) && decide (bytes.length ≤ 1440) && decide (load ≤ 1000)
  | .bulkTransferTimeout id => decide (id < 2 ^ 32)
  | .keepalivePeriod => true
  | .hostAbsenceTimeout => true
  | .sundialStatus r => r.wf
  | .dialCycleBoundary m =>
    decide (0 < m.tc) && [m.gv1, m.gv2, m.gv3].all (fun l => decide (l.length ≤ 4096) && l.all (fun x => x == metLimit x))
  | .gridCoherentSample _ _ streams => streams.all (fun x => x.metrology.wf && x.protect.wf)
  | .stuckDetected _ _ => true
  | .retentionScrub corrected => corrected.all (fun a => decide (a < 4096))
  | .scrubAccess array addr _ => decide (array ≤ 14) && decide (addr < 2 ^ 32)
  | .doubleBitError array elem addr a i =>
      decide (array ≤ 14) && decide (elem < 14) && decide (addr < 2 ^ 32) && a.wf && i.wf
  | .permissionViolation _ a addr => a.wf && decide (addr < 2 ^ 32)
  | .energyCommit w => w.badRegs.all (fun x => decide (x < 53))
  | .coolantTemperatureTimeout _ => true
  | .pulseEmit _ => true
  | .pulseEnd _ => true
  | .snapshotPeriod => true
  | .channelMeasure r => r.wf
  | .channelMeasureComplete => true
  | .trialCalibration r => r.wf
  | .acquisitionStatus r => r.wf
  | .registerRead r => r.wf
  | .signedRegisterSnapshot r => r.wf
  | .instantaneousValues r => r.wf
  | .pulseStatus r => r.wf
  | .registerRestore r => r.wf
  | .holdEntry _ => true
  | .partialCommit w _ => w.badRegs.all (fun x => decide (x < 53))
  | .holdReturn _ => true
  | .holdupEnd _ => true
  | .vbatLoss _ => true
  | .powerOnReset _ _ _ _ _ => true
  | .brownOut _ => true
  | .pllLockWaitExpiry => true
  | .holdupCharged i => i.wf
  | .bootTimeout i => i.wf
  | .warmReset _ i => i.wf
  | .engineReset _ => true
  | .recoveryEntry _ => true
  | .recoveryTimeout i => i.wf
  | .idleEntry => true
  | .idleExit => true
  | .resetButtonPress => true
  | .resetButtonRelease _ => true
  | .resetButtonStuck => true
  | .powerStatus r => r.wf
  | .reset r => r.wf
  | .shutdown r => r.wf
  | .shutdownSequence w _ k => w.badRegs.all (fun x => decide (x < 53)) && decide (k.groups.length = 6)
  | .doorbell _ _ => true
  | .utcSecond => true
  | .crystalTrim _ => true
  | .clockSlewComplete => true
  | .pilotStateRecognised _ _ _ => true
  | .pilotInvalid _ => true
  | .proximityClassified _ _ => true
  | .generatorCommand _ g => match g with
    | .duty d => decide (d ≤ 1000)
    | .static12 => true
    | .zero => true
    | .stateF => true
  | .cmSlacParamReq _ _ => true
  | .cmStartAttenCharInd _ _ => true
  | .cmMnbcSoundInd _ _ att => decide (att.length = 58)
  | .cmAttenCharInd _ => true
  | .cmAttenCharRsp _ _ => true
  | .cmValidateReq _ _ => true
  | .cmSlacMatchReq _ _ => true
  | .vehicleJoined _ => true
  | .matchingTimeout _ => true
  | .slacRetryStateFEnd _ => true
  | .t1sFirstFrame _ _ => true
  | .sdpRequest _ security => decide (security < 256)
  | .tcpConnect _ => true
  | .tcpClose _ => true
  | .v2gtpInvalid _ => true
  | .tlsHandshake _ _ => true
  | .supportedAppProtocol _ _ => true
  | .sessionSetup _ evccid => decide (evccid.length ≤ 20)
  | .serviceDiscovery _ => true
  | .serviceDetail _ _ => true
  | .paymentServiceSelection _ _ _ _ => true
  | .paymentDetails _ _ => true
  | .authorizationSetup _ => true
  | .authorization _ _ => true
  | .chargeParameterDiscovery _ _ => true
  | .scheduleExchange _ _ => true
  | .cableCheck _ => true
  | .cableCheckFinished _ => true
  | .preCharge _ _ => true
  | .powerDelivery _ _ => true
  | .currentDemand _ _ _ _ => true
  | .chargingStatus _ => true
  | .weldingDetection _ => true
  | .meteringReceipt _ => true
  | .certificateInstallation _ => true
  | .certificateUpdate _ => true
  | .sessionStop _ => true
  | .unsupportedMessage _ => true
  | .domainAnswer _ _ => true
  | .v2gSeccSequenceTimeout _ => true
  | .communicationsetupTimeout _ => true
  | .readytochargeTimeout _ => true
  | .cpstateDetectionTimeout _ => true
  | .tcpConnectionWaitTimeout _ => true
  | .responseTimeout _ _ => true
  | .standingReplyWrite _ f => decide (f.flags < 65536)
  | .standingReplyExpiry _ => true
  | .cardWaitExpiry _ => true
  | .hostAnswerTimeout _ => true
  | .heldCredentialExpiry => true
  | .preAuthorisationExpiry _ => true
  | .authorisationAnswer r => r.wf
  | .remoteAuthorise r => r.wf
  | .stopSession r => r.wf
  | .sieveLoad r => r.wf
  | .sieveStatus r => r.wf
  | .sessionStatus r => r.wf
  | .outletAvailability r => r.wf
  | .powerTarget r => r.wf
  | .rampDownStep _ => true
  | .openThresholdReached _ => true
  | .rampDownTimeout _ => true
  | .cableCheckTimeout _ => true
  | .prechargeTimeout _ => true
  | .weldCheckTimeEnd _ => true
  | .converterStatusFrame f => decide (f.data.length ≤ 64)
  | .converterLimitsFrame f => decide (f.data.length ≤ 64)
  | .converterLost _ => true
  | .sequenceEchoLag _ _ => true
  | .heartbeat => true
  | .setpointRepeat _ => true
  | .setpointSend _ _ => true
  | .tripFrame _ => true
  | .powerAllocation => true
  | .acReductionExpiry _ _ => true
  | .allocationMissing => true
  | .siteBudgetTimeout => true
  | .estopOpen _ => true
  | .estopClosed => true
  | .testPulse _ _ _ => true
  | .estopDiscrepancy => true
  | .overcurrentTrip _ x => x.samples.wf
  | .contactorDelayEnd _ => true
  | .residualCurrentCheck _ x y => x.wf && y.wf
  | .insulationPolarityChange _ _ => true
  | .insulationSelfTimed _ _ => true
  | .insulationNoValue _ => true
  | .pilotLoss _ => true
  | .pilotBTimeout _ => true
  | .weldCheckStart _ => true
  | .weldDetected _ _ _ => true
  | .hedgeFault => true
  | .tripResetAutomatic _ => true
  | .safeFrameCyclic => true
  | .safeFrameTripSend => true
  | .safeFrameReceive _ bytes => decide (bytes.length = 32)
  | .safeFrameCopyMissing _ => true
  | .safeFramePairTimeout _ => true
  | .safeFrameSequenceClear _ => true
  | .safeFrameFaultClear => true
  | .groupTripClear => true
  | .safetyStatus r => r.wf
  | .confirmCheckValue r => r.wf
  | .confirmationLockExpiry => true
  | .tripReset r => r.wf
  | .weldClear r => r.wf
  | .parameterBlockLoad _ => true
  | .scarecrowCheck _ _ => true
  | .scarecrowRampWithdraw _ => true
  | .scarecrowPermitTimeout _ => true
  | .channelCommandWrite _ _ => true
  | .channelShort _ _ => true
  | .channelOvercurrent _ _ => true
  | .inrushWindowEnd _ => true
  | .channelThermal _ _ _ => true
  | .thermalRestart _ _ _ => true
  | .openLoadSet _ _ => true
  | .openLoadClear _ _ => true
  | .groupMeanCheck _ _ _ _ => true
  | .undervoltageRelease _ _ => true
  | .undervoltageReturn _ _ => true
  | .switchStatus r => r.wf
  | .switchCommand r => r.wf
  | .currentCapture r => r.wf
  | .currentCaptureComplete samples => decide (samples.length ≤ 640)
  | .tariffEvaluation => true
  | .accountStoreWrite => true
  | .tamperSample _ => true
  | .billingStatus r => r.wf
  | .clockSet r => r.wf
  | .sessionRecordRead r => r.wf
  | .billingPeriodRead r => r.wf
  | .billingPeriodClose r => r.wf
  | .tariffRegisters r => r.wf
  | .tariffLoad r => r.wf
  | .accountLoad r => r.wf
  | .accountCredit r => r.wf
  | .accountRead r => r.wf
  | .tamperRead r => r.wf
  | .vppInRange _ => true
  | .vppStartTimeout _ => true
  | .vppFault _ => true
  | .vppFaultRestart => true
  | .displayFrame => true
  | .dwellStep => true
  | .gainRecompute => true
  | .stressSave _ => true
  | .displayStatus r => r.wf
  | .applicationRows r => r.wf
  | .stressRead r => r.wf
  | .stressRestore r => r.wf
  | .displayTest r => r.wf
  | .displayTestEnd => true
  | .trngTestFail _ => true
  | .trngRetest _ => true
  | .cisRequest _ _ => true
  | .cisternStatus r => r.wf
  | .publicKeyRead r => r.wf
  | .keyUpdate r key sig => (r.append (key ++ sig)).wf
  | .tlsKeyGenerate r => r.wf
  | .lifeCycleChange r sig => (r.append sig).wf
  | .attest r => r.wf
  | .miscompare i => i.wf
  | .watchdogExpiry i => i.wf
  | .seedWrite _ => true
  | .handback => true
  | .standbySweep _ => true
  | .domainTestComplete _ _ => true
  | .takeoverStatus r => r.wf
  | .domainSwitch r => r.wf
  | .stackStatus r => r.wf
  | .mastershipTransfer r => r.wf
  | .trellisFrameStart _ => true
  | .syncReceived bytes => decide (bytes.length = 64)
  | .slotFrameReceived _ bytes => decide (bytes.length = 144)
  | .slotAbsent _ => true
  | .spareTakeover => true
  | .memberSilence => true
  | .listenTimeExpiry => true
  | .syncReadbackMismatch => true
  | .trellisPairFailed _ _ _ => true
  | .wadiFrameStart _ => true
  | .wadiFrameReceived inputs angle => (WadiRx.mk inputs angle).wf
  | .wadiAllocation => true
  | .nodeAbsent node => decide (1 ≤ node) && decide (node ≤ 65534)
  | .masterLost => true
  | .masterCandidateStart => true
  | .joinTimeout => true
  | .indexFree _ => true
  | .wadiStatus r => r.wf
  | .neighbourTable r => r.wf
  | .transmitTest r => r.wf
  | .updateWrite r data => (r.append data).wf
  | .updateStatus r => r.wf
  | .activate r i => r.wf && i.wf
  | .activationWhenIdle i => i.wf
  | .idleWaitExpiry => true
  | .engineSafePoint _ => true
  | .confirm r => r.wf
  | .reject r i => r.wf && i.wf
  | .trialLimitExpiry i => i.wf
  | .sow r => r.wf
  | .ownerLock r => r.wf
  | .recoveryExit r i => r.wf && i.wf
  | .sowingStatus r => r.wf
  | .antennaSense _ _ => true
  | .guardTimeEnd _ _ _ _ => true
  | .repoll _ _ _ _ => true
  | .cardRemoval _ => true
  | .pairingWaitExpiry _ => true
  | .tagFieldOn => true
  | .tagFieldOff => true
  | .tagCommandRead first count => decide (first < 256) && decide (count < 256)
  | .tagCommandWrite block data _ => decide (block < 256) && decide (data.length = 32)
  | .password _ => true
  | .challenge => true
  | .respond slot _ _ _ => decide (slot < 256)
  | .leave => true
  | .tagState => true
  | .tagRequest _ => true
  | .tagStatusUpdate => true
  | .tagLogMirror => true
  | .wiredWriteRetryExpiry _ _ => true
  | .contactlessStatus r => r.wf
  | .tagRead r => r.wf
  | .tagWrite r _ => r.wf
  | .tagSecurity r => r.wf
  | .maintenanceWindow w _ => w.badRegs.all (fun x => decide (x < 53))
  | .maintenanceWindowEnd => true
  | .rakeGroupComplete result => decide (result ≤ 4)
  | .rakePowerLimit => true
  | .rakeConditionTimeout => true
  | .rakeRestart _ _ => true
  | .rakeStatus r => r.wf
  | .rakeRun r w _ => r.wf && w.badRegs.all (fun x => decide (x < 53))
  | .linkStatus r => r.wf
  | .linkCounters r => r.wf
  | .pilotTest r => r.wf
  | .pilotTestEnd _ => true
  | .transmitTestEnd => true
  | .orderlyResetTimeout i => i.wf
  | .holdupChargeTimeout _ => true
  | .vbatLow _ => true
  | .neighbourDiscovery _ _ => true

end Sys2Proof
end

