-- ==== Sys2Proof/Tests/Slice0.lean ====
section
/-! SUPPORT. The model's own tests: what the well-formedness checks refuse, and for each statement with hypotheses states and
operands that meet them. Every value in a test comes from the manual's layouts; none of them is a result of the model. -/

set_option linter.unusedVariables false

namespace Sys2Proof.Tests

set_option Elab.async false

open Sys2Proof Sys2Proof.Machine

/-! ### Small states and operands -/

/-- A module that runs under the default configuration, in life-cycle state 3, with a host key. -/
def on : State :=
  { State.reset with
    power.phase := .running, power.charged := true, power.vbat := 300, power.straps := 0, acq.mclkOn := true, cfg.slot := 0
    cis.hostKey := some 1, cis.lifecycle := 3 }

/-- Bytes with fields written into them. -/
def patch (b : List Byte) (l : List (Nat × List Byte)) : List Byte :=
  l.foldl (fun b x => b.take x.1 ++ x.2 ++ b.drop (x.1 + x.2.length)) b

/-- A record of the configuration. -/
def rec (type key : Nat) (body : List Byte) : Rec := ⟨type, key, 0, 0, 0, true, true, body⟩

def oldLegal : LegalEntry := ⟨⟨0, none, .zero, 0, 0, 0, []⟩, 0⟩

/-- A request on E0 with the first sequence of its origin. -/
def req (cls : Nat) (payload : List Byte) : Request := ⟨.e0, 1, cls, 1, 0, 0, 0, payload, 0, 0, 0⟩

/-- What a start finds when nothing is wrong. -/
def start : StartInput :=
  { groups := [0, 0, 0, 0, 0, 0], coreA := true, coreB := true, romOk := true, hedgeOk := true, blockOk := true
    imagesOk := true, otpErrors := [], rootOk := true, badRegs := [], badTariffs := [], duration := 0, peak := 0 }

/-- Bytes and their CRC-32C. -/
def withCheck (b : List Byte) : List Byte := b ++ wordBytes 4 (crc32c b)

/-- A host packet without payload (R49). -/
def frame (code : Nat) : List Byte := withCheck ([0x47, 0x53, 1, 1] ++ leBytes 2 code ++ leBytes 4 1 ++ zeros 22)

/-- A safe frame (R225). -/
def safeBytes (src kind seq : Nat) : List Byte :=
  let b := leBytes 2 src ++ leBytes 2 kind ++ leBytes 4 seq ++ zeros 20
  b ++ wordBytes 4 (safeCrc b)

/-- A safe frame of stack slot 1 that carries a group trip request (R225, R228). -/
def groupTripBytes : List Byte :=
  let b := leBytes 2 81 ++ leBytes 2 2 ++ leBytes 4 1 ++ [2] ++ zeros 19
  b ++ wordBytes 4 (safeCrc b)

/-- The payload of a write block (R54). -/
def blockOf (id off total : Nat) (data : List Byte) : List Byte :=
  leBytes 4 id ++ leBytes 4 off ++ leBytes 4 total ++ leBytes 2 data.length ++ zeros 2 ++ data

/-- Nothing appended leaves a request as it is. -/
theorem append_nil (r : Request) : r = r.append [] := by simp [Request.append]

/-- A neighbour that is present. -/
def neighbour (n : Nat) : Neighbour :=
  { node := n, index := 0, q := 0, runQ := 0, runLen := 0, counter := 0, heard := 0, snr := 0, mode := 0, present := true
    master := false, stack := false, slot := 0, weight := 0, beaconSnr := 0, demand := 0, dcDemand := 0, acDemand := [], priority := 0
    budget := 0, caps := [], renewed := 0 }

/-- A package header of region BOOT that passes the checks of R421 besides its signature. -/
def package : List Byte :=
  patch (zeros 256) [(0, leBytes 4 0x50554753), (4, leBytes 2 1), (6, leBytes 2 256), (20, leBytes 4 1), (24, leBytes 4 1),
    (28, leBytes 4 1), (32, leBytes 2 1)]

/-- The module in a stack of two with a stack key. -/
def stacked : State :=
  { on with cis.trellis := some 1, cfg.recs := [rec 0x0C02 0 (leBytes 2 5 ++ leBytes 2 3 ++ leBytes 2 3)] }

/-- A sync of the stack with its MAC (R369). -/
def signedSync (s : State) (term : Nat) : List Byte :=
  let b := leBytes 2 5 ++ [2] ++ zeros 13 ++ leBytes 2 term ++ zeros 26
  withCheck (b ++ trellisMac s b)

/-- A slot frame of stack slot 1 with its MAC (R370). -/
def signedSlot (s : State) : List Byte :=
  let b := leBytes 2 81 ++ [1] ++ zeros 121
  withCheck (b ++ trellisMac s (b.take 8 ++ slice b 40 84))

/-- A Wadi frame without a body, with its tag (R393). -/
def wadiFrame (src : Nat) : WadiRx :=
  let h := zeros 2 ++ leBytes 2 src ++ zeros 16
  ⟨[⟨0, frameControl 0 6, [], [], h ++ wordBytes 8 (Config.gcmTag 1 (wadiNonce src 0 0 0) h)⟩], 0⟩

/-- A frame whose one sample stands far above what the blanker has seen before (R393). -/
def blankedFrame : WadiRx := ⟨[⟨0, frameControl 0 6, List.replicate 64 1, [1000], []⟩], 0⟩

/-- A frame on input WAD1 with the given frame control and payload. -/
def heardOf (control : BitVec 24) (payload : List Byte) : WadiRx := ⟨[⟨0, control, [], [], payload⟩], 0⟩

/-- A master that sows, and a request to sow to one node. -/
def sowingOn : State :=
  { on with
    wadi.role := 4, update.boot.slotA.header := some []
    update.sowing := some ⟨1, 0, 0, 0, true, true, [], [], [], 0, [], 0, 0, 0, false, 0, 0⟩ }
def sowOne : List Byte := zeros 4 ++ leBytes 2 1 ++ zeros 2 ++ leBytes 2 1

/-- A start with a pass signature in retention (R464) and the RECOVER strap. -/
def signedStart : State :=
  { on with
    power.phase := .charging, power.recover := true, sun.utcValid := true, rake.magic := true
    rake.signature := some ⟨0, 0, 0, 2, Config.patternSet.toNat, List.replicate 8 0⟩ }

/-- A request with the HMAC that its host forms. -/
def sign (code : Nat) (r : Request) (s : State) : Request := { r with mac := hostMac s (requestBytes code r) }

/-- What `Admitted` asks of a request besides its HMAC. -/
def ready (op : OpSpec) (r : Request) (s : State) : Bool :=
  portOpen s r.port && permitted s r.port r.src && (hostKeyOf s).isSome && later r.seq (originOf s r.port).lastSeq &&
    admitStatus op r == St.ok && !conditionRefuses s op.code

theorem macGood_sign {s : State} {code : Nat} {r : Request} (h : (hostKeyOf s).isSome = true) :
    macGood s code (sign code r s) = true := by
  have e : (sign code r s).mac = hostMac s (requestBytes code (sign code r s)) := rfl
  simp [macGood, e, h]

theorem ready_admitted {op : OpSpec} {r : Request} {s : State} (h : ready op r s = true) : Admitted op (sign op.code r s) s := by
  simp only [ready, Bool.and_eq_true, beq_iff_eq, Bool.not_eq_true'] at h
  obtain ⟨⟨⟨⟨⟨h1, h2⟩, h3⟩, h4⟩, h5⟩, h6⟩ := h
  refine ⟨h1, h2, macGood_sign h3, .inr ?_, h5, h6⟩
  show (if later r.seq (originOf s r.port).lastSeq then SeqClass.fresh else _) = _
  rw [if_pos h4]

theorem checkIsGood_withCheck (b : List Byte) : checkIsGood (withCheck b) = true := by
  have hl (v : BitVec 32) : (wordBytes 4 v).length = 4 := rfl
  have h2 : (withCheck b).length - 4 = b.length := by simp [withCheck, hl]
  have h1 : 4 ≤ (withCheck b).length := by simp [withCheck, hl]
  simp only [checkIsGood, h2, Bool.and_eq_true, decide_eq_true_eq, h1, true_and]
  simp [withCheck]

theorem blockFits_of {m : Nat} {p : List Byte}
    (h : fieldN p 0 4 ≠ 0 ∧ fieldN p 4 4 % 8 = 0 ∧ fieldN p 8 4 ≠ 0 ∧ fieldN p 8 4 ≤ m ∧ fieldN p 12 2 ≠ 0 ∧ fieldN p 12 2 ≤ 1384 ∧
      fieldN p 4 4 + fieldN p 12 2 ≤ fieldN p 8 4 ∧ (fieldN p 12 2 % 8 = 0 ∨ fieldN p 4 4 + fieldN p 12 2 = fieldN p 8 4) ∧
      p.length = 16 + fieldN p 12 2 ∧ fieldN p 14 2 = 0) : BlockFits m p := h

theorem macIsGood_self (s : State) (b : List Byte) (h : s.cis.trellis.isSome = true) : macIsGood s b (trellisMac s b) = true := by
  simp [macIsGood, h]

theorem signedStart_usable : signatureUsable signedStart = true := by
  simp [signatureUsable, signedStart, on, State.reset, Otp.init, Sundial.init]

theorem trellisMac_length (s : State) (b : List Byte) : (trellisMac s b).length = 16 := by
  unfold trellisMac; split <;> rfl

theorem take_withCheck (b m : List Byte) (n : Nat) (h : b.length = n) : (withCheck (b ++ m)).take n = b := by
  subst h; simp [withCheck]

theorem slice_withCheck (b m : List Byte) (n k : Nat) (h : b.length = n) (hm : m.length = k) : slice (withCheck (b ++ m)) n k = m := by
  subst h hm; simp [withCheck, slice]

/-- The MAC of a sync that the master signed is good. -/
theorem sync_mac (s : State) (term : Nat) (h : s.cis.trellis.isSome = true) :
    macIsGood s ((signedSync s term).take 44) (slice (signedSync s term) 44 16) = true := by
  unfold signedSync
  rw [take_withCheck _ _ 44 rfl, slice_withCheck _ _ 44 16 rfl (trellisMac_length _ _)]
  exact macIsGood_self _ _ h

/-- The MAC of a slot frame that its sender signed is good. -/
theorem slot_mac (s : State) (h : s.cis.trellis.isSome = true) :
    macIsGood s ((signedSlot s).take 8 ++ slice (signedSlot s) 40 84) (slice (signedSlot s) 124 16) = true := by
  have e : (signedSlot s).take 8 ++ slice (signedSlot s) 40 84 =
      ((signedSlot s).take 124).take 8 ++ slice ((signedSlot s).take 124) 40 84 := by
    simp [slice, List.take_take, List.drop_take]
  rw [e]
  unfold signedSlot
  rw [take_withCheck _ _ 124 rfl, slice_withCheck _ _ 124 16 rfl (trellisMac_length _ _)]
  exact macIsGood_self _ _ h

theorem demandGood_seal (d : DemandBlock) : demandGood (sealDemand d) = true := by
  simp [demandGood, sealDemand, demandBody]

/-! ### The hypotheses of every statement can be met -/

theorem test_hypotheses_StepRunsCommand :
    ∃ (c : Instr) (rest : List Instr) (s : State), s.pending = c :: rest :=
  ⟨.safeFrameCyclic, [], { on with pending := [.safeFrameCyclic] }, by decide +kernel⟩

theorem test_hypotheses_IdleStepIsOneMillisecond :
    ∃ (s : State), s.pending = [] :=
  ⟨{ on with pending := [] }, by decide +kernel⟩

theorem test_hypotheses_OtpIsOneWay :
    ∃ (k : Otp) (s t : State), OtpKeeps k s.otp ∧ step s = .next t :=
  ⟨Otp.init, { on with pending := [.safeFrameCyclic] }, _, ⟨id, id, id, id, fun _ => id, fun _ => id, Nat.le_refl _, Nat.le_refl
  _, Nat.le_refl _, fun _ => Nat.le_refl _⟩, rfl⟩

theorem test_hypotheses_HostLinkStaysBounded :
    ∃ s t : State, HostBounded s ∧ step s = .next t :=
  ⟨{ on with pending := [.safeFrameCyclic] }, _, ⟨by decide, by decide, by decide, by decide⟩, rfl⟩

theorem test_hypotheses_CommandFrames :
    (∃ (c : Instr) (s t : State), vehicleSide c = true ∧ exec c s = .next t) ∧
    (∃ (c : Instr) (s t : State), otherSide c = true ∧ exec c s = .next t) :=
  ⟨⟨.safeFrameCyclic, on, _, rfl, rfl⟩,
   ⟨.keepalivePeriod, on, _, rfl, rfl⟩⟩

theorem test_hypotheses_RequestNotExecuted :
    (∃ (code : Nat) (r : Request) (s : State), portOpen s r.port = true ∧ permitted s r.port r.src = true ∧ macGood s code r =
     false ∧ (originOf s r.port).authTimes = []) ∧
    (∃ (r : Request) (s : State), (portOpen s r.port = false ∨ permitted s r.port r.src = false)) ∧
    (∃ (code : Nat) (r : Request) (s : State), portOpen s r.port = true ∧ permitted s r.port r.src = true ∧ macGood s code r =
     true ∧ code ≠ 0x0101 ∧ later r.seq (originOf s r.port).lastSeq = false ∧ (originOf s r.port).progress.any (fun p => p.seq ==
     r.seq) = true) ∧
    (∃ (code : Nat) (r : Request) (s : State) (p : _), portOpen s r.port = true ∧ permitted s r.port r.src = true ∧ macGood s code
     r = true ∧ code ≠ 0x0101 ∧ later r.seq (originOf s r.port).lastSeq = false ∧ (originOf s r.port).progress.any (fun p => p.seq
     == r.seq) = false ∧ (originOf s r.port).cache.find? (fun p => p.seq == r.seq) = some p) ∧
    (∃ (code : Nat) (r : Request) (s : State), portOpen s r.port = true ∧ permitted s r.port r.src = true ∧ macGood s code r =
     true ∧ code ≠ 0x0101 ∧ later r.seq (originOf s r.port).lastSeq = false ∧ (originOf s r.port).progress.any (fun p => p.seq ==
     r.seq) = false ∧ (originOf s r.port).cache.find? (fun p => p.seq == r.seq) = none) :=
  ⟨⟨0x0103, req clsN [], { on with cis.hostKey := none }, by decide +kernel⟩,
   ⟨req clsN [], { on with power.phase := .charging }, by decide +kernel⟩,
   ⟨0x0102, req clsN [], { on with power.phase := .recovery, host.e0.lastSeq := 1, host.e0.progress := [⟨1, 1, 0x0102, 1⟩] }, by
    decide +kernel⟩,
   ⟨0x0102, req clsN [],
    { on with power.phase := .recovery, host.e0.lastSeq := 1, host.e0.cache := [⟨.e0, 1, 0x0102, 1, 1, 0, [], 0, 1⟩] }, ⟨.e0, 1,
    0x0102, 1, 1, 0, [], 0, 1⟩, by decide +kernel⟩,
   ⟨0x0102, req clsN [], { on with power.phase := .recovery, host.e0.lastSeq := 1 }, by decide +kernel⟩⟩

theorem test_hypotheses_RequestAccepted :
    (∃ (code : Nat) (r : Request) (run : State → State × Answer) (s v : State) (st : Nat) (pl : List Byte), portOpen s r.port =
     true ∧ permitted s r.port r.src = true ∧ macGood s code r = true ∧ code ≠ 0x0101 ∧ later r.seq (originOf s r.port).lastSeq =
     true ∧ run (admitted code r s) = (v, .now st pl) ∧ v.host = (admitted code r s).host) ∧
    (∃ (op : OpSpec) (r : Request) (s : State), portOpen s r.port = true ∧ permitted s r.port r.src = true ∧ macGood s op.code r =
     true ∧ (op.code = 0x0101 ∨ seqClass (originOf s r.port) r.seq = .fresh) ∧ admitStatus op r ≠ St.ok) ∧
    (∃ (op : OpSpec) (r : Request) (s : State), portOpen s r.port = true ∧ permitted s r.port r.src = true ∧ macGood s op.code r =
     true ∧ (op.code = 0x0101 ∨ seqClass (originOf s r.port) r.seq = .fresh) ∧ admitStatus op r = St.ok ∧ conditionRefuses s
     op.code = true) ∧
    (∃ (r : Request), (r.flags.toNat &&& 0xFB ≠ 0 ∨ r.status ≠ 0 ∨ r.reserved ≠ 0)) ∧
    (∃ (op : OpSpec) (r : Request), r.flags = 0 ∧ r.status = 0 ∧ r.reserved = 0 ∧ r.cls ∉ op.classes) ∧
    (∃ (op : OpSpec) (r : Request), r.flags = 0 ∧ r.status = 0 ∧ r.reserved = 0 ∧ r.cls ∈ op.classes ∧ r.payload = [] ∧ op.zeroOk
     = false) ∧
    (∃ (op : OpSpec) (r : Request), r.flags = 0 ∧ r.status = 0 ∧ r.reserved = 0 ∧ r.cls ∈ op.classes ∧ r.payload ≠ [] ∧ (1400 <
     r.payload.length ∨ op.lenOk r.payload.length = false)) ∧
    (∃ (op : OpSpec) (r : Request), r.flags = 0 ∧ r.status = 0 ∧ r.reserved = 0 ∧ r.cls ∈ op.classes ∧ r.payload ≠ [] ∧
     r.payload.length ≤ 1400 ∧ op.lenOk r.payload.length = true ∧ r.cls = clsH) ∧
    (∃ (op : OpSpec) (r : Request), r.flags = 0 ∧ r.status = 0 ∧ r.reserved = 0 ∧ r.cls ∈ op.classes ∧ r.payload ≠ [] ∧
     r.payload.length ≤ 1400 ∧ op.lenOk r.payload.length = true ∧ r.cls = clsN) ∧
    (∃ (op : OpSpec) (r : Request), r.flags = 0 ∧ r.status = 0 ∧ r.reserved = 0 ∧ r.cls ∈ op.classes ∧ r.payload ≠ [] ∧
     r.payload.length ≤ 1400 ∧ op.lenOk r.payload.length = true ∧ r.cls = clsB) ∧
    (∃ (s : State), s.power.phase = .recovery) :=
  ⟨⟨0x0102, sign 0x0102 (req clsN []) on, fun u => (u, .now 0 []), on, _, 0, [], by decide, by decide, macGood_sign rfl, by
    decide, by decide, rfl, rfl⟩,
   ⟨opNone 0x0102 [clsN], { req clsN [] with flags := 1 }, { on with power.phase := .recovery }, by decide +kernel⟩,
   ⟨opNone 0x0301 [clsN], req clsN [], { on with power.phase := .recovery }, by decide +kernel⟩,
   ⟨{ req clsN [] with flags := 1 }, by decide +kernel⟩,
   ⟨opNone 0x0102 [clsN], { req clsN [] with cls := 0 }, by decide +kernel⟩,
   ⟨opLen 0x0104 [clsN] 8, req clsN [], by decide +kernel⟩,
   ⟨opLen 0x0104 [clsN] 8, req clsN (zeros 7), by decide +kernel⟩,
   ⟨opLen 0x0104 [clsH] 8, req clsH (zeros 8), by decide +kernel⟩,
   ⟨opLen 0x0104 [clsN] 8, req clsN (zeros 8), by decide +kernel⟩,
   ⟨opLen 0x0104 [clsB] 8, req clsB (zeros 8), by decide +kernel⟩,
   ⟨{ on with power.phase := .recovery }, by decide +kernel⟩⟩

theorem test_hypotheses_HostLinkReads :
    (∃ (s : State) (r : Request), Admitted (opNone 0x0101 [clsN, clsH]) r s) ∧
    (∃ (s : State) (r : Request), Admitted (opNone 0x0102 [clsH, clsN]) r s) ∧
    (∃ (s : State) (r : Request), Admitted (opRead 0x0103 [clsN, clsB]) r s ∧ fieldN r.payload 0 4 ≠ 0 ∧ fieldN r.payload 4 4 % 8
     = 0 ∧ fieldN r.payload 12 2 ≤ 1384 ∧ fieldN r.payload 14 2 = 0) ∧
    (∃ (s : State) (r : Request), Admitted (opLen 0x0104 [clsN, clsB] 8) r s ∧ fieldN r.payload 4 2 ≤ 43 ∧ fieldN r.payload 6 2 =
     0) ∧
    (∃ (s : State) (r : Request), Admitted (opLen 0x0105 [clsN, clsB] 4) r s ∧ fieldN r.payload 0 2 ≤ 4095 ∧ fieldN r.payload 2 2
     ≤ 20) ∧
    (∃ (s : State) (r : Request), Admitted (opLen 0x0106 [clsN, clsB] 4) r s) ∧
    (∃ (s : State) (r : Request), Admitted (opNone 0x0201 [clsN, clsH]) r s) :=
  ⟨⟨on, sign 0x0101 (req clsN []) on, ready_admitted (by decide +kernel)⟩,
   ⟨on, sign 0x0102 (req clsH []) on, ready_admitted (by decide +kernel)⟩,
   ⟨on, sign 0x0103 (req clsN (patch (zeros 16) [(0, leBytes 4 1), (12, leBytes 2 1384)])) on, ready_admitted (by
    decide +kernel), by decide +kernel⟩,
   ⟨on, sign 0x0104 (req clsN (patch (zeros 8) [(4, leBytes 2 43)])) on, ready_admitted (by decide +kernel), by decide +kernel⟩,
   ⟨on, sign 0x0105 (req clsN (patch (zeros 4) [(0, leBytes 2 4095), (2, leBytes 2 20)])) on, ready_admitted (by decide +kernel),
    by decide +kernel⟩,
   ⟨on, sign 0x0106 (req clsN (zeros 4)) on, ready_admitted (by decide +kernel)⟩,
   ⟨on, sign 0x0201 (req clsN []) on, ready_admitted (by decide +kernel)⟩⟩

theorem test_hypotheses_MeterAndVehicleReads :
    (∃ (s : State) (r : Request), Admitted (opNone 0x0303 [clsN, clsH]) r s) ∧
    (∃ (s : State) (r : Request), Admitted (opLen 0x0401 [clsN, clsH, clsB] 4) r s ∧ fieldN r.payload 0 1 ≤ 52 ∧ fieldN r.payload
     1 1 ≤ 53 ∧ fieldN r.payload 2 2 = 0) ∧
    (∃ (s : State) (r : Request), Admitted (opNone 0x0402 [clsN]) r s) ∧
    (∃ (s : State) (r : Request), Admitted (opNone 0x0403 [clsN, clsH]) r s) ∧
    (∃ (s : State) (r : Request), Admitted (opNone 0x0404 [clsN, clsH]) r s) ∧
    (∃ (s : State) (r : Request), Admitted (opNone 0x1101 [clsN, clsH]) r s) ∧
    (∃ (s : State) (r : Request), Admitted (opNone 0x0501 [clsN, clsH]) r s) ∧
    (∃ (s : State) (r : Request) (o : Outlet), Admitted (opLen 0x0502 [clsN, clsB] 4) r s ∧ fieldN r.payload 0 1 = o.val ∧ fieldN
     r.payload 1 3 = 0) ∧
    (∃ (s : State) (r : Request), Admitted (opNone 0x0606 [clsN, clsB]) r s) ∧
    (∃ (s : State) (r : Request), Admitted (opNone 0x0607 [clsN, clsH]) r s) ∧
    (∃ (s : State) (r : Request), Admitted (opNone 0x0701 [clsN, clsH]) r s) ∧
    (∃ (s : State) (r : Request), Admitted (opNone 0x0801 [clsN, clsH]) r s) :=
  ⟨⟨on, sign 0x0303 (req clsN []) on, ready_admitted (by decide +kernel)⟩,
   ⟨on, sign 0x0401 (req clsN (patch (zeros 4) [(0, leBytes 1 52), (1, leBytes 1 53)])) on, ready_admitted (by decide +kernel),
    by decide +kernel⟩,
   ⟨on, sign 0x0402 (req clsN []) on, ready_admitted (by decide +kernel)⟩,
   ⟨on, sign 0x0403 (req clsN []) on, ready_admitted (by decide +kernel)⟩,
   ⟨on, sign 0x0404 (req clsN []) on, ready_admitted (by decide +kernel)⟩,
   ⟨on, sign 0x1101 (req clsN []) on, ready_admitted (by decide +kernel)⟩,
   ⟨on, sign 0x0501 (req clsN []) on, ready_admitted (by decide +kernel)⟩,
   ⟨on, sign 0x0502 (req clsN (zeros 4)) on, 0, ready_admitted (by decide +kernel), by decide +kernel⟩,
   ⟨on, sign 0x0606 (req clsN []) on, ready_admitted (by decide +kernel)⟩,
   ⟨on, sign 0x0607 (req clsN []) on, ready_admitted (by decide +kernel)⟩,
   ⟨on, sign 0x0701 (req clsN []) on, ready_admitted (by decide +kernel)⟩,
   ⟨on, sign 0x0801 (req clsN []) on, ready_admitted (by decide +kernel)⟩⟩

theorem test_hypotheses_LegalSideReads_1 :
    (∃ (s : State) (r : Request), Admitted (opNone 0x0901 [clsN, clsH]) r s) ∧
    (∃ (s : State) (r : Request), Admitted (opLen 0x0903 [clsN, clsB] 8) r s ∧ fieldN r.payload 4 1 ≤ 5 ∧ fieldN r.payload 5 3 = 0) ∧
    (∃ (s : State) (r : Request) (x : _), Admitted (opLen 0x0904 [clsN, clsB] 4) r s ∧ s.bill.periods.find? (fun x => x.number ==
     fieldN r.payload 0 4) = some x) ∧
    (∃ (s : State) (r : Request), Admitted (opLen 0x0904 [clsN, clsB] 4) r s ∧ s.bill.periods.find? (fun x => x.number == fieldN
     r.payload 0 4) = none) ∧
    (∃ (s : State) (r : Request), Admitted (opNone 0x0906 [clsN, clsH, clsB]) r s) ∧
    (∃ (s : State) (r : Request), Admitted (opLen 0x090A [clsN] 4) r s ∧ fieldN r.payload 0 2 ≤ 4095 ∧ fieldN r.payload 2 2 = 0) ∧
    (∃ (s : State) (r : Request), Admitted (opLen 0x090B [clsN] 4) r s ∧ fieldN r.payload 0 1 = 0 ∧ fieldN r.payload 1 3 = 0) ∧
    (∃ (s : State) (r : Request), Admitted (opLen 0x090B [clsN] 4) r s ∧ fieldN r.payload 0 1 = 1 ∧ fieldN r.payload 1 3 = 0 ∧
     s.cis.lifecycle = 3) ∧
    (∃ (s : State) (r : Request), Admitted (opLen 0x090B [clsN] 4) r s ∧ fieldN r.payload 0 1 = 1 ∧ fieldN r.payload 1 3 = 0 ∧
     s.cis.lifecycle ≠ 3) ∧
    (∃ (s : State) (r : Request), Admitted (opNone 0x0A01 [clsN, clsH]) r s) ∧
    (∃ (s : State) (r : Request), Admitted (opRead 0x0A03 [clsN, clsB]) r s ∧ fieldN r.payload 0 4 ≠ 0 ∧ fieldN r.payload 4 4 % 8
     = 0 ∧ fieldN r.payload 12 2 ≤ 1384 ∧ fieldN r.payload 14 2 = 0) ∧
    (∃ (s : State) (r : Request), Admitted (opNone 0x0B01 [clsN, clsH]) r s) :=
  ⟨⟨on, sign 0x0901 (req clsN []) on, ready_admitted (by decide +kernel)⟩,
   ⟨on, sign 0x0903 (req clsN (patch (zeros 8) [(4, leBytes 1 5)])) on, ready_admitted (by decide +kernel), by decide +kernel⟩,
   ⟨{ on with bill.periods := [⟨0, none, [], []⟩] }, sign 0x0904 (req clsN (zeros 4)) _, ⟨0, none, [], []⟩, ready_admitted (by
    decide +kernel), by decide +kernel⟩,
   ⟨on, sign 0x0904 (req clsN (zeros 4)) on, ready_admitted (by decide +kernel), by decide +kernel⟩,
   ⟨on, sign 0x0906 (req clsN []) on, ready_admitted (by decide +kernel)⟩,
   ⟨on, sign 0x090A (req clsN (patch (zeros 4) [(0, leBytes 2 4095)])) on, ready_admitted (by decide +kernel), by decide +kernel⟩,
   ⟨on, sign 0x090B (req clsN (zeros 4)) on, ready_admitted (by decide +kernel), by decide +kernel⟩,
   ⟨{ on with cis.lifecycle := 3 }, sign 0x090B (req clsN (patch (zeros 4) [(0, leBytes 1 1)])) _, ready_admitted (by
    decide +kernel), by decide +kernel⟩,
   ⟨{ on with cis.lifecycle := 2 }, sign 0x090B (req clsN (patch (zeros 4) [(0, leBytes 1 1)])) _, ready_admitted (by
    decide +kernel), by decide +kernel⟩,
   ⟨on, sign 0x0A01 (req clsN []) on, ready_admitted (by decide +kernel)⟩,
   ⟨on, sign 0x0A03 (req clsN (patch (zeros 16) [(0, leBytes 4 1), (12, leBytes 2 1384)])) on, ready_admitted (by
    decide +kernel), by decide +kernel⟩,
   ⟨on, sign 0x0B01 (req clsN []) on, ready_admitted (by decide +kernel)⟩⟩

theorem test_hypotheses_LegalSideReads_2 :
    (∃ (s : State) (r : Request), Admitted (opLen 0x0B02 [clsN, clsB] 4) r s ∧ fieldN r.payload 1 3 = 0 ∧ (fieldN r.payload 0 1 ≤
     5 ∨ (8 ≤ fieldN r.payload 0 1 ∧ fieldN r.payload 0 1 ≤ 11))) ∧
    (∃ (s : State) (r : Request) (d : _), Admitted (opLen 0x0B06 [clsN, clsH] 32) r s ∧ s.cis.identity = some d) :=
  ⟨⟨on, sign 0x0B02 (req clsN (zeros 4)) on, ready_admitted (by decide +kernel), by decide +kernel⟩,
   ⟨{ on with cis.identity := some 5 }, sign 0x0B06 (req clsN (zeros 32)) _, 5, ready_admitted (by decide +kernel), by
    decide +kernel⟩⟩

theorem test_hypotheses_ModuleReads :
    (∃ (s : State) (r : Request), Admitted (opNone 0x0C01 [clsN, clsH]) r s) ∧
    (∃ (s : State) (r : Request), Admitted (opNone 0x0C03 [clsN, clsH, clsB]) r s) ∧
    (∃ (s : State) (r : Request), Admitted (opNone 0x0D01 [clsN, clsH]) r s) ∧
    (∃ (s : State) (r : Request), Admitted (opRead 0x0D02 [clsN, clsB]) r s ∧ fieldN r.payload 0 4 ≠ 0 ∧ fieldN r.payload 4 4 % 8
     = 0 ∧ fieldN r.payload 12 2 ≤ 1384 ∧ fieldN r.payload 14 2 = 0) ∧
    (∃ (s : State) (r : Request), Admitted (opNone 0x0E02 [clsN, clsH]) r s) ∧
    (∃ (s : State) (r : Request), Admitted (opNone 0x0E09 [clsN, clsB]) r s) ∧
    (∃ (s : State) (r : Request), Admitted (opNone 0x0F01 [clsN, clsH]) r s) ∧
    (∃ (s : State) (r : Request), Admitted (opLen 0x0F02 [clsN, clsB] 4) r s ∧ (fieldN r.payload 1 1) ≠ 0 ∧ (fieldN r.payload 1 1)
     ≤ 32 ∧ (fieldN r.payload 0 1) + (fieldN r.payload 1 1) ≤ 256 ∧ fieldN r.payload 2 2 = 0 ∧ (∀ i, i < (fieldN r.payload 1 1) →
     (blockContent s ((fieldN r.payload 0 1) + i)).isSome = true)) ∧
    (∃ (s : State) (r : Request), Admitted (opNone 0x1001 [clsN, clsH]) r s) :=
  ⟨⟨on, sign 0x0C01 (req clsN []) on, ready_admitted (by decide +kernel)⟩,
   ⟨on, sign 0x0C03 (req clsN []) on, ready_admitted (by decide +kernel)⟩,
   ⟨on, sign 0x0D01 (req clsN []) on, ready_admitted (by decide +kernel)⟩,
   ⟨on, sign 0x0D02 (req clsN (patch (zeros 16) [(0, leBytes 4 1), (12, leBytes 2 1384)])) on, ready_admitted (by
    decide +kernel), by decide +kernel⟩,
   ⟨on, sign 0x0E02 (req clsN []) on, ready_admitted (by decide +kernel)⟩,
   ⟨on, sign 0x0E09 (req clsN []) on, ready_admitted (by decide +kernel)⟩,
   ⟨on, sign 0x0F01 (req clsN []) on, ready_admitted (by decide +kernel)⟩,
   ⟨on, sign 0x0F02 (req clsN (patch (zeros 4) [(1, leBytes 1 32)])) on, ready_admitted (by decide +kernel), by decide +kernel⟩,
   ⟨on, sign 0x1001 (req clsN []) on, ready_admitted (by decide +kernel)⟩⟩

theorem test_hypotheses_LogEntries :
    (∃ (origin : Nat) (sub : Nat) (code : Nat) (detail : List Byte) (legal : Bool) (s : State) (x : _), x ∈ (log origin sub code
     detail legal s).logs.general) ∧
    (∃ (legal : Bool), legal = false) ∧
    (∃ (legal : Bool) (s : State), legal = true ∧ s.logs.legal.length < 4096) ∧
    (∃ (legal : Bool) (s : State), legal = true ∧ 4096 ≤ s.logs.legal.length) :=
  ⟨⟨0, 0, 0x0102, [], true, on, (log 0 0 0x0102 [] false on).logs.general.getD 0 ⟨0, none, .zero, 0, 0, 0, []⟩, by
    decide +kernel⟩,
   ⟨false, by decide +kernel⟩,
   ⟨true, on, by decide +kernel⟩,
   ⟨true, { on with logs.legal := List.replicate 4096 oldLegal }, by decide +kernel⟩⟩

theorem test_hypotheses_HostLinkCommands :
    (∃ (s : State) (r : Request), Admitted (opLen 0x0107 [clsN] 32) r s ∧ s.cis.lifecycle = 3 ∧ r.payload = digestBytes (lastChain
     s)) ∧
    (∃ (s : State) (r : Request), Admitted (opLen 0x0107 [clsN] 32) r s ∧ s.cis.lifecycle = 3 ∧ r.payload ≠ digestBytes (lastChain
     s)) ∧
    (∃ (s : State) (r : Request), Admitted (opLen 0x0107 [clsN] 32) r s ∧ s.cis.lifecycle ≠ 3) ∧
    (∃ (s : State) (port : Port) (src : Nat), (portOpen s port = false ∨ permitted s port src = false)) ∧
    (∃ (s : State) (port : Port) (src : Nat) (frameLen : Nat) (bytes : List Byte), portOpen s port = true ∧ permitted s port src =
     true ∧ framingOk frameLen bytes = false) ∧
    (∃ (s : State) (port : Port) (src : Nat) (frameLen : Nat) (bytes : List Byte) (load : Nat) (queued : Nat), portOpen s port =
     true ∧ permitted s port src = true ∧ framingOk frameLen bytes = true ∧ opcodeDefined (fieldN bytes 4 2) = false ∧ macGood s
     (fieldN bytes 4 2) (requestOf port src bytes load queued) = true ∧ seqClass (originOf s port) (requestOf port src bytes load
     queued).seq = .fresh) ∧
    (∃ (s : State), up s = true) ∧
    (∃ (s : State), up s = false) :=
  ⟨⟨{ on with cis.lifecycle := 3 }, sign 0x0107 (req clsN (zeros 32)) _, ready_admitted (by decide +kernel), by decide +kernel⟩,
   ⟨{ on with cis.lifecycle := 3 }, sign 0x0107 (req clsN (leBytes 1 1 ++ zeros 31)) _, ready_admitted (by decide +kernel), by
    decide +kernel⟩,
   ⟨{ on with cis.lifecycle := 2 }, sign 0x0107 (req clsN (zeros 32)) _, ready_admitted (by decide +kernel), by decide +kernel⟩,
   ⟨{ on with power.phase := .charging }, .e0, 0, by decide +kernel⟩,
   ⟨on, .e0, 0, 0, [], by decide +kernel⟩,
   ⟨{ on with power.phase := .recovery }, .e0, 0, 36, frame 0x0208, 0, 0, by decide +kernel⟩,
   ⟨on, by decide +kernel⟩,
   ⟨{ on with power.phase := .charging }, by decide +kernel⟩⟩

theorem test_hypotheses_SundialCommands :
    (∃ (s : State), up s = false ∧ s.power.phase = .recovery) ∧
    (∃ (s : State), up s = false ∧ s.power.phase ≠ .recovery) ∧
    (∃ (s : State) (elem : Fin 14) (slot : Fin 4) (d : _), s.fabric.doorbells.find? (fun d => d.elem == elem.val && d.slot ==
     slot.val) = some d ∧ up s = true ∧ d.due = true) ∧
    (∃ (s : State) (elem : Fin 14) (slot : Fin 4) (d : _), s.fabric.doorbells.find? (fun d => d.elem == elem.val && d.slot ==
     slot.val) = some d ∧ d.due = false) ∧
    (∃ (s : State) (elem : Fin 14) (slot : Fin 4), s.fabric.doorbells.find? (fun d => d.elem == elem.val && d.slot == slot.val) =
     none) ∧
    (∃ (s : State), s.power.state = .off) ∧
    (∃ (s : State), s.power.state ≠ .off ∧ sunRuns s = false) ∧
    (∃ (s : State), s.power.state ≠ .off ∧ sunRuns s = true) :=
  ⟨⟨{ on with power.phase := .recovery }, by decide +kernel⟩,
   ⟨{ on with power.phase := .charging }, by decide +kernel⟩,
   ⟨{ on with fabric.doorbells := [⟨0, 0, 0, 1, 0, false⟩] }, 0, 0, ⟨0, 0, 0, 1, 0, false⟩, by decide +kernel⟩,
   ⟨{ on with fabric.doorbells := [⟨0, 0, 0, 1, 0, true⟩] }, 0, 0, ⟨0, 0, 0, 1, 0, true⟩, by decide +kernel⟩,
   ⟨on, 0, 0, by decide +kernel⟩,
   ⟨{ on with power.state := .off }, by decide +kernel⟩,
   ⟨{ on with power.phase := .charging }, by decide +kernel⟩,
   ⟨on, by decide +kernel⟩⟩

theorem test_hypotheses_IntegrityCommands_1 :
    (∃ (s : State) (array : Nat) (addr : Nat), up s = true ∧ windowOf addr = arrayWindow array) ∧
    (∃ (s : State), s.power.state ≠ .battery ∧ s.power.state ≠ .off) ∧
    (∃ (s : State), (s.power.state = .battery ∨ s.power.state = .off)) ∧
    (∃ (slot : Nat) (m : Nat) (off : Nat), slot < 2 ∧ m < 53 ∧ off < 16) ∧
    (∃ (s : State) (array : Nat) (elem : Nat), up s = true ∧ s.dom.active ≠ elem ∧ elem = standby s ∧ array ≤ 5) ∧
    (∃ (s : State) (array : Nat), up s = true ∧ 6 ≤ array ∧ array ≤ 10) ∧
    (∃ (a : Access), accessReads a = true) ∧
    (∃ (a : Access), accessReads a = false) ∧
    (∃ (s : State) (array : Nat), up s = false ∧ array ≠ 12) ∧
    (∃ (s : State) (addr : Nat) (e : Fin 14) (a : Access), up s = true ∧ accessPermitted s e.val a addr = true) ∧
    (∃ (s : State) (addr : Nat) (w : Bool) (old : Nat) (x : _), Memory.wf s.fabric.mem = true ∧ old = Memory.load s.fabric.mem
     addr (wordLen w) ∧ x ≠ old) ∧
    (∃ (s : State) (addr : Nat) (e : Fin 14) (a : Access), up s = true ∧ accessPermitted s e.val a addr = false) :=
  ⟨⟨on, 0, 0x10000000, by decide +kernel⟩,
   ⟨on, by decide +kernel⟩,
   ⟨{ on with power.state := .battery }, by decide +kernel⟩,
   ⟨1, 52, 15, by decide +kernel⟩,
   ⟨{ on with dom.active := 0 }, 0, 1, by decide +kernel⟩,
   ⟨on, 10, by decide +kernel⟩,
   ⟨.read false, by decide +kernel⟩,
   ⟨.write [1], by decide +kernel⟩,
   ⟨{ on with power.phase := .charging }, 0, by decide +kernel⟩,
   ⟨on, 0, 9, .read false, by decide +kernel⟩,
   ⟨on, 0, true, 0, 1, by decide +kernel⟩,
   ⟨on, 0, 2, .write [1], by decide +kernel⟩⟩

theorem test_hypotheses_IntegrityCommands_2 :
    (∃ (s : State) (e : Fin 14), up s = true ∧ e.val = 9) ∧
    (∃ (s : State) (e : Fin 14) (o : Outlet), up s = true ∧ e.val = 4 + o.val) ∧
    (∃ (s : State) (e : Fin 14), (up s = false ∨ e.val < 2)) :=
  ⟨⟨on, 9, by decide +kernel⟩,
   ⟨on, 4, 0, by decide +kernel⟩,
   ⟨{ on with power.phase := .charging }, 9, by decide +kernel⟩⟩

theorem test_hypotheses_EnergyArithmetic :
    (∃ (w : RegWindow) (x : Register) (inc : Int), x.corrupt = false ∧ w.status.getLsbD Reg.noData = false ∧ w.inc = some inc ∧
     -(2 ^ 79) ≤ x.acc + inc ∧ x.acc + inc < 2 ^ 79) ∧
    (∃ (w : RegWindow) (x : Register) (inc : Int), x.corrupt = false ∧ w.status.getLsbD Reg.noData = false ∧ w.inc = some inc ∧
     (x.acc + inc < -(2 ^ 79) ∨ 2 ^ 79 ≤ x.acc + inc)) ∧
    (∃ (x : Register), x.corrupt = true) ∧
    (∃ (w : RegWindow), w.status.getLsbD Reg.noData = true) ∧
    (∃ (x : Register), (-(2 ^ 79) ≤ x.acc ∧ x.acc < 2 ^ 79)) ∧
    (∃ (ep : Rat) (q : Rat), 0 ≤ ep ∧ 0 ≤ q) ∧
    (∃ (ep : Rat) (q : Rat), ep < 0 ∧ 0 ≤ q) ∧
    (∃ (ep : Rat) (q : Rat), ep < 0 ∧ q < 0) ∧
    (∃ (ep : Rat) (q : Rat), 0 ≤ ep ∧ q < 0) :=
  ⟨⟨⟨some 1, 0, 0, 0⟩, { Register.init with acc := 2 ^ 79 - 2 }, 1, by decide +kernel⟩,
   ⟨⟨some 1, 0, 0, 0⟩, { Register.init with acc := 2 ^ 79 - 1 }, 1, by decide +kernel⟩,
   ⟨{ Register.init with sticky := 8 }, by decide +kernel⟩,
   ⟨⟨some 1, 0xFFFF, 0, 0⟩, by decide +kernel⟩,
   ⟨Register.init, by decide +kernel⟩,
   ⟨0, 0, by decide +kernel⟩,
   ⟨-1, 0, by decide +kernel⟩,
   ⟨-1, -1, by decide +kernel⟩,
   ⟨0, -1, by decide +kernel⟩⟩

theorem test_hypotheses_CommitWritten :
    (∃ (w : WindowInput) (s t : State) (changes : List Int), energyRegular w s = (t, some changes)) ∧
    (∃ (w : WindowInput) (last : Fin 256) (s t : State) (changes : List Int), energyPartial w last.val s = (t, some changes)) ∧
    (∃ (s : State), s.acq.held0 = true ∧ s.acq.held1 = true) :=
  ⟨⟨⟨1, 1, [], .pass, .pass, []⟩, on, _, _, rfl⟩,
   ⟨⟨1, 1, [], .pass, .pass, []⟩, 255, on, _, _, rfl⟩,
   ⟨{ on with acq.held0 := true, acq.held1 := true }, by decide +kernel⟩⟩

theorem test_hypotheses_AcquisitionCommands :
    (∃ (s : State) (tk : Nat) (st : ChanStream) (y : _), up s = true ∧ s.acq.coverNow = false ∧ s.acq.measure = none ∧ chanLive s
     st.chan.val = true ∧ sampleAt (inverted s st.chan.val) s.acq.mclkCode (calOfChan s st.chan.val) s.acq.t0 tk st = some y) ∧
    (∃ (s : State), up s = false) ∧
    (∃ (s : State) (run : Nat) (ch : Chan), up s = true ∧ chanOn s ch.val = true ∧ stuckLimit s < run ∧ chanOutlet ch.val = none) ∧
    (∃ (s : State) (run : Nat) (ch : Chan), up s = true ∧ chanOn s ch.val = true ∧ stuckLimit s < run ∧ chanOutlet ch.val ≠ none) ∧
    (∃ (s : State) (run : Nat) (ch : Chan), (up s = false ∨ chanOn s ch.val = false ∨ run ≤ stuckLimit s)) ∧
    (∃ (s : State) (r : Request), Admitted (opLen 0x0301 [clsN, clsB] 8) r s ∧ firstFail r.payload measureFields = St.ok ∧ fieldN
     r.payload 0 1 ≠ fieldN r.payload 1 1 ∧ chanOn s (fieldN r.payload 0 1) = true ∧ s.acq.measure = none) ∧
    (∃ (s : State) (r : Request), Admitted (opLen 0x0301 [clsN, clsB] 8) r s ∧ firstFail r.payload measureFields = St.ok ∧ fieldN
     r.payload 0 1 ≠ fieldN r.payload 1 1 ∧ chanOn s (fieldN r.payload 0 1) = true ∧ s.acq.measure ≠ none) ∧
    (∃ (s : State) (m : Measure), s.acq.measure = some m ∧ m.started = true ∧ m.wanted ≤ m.cycles.length) ∧
    (∃ (s : State) (r : Request), Admitted (opLen 0x0302 [clsN] 16) r s ∧ firstFail r.payload calFields = St.ok ∧ s.cis.lifecycle
     = 3 ∧ allIdle s = true ∧ measuring s (fieldN r.payload 0 1) = false ∧ legalRoom s = true) ∧
    (∃ (s : State) (r : Request), Admitted (opLen 0x0302 [clsN] 16) r s ∧ firstFail r.payload calFields = St.ok ∧ (s.cis.lifecycle
     ≠ 3 ∨ allIdle s = false)) ∧
    (∃ (s : State) (r : Request), Admitted (opLen 0x0302 [clsN] 16) r s ∧ firstFail r.payload calFields = St.ok ∧ s.cis.lifecycle
     = 3 ∧ allIdle s = true ∧ measuring s (fieldN r.payload 0 1) = false ∧ legalRoom s = false) :=
  ⟨⟨{ on with acq.coverNow := false, acq.measure := none, cfg.recs := [rec 0x0601 0 (patch (zeros 48) [(1, leBytes 1 1)])] }, 0,
    ⟨0, -1, .codes [0, 0, 0, 0, 0, 0], .codes [], false⟩, 0, by decide +kernel⟩,
   ⟨{ on with power.phase := .charging }, by decide +kernel⟩,
   ⟨on, 257, 16, by decide +kernel⟩,
   ⟨{ on with cfg.recs := [rec 0x0601 0 (patch (zeros 48) [(1, leBytes 1 1)])] }, 257, 0, by decide +kernel⟩,
   ⟨{ on with power.phase := .charging }, 0, 0, by decide +kernel⟩,
   ⟨{ on with acq.measure := none, cfg.recs := [rec 0x0601 0 (patch (zeros 48) [(1, leBytes 1 1)])] }, sign 0x0301 (req clsN
    (patch (zeros 8) [(1, leBytes 1 23), (4, leBytes 2 1)])) _, ready_admitted (by decide +kernel), by decide +kernel⟩,
   ⟨{ on with acq.measure := some ⟨.e0, 1, 1, 0, 1, 0, 1, true, 0, [], []⟩, cfg.recs := [rec 0x0601 0 (patch (zeros 48) [(1, leBytes 1 1)])] },
    sign 0x0301 (req clsN (patch (zeros 8) [(1, leBytes 1 23), (4, leBytes 2 1)])) _, ready_admitted (by decide +kernel), by
    decide +kernel⟩,
   ⟨{ on with acq.measure := some ⟨.e0, 1, 1, 0, 1, 0, 1, true, 0, [], [([], [])]⟩ }, ⟨.e0, 1, 1, 0, 1, 0, 1, true, 0, [], [([],
    [])]⟩, by decide +kernel⟩,
   ⟨{ on with cis.lifecycle := 3 }, sign 0x0302 (req clsN (patch (zeros 16) [(4, leBytes 4 536870912)])) _, ready_admitted (by
    decide +kernel), by decide +kernel⟩,
   ⟨{ on with cis.lifecycle := 2 }, sign 0x0302 (req clsN (patch (zeros 16) [(4, leBytes 4 536870912)])) _, ready_admitted (by
    decide +kernel), by decide +kernel⟩,
   ⟨{ on with cis.lifecycle := 3, logs.legal := List.replicate 4033 oldLegal }, sign 0x0302 (req clsN (patch (zeros 16) [(4,
    leBytes 4 536870912)])) _, ready_admitted (by decide +kernel), by decide +kernel⟩⟩

theorem test_hypotheses_MeterCommands :
    (∃ (s : State), up s = true ∧ (s.power.state ≠ .hold ∨ s.energy.tail = true)) ∧
    (∃ (s : State), (up s = false ∨ (s.power.state = .hold ∧ s.energy.tail = false))) ∧
    (∃ (s : State), up s = true ∧ s.power.state = .hold ∧ s.energy.tail = true) ∧
    (∃ (s : State), (up s = false ∨ s.power.state ≠ .hold ∨ s.energy.tail = false)) ∧
    (∃ (s : State) (m : Fin 8), up s = true ∧ s.energy.pulsesHeld = false ∧ (engineOut s (regOfMet1 (pulseReg s m.val))) = false ∧
     pulseConst s m.val ≠ 0 ∧ 0 < (s.energy.pulses.getD m.val .init).backlog ∧ (s.energy.pulses.getD m.val .init).conducting =
     false) ∧
    (∃ (s : State) (m : Fin 8), (up s = false ∨ s.energy.pulsesHeld = true ∨ (engineOut s (regOfMet1 (pulseReg s m.val))) = true ∨
     pulseConst s m.val = 0 ∨ (s.energy.pulses.getD m.val .init).backlog = 0 ∨ (s.energy.pulses.getD m.val .init).conducting =
     true)) ∧
    (∃ (s : State), up s = true ∧ s.energy.changed = true) ∧
    (∃ (s : State), (up s = false ∨ s.energy.changed = false)) ∧
    (∃ (s : State) (r : Request), Admitted (opLen 0x0405 [clsN] 12) r s ∧ (fieldN r.payload 0 1) ≤ 52 ∧ fieldN r.payload 1 3 = 0 ∧
     s.cis.lifecycle = 3 ∧ allIdle s = true ∧ (regAt s (fieldN r.payload 0 1)).corrupt = true ∧ restoreFits (fieldN r.payload 0 1)
     (fieldI r.payload 4 8) = true ∧ legalRoom s = true) ∧
    (∃ (s : State) (r : Request), Admitted (opLen 0x0405 [clsN] 12) r s ∧ (fieldN r.payload 0 1) ≤ 52 ∧ fieldN r.payload 1 3 = 0 ∧
     (s.cis.lifecycle ≠ 3 ∨ allIdle s = false ∨ (regAt s (fieldN r.payload 0 1)).corrupt = false)) ∧
    (∃ (s : State) (r : Request), Admitted (opLen 0x0405 [clsN] 12) r s ∧ (fieldN r.payload 0 1) ≤ 52 ∧ fieldN r.payload 1 3 = 0 ∧
     s.cis.lifecycle = 3 ∧ allIdle s = true ∧ (regAt s (fieldN r.payload 0 1)).corrupt = true ∧ restoreFits (fieldN r.payload 0 1)
     (fieldI r.payload 4 8) = false) :=
  ⟨⟨on, by decide +kernel⟩,
   ⟨{ on with power.phase := .charging }, by decide +kernel⟩,
   ⟨{ on with power.state := .hold, energy.tail := true }, by decide +kernel⟩,
   ⟨{ on with power.phase := .charging }, by decide +kernel⟩,
   ⟨{ on with energy.pulsesHeld := false, energy.pulses := [⟨0, 0, 1, false⟩], energy.recs := [rec 0x0403 0 (patch (zeros 16) [(4, leBytes 4 1)])] },
    0, by decide +kernel⟩,
   ⟨{ on with power.phase := .charging }, 0, by decide +kernel⟩,
   ⟨{ on with energy.changed := true }, by decide +kernel⟩,
   ⟨{ on with power.phase := .charging }, by decide +kernel⟩,
   ⟨{ on with cis.lifecycle := 3, energy.regs := List.replicate 53 { Register.init with sticky := 8 } }, sign 0x0405 (req clsN
    (patch (zeros 12) [(0, leBytes 1 52)])) _, ready_admitted (by decide +kernel), by decide +kernel⟩,
   ⟨{ on with cis.lifecycle := 2 }, sign 0x0405 (req clsN (patch (zeros 12) [(0, leBytes 1 52)])) _, ready_admitted (by
    decide +kernel), by decide +kernel⟩,
   ⟨{ on with cis.lifecycle := 3, energy.regs := List.replicate 53 { Register.init with sticky := 8 } }, sign 0x0405 (req clsN
    (patch (zeros 12) [(0, leBytes 1 52), (4, leBytes 8 36028797018963968)])) _, ready_admitted (by decide +kernel), by
    decide +kernel⟩⟩

theorem test_hypotheses_RestartKeeps :
    (∃ (s : State), s.logs.general = []) ∧
    (∃ (s : State) (e : _) (l : _), s.logs.general = e :: l) ∧
    (∃ (s : State) (e : _), latestEntry s 0x06 0x0601 (fun _ => true) = some e) ∧
    (∃ (s : State), latestEntry s 0x06 0x0601 (fun _ => true) = none) :=
  ⟨⟨{ on with logs.general := [] }, by decide +kernel⟩,
   ⟨{ on with logs.general := [⟨0, none, .zero, 0, 6, 0x0601, []⟩] }, ⟨0, none, .zero, 0, 6, 0x0601, []⟩, [], by decide +kernel⟩,
   ⟨{ on with logs.general := [⟨0, none, .zero, 0, 6, 0x0601, []⟩] }, ⟨0, none, .zero, 0, 6, 0x0601, []⟩, by decide +kernel⟩,
   ⟨on, by decide +kernel⟩⟩

theorem test_hypotheses_SupplyCommands :
    (∃ (s : State), up s = true ∧ s.power.state ≠ .hold) ∧
    (∃ (s : State), s.power.state ≠ .run ∧ s.power.state ≠ .idle) ∧
    (∃ (s : State), (s.power.state = .run ∨ s.power.state = .idle) ∧ s.power.phase = .rake) ∧
    (∃ (s : State), up s = true ∧ s.power.state = .hold) ∧
    (∃ (s : State), s.power.state = .hold ∧ s.power.phase = .unpowered) ∧
    (∃ (s : State) (vbat : Nat), s.power.state = .hold ∧ 200 ≤ vbat) ∧
    (∃ (s : State) (vbat : Nat), s.power.state = .hold ∧ vbat < 200) ∧
    (∃ (s : State), s.power.state = .battery) ∧
    (∃ (s : State) (v : Nat), up s = true ∧ v < 260 ∧ s.power.vbatLow = false) ∧
    (∃ (s : State) (v : Nat), (up s = false ∨ 260 ≤ v ∨ s.power.vbatLow = true)) ∧
    (∃ (s : State), (s.power.state = .battery ∨ s.power.state = .off)) ∧
    (∃ (s : State), s.power.state ≠ .battery ∧ s.power.state ≠ .off) :=
  ⟨⟨on, by decide +kernel⟩,
   ⟨{ on with power.state := .battery }, by decide +kernel⟩,
   ⟨{ on with power.state := .run, power.phase := .rake }, by decide +kernel⟩,
   ⟨{ on with power.state := .hold }, by decide +kernel⟩,
   ⟨{ on with power.state := .hold, power.phase := .unpowered }, by decide +kernel⟩,
   ⟨{ on with power.state := .hold }, 200, by decide +kernel⟩,
   ⟨{ on with power.state := .hold }, 199, by decide +kernel⟩,
   ⟨{ on with power.state := .battery }, by decide +kernel⟩,
   ⟨{ on with power.vbatLow := false }, 259, by decide +kernel⟩,
   ⟨{ on with power.phase := .charging }, 0, by decide +kernel⟩,
   ⟨{ on with power.state := .battery }, by decide +kernel⟩,
   ⟨on, by decide +kernel⟩⟩

theorem test_hypotheses_StartCommands_1 :
    (∃ (s : State), supplied s = true) ∧
    (∃ (s : State), s.power.state = .hold ∧ up s = true ∧ s.energy.tail = true) ∧
    (∃ (s : State), supplied s = false) ∧
    (∃ (s : State), (s.power.state ≠ .hold ∨ up s = false ∨ s.energy.tail = false)) ∧
    (∃ (s : State), s.power.phase = .pllWait) ∧
    (∃ (s : State), s.power.phase ≠ .pllWait) ∧
    (∃ (s : State), s.power.phase = .charging ∧ s.power.charged = false) ∧
    (∃ (s : State), (s.power.phase ≠ .charging ∨ s.power.charged = true)) ∧
    (∃ (s : State), (¬((s.power.phase = .charging ∨ s.power.phase = .pllWait) ∧ s.power.state = .run))) ∧
    (∃ (s : State) (i : StartInput), ((s.power.phase = .charging ∨ s.power.phase = .pllWait) ∧ s.power.state = .run) ∧
     signatureUsable s = true ∧ i.romOk = false) ∧
    (∃ (s : State) (i : StartInput), ((s.power.phase = .charging ∨ s.power.phase = .pllWait) ∧ s.power.state = .run) ∧
     signatureUsable s = true ∧ i.coreA = false ∧ i.coreB = false) ∧
    (∃ (s : State) (i : StartInput), ((s.power.phase = .charging ∨ s.power.phase = .pllWait) ∧ s.power.state = .run) ∧
     signatureUsable s = false ∧ i.groups.getD 0 3 ≠ 0 ∧ i.groups.getD 1 3 ≠ 0) :=
  ⟨⟨on, by decide +kernel⟩,
   ⟨{ on with power.state := .hold, energy.tail := true }, by decide +kernel⟩,
   ⟨{ on with power.state := .battery }, by decide +kernel⟩,
   ⟨on, by decide +kernel⟩,
   ⟨{ on with power.phase := .pllWait }, by decide +kernel⟩,
   ⟨on, by decide +kernel⟩,
   ⟨{ on with power.phase := .charging, power.charged := false }, by decide +kernel⟩,
   ⟨on, by decide +kernel⟩,
   ⟨on, by decide +kernel⟩,
   ⟨signedStart, { start with romOk := false }, by decide, signedStart_usable, rfl⟩,
   ⟨signedStart, { start with coreA := false, coreB := false }, by decide, signedStart_usable, rfl, rfl⟩,
   ⟨{ on with power.phase := .charging, power.state := .run }, { start with groups := [1, 1, 0, 0, 0, 0] }, by decide +kernel⟩⟩

theorem test_hypotheses_StartCommands_2 :
    (∃ (s : State) (i : StartInput), ((s.power.phase = .charging ∨ s.power.phase = .pllWait) ∧ s.power.state = .run) ∧
     ((signatureUsable s = true ∧ i.romOk = true ∧ (i.coreA = true ∨ i.coreB = true)) ∨ (signatureUsable s = false ∧
     (i.groups.getD 0 3 = 0 ∨ i.groups.getD 1 3 = 0))) ∧ s.power.recover = false ∧ s.power.cause ≠ 8 ∧ s.update.ledger.take 2 ≠
     [0x0F, 0x0F] ∧ s.update.trial = 0) ∧
    (∃ (s : State) (i : StartInput), ((s.power.phase = .charging ∨ s.power.phase = .pllWait) ∧ s.power.state = .run) ∧
     signatureUsable s = true ∧ i.romOk = true ∧ i.coreA = true ∧ (s.power.recover = true ∨ s.power.cause = 8)) :=
  ⟨⟨{ on with power.phase := .charging, power.recover := false, update.trial := 0, power.state := .run }, start, by
    decide +kernel⟩,
   ⟨signedStart, start, by decide, signedStart_usable, rfl, rfl, .inl rfl⟩⟩

theorem test_hypotheses_ResetCommands_1 :
    (∃ (i : StartInput) (s : State), s.acq.mclkOn = true ∧ s.update.ledger.take 2 ≠ [0x0F, 0x0F] ∧ s.update.trial = 0 ∧ i.imagesOk
     = false) ∧
    (∃ (i : StartInput) (s : State), s.acq.mclkOn = true ∧ s.update.ledger.take 2 ≠ [0x0F, 0x0F] ∧ s.update.trial = 0 ∧ i.imagesOk
     = true) ∧
    (∃ (s : State), s.acq.mclkOn = true ∧ s.update.ledger.take 2 = [0x0F, 0x0F] ∧ s.update.trial = 0 ∧ s.update.ledger.length <
     1024) ∧
    (∃ (s : State), (awake s = true ∧ sessionsEnded s = true) ∧ s.power.orderly = some (false, false)) ∧
    (∃ (s : State), (awake s = true ∧ sessionsEnded s = true) ∧ s.power.orderly = some (false, true)) ∧
    (∃ (s : State), (¬(awake s = true ∧ sessionsEnded s = true))) ∧
    (∃ (s : State), domainRuns s = true) ∧
    (∃ (s : State), ((s.power.phase = .booting ∨ s.power.phase = .bootFailed) ∧ s.power.state ≠ .hold)) ∧
    (∃ (s : State), (¬((s.power.phase = .booting ∨ s.power.phase = .bootFailed) ∧ s.power.state ≠ .hold))) ∧
    (∃ (s : State) (r : Request), s.power.phase = .recovery ∧ Admitted (opNone 0x0E08 [clsN]) r s) ∧
    (∃ (s : State) (r : Request), Admitted (opNone 0x0E08 [clsN]) r s ∧ s.power.phase ≠ .recovery ∧ s.update.go = none) ∧
    (∃ (s : State), recoveredMask s = 0) :=
  ⟨⟨{ start with imagesOk := false }, { on with acq.mclkOn := true, update.trial := 0 }, by decide +kernel⟩,
   ⟨start, { on with acq.mclkOn := true, update.trial := 0 }, by decide +kernel⟩,
   ⟨{ on with acq.mclkOn := true, update.trial := 0, update.ledger := [0x0F, 0x0F] }, by decide +kernel⟩,
   ⟨{ on with power.orderly := some (false, false) }, by decide +kernel⟩,
   ⟨{ on with power.orderly := some (false, true) }, by decide +kernel⟩,
   ⟨{ on with power.state := .hold }, by decide +kernel⟩,
   ⟨on, by decide +kernel⟩,
   ⟨{ on with power.phase := .booting }, by decide +kernel⟩,
   ⟨on, by decide +kernel⟩,
   ⟨{ on with power.phase := .recovery }, req clsN [], rfl, by unfold Admitted; decide⟩,
   ⟨{ on with update.go := none }, sign 0x0E08 (req clsN []) _, ready_admitted (by decide +kernel), by decide +kernel⟩,
   ⟨on, by decide +kernel⟩⟩

theorem test_hypotheses_ResetCommands_2 :
    (∃ (s : State), s.power.phase = .booting) ∧
    (∃ (s : State) (b : _), (awake s = true ∧ sessionsEnded s = true) ∧ s.power.orderly = some (true, b)) ∧
    (∃ (s : State), s.power.phase = .bootFailed ∧ 1 ≤ failedBoots s ∧ s.update.trial = 0) ∧
    (∃ (s : State) (b : _), awake s = true ∧ s.power.orderly = some (false, b)) ∧
    (∃ (s : State), awake s = true ∧ s.power.orderly = none ∧ s.power.shutting = true) ∧
    (∃ (s : State), (awake s = false ∨ (s.power.orderly = none ∧ s.power.shutting = false))) :=
  ⟨⟨{ on with power.phase := .booting }, by decide +kernel⟩,
   ⟨{ on with power.orderly := some (true, false) }, false, by decide +kernel⟩,
   ⟨{ on with power.phase := .bootFailed, update.trial := 0, update.ledger := [0x0F, 0x0F] }, by decide +kernel⟩,
   ⟨{ on with power.orderly := some (false, false) }, false, by decide +kernel⟩,
   ⟨{ on with power.orderly := none, power.shutting := true }, by decide +kernel⟩,
   ⟨on, by decide +kernel⟩⟩

theorem test_hypotheses_ShutdownCommands_1 :
    (∃ (s : State), s.power.state = .run ∧ s.power.phase = .running ∧ idleConditions s = true) ∧
    (∃ (s : State), (s.power.state ≠ .run ∨ s.power.phase ≠ .running ∨ idleConditions s = false)) ∧
    (∃ (s : State), s.power.state = .idle ∧ idleConditions s = false) ∧
    (∃ (s : State), (s.power.state ≠ .idle ∨ idleConditions s = true)) ∧
    (∃ (s : State), buttonDead s = true) ∧
    (∃ (s : State), buttonDead s = false ∧ s.power.phase ≠ .shutDown) ∧
    (∃ (s : State), buttonDead s = false ∧ s.power.phase = .shutDown) ∧
    (∃ (s : State), s.power.pressed = false) ∧
    (∃ (s : State), s.power.pressed = true ∧ (s.power.stuck = true ∨ buttonDead s = true)) ∧
    (∃ (s : State) (held : Nat), s.power.pressed = true ∧ s.power.stuck = false ∧ buttonDead s = false ∧ up s = true ∧ buttonMode
     s ≠ 3 ∧ held < 2000 ∧ buttonMode s ≠ 1) ∧
    (∃ (s : State) (held : Nat), s.power.pressed = true ∧ s.power.stuck = false ∧ buttonDead s = false ∧ up s = true ∧ buttonMode
     s ≠ 3 ∧ held < 2000 ∧ buttonMode s = 1 ∧ resetPending s = false) ∧
    (∃ (s : State) (held : Nat), s.power.pressed = true ∧ s.power.stuck = false ∧ buttonDead s = false ∧ up s = true ∧ buttonMode
     s ≠ 3 ∧ 5000 ≤ held ∧ held ≤ 10000 ∧ resetPending s = false) :=
  ⟨⟨{ on with power.state := .run, power.phase := .running }, by decide +kernel⟩,
   ⟨{ on with power.state := .battery, power.phase := .booting }, by decide +kernel⟩,
   ⟨{ on with power.state := .idle, sess.out.o0.state := .s1 }, by decide +kernel⟩,
   ⟨on, by decide +kernel⟩,
   ⟨{ on with power.state := .hold }, by decide +kernel⟩,
   ⟨on, by decide +kernel⟩,
   ⟨{ on with power.phase := .shutDown }, by decide +kernel⟩,
   ⟨{ on with power.pressed := false }, by decide +kernel⟩,
   ⟨{ on with power.pressed := true, power.stuck := true }, by decide +kernel⟩,
   ⟨{ on with power.pressed := true, power.stuck := false, cfg.recs := [rec 0x1101 0 (patch (zeros 48) [(0, leBytes 1 2)])] },
    1999, by decide +kernel⟩,
   ⟨{ on with power.pressed := true, power.stuck := false }, 1999, by decide +kernel⟩,
   ⟨{ on with power.pressed := true, power.stuck := false }, 10000, by decide +kernel⟩⟩

theorem test_hypotheses_ShutdownCommands_2 :
    (∃ (s : State) (held : Nat), s.power.pressed = true ∧ s.power.stuck = false ∧ buttonDead s = false ∧ up s = true ∧ buttonMode
     s ≠ 3 ∧ (2000 ≤ held ∧ held < 5000 ∨ 10000 < held ∧ held < 30000)) ∧
    (∃ (s : State) (held : Nat), s.power.pressed = true ∧ s.power.stuck = false ∧ buttonDead s = false ∧ up s = true ∧ buttonMode
     s ≠ 3 ∧ held ≤ 10000 ∧ 5000 ≤ held ∧ resetPending s = true) ∧
    (∃ (s : State), awake s = true ∧ s.power.pressed = true ∧ s.power.stuck = false) ∧
    (∃ (s : State), (awake s = false ∨ s.power.pressed = false ∨ s.power.stuck = true)) ∧
    (∃ (s : State) (r : Request), Admitted (opLen 0x1102 [clsN] 4) r s ∧ fieldN r.payload 0 1 ≤ 1 ∧ fieldN r.payload 1 3 = 0 ∧
     resetPending s = false) ∧
    (∃ (s : State) (r : Request), Admitted (opLen 0x1102 [clsN] 4) r s ∧ fieldN r.payload 0 1 ≤ 1 ∧ fieldN r.payload 1 3 = 0 ∧
     resetPending s = true) ∧
    (∃ (s : State) (r : Request), Admitted (opLen 0x1103 [clsN] 4) r s ∧ fieldN r.payload 0 1 ≤ 1 ∧ fieldN r.payload 1 3 = 0 ∧
     resetPending s = false ∧ (fieldN r.payload 0 1 = 1 ∨ allSess s (fun x => !x.running) = true)) ∧
    (∃ (s : State) (r : Request), Admitted (opLen 0x1103 [clsN] 4) r s ∧ fieldN r.payload 0 1 ≤ 1 ∧ fieldN r.payload 1 3 = 0 ∧
     resetPending s = false ∧ fieldN r.payload 0 1 = 0 ∧ allSess s (fun x => !x.running) = false) ∧
    (∃ (s : State) (r : Request), Admitted (opLen 0x1103 [clsN] 4) r s ∧ fieldN r.payload 0 1 ≤ 1 ∧ fieldN r.payload 1 3 = 0 ∧
     resetPending s = true) ∧
    (∃ (s : State), domainRuns s = true ∧ s.power.shutting = true ∧ (sessionsEnded s = true ∨ s.power.expired = true)) ∧
    (∃ (s : State), (domainRuns s = false ∨ s.power.shutting = false)) :=
  ⟨⟨{ on with power.pressed := true, power.stuck := false }, 2000, by decide +kernel⟩,
   ⟨{ on with power.pressed := true, power.stuck := false, power.shutting := true }, 10000, by decide +kernel⟩,
   ⟨{ on with power.pressed := true, power.stuck := false }, by decide +kernel⟩,
   ⟨{ on with power.state := .hold }, by decide +kernel⟩,
   ⟨on, sign 0x1102 (req clsN (patch (zeros 4) [(0, leBytes 1 1)])) on, ready_admitted (by decide +kernel), by decide +kernel⟩,
   ⟨{ on with power.shutting := true }, sign 0x1102 (req clsN (patch (zeros 4) [(0, leBytes 1 1)])) _, ready_admitted (by
    decide +kernel), by decide +kernel⟩,
   ⟨on, sign 0x1103 (req clsN (patch (zeros 4) [(0, leBytes 1 1)])) on, ready_admitted (by decide +kernel), by decide +kernel⟩,
   ⟨{ on with sess.out.o0.state := .s2 }, sign 0x1103 (req clsN (zeros 4)) _, ready_admitted (by decide +kernel), by
    decide +kernel⟩,
   ⟨{ on with power.shutting := true }, sign 0x1103 (req clsN (patch (zeros 4) [(0, leBytes 1 1)])) _, ready_admitted (by
    decide +kernel), by decide +kernel⟩,
   ⟨{ on with power.shutting := true }, by decide +kernel⟩,
   ⟨{ on with power.state := .hold }, by decide +kernel⟩⟩

theorem test_hypotheses_CableRating :
    (∃ (ohms : Nat), 4500 < ohms) ∧
    (∃ (ohms : Nat), 1100 ≤ ohms ∧ ohms ≤ 2460) ∧
    (∃ (ohms : Nat), 400 ≤ ohms ∧ ohms ≤ 936) ∧
    (∃ (ohms : Nat), 164 ≤ ohms ∧ ohms ≤ 308) ∧
    (∃ (ohms : Nat), 80 ≤ ohms ∧ ohms ≤ 140) ∧
    (∃ (ohms : Nat), (ohms < 80 ∨ (140 < ohms ∧ ohms < 164) ∨ (308 < ohms ∧ ohms < 400) ∨ (936 < ohms ∧ ohms < 1100) ∨ (2460 <
     ohms ∧ ohms ≤ 4500))) ∧
    (∃ (s : State) (o : Outlet), linkField s o 8 0 = 0 ∧ (s.link.get o).prox ≠ 255) ∧
    (∃ (s : State) (o : Outlet), linkField s o 8 0 = 0 ∧ ((s.link.get o).prox = 0 ∨ (s.link.get o).prox = 255)) ∧
    (∃ (s : State) (o : Outlet), linkField s o 8 0 = 1) ∧
    (∃ (s : State) (o : Outlet), isAc s o.val = true ∧ cableRating s o = 0) :=
  ⟨⟨4501, by decide +kernel⟩,
   ⟨2460, by decide +kernel⟩,
   ⟨936, by decide +kernel⟩,
   ⟨308, by decide +kernel⟩,
   ⟨140, by decide +kernel⟩,
   ⟨4500, by decide +kernel⟩,
   ⟨{ on with link.o0.prox := 63, cfg.recs := [rec 0x0501 0 (patch (zeros 48) [(8, leBytes 1 0)])] }, 0, by decide +kernel⟩,
   ⟨{ on with link.o0.prox := 0, cfg.recs := [rec 0x0501 0 (patch (zeros 48) [(8, leBytes 1 0)])] }, 0, by decide +kernel⟩,
   ⟨{ on with cfg.recs := [rec 0x0501 0 (patch (zeros 48) [(8, leBytes 1 1)])] }, 0, by decide +kernel⟩,
   ⟨{ on with cfg.recs := [rec 0x0601 0 (patch (zeros 48) [(1, leBytes 1 3)])] }, 0, by decide +kernel⟩⟩

theorem test_hypotheses_AbsoluteRegistersBarBpt :
    ∃ (s : State) (o : Outlet) (i : Nat), i ∈ [0, 1, 3, 4, 5, 7] ∧ absolute s (8 * o.val + i) = true :=
  ⟨{ on with energy.recs := [rec 0x0401 0 (patch (zeros 16) [(0, leBytes 4 1)])] }, 0, 0, by decide +kernel⟩

theorem test_hypotheses_PilotCommands_1 :
    (∃ (s : State) (o : Outlet) (high : Int) (low : Int), up s = true ∧ (s.link.get o).gen ≠ .zero ∧ pilotBand high ≠ .invalid ∧
     (if (diodeMissing (s.link.get o).gen high low) then .e else pilotBand high) = .b ∧ (s.link.get o).test = false ∧
     chargingState (s.link.get o).pilot = false) ∧
    (∃ (s : State) (o : Outlet) (high : Int) (low : Int), up s = true ∧ (s.link.get o).gen ≠ .zero ∧ pilotBand high ≠ .invalid ∧
     (if (diodeMissing (s.link.get o).gen high low) then .e else pilotBand high) = .b ∧ (s.link.get o).test = false ∧
     chargingState (s.link.get o).pilot = true ∧ isDc s o.val = true ∧ ((sessOf s o).state = .s4 ∨ (sessOf s o).state = .s5 ∨
     (sessOf s o).state = .s6)) ∧
    (∃ (s : State) (o : Outlet) (high : Int) (low : Int), up s = true ∧ (s.link.get o).gen ≠ .zero ∧ pilotBand high ≠ .invalid ∧
     (if (diodeMissing (s.link.get o).gen high low) then .e else pilotBand high) = .b ∧ (s.link.get o).test = false ∧
     chargingState (s.link.get o).pilot = true ∧ isDc s o.val = false ∧ (sessOf s o).state = .s6) ∧
    (∃ (s : State) (o : Outlet) (high : Int) (low : Int), up s = true ∧ (s.link.get o).gen ≠ .zero ∧ pilotBand high ≠ .invalid ∧
     ((if (diodeMissing (s.link.get o).gen high low) then .e else pilotBand high) = .c ∨ (if (diodeMissing (s.link.get o).gen high
     low) then .e else pilotBand high) = .d) ∧ (s.link.get o).test = false) ∧
    (∃ (s : State) (o : Outlet) (high : Int) (low : Int), up s = true ∧ (s.link.get o).gen ≠ .zero ∧ pilotBand high ≠ .invalid ∧
     plugged (if (diodeMissing (s.link.get o).gen high low) then .e else pilotBand high) = false ∧ (s.link.get o).matching.inRetry
     = false ∧ (s.link.get o).matching.step ≠ 0) ∧
    (∃ (s : State) (o : Outlet) (high : Int) (low : Int), up s = true ∧ (s.link.get o).gen ≠ .zero ∧ pilotBand high ≠ .invalid ∧
     plugged (if (diodeMissing (s.link.get o).gen high low) then .e else pilotBand high) = false ∧ (s.link.get o).matching.inRetry
     = false ∧ (s.link.get o).matching.step = 0) ∧
    (∃ (s : State), up s = false) ∧
    (∃ (s : State) (o : Outlet) (high : Int), up s = true ∧ ((s.link.get o).gen = .zero ∨ pilotBand high = .invalid)) ∧
    (∃ (s : State) (o : Outlet) (high : Int), up s = true ∧ ((s.link.get o).gen = .zero ∨ pilotBand high ≠ .invalid)) ∧
    (∃ (mV : Int), 11000 ≤ mV ∧ mV ≤ 13000) ∧
    (∃ (mV : Int), 8000 ≤ mV ∧ mV ≤ 10000) ∧
    (∃ (mV : Int), 5000 ≤ mV ∧ mV ≤ 7000) :=
  ⟨⟨{ on with link.o0.gen := .static12, link.o0.test := false }, 0, 9000, 9000, by decide +kernel⟩,
   ⟨{ on with link.o0.gen := .static12, link.o0.test := false, sess.out.o0.state := .s4, link.o0.pilot := some .c, cfg.recs := [rec 0x0601 0 (patch (zeros 48) [(1, leBytes 1 1)])] },
    0, 9000, 9000, by decide +kernel⟩,
   ⟨{ on with link.o0.gen := .static12, link.o0.test := false, sess.out.o0.state := .s6, link.o0.pilot := some .d }, 0, 9000,
    9000, by decide +kernel⟩,
   ⟨{ on with link.o0.gen := .static12, link.o0.test := false }, 0, 3000, 3000, by decide +kernel⟩,
   ⟨{ on with link.o0.gen := .static12, link.o0.matching.inRetry := false, link.o0.matching.step := 1 }, 0, 0, 0, by
    decide +kernel⟩,
   ⟨{ on with link.o0.gen := .static12, link.o0.matching.inRetry := false, link.o0.matching.step := 0 }, 0, 0, 0, by
    decide +kernel⟩,
   ⟨{ on with power.phase := .charging }, by decide +kernel⟩,
   ⟨{ on with link.o0.gen := .zero }, 0, 0, by decide +kernel⟩,
   ⟨{ on with link.o0.gen := .zero }, 0, 0, by decide +kernel⟩,
   ⟨13000, by decide +kernel⟩,
   ⟨10000, by decide +kernel⟩,
   ⟨7000, by decide +kernel⟩⟩

theorem test_hypotheses_PilotCommands_2 :
    (∃ (mV : Int), 2000 ≤ mV ∧ mV ≤ 4000) ∧
    (∃ (mV : Int), -1000 ≤ mV ∧ mV ≤ 1000) ∧
    (∃ (mV : Int), -13000 ≤ mV ∧ mV ≤ -11000) ∧
    (∃ (s : State) (o : Outlet) (high : Int), up s = true ∧ (s.link.get o).gen ≠ .zero ∧ pilotBand high = .invalid ∧ (s.link.get
     o).matching.inRetry = false ∧ (s.link.get o).matching.step = 0) ∧
    (∃ (s : State) (o : Outlet), up s = true ∧ isAc s o.val = true) ∧
    (∃ (s : State) (o : Outlet), (up s = false ∨ isAc s o.val = false)) ∧
    (∃ (s : State) (o : Outlet), domainRuns s = true ∧ (¬((s.link.get o).matching.inRetry = true ∨ (s.link.get o).test = true ∨
     s.power.state = .hold))) ∧
    (∃ (s : State) (o : Outlet), domainRuns s = true ∧ ((s.link.get o).matching.inRetry = true ∨ (s.link.get o).test = true ∨
     s.power.state = .hold)) ∧
    (∃ (s : State), domainRuns s = false) ∧
    (∃ (s : State) (o : Outlet) (r : Request), Admitted (opLen 0x0503 [clsN] 8) r s ∧ fieldN r.payload 0 1 = o.val ∧ (((fieldN
     r.payload 1 1) = 0 ∧ (fieldN r.payload 2 2) < 3) ∨ ((fieldN r.payload 1 1) = 1 ∧ 50 ≤ (fieldN r.payload 2 2) ∧ (fieldN
     r.payload 2 2) ≤ 960)) ∧ 1 ≤ fieldN r.payload 4 2 ∧ fieldN r.payload 4 2 ≤ 60 ∧ fieldN r.payload 6 2 = 0 ∧ s.cis.lifecycle =
     3 ∧ (sessOf s o).state = .s0) ∧
    (∃ (s : State) (o : Outlet) (r : Request), Admitted (opLen 0x0503 [clsN] 8) r s ∧ fieldN r.payload 0 1 = o.val ∧ (((fieldN
     r.payload 1 1) = 0 ∧ (fieldN r.payload 2 2) < 3) ∨ ((fieldN r.payload 1 1) = 1 ∧ 50 ≤ (fieldN r.payload 2 2) ∧ (fieldN
     r.payload 2 2) ≤ 960)) ∧ 1 ≤ fieldN r.payload 4 2 ∧ fieldN r.payload 4 2 ≤ 60 ∧ fieldN r.payload 6 2 = 0 ∧ (s.cis.lifecycle ≠
     3 ∨ (sessOf s o).state ≠ .s0)) ∧
    (∃ (s : State) (o : Outlet), (s.link.get o).test = true) :=
  ⟨⟨4000, by decide +kernel⟩,
   ⟨1000, by decide +kernel⟩,
   ⟨-12000, by decide +kernel⟩,
   ⟨{ on with link.o0.gen := .static12, link.o0.matching.inRetry := false, link.o0.matching.step := 0 }, 0, 1500, by
    decide +kernel⟩,
   ⟨{ on with cfg.recs := [rec 0x0601 0 (patch (zeros 48) [(1, leBytes 1 3)])] }, 0, by decide +kernel⟩,
   ⟨{ on with power.phase := .charging }, 0, by decide +kernel⟩,
   ⟨on, 0, by decide +kernel⟩,
   ⟨{ on with link.o0.matching.inRetry := true }, 0, by decide +kernel⟩,
   ⟨{ on with power.state := .hold }, by decide +kernel⟩,
   ⟨{ on with cis.lifecycle := 3, sess.out.o0.state := .s0 }, 0, sign 0x0503 (req clsN (patch (zeros 8) [(4, leBytes 2 60)])) _,
    ready_admitted (by decide +kernel), by decide +kernel⟩,
   ⟨{ on with cis.lifecycle := 2 }, 0, sign 0x0503 (req clsN (patch (zeros 8) [(4, leBytes 2 60)])) _, ready_admitted (by
    decide +kernel), by decide +kernel⟩,
   ⟨{ on with link.o0.test := true }, 0, by decide +kernel⟩⟩

theorem test_hypotheses_MatchingCommands_1 :
    (∃ (s : State) (o : Outlet), up s = true ∧ (s.link.get o).matching.step = 1) ∧
    (∃ (s : State) (o : Outlet), (s.link.get o).matching.step ≠ 1) ∧
    (∃ (s : State) (o : Outlet) (id : BitVec 64), up s = true ∧ (s.link.get o).matching.runId = some id ∧ (s.link.get
     o).matching.step = 2) ∧
    (∃ (s : State) (o : Outlet) (id : BitVec 64), up s = true ∧ (s.link.get o).matching.runId = some id ∧ ((s.link.get
     o).matching.step = 3 ∨ (s.link.get o).matching.step = 4) ∧ (s.link.get o).matching.sounds < 10) ∧
    (∃ (s : State) (o : Outlet) (id : BitVec 64), up s = true ∧ (s.link.get o).matching.runId = some id ∧ (s.link.get
     o).matching.step = 5) ∧
    (∃ (s : State) (o : Outlet) (id : BitVec 64), up s = true ∧ (s.link.get o).matching.runId = some id ∧ (s.link.get
     o).matching.step = 6) ∧
    (∃ (s : State) (o : Outlet) (id : BitVec 64), (up s = false ∨ (s.link.get o).matching.runId ≠ some id ∨ (s.link.get
     o).matching.step ≠ 2)) ∧
    (∃ (s : State) (o : Outlet) (id : BitVec 64), (up s = false ∨ (s.link.get o).matching.runId ≠ some id ∨ 10 ≤ (s.link.get
     o).matching.sounds ∨ ((s.link.get o).matching.step ≠ 3 ∧ (s.link.get o).matching.step ≠ 4))) ∧
    (∃ (s : State) (o : Outlet) (id : BitVec 64), (up s = false ∨ (s.link.get o).matching.runId ≠ some id ∨ (s.link.get
     o).matching.step ≠ 5)) ∧
    (∃ (s : State) (o : Outlet) (id : BitVec 64), (up s = false ∨ (s.link.get o).matching.runId ≠ some id ∨ (s.link.get
     o).matching.step ≠ 6)) ∧
    (∃ (s : State) (o : Outlet), up s = true ∧ ((s.link.get o).matching.step = 3 ∨ (s.link.get o).matching.step = 4) ∧ (s.link.get
     o).matching.sounds ≠ 0) ∧
    (∃ (s : State) (o : Outlet), up s = true ∧ ((s.link.get o).matching.step = 3 ∨ (s.link.get o).matching.step = 4) ∧ (s.link.get
     o).matching.sounds = 0) :=
  ⟨⟨{ on with link.o0.matching.step := 1 }, 0, by decide +kernel⟩,
   ⟨on, 0, by decide +kernel⟩,
   ⟨{ on with link.o0.matching.runId := some 7, link.o0.matching.step := 2 }, 0, 7, by decide +kernel⟩,
   ⟨{ on with link.o0.matching.runId := some 7, link.o0.matching.step := 3 }, 0, 7, by decide +kernel⟩,
   ⟨{ on with link.o0.matching.runId := some 7, link.o0.matching.step := 5 }, 0, 7, by decide +kernel⟩,
   ⟨{ on with link.o0.matching.runId := some 7, link.o0.matching.step := 6 }, 0, 7, by decide +kernel⟩,
   ⟨{ on with power.phase := .charging }, 0, 7, by decide +kernel⟩,
   ⟨on, 0, 7, by decide +kernel⟩,
   ⟨{ on with power.phase := .charging }, 0, 7, by decide +kernel⟩,
   ⟨{ on with power.phase := .charging }, 0, 7, by decide +kernel⟩,
   ⟨{ on with link.o0.matching.step := 3, link.o0.matching.sounds := 1 }, 0, by decide +kernel⟩,
   ⟨{ on with link.o0.matching.step := 3, link.o0.matching.sounds := 0 }, 0, by decide +kernel⟩⟩

theorem test_hypotheses_MatchingCommands_2 :
    (∃ (s : State) (o : Outlet), up s = true ∧ (s.link.get o).matching.step = 7) ∧
    (∃ (s : State) (o : Outlet), (s.link.get o).matching.step ≠ 7) ∧
    (∃ (s : State) (o : Outlet), up s = true ∧ (s.link.get o).matching.step ≠ 0) ∧
    (∃ (s : State) (o : Outlet), (s.link.get o).matching.step = 0) ∧
    (∃ (s : State) (o : Outlet), up s = true ∧ (s.link.get o).matching.inRetry = true) ∧
    (∃ (s : State) (o : Outlet), (s.link.get o).matching.inRetry = false) ∧
    (∃ (s : State) (o : Outlet) (mac : BitVec 48) (x : _), up s = true ∧ outletType s o.val = 2 ∧ (s.link.get o).t1sMac = some x ∧
     x ≠ mac) ∧
    (∃ (s : State) (o : Outlet) (mac : BitVec 48), up s = true ∧ outletType s o.val = 2 ∧ (s.link.get o).t1sMac = some mac) ∧
    (∃ (s : State) (o : Outlet), up s = true ∧ outletType s o.val = 2 ∧ (s.link.get o).t1sMac = none ∧ (s.link.get o).gen = .duty
     50 ∧ pilotBcd s o = true) ∧
    (∃ (s : State) (o : Outlet), outletType s o.val ≠ 2) ∧
    (∃ (s : State) (o : Outlet), up s = true ∧ (s.link.get o).link = 2) ∧
    (∃ (s : State) (o : Outlet), (s.link.get o).link ≠ 2) :=
  ⟨⟨{ on with link.o0.matching.step := 7 }, 0, by decide +kernel⟩,
   ⟨on, 0, by decide +kernel⟩,
   ⟨{ on with link.o0.matching.step := 1 }, 0, by decide +kernel⟩,
   ⟨{ on with link.o0.matching.step := 0 }, 0, by decide +kernel⟩,
   ⟨{ on with link.o0.matching.inRetry := true }, 0, by decide +kernel⟩,
   ⟨{ on with link.o0.matching.inRetry := false }, 0, by decide +kernel⟩,
   ⟨{ on with link.o0.t1sMac := some default, cfg.recs := [rec 0x0601 0 (patch (zeros 48) [(1, leBytes 1 2)])] }, 0, 9, default,
    by decide +kernel⟩,
   ⟨{ on with link.o0.t1sMac := some 9, cfg.recs := [rec 0x0601 0 (patch (zeros 48) [(1, leBytes 1 2)])] }, 0, 9, by
    decide +kernel⟩,
   ⟨{ on with link.o0.t1sMac := none, link.o0.gen := .duty 50, link.o0.pilot := some .b, cfg.recs := [rec 0x0601 0 (patch (zeros 48) [(1, leBytes 1 2)])] },
    0, by decide +kernel⟩,
   ⟨{ on with cfg.recs := [rec 0x0601 0 (patch (zeros 48) [(1, leBytes 1 3)])] }, 0, by decide +kernel⟩,
   ⟨{ on with link.o0.link := 2 }, 0, by decide +kernel⟩,
   ⟨on, 0, by decide +kernel⟩⟩

theorem test_hypotheses_MatchingCommands_3 :
    (∃ (o : Outlet) (limit : Bool) (s : State), outletType s o.val = 4 ∧ (s.link.get o).matching.step = 1 ∧ limit = true) ∧
    (∃ (o : Outlet) (limit : Bool) (s : State), outletType s o.val = 4 ∧ ((s.link.get o).matching.step ≠ 1 ∨ limit = false) ∧
     (s.link.get o).pilot ≠ some .a ∧ (s.link.get o).matching.retries = 0) ∧
    (∃ (o : Outlet) (limit : Bool) (s : State), (¬(outletType s o.val = 4 ∧ (s.link.get o).matching.step = 1 ∧ limit = true)) ∧
     (s.link.get o).pilot = some .a) ∧
    (∃ (o : Outlet) (limit : Bool) (s : State), (¬(outletType s o.val = 4 ∧ (s.link.get o).matching.step = 1 ∧ limit = true)) ∧
     (s.link.get o).pilot ≠ some .a ∧ 0 < (s.link.get o).matching.retries) ∧
    (∃ (o : Outlet) (limit : Bool) (s : State), (¬(outletType s o.val = 4 ∧ (s.link.get o).matching.step = 1 ∧ limit = true)) ∧
     (s.link.get o).pilot ≠ some .a ∧ (s.link.get o).matching.retries = 0 ∧ outletType s o.val ≠ 4) :=
  ⟨⟨0, true, { on with link.o0.matching.step := 1, cfg.recs := [rec 0x0601 0 (patch (zeros 48) [(1, leBytes 1 4)])] }, by
    decide +kernel⟩,
   ⟨0, true, { on with link.o0.matching.retries := 0, cfg.recs := [rec 0x0601 0 (patch (zeros 48) [(1, leBytes 1 4)])] }, by
    decide +kernel⟩,
   ⟨0, true, { on with link.o0.matching.step := 1, link.o0.pilot := some .a }, by decide +kernel⟩,
   ⟨0, true, { on with link.o0.matching.step := 1, link.o0.matching.retries := 1, link.o0.pilot := some .b }, by decide +kernel⟩,
   ⟨0, true,
    { on with link.o0.matching.step := 1, link.o0.matching.retries := 0, cfg.recs := [rec 0x0601 0 (patch (zeros 48) [(1, leBytes 1 1)])] },
    by decide +kernel⟩⟩

theorem test_hypotheses_ConnectionCommands_1 :
    (∃ (s : State) (o : Outlet) (sec : Nat) (b : _), sdpSecurity s o sec = some b ∧ up s = true ∧ (s.link.get o).link = 2) ∧
    (∃ (s : State) (o : Outlet) (sec : Nat), (sdpSecurity s o sec = none ∨ up s = false ∨ (s.link.get o).link ≠ 2)) ∧
    (∃ (s : State) (o : Outlet), up s = true ∧ (s.link.get o).link = 2 ∧ (s.link.get o).tcpPort ≠ 0 ∧ (s.link.get o).tcpOpen =
     true) ∧
    (∃ (s : State) (o : Outlet), up s = true ∧ (s.link.get o).link = 2 ∧ (s.link.get o).tcpPort ≠ 0 ∧ (s.link.get o).tcpOpen =
     false) ∧
    (∃ (s : State) (o : Outlet), (up s = false ∨ (s.link.get o).link ≠ 2 ∨ (s.link.get o).tcpPort = 0)) ∧
    (∃ (s : State) (o : Outlet), (up s = false ∨ (s.link.get o).tcpOpen = false)) ∧
    (∃ (s : State), up s = false) ∧
    (∃ (s : State) (o : Outlet) (x : TlsOffer), up s = true ∧ (s.link.get o).tcpOpen = true ∧ tlsPasses s o x = none) ∧
    (∃ (s : State) (o : Outlet) (c : Instr) (row : Nat) (on : Bool) (stopped : Timers), up s = true ∧ on = true ∧ (row = 2 →
     outletType s o.val ≠ 4) ∧ (c, row, on, stopped) ∈ ([(.v2gSeccSequenceTimeout o, 1, (s.link.get o).timers.sequence,
     { (s.link.get o).timers with sequence := false }), (.communicationsetupTimeout o, 2, (s.link.get o).timers.commSetup,
     { (s.link.get o).timers with commSetup := false }), (.readytochargeTimeout o, 3, (s.link.get o).timers.ready,
     { (s.link.get o).timers with ready := false }), (.cpstateDetectionTimeout o, 4, (s.link.get o).timers.cpState,
     { (s.link.get o).timers with cpState := false }), (.tcpConnectionWaitTimeout o, 5, (s.link.get o).timers.tcpWait,
     { (s.link.get o).timers with tcpWait := false }), (.responseTimeout o true, 6, (s.link.get o).timers.respLoop,
     { (s.link.get o).timers with respLoop := false })] : List (Instr × Nat × Bool × Timers))) ∧
    (∃ (s : State) (o : Outlet), up s = true ∧ (s.link.get o).timers.commSetup = true ∧ outletType s o.val = 4) ∧
    (∃ (s : State) (o : Outlet), up s = true ∧ (s.link.get o).timers.respOther = true) ∧
    (∃ (s : State), domainRuns s = true) :=
  ⟨⟨{ on with link.o0.link := 2, cfg.recs := [rec 0x0601 0 (patch (zeros 48) [(1, leBytes 1 1)])] }, 0, 0x10, 0x10, by
    decide +kernel⟩,
   ⟨on, 0, 0, by decide +kernel⟩,
   ⟨{ on with link.o0.link := 2, link.o0.tcpPort := 1, link.o0.tcpOpen := true }, 0, by decide +kernel⟩,
   ⟨{ on with link.o0.link := 2, link.o0.tcpPort := 1, link.o0.tcpOpen := false }, 0, by decide +kernel⟩,
   ⟨{ on with power.phase := .charging }, 0, by decide +kernel⟩,
   ⟨{ on with power.phase := .charging }, 0, by decide +kernel⟩,
   ⟨{ on with power.phase := .charging }, by decide +kernel⟩,
   ⟨{ on with link.o0.tcpOpen := true }, 0, ⟨true, true, true, none, 0⟩, by decide +kernel⟩,
   ⟨{ on with link.o0.timers.commSetup := true }, 0, .communicationsetupTimeout 0, 2, true, _, rfl, rfl, fun _ => by decide,
    List.Mem.tail _ (List.Mem.head _)⟩,
   ⟨{ on with link.o0.timers.commSetup := true, cfg.recs := [rec 0x0601 0 (patch (zeros 48) [(1, leBytes 1 4)])] }, 0, by
    decide +kernel⟩,
   ⟨{ on with link.o0.timers.respOther := true }, 0, by decide +kernel⟩,
   ⟨on, by decide +kernel⟩⟩

theorem test_hypotheses_ConnectionCommands_2 :
    (∃ (s : State), domainRuns s = false) ∧
    (∃ (s : State) (o : Outlet), up s = true ∧ (sessOf s o).state.running = true ∧ dutyOutlet s o = false) ∧
    (∃ (s : State) (o : Outlet), up s = true ∧ (sessOf s o).state.running = true ∧ dutyOutlet s o = true) ∧
    (∃ (s : State) (o : Outlet), (up s = false ∨ (sessOf s o).state.running = false)) :=
  ⟨⟨{ on with power.state := .hold }, by decide +kernel⟩,
   ⟨{ on with sess.out.o0.state := .s2 }, 0, by decide +kernel⟩,
   ⟨{ on with sess.out.o0.state := .s8, cfg.recs := [rec 0x0601 0 (patch (zeros 48) [(1, leBytes 1 3)])] }, 0, by decide +kernel⟩,
   ⟨{ on with power.phase := .charging }, 0, by decide +kernel⟩⟩

theorem test_hypotheses_MessageAnswered :
    (∃ (s : State) (o : Outlet) (ev : List Byte) (k st dy : Bool) (e : EnergyService) (ct : Contract) (oc : Option Contract) (p :
     EvParams) (a b v : Nat) (c : Instr) (msg : Nat) (defined : Protocol → Bool), (c, msg, defined) ∈ ([(.sessionSetup o ev, 1,
     fun _ => true), (.serviceDiscovery o, 2, fun _ => true), (.sessionStop o, 3, fun _ => true), (.serviceDetail o k, 4, fun x =>
     x ≠ .din), (.paymentServiceSelection o k e dy, 5, fun _ => true), (.paymentDetails o ct, 6, fun x => x = .iso2),
     (.authorizationSetup o, 7, fun x => x = .iso20), (.authorization o oc, 8, fun _ => true), (.chargeParameterDiscovery o p, 9,
     fun _ => true), (.scheduleExchange o dy, 10, fun x => x = .iso20), (.cableCheck o, 11, fun _ => isDc s o.val), (.preCharge o
     v, 12, fun _ => isDc s o.val), (.weldingDetection o, 13, fun _ => isDc s o.val), (.powerDelivery o st, 14, fun _ => true),
     (.currentDemand o v a b, 15, fun _ => isDc s o.val), (.chargingStatus o, 16, fun x => isAc s o.val && decide (x ≠ .din)),
     (.meteringReceipt o, 17, fun x => x ≠ .din), (.certificateInstallation o, 18, fun x => x ≠ .din), (.certificateUpdate o, 19,
     fun x => x = .iso2), (.unsupportedMessage o, 20, fun x => x = .iso20)] : List (Instr × Nat × (Protocol → Bool))) ∧ (up s =
     false ∨ (s.link.get o).tcpOpen = false)) ∧
    (∃ (s : State) (o : Outlet) (ev : List Byte) (k st dy : Bool) (e : EnergyService) (ct : Contract) (oc : Option Contract) (p :
     EvParams) (a b v : Nat) (c : Instr) (msg : Nat) (defined : Protocol → Bool), (c, msg, defined) ∈ ([(.sessionSetup o ev, 1,
     fun _ => true), (.serviceDiscovery o, 2, fun _ => true), (.sessionStop o, 3, fun _ => true), (.serviceDetail o k, 4, fun x =>
     x ≠ .din), (.paymentServiceSelection o k e dy, 5, fun _ => true), (.paymentDetails o ct, 6, fun x => x = .iso2),
     (.authorizationSetup o, 7, fun x => x = .iso20), (.authorization o oc, 8, fun _ => true), (.chargeParameterDiscovery o p, 9,
     fun _ => true), (.scheduleExchange o dy, 10, fun x => x = .iso20), (.cableCheck o, 11, fun _ => isDc s o.val), (.preCharge o
     v, 12, fun _ => isDc s o.val), (.weldingDetection o, 13, fun _ => isDc s o.val), (.powerDelivery o st, 14, fun _ => true),
     (.currentDemand o v a b, 15, fun _ => isDc s o.val), (.chargingStatus o, 16, fun x => isAc s o.val && decide (x ≠ .din)),
     (.meteringReceipt o, 17, fun x => x ≠ .din), (.certificateInstallation o, 18, fun x => x ≠ .din), (.certificateUpdate o, 19,
     fun x => x = .iso2), (.unsupportedMessage o, 20, fun x => x = .iso20)] : List (Instr × Nat × (Protocol → Bool))) ∧ up s =
     true ∧ (s.link.get o).tcpOpen = true ∧ (s.link.get o).protocol = none) ∧
    (∃ (s : State) (o : Outlet) (ev : List Byte) (k st dy : Bool) (e : EnergyService) (ct : Contract) (oc : Option Contract) (p :
     EvParams) (a b v : Nat) (c : Instr) (msg : Nat) (defined : Protocol → Bool) (q : Protocol), (c, msg, defined) ∈
     ([(.sessionSetup o ev, 1, fun _ => true), (.serviceDiscovery o, 2, fun _ => true), (.sessionStop o, 3, fun _ => true),
     (.serviceDetail o k, 4, fun x => x ≠ .din), (.paymentServiceSelection o k e dy, 5, fun _ => true), (.paymentDetails o ct, 6,
     fun x => x = .iso2), (.authorizationSetup o, 7, fun x => x = .iso20), (.authorization o oc, 8, fun _ => true),
     (.chargeParameterDiscovery o p, 9, fun _ => true), (.scheduleExchange o dy, 10, fun x => x = .iso20), (.cableCheck o, 11, fun
     _ => isDc s o.val), (.preCharge o v, 12, fun _ => isDc s o.val), (.weldingDetection o, 13, fun _ => isDc s o.val),
     (.powerDelivery o st, 14, fun _ => true), (.currentDemand o v a b, 15, fun _ => isDc s o.val), (.chargingStatus o, 16, fun x
     => isAc s o.val && decide (x ≠ .din)), (.meteringReceipt o, 17, fun x => x ≠ .din), (.certificateInstallation o, 18, fun x =>
     x ≠ .din), (.certificateUpdate o, 19, fun x => x = .iso2), (.unsupportedMessage o, 20, fun x => x = .iso20)] : List (Instr ×
     Nat × (Protocol → Bool))) ∧ up s = true ∧ domainRuns s = false ∧ (s.link.get o).tcpOpen = true ∧ (s.link.get o).protocol =
     some q ∧ defined q = true ∧ msg ≠ 15 ∧ msg ≠ 16) ∧
    (∃ (s : State) (o : Outlet) (ev : List Byte) (k st dy : Bool) (e : EnergyService) (ct : Contract) (oc : Option Contract) (p :
     EvParams) (a b v : Nat) (c : Instr) (msg : Nat) (defined : Protocol → Bool) (q : Protocol), (c, msg, defined) ∈
     ([(.sessionSetup o ev, 1, fun _ => true), (.serviceDiscovery o, 2, fun _ => true), (.sessionStop o, 3, fun _ => true),
     (.serviceDetail o k, 4, fun x => x ≠ .din), (.paymentServiceSelection o k e dy, 5, fun _ => true), (.paymentDetails o ct, 6,
     fun x => x = .iso2), (.authorizationSetup o, 7, fun x => x = .iso20), (.authorization o oc, 8, fun _ => true),
     (.chargeParameterDiscovery o p, 9, fun _ => true), (.scheduleExchange o dy, 10, fun x => x = .iso20), (.cableCheck o, 11, fun
     _ => isDc s o.val), (.preCharge o v, 12, fun _ => isDc s o.val), (.weldingDetection o, 13, fun _ => isDc s o.val),
     (.powerDelivery o st, 14, fun _ => true), (.currentDemand o v a b, 15, fun _ => isDc s o.val), (.chargingStatus o, 16, fun x
     => isAc s o.val && decide (x ≠ .din)), (.meteringReceipt o, 17, fun x => x ≠ .din), (.certificateInstallation o, 18, fun x =>
     x ≠ .din), (.certificateUpdate o, 19, fun x => x = .iso2), (.unsupportedMessage o, 20, fun x => x = .iso20)] : List (Instr ×
     Nat × (Protocol → Bool))) ∧ up s = true ∧ (s.link.get o).tcpOpen = true ∧ (s.link.get o).protocol = some q ∧ defined q =
     false) ∧
    (∃ (s : State) (o : Outlet) (msg : Nat), domainRuns s = true ∧ (s.link.get o).held = some msg ∧ (s.link.get o).heldLate =
     false) ∧
    (∃ (s : State) (o : Outlet) (msg : Nat), domainRuns s = true ∧ (s.link.get o).held = some msg ∧ (s.link.get o).heldLate = true) ∧
    (∃ (s : State) (o : Outlet), (domainRuns s = false ∨ (s.link.get o).held = none)) :=
  ⟨⟨on, 0, [], true, true, true, .dc, ⟨[], []⟩, none, evZero, 0, 0, 0, _, _, _, List.Mem.head _, by decide⟩,
   ⟨{ on with link.o0.tcpOpen := true }, 0, [], true, true, true, .dc, ⟨[], []⟩, none, evZero, 0, 0, 0, _, _, _, List.Mem.head _,
    by decide⟩,
   ⟨{ on with power.state := .hold, link.o0.tcpOpen := true, link.o0.protocol := some .iso2 }, 0, [], true, true, true, .dc, ⟨[],
    []⟩, none, evZero, 0, 0, 0, _, _, _, .iso2, List.Mem.head _, by decide, by decide, rfl, rfl, rfl, by decide, by decide⟩,
   ⟨{ on with link.o0.tcpOpen := true, link.o0.protocol := some .din }, 0, [], true, true, true, .dc, ⟨[], []⟩, none, evZero, 0,
    0, 0, _, _, _, .din, List.Mem.tail _ (List.Mem.tail _ (List.Mem.tail _ (List.Mem.head _))), by decide, rfl, rfl, rfl⟩,
   ⟨{ on with link.o0.held := some 0, link.o0.heldLate := false }, 0, 0, by decide +kernel⟩,
   ⟨{ on with link.o0.held := some 0, link.o0.heldLate := true }, 0, 0, by decide +kernel⟩,
   ⟨{ on with power.state := .hold }, 0, by decide +kernel⟩⟩

theorem test_hypotheses_SetupMessages :
    (∃ (s : State) (o : Outlet), (up s = false ∨ (s.link.get o).tcpOpen = false)) ∧
    (∃ (s : State) (o : Outlet), up s = true ∧ (s.link.get o).tcpOpen = true ∧ (s.link.get o).protocol ≠ none) ∧
    (∃ (s : State) (o : Outlet) (offers : List AppOffer), up s = true ∧ (s.link.get o).tcpOpen = true ∧ (s.link.get o).protocol =
     none ∧ offersTaken s o offers = []) ∧
    (∃ (s : State) (o : Outlet) (offers : List AppOffer) (a : _), up s = true ∧ (s.link.get o).tcpOpen = true ∧ (s.link.get
     o).protocol = none ∧ chooseOffer (linkField s o 2 0 == 1) (offersTaken s o offers) = some a) ∧
    (∃ (s : State) (o : Outlet) (pr : Protocol), pr ≠ .din ∧ domainRuns s = true ∧ (s.link.get o).tcpOpen = true ∧ (s.link.get
     o).protocol = some pr) ∧
    (∃ (s : State) (o : Outlet) (pr : Protocol), pr = .iso2 ∧ (sessOf s o).auth ≠ 1 ∧ (sessOf s o).auth ≠ 3 ∧ domainRuns s = true
     ∧ (s.link.get o).tcpOpen = true ∧ (s.link.get o).protocol = some pr) ∧
    (∃ (s : State) (o : Outlet) (pr : Protocol), pr = .iso20 ∧ domainRuns s = true ∧ (s.link.get o).tcpOpen = true ∧ (s.link.get
     o).protocol = some pr) ∧
    (∃ (s : State) (o : Outlet) (pr : Protocol), pr = .iso20 ∧ (sessOf s o).auth = 2) :=
  ⟨⟨{ on with power.phase := .charging }, 0, by decide +kernel⟩,
   ⟨{ on with link.o0.tcpOpen := true, link.o0.protocol := some .iso2 }, 0, by decide +kernel⟩,
   ⟨{ on with link.o0.tcpOpen := true, link.o0.protocol := none }, 0, [], by decide +kernel⟩,
   ⟨{ on with link.o0.tcpOpen := true, link.o0.protocol := none, cfg.recs := [rec 0x0601 0 (patch (zeros 48) [(1, leBytes 1 1)])] },
    0, [⟨.iso2, false, 2, 0, 1, 7⟩], ⟨.iso2, false, 2, 0, 1, 7⟩, by decide +kernel⟩,
   ⟨{ on with link.o0.tcpOpen := true, link.o0.protocol := some .iso2 }, 0, .iso2, by decide +kernel⟩,
   ⟨{ on with link.o0.tcpOpen := true, link.o0.protocol := some .iso2 }, 0, .iso2, by decide +kernel⟩,
   ⟨{ on with link.o0.tcpOpen := true, link.o0.protocol := some .iso20 }, 0, .iso20, by decide +kernel⟩,
   ⟨{ on with sess.out.o0.auth := 2 }, 0, .iso20, by decide +kernel⟩⟩

theorem test_hypotheses_TransferMessages :
    (∃ (s : State) (o : Outlet) (pr : Protocol), isDc s o.val = true ∧ domainRuns s = true ∧ (s.link.get o).tcpOpen = true ∧
     (s.link.get o).protocol = some pr) ∧
    (∃ (s : State) (o : Outlet) (pr : Protocol), isAc s o.val = true ∧ pr ≠ .din ∧ domainRuns s = true ∧ (s.link.get o).tcpOpen =
     true ∧ (s.link.get o).protocol = some pr) ∧
    (∃ (s : State) (o : Outlet) (pr : Protocol), up s = true ∧ domainRuns s = false ∧ (s.link.get o).tcpOpen = true ∧ (s.link.get
     o).protocol = some pr ∧ isDc s o.val = true) ∧
    (∃ (s : State) (o : Outlet) (pr : Protocol), up s = true ∧ domainRuns s = false ∧ (s.link.get o).tcpOpen = true ∧ (s.link.get
     o).protocol = some pr ∧ isAc s o.val = true ∧ pr ≠ .din) ∧
    (∃ (s : State) (o : Outlet), domainRuns s = true ∧ (sessOf s o).state = .s4 ∧ (sessOf s o).setpoint.mode = 1 ∧
     ((s.hedge.out.get o).imd.status = .valid ∨ (s.hedge.out.get o).imd.status = .warning)) ∧
    (∃ (s : State) (o : Outlet), (domainRuns s = false ∨ (sessOf s o).state ≠ .s4 ∨ (sessOf s o).setpoint.mode ≠ 1)) ∧
    (∃ (s : State) (o : Outlet) (pr : Protocol), pr = .iso2 ∧ domainRuns s = true ∧ (s.link.get o).tcpOpen = true ∧ (s.link.get
     o).protocol = some pr) ∧
    (∃ (s : State) (o : Outlet) (pr : Protocol), pr = .iso20 ∧ domainRuns s = true ∧ (s.link.get o).tcpOpen = true ∧ (s.link.get
     o).protocol = some pr) :=
  ⟨⟨{ on with link.o0.tcpOpen := true, link.o0.protocol := some .iso2, cfg.recs := [rec 0x0601 0 (patch (zeros 48) [(1, leBytes 1 1)])] },
    0, .iso2, by decide +kernel⟩,
   ⟨{ on with link.o0.tcpOpen := true, link.o0.protocol := some .iso2, cfg.recs := [rec 0x0601 0 (patch (zeros 48) [(1, leBytes 1 3)])] },
    0, .iso2, by decide +kernel⟩,
   ⟨{ on with power.state := .hold, link.o0.tcpOpen := true, link.o0.protocol := some .iso2, cfg.recs := [rec 0x0601 0 (patch (zeros 48) [(1, leBytes 1 1)])] },
    0, .iso2, by decide +kernel⟩,
   ⟨{ on with power.state := .hold, link.o0.tcpOpen := true, link.o0.protocol := some .iso2, cfg.recs := [rec 0x0601 0 (patch (zeros 48) [(1, leBytes 1 3)])] },
    0, .iso2, by decide +kernel⟩,
   ⟨{ on with sess.out.o0.state := .s4, sess.out.o0.setpoint.mode := 1, hedge.out.o0.imd.status := .valid }, 0, by
    decide +kernel⟩,
   ⟨{ on with power.state := .hold }, 0, by decide +kernel⟩,
   ⟨{ on with link.o0.tcpOpen := true, link.o0.protocol := some .iso2 }, 0, .iso2, by decide +kernel⟩,
   ⟨{ on with link.o0.tcpOpen := true, link.o0.protocol := some .iso20 }, 0, .iso20, by decide +kernel⟩⟩

theorem test_hypotheses_SessionRules_1 :
    (∃ (s : State) (o : Outlet), ((sessOf s o).setpoint).mode = 3 ∧ ((sessOf s o).setpoint).current ≤ 0 ∧ ((sessOf s
     o).setpoint).current ≤ -(10000 * rampRate s o)) ∧
    (∃ (s : State) (o : Outlet), ((sessOf s o).setpoint).mode = 3 ∧ ((sessOf s o).setpoint).current ≤ 0 ∧ -(10000 * rampRate s o)
     ≤ ((sessOf s o).setpoint).current) ∧
    (∃ (s : State) (o : Outlet), ((sessOf s o).setpoint).mode ≠ 3 ∧ 0 ≤ ((sessOf s o).setpoint).current ∧ (10000 * rampRate s o) ≤
     ((sessOf s o).setpoint).current) ∧
    (∃ (s : State) (o : Outlet), ((sessOf s o).setpoint).mode ≠ 3 ∧ 0 ≤ ((sessOf s o).setpoint).current ∧ ((sessOf s
     o).setpoint).current ≤ (10000 * rampRate s o)) ∧
    (∃ (s : State) (o : Outlet) (cause : Nat), causeApplies s o cause = true ∧ ((sessOf s o).state = .s2 ∨ (sessOf s o).state =
     .s3) ∧ cause ∈ [4, 8, 9, 10, 11, 12, 13, 14, 15, 19] ∧ (sessOf s o).closed = false) ∧
    (∃ (s : State) (o : Outlet) (cause : Nat), causeApplies s o cause = true ∧ ((sessOf s o).state = .s1 ∨ (sessOf s o).state =
     .s2 ∨ (sessOf s o).state = .s3) ∧ cause = 3) ∧
    (∃ (s : State) (o : Outlet) (cause : Nat), causeApplies s o cause = true ∧ ((sessOf s o).state = .s4 ∨ (sessOf s o).state =
     .s5 ∨ (sessOf s o).state = .s6) ∧ cause ∈ [5, 6, 7, 8, 9, 10, 11, 12, 13, 15, 16, 17]) ∧
    (∃ (s : State) (o : Outlet) (cause : Nat), causeApplies s o cause = true ∧ ((sessOf s o).state = .s0 ∨ (sessOf s o).state =
     .s8 ∨ (sessOf s o).state = .s9 ∨ (sessOf s o).state = .se)) ∧
    (∃ (s : State) (o : Outlet) (cause : Nat) (y : _), causeApplies s o cause = true ∧ y ≠ o) ∧
    (∃ (s : State) (o : Outlet), (sessOf s o).closed = true) ∧
    (∃ (s : State) (o : Outlet), (sessOf s o).closed = false ∧ (s.link.get o).matching.inRetry = false) ∧
    (∃ (s : State) (o : Outlet) (y : _), (sessOf s o).closed = false ∧ y ≠ o) :=
  ⟨⟨{ on with sess.out.o0.setpoint := ⟨3, 0, -100000, 0⟩ }, 0, by decide +kernel⟩,
   ⟨{ on with sess.out.o0.setpoint.mode := 3 }, 0, by decide +kernel⟩,
   ⟨{ on with sess.out.o0.setpoint := ⟨2, 0, 100000, 0⟩ }, 0, by decide +kernel⟩,
   ⟨on, 0, by decide +kernel⟩,
   ⟨{ on with sess.out.o0.state := .s2, sess.out.o0.closed := false }, 0, 19, by decide +kernel⟩,
   ⟨{ on with sess.out.o0.state := .s1 }, 0, 3, by decide +kernel⟩,
   ⟨{ on with sess.out.o0.state := .s4 }, 0, 17, by decide +kernel⟩,
   ⟨{ on with sess.out.o0.state := .s0 }, 0, 0, by decide +kernel⟩,
   ⟨on, 0, 0, 1, by decide +kernel⟩,
   ⟨{ on with sess.out.o0.closed := true }, 0, by decide +kernel⟩,
   ⟨{ on with sess.out.o0.closed := false, link.o0.matching.inRetry := false }, 0, by decide +kernel⟩,
   ⟨{ on with sess.out.o0.closed := false }, 0, 1, by decide +kernel⟩⟩

theorem test_hypotheses_SessionRules_2 :
    ∃ (s : State) (o : Outlet), outletType s o.val ≠ 0 :=
  ⟨{ on with cfg.recs := [rec 0x0601 0 (patch (zeros 48) [(1, leBytes 1 1)])] }, 0, by decide +kernel⟩

theorem test_hypotheses_AuthorisationCommands_1 :
    (∃ (s : State) (o : Outlet), domainRuns s = true ∧ identifying s o = true) ∧
    (∃ (s : State) (o : Outlet), (domainRuns s = false ∨ identifying s o = false)) ∧
    (∃ (s : State) (o : Outlet), domainRuns s = true ∧ (sessOf s o).query = .pending) ∧
    (∃ (s : State) (o : Outlet), (domainRuns s = false ∨ (sessOf s o).query ≠ .pending)) ∧
    (∃ (s : State) (r : Request), Admitted (opLen 0x0602 [clsH, clsN] 16) r s ∧ fieldN r.payload 4 1 < 2 ∧ fieldN r.payload 5 1 =
     0 ∧ 0 ≤ fieldI r.payload 8 8 ∧ outletOf s (fieldN r.payload 0 4) = none) ∧
    (∃ (s : State) (o : Outlet) (r : Request), Admitted (opLen 0x0602 [clsH, clsN] 16) r s ∧ fieldN r.payload 4 1 < 2 ∧ fieldN
     r.payload 5 1 = 0 ∧ 0 ≤ fieldI r.payload 8 8 ∧ outletOf s (fieldN r.payload 0 4) = some o ∧ (sessOf s o).query = .pending) ∧
    (∃ (s : State) (o : Outlet) (r : Request), Admitted (opLen 0x0602 [clsH, clsN] 16) r s ∧ fieldN r.payload 4 1 < 2 ∧ fieldN
     r.payload 5 1 = 0 ∧ 0 ≤ fieldI r.payload 8 8 ∧ outletOf s (fieldN r.payload 0 4) = some o ∧ (sessOf s o).query = .byPolicy) ∧
    (∃ (s : State) (o : Outlet) (r : Request), Admitted (opLen 0x0602 [clsH, clsN] 16) r s ∧ fieldN r.payload 4 1 < 2 ∧ fieldN
     r.payload 5 1 = 0 ∧ 0 ≤ fieldI r.payload 8 8 ∧ outletOf s (fieldN r.payload 0 4) = some o ∧ (sessOf s o).query = .answered) ∧
    (∃ (s : State) (o : Outlet) (r : Request), Admitted (opLen 0x0602 [clsH, clsN] 16) r s ∧ fieldN r.payload 4 1 < 2 ∧ fieldN
     r.payload 5 1 = 0 ∧ 0 ≤ fieldI r.payload 8 8 ∧ outletOf s (fieldN r.payload 0 4) = some o ∧ (sessOf s o).query = .none ∧
     (sessOf s o).informational = false) ∧
    (∃ (s : State) (o : Outlet) (r : Request), Admitted (opLen 0x0602 [clsH, clsN] 16) r s ∧ fieldN r.payload 4 1 < 2 ∧ fieldN
     r.payload 5 1 = 0 ∧ 0 ≤ fieldI r.payload 8 8 ∧ outletOf s (fieldN r.payload 0 4) = some o ∧ (sessOf s o).query = .none ∧
     (sessOf s o).informational = true ∧ fieldN r.payload 4 1 = 0) ∧
    (∃ (s : State) (o : Outlet) (r : Request), Admitted (opLen 0x0602 [clsH, clsN] 16) r s ∧ fieldN r.payload 4 1 < 2 ∧ fieldN
     r.payload 5 1 = 0 ∧ 0 ≤ fieldI r.payload 8 8 ∧ outletOf s (fieldN r.payload 0 4) = some o ∧ (sessOf s o).query = .none ∧
     (sessOf s o).informational = true ∧ fieldN r.payload 4 1 = 1) ∧
    (∃ (s : State) (o : Outlet) (r : Request), Admitted (opLen 0x0603 [clsN] 12) r s ∧ fieldN r.payload 0 1 = o.val ∧ fieldN
     r.payload 1 1 = 0 ∧ 0 ≤ fieldI r.payload 4 8 ∧ identOption s o 1 = false) :=
  ⟨⟨{ on with sess.out.o0.state := .s2, sess.out.o0.auth := 1 }, 0, by decide +kernel⟩,
   ⟨{ on with power.state := .hold }, 0, by decide +kernel⟩,
   ⟨{ on with sess.out.o0.query := .pending }, 0, by decide +kernel⟩,
   ⟨{ on with power.state := .hold }, 0, by decide +kernel⟩,
   ⟨on, sign 0x0602 (req clsH (patch (zeros 16) [(4, leBytes 1 1)])) on, ready_admitted (by decide +kernel), by decide +kernel⟩,
   ⟨{ on with sess.out.o0.query := .pending, sess.out.o0.number := 1 }, 0, sign 0x0602 (req clsH (patch (zeros 16) [(4, leBytes 1
    1), (0, leBytes 4 1)])) _, ready_admitted (by decide +kernel), by decide +kernel⟩,
   ⟨{ on with sess.out.o0.query := .byPolicy, sess.out.o0.number := 1 }, 0, sign 0x0602 (req clsH (patch (zeros 16) [(4, leBytes
    1 1), (0, leBytes 4 1)])) _, ready_admitted (by decide +kernel), by decide +kernel⟩,
   ⟨{ on with sess.out.o0.query := .answered, sess.out.o0.number := 1 }, 0, sign 0x0602 (req clsH (patch (zeros 16) [(4, leBytes
    1 1), (0, leBytes 4 1)])) _, ready_admitted (by decide +kernel), by decide +kernel⟩,
   ⟨{ on with sess.out.o0.query := .none, sess.out.o0.informational := false, sess.out.o0.number := 1 }, 0, sign 0x0602 (req clsH
    (patch (zeros 16) [(4, leBytes 1 1), (0, leBytes 4 1)])) _, ready_admitted (by decide +kernel), by decide +kernel⟩,
   ⟨{ on with sess.out.o0.query := .none, sess.out.o0.informational := true, sess.out.o0.number := 1 }, 0, sign 0x0602 (req clsH
    (patch (zeros 16) [(0, leBytes 4 1)])) _, ready_admitted (by decide +kernel), by decide +kernel⟩,
   ⟨{ on with sess.out.o0.query := .none, sess.out.o0.informational := true, sess.out.o0.number := 1 }, 0, sign 0x0602 (req clsH
    (patch (zeros 16) [(4, leBytes 1 1), (0, leBytes 4 1)])) _, ready_admitted (by decide +kernel), by decide +kernel⟩,
   ⟨{ on with cfg.recs := [rec 0x0601 0 (patch (zeros 48) [(19, leBytes 1 1)])] }, 0, sign 0x0603 (req clsN (zeros 12)) _,
    ready_admitted (by decide +kernel), by decide +kernel⟩⟩

theorem test_hypotheses_AuthorisationCommands_2 :
    (∃ (s : State) (o : Outlet) (r : Request), Admitted (opLen 0x0603 [clsN] 12) r s ∧ fieldN r.payload 0 1 = o.val ∧ fieldN
     r.payload 1 1 = 0 ∧ 0 ≤ fieldI r.payload 4 8 ∧ identOption s o 1 = true ∧ 2 < (sessOf s o).state.code) ∧
    (∃ (s : State) (o : Outlet) (r : Request), Admitted (opLen 0x0603 [clsN] 12) r s ∧ fieldN r.payload 0 1 = o.val ∧ fieldN
     r.payload 1 1 = 0 ∧ 0 ≤ fieldI r.payload 4 8 ∧ identOption s o 1 = true ∧ ((sessOf s o).state = .s0 ∨ (sessOf s o).state =
     .s1)) ∧
    (∃ (s : State) (o : Outlet) (r : Request), Admitted (opLen 0x0603 [clsN] 12) r s ∧ fieldN r.payload 0 1 = o.val ∧ fieldN
     r.payload 1 1 = 0 ∧ 0 ≤ fieldI r.payload 4 8 ∧ identOption s o 1 = true ∧ (sessOf s o).state = .s2) ∧
    (∃ (s : State) (o : Outlet) (r : Request), Admitted (opLen 0x0604 [clsH, clsN] 4) r s ∧ fieldN r.payload 0 1 = o.val ∧ fieldN
     r.payload 1 3 = 0 ∧ (sessOf s o).state.running = true) ∧
    (∃ (s : State) (o : Outlet) (r : Request), Admitted (opLen 0x0604 [clsH, clsN] 4) r s ∧ fieldN r.payload 0 1 = o.val ∧ fieldN
     r.payload 1 3 = 0 ∧ (sessOf s o).state.running = false) ∧
    (∃ (s : State) (r : Request), Admitted (opBulk 0x0605 [clsB]) r s ∧ BlockFits sieveMax r.payload ∧ ((fun n => decide (16 ≤ n ∧
     (n - 16) % 16 = 0)) (fieldN r.payload 8 4) = true) ∧ MayOpen s 0x0605 r.port (fieldN r.payload 0 4)) ∧
    (∃ (s : State) (o : Outlet) (r : Request), Admitted (opLen 0x0608 [clsN] 4) r s ∧ fieldN r.payload 0 1 = o.val ∧ fieldN
     r.payload 1 1 < 2 ∧ fieldN r.payload 2 2 = 0) ∧
    (∃ (s : State) (o : Outlet) (r : Request), Admitted (opLen 0x0609 [clsH, clsN] 8) r s ∧ fieldN r.payload 0 1 = o.val ∧ fieldN
     r.payload 1 3 = 0 ∧ bptDynamic (sessOf s o) = true ∧ 0 ≤ fieldI r.payload 4 4) ∧
    (∃ (s : State) (o : Outlet) (r : Request), Admitted (opLen 0x0609 [clsH, clsN] 8) r s ∧ fieldN r.payload 0 1 = o.val ∧ fieldN
     r.payload 1 3 = 0 ∧ bptDynamic (sessOf s o) = true ∧ fieldI r.payload 4 4 < 0 ∧ bptOffered s o = false) ∧
    (∃ (s : State) (o : Outlet) (r : Request), Admitted (opLen 0x0609 [clsH, clsN] 8) r s ∧ fieldN r.payload 0 1 = o.val ∧ fieldN
     r.payload 1 3 = 0 ∧ bptDynamic (sessOf s o) = false) ∧
    (∃ (o : Outlet) (y : _), y ≠ o) ∧
    (∃ (s : State) (o : Outlet), ((sessOf s o).state = .s0 ∨ (sessOf s o).state = .s1 ∨ (sessOf s o).state = .s9)) :=
  ⟨⟨{ on with sess.out.o0.state := .s3 }, 0, sign 0x0603 (req clsN (zeros 12)) _, ready_admitted (by decide +kernel), by
    decide +kernel⟩,
   ⟨{ on with sess.out.o0.state := .s0 }, 0, sign 0x0603 (req clsN (zeros 12)) _, ready_admitted (by decide +kernel), by
    decide +kernel⟩,
   ⟨{ on with sess.out.o0.state := .s2 }, 0, sign 0x0603 (req clsN (zeros 12)) _, ready_admitted (by decide +kernel), by
    decide +kernel⟩,
   ⟨{ on with sess.out.o0.state := .s2 }, 0, sign 0x0604 (req clsH (zeros 4)) _, ready_admitted (by decide +kernel), by
    decide +kernel⟩,
   ⟨on, 0, sign 0x0604 (req clsH (zeros 4)) on, ready_admitted (by decide +kernel), by decide +kernel⟩,
   ⟨on, sign 0x0605 (req clsB (blockOf 1 0 16 (zeros 16))) on, ready_admitted (by decide +kernel), blockFits_of (by
    decide +kernel), by unfold MayOpen; decide +kernel⟩,
   ⟨on, 0, sign 0x0608 (req clsN (patch (zeros 4) [(1, leBytes 1 1)])) on, ready_admitted (by decide +kernel), by decide +kernel⟩,
   ⟨{ on with sess.out.o0.bpt := true, sess.out.o0.dynamic := true, sess.out.o0.closed := false }, 0, sign 0x0609 (req clsH
    (zeros 8)) _, ready_admitted (by decide +kernel), by decide +kernel⟩,
   ⟨{ on with sess.out.o0.bpt := true, sess.out.o0.dynamic := true, sess.out.o0.closed := false }, 0, sign 0x0609 (req clsH
    (patch (zeros 8) [(4, leBytes 4 4294967295)])) _, ready_admitted (by decide +kernel), by decide +kernel⟩,
   ⟨on, 0, sign 0x0609 (req clsH (zeros 8)) on, ready_admitted (by decide +kernel), by decide +kernel⟩,
   ⟨0, 1, by decide +kernel⟩,
   ⟨{ on with sess.out.o0.state := .s0 }, 0, by decide +kernel⟩⟩

theorem test_hypotheses_AuthorisationCommands_3 :
    ∃ (s : State) (o : Outlet), (sessOf s o).state = .s6 :=
  ⟨{ on with sess.out.o0.state := .s6 }, 0, by decide +kernel⟩

theorem test_hypotheses_SessionLimitCommands :
    (∃ (s : State) (o : Outlet), (domainRuns s = false ∨ (sessOf s o).state ≠ .s7)) ∧
    (∃ (s : State) (o : Outlet), domainRuns s = true ∧ (sessOf s o).state = .s7 ∧ isDc s o.val = true) ∧
    (∃ (s : State) (o : Outlet), domainRuns s = true ∧ (sessOf s o).state = .s7 ∧ isDc s o.val = false) ∧
    (∃ (s : State) (o : Outlet), domainRuns s = true ∧ (sessOf s o).state = .s6 ∧ (sessOf s o).paused = true ∧ isAc s o.val = true) ∧
    (∃ (s : State) (o : Outlet), domainRuns s = true ∧ (sessOf s o).state ≠ .s7 ∧ (sessOf s o).state ≠ .s6) ∧
    (∃ (s : State) (o : Outlet), domainRuns s = true ∧ (sessOf s o).state = .s4) ∧
    (∃ (s : State) (o : Outlet), (sessOf s o).state ≠ .s4) ∧
    (∃ (s : State) (o : Outlet), domainRuns s = true ∧ (sessOf s o).state = .s5) ∧
    (∃ (s : State) (o : Outlet), (sessOf s o).state ≠ .s5) ∧
    (∃ (s : State) (o : Outlet), domainRuns s = true ∧ (sessOf s o).state = .s8) ∧
    (∃ (s : State) (o : Outlet), (sessOf s o).state ≠ .s8) :=
  ⟨⟨{ on with power.state := .hold }, 0, by decide +kernel⟩,
   ⟨{ on with sess.out.o0.state := .s7, cfg.recs := [rec 0x0601 0 (patch (zeros 48) [(1, leBytes 1 1)])] }, 0, by decide +kernel⟩,
   ⟨{ on with sess.out.o0.state := .s7 }, 0, by decide +kernel⟩,
   ⟨{ on with sess.out.o0.state := .s6, sess.out.o0.paused := true, cfg.recs := [rec 0x0601 0 (patch (zeros 48) [(1, leBytes 1 3)])] },
    0, by decide +kernel⟩,
   ⟨on, 0, by decide +kernel⟩,
   ⟨{ on with sess.out.o0.state := .s4 }, 0, by decide +kernel⟩,
   ⟨on, 0, by decide +kernel⟩,
   ⟨{ on with sess.out.o0.state := .s5 }, 0, by decide +kernel⟩,
   ⟨on, 0, by decide +kernel⟩,
   ⟨{ on with sess.out.o0.state := .s8 }, 0, by decide +kernel⟩,
   ⟨on, 0, by decide +kernel⟩⟩

theorem test_hypotheses_ConverterCommands_1 :
    (∃ (s : State) (o : Outlet) (f : CanFrame), up s = true ∧ frameOutlets s 8 f = [o] ∧ (readStatus s o f).state ≠ 6) ∧
    (∃ (s : State) (o : Outlet) (f : CanFrame), up s = true ∧ frameOutlets s 8 f = [o] ∧ (readStatus s o f).state = 6 ∧
     (s.sess.conv.get o).state = 6 ∧ domainRuns s = true) ∧
    (∃ (s : State) (f : CanFrame), up s = true ∧ frameOutlets s 8 f = []) ∧
    (∃ (s : State) (o : Outlet) (f : CanFrame), up s = true ∧ frameOutlets s 9 f = [o]) ∧
    (∃ (s : State) (f : CanFrame), frameOutlets s 9 f = []) ∧
    (∃ (s : State), up s = false) ∧
    (∃ (s : State) (o : Outlet), up s = true ∧ isDc s o.val = true ∧ (s.sess.conv.get o).lost = false) ∧
    (∃ (s : State) (o : Outlet), (up s = false ∨ isDc s o.val = false ∨ (s.sess.conv.get o).lost = true)) ∧
    (∃ (s : State) (o : Outlet), up s = true ∧ isDc s o.val = true ∧ ((s.sess.conv.get o).lagLog = none ∨ ∃ y, (s.sess.conv.get
     o).lagLog = some y ∧ y + 60000 ≤ s.clockMs)) ∧
    (∃ (s : State) (o : Outlet) (y : _), up s = true ∧ isDc s o.val = true ∧ (s.sess.conv.get o).lagLog = some y ∧ s.clockMs < y +
     60000) ∧
    (∃ (s : State) (o : Outlet), domainRuns s = true ∧ isDc s o.val = true ∧ gatePasses s o (sessOf s o).setpoint = true) ∧
    (∃ (s : State) (o : Outlet), domainRuns s = true ∧ isDc s o.val = true ∧ gatePasses s o (sessOf s o).setpoint = false) :=
  ⟨⟨{ on with cfg.recs := [rec 0x0601 0 (patch (zeros 48) [(1, leBytes 1 1)])] }, 0, ⟨0, false, 128, zeros 16⟩, by
    decide +kernel⟩,
   ⟨{ on with sess.conv.o0.state := 6, cfg.recs := [rec 0x0601 0 (patch (zeros 48) [(1, leBytes 1 1)])] }, 0, ⟨0, false, 128,
    byte 6 :: zeros 15⟩, by decide +kernel⟩,
   ⟨on, ⟨0, false, 0, []⟩, by decide +kernel⟩,
   ⟨{ on with cfg.recs := [rec 0x0601 0 (patch (zeros 48) [(1, leBytes 1 1)])] }, 0, ⟨0, false, 144, zeros 16⟩, by
    decide +kernel⟩,
   ⟨on, ⟨0, false, 0, []⟩, by decide +kernel⟩,
   ⟨{ on with power.phase := .charging }, by decide +kernel⟩,
   ⟨{ on with sess.conv.o0.lost := false, cfg.recs := [rec 0x0601 0 (patch (zeros 48) [(1, leBytes 1 1)])] }, 0, by
    decide +kernel⟩,
   ⟨{ on with power.phase := .charging }, 0, by decide +kernel⟩,
   ⟨{ on with cfg.recs := [rec 0x0601 0 (patch (zeros 48) [(1, leBytes 1 1)])], sess.conv.o0.lagLog := some 0, clockMs := 60000 },
    0, by decide, by decide +kernel, .inr ⟨0, rfl, by decide⟩⟩,
   ⟨{ on with sess.conv.o0.lagLog := some 1, cfg.recs := [rec 0x0601 0 (patch (zeros 48) [(1, leBytes 1 1)])] }, 0, 1, by
    decide +kernel⟩,
   ⟨{ on with cfg.recs := [rec 0x0601 0 (patch (zeros 48) [(1, leBytes 1 1)])] }, 0, by decide +kernel⟩,
   ⟨{ on with sess.out.o0.setpoint := ⟨1, 0, 0, 0⟩, cfg.recs := [rec 0x0601 0 (patch (zeros 48) [(1, leBytes 1 1)])] }, 0, by
    decide +kernel⟩⟩

theorem test_hypotheses_ConverterCommands_2 :
    (∃ (s : State) (o : Outlet), (domainRuns s = false ∨ isDc s o.val = false)) ∧
    (∃ (s : State) (o : Outlet) (p : Setpoint), domainRuns s = true ∧ isDc s o.val = true ∧ (sessOf s o).setpoint ≠ p) ∧
    (∃ (s : State) (w : _), s.sess.tripWait = some w ∧ up s = true ∧ mapEntries s 0 = []) ∧
    (∃ (s : State) (started : Bool), (s.sess.tripWait = none ∨ up s = false ∨ started = false)) :=
  ⟨⟨{ on with power.state := .hold }, 0, by decide +kernel⟩,
   ⟨{ on with cfg.recs := [rec 0x0601 0 (patch (zeros 48) [(1, leBytes 1 1)])] }, 0, ⟨1, 0, 0, 0⟩, by decide +kernel⟩,
   ⟨{ on with sess.tripWait := some (⟨0, 0, 0⟩) }, ⟨0, 0, 0⟩, by decide +kernel⟩,
   ⟨{ on with sess.tripWait := none }, true, by decide +kernel⟩⟩

theorem test_hypotheses_AllocationCommands :
    (∃ (s : State), domainRuns s = true ∧ allocates s = true) ∧
    (∃ (s : State), domainRuns s = true ∧ allocates s = false ∧ s.trellis.role = 2) ∧
    (∃ (s : State), (domainRuns s = false ∨ (allocates s = false ∧ s.trellis.role ≠ 2))) ∧
    (∃ (s : State) (slot : Slot) (o : Outlet) (w : _) (l₁ : _) (l₂ : _), s.trellis.reductions = l₁ ++ (slot.val, o.val, w) :: l₂ ∧
     (∀ r ∈ l₁, ¬(r.1 = slot.val ∧ r.2.1 = o.val))) ∧
    (∃ (s : State) (slot : Slot) (o : Outlet), (∀ r ∈ s.trellis.reductions, ¬(r.1 = slot.val ∧ r.2.1 = o.val))) ∧
    (∃ (s : State), domainRuns s = true ∧ 3 ≤ s.sess.noAlloc) ∧
    (∃ (s : State), (domainRuns s = false ∨ s.sess.noAlloc < 3)) ∧
    (∃ (s : State), s.sess.siteBudget ≠ none) ∧
    (∃ (s : State), s.sess.siteBudget = none) :=
  ⟨⟨on, by decide +kernel⟩,
   ⟨{ on with trellis.role := 2 }, by decide +kernel⟩,
   ⟨{ on with trellis.role := 1 }, by decide +kernel⟩,
   ⟨{ on with trellis.reductions := [(1, 0, 5)] }, 1, 0, 5, [], [], by decide +kernel⟩,
   ⟨on, 1, 0, by decide +kernel⟩,
   ⟨{ on with sess.noAlloc := 3 }, by decide +kernel⟩,
   ⟨{ on with power.state := .hold }, by decide +kernel⟩,
   ⟨{ on with sess.siteBudget := some 0 }, by decide +kernel⟩,
   ⟨{ on with sess.siteBudget := none }, by decide +kernel⟩⟩

theorem test_hypotheses_ProtectionCommands_1 :
    (∃ (s : State), hedgeLive s = true ∧ block0701 s 0 1 = 1 ∧ s.hedge.openA = false ∧ s.hedge.missA = 0) ∧
    (∃ (s : State), hedgeLive s = true ∧ block0701 s 0 1 = 1 ∧ s.hedge.openA = false ∧ 1 ≤ s.hedge.missA) ∧
    (∃ (s : State), hedgeLive s = true ∧ block0701 s 0 1 ≠ 1) ∧
    (∃ (s : State), hedgeLive s = true ∧ s.hedge.openA ≠ s.hedge.openB) ∧
    (∃ (s : State), hedgeLive s = true ∧ s.hedge.openA = s.hedge.openB) ∧
    (∃ (s : State) (o : Outlet) (ph : Fin 3) (feed : Feed), hedgeLive s = true ∧ hedgeType s o ≠ 0 ∧ (runOf (block0702 s o 2 1)
     (fun x : Int => decide (protCode (block0702 s o 4 4) (fullScale s (if hedgeDc s o = true then 4 * o.val + 1 else 4 * o.val +
     ph.val)) ≤ x.natAbs)) 0 (protSamples s (if hedgeDc s o = true then 4 * o.val + 1 else 4 * o.val + ph.val) feed)) = true) ∧
    (∃ (s : State) (o : Outlet) (ph : Fin 3) (feed : Feed), hedgeLive s = true ∧ hedgeType s o ≠ 0 ∧ (runOf (block0702 s o 2 1)
     (fun x : Int => decide (protCode (block0702 s o 4 4) (fullScale s (if hedgeDc s o = true then 4 * o.val + 1 else 4 * o.val +
     ph.val)) ≤ x.natAbs)) 0 (protSamples s (if hedgeDc s o = true then 4 * o.val + 1 else 4 * o.val + ph.val) feed)) = false) ∧
    (∃ n : Nat, 0 < n) ∧
    (∃ (s : State) (o : Outlet), (s.hedge.out.get o).delaying = true) ∧
    (∃ (s : State) (o : Outlet), (s.hedge.out.get o).delaying = false) ∧
    (∃ (s : State) (o : Outlet) (before : Feed) (feed : Feed), hedgeLive s = true ∧ hedgeAc s o = true ∧ ((sumInt (protSamples s
     (4 * o.val + 3) before ++ protSamples s (4 * o.val + 3) feed) : Rat) / (protSamples s (4 * o.val + 3) before ++ protSamples s
     (4 * o.val + 3) feed).length) * ((sumInt (protSamples s (4 * o.val + 3) before ++ protSamples s (4 * o.val + 3) feed) : Rat)
     / (protSamples s (4 * o.val + 3) before ++ protSamples s (4 * o.val + 3) feed).length) < ((protCode 6 (fullScale s (4 * o.val
     + 3)) : Nat)) * ((protCode 6 (fullScale s (4 * o.val + 3)) : Nat)) ∧ ((sumInt ((protSamples s (4 * o.val + 3) before ++
     protSamples s (4 * o.val + 3) feed).map (fun x => x * x)) : Rat) / (protSamples s (4 * o.val + 3) before ++ protSamples s (4
     * o.val + 3) feed).length - ((sumInt (protSamples s (4 * o.val + 3) before ++ protSamples s (4 * o.val + 3) feed) : Rat) /
     (protSamples s (4 * o.val + 3) before ++ protSamples s (4 * o.val + 3) feed).length) * ((sumInt (protSamples s (4 * o.val +
     3) before ++ protSamples s (4 * o.val + 3) feed) : Rat) / (protSamples s (4 * o.val + 3) before ++ protSamples s (4 * o.val +
     3) feed).length)) < ((protCode 30 (fullScale s (4 * o.val + 3)) : Nat)) * ((protCode 30 (fullScale s (4 * o.val + 3)) : Nat))) ∧
    (∃ (s : State) (o : Outlet) (before : Feed) (feed : Feed), hedgeLive s = true ∧ hedgeAc s o = true ∧ ((protCode 6 (fullScale s
     (4 * o.val + 3)) : Nat)) * ((protCode 6 (fullScale s (4 * o.val + 3)) : Nat)) ≤ ((sumInt (protSamples s (4 * o.val + 3)
     before ++ protSamples s (4 * o.val + 3) feed) : Rat) / (protSamples s (4 * o.val + 3) before ++ protSamples s (4 * o.val + 3)
     feed).length) * ((sumInt (protSamples s (4 * o.val + 3) before ++ protSamples s (4 * o.val + 3) feed) : Rat) / (protSamples s
     (4 * o.val + 3) before ++ protSamples s (4 * o.val + 3) feed).length)) :=
  ⟨⟨{ on with hedge.openA := false, hedge.missA := 0, hedge.block := some (patch (zeros 320) [(76, leBytes 1 1)]) }, by
    decide +kernel⟩,
   ⟨{ on with hedge.openA := false, hedge.missA := 1, hedge.block := some (patch (zeros 320) [(76, leBytes 1 1)]) }, by
    decide +kernel⟩,
   ⟨{ on with hedge.block := some (patch (zeros 320) []) }, by decide +kernel⟩,
   ⟨{ on with hedge.openA := true, hedge.openB := false, hedge.block := some (patch (zeros 320) []) }, by decide +kernel⟩,
   ⟨{ on with hedge.openA := true, hedge.openB := true, hedge.block := some (patch (zeros 320) []) }, by decide +kernel⟩,
   ⟨{ on with hedge.block := some (patch (zeros 320) [(13, leBytes 1 1), (94, leBytes 1 1), (96, leBytes 4 1000)]) }, 0, default,
    .codes [5000], by decide +kernel⟩,
   ⟨{ on with hedge.block := some (patch (zeros 320) [(13, leBytes 1 1), (94, leBytes 1 1), (96, leBytes 4 100000)]) }, 0,
    default, .codes [1], by decide +kernel⟩,
   ⟨1, Nat.one_pos⟩,
   ⟨{ on with hedge.out.o0.delaying := true }, 0, by decide +kernel⟩,
   ⟨{ on with hedge.out.o0.delaying := false }, 0, by decide +kernel⟩,
   ⟨{ on with hedge.block := some (patch (zeros 320) [(13, leBytes 1 3)]) }, 0, .codes [], .codes [0], by decide +kernel⟩,
   ⟨{ on with hedge.block := some (patch (zeros 320) [(13, leBytes 1 3)]) }, 0, .codes [], .codes [5000], by decide +kernel⟩⟩

theorem test_hypotheses_ProtectionCommands_2 :
    (∃ (s : State) (o : Outlet) (before : Feed) (feed : Feed), hedgeLive s = true ∧ hedgeAc s o = true ∧ ((protCode 30 (fullScale
     s (4 * o.val + 3)) : Nat)) * ((protCode 30 (fullScale s (4 * o.val + 3)) : Nat)) ≤ ((sumInt ((protSamples s (4 * o.val + 3)
     before ++ protSamples s (4 * o.val + 3) feed).map (fun x => x * x)) : Rat) / (protSamples s (4 * o.val + 3) before ++
     protSamples s (4 * o.val + 3) feed).length - ((sumInt (protSamples s (4 * o.val + 3) before ++ protSamples s (4 * o.val + 3)
     feed) : Rat) / (protSamples s (4 * o.val + 3) before ++ protSamples s (4 * o.val + 3) feed).length) * ((sumInt (protSamples s
     (4 * o.val + 3) before ++ protSamples s (4 * o.val + 3) feed) : Rat) / (protSamples s (4 * o.val + 3) before ++ protSamples s
     (4 * o.val + 3) feed).length))) ∧
    (∃ (s : State) (o : Outlet), hedgeLive s = true ∧ hedgeAc s o = false) ∧
    (∃ (s : State) (o : Outlet), hedgeLive s = true ∧ (s.hedge.out.get o).imd.running = true ∧ block0702 s o 12 2 ≤
     (s.hedge.out.get o).imd.cycles) ∧
    (∃ (s : State) (o : Outlet), hedgeLive s = true ∧ (s.hedge.out.get o).imd.cycles < block0702 s o 12 2) ∧
    (∃ (s : State) (o : Outlet), hedgeLive s = true ∧ (s.hedge.out.get o).imd.running = false) ∧
    (∃ (s : State) (o : Outlet), hedgeLive s = true ∧ (s.hedge.out.get o).imd.running = true ∧ 8 ≤ (s.hedge.out.get o).imd.noValue) ∧
    (∃ (s : State) (o : Outlet), hedgeLive s = true ∧ ((s.hedge.out.get o).imd.running = false ∨ (s.hedge.out.get o).imd.noValue <
     8)) ∧
    (∃ (s : State) (o : Outlet) (high low : Int), hedgeLive s = true ∧ driveOn s o = true ∧ (s.link.get o).gen ≠ .stateF ∧ (10500
     ≤ high ∨ high ≤ 1500 ∨ ((∃ d, (s.link.get o).gen = .duty d) ∧ -10500 < low))) ∧
    (∃ (s : State) (o : Outlet) (high low : Int), hedgeLive s = true ∧ (driveOn s o = false ∨ (s.link.get o).gen = .stateF ∨
     ¬(10500 ≤ high ∨ high ≤ 1500 ∨ ((∃ d, (s.link.get o).gen = .duty d) ∧ -10500 < low)))) ∧
    (∃ (s : State) (o : Outlet) (high low : Int), hedgeLive s = true ∧ driveOn s o = true ∧ ¬(10500 ≤ high ∨ high ≤ 1500 ∨ ((∃ d,
     (s.link.get o).gen = .duty d) ∧ -10500 < low)) ∧ 8000 ≤ high) ∧
    (∃ (s : State) (o : Outlet) (high low : Int), hedgeLive s = true ∧ (driveOn s o = false ∨ (10500 ≤ high ∨ high ≤ 1500 ∨ ((∃ d,
     (s.link.get o).gen = .duty d) ∧ -10500 < low)) ∨ high ≤ 7000)) ∧
    (∃ (s : State) (o : Outlet), hedgeLive s = true ∧ hedgeDc s o = true ∧ (sessOf s o).drive = false ∧ (s.hedge.out.get o).closed
     = false) :=
  ⟨⟨{ on with hedge.block := some (patch (zeros 320) [(13, leBytes 1 3)]) }, 0, .codes [], .codes [5000, -5000], by
    decide +kernel⟩,
   ⟨{ on with hedge.block := some (patch (zeros 320) [(13, leBytes 1 1)]) }, 0, by decide +kernel⟩,
   ⟨{ on with hedge.out.o0.imd.running := true, hedge.out.o0.imd.cycles := 1, hedge.block := some (patch (zeros 320) [(104, leBytes 2 1)]) },
    0, by decide +kernel⟩,
   ⟨{ on with hedge.out.o0.imd.cycles := 0, hedge.block := some (patch (zeros 320) [(104, leBytes 2 1)]) }, 0, by decide +kernel⟩,
   ⟨{ on with hedge.out.o0.imd.running := false, hedge.block := some (patch (zeros 320) []) }, 0, by decide +kernel⟩,
   ⟨{ on with hedge.out.o0.imd.running := true, hedge.out.o0.imd.noValue := 8, hedge.block := some (patch (zeros 320) []) }, 0,
    by decide +kernel⟩,
   ⟨{ on with hedge.out.o0.imd.running := false, hedge.block := some (patch (zeros 320) []) }, 0, by decide +kernel⟩,
   ⟨{ on with hedge.block := some (patch (zeros 320) [(13, leBytes 1 1)]), sess.out.o0.drive := true, hedge.out.o0.closed := true, hedge.scr.o0.permit := true, link.o0.gen := .duty 100 },
    0, 9000, -10499, by decide +kernel, by decide +kernel, by decide, .inr (.inr ⟨⟨100, rfl⟩, by decide⟩)⟩,
   ⟨{ on with hedge.block := some (patch (zeros 320) [(13, leBytes 1 1)]), sess.out.o0.drive := true, hedge.out.o0.closed := true, hedge.scr.o0.permit := true, link.o0.gen := .duty 100 },
    0, 10499, -10500, by decide +kernel, .inr (.inr (fun h => h.elim (by decide) (fun h => h.elim (by decide) (fun h => absurd h.2
    (by decide)))))⟩,
   ⟨{ on with hedge.block := some (patch (zeros 320) [(13, leBytes 1 1)]), sess.out.o0.drive := true, hedge.out.o0.closed := true, hedge.scr.o0.permit := true },
    0, 10499, -12000, by decide +kernel, by decide +kernel, fun h => h.elim (by decide) (fun h => h.elim (by decide) (fun h =>
    absurd h.2 (by decide))), by decide⟩,
   ⟨{ on with hedge.block := some (patch (zeros 320) [(13, leBytes 1 1)]), sess.out.o0.drive := true, hedge.out.o0.closed := true, hedge.scr.o0.permit := true },
    0, 7000, -12000, by decide +kernel, .inr (.inr (by decide))⟩,
   ⟨{ on with sess.out.o0.drive := false, hedge.out.o0.closed := false, hedge.block := some (patch (zeros 320) [(13, leBytes 1 1)]) },
    0, by decide +kernel⟩⟩

theorem test_hypotheses_ProtectionCommands_3 :
    (∃ (s : State) (o : Outlet) (v : Int) (onL : Int), hedgeLive s = true ∧ (s.hedge.out.get o).weldRun = true ∧ (sessOf s
     o).drive = false ∧ 6000 ≤ v.natAbs ∧ (v - onL).natAbs ≤ 100 * block0702 s o 14 2) ∧
    (∃ (s : State) (o : Outlet) (v : Int), hedgeLive s = true ∧ (s.hedge.out.get o).weldRun = true ∧ (sessOf s o).drive = false ∧
     v.natAbs < 6000) ∧
    (∃ (s : State), up s = true) ∧
    (∃ (s : State), up s = false) ∧
    (∃ (s : State), hedgeLive s = true ∧ block0701 s 1 1 = 1) ∧
    (∃ (s : State), hedgeLive s = true ∧ block0701 s 1 1 ≠ 1) ∧
    (∃ (s : State), hedgeLive s = false) :=
  ⟨⟨{ on with hedge.out.o0.weldRun := true, sess.out.o0.drive := false, hedge.block := some (patch (zeros 320) []) }, 0, 6000,
    6000, by decide +kernel⟩,
   ⟨{ on with hedge.out.o0.weldRun := true, sess.out.o0.drive := false, hedge.block := some (patch (zeros 320) []) }, 0, 0, by
    decide +kernel⟩,
   ⟨on, by decide +kernel⟩,
   ⟨{ on with power.phase := .charging }, by decide +kernel⟩,
   ⟨{ on with hedge.block := some (patch (zeros 320) [(77, leBytes 1 1)]) }, by decide +kernel⟩,
   ⟨{ on with hedge.block := some (patch (zeros 320) []) }, by decide +kernel⟩,
   ⟨on, by decide +kernel⟩⟩

theorem test_hypotheses_SafeFrameCommands_1 :
    (∃ (s : State) (bytes : List Byte), hedgeLive s = true ∧ copyValid s bytes = true ∧ copyLater s bytes = true ∧ tripFrameBytes
     bytes = false ∧ (sourceOf s (fieldN bytes 0 2 % 16)).waiting = []) ∧
    (∃ (s : State) (p : Path) (bytes : List Byte) (q : _), hedgeLive s = true ∧ copyValid s bytes = true ∧ copyLater s bytes =
     true ∧ tripFrameBytes bytes = false ∧ q ≠ p ∧ (sourceOf s (fieldN bytes 0 2 % 16)).waiting = [(q, bytes)]) ∧
    (∃ (s : State) (p : Path) (bytes : List Byte) (q : _) (other : _), hedgeLive s = true ∧ copyValid s bytes = true ∧ copyLater s
     bytes = true ∧ tripFrameBytes bytes = false ∧ q ≠ p ∧ (sourceOf s (fieldN bytes 0 2 % 16)).waiting = [(q, other)] ∧ seqOf
     other = seqOf bytes ∧ other ≠ bytes) ∧
    (∃ (s : State) (bytes : List Byte), hedgeLive s = true ∧ copyValid s bytes = true ∧ copyLater s bytes = true ∧ tripFrameBytes
     bytes = true ∧ (fieldN bytes 8 1).testBit 1 = true) ∧
    (∃ (s : State) (bytes : List Byte), hedgeLive s = true ∧ (copyValid s bytes = false ∨ copyLater s bytes = false)) ∧
    (∃ (s : State), hedgeLive s = false) ∧
    (∃ (s : State) (slot : Slot) (w : _) (rest : _), (sourceOf s slot.val).waiting = w :: rest) ∧
    (∃ (s : State) (slot : Slot), (sourceOf s slot.val).waiting = []) ∧
    (∃ (s : State) (slot : Slot), hedgeLive s = true ∧ slot.val ∈ otherMembers s ∧ (sourceOf s slot.val).seq ≠ none) ∧
    (∃ (s : State) (slot : Slot), (hedgeLive s = false ∨ slot.val ∉ otherMembers s ∨ (sourceOf s slot.val).seq = none)) ∧
    (∃ (s : State), s.hedge.safeFault = true ∧ membersMatch s = true) ∧
    (∃ (s : State), (s.hedge.safeFault = false ∨ membersMatch s = false)) :=
  ⟨⟨{ on with hedge.block := some (patch (zeros 320) [(286, leBytes 2 3), (284, leBytes 2 5)]) }, safeBytes 81 1 1, by
    decide +kernel⟩,
   ⟨{ on with hedge.sources := [⟨1, none, [(.e0, safeBytes 81 1 1)], false, false⟩], hedge.block := some (patch (zeros 320) [(286, leBytes 2 3), (284, leBytes 2 5)]) },
    .trellis, safeBytes 81 1 1, .e0, by decide +kernel⟩,
   ⟨{ on with hedge.sources := [⟨1, none, [(.e0, zeros 4 ++ leBytes 4 1)], false, false⟩], hedge.block := some (patch (zeros 320) [(286, leBytes 2 3), (284, leBytes 2 5)]) },
    .trellis, safeBytes 81 1 1, .e0, zeros 4 ++ leBytes 4 1, by decide +kernel⟩,
   ⟨{ on with hedge.block := some (patch (zeros 320) [(286, leBytes 2 3), (284, leBytes 2 5)]) }, groupTripBytes, by
    decide +kernel⟩,
   ⟨{ on with hedge.block := some (patch (zeros 320) []) }, [], by decide +kernel⟩,
   ⟨on, by decide +kernel⟩,
   ⟨{ on with hedge.sources := [⟨1, none, [(.e0, [])], false, false⟩] }, 1, (.e0, []), [], by decide +kernel⟩,
   ⟨on, 1, by decide +kernel⟩,
   ⟨{ on with hedge.sources := [⟨1, some 0, [], false, false⟩], hedge.block := some (patch (zeros 320) [(286, leBytes 2 3), (284, leBytes 2 5)]) },
    1, by decide +kernel⟩,
   ⟨on, 1, by decide +kernel⟩,
   ⟨{ on with hedge.safeFault := true }, by decide +kernel⟩,
   ⟨{ on with hedge.safeFault := false }, by decide +kernel⟩⟩

theorem test_hypotheses_SafeFrameCommands_2 :
    (∃ (s : State), s.hedge.group = true ∧ (∀ y ∈ s.hedge.sources, y.group = false)) ∧
    (∃ (s : State), s.hedge.group = false) ∧
    (∃ (s : State), sendsSafe s = true ∧ s.hedge.safeWait = none) ∧
    (∃ (s : State), sendsSafe s = true ∧ s.hedge.safeWait ≠ none) ∧
    (∃ (s : State), sendsSafe s = true ∧ tripChanged s = true) ∧
    (∃ (s : State), sendsSafe s = true ∧ tripChanged s = false) ∧
    (∃ (s : State), sendsSafe s = false) :=
  ⟨⟨{ on with hedge.group := true }, by decide +kernel⟩,
   ⟨{ on with hedge.group := false }, by decide +kernel⟩,
   ⟨{ on with hedge.safeWait := none, hedge.block := some (patch (zeros 320) [(286, leBytes 2 3)]) }, by decide +kernel⟩,
   ⟨{ on with hedge.safeWait := some [], hedge.block := some (patch (zeros 320) [(286, leBytes 2 3)]) }, by decide +kernel⟩,
   ⟨{ on with hedge.estop := true, hedge.block := some (patch (zeros 320) [(286, leBytes 2 3)]) }, by decide +kernel⟩,
   ⟨{ on with hedge.block := some (patch (zeros 320) [(286, leBytes 2 3)]) }, by decide +kernel⟩,
   ⟨on, by decide +kernel⟩⟩

theorem test_hypotheses_SafetyOpcodes_1 :
    (∃ (s : State) (r : Request), Admitted (opLen 0x0702 [clsN] 4) r s ∧ (lifeAllows s = true ∧ allWaiting s = true ∧
     hedgeStateCode s = 0 ∧ s.hedge.block ≠ none) ∧ s.hedge.lockedOut = false ∧ (fieldN r.payload 0 4) = checkValue s ∧
     s.hedge.confirmed = true) ∧
    (∃ (s : State) (r : Request), Admitted (opLen 0x0702 [clsN] 4) r s ∧ (lifeAllows s = true ∧ allWaiting s = true ∧
     hedgeStateCode s = 0 ∧ s.hedge.block ≠ none) ∧ s.hedge.lockedOut = false ∧ (fieldN r.payload 0 4) ≠ checkValue s) ∧
    (∃ (s : State) (r : Request), Admitted (opLen 0x0702 [clsN] 4) r s ∧ (lifeAllows s = true ∧ allWaiting s = true ∧
     hedgeStateCode s = 0 ∧ s.hedge.block ≠ none) ∧ s.hedge.lockedOut = true) ∧
    (∃ (s : State) (r : Request), Admitted (opLen 0x0702 [clsN] 4) r s ∧ (¬(lifeAllows s = true ∧ allWaiting s = true ∧
     hedgeStateCode s = 0 ∧ s.hedge.block ≠ none))) ∧
    (∃ (s : State) (r : Request), Admitted (opLen 0x0702 [clsN] 4) r s ∧ (lifeAllows s = true ∧ allWaiting s = true ∧
     hedgeStateCode s = 0 ∧ s.hedge.block ≠ none) ∧ s.hedge.lockedOut = false ∧ (fieldN r.payload 0 4) = checkValue s ∧
     s.hedge.confirmed = false) ∧
    (∃ (s : State) (o : Outlet) (r : Request), Admitted (opLen 0x0703 [clsN, clsH] 4) r s ∧ fieldN r.payload 1 3 = 0 ∧ fieldN
     r.payload 0 1 = o.val) ∧
    (∃ (s : State) (r : Request), Admitted (opLen 0x0703 [clsN, clsH] 4) r s ∧ fieldN r.payload 1 3 = 0 ∧ fieldN r.payload 0 1 =
     0xFF) ∧
    (∃ (s : State) (o : Outlet) (r : Request), Admitted (opLen 0x0704 [clsN] 4) r s ∧ fieldN r.payload 0 1 = o.val ∧ fieldN
     r.payload 1 3 = 0 ∧ s.cis.lifecycle = 3 ∧ (s.link.get o).pilot = some .a ∧ (s.hedge.out.get o).latched.getLsbD 5 = true) ∧
    (∃ (s : State) (o : Outlet) (r : Request), Admitted (opLen 0x0704 [clsN] 4) r s ∧ fieldN r.payload 0 1 = o.val ∧ fieldN
     r.payload 1 3 = 0 ∧ (s.cis.lifecycle ≠ 3 ∨ (s.link.get o).pilot ≠ some .a ∨ (s.hedge.out.get o).latched.getLsbD 5 = false)) ∧
    (∃ (s : State) (b : _), s.hedge.nextBlock = some b ∧ anyDrive s = false) ∧
    (∃ (s : State), (s.hedge.nextBlock = none ∨ anyDrive s = true)) ∧
    (∃ (s : State), up s = false) :=
  ⟨⟨{ on with hedge.lockedOut := false, hedge.confirmed := true, hedge.block := some [], cis.lifecycle := 3 }, sign 0x0702 (req
    clsN (zeros 4)) _, ready_admitted (by decide +kernel), by decide +kernel⟩,
   ⟨{ on with hedge.lockedOut := false, hedge.block := some [], cis.lifecycle := 3 }, sign 0x0702 (req clsN (patch (zeros 4) [(0,
    leBytes 4 1)])) _, ready_admitted (by decide +kernel), by decide +kernel⟩,
   ⟨{ on with hedge.lockedOut := true, hedge.block := some [], cis.lifecycle := 3 }, sign 0x0702 (req clsN (zeros 4)) _,
    ready_admitted (by decide +kernel), by decide +kernel⟩,
   ⟨on, sign 0x0702 (req clsN (zeros 4)) on, ready_admitted (by decide +kernel), by decide +kernel⟩,
   ⟨{ on with hedge.lockedOut := false, hedge.confirmed := false, hedge.block := some [], cis.lifecycle := 3 }, sign 0x0702 (req
    clsN (zeros 4)) _, ready_admitted (by decide +kernel), by decide +kernel⟩,
   ⟨on, 0, sign 0x0703 (req clsN (zeros 4)) on, ready_admitted (by decide +kernel), by decide +kernel⟩,
   ⟨on, sign 0x0703 (req clsN (patch (zeros 4) [(0, leBytes 1 255)])) on, ready_admitted (by decide +kernel), by decide +kernel⟩,
   ⟨{ on with cis.lifecycle := 3, link.o0.pilot := some .a, hedge.out.o0.latched := 0x20 }, 0, sign 0x0704 (req clsN (zeros 4))
    _, ready_admitted (by decide +kernel), by decide +kernel⟩,
   ⟨{ on with cis.lifecycle := 2 }, 0, sign 0x0704 (req clsN (zeros 4)) _, ready_admitted (by decide +kernel), by decide +kernel⟩,
   ⟨{ on with hedge.nextBlock := some default }, default, by decide +kernel⟩,
   ⟨{ on with hedge.nextBlock := none }, by decide +kernel⟩,
   ⟨{ on with power.phase := .charging }, by decide +kernel⟩⟩

theorem test_hypotheses_SafetyOpcodes_2 :
    (∃ (s : State) (o : Outlet), up s = true ∧ (s.hedge.scr.get o).ramp = true) ∧
    (∃ (s : State) (o : Outlet), (s.hedge.scr.get o).ramp = false) :=
  ⟨⟨{ on with hedge.scr.o0.ramp := true }, 0, by decide +kernel⟩,
   ⟨{ on with hedge.scr.o0.ramp := false }, 0, by decide +kernel⟩⟩

theorem test_hypotheses_TripRules_1 :
    (∃ (s : State) (o : Outlet), ((hedgePermit o s).hedge.out.get o).permit = true) ∧
    (∃ (s : State) (o : Outlet), ((hedgePermit o s).hedge.out.get o).permit = false ∧ (s.hedge.out.get o).delaying = false) ∧
    (∃ (s : State) (o : Outlet), (sessOf s o).drive = false) ∧
    (∃ (s : State) (o : Outlet), 10500 ≤ ((hedgePermit o s).hedge.out.get o).high) ∧
    (∃ (bit : Nat) (i : _), bit < 7 ∧ i ≠ bit) ∧
    (∃ (o : Outlet) (bit : Nat) (y : _), bit < 7 ∧ y ≠ o) ∧
    (∃ (s : State) (o : Outlet) (bit : Nat), bit < 7 ∧ (s.hedge.out.get o).latched.getLsbD bit = true) ∧
    (∃ (s : State) (o : Outlet) (bit : Nat), bit < 7 ∧ (s.hedge.out.get o).latched.getLsbD bit = false ∧ block0701 s 2 1 = 0) ∧
    (∃ (s : State) (o : Outlet) (bit : Nat), bit < 7 ∧ (s.hedge.out.get o).latched.getLsbD bit = false ∧ block0701 s 2 1 ≠ 0) ∧
    (∃ (s : State) (o : Outlet) (bit : Nat) (reason : Option Nat), bit < 7 ∧ (s.hedge.out.get o).latched.getLsbD bit = false ∧
     (driveOn s o = false ∨ reason = none)) ∧
    (∃ (s : State) (o : Outlet) (bit : Nat) (reason : Option Nat) (r : _), bit < 7 ∧ (s.hedge.out.get o).latched.getLsbD bit =
     false ∧ driveOn s o = true ∧ reason = some r ∧ s.sess.tripWait = none) ∧
    (∃ (s : State) (o : Outlet) (bit : Nat) (reason : Option Nat) (r : _) (w : _), bit < 7 ∧ (s.hedge.out.get o).latched.getLsbD
     bit = false ∧ driveOn s o = true ∧ reason = some r ∧ s.sess.tripWait = some w) :=
  ⟨⟨{ on with sess.out.o0.drive := true, hedge.out.o0.granted := true, hedge.confirmed := true, hedge.out.o0.high := 6000, hedge.block := some (patch (zeros 320) [(13, leBytes 1 1)]) },
    0, by decide +kernel⟩,
   ⟨{ on with hedge.out.o0.delaying := false }, 0, by decide +kernel⟩,
   ⟨{ on with sess.out.o0.drive := false }, 0, by decide +kernel⟩,
   ⟨{ on with hedge.out.o0.high := 10500 }, 0, by decide +kernel⟩,
   ⟨6, 0, by decide +kernel⟩,
   ⟨0, 6, 1, by decide +kernel⟩,
   ⟨{ on with hedge.out.o0.latched := 0x40 }, 0, 6, by decide +kernel⟩,
   ⟨{ on with hedge.block := some (patch (zeros 320) [(78, leBytes 1 0)]) }, 0, 6, by decide +kernel⟩,
   ⟨{ on with hedge.block := some (patch (zeros 320) [(78, leBytes 1 1)]) }, 0, 6, by decide +kernel⟩,
   ⟨on, 0, 6, none, by decide +kernel⟩,
   ⟨{ on with sess.out.o0.drive := true, hedge.out.o0.closed := true, hedge.scr.o0.permit := true, sess.tripWait := none }, 0, 6,
    some 1, 1, by decide +kernel⟩,
   ⟨{ on with sess.out.o0.drive := true, hedge.out.o0.closed := true, hedge.scr.o0.permit := true, sess.tripWait := some (⟨0, 0, 0⟩) },
    0, 6, some 1, 1, ⟨0, 0, 0⟩, by decide +kernel⟩⟩

theorem test_hypotheses_TripRules_2 :
    (∃ (s : State) (k : ModuleTrip), tripLatch k s.hedge = true) ∧
    (∃ (s : State) (k : ModuleTrip), tripLatch k s.hedge = false) ∧
    (∃ (s : State), (s.hedge.openA = true ∨ s.hedge.openB = true)) ∧
    (∃ (s : State), s.hedge.openA = false ∧ s.hedge.openB = false ∧ s.hedge.bothOpened = true) ∧
    (∃ (s : State), s.hedge.openA = false ∧ s.hedge.openB = false ∧ s.hedge.bothOpened = false) ∧
    (∃ (s : State), moduleTrip s = true) ∧
    (∃ (s : State), moduleTrip s = false) ∧
    (∃ (s : State) (o : Outlet), (s.hedge.out.get o).latched = 0) ∧
    (∃ (s : State) (i : Nat), i < s.sw.chans.length ∧ i < 8 ∧ i % 2 = 1 ∧ isAc s (contactorOutlet i).val = true) ∧
    (∃ (s : State) (i : Nat), i < s.sw.chans.length ∧ 8 ≤ i ∧ chanField s i 2 1 = 1) ∧
    (∃ (s : State) (i : Nat), i < s.sw.chans.length ∧ (chanSw (driveChannels s) i).on = true ∧ (chanSw s i).on = false) ∧
    (∃ (s : State) (i : Nat), i < s.sw.chans.length ∧ (chanSw (driveChannels s) i).on = false) :=
  ⟨⟨{ on with hedge.estop := true }, .estop, by decide +kernel⟩,
   ⟨on, .estop, by decide +kernel⟩,
   ⟨{ on with hedge.openA := true }, by decide +kernel⟩,
   ⟨{ on with hedge.openA := false, hedge.openB := false, hedge.bothOpened := true }, by decide +kernel⟩,
   ⟨{ on with hedge.openA := false, hedge.openB := false, hedge.bothOpened := false }, by decide +kernel⟩,
   ⟨{ on with hedge.estop := true }, by decide +kernel⟩,
   ⟨on, by decide +kernel⟩,
   ⟨{ on with hedge.out.o0.latched := 0 }, 0, by decide +kernel⟩,
   ⟨{ on with cfg.recs := [rec 0x0601 0 (patch (zeros 48) [(1, leBytes 1 3)])] }, 1, by decide +kernel⟩,
   ⟨{ on with sw.chans := List.replicate 16 { Switch.init with on := true, setup := [8, 2, 1, 0] ++ zeros 12 } }, 8, by
    decide +kernel⟩,
   ⟨{ on with sw.chans := List.replicate 16 { Switch.init with commanded := true, setup := [8, 2, 0, 0] ++ zeros 12 } }, 8, by
    decide +kernel⟩,
   ⟨on, 0, by decide +kernel⟩⟩

theorem test_hypotheses_SwitchCommands_1 :
    (∃ (s : State), domainRuns s = true) ∧
    (∃ (s : State) (ch : SwCh), up s = true ∧ (chanSw s ch.val).on = false) ∧
    (∃ (s : State) (ch : SwCh) (v : Nat) (samples : List Nat), up s = true ∧ (chanSw s ch.val).on = true ∧ (runOf (overSamples s)
     (fun v => decide ((if (chanSw s ch.val).inrush = true then chanField s ch.val 6 2 else chanField s ch.val 4 2) ≤ v)) (chanSw
     s ch.val).overCount samples) = true ∧ (s.sw.chans.length = 16)) ∧
    (∃ (s : State) (ch : SwCh) (v : Nat) (samples : List Nat), up s = true ∧ (chanSw s ch.val).on = true ∧ (runOf (overSamples s)
     (fun v => decide ((if (chanSw s ch.val).inrush = true then chanField s ch.val 6 2 else chanField s ch.val 4 2) ≤ v)) (chanSw
     s ch.val).overCount samples) = false ∧ (s.sw.chans.length = 16)) ∧
    (∃ (s : State) (ch : SwCh), (chanSw s ch.val).inrush = true) ∧
    (∃ (s : State) (ch : SwCh), (chanSw s ch.val).inrush = false) ∧
    (∃ (s : State) (ch : SwCh) (dT : Int) (tj : Int), up s = true ∧ (chanSw s ch.val).on = true ∧ ((chanField s ch.val 13 1 : Int)
     < dT ∨ 150 ≤ tj) ∧ (s.sw.chans.length = 16) ∧ (if consecutive s (chanSw s ch.val) then (chanSw s ch.val).restarts + 1 else 0)
     < restartCount s) ∧
    (∃ (s : State) (ch : SwCh) (dT : Int) (tj : Int), up s = true ∧ (chanSw s ch.val).on = true ∧ ((chanField s ch.val 13 1 : Int)
     < dT ∨ 150 ≤ tj) ∧ (s.sw.chans.length = 16) ∧ restartCount s ≤ (if consecutive s (chanSw s ch.val) then (chanSw s
     ch.val).restarts + 1 else 0)) ∧
    (∃ (s : State) (ch : SwCh) (dT : Int) (tj : Int), up s = true ∧ (chanSw s ch.val).on = true ∧ dT ≤ (chanField s ch.val 13 1 :
     Int) ∧ tj < 150) ∧
    (∃ (s : State) (ch : SwCh) (dT : Int) (tj : Int), up s = true ∧ (chanSw s ch.val).thermal = true ∧ dT ≤ (chanField s ch.val 13
     1 : Int) - 15 ∧ tj ≤ 135) ∧
    (∃ (s : State) (ch : SwCh) (dT : Int) (tj : Int), up s = true ∧ ((chanSw s ch.val).thermal = false ∨ (chanField s ch.val 13 1
     : Int) - 15 < dT ∨ 135 < tj)) ∧
    (∃ (s : State) (ch : SwCh) (v : Nat) (supply : Nat), up s = true ∧ (chanField s ch.val 10 2 ≠ 0 ∧ (chanSw s ch.val).on = true
     ∧ (chanSw s ch.val).inrush = false ∧ (chanSw s ch.val).inrushEnd + cfgN s 0x0802 0 4 2 100 ≤ s.clockMs ∧ 1600 ≤ supply) ∧
     (chanSw s ch.val).openLoad = false ∧ (¬((chanField s ch.val 9 1 = 1) ∧ 64000 < v)) ∧ (if (chanField s ch.val 9 1 = 1) then
     (if 64000 < v then 64000 else v) else min 16383000 v) < (100 * chanField s ch.val 10 2)) :=
  ⟨⟨on, by decide +kernel⟩,
   ⟨on, 0, by decide +kernel⟩,
   ⟨{ on with sw.chans := List.replicate 16 { Switch.init with on := true } }, 0, 0, [4000, 4000, 4000], by decide +kernel⟩,
   ⟨{ on with sw.chans := List.replicate 16 { Switch.init with on := true } }, 0, 0, [4000, 4000, 3999], by decide +kernel⟩,
   ⟨{ on with sw.chans := List.replicate 16 { Switch.init with inrush := true } }, 0, by decide +kernel⟩,
   ⟨on, 0, by decide +kernel⟩,
   ⟨{ on with sw.chans := List.replicate 16 { Switch.init with on := true, commanded := true } }, 0, 0, 150, by decide +kernel⟩,
   ⟨{ on with sw.chans := List.replicate 16 { Switch.init with on := true, commanded := true, restarts := 8, onSince := some 0 } },
    0, 0, 150, by decide +kernel⟩,
   ⟨{ on with sw.chans := List.replicate 16 { Switch.init with on := true, commanded := true } }, 0, 0, 149, by decide +kernel⟩,
   ⟨{ on with sw.chans := List.replicate 16 { Switch.init with on := true, commanded := true, thermal := true } }, 0, 0, 135, by
    decide +kernel⟩,
   ⟨on, 0, 0, 0, by decide +kernel⟩,
   ⟨{ on with sw.chans := List.replicate 16 { Switch.init with on := true, setup := zeros 9 ++ [byte 0] ++ leBytes 2 1 ++ zeros 4 }, clockMs := 100 },
    0, 99, 1600, by decide +kernel⟩⟩

theorem test_hypotheses_SwitchCommands_2 :
    (∃ (s : State) (ch : SwCh) (v : Nat) (supply : Nat), (up s = false ∨ ¬(chanField s ch.val 10 2 ≠ 0 ∧ (chanSw s ch.val).on =
     true ∧ (chanSw s ch.val).inrush = false ∧ (chanSw s ch.val).inrushEnd + cfgN s 0x0802 0 4 2 100 ≤ s.clockMs ∧ 1600 ≤ supply)
     ∨ (chanSw s ch.val).openLoad = true ∨ ((chanField s ch.val 9 1 = 1) ∧ 64000 < v) ∨ (100 * chanField s ch.val 10 2) ≤ (if
     (chanField s ch.val 9 1 = 1) then (if 64000 < v then 64000 else v) else min 16383000 v))) ∧
    (∃ (s : State) (ch : SwCh) (v : Nat) (supply : Nat), up s = true ∧ (chanField s ch.val 10 2 ≠ 0 ∧ (chanSw s ch.val).on = true
     ∧ (chanSw s ch.val).inrush = false ∧ (chanSw s ch.val).inrushEnd + cfgN s 0x0802 0 4 2 100 ≤ s.clockMs ∧ 1600 ≤ supply) ∧
     (chanSw s ch.val).openLoad = true ∧ 5 * (100 * chanField s ch.val 10 2) ≤ 4 * (if (chanField s ch.val 9 1 = 1) then (if 64000
     < v then 64000 else v) else min 16383000 v)) ∧
    (∃ (s : State) (ch : SwCh) (v : Nat) (supply : Nat), (up s = false ∨ ¬(chanField s ch.val 10 2 ≠ 0 ∧ (chanSw s ch.val).on =
     true ∧ (chanSw s ch.val).inrush = false ∧ (chanSw s ch.val).inrushEnd + cfgN s 0x0802 0 4 2 100 ≤ s.clockMs ∧ 1600 ≤ supply)
     ∨ (chanSw s ch.val).openLoad = false ∨ 4 * (if (chanField s ch.val 9 1 = 1) then (if 64000 < v then 64000 else v) else min
     16383000 v) < 5 * (100 * chanField s ch.val 10 2))) ∧
    (∃ (s : State) (ch : SwCh) (v : Nat), (chanField s ch.val 9 1 = 1) ∧ 64000 < v) ∧
    (∃ (s : State) (m : Nat), up s = true ∧ m ≤ 10000 ∧ s.sw.means.length = 4) ∧
    (∃ (s : State) (m : Nat) (k : _), 10000 < m ∧ s.sw.overChecks.getD 2 0 = 0 ∧ (s.sw.chans.length = 16) ∧ shedChannel s 2 = some
     k) ∧
    (∃ (s : State) (v : Nat), up s = true ∧ v < 600 ∧ s.sw.chans.length = 16 ∧ s.sw.released.length = 4) ∧
    (∃ (s : State) (v : Nat), up s = true ∧ 600 ≤ v) ∧
    (∃ (s : State) (v : Nat) (g : Fin 4), up s = true ∧ 700 < v ∧ s.sw.released.getD g.val false = true ∧ (s.sw.chans.length = 16)) ∧
    (∃ (s : State) (v : Nat) (g : Fin 4), up s = true ∧ (v ≤ 700 ∨ s.sw.released.getD g.val false = false)) ∧
    (∃ (s : State), up s = false) ∧
    (∃ (s : State) (r : Request), Admitted (opLen 0x0802 [clsN, clsH] 4) r s ∧ 8 ≤ (fieldN r.payload 0 1) ∧ (fieldN r.payload 0 1)
     < 16 ∧ fieldN r.payload 1 1 < 2 ∧ fieldN r.payload 2 2 = 0 ∧ chanUse s (fieldN r.payload 0 1) = 2 ∧ (fieldN r.payload 1 1 = 0
     ∨ (chanSw s (fieldN r.payload 0 1)).latched = false ∨ (chanSw s (fieldN r.payload 0 1)).commanded = false)) :=
  ⟨⟨on, 0, 0, 0, by decide +kernel⟩,
   ⟨{ on with sw.chans := List.replicate 16 { Switch.init with on := true, openLoad := true, setup := zeros 9 ++ [byte 0] ++ leBytes 2 1 ++ zeros 4 }, clockMs := 100 },
    0, 125, 1600, by decide +kernel⟩,
   ⟨on, 0, 0, 0, by decide +kernel⟩,
   ⟨{ on with sw.chans := List.replicate 16 { Switch.init with setup := zeros 9 ++ [byte 1] ++ leBytes 2 1 ++ zeros 4 } }, 0,
    64001, by decide +kernel⟩,
   ⟨on, 10000, by decide +kernel⟩,
   ⟨{ on with sw.chans := List.replicate 16 { Switch.init with on := true, setup := zeros 16 } }, 10001, 11, by decide +kernel⟩,
   ⟨on, 599, by decide +kernel⟩,
   ⟨on, 600, by decide +kernel⟩,
   ⟨{ on with sw.released := [true, true, true, true] }, 701, 0, by decide +kernel⟩,
   ⟨on, 700, 0, by decide +kernel⟩,
   ⟨{ on with power.phase := .charging }, by decide +kernel⟩,
   ⟨{ on with sw.chans := List.replicate 16 { Switch.init with setup := [8, 2] ++ zeros 14 } }, sign 0x0802 (req clsN (patch
    (zeros 4) [(0, leBytes 1 15)])) _, ready_admitted (by decide +kernel), by decide +kernel⟩⟩

theorem test_hypotheses_SwitchCommands_3 :
    (∃ (s : State) (r : Request), Admitted (opLen 0x0802 [clsN, clsH] 4) r s ∧ 8 ≤ (fieldN r.payload 0 1) ∧ (fieldN r.payload 0 1)
     < 16 ∧ fieldN r.payload 1 1 < 2 ∧ fieldN r.payload 2 2 = 0 ∧ chanUse s (fieldN r.payload 0 1) ≠ 2) ∧
    (∃ (s : State) (r : Request), Admitted (opLen 0x0802 [clsN, clsH] 4) r s ∧ 8 ≤ (fieldN r.payload 0 1) ∧ (fieldN r.payload 0 1)
     < 16 ∧ fieldN r.payload 1 1 < 2 ∧ fieldN r.payload 2 2 = 0 ∧ chanUse s (fieldN r.payload 0 1) = 2 ∧ fieldN r.payload 1 1 = 1
     ∧ (chanSw s (fieldN r.payload 0 1)).latched = true ∧ (chanSw s (fieldN r.payload 0 1)).commanded = true) ∧
    (∃ (s : State) (r : Request), Admitted (opLen 0x0803 [clsN, clsB] 4) r s ∧ (fieldN r.payload 0 1) < 16 ∧ fieldN r.payload 1 1
     = 0 ∧ 1 ≤ fieldN r.payload 2 2 ∧ fieldN r.payload 2 2 ≤ 640 ∧ s.sw.capture = none) ∧
    (∃ (s : State) (r : Request), Admitted (opLen 0x0803 [clsN, clsB] 4) r s ∧ (fieldN r.payload 0 1) < 16 ∧ fieldN r.payload 1 1
     = 0 ∧ 1 ≤ fieldN r.payload 2 2 ∧ fieldN r.payload 2 2 ≤ 640 ∧ s.sw.capture ≠ none) ∧
    (∃ (s : State) (c : Capture), s.sw.capture = some c) :=
  ⟨⟨on, sign 0x0802 (req clsN (patch (zeros 4) [(0, leBytes 1 15), (1, leBytes 1 1)])) on, ready_admitted (by decide +kernel), by
    decide +kernel⟩,
   ⟨{ on with sw.chans := List.replicate 16 { Switch.init with setup := [8, 2] ++ zeros 14, commanded := true, short := true } },
    sign 0x0802 (req clsN (patch (zeros 4) [(0, leBytes 1 15), (1, leBytes 1 1)])) _, ready_admitted (by decide +kernel), by
    decide +kernel⟩,
   ⟨{ on with sw.capture := none }, sign 0x0803 (req clsN (patch (zeros 4) [(0, leBytes 1 15), (2, leBytes 2 640)])) _,
    ready_admitted (by decide +kernel), by decide +kernel⟩,
   ⟨{ on with sw.capture := some ⟨.e0, 1, 1, 0, 1, 0⟩ }, sign 0x0803 (req clsN (patch (zeros 4) [(0, leBytes 1 15), (2, leBytes 2
    640)])) _, ready_admitted (by decide +kernel), by decide +kernel⟩,
   ⟨{ on with sw.capture := some (⟨.e0, 1, 1, 0, 1, 0⟩) }, ⟨.e0, 1, 1, 0, 1, 0⟩, by decide +kernel⟩⟩

theorem test_hypotheses_BulkBlocks :
    (∃ (r : Request) (s : State) (x : Transfer), findTransfer s (fieldN r.payload 0 4) = some x ∧ x.state ≠ .receiving) ∧
    (∃ (code : Nat) (maxTotal : Nat) (r : Request) (s : State) (x : Transfer), BlockFits maxTotal r.payload ∧ findTransfer s
     (fieldN r.payload 0 4) = some x ∧ x.state = .receiving ∧ x.port = r.port ∧ x.object = code ∧ x.total = (fieldN r.payload 8 4)
     ∧ blockAgrees x.blocks (fieldN r.payload 4 4) (slice r.payload 16 (fieldN r.payload 12 2)) = false) ∧
    (∃ (code : Nat) (maxTotal : Nat) (r : Request) (s : State) (x : Transfer), BlockFits maxTotal r.payload ∧ findTransfer s
     (fieldN r.payload 0 4) = some x ∧ x.state = .receiving ∧ x.port = r.port ∧ x.object = code ∧ x.total = (fieldN r.payload 8 4)
     ∧ blockAgrees x.blocks (fieldN r.payload 4 4) (slice r.payload 16 (fieldN r.payload 12 2)) = true ∧ assemble (x.blocks ++
     [((fieldN r.payload 4 4), (slice r.payload 16 (fieldN r.payload 12 2)))]) (fieldN r.payload 8 4) = none) ∧
    (∃ (code : Nat) (maxTotal : Nat) (r : Request) (s : State) (x : Transfer) (object : _), BlockFits maxTotal r.payload ∧
     findTransfer s (fieldN r.payload 0 4) = some x ∧ x.state = .receiving ∧ x.port = r.port ∧ x.object = code ∧ x.total = (fieldN
     r.payload 8 4) ∧ blockAgrees x.blocks (fieldN r.payload 4 4) (slice r.payload 16 (fieldN r.payload 12 2)) = true ∧ assemble
     (x.blocks ++ [((fieldN r.payload 4 4), (slice r.payload 16 (fieldN r.payload 12 2)))]) (fieldN r.payload 8 4) = some object) ∧
    (∃ (maxTotal : Nat) (r : Request) (s : State) (x : Transfer), BlockFits maxTotal r.payload ∧ findTransfer s (fieldN r.payload
     0 4) = some x ∧ x.state = .receiving ∧ x.port ≠ r.port) :=
  ⟨⟨req clsN (blockOf 1 0 16 [1, 2, 3, 4, 5, 6, 7, 8]), { on with host.transfers := [⟨1, 0x0605, .e0, 16, [], 0, .applied, 0⟩] },
    ⟨1, 0x0605, .e0, 16, [], 0, .applied, 0⟩, by decide +kernel⟩,
   ⟨0x0605, 16, req clsN (blockOf 1 0 16 [1, 2, 3, 4, 5, 6, 7, 8]),
    { on with host.transfers := [⟨1, 0x0605, .e0, 16, [(0, [9, 9, 9, 9, 9, 9, 9, 9])], 0, .receiving, 0⟩] }, ⟨1, 0x0605, .e0, 16,
    [(0, [9, 9, 9, 9, 9, 9, 9, 9])], 0, .receiving, 0⟩, blockFits_of (by decide +kernel), by decide +kernel⟩,
   ⟨0x0605, 16, req clsN (blockOf 1 0 16 [1, 2, 3, 4, 5, 6, 7, 8]),
    { on with host.transfers := [⟨1, 0x0605, .e0, 16, [], 0, .receiving, 0⟩] }, ⟨1, 0x0605, .e0, 16, [], 0, .receiving, 0⟩,
    blockFits_of (by decide +kernel), by decide +kernel⟩,
   ⟨0x0605, 16, req clsN (blockOf 1 0 16 [1, 2, 3, 4, 5, 6, 7, 8]),
    { on with host.transfers := [⟨1, 0x0605, .e0, 16, [(8, [0, 0, 0, 0, 0, 0, 0, 0])], 0, .receiving, 0⟩] }, ⟨1, 0x0605, .e0, 16,
    [(8, [0, 0, 0, 0, 0, 0, 0, 0])], 0, .receiving, 0⟩, [1, 2, 3, 4, 5, 6, 7, 8, 0, 0, 0, 0, 0, 0, 0, 0], blockFits_of (by
    decide +kernel), by decide +kernel⟩,
   ⟨16, req clsN (blockOf 1 0 16 [1, 2, 3, 4, 5, 6, 7, 8]),
    { on with host.transfers := [⟨1, 0x0605, .e1, 16, [], 0, .receiving, 0⟩] }, ⟨1, 0x0605, .e1, 16, [], 0, .receiving, 0⟩,
    blockFits_of (by decide +kernel), by decide +kernel⟩⟩

theorem test_hypotheses_BillingRules :
    (∃ (x : OutletBill), x.stopped = true) ∧
    (∃ (x : OutletBill), x.stopped = false) ∧
    (∃ s : State, demandGood s.bill.demand0 = true) ∧
    (∃ s : State, demandGood s.bill.demand1 = true) ∧
    (∃ (s : State) (origin : Nat), origin ∈ [1, 2, 3] ∧ legalRoom s = true) ∧
    (∃ (s : State) (origin : Nat), origin ∈ [1, 2, 3] ∧ legalRoom s = false) ∧
    (∃ (s : State), s.sun.utcValid = false) ∧
    (∃ (s : State) (delta : Int), s.sun.utcValid = true ∧ 2000 < delta.natAbs) ∧
    (∃ (s : State) (delta : Int), s.sun.utcValid = true ∧ delta.natAbs ≤ 2000) :=
  ⟨⟨{ OutletBill.init with stopped := true }, by decide +kernel⟩,
   ⟨OutletBill.init, by decide +kernel⟩,
   ⟨{ on with bill.demand0 := sealDemand DemandBlock.init }, demandGood_seal _⟩,
   ⟨{ on with bill.demand1 := sealDemand DemandBlock.init }, demandGood_seal _⟩,
   ⟨on, 3, by decide +kernel⟩,
   ⟨{ on with logs.legal := List.replicate 4033 oldLegal }, 1, by decide +kernel⟩,
   ⟨{ on with sun.utcValid := false }, by decide +kernel⟩,
   ⟨{ on with sun.utcValid := true }, 2001, by decide +kernel⟩,
   ⟨{ on with sun.utcValid := true }, 0, by decide +kernel⟩⟩

theorem test_hypotheses_BillingCommands_1 :
    (∃ (s : State), evaluates s = true) ∧
    (∃ (s : State), evaluates s = false) ∧
    (∃ (s : State), up s = true ∧ s.bill.accountsChanged = true) ∧
    (∃ (s : State), (up s = false ∨ s.bill.accountsChanged = false)) ∧
    (∃ (s : State), s.power.state = .off) ∧
    (∃ (s : State) (opened : BitVec 4), s.power.state ≠ .off ∧ (s.power.state ≠ .run ∨ up s = false ∨ ((List.range 4).foldl
     (sampleInput s opened) s.bill.tamper).events = [])) ∧
    (∃ (s : State) (opened : BitVec 4), up s = true ∧ s.power.state = .run ∧ ((List.range 4).foldl (sampleInput s opened)
     s.bill.tamper).events ≠ []) ∧
    (∃ (s : State) (r : Request), Admitted (opLen 0x0902 [clsN] 8) r s ∧ fieldN r.payload 4 2 ≤ 999 ∧ fieldN r.payload 7 1 = 0 ∧
     fieldN r.payload 6 1 = 1 ∧ legalRoom s = true) ∧
    (∃ (s : State) (r : Request), Admitted (opLen 0x0902 [clsN] 8) r s ∧ fieldN r.payload 4 2 ≤ 999 ∧ fieldN r.payload 7 1 = 0 ∧
     fieldN r.payload 6 1 = 0 ∧ s.sun.utcValid = true ∧ 2000 < ((fieldN r.payload 0 4 : Int) * 1000 + fieldN r.payload 4 2 - utcMs
     s).natAbs) ∧
    (∃ (s : State) (r : Request), Admitted (opLen 0x0902 [clsN] 8) r s ∧ fieldN r.payload 4 2 ≤ 999 ∧ fieldN r.payload 7 1 = 0 ∧
     fieldN r.payload 6 1 = 1 ∧ legalRoom s = false) ∧
    (∃ (s : State) (r : Request), Admitted (opLen 0x0902 [clsN] 8) r s ∧ fieldN r.payload 4 2 ≤ 999 ∧ fieldN r.payload 7 1 = 0 ∧
     fieldN r.payload 6 1 = 0 ∧ s.sun.utcValid = true ∧ ((fieldN r.payload 0 4 : Int) * 1000 + fieldN r.payload 4 2 - utcMs
     s).natAbs ≤ 2000) ∧
    (∃ (s : State) (r : Request), Admitted (opLen 0x0902 [clsN] 8) r s ∧ fieldN r.payload 4 2 ≤ 999 ∧ fieldN r.payload 7 1 = 0 ∧
     fieldN r.payload 6 1 = 0 ∧ s.sun.utcValid = false) :=
  ⟨⟨on, by decide +kernel⟩,
   ⟨{ on with power.phase := .charging }, by decide +kernel⟩,
   ⟨{ on with bill.accountsChanged := true }, by decide +kernel⟩,
   ⟨{ on with power.phase := .charging }, by decide +kernel⟩,
   ⟨{ on with power.state := .off }, by decide +kernel⟩,
   ⟨{ on with power.state := .battery }, 1, by decide +kernel⟩,
   ⟨{ on with power.state := .run, bill.tamper.enabled := 1, bill.tamper.differs := 1 }, 1, by decide +kernel⟩,
   ⟨on, sign 0x0902 (req clsN (patch (zeros 8) [(4, leBytes 2 999), (6, leBytes 1 1)])) on, ready_admitted (by decide +kernel),
    by decide +kernel⟩,
   ⟨{ on with sun.utcValid := true }, sign 0x0902 (req clsN (patch (zeros 8) [(4, leBytes 2 999), (0, leBytes 4 3)])) _,
    ready_admitted (by decide +kernel), by decide +kernel⟩,
   ⟨{ on with logs.legal := List.replicate 4033 oldLegal }, sign 0x0902 (req clsN (patch (zeros 8) [(4, leBytes 2 999), (6,
    leBytes 1 1)])) _, ready_admitted (by decide +kernel), by decide +kernel⟩,
   ⟨{ on with sun.utcValid := true }, sign 0x0902 (req clsN (patch (zeros 8) [(4, leBytes 2 999)])) _, ready_admitted (by
    decide +kernel), by decide +kernel⟩,
   ⟨{ on with sun.utcValid := false }, sign 0x0902 (req clsN (patch (zeros 8) [(4, leBytes 2 999)])) _, ready_admitted (by
    decide +kernel), by decide +kernel⟩⟩

theorem test_hypotheses_BillingCommands_2 :
    (∃ (s : State) (r : Request), Admitted (opNone 0x0905 [clsN]) r s ∧ s.bill.deferred = false ∧ legalRoom s = true) ∧
    (∃ (s : State) (r : Request), Admitted (opNone 0x0905 [clsN]) r s ∧ s.bill.deferred = true) ∧
    (∃ (s : State) (r : Request), Admitted (opNone 0x0905 [clsN]) r s ∧ s.bill.deferred = false ∧ legalRoom s = false) ∧
    (∃ (s : State) (r : Request), Admitted (opBulk 0x0907 [clsB]) r s ∧ BlockFits 8192 r.payload ∧ (fun _ => true) (fieldN
     r.payload 8 4) = true ∧ MayOpen s 0x0907 r.port (fieldN r.payload 0 4)) ∧
    (∃ (s : State) (r : Request), Admitted (opBulk 0x0908 [clsB]) r s ∧ BlockFits (16 + 40 * 4096) r.payload ∧ ((fun n => decide
     (16 ≤ n ∧ (n - 16) % 40 = 0)) (fieldN r.payload 8 4) = true) ∧ MayOpen s 0x0908 r.port (fieldN r.payload 0 4)) ∧
    (∃ (s : State) (r : Request), Admitted (opLen 0x0909 [clsN, clsH] 12) r s ∧ fieldN r.payload 2 2 = 0 ∧ accountOf s (fieldN
     r.payload 0 2) = none) ∧
    (∃ (s : State) (r : Request), Admitted (opLen 0x0909 [clsN, clsH] 12) r s ∧ fieldN r.payload 2 2 = 0 ∧ (accountOf s (fieldN
     r.payload 0 2)).isSome = true ∧ (fieldI r.payload 4 8) = 0) ∧
    (∃ (s : State) (r : Request), Admitted (opLen 0x0909 [clsN, clsH] 12) r s ∧ fieldN r.payload 2 2 = 0 ∧ (accountOf s (fieldN
     r.payload 0 2)).isSome = true ∧ (fieldI r.payload 4 8) ≠ 0 ∧ heldElsewhere 0x0908 r.port s = true) ∧
    (∃ (s : State) (r : Request) (a : _), Admitted (opLen 0x0909 [clsN, clsH] 12) r s ∧ fieldN r.payload 2 2 = 0 ∧ (fieldI
     r.payload 4 8) ≠ 0 ∧ heldElsewhere 0x0908 r.port s = false ∧ accountOf s (fieldN r.payload 0 2) = some a) :=
  ⟨⟨{ on with bill.deferred := false }, sign 0x0905 (req clsN []) _, ready_admitted (by decide +kernel), by decide +kernel⟩,
   ⟨{ on with bill.deferred := true }, sign 0x0905 (req clsN []) _, ready_admitted (by decide +kernel), by decide +kernel⟩,
   ⟨{ on with bill.deferred := false, logs.legal := List.replicate 4033 oldLegal }, sign 0x0905 (req clsN []) _, ready_admitted
    (by decide +kernel), by decide +kernel⟩,
   ⟨on, sign 0x0907 (req clsB (blockOf 1 0 8 (zeros 8))) on, ready_admitted (by decide +kernel), blockFits_of (by
    decide +kernel), by unfold MayOpen; decide +kernel⟩,
   ⟨on, sign 0x0908 (req clsB (blockOf 1 0 16 (zeros 16))) on, ready_admitted (by decide +kernel), blockFits_of (by
    decide +kernel), by unfold MayOpen; decide +kernel⟩,
   ⟨on, sign 0x0909 (req clsN (zeros 12)) on, ready_admitted (by decide +kernel), by decide +kernel⟩,
   ⟨{ on with bill.accounts := [⟨0, false, false, 0, 0, []⟩] }, sign 0x0909 (req clsN (zeros 12)) _, ready_admitted (by
    decide +kernel), by decide +kernel⟩,
   ⟨{ on with bill.accounts := [⟨0, false, false, 0, 0, []⟩], host.transfers := [⟨1, 0x0908, .e1, 16, [], 0, .receiving, 0⟩] },
    sign 0x0909 (req clsN (patch (zeros 12) [(4, leBytes 8 1)])) _, ready_admitted (by decide +kernel), by decide +kernel⟩,
   ⟨{ on with bill.accounts := [⟨0, false, false, 0, 0, []⟩] }, sign 0x0909 (req clsN (patch (zeros 12) [(4, leBytes 8 1)])) _,
    ⟨0, false, false, 0, 0, []⟩, ready_admitted (by decide +kernel), by decide +kernel⟩⟩

theorem test_hypotheses_DisplayCommands_1 :
    (∃ (x : Pixel), x.counter = 0xFFFFFFFF) ∧
    (∃ (g : Nat) (x : Pixel), x.counter ≠ 0xFFFFFFFF ∧ x.sub < 80000 ∧ x.code * g ≤ 80000) ∧
    (∃ (s : State) (v : Nat), awake s = true ∧ s.disp.state = .starting ∧ 900 ≤ v ∧ v ≤ 1600) ∧
    (∃ (s : State), (awake s = false ∨ s.disp.state ≠ .starting)) ∧
    (∃ (s : State) (v : Nat), awake s = true ∧ s.disp.state = .scanning ∧ (v < 850 ∨ 1650 < v)) ∧
    (∃ (s : State) (v : Nat), awake s = true ∧ s.disp.state = .scanning ∧ 850 ≤ v ∧ v ≤ 1650) ∧
    (∃ (s : State), awake s = true ∧ s.disp.state = .vppFault) ∧
    (∃ (s : State), (awake s = false ∨ s.disp.state ≠ .vppFault)) ∧
    (∃ (s : State), awake s = true ∧ scans s = true) ∧
    (∃ (s : State), (awake s = false ∨ scans s = false)) ∧
    (∃ (s : State), awake s = false) ∧
    (∃ (s : State) (r : Request), Admitted rowsSpec r s ∧ fieldN r.payload 0 1 = 1 ∧ 1 ≤ (fieldN r.payload 2 1) ∧ (fieldN
     r.payload 2 1) ≤ 21 ∧ fieldN r.payload 1 1 ≤ 63 ∧ fieldN r.payload 1 1 + (fieldN r.payload 2 1) ≤ 64 ∧ fieldN r.payload 3 1 =
     0 ∧ r.payload.length = 4 + 64 * (fieldN r.payload 2 1)) :=
  ⟨⟨⟨0, 0xFFFFFFFF, 0, 0, false⟩, by decide +kernel⟩,
   ⟨0, ⟨0, 0, 0, 0, false⟩, by decide +kernel⟩,
   ⟨{ on with disp.state := .starting }, 1600, by decide +kernel⟩,
   ⟨{ on with power.state := .hold }, by decide +kernel⟩,
   ⟨{ on with disp.state := .scanning }, 849, by decide +kernel⟩,
   ⟨{ on with disp.state := .scanning }, 1650, by decide +kernel⟩,
   ⟨{ on with disp.state := .vppFault }, by decide +kernel⟩,
   ⟨{ on with power.state := .hold }, by decide +kernel⟩,
   ⟨{ on with disp.state := .scanning }, by decide +kernel⟩,
   ⟨{ on with power.state := .hold }, by decide +kernel⟩,
   ⟨{ on with power.state := .hold }, by decide +kernel⟩,
   ⟨on, sign (rowsSpec).code (req clsN (patch (zeros 1348) [(0, leBytes 1 1), (2, leBytes 1 21), (1, leBytes 1 43)])) on,
    ready_admitted (by decide +kernel), by decide +kernel⟩⟩

theorem test_hypotheses_DisplayCommands_2 :
    (∃ (s : State) (r : Request), Admitted rowsSpec r s ∧ r.payload.length = 4 + 64 * fieldN r.payload 2 1 ∧ fieldN r.payload 0 1
     = 0) ∧
    (∃ (s : State) (r : Request), Admitted (opBulk 0x0A04 [clsB]) r s ∧ serviceIdle s = false) ∧
    (∃ (s : State) (r : Request), Admitted (opLen 0x0A05 [clsN] 4) r s ∧ fieldN r.payload 0 1 ≤ 2 ∧ fieldN r.payload 1 1 = 0 ∧ 1 ≤
     fieldN r.payload 2 2 ∧ fieldN r.payload 2 2 ≤ 60 ∧ serviceIdle s = true) ∧
    (∃ (s : State) (r : Request), Admitted (opLen 0x0A05 [clsN] 4) r s ∧ fieldN r.payload 0 1 ≤ 2 ∧ fieldN r.payload 1 1 = 0 ∧ 1 ≤
     fieldN r.payload 2 2 ∧ fieldN r.payload 2 2 ≤ 60 ∧ serviceIdle s = false) :=
  ⟨⟨on, sign (rowsSpec).code (req clsN (patch (zeros 68) [(2, leBytes 1 1)])) on, ready_admitted (by decide +kernel), by
    decide +kernel⟩,
   ⟨{ on with cis.lifecycle := 2 }, sign 0x0A04 (req clsB (zeros 272)) _, ready_admitted (by decide +kernel), by decide +kernel⟩,
   ⟨on, sign 0x0A05 (req clsN (patch (zeros 4) [(0, leBytes 1 2), (2, leBytes 2 60)])) on, ready_admitted (by decide +kernel), by
    decide +kernel⟩,
   ⟨{ on with cis.lifecycle := 2 }, sign 0x0A05 (req clsN (patch (zeros 4) [(0, leBytes 1 2), (2, leBytes 2 60)])) _,
    ready_admitted (by decide +kernel), by decide +kernel⟩⟩

theorem test_hypotheses_LifecycleFromOtp :
    (∃ (o : Otp), o.retired = true) ∧
    (∃ (o : Otp), o.retired = false ∧ o.rootValid = false) ∧
    (∃ (o : Otp), o.retired = false ∧ o.rootValid = true ∧ o.entriesY = 0) ∧
    (∃ (o : Otp), o.retired = false ∧ o.rootValid = true ∧ o.entriesY ≠ 0 ∧ o.entriesY = o.exitsX + 1) ∧
    (∃ (o : Otp), o.retired = false ∧ o.rootValid = true ∧ o.entriesY ≠ 0 ∧ o.entriesY = o.exitsX) ∧
    (∃ (o : Otp), o.retired = false ∧ o.rootValid = true ∧ o.entriesY ≠ 0 ∧ o.entriesY ≠ o.exitsX + 1 ∧ o.entriesY ≠ o.exitsX) :=
  ⟨⟨{ Otp.init with retired := true }, by decide +kernel⟩,
   ⟨Otp.init, by decide +kernel⟩,
   ⟨{ Otp.init with rootValid := true, entriesY := 0, exitsX := 0 }, by decide +kernel⟩,
   ⟨{ Otp.init with rootValid := true, entriesY := 1, exitsX := 0 }, by decide +kernel⟩,
   ⟨{ Otp.init with rootValid := true, entriesY := 1, exitsX := 1 }, by decide +kernel⟩,
   ⟨{ Otp.init with rootValid := true, entriesY := 2, exitsX := 0 }, by decide +kernel⟩⟩

theorem test_hypotheses_CisternCommands :
    (∃ (s : State), up s = false) ∧
    (∃ (s : State) (cls : Fin 7) (e : Fin 14), up s = true ∧ hasQueue s e.val = true ∧ cls.val ≠ 1) ∧
    (∃ (s : State) (e : Fin 14), hasQueue s e.val = false) ∧
    (∃ (s : State) (r : Request) (key : List Byte) (sig : List Byte), Admitted (⟨0x0B03, [clsN], false, fun n => 172 ≤ n && n ≤
     236⟩) r s ∧ r = r.append (key ++ sig)) ∧
    (∃ (s : State) (r : Request) (sig : List Byte), Admitted (opLen 0x0B05 [clsN] 92) r s ∧ r = r.append sig) ∧
    (∃ (s : State) (r : Request), Admitted (opNone 0x0B04 [clsN]) r s ∧ (s.cis.lifecycle = 1 ∨ s.cis.lifecycle = 3) ∧
     s.cis.migrating = none ∧ s.cis.trngFault = false) ∧
    (∃ (s : State) (r : Request), Admitted (opNone 0x0B04 [clsN]) r s ∧ (¬(s.cis.lifecycle = 1 ∨ s.cis.lifecycle = 3))) ∧
    (∃ (s : State) (r : Request), Admitted (opNone 0x0B04 [clsN]) r s ∧ (s.cis.lifecycle = 1 ∨ s.cis.lifecycle = 3) ∧
     s.cis.migrating ≠ none) ∧
    (∃ (s : State) (r : Request), Admitted (opNone 0x0B04 [clsN]) r s ∧ (s.cis.lifecycle = 1 ∨ s.cis.lifecycle = 3) ∧
     s.cis.migrating = none ∧ s.cis.trngFault = true) :=
  ⟨⟨{ on with power.phase := .charging }, by decide +kernel⟩,
   ⟨on, 0, 8, by decide +kernel⟩,
   ⟨on, 9, by decide +kernel⟩,
   ⟨on, sign 0x0B03 (req clsN (zeros 172)) on, [], [], ready_admitted (by decide +kernel), append_nil _⟩,
   ⟨on, sign 0x0B05 (req clsN (zeros 92)) on, [], ready_admitted (by decide +kernel), append_nil _⟩,
   ⟨{ on with cis.lifecycle := 1, cis.migrating := none, cis.trngFault := false }, sign 0x0B04 (req clsN []) _, ready_admitted
    (by decide +kernel), by decide +kernel⟩,
   ⟨{ on with cis.lifecycle := 2 }, sign 0x0B04 (req clsN []) _, ready_admitted (by decide +kernel), by decide +kernel⟩,
   ⟨{ on with cis.lifecycle := 1, cis.migrating := some 1 }, sign 0x0B04 (req clsN []) _, ready_admitted (by decide +kernel), by
    decide +kernel⟩,
   ⟨{ on with cis.lifecycle := 1, cis.migrating := none, cis.trngFault := true }, sign 0x0B04 (req clsN []) _, ready_admitted (by
    decide +kernel), by decide +kernel⟩⟩

theorem test_hypotheses_KeyStoreRules :
    (∃ (s : State), (s.cis.lifecycle = 0 ∨ s.cis.lifecycle = 4)) ∧
    (∃ (s : State) (slot : Nat), (s.cis.lifecycle = 2 ∨ s.otp.programmed.getLsbD slot = true)) :=
  ⟨⟨{ on with cis.lifecycle := 0 }, by decide +kernel⟩,
   ⟨{ on with cis.lifecycle := 2 }, 1, by decide +kernel⟩⟩

theorem test_hypotheses_DomainCommands_1 :
    (∃ (s : State), domainRuns s = true ∧ eligible s (standby s) = true) ∧
    (∃ (s : State), domainRuns s = true ∧ eligible s (standby s) = false ∧ (recentRestarts s).length + 1 ≤ cfgN s 0x0C03 0 0 1 3) ∧
    (∃ (s : State), domainRuns s = true ∧ eligible s (standby s) = false ∧ cfgN s 0x0C03 0 0 1 3 < (recentRestarts s).length + 1) ∧
    (∃ (s : State), domainRuns s = false) ∧
    (∃ (s : State), domainRuns s = true ∧ (s.dom.switchTo && steady s && eligible s (standby s)) = false) ∧
    (∃ (s : State), domainRuns s = true ∧ (s.dom.switchTo && steady s && eligible s (standby s)) = true) ∧
    (∃ (s : State), (domainRuns s && s.dom.active == 1 && eligible s 0 && cfgN s 0x0C01 0 0 1 2 == 2 && !handbackSuspended s &&
     steady s) = true) ∧
    (∃ (s : State), (domainRuns s && s.dom.active == 1 && eligible s 0 && cfgN s 0x0C01 0 0 1 2 == 2 && !handbackSuspended s &&
     steady s) = false) ∧
    (∃ (s : State), awake s = true ∧ (healthOf s (standby s)).getLsbD 6 = false) ∧
    (∃ (s : State), (awake s = false ∨ (healthOf s (standby s)).getLsbD 6 = true)) ∧
    (∃ (s : State), awake s = true ∧ (healthOf s (standby s)).getLsbD 5 = true) ∧
    (∃ (s : State), (awake s = false ∨ (healthOf s (standby s)).getLsbD 5 = false)) :=
  ⟨⟨{ on with dom.healthB := 1 }, by decide +kernel⟩,
   ⟨on, by decide +kernel⟩,
   ⟨{ on with dom.restarts := [0, 0, 0] }, by decide +kernel⟩,
   ⟨{ on with power.state := .hold }, by decide +kernel⟩,
   ⟨on, by decide +kernel⟩,
   ⟨{ on with dom.healthB := 1, dom.switchTo := true }, by decide +kernel⟩,
   ⟨{ on with dom.active := 1, dom.healthA := 1 }, by decide +kernel⟩,
   ⟨on, by decide +kernel⟩,
   ⟨on, by decide +kernel⟩,
   ⟨{ on with power.state := .hold }, by decide +kernel⟩,
   ⟨{ on with dom.healthB := 0x20 }, by decide +kernel⟩,
   ⟨{ on with power.state := .hold }, by decide +kernel⟩⟩

theorem test_hypotheses_DomainCommands_2 :
    (∃ (s : State) (r : Request), Admitted (opNone 0x0C02 [clsN]) r s ∧ inService s = true ∧ eligible s (standby s) = true) ∧
    (∃ (s : State) (r : Request), Admitted (opNone 0x0C02 [clsN]) r s ∧ (inService s = false ∨ eligible s (standby s) = false)) :=
  ⟨⟨{ on with dom.healthB := 1 }, sign 0x0C02 (req clsN []) _, ready_admitted (by decide +kernel), by decide +kernel⟩,
   ⟨{ on with cis.lifecycle := 2 }, sign 0x0C02 (req clsN []) _, ready_admitted (by decide +kernel), by decide +kernel⟩⟩

theorem test_hypotheses_StackCommands_1 :
    (∃ (s : State) (k : Fin 20), (¬(trellisRuns s = true ∧ s.trellis.role ≠ 0 ∧ k.val < framesPerCycle s))) ∧
    (∃ (s : State) (k : Fin 20), (trellisRuns s = true ∧ s.trellis.role ≠ 0 ∧ k.val < framesPerCycle s) ∧ s.trellis.role = 3 ∧
     s.trellis.transfer = none) ∧
    (∃ (s : State) (k : Fin 20), trellisRuns s = true ∧ s.trellis.role ≠ 0 ∧ k.val < framesPerCycle s ∧ s.trellis.role = 3 ∧ (∃ m,
     s.trellis.transfer = some (m, 0))) ∧
    (∃ (s : State) (k : Fin 20) (m : _) (j : _), (trellisRuns s = true ∧ s.trellis.role ≠ 0 ∧ k.val < framesPerCycle s) ∧
     s.trellis.role = 3 ∧ s.trellis.transfer = some (m, j + 1)) ∧
    (∃ (s : State) (k : Fin 20), (trellisRuns s = true ∧ s.trellis.role ≠ 0 ∧ k.val < framesPerCycle s) ∧ s.trellis.role ≠ 3 ∧
     s.trellis.transfer ≠ some (ownSlot s, 0)) ∧
    (∃ (s : State) (k : Fin 20), (trellisRuns s = true ∧ s.trellis.role ≠ 0 ∧ k.val < framesPerCycle s) ∧ s.trellis.role ≠ 3 ∧
     s.trellis.transfer = some (ownSlot s, 0)) ∧
    (∃ (s : State), trellisRuns s = false) ∧
    (∃ (s : State) (bytes : List Byte), trellisRuns s = true ∧ (bytes.length ≠ 64 ∨ checkIsGood bytes = false)) ∧
    (∃ (s : State) (bytes : List Byte), trellisRuns s = true ∧ bytes.length = 64 ∧ checkIsGood bytes = true ∧ (fieldN bytes 0 2 ≠
     stackId s ∨ fieldN bytes 2 1 ≠ 2)) ∧
    (∃ (s : State) (bytes : List Byte), trellisRuns s = true ∧ bytes.length = 64 ∧ checkIsGood bytes = true ∧ fieldN bytes 0 2 =
     stackId s ∧ fieldN bytes 2 1 = 2 ∧ (macIsGood s (bytes.take 44) (slice bytes 44 16)) = false ∧ s.trellis.role = 3) :=
  ⟨⟨on, 0, by decide +kernel⟩,
   ⟨{ on with trellis.role := 3, trellis.transfer := none, cfg.recs := [rec 0x0C02 0 (patch (zeros 48) [(0, leBytes 2 5 ++ leBytes 2 3 ++ leBytes 2 3)])] },
    0, by decide +kernel⟩,
   ⟨{ stacked with trellis.role := 3, trellis.transfer := some (1, 0) }, 19, by decide, by decide, by decide, rfl, 1, rfl⟩,
   ⟨{ on with trellis.role := 3, trellis.transfer := some (default, default + 1), cfg.recs := [rec 0x0C02 0 (patch (zeros 48) [(0, leBytes 2 5 ++ leBytes 2 3 ++ leBytes 2 3)])] },
    0, default, default, by decide +kernel⟩,
   ⟨{ on with trellis.role := 1, cfg.recs := [rec 0x0C02 0 (patch (zeros 48) [(0, leBytes 2 5 ++ leBytes 2 3 ++ leBytes 2 3)])] },
    0, by decide +kernel⟩,
   ⟨{ on with trellis.transfer := some (0, 0), trellis.role := 1, cfg.recs := [rec 0x0C02 0 (patch (zeros 48) [(0, leBytes 2 5 ++ leBytes 2 3 ++ leBytes 2 3)])] },
    0, by decide +kernel⟩,
   ⟨on, by decide +kernel⟩,
   ⟨{ on with cfg.recs := [rec 0x0C02 0 (patch (zeros 48) [(0, leBytes 2 5 ++ leBytes 2 3 ++ leBytes 2 3)])] }, [], by
    decide +kernel⟩,
   ⟨{ on with cfg.recs := [rec 0x0C02 0 (patch (zeros 48) [(0, leBytes 2 5 ++ leBytes 2 3 ++ leBytes 2 3)])] }, withCheck (zeros
    60), by decide +kernel⟩,
   ⟨{ on with trellis.role := 3, cfg.recs := [rec 0x0C02 0 (patch (zeros 48) [(0, leBytes 2 5 ++ leBytes 2 3 ++ leBytes 2 3)])] },
    withCheck (leBytes 2 5 ++ [2] ++ zeros 57), by decide +kernel⟩⟩

theorem test_hypotheses_StackCommands_2 :
    (∃ (s : State) (bytes : List Byte), trellisRuns s = true ∧ bytes.length = 64 ∧ checkIsGood bytes = true ∧ fieldN bytes 0 2 =
     stackId s ∧ fieldN bytes 2 1 = 2 ∧ (macIsGood s (bytes.take 44) (slice bytes 44 16)) = false ∧ s.trellis.role ≠ 3) ∧
    (∃ (s : State) (bytes : List Byte), trellisRuns s = true ∧ bytes.length = 64 ∧ checkIsGood bytes = true ∧ fieldN bytes 0 2 =
     stackId s ∧ fieldN bytes 2 1 = 2 ∧ macIsGood s (bytes.take 44) (slice bytes 44 16) = true ∧ s.trellis.role = 3 ∧ laterTerm
     (BitVec.ofNat 16 (fieldN bytes 16 2)) s.trellis.term = false) ∧
    (∃ (s : State) (bytes : List Byte), trellisRuns s = true ∧ bytes.length = 64 ∧ checkIsGood bytes = true ∧ fieldN bytes 0 2 =
     stackId s ∧ fieldN bytes 2 1 = 2 ∧ macIsGood s (bytes.take 44) (slice bytes 44 16) = true ∧ s.trellis.role ≠ 3 ∧
     s.trellis.listening = false ∧ laterTerm s.trellis.term (BitVec.ofNat 16 (fieldN bytes 16 2)) = true) ∧
    (∃ (s : State) (bytes : List Byte), trellisRuns s = true ∧ bytes.length = 64 ∧ checkIsGood bytes = true ∧ fieldN bytes 0 2 =
     stackId s ∧ fieldN bytes 2 1 = 2 ∧ macIsGood s (bytes.take 44) (slice bytes 44 16) = true ∧ ((s.trellis.role = 3 ∧ laterTerm
     (BitVec.ofNat 16 (fieldN bytes 16 2)) s.trellis.term = true) ∨ (s.trellis.role ≠ 3 ∧ (s.trellis.listening = true ∨ laterTerm
     s.trellis.term (BitVec.ofNat 16 (fieldN bytes 16 2)) = false)))) ∧
    (∃ (s : State) (slot : Slot), trellisRuns s = true ∧ slot.val = ownSlot s) :=
  ⟨⟨{ on with cfg.recs := [rec 0x0C02 0 (patch (zeros 48) [(0, leBytes 2 5 ++ leBytes 2 3 ++ leBytes 2 3)])] }, withCheck
    (leBytes 2 5 ++ [2] ++ zeros 57), by decide +kernel⟩,
   ⟨{ stacked with trellis.role := 3 }, signedSync ({ stacked with trellis.role := 3 }) 0, by decide, rfl, checkIsGood_withCheck
    _, by decide +kernel, by decide +kernel, sync_mac _ _ rfl, rfl, by decide +kernel⟩,
   ⟨{ stacked with trellis.role := 1 }, signedSync ({ stacked with trellis.role := 1 }) 65535, by decide, rfl,
    checkIsGood_withCheck _, by decide +kernel, by decide +kernel, sync_mac _ _ rfl, by decide, rfl, by decide +kernel⟩,
   ⟨{ stacked with trellis.role := 3 }, signedSync ({ stacked with trellis.role := 3 }) 1, by decide, rfl, checkIsGood_withCheck
    _, by decide +kernel, by decide +kernel, sync_mac _ _ rfl, by decide +kernel⟩,
   ⟨{ on with cfg.recs := [rec 0x0C02 0 (patch (zeros 48) [(0, leBytes 2 5 ++ leBytes 2 3 ++ leBytes 2 3)])] }, 0, by
    decide +kernel⟩⟩

theorem test_hypotheses_StackCommands_3 :
    (∃ (s : State) (bytes : List Byte) (slot : Slot), trellisRuns s = true ∧ slot.val ≠ ownSlot s ∧ (bytes.length ≠ 144 ∨
     checkIsGood bytes = false)) ∧
    (∃ (s : State) (bytes : List Byte) (slot : Slot), trellisRuns s = true ∧ slot.val ≠ ownSlot s ∧ bytes.length = 144 ∧
     checkIsGood bytes = true ∧ (fieldN bytes 0 2 ≠ sourceId s slot.val ∨ fieldN bytes 2 1 ≠ 1)) ∧
    (∃ (s : State) (bytes : List Byte) (slot : Slot), trellisRuns s = true ∧ slot.val ≠ ownSlot s ∧ bytes.length = 144 ∧
     checkIsGood bytes = true ∧ fieldN bytes 0 2 = sourceId s slot.val ∧ fieldN bytes 2 1 = 1 ∧ macIsGood s (bytes.take 8 ++ slice
     bytes 40 84) (slice bytes 124 16) = true) ∧
    (∃ (s : State) (bytes : List Byte) (slot : Slot), trellisRuns s = true ∧ slot.val ≠ ownSlot s ∧ bytes.length = 144 ∧
     checkIsGood bytes = true ∧ fieldN bytes 0 2 = sourceId s slot.val ∧ fieldN bytes 2 1 = 1 ∧ macIsGood s (bytes.take 8 ++ slice
     bytes 40 84) (slice bytes 124 16) = false) ∧
    (∃ (s : State) (slot : Slot), trellisRuns s = true ∧ (s.trellis.role = 3 ∨ s.trellis.role = 2) ∧ s.trellis.present.getLsbD
     slot.val = true ∧ slot.val ≠ ownSlot s) ∧
    (∃ (s : State) (slot : Slot), trellisRuns s = true ∧ (¬((s.trellis.role = 3 ∨ s.trellis.role = 2) ∧ s.trellis.present.getLsbD
     slot.val = true ∧ slot.val ≠ ownSlot s))) ∧
    (∃ (s : State), trellisRuns s = true ∧ s.trellis.role = 2) :=
  ⟨⟨{ on with cfg.recs := [rec 0x0C02 0 (patch (zeros 48) [(0, leBytes 2 5 ++ leBytes 2 3 ++ leBytes 2 3)])] }, [], 1, by
    decide +kernel⟩,
   ⟨stacked, withCheck (zeros 140), 1, by decide, by decide, rfl, checkIsGood_withCheck _, by decide +kernel⟩,
   ⟨stacked, signedSlot stacked, 1, by decide, by decide, rfl, checkIsGood_withCheck _, by decide +kernel, by decide +kernel,
    slot_mac _ rfl⟩,
   ⟨{ stacked with cis.trellis := none }, withCheck (leBytes 2 81 ++ [1] ++ zeros 137), 1, by decide, by decide, rfl,
    checkIsGood_withCheck _, by decide +kernel, by decide +kernel, rfl⟩,
   ⟨{ on with trellis.role := 3, trellis.present := 2, cfg.recs := [rec 0x0C02 0 (patch (zeros 48) [(0, leBytes 2 5 ++ leBytes 2 3 ++ leBytes 2 3)])] },
    1, by decide +kernel⟩,
   ⟨{ on with cfg.recs := [rec 0x0C02 0 (patch (zeros 48) [(0, leBytes 2 5 ++ leBytes 2 3 ++ leBytes 2 3)])] }, 1, by
    decide +kernel⟩,
   ⟨{ on with trellis.role := 2, cfg.recs := [rec 0x0C02 0 (patch (zeros 48) [(0, leBytes 2 5 ++ leBytes 2 3 ++ leBytes 2 3)])] },
    by decide +kernel⟩⟩

theorem test_hypotheses_StackCommands_4 :
    (∃ (s : State), (trellisRuns s = false ∨ s.trellis.role ≠ 2)) ∧
    (∃ (s : State), trellisRuns s = true ∧ s.trellis.listening = true ∧ (ownSlot s = 0 ∨ (candidateMask s).testBit (ownSlot s) =
     true)) ∧
    (∃ (s : State), (trellisRuns s = false ∨ s.trellis.listening = false ∨ (ownSlot s ≠ 0 ∧ (candidateMask s).testBit (ownSlot s)
     = false))) ∧
    (∃ (s : State), trellisRuns s = true ∧ (s.trellis.role = 1 ∨ s.trellis.role = 2)) ∧
    (∃ (s : State), (trellisRuns s = false ∨ (s.trellis.role ≠ 1 ∧ s.trellis.role ≠ 2))) ∧
    (∃ (s : State), (trellisRuns s = false ∨ s.trellis.role ≠ 3)) ∧
    (∃ (s : State) (pairB : Bool) (failed : Bool), trellisRuns s = true ∧ (if pairB then s.trellis.failedB else s.trellis.failedA)
     ≠ failed) ∧
    (∃ (s : State) (pairB : Bool) (failed : Bool), (trellisRuns s = false ∨ (if pairB then s.trellis.failedB else
     s.trellis.failedA) = failed)) ∧
    (∃ (s : State) (r : Request), Admitted (opLen 0x0C04 [clsN] 4) r s ∧ fieldN r.payload 1 3 = 0 ∧ s.trellis.role = 3 ∧ (fieldN
     r.payload 0 1) ∈ spareCandidates s) ∧
    (∃ (s : State) (r : Request), Admitted (opLen 0x0C04 [clsN] 4) r s ∧ fieldN r.payload 1 3 = 0 ∧ s.trellis.role = 3 ∧ (fieldN
     r.payload 0 1) ∉ spareCandidates s) ∧
    (∃ (s : State) (r : Request), Admitted (opLen 0x0C04 [clsN] 4) r s ∧ fieldN r.payload 1 3 = 0 ∧ s.trellis.role ≠ 3) :=
  ⟨⟨on, by decide +kernel⟩,
   ⟨{ on with trellis.listening := true, cfg.recs := [rec 0x0C02 0 (patch (zeros 48) [(0, leBytes 2 5 ++ leBytes 2 3 ++ leBytes 2 3)])] },
    by decide +kernel⟩,
   ⟨on, by decide +kernel⟩,
   ⟨{ on with trellis.role := 1, cfg.recs := [rec 0x0C02 0 (patch (zeros 48) [(0, leBytes 2 5 ++ leBytes 2 3 ++ leBytes 2 3)])] },
    by decide +kernel⟩,
   ⟨on, by decide +kernel⟩,
   ⟨on, by decide +kernel⟩,
   ⟨{ on with cfg.recs := [rec 0x0C02 0 (patch (zeros 48) [(0, leBytes 2 5 ++ leBytes 2 3 ++ leBytes 2 3)])] }, true, true, by
    decide +kernel⟩,
   ⟨on, true, true, by decide +kernel⟩,
   ⟨{ on with trellis.role := 3, trellis.present := 2, cfg.recs := [rec 0x0C02 0 (patch (zeros 48) [(0, leBytes 2 5 ++ leBytes 2 3 ++ leBytes 2 3)])] },
    sign 0x0C04 (req clsN (patch (zeros 4) [(0, leBytes 1 1)])) _, ready_admitted (by decide +kernel), by decide +kernel⟩,
   ⟨{ on with trellis.role := 3 }, sign 0x0C04 (req clsN (zeros 4)) _, ready_admitted (by decide +kernel), by decide +kernel⟩,
   ⟨on, sign 0x0C04 (req clsN (zeros 4)) on, ready_admitted (by decide +kernel), by decide +kernel⟩⟩

theorem test_hypotheses_WadiCommands_1 :
    (∃ (s : State), (wadiRuns s = false ∨ s.wadi.test ≠ none)) ∧
    (∃ (s : State) (position : Fin 256), wadiRuns s = true ∧ s.wadi.test = none ∧ (s.sun.quality.getLsbD 0 = false ∨ wadiSender
     ({ (if up s then reachAngle 4096 s else s) with wadi := { s.wadi with position := some position.val, heldBack := s.wadi.heldBack && decide (position.val ≠ 0) } })
     = false)) ∧
    (∃ (s : State) (position : Fin 256), wadiRuns s = true ∧ s.wadi.test = none ∧ s.sun.quality.getLsbD 0 = true ∧ wadiSender
     ({ (if up s then reachAngle 4096 s else s) with wadi := { s.wadi with position := some position.val, heldBack := s.wadi.heldBack && decide (position.val ≠ 0) } })
     = true ∧ s.wadi.role = 4 ∧ s.cis.wadi ≠ none ∧ s.wadi.duplicate = false ∧ position.val = 0) ∧
    (∃ (s : State) (position : Fin 256), wadiRuns s = true ∧ s.wadi.test = none ∧ s.sun.quality.getLsbD 0 = true ∧ wadiSender
     ({ (if up s then reachAngle 4096 s else s) with wadi := { s.wadi with position := some position.val, heldBack := s.wadi.heldBack && decide (position.val ≠ 0) } })
     = true ∧ s.wadi.role ≠ 4 ∧ position.val = 0) ∧
    (∃ (s : State) (position : Fin 256), wadiRuns s = true ∧ s.wadi.test = none ∧ s.sun.quality.getLsbD 0 = true ∧ wadiSender
     ({ (if up s then reachAngle 4096 s else s) with wadi := { s.wadi with position := some position.val, heldBack := s.wadi.heldBack && decide (position.val ≠ 0) } })
     = true ∧ 24 ≤ position.val ∧ position.val < 240 ∧ position.val % 8 = 0 ∧ (s.wadi.role = 3 ∨ s.wadi.role = 4) ∧ s.wadi.index ≠
     none ∧ s.wadi.windows ≤ (position.val - 24) / 8 ∧ windowIndex s ((position.val - 24) / 8) = s.wadi.index ∧ s.wadi.again = []
     ∧ s.cis.wadi ≠ none ∧ s.wadi.duplicate = false ∧ domainRuns s = true) ∧
    (∃ (s : State) (position : Fin 256), wadiRuns s = true ∧ s.wadi.test = none ∧ s.sun.quality.getLsbD 0 = true ∧ wadiSender
     ({ (if up s then reachAngle 4096 s else s) with wadi := { s.wadi with position := some position.val, heldBack := s.wadi.heldBack && decide (position.val ≠ 0) } })
     = true ∧ 24 ≤ position.val ∧ position.val < 240 ∧ position.val % 8 = 0 ∧ (s.wadi.role = 3 ∨ s.wadi.role = 4) ∧ s.wadi.index ≠
     none ∧ s.wadi.windows ≤ (position.val - 24) / 8 ∧ windowIndex s ((position.val - 24) / 8) = s.wadi.index ∧ s.wadi.again = []
     ∧ s.cis.wadi ≠ none ∧ s.wadi.duplicate = false ∧ domainRuns s = false ∧ s.wadi.beacon.length = 32) ∧
    (∃ (s : State) (position : Fin 256), wadiRuns s = true ∧ s.wadi.test = none ∧ s.sun.quality.getLsbD 0 = true ∧ wadiSender
     ({ (if up s then reachAngle 4096 s else s) with wadi := { s.wadi with position := some position.val, heldBack := s.wadi.heldBack && decide (position.val ≠ 0) } })
     = true ∧ 24 ≤ position.val ∧ position.val < 240 ∧ position.val % 8 = 0 ∧ (s.wadi.role = 3 ∨ s.wadi.role = 4) ∧ s.wadi.index ≠
     none ∧ s.wadi.windows ≤ (position.val - 24) / 8 ∧ windowIndex s ((position.val - 24) / 8) = s.wadi.index ∧ s.wadi.again = []
     ∧ s.cis.wadi ≠ none ∧ s.wadi.duplicate = false ∧ domainRuns s = false ∧ s.wadi.beacon = []) ∧
    (∃ (s : State) (f : WadiRx), wadiRuns s = false ∨ s.cis.wadi = none ∨ bestInput s f = none) ∧
    (∃ (s : State) (f : WadiRx) (key : BitVec 256) (x : WadiHeard), wadiRuns s = true ∧ s.cis.wadi = some key ∧ bestInput s f =
     some x ∧ controlOk x.control = false) ∧
    (∃ (s : State) (f : WadiRx) (key : BitVec 256) (x : WadiHeard), wadiRuns s = true ∧ s.cis.wadi = some key ∧ bestInput s f =
     some x ∧ controlOk x.control = true ∧ frameBlanked (cfgN s 0x0D03 0 0 1 8) (cfgN s 0x0D03 0 1 1 5) x.preamble x.samples =
     true) ∧
    (∃ (s : State) (f : WadiRx) (key : BitVec 256) (x : WadiHeard), wadiRuns s = true ∧ s.cis.wadi = some key ∧ bestInput s f =
     some x ∧ controlOk x.control = true ∧ frameBlanked (cfgN s 0x0D03 0 0 1 8) (cfgN s 0x0D03 0 1 1 5) x.preamble x.samples =
     false ∧ fieldN x.payload 0 2 ≠ wadiSite s) ∧
    (∃ (s : State) (f : WadiRx) (key : BitVec 256) (x : WadiHeard), wadiRuns s = true ∧ s.cis.wadi = some key ∧ bestInput s f =
     some x ∧ controlOk x.control = true ∧ frameBlanked (cfgN s 0x0D03 0 0 1 8) (cfgN s 0x0D03 0 1 1 5) x.preamble x.samples =
     false ∧ fieldN x.payload 0 2 = wadiSite s ∧ 28 + fieldN x.payload 10 2 ≤ x.payload.length ∧ slice x.payload (20 + fieldN
     x.payload 10 2) 8 = wordBytes 8 (Config.gcmTag key (wadiNonce (fieldN x.payload 2 2) (fieldN x.payload 6 1) (fieldN x.payload
     8 2) (BitVec.ofNat 32 (fieldN x.payload 12 4))) (x.payload.take (20 + fieldN x.payload 10 2))) ∧ fieldN x.payload 2 2 =
     wadiNode s ∧ fieldN x.payload 6 1 = wadiSlot s) :=
  ⟨⟨{ on with wadi.test := some 0 }, by decide +kernel⟩,
   ⟨{ on with wadi.test := none }, 0, by decide +kernel⟩,
   ⟨{ on with wadi.test := none, wadi.role := 4, wadi.duplicate := false, sun.quality := 1, cis.wadi := some 1 }, 0, by
    decide +kernel⟩,
   ⟨{ on with wadi.test := none, sun.quality := 1 }, 0, by decide +kernel⟩,
   ⟨{ on with wadi.test := none, wadi.role := 3, wadi.again := [], wadi.duplicate := false, sun.quality := 1, cis.wadi := some 1, wadi.index := some 0 },
    232, by decide +kernel⟩,
   ⟨{ on with wadi.test := none, wadi.role := 3, wadi.again := [], wadi.duplicate := false, sun.quality := 1, cis.wadi := some 1, wadi.index := some 0, power.phase := .bootFailed, wadi.beacon := zeros 32 },
    232, by decide +kernel⟩,
   ⟨{ on with wadi.test := none, wadi.role := 3, wadi.again := [], wadi.duplicate := false, wadi.beacon := [], sun.quality := 1, cis.wadi := some 1, wadi.index := some 0, power.phase := .bootFailed },
    232, by decide +kernel⟩,
   ⟨on, heardOf 0 [], .inr (.inl rfl)⟩,
   ⟨{ on with cis.wadi := some 1 }, heardOf 1 [], 1, _, by decide, rfl, rfl, by decide +kernel⟩,
   ⟨{ on with cis.wadi := some 1 }, blankedFrame, 1, _, by decide, rfl, rfl, by decide +kernel, by decide +kernel⟩,
   ⟨{ on with cis.wadi := some 1 }, heardOf (frameControl 0 6) [1, 0], 1, _, by decide, rfl, rfl, by decide +kernel, by
    decide +kernel, by decide⟩,
   ⟨{ on with cis.wadi := some 1 }, wadiFrame 1, 1, _, by decide, rfl, rfl, by decide +kernel, by decide +kernel, by
    decide +kernel, by decide +kernel, rfl, by decide +kernel⟩⟩

theorem test_hypotheses_WadiCommands_2 :
    (∃ (s : State) (f : WadiRx) (key : BitVec 256) (x : WadiHeard), wadiRuns s = true ∧ s.cis.wadi = some key ∧ bestInput s f =
     some x ∧ controlOk x.control = true ∧ frameBlanked (cfgN s 0x0D03 0 0 1 8) (cfgN s 0x0D03 0 1 1 5) x.preamble x.samples =
     false ∧ fieldN x.payload 0 2 = wadiSite s ∧ 28 + fieldN x.payload 10 2 ≤ x.payload.length ∧ slice x.payload (20 + fieldN
     x.payload 10 2) 8 = wordBytes 8 (Config.gcmTag key (wadiNonce (fieldN x.payload 2 2) (fieldN x.payload 6 1) (fieldN x.payload
     8 2) (BitVec.ofNat 32 (fieldN x.payload 12 4))) (x.payload.take (20 + fieldN x.payload 10 2))) ∧ (fieldN x.payload 2 2 ≠
     wadiNode s ∨ fieldN x.payload 6 1 ≠ wadiSlot s) ∧ freshFrame s (fieldN x.payload 2 2) (fieldN x.payload 6 1) (BitVec.ofNat 16
     (fieldN x.payload 8 2)) (BitVec.ofNat 32 (fieldN x.payload 12 4)) = false) ∧
    (∃ (s : State) (f : WadiRx) (key : BitVec 256) (x : WadiHeard), wadiRuns s = true ∧ s.cis.wadi = some key ∧ bestInput s f =
     some x ∧ controlOk x.control = true ∧ frameBlanked (cfgN s 0x0D03 0 0 1 8) (cfgN s 0x0D03 0 1 1 5) x.preamble x.samples =
     false ∧ fieldN x.payload 0 2 = wadiSite s ∧ 28 + fieldN x.payload 10 2 ≤ x.payload.length ∧ slice x.payload (20 + fieldN
     x.payload 10 2) 8 = wordBytes 8 (Config.gcmTag key (wadiNonce (fieldN x.payload 2 2) (fieldN x.payload 6 1) (fieldN x.payload
     8 2) (BitVec.ofNat 32 (fieldN x.payload 12 4))) (x.payload.take (20 + fieldN x.payload 10 2))) ∧ (fieldN x.payload 2 2 ≠
     wadiNode s ∨ fieldN x.payload 6 1 ≠ wadiSlot s) ∧ freshFrame s (fieldN x.payload 2 2) (fieldN x.payload 6 1) (BitVec.ofNat 16
     (fieldN x.payload 8 2)) (BitVec.ofNat 32 (fieldN x.payload 12 4)) = true) ∧
    (∃ (s : State), (wadiRuns s = false ∨ s.wadi.role ≠ 4)) ∧
    (∃ (s : State) (node : Nat) (n : _), wadiRuns s = true ∧ neighbourOf s node = some n ∧ n.present = true) ∧
    (∃ (s : State) (node : Nat), (wadiRuns s = false ∨ (∀ n, neighbourOf s node = some n → n.present = false))) ∧
    (∃ (s : State), (wadiRuns s = false ∨ s.wadi.role = 4)) ∧
    (∃ (s : State), wadiRuns s = true ∧ wadiSender s = true ∧ wadiPriority s ≠ 0 ∧ s.wadi.role ≠ 4) ∧
    (∃ (s : State), (wadiSender s = false ∨ wadiPriority s = 0)) ∧
    (∃ (s : State), wadiRuns s = true ∧ s.wadi.role = 2) ∧
    (∃ (s : State), (wadiRuns s = false ∨ s.wadi.role ≠ 2)) ∧
    (∃ (s : State) (r : Request), Admitted (opLen 0x0D03 [clsN] 4) r s ∧ (fieldN r.payload 0 1) ≤ 3 ∧ fieldN r.payload 1 1 = 0 ∧ 1
     ≤ (fieldN r.payload 2 2) ∧ (fieldN r.payload 2 2) ≤ 60 ∧ inService s = true ∧ allIdle s = true) ∧
    (∃ (s : State) (r : Request), Admitted (opLen 0x0D03 [clsN] 4) r s ∧ (fieldN r.payload 0 1) ≤ 3 ∧ fieldN r.payload 1 1 = 0 ∧ 1
     ≤ (fieldN r.payload 2 2) ∧ (fieldN r.payload 2 2) ≤ 60 ∧ (inService s = false ∨ allIdle s = false)) :=
  ⟨⟨{ on with cis.wadi := some 1, wadi.replays := [⟨2, 0, 0, 0⟩] }, wadiFrame 2, 1, _, by decide, rfl, rfl, by decide +kernel, by
    decide +kernel, by decide +kernel, by decide +kernel, rfl, by decide +kernel⟩,
   ⟨{ on with cis.wadi := some 1 }, wadiFrame 2, 1, _, by decide, rfl, rfl, by decide +kernel, by decide +kernel, by
    decide +kernel, by decide +kernel, rfl, by decide +kernel⟩,
   ⟨on, by decide +kernel⟩,
   ⟨{ on with wadi.neighbours := [neighbour 7] }, 7, neighbour 7, by decide +kernel⟩,
   ⟨on, 0, by decide +kernel⟩,
   ⟨{ on with wadi.role := 4 }, by decide +kernel⟩,
   ⟨{ on with cfg.recs := [rec 0x0D01 0 (patch (zeros 48) [(4, leBytes 1 1), (5, leBytes 1 1)])] }, by decide +kernel⟩,
   ⟨{ on with trellis.role := 1 }, by decide +kernel⟩,
   ⟨{ on with wadi.role := 2 }, by decide +kernel⟩,
   ⟨on, by decide +kernel⟩,
   ⟨on, sign 0x0D03 (req clsN (patch (zeros 4) [(0, leBytes 1 3), (2, leBytes 2 60)])) on, ready_admitted (by decide +kernel), by
    decide +kernel⟩,
   ⟨{ on with cis.lifecycle := 2 }, sign 0x0D03 (req clsN (patch (zeros 4) [(0, leBytes 1 3), (2, leBytes 2 60)])) _,
    ready_admitted (by decide +kernel), by decide +kernel⟩⟩

theorem test_hypotheses_WadiCommands_3 :
    (∃ (s : State) (r : Request), Admitted (opLen 0x0D03 [clsN] 4) r s ∧ (fieldN r.payload 0 1) ≤ 3 ∧ fieldN r.payload 1 1 = 0 ∧
     (fieldN r.payload 2 2) = 0) ∧
    (∃ (s : State) (r : Request), Admitted (opLen 0x0D03 [clsN] 4) r s ∧ (fieldN r.payload 0 1) ≤ 3 ∧ fieldN r.payload 1 1 = 0 ∧
     60 < (fieldN r.payload 2 2)) :=
  ⟨⟨on, sign 0x0D03 (req clsN (patch (zeros 4) [(0, leBytes 1 3)])) on, ready_admitted (by decide +kernel), by decide +kernel⟩,
   ⟨on, sign 0x0D03 (req clsN (patch (zeros 4) [(0, leBytes 1 3), (2, leBytes 2 61)])) on, ready_admitted (by decide +kernel), by
    decide +kernel⟩⟩

theorem test_hypotheses_UpdateCommands_1 :
    (∃ (s : State) (r : Request) (data : List Byte) (x : _), Admitted (opBulk 0x0E01 [clsB]) r s ∧ BlockFits longestPackage
     r.payload ∧ r = r.append data ∧ findTransfer s (fieldN r.payload 0 4) = some x ∧ x.state ≠ .receiving ∧ x.status = St.ok) ∧
    (∃ (s : State) (r : Request) (data : List Byte) (x : _), Admitted (opBulk 0x0E01 [clsB]) r s ∧ BlockFits longestPackage
     r.payload ∧ r = r.append data ∧ findTransfer s (fieldN r.payload 0 4) = some x ∧ x.state ≠ .receiving ∧ x.status ≠ St.ok) ∧
    (∃ (s : State) (r : Request) (data : List Byte) (x : _), Admitted (opBulk 0x0E01 [clsB]) r s ∧ BlockFits longestPackage
     r.payload ∧ r = r.append data ∧ findTransfer s (fieldN r.payload 0 4) = some x ∧ x.state = .receiving ∧ x.port ≠ r.port) ∧
    (∃ (s : State) (r : Request) (data : List Byte), Admitted (opBulk 0x0E01 [clsB]) r s ∧ BlockFits longestPackage r.payload ∧ r
     = r.append data ∧ findTransfer s (fieldN r.payload 0 4) = none ∧ fieldN r.payload 4 4 = 0 ∧ fieldN r.payload 12 2 = 256 ∧
     openTransfers s < 4 ∧ s.power.phase ≠ .recovery ∧ s.update.lock = true) ∧
    (∃ (s : State) (r : Request) (data : List Byte) (st : _), Admitted (opBulk 0x0E01 [clsB]) r s ∧ BlockFits longestPackage
     r.payload ∧ r = r.append data ∧ findTransfer s (fieldN r.payload 0 4) = none ∧ fieldN r.payload 4 4 = 0 ∧ fieldN r.payload 12
     2 = 256 ∧ openTransfers s < 4 ∧ s.power.phase ≠ .recovery ∧ s.update.lock = false ∧ (fieldN (slice r.payload 16 256) 8 1) ≤ 4
     ∧ overlap s (fieldN (slice r.payload 16 256) 8 1) (packageCounter (slice r.payload 16 256)) (r.flags.getLsbD 2) = .refused st) ∧
    (∃ (s : State) (r : Request) (data : List Byte) (step : _) (st : _), Admitted (opBulk 0x0E01 [clsB]) r s ∧ BlockFits
     longestPackage r.payload ∧ r = r.append data ∧ findTransfer s (fieldN r.payload 0 4) = none ∧ fieldN r.payload 4 4 = 0 ∧
     fieldN r.payload 12 2 = 256 ∧ openTransfers s < 4 ∧ s.power.phase ≠ .recovery ∧ s.update.lock = false ∧ (fieldN (slice
     r.payload 16 256) 8 1) ≤ 4 ∧ overlap s (fieldN (slice r.payload 16 256) 8 1) (packageCounter (slice r.payload 16 256))
     (r.flags.getLsbD 2) = .opens ∧ headerChecks s (slice r.payload 16 256) = some (step, st)) ∧
    (∃ (s : State) (r : Request) (data : List Byte), Admitted (opBulk 0x0E01 [clsB]) r s ∧ BlockFits longestPackage r.payload ∧ r
     = r.append data ∧ findTransfer s (fieldN r.payload 0 4) = none ∧ fieldN r.payload 4 4 = 0 ∧ fieldN r.payload 12 2 = 256 ∧
     openTransfers s < 4 ∧ s.power.phase ≠ .recovery ∧ s.update.lock = false ∧ (fieldN (slice r.payload 16 256) 8 1) ≤ 4 ∧ overlap
     s (fieldN (slice r.payload 16 256) 8 1) (packageCounter (slice r.payload 16 256)) (r.flags.getLsbD 2) = .opens ∧ fieldN
     r.payload 8 4 = 256 + streamLength (slice r.payload 16 256)) ∧
    (∃ (s : State) (r : Request), Admitted (opLen 0x0E03 [clsN] 4) r s ∧ 1 ≤ (fieldN r.payload 0 1) ∧ (fieldN r.payload 0 1) < 32
     ∧ fieldN r.payload 2 2 = 0 ∧ s.update.go = none ∧ fieldN r.payload 1 1 ≤ 1 ∧ s.update.lock = true) ∧
    (∃ (s : State) (r : Request), Admitted (opLen 0x0E03 [clsN] 4) r s ∧ 1 ≤ (fieldN r.payload 0 1) ∧ (fieldN r.payload 0 1) < 32
     ∧ fieldN r.payload 2 2 = 0 ∧ s.update.go = none ∧ fieldN r.payload 1 1 ≤ 1 ∧ s.update.lock = false ∧ s.update.trial ≠ 0) ∧
    (∃ (s : State) (r : Request), Admitted (opLen 0x0E03 [clsN] 4) r s ∧ 1 ≤ (fieldN r.payload 0 1) ∧ (fieldN r.payload 0 1) < 32
     ∧ fieldN r.payload 2 2 = 0 ∧ s.update.go = none ∧ s.update.lock = false ∧ s.update.trial = 0 ∧ (∀ x ∈ regionsOf (fieldN
     r.payload 0 1), regionState s x = 2) ∧ s.cis.migrating = none ∧ minimumsMet s (fieldN r.payload 0 1) = true ∧ formatsMet s
     (fieldN r.payload 0 1) = true ∧ ((fieldN r.payload 0 1).testBit 1 = true → legalRoom s = true) ∧ fieldN r.payload 1 1 = 0 ∧
     stateConditions s = true) ∧
    (∃ (s : State) (r : Request), Admitted (opLen 0x0E03 [clsN] 4) r s ∧ 1 ≤ (fieldN r.payload 0 1) ∧ (fieldN r.payload 0 1) < 32
     ∧ fieldN r.payload 2 2 = 0 ∧ s.update.go = none ∧ s.update.lock = false ∧ s.update.trial = 0 ∧ (∀ x ∈ regionsOf (fieldN
     r.payload 0 1), regionState s x = 2) ∧ s.cis.migrating = none ∧ minimumsMet s (fieldN r.payload 0 1) = true ∧ formatsMet s
     (fieldN r.payload 0 1) = true ∧ ((fieldN r.payload 0 1).testBit 1 = true → legalRoom s = true) ∧ fieldN r.payload 1 1 = 0 ∧
     stateConditions s = false) ∧
    (∃ (s : State) (r : Request), Admitted (opLen 0x0E03 [clsN] 4) r s ∧ 1 ≤ (fieldN r.payload 0 1) ∧ (fieldN r.payload 0 1) < 32
     ∧ fieldN r.payload 2 2 = 0 ∧ s.update.go = none ∧ s.update.lock = false ∧ s.update.trial = 0 ∧ (∀ x ∈ regionsOf (fieldN
     r.payload 0 1), regionState s x = 2) ∧ s.cis.migrating = none ∧ minimumsMet s (fieldN r.payload 0 1) = true ∧ formatsMet s
     (fieldN r.payload 0 1) = true ∧ ((fieldN r.payload 0 1).testBit 1 = true → legalRoom s = true) ∧ fieldN r.payload 1 1 = 1) :=
  ⟨⟨{ on with host.transfers := [⟨1, 0x0E01, .e0, 16, [], 0, .applied, 0⟩] }, sign 0x0E01 (req clsB (blockOf 1 0 16 [1, 2, 3, 4,
    5, 6, 7, 8])) _, [], ⟨1, 0x0E01, .e0, 16, [], 0, .applied, 0⟩, ready_admitted (by decide +kernel), blockFits_of (by
    decide +kernel), append_nil _, by decide +kernel⟩,
   ⟨{ on with host.transfers := [⟨1, 0x0E01, .e0, 16, [], 0, .refused, 1⟩] }, sign 0x0E01 (req clsB (blockOf 1 0 16 [1, 2, 3, 4,
    5, 6, 7, 8])) _, [], ⟨1, 0x0E01, .e0, 16, [], 0, .refused, 1⟩, ready_admitted (by decide +kernel), blockFits_of (by
    decide +kernel), append_nil _, by decide +kernel⟩,
   ⟨{ on with host.transfers := [⟨1, 0x0E01, .e1, 16, [], 0, .receiving, 0⟩] }, sign 0x0E01 (req clsB (blockOf 1 0 16 [1, 2, 3,
    4, 5, 6, 7, 8])) _, [], ⟨1, 0x0E01, .e1, 16, [], 0, .receiving, 0⟩, ready_admitted (by decide +kernel), blockFits_of (by
    decide +kernel), append_nil _, by decide +kernel⟩,
   ⟨{ on with update.lock := true }, sign 0x0E01 (req clsB (blockOf 1 0 512 (zeros 256))) _, [], ready_admitted (by
    decide +kernel), blockFits_of (by decide +kernel), append_nil _, by decide +kernel⟩,
   ⟨{ on with update.lock := false, update.boot.incoming := some (zeros 256) }, sign 0x0E01 (req clsB (blockOf 1 0 512 (zeros
    256))) _, [], St.busy, ready_admitted (by decide +kernel), blockFits_of (by decide +kernel), append_nil _, by decide +kernel⟩,
   ⟨{ on with update.lock := false }, sign 0x0E01 (req clsB (blockOf 1 0 512 (zeros 256))) _, [], 1, St.checkFail, ready_admitted
    (by decide +kernel), blockFits_of (by decide +kernel), append_nil _, by decide +kernel⟩,
   ⟨{ on with update.lock := false, otp.programmed := 1 }, sign 0x0E01 (req clsB (blockOf 1 0 289 package)) _, [], ready_admitted
    (by decide +kernel), blockFits_of (by decide +kernel), append_nil _, by decide +kernel⟩,
   ⟨{ on with update.go := none, update.lock := true }, sign 0x0E03 (req clsN (patch (zeros 4) [(0, leBytes 1 31), (1, leBytes 1
    1)])) _, ready_admitted (by decide +kernel), by decide +kernel⟩,
   ⟨{ on with update.go := none, update.lock := false, update.trial := 1 }, sign 0x0E03 (req clsN (patch (zeros 4) [(0, leBytes 1
    31), (1, leBytes 1 1)])) _, ready_admitted (by decide +kernel), by decide +kernel⟩,
   ⟨{ on with update.go := none, update.lock := false, update.trial := 0, cis.migrating := none, update.boot.slotB.header := some (zeros 256) },
    sign 0x0E03 (req clsN (patch (zeros 4) [(0, leBytes 1 1)])) _, ready_admitted (by decide +kernel), by decide +kernel⟩,
   ⟨{ on with update.go := none, update.lock := false, update.trial := 0, cis.migrating := none, power.vbat := 259, update.boot.slotB.header := some (zeros 256) },
    sign 0x0E03 (req clsN (patch (zeros 4) [(0, leBytes 1 1)])) _, ready_admitted (by decide +kernel), by decide +kernel⟩,
   ⟨{ on with update.go := none, update.lock := false, update.trial := 0, cis.migrating := none, update.boot.slotB.header := some (zeros 256) },
    sign 0x0E03 (req clsN (patch (zeros 4) [(0, leBytes 1 1), (1, leBytes 1 1)])) _, ready_admitted (by decide +kernel), by
    decide +kernel⟩⟩

theorem test_hypotheses_UpdateCommands_2 :
    (∃ (s : State), s.update.waiting = none) ∧
    (∃ (s : State) (m : _), s.update.waiting = some m ∧ (domainRuns s && stateConditions s && allWaiting s && (activateChecks
     { s with update := { s.update with waiting := none } } m true).all (fun c => c == St.ok)) = true) ∧
    (∃ (s : State) (m : _), s.update.waiting = some m ∧ (domainRuns s && stateConditions s && allWaiting s && (activateChecks
     { s with update := { s.update with waiting := none } } m true).all (fun c => c == St.ok)) = false) ∧
    (∃ (s : State) (elem : Fin 14) (k : _), enginePlace elem.val = some k ∧ up s = true ∧ s.update.inForce.getD k false ≠
     s.update.engineB ∧ atSafePoint s elem.val = true) ∧
    (∃ (s : State) (elem : Fin 14), (enginePlace elem.val = none ∨ up s = false ∨ atSafePoint s elem.val = false)) ∧
    (∃ (s : State) (r : Request), Admitted (opLen 0x0E04 [clsN] 4) r s ∧ fieldN r.payload 1 3 = 0 ∧ (fieldN r.payload 0 1) ≠
     s.update.trial.toNat) ∧
    (∃ (s : State) (r : Request), Admitted (opLen 0x0E04 [clsN] 4) r s ∧ fieldN r.payload 1 3 = 0 ∧ (fieldN r.payload 0 1) =
     s.update.trial.toNat ∧ (s.update.trial = 0 ∨ s.update.completed = false ∨ (onTrial s 3 = true ∧ enginesChanged s = false))) ∧
    (∃ (s : State) (r : Request), Admitted (opLen 0x0E04 [clsN] 4) r s ∧ fieldN r.payload 1 3 = 0 ∧ (fieldN r.payload 0 1) =
     s.update.trial.toNat ∧ s.update.trial ≠ 0 ∧ s.update.completed = true ∧ (onTrial s 3 = false ∨ enginesChanged s = true)) ∧
    (∃ (s : State) (r : Request), Admitted (opLen 0x0E05 [clsN] 4) r s ∧ fieldN r.payload 1 3 = 0 ∧ s.update.fallback = none ∧
     s.update.trial ≠ 0 ∧ (fieldN r.payload 0 1) = s.update.trial.toNat ∧ stateConditions s = true) ∧
    (∃ (s : State) (r : Request), Admitted (opLen 0x0E05 [clsN] 4) r s ∧ fieldN r.payload 1 3 = 0 ∧ s.update.fallback = none ∧
     s.update.trial ≠ 0 ∧ (fieldN r.payload 0 1) = s.update.trial.toNat ∧ stateConditions s = false) ∧
    (∃ (s : State) (r : Request), Admitted (opLen 0x0E05 [clsN] 4) r s ∧ fieldN r.payload 1 3 = 0 ∧ s.update.fallback = none ∧
     (s.update.trial = 0 ∨ (fieldN r.payload 0 1) ≠ s.update.trial.toNat)) ∧
    (∃ (s : State) (x : _), s.update.trial ≠ 0 ∧ x < 5 ∧ s.update.trial.getLsbD x = true) :=
  ⟨⟨{ on with update.waiting := none }, by decide +kernel⟩,
   ⟨{ on with update.waiting := some default }, default, by decide +kernel⟩,
   ⟨{ on with update.waiting := some 1 }, 1, by decide +kernel⟩,
   ⟨{ on with update.engineB := true, update.inForce := List.replicate 10 false }, 4, 0, by decide +kernel⟩,
   ⟨on, 0, by decide +kernel⟩,
   ⟨on, sign 0x0E04 (req clsN (patch (zeros 4) [(0, leBytes 1 1)])) on, ready_admitted (by decide +kernel), by decide +kernel⟩,
   ⟨{ on with update.trial := 1 }, sign 0x0E04 (req clsN (patch (zeros 4) [(0, leBytes 1 1)])) _, ready_admitted (by
    decide +kernel), by decide +kernel⟩,
   ⟨{ on with update.completed := true, update.trial := 1 }, sign 0x0E04 (req clsN (patch (zeros 4) [(0, leBytes 1 1)])) _,
    ready_admitted (by decide +kernel), by decide +kernel⟩,
   ⟨{ on with update.fallback := none, update.trial := 1 }, sign 0x0E05 (req clsN (patch (zeros 4) [(0, leBytes 1 1)])) _,
    ready_admitted (by decide +kernel), by decide +kernel⟩,
   ⟨{ on with update.fallback := none, power.vbat := 259, update.trial := 1, sess.out.o0.state := .s6 }, sign 0x0E05 (req clsN
    (patch (zeros 4) [(0, leBytes 1 1)])) _, ready_admitted (by decide +kernel), by decide +kernel⟩,
   ⟨{ on with update.fallback := none, update.trial := 0 }, sign 0x0E05 (req clsN (zeros 4)) _, ready_admitted (by
    decide +kernel), by decide +kernel⟩,
   ⟨{ on with update.trial := 16 }, 4, by decide +kernel⟩⟩

theorem test_hypotheses_UpdateCommands_3 :
    (∃ (s : State), (s.update.trial = 0 ∨ up s = false)) ∧
    (∃ (s : State), s.update.trial ≠ 0 ∧ up s = true ∧ (cfgN s 0x0E01 0 0 1 1 = 2 ∧ s.update.completed = true ∧ (onTrial s 3 =
     false ∨ enginesChanged s = true))) ∧
    (∃ (s : State), s.update.trial ≠ 0 ∧ up s = true ∧ (¬(cfgN s 0x0E01 0 0 1 1 = 2 ∧ s.update.completed = true ∧ (onTrial s 3 =
     false ∨ enginesChanged s = true))) ∧ stateConditions s = true) ∧
    (∃ (s : State), s.update.trial ≠ 0 ∧ up s = true ∧ (¬(cfgN s 0x0E01 0 0 1 1 = 2 ∧ s.update.completed = true ∧ (onTrial s 3 =
     false ∨ enginesChanged s = true))) ∧ stateConditions s = false) ∧
    (∃ (s : State) (r : Request), Admitted (⟨0x0E06, [clsN], false, fun n => decide (8 ≤ n) && n == 8 + 2 * fieldN r.payload 4 2⟩)
     r s ∧ fieldN r.payload 0 1 ≤ 4 ∧ fieldN r.payload 1 1 ≤ 1 ∧ fieldN r.payload 2 1 ≤ 1 ∧ fieldN r.payload 3 1 = 0 ∧ 1 ≤ fieldN
     r.payload 4 2 ∧ fieldN r.payload 4 2 ≤ 64 ∧ fieldN r.payload 6 2 = 0 ∧ (∀ n ∈ sowNodes r.payload, 1 ≤ n ∧ n ≤ 65534) ∧
     s.wadi.role ≠ 4) ∧
    (∃ (s : State) (r : Request), Admitted (⟨0x0E06, [clsN], false, fun n => decide (8 ≤ n) && n == 8 + 2 * fieldN r.payload 4 2⟩)
     r s ∧ fieldN r.payload 0 1 ≤ 4 ∧ fieldN r.payload 1 1 ≤ 1 ∧ fieldN r.payload 2 1 ≤ 1 ∧ fieldN r.payload 3 1 = 0 ∧ 1 ≤ fieldN
     r.payload 4 2 ∧ fieldN r.payload 4 2 ≤ 64 ∧ fieldN r.payload 6 2 = 0 ∧ (∀ n ∈ sowNodes r.payload, 1 ≤ n ∧ n ≤ 65534) ∧
     s.wadi.role = 4 ∧ (slotOf s (fieldN r.payload 0 1) (fieldN r.payload 1 1 = 1)).header = none) ∧
    (∃ (s : State) (r : Request) (h : List Byte), Admitted ⟨0x0E06, [clsN], false, fun n => decide (8 ≤ n) && n == 8 + 2 * fieldN
     r.payload 4 2⟩ r s ∧ fieldN r.payload 0 1 ≤ 4 ∧ fieldN r.payload 1 1 ≤ 1 ∧ fieldN r.payload 2 1 ≤ 1 ∧ fieldN r.payload 3 1 =
     0 ∧ 1 ≤ fieldN r.payload 4 2 ∧ fieldN r.payload 4 2 ≤ 64 ∧ fieldN r.payload 6 2 = 0 ∧ (∀ n ∈ sowNodes r.payload, 1 ≤ n ∧ n ≤
     65534) ∧ s.wadi.role = 4 ∧ (slotOf s (fieldN r.payload 0 1) (fieldN r.payload 1 1 = 1)).header = some h ∧ (∃ x,
     s.update.sowing = some x ∧ x.running = true)) ∧
    (∃ (s : State) (r : Request) (h : _), Admitted (⟨0x0E06, [clsN], false, fun n => decide (8 ≤ n) && n == 8 + 2 * fieldN
     r.payload 4 2⟩) r s ∧ fieldN r.payload 0 1 ≤ 4 ∧ fieldN r.payload 1 1 ≤ 1 ∧ fieldN r.payload 2 1 ≤ 1 ∧ fieldN r.payload 3 1 =
     0 ∧ 1 ≤ fieldN r.payload 4 2 ∧ fieldN r.payload 4 2 ≤ 64 ∧ fieldN r.payload 6 2 = 0 ∧ (∀ n ∈ sowNodes r.payload, 1 ≤ n ∧ n ≤
     65534) ∧ s.wadi.role = 4 ∧ (slotOf s (fieldN r.payload 0 1) (fieldN r.payload 1 1 = 1)).header = some h ∧ (∀ x,
     s.update.sowing = some x → x.running = false)) ∧
    (∃ (s : State) (r : Request), Admitted (opLen 0x0E07 [clsN] 4) r s ∧ fieldN r.payload 1 3 = 0 ∧ (fieldN r.payload 0 1) ≤ 1) ∧
    (∃ (s : State) (r : Request), Admitted (opLen 0x0E07 [clsN] 4) r s ∧ fieldN r.payload 1 3 = 0 ∧ 1 < (fieldN r.payload 0 1)) :=
  ⟨⟨{ on with update.trial := 0 }, by decide +kernel⟩,
   ⟨{ on with update.trial := 1, update.completed := true, cfg.recs := [rec 0x0E01 0 (patch (zeros 48) [(0, leBytes 1 2)])] }, by
    decide +kernel⟩,
   ⟨{ on with update.trial := 1 }, by decide +kernel⟩,
   ⟨{ on with power.vbat := 259, update.trial := 1, power.charged := false }, by decide +kernel⟩,
   ⟨on, sign 0x0E06 (req clsN (zeros 4 ++ leBytes 2 64 ++ zeros 2 ++ (List.replicate 64 (leBytes 2 65534)).flatten)) on,
    ready_admitted (by decide +kernel), by decide +kernel⟩,
   ⟨{ on with wadi.role := 4 }, sign 0x0E06 (req clsN (zeros 4 ++ leBytes 2 64 ++ zeros 2 ++ (List.replicate 64 (leBytes 2
    65534)).flatten)) _, ready_admitted (by decide +kernel), by decide +kernel⟩,
   ⟨sowingOn, sign 0x0E06 (req clsN sowOne) sowingOn, [], ready_admitted (by decide +kernel), by decide +kernel, by
    decide +kernel, by decide +kernel, by decide +kernel, by decide +kernel, by decide +kernel, by decide +kernel, by
    decide +kernel, rfl, by decide +kernel, _, rfl, rfl⟩,
   ⟨{ on with wadi.role := 4, update.boot.slotA.header := some [] }, sign 0x0E06 (req clsN (zeros 4 ++ leBytes 2 1 ++ zeros 2 ++
    leBytes 2 1)) _, [], ready_admitted (by decide +kernel), by decide +kernel⟩,
   ⟨on, sign 0x0E07 (req clsN (patch (zeros 4) [(0, leBytes 1 1)])) on, ready_admitted (by decide +kernel), by decide +kernel⟩,
   ⟨on, sign 0x0E07 (req clsN (patch (zeros 4) [(0, leBytes 1 2)])) on, ready_admitted (by decide +kernel), by decide +kernel⟩⟩

theorem test_hypotheses_ReaderCommands_1 :
    (∃ (s : State) (q : Fin 2), (¬(awake s = true ∧ portEnabled s q = true))) ∧
    (∃ (s : State) (q : Fin 2), (awake s = true ∧ portEnabled s q = true) ∧ (2 ≤ (readerOf s q).state ∨ (readerOf s q).waiting =
     true)) ∧
    (∃ (s : State) (q : Fin 2) (load : Int), (awake s = true ∧ portEnabled s q = true) ∧ (readerOf s q).state < 2 ∧ (readerOf s
     q).waiting = false ∧ deviates s (readerOf s q).baseline load = false) ∧
    (∃ (s : State) (q : Fin 2) (load : Int), (awake s = true ∧ portEnabled s q = true) ∧ (readerOf s q).state < 2 ∧ (readerOf s
     q).waiting = false ∧ deviates s (readerOf s q).baseline load = true ∧ (readerOf s q).run ≠ 2) ∧
    (∃ (s : State) (q : Fin 2) (load : Int), (awake s = true ∧ portEnabled s q = true) ∧ (readerOf s q).state < 2 ∧ (readerOf s
     q).waiting = false ∧ deviates s (readerOf s q).baseline load = true ∧ (readerOf s q).run = 2 ∧ (cfgN s 0x0F01 0 3 1 0 = 1 ∧ 2
     ≤ (readerOf s (otherPort q)).state)) ∧
    (∃ (s : State) (q : Fin 2) (load : Int), (awake s = true ∧ portEnabled s q = true) ∧ (readerOf s q).state < 2 ∧ (readerOf s
     q).waiting = false ∧ deviates s (readerOf s q).baseline load = true ∧ (readerOf s q).run = 2 ∧ (¬(cfgN s 0x0F01 0 3 1 0 = 1 ∧
     2 ≤ (readerOf s (otherPort q)).state))) ∧
    (∃ (s : State) (q : Fin 2), (awake s = true ∧ portEnabled s q = true) ∧ (readerOf s q).state ≠ 2) ∧
    (∃ (s : State) (q : Fin 2), (awake s = true ∧ portEnabled s q = true) ∧ (readerOf s q).state ≠ 4) ∧
    (∃ (s : State) (q : Fin 2), (awake s = true ∧ portEnabled s q = true) ∧ (readerOf s q).state = 4) ∧
    (∃ (s : State) (q : Fin 2) (ident : List Byte) (b v : PollResult) (d : Instr × Nat), d ∈ [(Instr.guardTimeEnd q (.one ident) b
     v, 2), (Instr.repoll q (.one ident) b v, 4)] ∧ awake s = true ∧ portEnabled s q = true ∧ (portStandards s q).testBit 0 = true
     ∧ (readerOf s q).state = d.2 ∧ randomUid 0 ident = false ∧ mayDeliver s q ident = true) ∧
    (∃ (s : State) (q : Fin 2) (ident : List Byte) (b v : PollResult) (d : Instr × Nat), d ∈ [(Instr.guardTimeEnd q (.one ident) b
     v, 2), (Instr.repoll q (.one ident) b v, 4)] ∧ awake s = true ∧ portEnabled s q = true ∧ (portStandards s q).testBit 0 = true
     ∧ (readerOf s q).state = d.2 ∧ randomUid 0 ident = false ∧ mayDeliver s q ident = false) ∧
    (∃ (s : State) (q : Fin 2), (awake s = true ∧ portEnabled s q = true) ∧ (readerOf s q).state = 2 ∧ (portStandards s q).testBit
     0 = true) :=
  ⟨⟨{ on with power.state := .hold }, 0, by decide +kernel⟩,
   ⟨{ on with reader0.state := 2 }, 0, by decide +kernel⟩,
   ⟨{ on with reader0.waiting := false }, 0, 0, by decide +kernel⟩,
   ⟨{ on with reader0.waiting := false }, 0, -1, by decide +kernel⟩,
   ⟨{ on with reader0.waiting := false, reader0.run := 2, reader1.state := 2, cfg.recs := [rec 0x0F01 0 (patch (zeros 48) [(3, leBytes 1 1), (0, [3, 7, 7, 1])])] },
    0, 1, by decide +kernel⟩,
   ⟨{ on with reader0.waiting := false, reader0.run := 2 }, 0, 1, by decide +kernel⟩,
   ⟨on, 0, by decide +kernel⟩,
   ⟨on, 0, by decide +kernel⟩,
   ⟨{ on with reader0.state := 4 }, 0, by decide +kernel⟩,
   ⟨{ on with reader0.state := 2 }, 0, [], .none, .none, _, List.Mem.head _, by decide, by decide, by decide, rfl, rfl, by
    decide⟩,
   ⟨{ on with reader0.state := 4, reader0.cards := [⟨[], none⟩] }, 0, [], .none, .none, _, List.Mem.tail _ (List.Mem.head _), by
    decide, by decide, by decide, rfl, rfl, by decide⟩,
   ⟨{ on with reader0.state := 2 }, 0, by decide +kernel⟩⟩

theorem test_hypotheses_ReaderCommands_2 :
    (∃ (s : State) (q : Fin 2), awake s = true ∧ 3 ≤ (readerOf s q).state) ∧
    (∃ (s : State) (q : Fin 2), (awake s = false ∨ (readerOf s q).state < 3)) ∧
    (∃ (s : State) (q : Fin 2), awake s = true ∧ (readerOf s q).waiting = true) ∧
    (∃ (s : State) (q : Fin 2), (awake s = false ∨ (readerOf s q).waiting = false)) :=
  ⟨⟨{ on with reader0.state := 3 }, 0, by decide +kernel⟩,
   ⟨{ on with power.state := .hold }, 0, by decide +kernel⟩,
   ⟨{ on with reader0.waiting := true }, 0, by decide +kernel⟩,
   ⟨{ on with power.state := .hold }, 0, by decide +kernel⟩⟩

theorem test_hypotheses_TagWriteAtomic :
    (∃ (c : Collapse), (c = .never ∨ c = .afterMarker)) ∧
    (∃ (c : Collapse), (c = .step1 ∨ c = .step2)) :=
  ⟨⟨.never, by decide +kernel⟩,
   ⟨.step1, by decide +kernel⟩⟩

theorem test_hypotheses_TagCommands_1 :
    (∃ (s : State), s.tag.field = false) ∧
    (∃ (s : State) (first : Nat) (count : Nat), s.tag.field = true ∧ (count = 0 ∨ 4 < count ∨ 256 < first + count)) ∧
    (∃ (s : State) (first count : Nat) (contents : Nat → List Byte), s.tag.field = true ∧ 1 ≤ count ∧ count ≤ 4 ∧ first + count ≤
     256 ∧ (∀ j, j < count → blockContent s (first + j) = some (contents j))) ∧
    (∃ (s : State) (block : Nat), s.tag.field = true ∧ 256 ≤ block) ∧
    (∃ (s : State) (block : Nat) (collapse : Collapse), s.tag.field = true ∧ block < 256 ∧ (s.tag.secured = false ∨ fieldRights
     block = 0) ∧ collapse ≠ .step1) ∧
    (∃ (s : State) (block : Nat), s.tag.field = true ∧ block < 256 ∧ s.tag.secured = true ∧ fieldRights block ≠ 0 ∧ tagPowered s =
     false) ∧
    (∃ (s : State) (block : Nat) (collapse : Collapse), s.tag.field = true ∧ block < 256 ∧ s.tag.secured = true ∧ fieldRights
     block ≠ 0 ∧ tagPowered s = true ∧ collapse ≠ .never ∧ collapse ≠ .step1) ∧
    (∃ (s : State), s.tag.field = true ∧ s.tag.locked = true) ∧
    (∃ (s : State) (value : U32), s.tag.field = true ∧ s.tag.locked = false ∧ s.tag.password ≠ 0 ∧ value = s.tag.password) ∧
    (∃ (s : State) (value : U32), s.tag.field = true ∧ s.tag.locked = false ∧ value ≠ s.tag.password) ∧
    (∃ (s : State), s.tag.field = true ∧ s.tag.locked = false ∧ (awake s = false ∨ s.cis.trngFault = true)) ∧
    (∃ (s : State), s.tag.field = true ∧ s.tag.locked = false ∧ awake s = true ∧ s.cis.trngFault = false) :=
  ⟨⟨{ on with tag.field := false }, by decide +kernel⟩,
   ⟨{ on with tag.field := true }, 0, 0, by decide +kernel⟩,
   ⟨{ on with tag.field := true }, 252, 4, fun _ => zeros 32, by decide, by decide, by decide, by decide, by decide +kernel⟩,
   ⟨{ on with tag.field := true }, 256, by decide +kernel⟩,
   ⟨{ on with tag.field := true, tag.secured := false }, 255, .never, by decide +kernel⟩,
   ⟨{ on with tag.field := true, tag.secured := true, power.phase := .unpowered }, 2, by decide +kernel⟩,
   ⟨{ on with tag.field := true, tag.secured := true }, 2, .step2, by decide +kernel⟩,
   ⟨{ on with tag.field := true, tag.locked := true }, by decide +kernel⟩,
   ⟨{ on with tag.field := true, tag.locked := false, tag.password := 5 }, 5, by decide +kernel⟩,
   ⟨{ on with tag.field := true, tag.locked := false }, 1, by decide +kernel⟩,
   ⟨{ on with tag.field := true, tag.locked := false, power.state := .hold }, by decide +kernel⟩,
   ⟨{ on with tag.field := true, tag.locked := false, cis.trngFault := false }, by decide +kernel⟩⟩

theorem test_hypotheses_TagCommands_2 :
    (∃ (s : State), s.tag.field = true ∧ s.tag.locked = false ∧ awake s = false) ∧
    (∃ (s : State) (slot : Nat), s.tag.field = true ∧ s.tag.locked = false ∧ awake s = true ∧ 4 ≤ slot) ∧
    (∃ (s : State) (slot : Nat), s.tag.field = true ∧ s.tag.locked = false ∧ awake s = true ∧ slot < 4 ∧ s.tag.nonce = none) ∧
    (∃ (s : State) (slot : Nat) (nt : _) (made : _), s.tag.field = true ∧ s.tag.locked = false ∧ awake s = true ∧ slot < 4 ∧
     s.tag.nonce = some (nt, made) ∧ made + 2000 < s.clockMs) ∧
    (∃ (s : State) (slot : Nat) (nt : _) (made : _), s.tag.field = true ∧ s.tag.locked = false ∧ awake s = true ∧ slot < 4 ∧
     s.tag.nonce = some (nt, made) ∧ s.clockMs ≤ made + 2000 ∧ (s.otp.programmed.getLsbD slot = false ∨ s.otp.revoked.getLsbD slot
     = true)) ∧
    (∃ (s : State) (b : _), awake s = true ∧ b.length = 32 ∧ blockContent s 3 = some b ∧ fieldN b 0 2 = fieldN b 16 2) ∧
    (∃ (s : State) (b : _), awake s = true ∧ b.length = 32 ∧ blockContent s 3 = some b ∧ fieldN b 0 2 ≠ fieldN b 16 2) ∧
    (∃ (s : State) (b : _), awake s = true ∧ b.length = 32 ∧ blockContent s 2 = some b ∧ fieldN b 0 2 = fieldN b 8 2) ∧
    (∃ (s : State) (b : _), awake s = true ∧ b.length = 32 ∧ blockContent s 2 = some b ∧ fieldN b 0 2 ≠ fieldN b 8 2) ∧
    (∃ (s : State), awake s = true ∧ (blockContent s 1).map withoutTime ≠ some (withoutTime (statusBlock s))) ∧
    (∃ (s : State), awake s = true ∧ (blockContent s 1).map withoutTime = some (withoutTime (statusBlock s))) ∧
    (∃ (s : State), awake s = true ∧ mirrorDue s = []) :=
  ⟨⟨{ on with tag.field := true, tag.locked := false, power.state := .hold }, by decide +kernel⟩,
   ⟨{ on with tag.field := true, tag.locked := false }, 4, by decide +kernel⟩,
   ⟨{ on with tag.field := true, tag.locked := false, tag.nonce := none }, 3, by decide +kernel⟩,
   ⟨{ on with tag.field := true, tag.locked := false, tag.nonce := some (5, 0), clockMs := 2001 }, 3, 5, 0, by decide +kernel⟩,
   ⟨{ on with tag.field := true, tag.locked := false, tag.nonce := some (5, 0) }, 0, 5, 0, by decide +kernel⟩,
   ⟨{ on with tag.blocks := [⟨3, ⟨zeros 32, 1, copyCrc (zeros 32) 1⟩, ⟨zeros 32, 0, 0⟩, none⟩] }, zeros 32, by decide +kernel⟩,
   ⟨{ on with tag.blocks := [⟨3, ⟨1 :: zeros 31, 1, copyCrc (1 :: zeros 31) 1⟩, ⟨zeros 32, 0, 0⟩, none⟩] }, 1 :: zeros 31, by
    decide +kernel⟩,
   ⟨{ on with tag.blocks := [⟨2, ⟨zeros 32, 1, copyCrc (zeros 32) 1⟩, ⟨zeros 32, 0, 0⟩, none⟩] }, zeros 32, by decide +kernel⟩,
   ⟨{ on with tag.blocks := [⟨2, ⟨1 :: zeros 31, 1, copyCrc (1 :: zeros 31) 1⟩, ⟨zeros 32, 0, 0⟩, none⟩] }, 1 :: zeros 31, by
    decide +kernel⟩,
   ⟨{ on with hedge.confirmed := true }, by decide +kernel⟩,
   ⟨on, by decide +kernel⟩,
   ⟨on, by decide +kernel⟩⟩

theorem test_hypotheses_TagCommands_3 :
    (∃ (s : State), awake s = true ∧ mirrorDue s ≠ []) ∧
    (∃ (s : State) (r : Request), Admitted (opLen 0x0F03 [clsN] 36) r s ∧ fieldN r.payload 1 3 = 0 ∧ (fieldN r.payload 0 1) < 72) ∧
    (∃ (s : State) (r : Request), Admitted (opLen 0x0F03 [clsN] 36) r s ∧ fieldN r.payload 1 3 = 0 ∧ 72 ≤ (fieldN r.payload 0 1)) ∧
    (∃ (s : State) (r : Request), Admitted (opLen 0x0F04 [clsN] 8) r s ∧ fieldN r.payload 1 3 = 0 ∧ s.cis.lifecycle ≠ 0 ∧
     s.cis.lifecycle ≠ 4 ∧ fieldN r.payload 0 1 = 1) ∧
    (∃ (s : State) (r : Request), Admitted (opLen 0x0F04 [clsN] 8) r s ∧ fieldN r.payload 1 3 = 0 ∧ s.cis.lifecycle ≠ 0 ∧
     s.cis.lifecycle ≠ 4 ∧ fieldN r.payload 0 1 = 2 ∧ s.tag.locked = true) ∧
    (∃ (s : State) (r : Request), Admitted (opLen 0x0F04 [clsN] 8) r s ∧ fieldN r.payload 1 3 = 0 ∧ s.cis.lifecycle ≠ 0 ∧
     s.cis.lifecycle ≠ 4 ∧ fieldN r.payload 0 1 = 2 ∧ s.tag.locked = false) ∧
    (∃ (s : State) (r : Request), Admitted (opLen 0x0F04 [clsN] 8) r s ∧ fieldN r.payload 1 3 = 0 ∧ s.cis.lifecycle ≠ 0 ∧
     s.cis.lifecycle ≠ 4 ∧ 2 < fieldN r.payload 0 1) :=
  ⟨⟨{ on with logs.general := [⟨0, none, .zero, 0, 7, 0, []⟩] }, by decide +kernel⟩,
   ⟨on, sign 0x0F03 (req clsN (patch (zeros 36) [(0, leBytes 1 71)])) on, ready_admitted (by decide +kernel), by decide +kernel⟩,
   ⟨on, sign 0x0F03 (req clsN (patch (zeros 36) [(0, leBytes 1 72)])) on, ready_admitted (by decide +kernel), by decide +kernel⟩,
   ⟨on, sign 0x0F04 (req clsN (patch (zeros 8) [(0, leBytes 1 1)])) on, ready_admitted (by decide +kernel), by decide +kernel⟩,
   ⟨{ on with tag.locked := true }, sign 0x0F04 (req clsN (patch (zeros 8) [(0, leBytes 1 2)])) _, ready_admitted (by
    decide +kernel), by decide +kernel⟩,
   ⟨{ on with tag.locked := false }, sign 0x0F04 (req clsN (patch (zeros 8) [(0, leBytes 1 2)])) _, ready_admitted (by
    decide +kernel), by decide +kernel⟩,
   ⟨on, sign 0x0F04 (req clsN (patch (zeros 8) [(0, leBytes 1 3)])) on, ready_admitted (by decide +kernel), by decide +kernel⟩⟩

theorem test_hypotheses_RakeCommands_1 :
    (∃ (s : State), (domainRuns s && maintenanceDue s && allIdle s && noUpdate s && s.sun.utcValid) = true) ∧
    (∃ (s : State), (domainRuns s && maintenanceDue s && allIdle s && noUpdate s && s.sun.utcValid) = false) ∧
    (∃ (s : State), (domainRuns s && cfgN s 0x1001 0 0 1 1 == 2 &&
     ((match s.rake.signature with | some x => !s.rake.magic || decide (x.utc + 86400 < s.sun.utc) | none => true) || !s.sun.utcValid)
     && !ranInWindow s) = true) ∧
    (∃ (s : State), (domainRuns s && cfgN s 0x1001 0 0 1 1 == 2 &&
     ((match s.rake.signature with | some x => !s.rake.magic || decide (x.utc + 86400 < s.sun.utc) | none => true) || !s.sun.utcValid)
     && !ranInWindow s) = false) ∧
    (∃ (s : State), (s.power.phase ≠ .rake ∨ s.rake.left = [])) ∧
    (∃ (s : State) (g : _) (h : _) (l : _), s.power.phase = .rake ∧ s.rake.left = g :: h :: l ∧ s.rake.repeated = true) ∧
    (∃ (s : State), s.power.phase = .rake ∧ s.rake.left ≠ [] ∧ s.rake.repeated = false) ∧
    (∃ (s : State), s.power.phase = .rake ∧ s.rake.left.head? ≠ some 6) ∧
    (∃ (s : State) (g : _), s.power.phase = .rake ∧ s.rake.left = [g]) ∧
    (∃ (s : State), s.power.phase = .rake ∧ s.rake.left = [6] ∧ (∀ x ∈ s.rake.results, x.1 ≠ 6)) ∧
    (∃ (s : State), s.power.phase = .rake ∧ s.rake.left = []) ∧
    (∃ (s : State), (s.power.phase ≠ .rake ∨ s.rake.left ≠ [])) :=
  ⟨⟨{ on with sun.utcValid := true, sun.utc := 1000, cfg.recs := [rec 0x1001 0 (patch (zeros 48) [(0, [2, 127, 0, 0, 160, 5])])] },
    by decide +kernel⟩,
   ⟨on, by decide +kernel⟩,
   ⟨{ on with cfg.recs := [rec 0x1001 0 (patch (zeros 48) [(0, [2])])] }, by decide +kernel⟩,
   ⟨on, by decide +kernel⟩,
   ⟨on, by decide +kernel⟩,
   ⟨{ on with power.phase := .rake, rake.left := default :: default :: default, rake.repeated := true }, default, default,
    default, by decide +kernel⟩,
   ⟨{ on with power.phase := .rake, rake.repeated := false, rake.left := [1] }, by decide +kernel⟩,
   ⟨{ on with power.phase := .rake }, by decide +kernel⟩,
   ⟨{ on with power.phase := .rake, rake.left := [default] }, default, by decide +kernel⟩,
   ⟨{ on with power.phase := .rake, rake.left := [6] }, by decide +kernel⟩,
   ⟨{ on with power.phase := .rake, rake.left := [] }, by decide +kernel⟩,
   ⟨on, by decide +kernel⟩⟩

theorem test_hypotheses_RakeCommands_2 :
    (∃ (s : State) (r : Request), Admitted (opLen 0x1002 [clsN] 4) r s ∧ fieldN r.payload 1 3 = 0 ∧ s.rake.left = [] ∧
     s.power.phase ≠ .rake ∧ 1 ≤ (fieldN r.payload 0 1) ∧ (fieldN r.payload 0 1) < 64 ∧ inService s = true ∧ allIdle s = true) ∧
    (∃ (s : State) (r : Request), Admitted (opLen 0x1002 [clsN] 4) r s ∧ fieldN r.payload 1 3 = 0 ∧ s.rake.left = [] ∧
     s.power.phase ≠ .rake ∧ 1 ≤ (fieldN r.payload 0 1) ∧ (fieldN r.payload 0 1) < 64 ∧ (inService s = false ∨ allIdle s = false)) ∧
    (∃ (s : State) (r : Request), Admitted (opLen 0x1002 [clsN] 4) r s ∧ fieldN r.payload 1 3 = 0 ∧ s.rake.left = [] ∧
     s.power.phase ≠ .rake ∧ ((fieldN r.payload 0 1) = 0 ∨ 64 ≤ (fieldN r.payload 0 1))) :=
  ⟨⟨{ on with rake.left := [] }, sign 0x1002 (req clsN (patch (zeros 4) [(0, leBytes 1 63)])) _, ready_admitted (by
    decide +kernel), by decide +kernel⟩,
   ⟨{ on with rake.left := [], cis.lifecycle := 2 }, sign 0x1002 (req clsN (patch (zeros 4) [(0, leBytes 1 63)])) _,
    ready_admitted (by decide +kernel), by decide +kernel⟩,
   ⟨{ on with rake.left := [] }, sign 0x1002 (req clsN (zeros 4)) _, ready_admitted (by decide +kernel), by decide +kernel⟩⟩

/-! ### Ill-formed commands are refused -/

/-- Each header field of a request has its width (R49), and the load is a share in units of 0.1 %. -/
theorem test_wf_request :
    (Instr.identity (req 1 [])).wf = true ∧ (Instr.identity { req 1 [] with src := 2 ^ 32 }).wf = false ∧
    (Instr.identity (req 256 [])).wf = false ∧ (Instr.identity { req 1 [] with reserved := 65536 }).wf = false ∧
    (Instr.identity { req 1 [] with load := 1001 }).wf = false := by decide

theorem test_wf_payload : (Instr.identity (req 1 (zeros 65536))).wf = false := by
  simp only [Instr.wf, Request.wf, req, zeros, List.length_replicate]; decide

/-- A start has six groups, wherever one is an operand (R462). -/
theorem test_wf_start :
    let i := { start with groups := [0] }
    (Instr.holdupCharged start).wf = true ∧ (Instr.holdupCharged i).wf = false ∧ (Instr.warmReset .button i).wf = false ∧
    (Instr.doubleBitError 0 0 0 (.read false) i).wf = false ∧ (Instr.activate (req 1 []) i).wf = false ∧
    (Instr.activate (req 256 []) start).wf = false := by decide

theorem test_wf_host_packet :
    (Instr.hostPacketUndefined .e0 (2 ^ 32) 0 [] 0 0).wf = false ∧ (Instr.hostPacketUndefined .e0 0 0 [] 1001 0).wf = false ∧
    (Instr.bulkTransferTimeout (2 ^ 32)).wf = false := by decide

theorem test_wf_packet_length : (Instr.hostPacketUndefined .e0 0 0 (zeros 1441) 0 0).wf = false := by
  simp only [Instr.wf, zeros, List.length_replicate]; decide

theorem test_wf_addresses :
    (Instr.retentionScrub [4095]).wf = true ∧ (Instr.retentionScrub [4096]).wf = false ∧ (Instr.scrubAccess 15 0 true).wf = false ∧
    (Instr.scrubAccess 0 (2 ^ 32) true).wf = false ∧ (Instr.doubleBitError 15 0 0 (.read false) start).wf = false ∧
    (Instr.doubleBitError 0 14 0 (.read false) start).wf = false ∧ (Instr.doubleBitError 0 0 (2 ^ 32) (.read false) start).wf = false ∧
    (Instr.permissionViolation 0 (.read true) (2 ^ 32)).wf = false ∧
    (Instr.permissionViolation 0 (.write []) 0).wf = false ∧ (Instr.permissionViolation 0 (.swap false (2 ^ 32)) 0).wf = false ∧
    (Instr.permissionViolation 0 (.fetchAdd false (2 ^ 32)) 0).wf = false ∧
    (Instr.permissionViolation 0 (.compareSwap false 0 (2 ^ 32)) 0).wf = false := by decide

theorem test_wf_metering :
    let w : WindowInput := ⟨0, 0, [], .pass, .pass, [53]⟩
    (Instr.energyCommit { w with badRegs := [52] }).wf = true ∧ (Instr.energyCommit w).wf = false ∧
    (Instr.partialCommit w 0).wf = false ∧ (Instr.shutdownSequence w 0 ⟨[0, 0, 0, 0, 0, 0], 0, 0, true⟩).wf = false ∧
    (Instr.shutdownSequence { w with badRegs := [] } 0 ⟨[0], 0, 0, true⟩).wf = false ∧ (Instr.maintenanceWindow w 0).wf = false ∧
    (Instr.rakeRun (req 1 []) w 0).wf = false ∧ (Instr.dialCycleBoundary ⟨[], [], [], 0, 0, 0⟩).wf = false ∧
    (Instr.dialCycleBoundary ⟨[8388608], [], [], 0, 0, 1⟩).wf = false := by decide

theorem test_wf_samples : (Instr.gridCoherentSample 0 0 [⟨0, 0, .codes (List.replicate 65537 0), .codes [], false⟩]).wf = false := by
  simp only [Instr.wf, Feed.wf, List.all_cons, List.all_nil, List.length_replicate]; decide

theorem test_wf_vehicle :
    (Instr.generatorCommand 0 (.duty 1000)).wf = true ∧ (Instr.generatorCommand 0 (.duty 1001)).wf = false ∧
    (Instr.cmMnbcSoundInd 0 0 []).wf = false ∧ (Instr.sdpRequest 0 256).wf = false ∧ (Instr.sessionSetup 0 (zeros 21)).wf = false ∧
    (Instr.standingReplyWrite 0 { standingInit with flags := 65536 }).wf = false ∧
    (Instr.converterStatusFrame ⟨0, false, 0, zeros 65⟩).wf = false ∧ (Instr.converterLimitsFrame ⟨0, false, 0, zeros 65⟩).wf = false ∧
    (Instr.currentCaptureComplete (List.replicate 641 0)).wf = false := by decide +kernel

theorem test_wf_frames :
    (Instr.safeFrameReceive .e0 (zeros 32)).wf = true ∧ (Instr.safeFrameReceive .e0 (zeros 31)).wf = false ∧
    (Instr.syncReceived (zeros 63)).wf = false ∧ (Instr.slotFrameReceived 0 (zeros 143)).wf = false ∧
    (Instr.wadiFrameReceived [] 0).wf = false ∧
    (Instr.wadiFrameReceived [⟨0, 0, [], [], zeros 693⟩] 0).wf = false ∧
    (Instr.nodeAbsent 0).wf = false ∧ (Instr.nodeAbsent 65535).wf = false := by decide +kernel

theorem test_wf_tag_and_rake :
    (Instr.tagCommandRead 256 1).wf = false ∧ (Instr.tagCommandRead 0 256).wf = false ∧
    (Instr.tagCommandWrite 256 (zeros 32) .never).wf = false ∧ (Instr.tagCommandWrite 0 (zeros 31) .never).wf = false ∧
    (Instr.respond 256 0 0 0).wf = false ∧ (Instr.rakeGroupComplete 5).wf = false := by decide

/-! ### Worked examples of the manual -/

/-- Chapter 00: the stamp with cycle 1 is later than the one with cycle 0xFFFF_FFFE. -/
theorem test_stamp_order : later 1 0xFFFFFFFE = true ∧ later 0xFFFFFFFE 1 = false := by decide

/-- Chapter 01, "At the Dunmere truck stop": 5,000,000,000 − 109,876,463 and its residue 5. -/
theorem test_residue :
    let y := stepRegister false ⟨some (-109876463), 0, 0, 0⟩ { Register.init with acc := 5000000000 }
    y.acc = 4890123537 ∧ y.residue = 5 := by decide

/-- Chapter 04, "outlet 0 and the grid meter at Harrowfield": the bytes of the trial record for O0I. -/
theorem test_trial_fields :
    calOf [1, 0, 0, 0, 0x58, 0xD2, 3, 0x40, 0x94, 0xDA, 0xFF, 0xFF, 0xC0, 0, 0, 0] = ⟨0x4003D258, -9580, 192⟩ := by decide

/-- Chapter 05, "one window at Harrowfield": three windows carry their fractions. -/
theorem test_committed : committed (123456789012 * 2 ^ 24 + 3 * 19573418667) = 123456792512 := by decide

/-- Chapter 10, after R282: 44 units, and 89,100,000 stays in the remainder. -/
theorem test_cost :
    (addCost 38500 100 1166 OutletBill.init).cost = 44 ∧ (addCost 38500 100 1166 OutletBill.init).remainder = 89100000 := by decide

/-- Chapter 11, "a legal digit after some years at Harrowfield": G at S = 1,200 and its neighbours in the default curve. -/
theorem test_gain :
    gainAt on 1200000000 = 1180 ∧ gainAt on 0 = 1024 ∧ gainAt on 500000000 = 1090 ∧ gainAt on 4000000000 = 1433 := by decide +kernel

/-- Chapter 11: g = 15 adds 138 × 15 to the sub-accumulator in a frame. -/
theorem test_stress : (stressPixel 15 ⟨0, 0, 0, 138, false⟩).sub = 2070 := by decide

/-- The check value of CRC-32C over "123456789" (log entry 5). -/
theorem test_crc32c : crc32c [0x31, 0x32, 0x33, 0x34, 0x35, 0x36, 0x37, 0x38, 0x39] = 0xE3069283 := by decide +kernel

/-- Chapter 14, after R392: at 50.000 Hz an angle of 36,430 at the end of SYNCM gives the start angle 25,944. -/
theorem test_start_angle : startAngle 36430 50000 = 25944 := by decide +kernel

/-- R14: a fetch-and-add adds to the word at the address, and leaves the word beside it. -/
theorem test_fetch_add :
    let m := accessResult [⟨0x10300000, 5⟩, ⟨0x10300008, 7⟩] (.fetchAdd true 251) 0x10300000
    Memory.load m 0x10300000 8 = 256 ∧ Memory.load m 0x10300008 8 = 7 := by decide +kernel

/-! ### Single steps -/

theorem test_idle_step : ∃ t, step State.reset = .next t ∧ t.clockMs = 1 := ⟨_, rfl, by decide +kernel⟩

/-- The proximity value that outlet 0 reports after a measurement. -/
def proxAfter (ohms : Nat) : Nat :=
  match exec (.proximityClassified 0 ohms) { on with cfg.recs := [rec 0x0601 0 ([0, 3] ++ zeros 46)] } with
  | .next t => (t.link.get 0).prox
  | _ => 0

/-- R140: 680 Ω stands for 20 A; 150 Ω lies in no band. -/
theorem test_proximity : proxAfter 680 = 20 ∧ proxAfter 150 = 255 := by decide +kernel

/-- A command that a module without power does not carry out leaves it as it is. -/
theorem test_unpowered : exec .safeFrameCyclic State.reset = .next State.reset := rfl

/-- The opcode table gives the rows no bits. -/
theorem test_no_bits : decodeTableWord 16 0x0101 = none := rfl

end Sys2Proof.Tests
end

/-! # The commands of memory integrity (R13, R14, R16, R17, R20, R476)

First what the operations behind the commands do: the dial, the log, the counts of the arrays and the words of memory. Then one
lemma per command and case, and the statement assembled from them. -/

namespace Sys2Proof.Machine

/-! ### The dial reaches an angle (R34) -/

/-- What neither a doorbell nor Sundial's angle changes stays as the dial reaches an angle. -/
theorem reachAngle_keeps {α : Type} (g : State → α) (hr : ∀ d t, g (ring d t) = g t) (hs : ∀ f t, g (setSun f t) = g t)
    (angle : Nat) (s : State) : g (reachAngle angle s) = g s := by
  unfold reachAngle
  refine (hs _ _).trans ?_
  split
  · exact ringPassed_keeps g hr _ _ _
  · rfl

theorem reachAngle_sun (angle : Nat) (s : State) : (reachAngle angle s).sun = { s.sun with angle := angle, frac := 0 } := by
  unfold reachAngle
  split
  · rw [setSun_sun, ringPassed_keeps (·.sun) (fun _ _ => rfl)]
  · rfl

/-! ### A log entry (R57 to R60) -/

theorem journal_logs (kind object seq : Nat) (s : State) : (journal kind object seq s).logs = s.logs := by rw [journal_eq]

theorem journal_active (kind object seq : Nat) (s : State) : (journal kind object seq s).dom.active = s.dom.active := by
  unfold journal
  split <;> rfl

theorem addLegal_general (e : LogEntry) (s : State) : (addLegal e s).logs.general = s.logs.general := by
  unfold addLegal
  split <;> rfl

theorem addLegal_dom (e : LogEntry) (s : State) : (addLegal e s).dom = s.dom := by
  unfold addLegal
  split <;> rfl

/-- The newest entry of the general log is the one that the event makes. -/
theorem log_general_head (origin sub code : Nat) (detail : List Byte) (legal : Bool) (s : State) :
    (log origin sub code detail legal s).logs.general.head? = some (newEntry s origin sub code detail) := by
  cases legal
  · rfl
  · exact congrArg List.head? (addLegal_general _ _)

/-- An event that is not legal leaves the legal log alone. -/
theorem log_false_legal (origin sub code : Nat) (detail : List Byte) (s : State) :
    (log origin sub code detail false s).logs.legal = s.logs.legal := by
  simp [log, addGeneral, journal_logs]

/-- Logging leaves the roles of the domains. -/
@[simp] theorem log_active (origin sub code : Nat) (detail : List Byte) (legal : Bool) (s : State) :
    (log origin sub code detail legal s).dom.active = s.dom.active := by
  cases legal
  · exact journal_active 7 0 _ s
  · exact (congrArg Domains.active (addLegal_dom _ _)).trans (journal_active 7 0 _ s)

/-! ### The counts of the arrays (R20) -/

theorem arrayOf_array (s : State) (a : Nat) : (arrayOf s a).array = a := by
  unfold arrayOf
  cases h : s.fabric.arrays.find? (fun x => x.array == a) with
  | none => rfl
  | some x => simpa using List.find?_some h

theorem arrayOf_congr {s t : State} (h : t.fabric.arrays = s.fabric.arrays) (a : Nat) : arrayOf t a = arrayOf s a := by
  simp [arrayOf, h]

@[simp] theorem arrayOf_log (origin sub code : Nat) (detail : List Byte) (legal : Bool) (s : State) (a : Nat) :
    arrayOf (log origin sub code detail legal s) a = arrayOf s a := arrayOf_congr (by simp) a

theorem arrayOf_putArray_same {a : Nat} (x : ArrayErrors) (s : State) (h : x.array = a) : arrayOf (putArray x s) a = x := by
  simp [arrayOf, putArray, h]

theorem arrayOf_putArray_other {a : Nat} (x : ArrayErrors) (s : State) (h : a ≠ x.array) :
    arrayOf (putArray x s) a = arrayOf s a := by
  have hx : (fun y : ArrayErrors => decide ((y.array != x.array) = true ∧ (y.array == a) = true)) = fun y => y.array == a := by
    funext y
    by_cases hy : y.array = a <;> simp [hy, h]
  unfold arrayOf putArray
  rw [List.find?_cons_of_neg (by simpa using h.symm), List.find?_filter, hx]

/-! ### A corrected bit (R20) -/

/-- A correction within 60 s of the last entry of its array is counted and not logged. -/
theorem correctBit_quiet {array last : Nat} {s : State} (addr : Nat) (hl : (arrayOf s array).lastLog = some last)
    (ht : s.clockMs < last + 60000) :
    correctBit array addr s =
      putArray { arrayOf s array with total := (arrayOf s array).total + 1, unlogged := (arrayOf s array).unlogged + 1 } s := by
  simp [correctBit, hl, Nat.not_le.mpr ht]

/-- The first correction of an array is logged, with the number of corrections since the last entry. -/
theorem correctBit_first {array : Nat} {s : State} (addr : Nat) (hl : (arrayOf s array).lastLog = none) :
    correctBit array addr s =
      log 0 0x01 0x0102 ([byte array, 0, 0, 0] ++ leBytes 4 ((arrayOf s array).unlogged + 1) ++ leBytes 4 addr ++ zeros 4) false
        (putArray { arrayOf s array with
          total := (arrayOf s array).total + 1, unlogged := 0, lastLog := some s.clockMs } s) := by
  simp [correctBit, hl]

/-- What a correction can do: it raises the array's count, and it may write an entry, which is not legal. -/
theorem correctBit_cases (array addr : Nat) (s : State) :
    ∃ x : ArrayErrors, x.array = array ∧ x.total = (arrayOf s array).total + 1 ∧
      (correctBit array addr s = putArray x s ∨
        ∃ detail, correctBit array addr s = log 0 0x01 0x0102 detail false (putArray x s)) := by
  simp only [correctBit]
  split
  · exact ⟨{ arrayOf s array with total := (arrayOf s array).total + 1, unlogged := 0, lastLog := some s.clockMs },
      arrayOf_array s array, rfl, .inr ⟨_, rfl⟩⟩
  · exact ⟨{ arrayOf s array with
        total := (arrayOf s array).total + 1, unlogged := (arrayOf s array).unlogged + 1 },
      arrayOf_array s array, rfl, .inl rfl⟩

/-- A correction acts on the array's count, the logs and the journal alone. -/
theorem correctBit_eq (array addr : Nat) (s : State) :
    correctBit array addr s = { s with
      fabric := (correctBit array addr s).fabric, logs := (correctBit array addr s).logs
      dom := (correctBit array addr s).dom } := by
  obtain ⟨x, -, -, h | ⟨detail, h⟩⟩ := correctBit_cases array addr s
  · rw [h]
    rfl
  · rw [h, log_eq]
    rfl

theorem correctBit_legal (array addr : Nat) (s : State) : (correctBit array addr s).logs.legal = s.logs.legal := by
  obtain ⟨x, -, -, h | ⟨detail, h⟩⟩ := correctBit_cases array addr s
  · rw [h]
    rfl
  · rw [h, log_false_legal]
    rfl

theorem correctBit_total (array addr : Nat) (s : State) :
    (arrayOf (correctBit array addr s) array).total = (arrayOf s array).total + 1 := by
  obtain ⟨x, ha, ht, h | ⟨detail, h⟩⟩ := correctBit_cases array addr s
  · rw [h, arrayOf_putArray_same x s ha, ht]
  · rw [h, arrayOf_log, arrayOf_putArray_same x s ha, ht]

theorem arrayOf_correctBit_other {array b : Nat} (addr : Nat) (s : State) (hb : b ≠ array) :
    arrayOf (correctBit array addr s) b = arrayOf s b := by
  obtain ⟨x, rfl, -, h | ⟨detail, h⟩⟩ := correctBit_cases array addr s
  · rw [h, arrayOf_putArray_other x s hb]
  · rw [h, arrayOf_log, arrayOf_putArray_other x s hb]

/-- The corrections of a scrub, one after the other. -/
def correctBits (array base : Nat) (offsets : List Nat) (s : State) : State :=
  offsets.foldl (fun t a => correctBit array (base + a) t) s

/-- What one correction leaves, a scrub leaves. -/
theorem correctBits_keeps {α : Type} (g : State → α) (array : Nat) (h : ∀ addr t, g (correctBit array addr t) = g t)
    (base : Nat) (offsets : List Nat) (s : State) : g (correctBits array base offsets s) = g s := by
  induction offsets generalizing s with
  | nil => rfl
  | cons a l ih => exact (ih (correctBit array (base + a) s)).trans (h _ _)

/-- A scrub counts every correction. -/
theorem correctBits_total (array base : Nat) (offsets : List Nat) (s : State) :
    (arrayOf (correctBits array base offsets s) array).total = (arrayOf s array).total + offsets.length := by
  induction offsets generalizing s with
  | nil => rfl
  | cons a l ih =>
    have hl : (arrayOf (correctBits array base (a :: l) s) array).total = _ := ih (correctBit array (base + a) s)
    rw [hl, correctBit_total, List.length_cons]
    omega

/-! ### Words in memory (R3, R14) -/

theorem length_leBytes (n v : Nat) : (leBytes n v).length = n := by
  induction n generalizing v with
  | zero => rfl
  | succ n ih => rw [leBytes, List.length_cons, ih]

/-- The bytes of a number spell its low bits. -/
theorem leNat_leBytes (n v : Nat) : leNat (leBytes n v) = v % 2 ^ (8 * n) := by
  induction n generalizing v with
  | zero => simp [leBytes, leNat, Nat.mod_one]
  | succ n ih =>
    rw [leBytes, leNat, ih, BitVec.toNat_ofNat, show 8 * (n + 1) = 8 + 8 * n by omega, Nat.pow_add, Nat.mod_mul]

/-- Stored bytes load as the number they spell. -/
theorem Memory.load_store {m : List Host.Cell} (h : Memory.wf m = true) (addr : Nat) (bs : List Byte) :
    Memory.load (Memory.store m addr bs) addr bs.length = leNat bs := by
  have hbs : (List.range bs.length).map (fun i => Memory.read (Memory.store m addr bs) (addr + i)) = bs := by
    refine List.ext_getElem (by simp) fun i hi hb => ?_
    simp [Memory.read_store_same h addr bs hb, hb]
  rw [Memory.load, hbs]

/-- A word that is stored loads as its low bits. -/
theorem Memory.load_store_word {m : List Host.Cell} (h : Memory.wf m = true) (addr n v : Nat) :
    Memory.load (Memory.store m addr (leBytes n v)) addr n = v % 2 ^ (8 * n) := by
  have hl := Memory.load_store h addr (leBytes n v)
  rwa [length_leBytes, leNat_leBytes] at hl

theorem accessResult_compareSwap_equal {m : List Host.Cell} {w : Bool} {old : Nat} (v : Nat) {addr : Nat}
    (h : old = Memory.load m addr (wordLen w)) :
    accessResult m (.compareSwap w old v) addr = accessResult m (.swap w v) addr := if_pos h.symm

theorem accessResult_compareSwap_other {m : List Host.Cell} {w : Bool} {x : Nat} (v : Nat) {addr : Nat}
    (h : x ≠ Memory.load m addr (wordLen w)) : accessResult m (.compareSwap w x v) addr = m := if_neg h.symm

/-- An access leaves every byte outside its own alone. -/
theorem read_accessResult_other (m : List Host.Cell) (a : Access) (addr : Nat) {x : Nat}
    (hx : x < addr ∨ addr + accessLength a ≤ x) : Memory.read (accessResult m a addr) x = Memory.read m x := by
  have word (w : Bool) (v : Nat) (h : x < addr ∨ addr + wordLen w ≤ x) :
      Memory.read (Memory.store m addr (leBytes (wordLen w) v)) x = Memory.read m x :=
    Memory.read_store_other m addr _ (by rwa [length_leBytes])
  cases a with
  | read w => rfl
  | write bs => exact Memory.read_store_other m addr bs hx
  | fetchAdd w v => exact word w _ hx
  | swap w v => exact word w _ hx
  | compareSwap w e v =>
    by_cases h : e = Memory.load m addr (wordLen w)
    · rw [accessResult_compareSwap_equal v h]
      exact word w v hx
    · rw [accessResult_compareSwap_other v h]

/-- The atomic accesses (R14): a fetch-and-add adds, a swap replaces, a compare-and-swap replaces the expected word alone. -/
theorem atomic_results {m : List Host.Cell} (hm : Memory.wf m = true) (addr : Nat) (w : Bool) (v old : Nat)
    (hold : old = Memory.load m addr (wordLen w)) :
    Memory.load (accessResult m (.fetchAdd w v) addr) addr (wordLen w) = (old + v) % 2 ^ (8 * wordLen w) ∧
      Memory.load (accessResult m (.swap w v) addr) addr (wordLen w) = v % 2 ^ (8 * wordLen w) ∧
      Memory.load (accessResult m (.compareSwap w old v) addr) addr (wordLen w) = v % 2 ^ (8 * wordLen w) ∧
      ∀ x, x ≠ old → accessResult m (.compareSwap w x v) addr = m := by
  have swap : Memory.load (accessResult m (.swap w v) addr) addr (wordLen w) = v % 2 ^ (8 * wordLen w) :=
    Memory.load_store_word hm addr _ v
  refine ⟨?_, swap, ?_, fun x hx => ?_⟩
  · rw [hold]
    exact Memory.load_store_word hm addr _ _
  · rw [accessResult_compareSwap_equal v hold]
    exact swap
  · exact accessResult_compareSwap_other v (hold ▸ hx)

/-! ### Scrubbing -/

/-- RETENTION_SCRUB: every corrected word is counted, at the angle of the scrub. -/
theorem retentionScrub_completes {s : State} (corrected : List Nat) (h : up s = true) :
    Completes (.retentionScrub corrected) s (fun t =>
      t.sun = { s.sun with angle := 16384, frac := 0 } ∧ (arrayOf t 14).total = (arrayOf s 14).total + corrected.length ∧
        t.logs.legal = s.logs.legal ∧ t.energy = s.energy ∧ t.sess = s.sess ∧ t.otp = s.otp) := by
  have keeps {α : Type} (g : State → α) (hc : ∀ addr t, g (correctBit 14 addr t) = g t) (hr : ∀ d t, g (ring d t) = g t)
      (hs : ∀ f t, g (setSun f t) = g t) : g (correctBits 14 retentionBase corrected (reachAngle 16384 s)) = g s :=
    (correctBits_keeps g 14 hc _ _ _).trans (reachAngle_keeps g hr hs _ _)
  have arrays : arrayOf (reachAngle 16384 s) 14 = arrayOf s 14 :=
    arrayOf_congr (reachAngle_keeps (·.fabric.arrays) (fun _ _ => rfl) (fun _ _ => rfl) _ _) 14
  refine ⟨_, congrArg Host.Outcome.next (if_pos h), ?_, ?_, ?_, ?_, ?_, ?_⟩
  · exact (correctBits_keeps (·.sun) 14 (fun _ _ => by rw [correctBit_eq]) _ _ _).trans (reachAngle_sun _ _)
  · exact arrays ▸ correctBits_total 14 retentionBase corrected (reachAngle 16384 s)
  · exact keeps (·.logs.legal) (fun _ _ => correctBit_legal ..) (fun _ _ => rfl) (fun _ _ => rfl)
  · exact keeps (·.energy) (fun _ _ => by rw [correctBit_eq]) (fun _ _ => rfl) (fun _ _ => rfl)
  · exact keeps (·.sess) (fun _ _ => by rw [correctBit_eq]) (fun _ _ => rfl) (fun _ _ => rfl)
  · exact keeps (·.otp) (fun _ _ => by rw [correctBit_eq]) (fun _ _ => rfl) (fun _ _ => rfl)

/-- SCRUB_ACCESS with a single-bit error: one count of its own array, and at most one entry in 60 s. -/
theorem scrubAccess_completes {s : State} {array addr : Nat} (h : up s = true) (hw : windowOf addr = arrayWindow array) :
    Completes (.scrubAccess array addr true) s (fun t =>
      (arrayOf t array).total = (arrayOf s array).total + 1 ∧ (∀ b, b ≠ array → arrayOf t b = arrayOf s b) ∧
        ((arrayOf s array).lastLog = none →
          t.logs.general.head? = some (newEntry s 0 0x01 0x0102
            ([byte array, 0, 0, 0] ++ leBytes 4 ((arrayOf s array).unlogged + 1) ++ leBytes 4 addr ++ zeros 4))) ∧
        (∀ x, (arrayOf s array).lastLog = some x → s.clockMs < x + 60000 → t.logs = s.logs)) := by
  refine ⟨_, congrArg Host.Outcome.next (if_pos ⟨h, rfl, hw⟩), correctBit_total .., fun b hb => arrayOf_correctBit_other _ _ hb,
    fun hl => ?_, fun x hl ht => ?_⟩
  · rw [correctBit_first addr hl]
    exact log_general_head ..
  · rw [correctBit_quiet addr hl ht]
    rfl

theorem scrubAccess_ignores (s : State) (array addr : Nat) : Ignores (.scrubAccess array addr false) s :=
  congrArg Host.Outcome.next (if_neg (fun ⟨_, hf, _⟩ => Bool.noConfusion hf))

/-! ### Double-bit errors -/

/-- An error in ROM: the module stays in reset, as its partners see an absent module (R485). -/
theorem doubleBitError_rom {s : State} (elem addr : Nat) (a : Access) (i : StartInput) (hb : s.power.state ≠ .battery)
    (ho : s.power.state ≠ .off) :
    Completes (.doubleBitError 12 elem addr a i) s (fun t =>
      t.power.phase = .heldReset ∧ t.hedge.safeOk = false ∧
        (∀ o : Outlet, (t.link.get o).gen = .zero ∧ (t.hedge.out.get o).closed = false ∧ (sessOf t o).drive = false) ∧
        t.sw.chans.all (fun x => !x.on) = true ∧ t.energy.pulses.all (fun p => !p.conducting) = true ∧
          t.logs = { s.logs with inHold := 0 }) := by
  have saved : (saveSystem s).logs = s.logs := by
    simp only [saveSystem]
    split <;> rfl
  have links : ∀ o : Outlet, (State.reset.link.get o).gen = .zero := by decide
  have sessions : ∀ o : Outlet, (Sessions.init.out.get o).drive = false := by decide
  refine ⟨powerDown .heldReset s, congrArg Host.Outcome.next (if_neg (not_or.mpr ⟨hb, ho⟩)), rfl, rfl,
    fun o => ⟨links o, ?_, sessions o⟩, rfl, rfl, ?_⟩
  · match o with
    | 0 | 1 | 2 | 3 => rfl
  · exact congrArg (fun l : Logs => { l with inHold := 0 }) saved

theorem doubleBitError_rom_ignores {s : State} (elem addr : Nat) (a : Access) (i : StartInput)
    (h : s.power.state = .battery ∨ s.power.state = .off) : Ignores (.doubleBitError 12 elem addr a i) s :=
  congrArg Host.Outcome.next (if_pos h)

/-- The state in which a double-bit error of a started module has been marked and logged, before the response to it. -/
def doubleBitLogged (array elem addr : Nat) (a : Access) (s : State) : State :=
  logDoubleBit array elem addr (markedAccess a s)

/-- Outside ROM, an error of a started module is marked and logged, and its response follows. -/
theorem exec_doubleBitError {s : State} {array : Nat} (elem addr : Nat) (a : Access) (i : StartInput) (h : up s = true)
    (ha : array ≠ 12) :
    exec (.doubleBitError array elem addr a i) s =
      .next (respondDoubleBit array elem addr i (doubleBitLogged array elem addr a s)) :=
  congrArg Host.Outcome.next ((if_neg ha).trans (if_pos h))

theorem doubleBitError_down {s : State} {array : Nat} (elem addr : Nat) (a : Access) (i : StartInput) (h : up s = false)
    (ha : array ≠ 12) : Ignores (.doubleBitError array elem addr a i) s :=
  congrArg Host.Outcome.next ((if_neg ha).trans (if_neg (Bool.eq_false_iff.mp h)))

theorem markedAccess_of_write {a : Access} (s : State) (h : accessReads a = false) : markedAccess a s = s := by
  simp [markedAccess, h]

/-- A read that finds the error returns the uncorrectable mark; memory, logs and registers stay. -/
theorem markedAccess_of_read {a : Access} (s : State) (h : accessReads a = true) :
    (markedAccess a s).fabric = { s.fabric with answer := (markedAccess a s).fabric.answer, marked := true } ∧
      (markedAccess a s).logs = s.logs ∧ (markedAccess a s).energy = s.energy := by
  simp [markedAccess, h]

theorem markedAccess_dom (a : Access) (s : State) : (markedAccess a s).dom = s.dom := by
  unfold markedAccess
  split <;> rfl

theorem doubleBitLogged_active (array elem addr : Nat) (a : Access) (s : State) :
    (doubleBitLogged array elem addr a s).dom.active = s.dom.active := by
  simp [doubleBitLogged, logDoubleBit, markedAccess_dom]

theorem doubleBitLogged_standby (array elem addr : Nat) (a : Access) (s : State) :
    standby (doubleBitLogged array elem addr a s) = standby s := by
  simp [standby, doubleBitLogged_active]

/-- A word of a bank that the standby domain reads in its own memory fails its health word. -/
theorem respondDoubleBit_standby {s : State} {array elem : Nat} (addr : Nat) (i : StartInput) (hb : array ≤ 5)
    (ha : s.dom.active ≠ elem) (hs : elem = standby s) :
    respondDoubleBit array elem addr i s = failHealth elem Health.memoryFail s := by
  rw [respondDoubleBit, if_pos hb, if_neg ha.symm, if_pos hs]

theorem respondDoubleBit_met0 {array : Nat} (addr : Nat) (i : StartInput) (s : State) (h6 : 6 ≤ array) (h10 : array ≤ 10) :
    respondDoubleBit array Elem.met0 addr i s = holdMet 0 s := by
  rw [respondDoubleBit, if_neg (by omega), if_pos h10, if_pos rfl]

theorem respondDoubleBit_met1 {array : Nat} (addr : Nat) (i : StartInput) (s : State) (h6 : 6 ≤ array) (h10 : array ≤ 10) :
    respondDoubleBit array Elem.met1 addr i s = holdMet 1 s := by
  rw [respondDoubleBit, if_neg (by omega), if_pos h10, if_neg (by decide), if_pos rfl]

/-- Any other engine restarts; only the panel engine in bank 9 has a response of its own. -/
theorem respondDoubleBit_engine {array elem : Nat} (addr : Nat) (i : StartInput) (s : State) (h6 : 6 ≤ array)
    (h10 : array ≤ 10) (h4 : 4 ≤ elem) (h13 : elem ≤ 13) (hp : array ≠ 9 ∨ elem ≠ Elem.pnl) :
    respondDoubleBit array elem addr i s = engineRestart elem s := by
  have hm0 : elem ≠ Elem.met0 := by unfold Elem.met0; omega
  have hm1 : elem ≠ Elem.met1 := by unfold Elem.met1; omega
  have hpanel : ¬ (elem = Elem.pnl ∧ array = 9 ∧ Config.counterArea addr = true) := fun ⟨he, ha, _⟩ =>
    hp.elim (fun h => h ha) (fun h => h he)
  rw [respondDoubleBit, if_neg (by omega), if_pos h10, if_neg hm0, if_neg hm1, if_neg hpanel, if_pos ⟨h4, h13⟩]

theorem doubleBitError_standby {s : State} {array elem : Nat} (addr : Nat) (a : Access) (i : StartInput) (h : up s = true)
    (ha : s.dom.active ≠ elem) (hs : elem = standby s) (hb : array ≤ 5) :
    Completes (.doubleBitError array elem addr a i) s (fun t =>
      t = failHealth elem Health.memoryFail (logDoubleBit array elem addr (markedAccess a s))) :=
  ⟨_, exec_doubleBitError elem addr a i h (by omega),
    respondDoubleBit_standby addr i hb (by rwa [doubleBitLogged_active]) (by rwa [doubleBitLogged_standby])⟩

theorem doubleBitError_engines {s : State} {array : Nat} (elem addr : Nat) (a : Access) (i : StartInput) (h : up s = true)
    (h6 : 6 ≤ array) (h10 : array ≤ 10) :
    Completes (.doubleBitError array elem addr a i) s (fun t =>
      (elem = Elem.met0 → t = holdMet 0 (logDoubleBit array elem addr (markedAccess a s))) ∧
        (elem = Elem.met1 → t = holdMet 1 (logDoubleBit array elem addr (markedAccess a s))) ∧
        (4 ≤ elem → elem ≤ 13 → (array ≠ 9 ∨ elem ≠ Elem.pnl) →
          t = engineRestart elem (logDoubleBit array elem addr (markedAccess a s)))) := by
  refine ⟨_, exec_doubleBitError elem addr a i h (by omega), ?_, ?_, respondDoubleBit_engine addr i _ h6 h10⟩
  · rintro rfl
    exact respondDoubleBit_met0 addr i _ h6 h10
  · rintro rfl
    exact respondDoubleBit_met1 addr i _ h6 h10

/-- R114: the bytes of a commit slot from 32 on are the entries of the 53 registers, 16 bytes each. -/
theorem registerAt_entry (slot m off : Nat) (hs : slot < 2) (hm : m < 53) (ho : off < 16) :
    registerAt (0x31000000 + 1024 * slot + 32 + 16 * m + off) = some m := by
  have hmod : (0x31000000 + 1024 * slot + 32 + 16 * m + off - retentionBase) % 1024 = 32 + 16 * m + off := by
    unfold retentionBase
    omega
  have hin : retentionBase ≤ 0x31000000 + 1024 * slot + 32 + 16 * m + off ∧
      0x31000000 + 1024 * slot + 32 + 16 * m + off < retentionBase + 2048 ∧ 32 ≤ 32 + 16 * m + off ∧
      32 + 16 * m + off < 880 := by
    unfold retentionBase
    omega
  simp only [registerAt, hmod]
  rw [if_pos hin]
  exact congrArg some (by omega)

/-! ### Accesses and violations -/

/-- A permitted access takes effect whole, keeps the canonical form of memory, and leaves the bytes outside its own. -/
theorem permissionViolation_permitted {s : State} {e : Fin 14} {a : Access} {addr : Nat} (h : up s = true)
    (hp : accessPermitted s e.val a addr = true) :
    Completes (.permissionViolation e a addr) s (fun t =>
      t = { s with fabric := { s.fabric with
        mem := accessResult s.fabric.mem a addr, answer := accessAnswer s a addr, marked := false } } ∧
        (Memory.wf s.fabric.mem = true → Memory.wf t.fabric.mem = true) ∧
        (∀ x, (x < addr ∨ addr + accessLength a ≤ x) → Memory.read t.fabric.mem x = Memory.read s.fabric.mem x)) :=
  ⟨access a addr s, congrArg Host.Outcome.next ((if_neg (by simp [h])).trans (if_pos hp)), rfl,
    fun hm => accessResult_wf hm a addr, fun _ => read_accessResult_other s.fabric.mem a addr⟩

/-- The state in which a blocked access has been logged, before the response to it. -/
def violationLogged (elem : Nat) (a : Access) (addr : Nat) (s : State) : State :=
  log 0 0x01 0x0101 ([byte elem, byte (flag (accessWrites a)), 0, 0] ++ leBytes 4 addr ++ zeros 8) false
    { s with fabric := { s.fabric with answer := 0, marked := false } }

/-- An access that is not permitted is logged, and its element meets the response of its kind. -/
theorem permissionViolation_blocked {s : State} {e : Fin 14} {a : Access} {addr : Nat} (h : up s = true)
    (hp : accessPermitted s e.val a addr = false) :
    Completes (.permissionViolation e a addr) s (fun t =>
      (e.val = s.dom.active →
        t = { violationLogged e.val a addr s with
          fabric := { (violationLogged e.val a addr s).fabric with domainException := true } }) ∧
      (e.val ≠ s.dom.active → e.val = standby s → t = failHealth e.val Health.violation (violationLogged e.val a addr s)) ∧
      (e.val ≠ s.dom.active → e.val ≠ standby s → t = engineRestart e.val (violationLogged e.val a addr s))) :=
  ⟨violate e.val (accessWrites a) addr s,
    congrArg Host.Outcome.next ((if_neg (by simp [h])).trans (if_neg (Bool.eq_false_iff.mp hp))),
    fun ha => if_pos ha, fun ha hs => (if_neg ha).trans (if_pos hs), fun ha hs => (if_neg ha).trans (if_neg hs)⟩

theorem permissionViolation_down {s : State} (e : Fin 14) (a : Access) (addr : Nat) (h : up s = false) :
    Ignores (.permissionViolation e a addr) s := congrArg Host.Outcome.next (if_pos (by simp [h]))

/-! ### Engine resets (R476) -/

theorem exec_engineReset {s : State} {e : Fin 14} (h : up s = true) (he : 2 ≤ e.val) :
    exec (.engineReset e) s = .next (engineRestart e.val s) := congrArg Host.Outcome.next (if_pos ⟨h, he⟩)

theorem engineReset_ignores {s : State} {e : Fin 14} (h : up s = false ∨ e.val < 2) : Ignores (.engineReset e) s :=
  congrArg Host.Outcome.next (if_neg (fun ⟨hu, he⟩ => h.elim (by simp [hu]) (by omega)))

/-- Scarecrow's engine begins with empty persistence counts (log entry 39). -/
theorem engineRestart_scr (s : State) (o : Outlet) :
    (engineRestart 9 s).hedge.scr.get o = { s.hedge.scr.get o with persist := List.replicate 7 0 } := by
  match o with
  | 0 | 1 | 2 | 3 => rfl

/-- A link engine loses its connection and reports cause 15 (R158, R170). -/
theorem engineRestart_link (s : State) (o : Outlet) :
    engineRestart (4 + o.val) s = settle (giveCause o 15 (closeTcp o s)) := by
  have hv : 4 ≤ 4 + o.val ∧ 4 + o.val ≤ 7 := by omega
  have ho : (⟨4 + o.val - 4, by omega⟩ : Outlet) = o := Fin.ext (by simp)
  exact (dif_pos hv).trans (congrArg (fun p : Outlet => settle (giveCause p 15 (closeTcp p s))) ho)

/-! ### The statement -/

/-- Settles O17: command by command, from what the operations behind the commands do. -/
theorem integrityCommands : Obligations.IntegrityCommands := by
  intro s corrected array elem addr e i a
  refine ⟨retentionScrub_completes corrected, scrubAccess_completes, scrubAccess_ignores s array addr,
    doubleBitError_rom elem addr a i, doubleBitError_rom_ignores elem addr a i,
    fun h => ⟨_, exec_doubleBitError elem addr a i h (by decide), rfl⟩, registerAt_entry,
    fun h => ⟨_, exec_doubleBitError elem addr a i h (by decide), rfl⟩,
    fun h => ⟨_, exec_doubleBitError elem addr a i h (by decide), rfl⟩, doubleBitError_standby addr a i,
    doubleBitError_engines elem addr a i, markedAccess_of_read s, markedAccess_of_write s, doubleBitError_down elem addr a i,
    permissionViolation_permitted, fun hm w v old => atomic_results hm addr w v old, permissionViolation_blocked,
    permissionViolation_down e a addr, fun h he => ?_, fun h o he => ?_, engineReset_ignores⟩
  · exact ⟨_, exec_engineReset h (by omega), fun o => by rw [he, engineRestart_scr]⟩
  · exact ⟨_, exec_engineReset h (by omega), by rw [he, engineRestart_link]⟩

end Sys2Proof.Machine

/-! # The logs (R57 to R63, R68)

What an event does to the two logs and what the archive leaves, first as equations of the log operations, then as the
statement. -/

namespace Sys2Proof.Machine

/-! ### The log operations, by what they read of the state -/

theorem journal_up {s : State} (kind object seq : Nat) (h : up s = true) :
    journal kind object seq s = { s with dom := { s.dom with
      journal := ⟨s.dom.nextEntry, stamp s, kind, object, seq⟩ :: s.dom.journal
      nextEntry := s.dom.nextEntry + 1 } } := if_pos h

theorem journal_down {s : State} (kind object seq : Nat) (h : ¬ up s = true) : journal kind object seq s = s := if_neg h

/-- A journal entry changes neither what a general entry is made of nor where it goes. -/
theorem addGeneral_journal_logs (e : LogEntry) (kind object seq : Nat) (s : State) :
    (addGeneral e (journal kind object seq s)).logs = (addGeneral e s).logs := by
  rw [journal_eq]
  rfl

/-- The legal log follows from the logs alone. -/
theorem addLegal_logs_congr {s t : State} (e : LogEntry) (h : t.logs = s.logs) :
    (addLegal e t).logs = (addLegal e s).logs := by
  simp only [addLegal, lastChain, h]
  split <;> rfl

theorem addLegal_next (e : LogEntry) (s : State) : (addLegal e s).logs.next = s.logs.next := by
  unfold addLegal
  split <;> rfl

/-- With room, a legal entry is chained to the one before it (R62). -/
theorem addLegal_room {s : State} (e : LogEntry) (h : s.logs.legal.length < 4096) :
    addLegal e s = { s with logs := { s.logs with
      legal := ⟨e, Config.sha256 (digestBytes (lastChain s) ++ entryBytes e)⟩ :: s.logs.legal } } := if_pos h

/-- In a full log, a legal entry is only counted (R63). -/
theorem addLegal_full {s : State} (e : LogEntry) (h : 4096 ≤ s.logs.legal.length) :
    addLegal e s = { s with logs := { s.logs with overflow := s.logs.overflow + 1 } } := if_neg (Nat.not_lt.mpr h)

/-- The general log gains the event's entry; a legal event goes to the legal log after that (R60, R62). -/
theorem log_logs (origin sub code : Nat) (detail : List Byte) (legal : Bool) (s : State) :
    (log origin sub code detail legal s).logs =
      (if legal then addLegal (newEntry s origin sub code detail) (addGeneral (newEntry s origin sub code detail) s)
        else addGeneral (newEntry s origin sub code detail) s).logs := by
  cases legal with
  | false => exact addGeneral_journal_logs _ _ _ _ _
  | true => exact addLegal_logs_congr _ (addGeneral_journal_logs _ _ _ _ _)

/-! ### What an event leaves in the logs -/

theorem log_next (origin sub code : Nat) (detail : List Byte) (legal : Bool) (s : State) :
    (log origin sub code detail legal s).logs.next = s.logs.next + 1 := by
  rw [log_logs]
  cases legal with
  | false => rfl
  | true => exact addLegal_next _ _

/-- The ring holds the new entry and, of the old ones, those whose sector has not been erased. -/
theorem log_general (origin sub code : Nat) (detail : List Byte) (legal : Bool) (s : State) :
    (log origin sub code detail legal s).logs.general =
      newEntry s origin sub code detail :: s.logs.general.filter (fun x => ringOldest s.logs.next ≤ x.index) := by
  rw [log_logs]
  cases legal with
  | false => rfl
  | true => exact addLegal_general _ _

theorem mem_log_general {origin sub code : Nat} {detail : List Byte} {legal : Bool} {s : State} {x : LogEntry}
    (h : x ∈ (log origin sub code detail legal s).logs.general) :
    x = newEntry s origin sub code detail ∨ x ∈ s.logs.general := by
  rw [log_general, List.mem_cons] at h
  exact h.imp_right fun hx => (List.mem_filter.mp hx).1

theorem log_false_overflow (origin sub code : Nat) (detail : List Byte) (s : State) :
    (log origin sub code detail false s).logs.overflow = s.logs.overflow := by
  rw [log_logs]
  rfl

theorem log_true_room {s : State} (origin sub code : Nat) (detail : List Byte) (h : s.logs.legal.length < 4096) :
    (log origin sub code detail true s).logs.legal =
        ⟨newEntry s origin sub code detail,
          Config.sha256 (digestBytes (lastChain s) ++ entryBytes (newEntry s origin sub code detail))⟩ :: s.logs.legal ∧
      (log origin sub code detail true s).logs.overflow = s.logs.overflow := by
  rw [log_logs, if_pos rfl, addLegal_room (s := addGeneral _ s) _ h]
  exact ⟨rfl, rfl⟩

theorem log_true_full {s : State} (origin sub code : Nat) (detail : List Byte) (h : 4096 ≤ s.logs.legal.length) :
    (log origin sub code detail true s).logs.legal = s.logs.legal ∧
      (log origin sub code detail true s).logs.overflow = s.logs.overflow + 1 := by
  rw [log_logs, if_pos rfl, addLegal_full (s := addGeneral _ s) _ h]
  exact ⟨rfl, rfl⟩

/-! ### The archive (R68) -/

/-- Bytes that have the length of a field stand in it as they are. -/
theorem padTo_of_length {n : Nat} {bs : List Byte} (h : bs.length = n) : padTo n bs = bs := by
  simp [padTo, zeros, ← h]

/-- The detail of an archive's entry fills its field. -/
theorem archiveDetail_length (s : State) :
    ((digestBytes (lastChain s)).take 14 ++ leBytes 2 s.logs.legal.length).length = 16 := by
  simp [digestBytes, wordBytes, length_leBytes]

/-- The archive leaves one entry, chained to the empty log. -/
theorem archiveLegal_legal (origin : Nat) (s : State) :
    ∃ e : LegalEntry, (archiveLegal origin s).logs.legal = [e] ∧
      e.entry = newEntry s origin 0x01 0x0012 ((digestBytes (lastChain s)).take 14 ++ leBytes 2 s.logs.legal.length) ∧
      e.chain = Config.sha256 (digestBytes 0 ++ entryBytes e.entry) :=
  ⟨_, (log_true_room (s := { s with logs := { s.logs with legal := [] } }) _ _ _ _ (Nat.zero_lt_succ _)).1, rfl, rfl⟩

/-! ### The statement -/

/-- Settles O14: an event by the equations of the log, the archive as an event on an emptied legal log. -/
theorem logEntries : Obligations.LogEntries := by
  refine ⟨fun origin sub code detail legal s => ⟨log_eq .., log_next .., log_general_head .., rfl, rfl, rfl, rfl, rfl, rfl,
    fun x hx => mem_log_general hx, ?_, ?_, ?_⟩, fun origin s => ?_⟩
  · rintro rfl
    exact ⟨log_false_legal .., log_false_overflow ..⟩
  · rintro rfl hroom
    exact log_true_room _ _ _ _ hroom
  · rintro rfl hfull
    exact log_true_full _ _ _ _ hfull
  · obtain ⟨e, hlegal, hentry, hchain⟩ := archiveLegal_legal origin s
    exact ⟨e, hlegal, congrArg LogEntry.origin hentry, congrArg LogEntry.sub hentry, congrArg LogEntry.code hentry,
      (congrArg LogEntry.detail hentry).trans (padTo_of_length (archiveDetail_length s)), hchain⟩

end Sys2Proof.Machine

/-! # The machine after reset, and the reads of the host link (chapter 03, R473) -/

namespace Sys2Proof.Machine

/-! ### The machine after reset (R473, R475, R481) -/

/-- An outlet after reset: in S0, its contactors neither driven nor closed. -/
theorem reset_outlet (o : Outlet) :
    (sessOf State.reset o).state = .s0 ∧ (sessOf State.reset o).drive = false ∧
      (State.reset.hedge.out.get o).closed = false := by
  match o with
  | 0 | 1 | 2 | 3 => exact ⟨rfl, rfl, rfl⟩

/-- The host link after reset has neither responses nor transfers. -/
theorem reset_hostBounded : HostBounded State.reset :=
  ⟨Nat.zero_le _, Nat.zero_le _, Nat.zero_le _, Nat.zero_le _⟩

/-- Settles O5, by the fields of the reset state. -/
theorem resetState : Obligations.ResetState :=
  ⟨⟨rfl, rfl, rfl, rfl, rfl, reset_outlet, rfl, rfl, rfl, rfl, rfl, rfl⟩, reset_hostBounded, rfl⟩

/-! ### Reads of the host link (R54, R67, R519) -/

/-- What a packet takes from the state follows from power, configuration and the host session key. -/
theorem sameSender_of {s u : State} (hp : u.power = s.power) (hc : u.cfg = s.cfg) (hk : u.cis.hostKey = s.cis.hostKey) :
    SameSender s u := by
  have hin : ∀ type key, inForce u type key = inForce s type key := fun type key => by simp only [inForce, hc]
  have hn : ∀ type key off n dflt, cfgN u type key off n dflt = cfgN s type key off n dflt := fun _ _ _ _ _ => by
    simp only [cfgN, hin]
  refine ⟨by simp only [hostKeyOf, hp, hk], fun p => ?_⟩
  cases p <;> simp only [hostAddress, hn]

/-- A host request whose action is to reply: it answers with its payload, on the state with any host link that has the same
transfers and, under opcode 0x0101, the same sequence states. -/
theorem host_reads {op : OpSpec} {c : Instr} {r : Request} {s : State} {act : State → State × Answer} {pl : List Byte}
    (hc : exec c s = .next (hostRequest op r act s))
    (ha : ∀ x : HostLink, x.transfers = s.host.transfers →
      (op.code = 0x0101 → ∀ p, originOf { s with host := x } p = originOf s p) →
        act { s with host := x } = reply pl { s with host := x }) :
    Admitted op r s → Completes c s (fun t => Answers s r op.code St.ok pl t ∧ SameModule s t) :=
  host_answers hc fun x hx hp => ⟨_, ha x hx hp, sameSender_of rfl rfl rfl, rfl⟩

theorem need_of {c : Bool} (h : c = true) (st : Nat) : need c st = St.ok := if_pos h

theorem reservedOk_of {p : List Byte} {off n : Nat} (h : fieldN p off n = 0) : reservedOk p off n = St.ok :=
  need_of (by simp [h]) _

/-- A read block with a good header gives its part of the object (R54). -/
theorem bulkRead_block {r : Request} (object : List Byte) (s : State) (hid : fieldN r.payload 0 4 ≠ 0)
    (hoff : fieldN r.payload 4 4 % 8 = 0) (hlen : fieldN r.payload 12 2 ≤ 1384) (hres : fieldN r.payload 14 2 = 0) :
    bulkRead object r s =
      reply (blockHeader (fieldN r.payload 0 4) (fieldN r.payload 4 4) object.length
          (slice object (fieldN r.payload 4 4) (fieldN r.payload 12 2)).length ++
        slice object (fieldN r.payload 4 4) (fieldN r.payload 12 2)) s := by
  unfold bulkRead
  rw [guarded_pass]
  simp [need_of, reservedOk_of, hid, hoff, hlen, hres]

/-! ### A signature acts beside the host link (R345) -/

/-- The same state with another host link. -/
def withHost (x : HostLink) (s : State) : State := { s with host := x }

@[simp] theorem up_withHost (x : HostLink) (s : State) : up (withHost x s) = up s := rfl
@[simp] theorem logs_withHost (x : HostLink) (s : State) : (withHost x s).logs = s.logs := rfl
@[simp] theorem cis_withHost (x : HostLink) (s : State) : (withHost x s).cis = s.cis := rfl
@[simp] theorem keyBlock_withHost (x : HostLink) (s : State) : keyBlock (withHost x s) = keyBlock s := rfl

@[simp] theorem newEntry_withHost (x : HostLink) (s : State) (origin sub code : Nat) (detail : List Byte) :
    newEntry (withHost x s) origin sub code detail = newEntry s origin sub code detail := rfl
@[simp] theorem addGeneral_withHost (x : HostLink) (e : LogEntry) (s : State) :
    addGeneral e (withHost x s) = withHost x (addGeneral e s) := rfl

@[simp] theorem journal_withHost (x : HostLink) (kind object seq : Nat) (s : State) :
    journal kind object seq (withHost x s) = withHost x (journal kind object seq s) := by
  by_cases h : up s = true
  · exact (journal_up (s := withHost x s) _ _ _ h).trans (congrArg (withHost x) (journal_up _ _ _ h).symm)
  · exact (journal_down (s := withHost x s) _ _ _ h).trans (congrArg (withHost x) (journal_down _ _ _ h).symm)

@[simp] theorem addLegal_withHost (x : HostLink) (e : LogEntry) (s : State) :
    addLegal e (withHost x s) = withHost x (addLegal e s) := by
  by_cases h : s.logs.legal.length < 4096
  · exact (addLegal_room (s := withHost x s) e h).trans (congrArg (withHost x) (addLegal_room e h).symm)
  · exact (addLegal_full (s := withHost x s) e (Nat.not_lt.mp h)).trans
      (congrArg (withHost x) (addLegal_full e (Nat.not_lt.mp h)).symm)

theorem log_withHost (x : HostLink) (origin sub code : Nat) (detail : List Byte) (legal : Bool) (s : State) :
    log origin sub code detail legal (withHost x s) = withHost x (log origin sub code detail legal s) := by
  cases legal <;> simp [log]

theorem putStatements_withHost (x : HostLink) (ys : List Statement) (s : State) :
    putStatements ys (withHost x s) = withHost x (putStatements ys s) := by
  simp only [putStatements, keyBlock_withHost]
  split <;> rfl

theorem bringInForce_withHost (x : HostLink) (y : Statement) (s : State) :
    bringInForce y (withHost x s) = withHost x (bringInForce y s) := by
  simp only [bringInForce, keyBlock_withHost, putStatements_withHost]
  exact log_withHost x _ _ _ _ _ _

theorem signed_withHost (x : HostLink) (s : State) : signed (withHost x s) = withHost x (signed s) := by
  have hdraw : draw (withHost x s) = withHost x (draw s) := rfl
  simp only [signed, cis_withHost, keyBlock_withHost, hdraw, bringInForce_withHost]
  split
  · split <;> rfl
  · rfl

/-- New statements change the two key tails alone. -/
theorem putStatements_keeps {α : Type} (g : State → α)
    (hk : ∀ a b t, g (setCis (fun c => { c with tailA := a, tailB := b }) t) = g t) (ys : List Statement) (s : State) :
    g (putStatements ys s) = g s := by
  unfold putStatements putKeyBlock
  split
  · split
    · exact hk s.cis.tailA _ s
    · exact hk _ s.cis.tailB s
  · rfl

/-- What neither the count of the free values nor the key tails nor the logs change, a signature leaves. -/
theorem signed_keeps {α : Type} (g : State → α) (hd : ∀ t, g (draw t) = g t)
    (hk : ∀ a b t, g (setCis (fun c => { c with tailA := a, tailB := b }) t) = g t)
    (hl : ∀ l d t, g { t with logs := l, dom := d } = g t) (s : State) : g (signed s) = g s := by
  unfold signed
  split
  · split
    · rw [bringInForce, logStatement, log_eq]
      exact ((hl _ _ _).trans (putStatements_keeps g hk _ _)).trans (hd s)
    · exact hd s
  · exact hd s

/-- A signature leaves what packets to a host take from the state. -/
theorem signed_sender (s : State) : SameSender s (signed s) := by
  obtain ⟨hp, hc, hk⟩ : (signed s).power = s.power ∧ (signed s).cfg = s.cfg ∧ (signed s).cis.hostKey = s.cis.hostKey := by
    simpa using signed_keeps (fun t => (t.power, t.cfg, t.cis.hostKey)) (fun _ => rfl) (fun _ _ _ => rfl) (fun _ _ _ => rfl) s
  exact sameSender_of hp hc hk

/-! ### The statement of the reads -/

theorem identityBytes_withHost (p : Port) {x : HostLink} {s : State} (h : originOf (withHost x s) p = originOf s p) :
    identityBytes p (withHost x s) = identityBytes p s := by
  simp only [identityBytes, h]
  rfl

theorem transferReply_withHost {x : HostLink} {s : State} (id : Nat) (h : x.transfers = s.host.transfers) :
    transferReply (withHost x s) id = transferReply s id := by
  simp only [transferReply, findTransfer, withHost, h]

/-- A legal-log read within its limits replies and signs. -/
theorem execLegalLogRead_act {p : List Byte} (s : State) (hoff : fieldN p 0 2 ≤ 4095) (hn : fieldN p 2 2 ≤ 20) :
    guarded [need (fieldN p 0 2 ≤ 4095) St.range, need (fieldN p 2 2 ≤ 20) St.range]
      (fun s => reply (legalLogReply p s) (signed s)) s = reply (legalLogReply p s) (signed s) :=
  guarded_pass (by simp [need_of, hoff, hn])

/-- Settles O10: each read is a reply that the host link passes on; the legal log's read signs beside it. -/
theorem hostLinkReads : Obligations.HostLinkReads := by
  intro s r
  refine ⟨?_, ?_, fun hid hoff hlen hres => ?_, fun hn hres => ?_, fun hoff hn => ?_, ?_, ?_⟩
  · exact host_reads rfl fun x _ hp => congrArg (reply · (withHost x s)) (identityBytes_withHost r.port (hp rfl _))
  · exact host_reads rfl fun x _ _ => rfl
  · exact host_reads rfl fun x _ _ => bulkRead_block _ _ hid hoff hlen hres
  · exact host_reads rfl fun x _ _ => guarded_pass (by simp [need_of, reservedOk_of, hn, hres])
  · exact host_answers rfl fun x _ _ => ⟨withHost x (signed s), (execLegalLogRead_act (withHost x s) hoff hn).trans
      (congrArg (reply (legalLogReply r.payload s)) (signed_withHost x s)), signed_sender s, rfl⟩
  · exact host_reads rfl fun x hx _ => congrArg (reply · (withHost x s)) (transferReply_withHost _ hx)
  · exact host_reads rfl fun x _ _ => rfl

end Sys2Proof.Machine

/-! # The commands of Sundial (R27 to R38, R277)

The dial cycle boundary, the doorbells, and the UTC clock. -/

namespace Sys2Proof.Machine

/-! ### The ended cycle leaves Sundial alone (R28, R34) -/

theorem finishLoad_sun (s : State) : (finishLoad s).sun = s.sun := by
  unfold finishLoad
  split
  · rfl
  · exact log_sun _ _ _ _ _ _

theorem measureBoundary_sun (s : State) : (measureBoundary s).sun = s.sun := by
  unfold measureBoundary
  split <;> rfl

theorem changeMclk_sun (s : State) : (changeMclk s).sun = s.sun := by
  unfold changeMclk
  split <;> rfl

theorem reloadPath_sun (s : State) : (reloadPath s).sun = s.sun := by
  unfold reloadPath
  split
  · exact changeMclk_sun _
  · rfl

theorem acquisitionBoundary_sun (tc : Nat) (s : State) : (acquisitionBoundary tc s).sun = s.sun := by
  simp only [acquisitionBoundary, legalBoundary, setAcq_sun, reloadPath_sun, measureBoundary_sun]

theorem sun_of_calm {s t : State} (h : calm t = calm s) : t.sun = s.sun := congrArg Calm.sun h

/-- The state that Sundial judges at a boundary: everything that the ended cycle completes before Sundial's own step. -/
def cycleEnded (m : CycleMeasure) (s : State) : State :=
  energyBoundary (acquisitionBoundary m.tc (startPeriods (finishLoad s)))

theorem cycleEnded_sun (m : CycleMeasure) (s : State) : (cycleEnded m s).sun = s.sun :=
  calc (cycleEnded m s).sun
      = (acquisitionBoundary m.tc (startPeriods (finishLoad s))).sun := sun_of_calm (energyBoundary_calm _)
    _ = (startPeriods (finishLoad s)).sun := acquisitionBoundary_sun _ _
    _ = (finishLoad s).sun := sun_of_calm (startPeriods_calm _)
    _ = s.sun := finishLoad_sun s

/-- What follows Sundial's step at a boundary leaves Sundial as that step left it. -/
theorem dialBoundary_sun (m : CycleMeasure) (s : State) :
    (dialBoundary m s).sun = (sundialBoundary m (cycleEnded m s)).sun := by
  refine sun_of_calm ?_
  unfold dialBoundary
  dsimp only
  rw [forOutlets_calm _ _ replyBoundary_calm]
  split <;>
    simp only [renewReplies_calm, allocBoundary_calm, forOutlets_calm _ _ startImd_calm, billingBoundary_calm, cycleEnded]

/-! ### Sundial's step (R28 to R32) -/

theorem ringCycle_sun (s : State) : (ringCycle s).sun = s.sun :=
  ringPassed_keeps (·.sun) (fun _ _ => rfl) _ _ _

/-- An integer is its own rounding. -/
theorem openRound_natCast (n : Nat) : openRound (n : Rat) = n := by
  have hfloor : (n : Rat).floor = n := Rat.floor_intCast n
  have hcast : (((n : Rat).floor : Int) : Rat) = n := congrArg Int.cast hfloor
  exact (if_pos hcast).trans hfloor

/-- The runs of good and of missing cycles that a cycle leaves (R28). -/
def goodRunAfter (missing : Bool) (run : Nat) : Nat := if missing then 0 else run + 1
def missRunAfter (missing : Bool) (run : Nat) : Nat := if missing then run + 1 else 0

/-- The mode that Sundial takes by its judgement of a cycle (R29), from the runs before it. -/
def modeAfter (s : State) (m : CycleMeasure) (x : Sundial) : SunMode :=
  nextMode s (crossing s m) (cycleMissing s m) (goodRunAfter (cycleMissing s m) x.goodRun)
    (missRunAfter (cycleMissing s m) x.missRun)

/-- Sundial's count, angle, runs and mode after its step; its UTC clock and epoch are not part of it. -/
theorem sundialBoundary_sun (m : CycleMeasure) (s : State) :
    let x := (sundialBoundary m s).sun
    x.cycle = s.sun.cycle + 1 ∧ x.angle = 0 ∧ x.tc = m.tc ∧ x.goodRun = goodRunAfter (cycleMissing s m) s.sun.goodRun ∧
      x.missRun = missRunAfter (cycleMissing s m) s.sun.missRun ∧ x.mode = modeAfter s m s.sun ∧ x.utc = s.sun.utc ∧
      x.epoch = s.sun.epoch ∧
      x.dialFreq = (openRound (nextFreq s (modeAfter s m s.sun) ((crossing s m).getD 0) m.freq).1).toNat := by
  have hsun : (sundialBoundary m s).sun = (setSun _ (ringCycle s)).sun := sun_of_calm (logMode_calm _ _ _ _ _)
  rw [setSun_sun, ringCycle_sun] at hsun
  rw [hsun]
  exact ⟨rfl, rfl, rfl, rfl, rfl, rfl, rfl, rfl, rfl⟩

/-- FREEWHEEL runs the dial at the nominal frequency (R30). -/
theorem nextFreq_freewheel (s : State) (e : Int) (freq : Nat) :
    (openRound (nextFreq s .freewheel e freq).1).toNat = nominalFreq s := by
  rw [nextFreq, openRound_natCast, Int.toNat_natCast]

/-! ### DIAL_CYCLE_BOUNDARY (R28, R29, R34) -/

/-- A boundary in a started module: Sundial is judged on the ended cycle, and the standing conditions follow. -/
theorem dialCycleBoundary_judged {s : State} (m : CycleMeasure) (h : up s = true) :
    CarriesOut (.dialCycleBoundary m) s (fun t =>
      t.sun.cycle = s.sun.cycle + 1 ∧ t.sun.angle = 0 ∧ t.sun.tc = m.tc ∧
        t.sun.goodRun = goodRunAfter (cycleMissing (cycleEnded m s) m) s.sun.goodRun ∧
        t.sun.missRun = missRunAfter (cycleMissing (cycleEnded m s) m) s.sun.missRun ∧
        t.sun.mode = modeAfter (cycleEnded m s) m s.sun ∧ t.sun.utc = s.sun.utc ∧ t.sun.epoch = s.sun.epoch ∧
        (t.sun.mode = .freewheel → t.sun.dialFreq = nominalFreq (cycleEnded m s))) := by
  refine ⟨dialBoundary m s, congrArg Host.Outcome.next (if_pos h), ?_⟩
  dsimp only
  rw [dialBoundary_sun, ← cycleEnded_sun m s]
  obtain ⟨hcycle, hangle, htc, hgood, hmiss, hmode, hutc, hepoch, hfreq⟩ := sundialBoundary_sun m (cycleEnded m s)
  refine ⟨hcycle, hangle, htc, hgood, hmiss, hmode, hutc, hepoch, fun hfree => ?_⟩
  rw [hfreq, ← hmode, hfree, nextFreq_freewheel]

theorem sunRuns_of_down {s : State} (h : up s = false) : sunRuns s = decide (s.power.phase = .recovery) := by
  simp [sunRuns, h]

/-- In ROM recovery Sundial alone takes the boundary (R434; log entry 37). -/
theorem dialCycleBoundary_recovery {s : State} (m : CycleMeasure) (h : up s = false) (hr : s.power.phase = .recovery) :
    exec (.dialCycleBoundary m) s = .next (sundialBoundary m s) :=
  congrArg Host.Outcome.next ((if_neg (by simp [h])).trans (if_pos (by simp [sunRuns_of_down h, hr])))

theorem dialCycleBoundary_ignores {s : State} (m : CycleMeasure) (h : up s = false) (hr : s.power.phase ≠ .recovery) :
    Ignores (.dialCycleBoundary m) s :=
  congrArg Host.Outcome.next ((if_neg (by simp [h])).trans (if_neg (by simp [sunRuns_of_down h, hr])))

theorem logMode_keeps {α : Type} (g : State → α) (hl : ∀ l d t, g { t with logs := l, dom := d } = g t)
    (old new : BitVec 16) (e : Int) (freq : Nat) (s : State) : g (logMode old new e freq s) = g s := by
  unfold logMode
  split
  · rfl
  · rw [log_eq]
    exact hl _ _ s

/-- What neither the log nor a doorbell nor Sundial changes, Sundial's step leaves. -/
theorem sundialBoundary_keeps {α : Type} (g : State → α) (hl : ∀ l d t, g { t with logs := l, dom := d } = g t)
    (hs : ∀ f t, g (setSun f t) = g t) (hr : ∀ d t, g (ring d t) = g t) (hf : ∀ f t, g { t with fabric := f } = g t)
    (m : CycleMeasure) (s : State) : g (sundialBoundary m s) = g s :=
  calc g (sundialBoundary m s)
      = g (setSun _ (ringCycle s)) := logMode_keeps g hl _ _ _ _ _
    _ = g (ringCycle s) := hs _ _
    _ = g (ringPassed s.sun.angle 65536 s) := hf _ _
    _ = g s := ringPassed_keeps g hr _ _ _

/-! ### DOORBELL (R36) -/

/-- A slot that the list does not hold yet holds what is put in. -/
theorem find_insertDoorbell {p : Doorbell → Bool} {d : Doorbell} {l : List Doorbell} (hd : p d = true)
    (hl : ∀ x ∈ l, p x = false) : (insertDoorbell d l).find? p = some d := by
  induction l with
  | nil => exact List.find?_cons_of_pos hd
  | cons x l ih =>
    unfold insertDoorbell
    split
    · exact List.find?_cons_of_pos hd
    · rw [List.find?_cons_of_neg (by simp [hl x])]
      exact ih fun y hy => hl y (List.mem_cons_of_mem x hy)

/-- After arming, the slot holds its new doorbell, or none for a period of 0. An angle that the dial stands at has passed (log
entry 55). -/
theorem find_armDoorbell (elem slot angle period : Nat) (s : State) :
    (armDoorbell elem slot angle period s).fabric.doorbells.find? (fun d => d.elem == elem && d.slot == slot) =
      if period = 0 then none else some ⟨elem, slot, angle, period, 0, decide (angle ≤ s.sun.angle)⟩ := by
  have hrest : ∀ x ∈ s.fabric.doorbells.filter (fun d => !(d.elem == elem && d.slot == slot)),
      (x.elem == elem && x.slot == slot) = false := fun x hx =>
    (Bool.not_eq_true' _).mp (List.mem_filter.mp hx).2
  unfold armDoorbell
  dsimp only
  split
  · exact List.find?_eq_none.mpr fun x hx => by simp [hrest x hx]
  · exact find_insertDoorbell (by simp) hrest

theorem getLsbD_withoutBit {w i : Nat} (v : BitVec w) : (withoutBit v i).getLsbD i = false := by
  by_cases h : i < w <;>
    simp only [withoutBit, BitVec.getLsbD_and, BitVec.getLsbD_not, BitVec.getLsbD_ofNat, Nat.testBit_two_pow_self, h,
      decide_true, decide_false, Bool.and_true, Bool.not_true, Bool.and_false, Bool.false_and]

/-- The state with Sundial, the fabric and the outputs left out. -/
def besideDial (t : State) : State := { t with sun := .init, fabric := State.reset.fabric, out := [] }

theorem eq_of_besideDial {s t : State} (h : besideDial t = besideDial s) :
    t = { s with sun := t.sun, fabric := t.fabric, out := t.out } :=
  congrArg (fun u : State => { u with sun := t.sun, fabric := t.fabric, out := t.out }) h

/-- As a doorbell goes out at its angle, the dial, the fabric and the outputs alone change. -/
theorem besideDial_reach (d : Doorbell) (s : State) : besideDial (ring d (reachAngle d.angle s)) = besideDial s :=
  reachAngle_keeps besideDial (fun _ _ => rfl) (fun _ _ => rfl) _ _

theorem doorbell_down {s : State} (elem : Fin 14) (event : DoorbellEvent) (h : up s = false) :
    Ignores (.doorbell elem event) s := congrArg Host.Outcome.next (if_pos (by simp [h]))

theorem doorbell_arm {s : State} (elem : Fin 14) (slot : Fin 4) (angle : U16) (period : Byte) (h : up s = true) :
    Completes (.doorbell elem ⟨slot, .arm angle period⟩) s (fun t =>
      t = { s with fabric := { s.fabric with doorbells := t.fabric.doorbells } } ∧
        t.fabric.doorbells.find? (fun d => d.elem == elem.val && d.slot == slot.val) =
          if period = 0 then none
          else some ⟨elem.val, slot.val, angle.toNat, period.toNat, 0, decide (angle.toNat ≤ s.sun.angle)⟩) := by
  have hp : period = 0 ↔ period.toNat = 0 := ⟨fun h => by rw [h]; rfl, fun h => BitVec.eq_of_toNat_eq h⟩
  simp only [hp]
  exact ⟨armDoorbell elem.val slot.val angle.toNat period.toNat s, congrArg Host.Outcome.next (if_neg (by simp [h])), rfl,
    find_armDoorbell _ _ _ _ s⟩

theorem doorbell_wait {s : State} (elem : Fin 14) (slot : Fin 4) (h : up s = true) :
    Completes (.doorbell elem ⟨slot, .wait⟩) s (fun t =>
      t = { s with fabric := { s.fabric with waiting := withBit s.fabric.waiting elem.val } }) :=
  ⟨_, congrArg Host.Outcome.next (if_neg (by simp [h])), rfl⟩

/-- An armed doorbell that is due goes out as the dial reaches its angle, and wakes its element. -/
theorem doorbell_due {s : State} {elem : Fin 14} {slot : Fin 4} {d : Doorbell}
    (hd : s.fabric.doorbells.find? (fun d => d.elem == elem.val && d.slot == slot.val) = some d) (h : up s = true)
    (hdue : d.due = true) :
    Completes (.doorbell elem ⟨slot, .reach⟩) s (fun t =>
      t.out.head? = some (.doorbell elem.val slot.val) ∧ t.sun = { s.sun with angle := d.angle, frac := 0 } ∧
        t.fabric.waiting.getLsbD elem.val = false ∧ t = { s with sun := t.sun, fabric := t.fabric, out := t.out }) := by
  obtain ⟨he, hs⟩ : d.elem = elem.val ∧ d.slot = slot.val := by simpa using List.find?_some hd
  refine ⟨ring d (reachAngle d.angle s), ?_, ?_, reachAngle_sun d.angle s, ?_, eq_of_besideDial (besideDial_reach d s)⟩
  · refine congrArg Host.Outcome.next ((if_neg (by simp [h])).trans ?_)
    simp only [hd, hdue, if_true]
  · rw [← he, ← hs]
    rfl
  · rw [← he]
    exact getLsbD_withoutBit _

/-- A slot that is not armed, or whose doorbell is not due, does nothing as the dial comes by. -/
theorem doorbell_not_due {s : State} {elem : Fin 14} {slot : Fin 4}
    (hd : ∀ d, s.fabric.doorbells.find? (fun d => d.elem == elem.val && d.slot == slot.val) = some d → d.due = false) :
    Ignores (.doorbell elem ⟨slot, .reach⟩) s := by
  by_cases h : up s = true
  · refine congrArg Host.Outcome.next ((if_neg (by simp [h])).trans ?_)
    dsimp only
    cases hf : s.fabric.doorbells.find? (fun d => d.elem == elem.val && d.slot == slot.val) with
    | none => rfl
    | some d => simp only [hd d hf, Bool.false_eq_true, if_false]
  · exact doorbell_down _ _ (by simpa using h)

/-! ### The UTC clock (R37, R38, R277) -/

theorem utcSecond_off {s : State} (h : s.power.state = .off) : Ignores .utcSecond s :=
  congrArg Host.Outcome.next (if_pos h)

/-- A module that has not started counts the second alone. -/
theorem utcSecond_waiting {s : State} (h : s.power.state ≠ .off) (hr : sunRuns s = false) :
    exec .utcSecond s = .next { s with sun := { s.sun with utc := s.sun.utc + 1, utcMark := s.clockMs } } :=
  congrArg Host.Outcome.next ((if_neg h).trans (if_neg (ne_true_of_eq_false hr)))

/-- The slew that a second leaves: 10 ms less of it (R277). -/
def slewAfter (slew : Int) : Int := if 0 < slew then max 0 (slew - 10) else min 0 (slew + 10)

theorem slewAfter_towards_zero (slew : Int) :
    (10 ≤ slew → slewAfter slew = slew - 10) ∧ (slew ≤ -10 → slewAfter slew = slew + 10) ∧
      (slew = 0 → slewAfter slew = 0) := by
  unfold slewAfter
  split <;> omega

/-- While Sundial runs, the second also latches the pair of UTC and stamp (R38) and takes its part off the slew. -/
theorem utcSecond_running {s : State} (h : s.power.state ≠ .off) (hr : sunRuns s = true) :
    exec .utcSecond s = .next { s with
      sun := { s.sun with
        utc := s.sun.utc + 1, utcMark := s.clockMs, lastUtc := s.sun.pairUtc, lastStamp := s.sun.pairStamp
        pairUtc := if s.sun.utcValid then s.sun.utc + 1 else 0xFFFFFFFF, pairStamp := ⟨s.sun.cycle, s.sun.angle⟩ }
      bill := { s.bill with slew := slewAfter s.bill.slew } } := by
  have hpair : utcField (utcNow (setSun (fun x => { x with utc := x.utc + 1, utcMark := s.clockMs }) s)) =
      if s.sun.utcValid then s.sun.utc + 1 else 0xFFFFFFFF := by
    show utcField (if s.sun.utcValid then some (s.sun.utc + 1) else none) = _
    split <;> rfl
  rw [← hpair]
  exact congrArg Host.Outcome.next ((if_neg h).trans (if_pos hr))

theorem crystalTrim_running {s : State} (ppm : Int) (h : sunRuns s = true) :
    exec (.crystalTrim ppm) s = .next { s with sun := { s.sun with trim := ppm } } := congrArg Host.Outcome.next (if_pos h)

theorem crystalTrim_ignores {s : State} (ppm : Int) (h : sunRuns s = false) : Ignores (.crystalTrim ppm) s :=
  congrArg Host.Outcome.next (if_neg (ne_true_of_eq_false h))

/-! ### The statement -/

/-- Settles O16: the boundary by what Sundial's step does on the ended cycle, the other commands case by case. -/
theorem sundialCommands : Obligations.SundialCommands := by
  intro s m elem slot angle period ppm
  refine ⟨dialCycleBoundary_judged m, fun h hr => ?_, dialCycleBoundary_ignores m, doorbell_arm elem slot angle period,
    doorbell_wait elem slot, fun d hd => ⟨doorbell_due hd, fun hdue => ?_⟩, fun hd => ?_,
    fun h act => doorbell_down elem ⟨slot, act⟩ h, utcSecond_off, fun h hr => ⟨_, utcSecond_waiting h hr, rfl⟩,
    fun h hr => ⟨_, utcSecond_running h hr, rfl, slewAfter_towards_zero _⟩,
    fun h => ⟨_, crystalTrim_running ppm h, rfl⟩, crystalTrim_ignores ppm, ⟨_, rfl, rfl⟩⟩
  · obtain ⟨hcycle, hangle, -⟩ := sundialBoundary_sun m s
    exact ⟨_, dialCycleBoundary_recovery m h hr, hcycle, hangle,
      sundialBoundary_keeps (·.energy) (fun _ _ _ => rfl) (fun _ _ => rfl) (fun _ _ => rfl) (fun _ _ => rfl) m s,
      sundialBoundary_keeps (·.acq) (fun _ _ _ => rfl) (fun _ _ => rfl) (fun _ _ => rfl) (fun _ _ => rfl) m s⟩
  · exact doorbell_not_due fun d' hd' => Option.some.inj (hd.symm.trans hd') ▸ hdue
  · exact doorbell_not_due fun d' hd' => by simp [hd] at hd'

end Sys2Proof.Machine

/-! # The reads of metering, links, sessions, protection and switches (R89, R92, R130 to R132, R163, R200, R239, R259, R260)

What a list of field specifications accepts, the payloads that the statement spells otherwise than the model, and the
statement. -/

namespace Sys2Proof.Machine

/-! ### Actions beside the host link (R51, R52) -/

/-- A host request whose action does the same beside every host link: it answers, and the module is as the action leaves it. -/
theorem host_leads {op : OpSpec} {c : Instr} {r : Request} {s u : State} {act : State → State × Answer} {st : Nat}
    {pl : List Byte} (hc : exec c s = .next (hostRequest op r act s)) (hk : SameSender s u)
    (ha : ∀ x : HostLink, act (withHost x s) = (withHost x u, .now st pl)) :
    Admitted op r s → Completes c s (fun t => Answers s r op.code st pl t ∧ SameModule u t) :=
  host_answers hc fun x _ _ => ⟨withHost x u, ha x, hk, rfl⟩

/-! ### Fields of a payload (R47, R48) -/

theorem firstFail_cons_ok {body : List Byte} {f : FieldSpec} {l : List FieldSpec} (h : fieldStatus body f = St.ok) :
    firstFail body (f :: l) = firstFail body l := if_pos h

theorem fieldStatus_span {body : List Byte} {off n lo hi : Nat} (hlo : lo ≤ fieldN body off n) (hhi : fieldN body off n ≤ hi) :
    fieldStatus body (span off n lo hi) = St.ok := if_pos ⟨hlo, hhi⟩

/-- A number that may be 0 is accepted up to its limit. -/
theorem fieldStatus_cntZ {body : List Byte} {off n lo hi : Nat} (hlo : lo ≤ fieldN body off n) (hhi : fieldN body off n ≤ hi) :
    fieldStatus body (cntZ off n lo hi) = St.ok := by
  by_cases h : fieldN body off n = 0
  · exact if_pos h
  · exact (if_neg h).trans (if_pos ⟨hlo, hhi⟩)

theorem fieldStatus_rsv {body : List Byte} {off n : Nat} (h : fieldN body off n = 0) : fieldStatus body (rsv off n) = St.ok :=
  if_pos h

theorem guarded_one {st : Nat} {act : State → State × Answer} {s : State} (h : st = St.ok) : guarded [st] act s = act s :=
  guarded_pass (by simpa using h)

/-- The request of a register read is accepted (R130). -/
theorem registerRead_fields {p : List Byte} (hfirst : fieldN p 0 1 ≤ 52) (hcount : fieldN p 1 1 ≤ 53) (hres : fieldN p 2 2 = 0) :
    firstFail p [span 0 1 0 52, cntZ 1 1 0 53, rsv 2 2] = St.ok := by
  rw [firstFail_cons_ok (fieldStatus_span (Nat.zero_le _) hfirst), firstFail_cons_ok (fieldStatus_cntZ (Nat.zero_le _) hcount),
    firstFail_cons_ok (fieldStatus_rsv hres), firstFail]

/-! ### Payloads -/

theorem linkBytes_outlets (s : State) :
    outlets.flatMap (linkBytes s) = linkBytes s 0 ++ linkBytes s 1 ++ linkBytes s 2 ++ linkBytes s 3 := by
  simp [outlets]

/-- LINK_COUNTERS within its limits replies with the counters of its outlet (R163). -/
theorem execLinkCounters_act {p : List Byte} {o : Outlet} (s : State) (ho : fieldN p 0 1 = o.val) (hres : fieldN p 1 3 = 0) :
    guarded [need (fieldN p 0 1 < 4) St.range, reservedOk p 1 3]
        (fun s =>
          let c := (s.link.get (Fin.ofNat 4 (fieldN p 0 1))).counters
          reply ([c.runs, c.failures, c.tlsFails, c.timers, c.invalid, c.dropped].flatMap (leBytes 4)) s) s =
      let c := (s.link.get o).counters
      reply (leBytes 4 c.runs ++ leBytes 4 c.failures ++ leBytes 4 c.tlsFails ++ leBytes 4 c.timers ++ leBytes 4 c.invalid ++
        leBytes 4 c.dropped) s := by
  rw [guarded_pass (by simp [need_of, reservedOk_of, ho, hres])]
  simp [ho]

/-! ### The statement -/

/-- Settles O11: each read is a reply that the host link passes on; the register snapshot signs beside it. -/
theorem meterAndVehicleReads : Obligations.MeterAndVehicleReads := by
  refine ⟨fun s r => ⟨?_, fun hfirst hcount hres => ?_, ?_, ?_, ?_, ?_⟩, fun s r => ⟨?_, fun o ho hres => ?_, ?_, ?_, ?_, ?_⟩⟩
  · exact host_reads rfl fun x _ _ => rfl
  · exact host_reads rfl fun x _ _ => guarded_one (registerRead_fields hfirst hcount hres)
  · exact host_leads rfl (signed_sender s) fun x =>
      congrArg (reply (registerReply s 0 53 ++ wordBytes 64 (metrologySign s (registerReply s 0 53)))) (signed_withHost x s)
  · exact host_reads rfl fun x _ _ => rfl
  · exact host_reads rfl fun x _ _ => rfl
  · exact host_reads rfl fun x _ _ => rfl
  · exact host_leads (u := draw s) rfl (sameSender_of rfl rfl rfl) fun x =>
      congrArg (reply · (withHost x (draw s))) (linkBytes_outlets s)
  · exact host_reads rfl fun x _ _ => execLinkCounters_act _ ho hres
  · exact host_reads rfl fun x _ _ => rfl
  · exact host_reads rfl fun x _ _ => rfl
  · exact host_reads rfl fun x _ _ => rfl
  · exact host_leads (u := drawMany 40 s) rfl (sameSender_of rfl rfl rfl) fun x => rfl

end Sys2Proof.Machine

/-! # The commands of the acquisition (R75, R78 to R83, R89 to R91)

Samples by what one stream does to its channel, stuck runs, and the requests for a measurement and for a trial calibration. -/

namespace Sys2Proof.Machine

/-! ### Channels -/

/-- What each element of a list leaves, the whole list leaves. -/
theorem foldl_keeps {α β : Type} (g : State → α) (f : State → β → State) (h : ∀ t b, g (f t b) = g t) (l : List β)
    (s : State) : g (l.foldl f s) = g s :=
  List.foldlRecOn (motive := fun t => g t = g s) l f rfl fun t ht b _ => (h t b).trans ht

theorem setChan_setChan (c : Nat) (f g : ChanState → ChanState) (s : State) :
    setChan c g (setChan c f s) = setChan c (g ∘ f) s :=
  congrArg (fun l => { s with acq := { s.acq with chans := l } }) (List.modify_modify_eq f g c s.acq.chans)

theorem setChan_id (c : Nat) (s : State) : setChan c id s = s :=
  congrArg (fun l => { s with acq := { s.acq with chans := l } }) (List.modify_id c s.acq.chans)

/-- A change of a channel that leaves its trial leaves the calibration in force (R80, R91). -/
theorem calOfChan_setChan {f : ChanState → ChanState} (hf : ∀ x, (f x).trial = x.trial) (c : Nat) (s : State) :
    calOfChan (setChan c f s) c = calOfChan s c := by
  have htrial : (chanState (setChan c f s) c).trial = (chanState s c).trial := by
    simp only [chanState, setChan, setAcq_acq, modifyAt, List.getD_eq_getElem?_getD, List.getElem?_modify_eq]
    cases s.acq.chans[c]? with
    | none => rfl
    | some x => exact hf x
  unfold calOfChan
  rw [htrial]
  rfl

/-! ### What a sample leaves alone (R78 to R80, R83) -/

theorem takeProtect_keeps {α : Type} (g : State → α) (ha : ∀ f t, g (setAcq f t) = g t)
    (hh : ∀ o f t, g (setHedge o f t) = g t) (st : ChanStream) (s : State) : g (takeProtect st s) = g s := by
  unfold takeProtect
  dsimp only
  split
  · rfl
  · split
    · split
      · exact (hh _ _ _).trans (ha _ s)
      · exact ha _ s
    · exact ha _ s

theorem takeSample_keeps {α : Type} (g : State → α) (ha : ∀ f t, g (setAcq f t) = g t) (k tk : Nat) (st : ChanStream)
    (s : State) : g (takeSample k tk st s) = g s := by
  unfold takeSample
  dsimp only
  split
  · split
    · exact (ha _ _).trans (ha _ s)
    · exact ha _ s
  · rfl

theorem takeRaw_keeps {α : Type} (g : State → α) (ha : ∀ f t, g (setAcq f t) = g t) (k tk : Nat) (st : ChanStream)
    (s : State) : g (takeRaw k tk st s) = g s := by
  unfold takeRaw
  split
  · split
    · split
      · exact ha _ s
      · rfl
    · rfl
  · rfl

/-- The state in which every stream has given its protection samples at an angle. -/
def protectTaken (k : Fin 256) (streams : List ChanStream) (s : State) : State :=
  streams.foldl (fun u st => takeProtect st u) (reachAngle (k.val * 256) s)

/-- The state after a sample: in cover mode the odd angles carry the sample of the even angle before. -/
def sampled (k : Fin 256) (tk : Nat) (streams : List ChanStream) (s : State) : State :=
  if (protectTaken k streams s).acq.coverNow && k.val % 2 == 1 then protectTaken k streams s
  else streams.foldl (fun u st => takeSample k.val tk st (takeRaw k.val tk st u)) (protectTaken k streams s)

theorem exec_gridCoherentSample {s : State} (k : Fin 256) (tk : Nat) (streams : List ChanStream) (h : up s = true) :
    exec (.gridCoherentSample k tk streams) s = .next (sampled k tk streams s) := congrArg Host.Outcome.next (if_pos h)

theorem protectTaken_keeps {α : Type} (g : State → α) (ha : ∀ f t, g (setAcq f t) = g t)
    (hh : ∀ o f t, g (setHedge o f t) = g t) (k : Fin 256) (streams : List ChanStream) (s : State) :
    g (protectTaken k streams s) = g (reachAngle (k.val * 256) s) :=
  foldl_keeps g _ (fun t st => takeProtect_keeps g ha hh st t) _ _

/-- Beside what the dial changes, a sample acts on the acquisition and on Hedge alone. -/
theorem sampled_keeps {α : Type} (g : State → α) (ha : ∀ f t, g (setAcq f t) = g t)
    (hh : ∀ o f t, g (setHedge o f t) = g t) (k : Fin 256) (tk : Nat) (streams : List ChanStream) (s : State) :
    g (sampled k tk streams s) = g (reachAngle (k.val * 256) s) := by
  unfold sampled
  split
  · exact protectTaken_keeps g ha hh k streams s
  · exact (foldl_keeps g _ (fun t st => (takeSample_keeps g ha _ _ _ _).trans (takeRaw_keeps g ha _ _ _ t)) _ _).trans
      (protectTaken_keeps g ha hh k streams s)

/-- The state with everything left out that a sample may change. -/
def besideSample (t : State) : State :=
  { besideDial t with acq := State.reset.acq, hedge := State.reset.hedge }

theorem eq_of_besideSample {s t : State} (h : besideSample t = besideSample s) :
    t = { s with sun := t.sun, acq := t.acq, fabric := t.fabric, out := t.out, hedge := t.hedge } :=
  congrArg (fun u : State => { u with sun := t.sun, acq := t.acq, fabric := t.fabric, out := t.out, hedge := t.hedge }) h

/-- The fabric with the doorbells and the elements that wait for one left out. -/
def besideDoorbells (x : Fabric) : Fabric := { x with doorbells := [], waiting := 0 }

theorem eq_of_besideDoorbells {x y : Fabric} (h : besideDoorbells y = besideDoorbells x) :
    y = { x with doorbells := y.doorbells, waiting := y.waiting } :=
  congrArg (fun z : Fabric => { z with doorbells := y.doorbells, waiting := y.waiting }) h

theorem gridCoherentSample_frame {s : State} (k : Fin 256) (tk : Nat) (streams : List ChanStream) (h : up s = true) :
    Completes (.gridCoherentSample k tk streams) s (fun t =>
      t = { s with
        sun := { s.sun with angle := 256 * k.val, frac := 0 }, acq := t.acq, fabric := t.fabric, out := t.out, hedge := t.hedge } ∧
      t.fabric = { s.fabric with doorbells := t.fabric.doorbells, waiting := t.fabric.waiting }) := by
  refine ⟨_, exec_gridCoherentSample k tk streams h, ?_, eq_of_besideDoorbells ?_⟩
  · have hbeside : besideSample (sampled k tk streams s) = besideSample s :=
      (sampled_keeps besideSample (fun _ _ => rfl) (fun _ _ _ => rfl) k tk streams s).trans
        (reachAngle_keeps besideSample (fun _ _ => rfl) (fun _ _ => rfl) _ _)
    have hsun : (sampled k tk streams s).sun = { s.sun with angle := 256 * k.val, frac := 0 } := by
      rw [sampled_keeps (·.sun) (fun _ _ => rfl) (fun _ _ _ => rfl), reachAngle_sun, Nat.mul_comm]
    rw [← hsun]
    exact eq_of_besideSample hbeside
  · exact (sampled_keeps (fun t => besideDoorbells t.fabric) (fun _ _ => rfl) (fun _ _ _ => rfl) k tk streams s).trans
      (reachAngle_keeps (fun t => besideDoorbells t.fabric) (fun _ _ => rfl) (fun _ _ => rfl) _ _)

theorem gridCoherentSample_ignores {s : State} (k : Fin 256) (tk : Nat) (streams : List ChanStream) (h : up s = false) :
    Ignores (.gridCoherentSample k tk streams) s := congrArg Host.Outcome.next (if_neg (ne_true_of_eq_false h))

/-! ### The sample of one live channel (R74, R79 to R81) -/

theorem chanLive_congr {s t : State} (c : Nat) (ha : t.acq = s.acq) (hc : t.cfg = s.cfg) : chanLive t c = chanLive s c := by
  show chanLive { s with acq := t.acq, cfg := t.cfg } c = chanLive s c
  rw [ha, hc]

theorem chanOn_congr {s t : State} (c : Nat) (ha : t.acq = s.acq) (hc : t.cfg = s.cfg) : chanOn t c = chanOn s c := by
  show chanOn { s with acq := t.acq, cfg := t.cfg } c = chanOn s c
  rw [ha, hc]

theorem chanOn_of_live {s : State} {c : Nat} (h : chanLive s c = true) : chanOn s c = true := by
  simp only [chanLive, Bool.and_eq_true] at h
  obtain ⟨⟨⟨hon, -⟩, -⟩, -⟩ := h
  exact hon

/-- What a protection sample leaves in its channel: the latest code. AUX has no protection path (R74). -/
def afterProtect (st : ChanStream) (s : State) (x : ChanState) : ChanState :=
  { x with prot := if st.chan.val = 23 then x.prot else (protSamples s st.chan.val st.protect).getLast?.getD x.prot }

theorem afterProtect_congr {s t : State} (st : ChanStream) (h : t.acq = s.acq) : afterProtect st t = afterProtect st s := by
  show afterProtect st { s with acq := t.acq } = afterProtect st s
  rw [h]

/-- AUX, and a stream without protection codes, leave the channel's code. -/
theorem afterProtect_none {s : State} {st : ChanStream}
    (h : st.chan.val = 23 ∨ protSamples s st.chan.val st.protect = []) : afterProtect st s = id := by
  funext x
  rcases h with hc | hl
  · simp [afterProtect, hc]
  · simp [afterProtect, hl]

/-- The protection path of an enabled channel acts on that channel, beside what Hedge notes of a weld check. -/
theorem takeProtect_acq {s : State} {st : ChanStream} (h : chanOn s st.chan.val = true) :
    (takeProtect st s).acq = (setChan st.chan.val (afterProtect st s) s).acq := by
  by_cases hnone : st.chan.val = 23 ∨ protSamples s st.chan.val st.protect = []
  · have hskip : takeProtect st s = s := if_pos (hnone.imp_right .inr)
    rw [hskip, afterProtect_none hnone, setChan_id]
  · obtain ⟨hc, hl⟩ := not_or.mp hnone
    have hset : afterProtect st s =
        fun x => { x with prot := (protSamples s st.chan.val st.protect).getLast?.getD x.prot } :=
      funext fun x => by simp [afterProtect, hc]
    unfold takeProtect
    dsimp only
    rw [hset, if_neg (by simp [hc, hl, h])]
    split
    · split
      · rfl
      · rfl
    · rfl

/-- The corrected sample that a stream gives its channel. -/
def streamSample (tk : Nat) (st : ChanStream) (s : State) : Option Int :=
  sampleAt (inverted s st.chan.val) s.acq.mclkCode (calOfChan s st.chan.val) s.acq.t0 tk st

theorem streamSample_congr {s t : State} (tk : Nat) (st : ChanStream) (h : t.acq = s.acq) :
    streamSample tk st t = streamSample tk st s := by
  show streamSample tk st { s with acq := t.acq } = streamSample tk st s
  rw [h]

theorem streamSample_setChan {f : ChanState → ChanState} (hf : ∀ x, (f x).trial = x.trial) (tk : Nat) (st : ChanStream)
    (s : State) : streamSample tk st (setChan st.chan.val f s) = streamSample tk st s := by
  unfold streamSample
  rw [calOfChan_setChan hf]
  rfl

/-- What a metrology sample leaves in its channel: the sample, and the marks of the codes behind it (R81). -/
def afterSample (k : Nat) (y : Int) (st : ChanStream) (s : State) (x : ChanState) : ChanState :=
  { x with
    cur := x.cur ++ [⟨k, y, st.stuckSpan || s.acq.restartLeft != 0⟩]
    overrange := x.overrange || overrangeIn s st
    clip := x.clip || clipIn s st }

theorem afterSample_congr {s t : State} (k : Nat) (y : Int) (st : ChanStream) (h : t.acq = s.acq) :
    afterSample k y st t = afterSample k y st s := by
  show afterSample k y st { s with acq := t.acq } = afterSample k y st s
  rw [h]

/-- Outside cover mode, a stream that holds the codes adds one sample to its live channel. -/
theorem takeSample_live {s : State} {tk : Nat} {st : ChanStream} {y : Int} (k : Nat) (hlive : chanLive s st.chan.val = true)
    (hcover : s.acq.coverNow = false) (hy : streamSample tk st s = some y) :
    takeSample k tk st s = setChan st.chan.val (afterSample k y st s) s := by
  unfold streamSample at hy
  unfold takeSample
  simp only [hlive, hy, hcover, if_true, Bool.false_eq_true, if_false, setChan_setChan]
  rfl

theorem takeRaw_none {s : State} (k tk : Nat) (st : ChanStream) (h : s.acq.measure = none) : takeRaw k tk st s = s := by
  simp only [takeRaw, h]

theorem reachAngle_acq (angle : Nat) (s : State) : (reachAngle angle s).acq = s.acq :=
  reachAngle_keeps (·.acq) (fun _ _ => rfl) (fun _ _ => rfl) _ _

theorem reachAngle_cfg (angle : Nat) (s : State) : (reachAngle angle s).cfg = s.cfg :=
  reachAngle_keeps (·.cfg) (fun _ _ => rfl) (fun _ _ => rfl) _ _

theorem protectTaken_cfg (k : Fin 256) (streams : List ChanStream) (s : State) : (protectTaken k streams s).cfg = s.cfg :=
  (protectTaken_keeps (·.cfg) (fun _ _ => rfl) (fun _ _ _ => rfl) k streams s).trans (reachAngle_cfg _ _)

/-- The protection sample of one enabled stream acts on its channel as if the dial stood still. -/
theorem protectTaken_one_acq {s : State} {st : ChanStream} (k : Fin 256) (hon : chanOn s st.chan.val = true) :
    (protectTaken k [st] s).acq = (setChan st.chan.val (afterProtect st s) s).acq := by
  have hdial := reachAngle_acq (k.val * 256) s
  calc (protectTaken k [st] s).acq
      = (setChan st.chan.val (afterProtect st (reachAngle (k.val * 256) s)) (reachAngle (k.val * 256) s)).acq :=
        takeProtect_acq ((chanOn_congr _ hdial (reachAngle_cfg _ _)).trans hon)
    _ = (setChan st.chan.val (afterProtect st s) s).acq := by
        simp only [afterProtect_congr st hdial, setChan, setAcq_acq, hdial]

/-- One live stream: its protection sample, and on the state after that its metrology sample, which the first leaves alone. -/
theorem sampled_one_acq {s : State} {tk : Nat} {st : ChanStream} {y : Int} (k : Fin 256) (hcover : s.acq.coverNow = false)
    (hmeasure : s.acq.measure = none) (hlive : chanLive s st.chan.val = true) (hy : streamSample tk st s = some y) :
    (sampled k tk [st] s).acq =
      { s.acq with chans := modifyAt s.acq.chans st.chan.val (afterSample k.val y st s ∘ afterProtect st s) } := by
  have hacq := protectTaken_one_acq k (chanOn_of_live hlive)
  have hsample : takeSample k.val tk st (protectTaken k [st] s) =
      setChan st.chan.val (afterSample k.val y st (protectTaken k [st] s)) (protectTaken k [st] s) := by
    refine takeSample_live k.val ?_ ?_ ?_
    · exact (chanLive_congr _ hacq (protectTaken_cfg _ _ _)).trans hlive
    · rw [hacq]
      exact hcover
    · rw [streamSample_congr tk st hacq, streamSample_setChan (f := afterProtect st s) (fun _ => rfl), hy]
  have hstep : sampled k tk [st] s = takeSample k.val tk st (protectTaken k [st] s) := by
    unfold sampled
    rw [if_neg (by simp [hacq, setChan, hcover])]
    exact congrArg (takeSample k.val tk st) (takeRaw_none _ _ _ (by rw [hacq]; exact hmeasure))
  rw [hstep, hsample, setChan, setAcq_acq, hacq, afterSample_congr k.val y st hacq]
  exact congrArg (fun l => { s.acq with chans := l }) (List.modify_modify_eq _ _ _ _)

/-- GRID_COHERENT_SAMPLE of one live channel (R74, R79 to R81). -/
theorem gridCoherentSample_one {s : State} {tk : Nat} {st : ChanStream} {y : Int} (k : Fin 256) (h : up s = true)
    (hcover : s.acq.coverNow = false) (hmeasure : s.acq.measure = none) (hlive : chanLive s st.chan.val = true)
    (hy : streamSample tk st s = some y) :
    Completes (.gridCoherentSample k tk [st]) s (fun t => t.acq =
      { s.acq with chans := modifyAt s.acq.chans st.chan.val (afterSample k.val y st s ∘ afterProtect st s) }) :=
  ⟨_, exec_gridCoherentSample k tk [st] h, sampled_one_acq k hcover hmeasure hlive hy⟩

/-! ### Stuck runs (R75) -/

theorem acq_of_calm {s t : State} (h : calm t = calm s) : t.acq = s.acq := congrArg Calm.acq h

/-- The guard of STUCK_DETECTED lets a run of an enabled channel pass that is longer than the limit (R75, R88). -/
theorem stuckGuard_passes {s : State} {ch : Chan} {run : Nat} (h : up s = true) (hon : chanOn s ch.val = true)
    (hrun : stuckLimit s < run) : ¬ (!up s || !chanOn s ch.val || decide (run ≤ stuckLimit s)) = true := by
  simp [h, hon, hrun]

theorem stuckDetected_noted {s : State} {ch : Chan} {run : Nat} (h : up s = true) (hon : chanOn s ch.val = true)
    (hrun : stuckLimit s < run) (hout : chanOutlet ch.val = none) :
    Completes (.stuckDetected ch run) s (fun t => t = noteStuck ch.val s) := by
  refine ⟨noteStuck ch.val s, congrArg Host.Outcome.next ((if_neg (stuckGuard_passes h hon hrun)).trans ?_), rfl⟩
  simp only [hout]

/-- On a channel of an outlet, the trip and Scarecrow's cut leave the noted run as it is (R209, R221). -/
theorem stuckDetected_outlet {s : State} {ch : Chan} {run : Nat} (h : up s = true) (hon : chanOn s ch.val = true)
    (hrun : stuckLimit s < run) (hout : chanOutlet ch.val ≠ none) :
    CarriesOut (.stuckDetected ch run) s (fun t => t.acq = (noteStuck ch.val s).acq) := by
  obtain ⟨n, hn⟩ := Option.ne_none_iff_exists'.mp hout
  unfold CarriesOut
  rw [show exec (.stuckDetected ch run) s = execStuckDetected ch run s from rfl, execStuckDetected,
    if_neg (stuckGuard_passes h hon hrun), hn]
  exact ⟨_, rfl, acq_of_calm (by simp)⟩

theorem stuckDetected_ignores {s : State} {ch : Chan} {run : Nat}
    (h : up s = false ∨ chanOn s ch.val = false ∨ run ≤ stuckLimit s) : Ignores (.stuckDetected ch run) s :=
  congrArg Host.Outcome.next (if_pos (by simpa [or_assoc] using h))

/-! ### Requests that refuse or wait (R51, R52) -/

@[simp] theorem acq_withHost (x : HostLink) (s : State) : (withHost x s).acq = s.acq := rfl
@[simp] theorem chanOn_withHost (x : HostLink) (s : State) (c : Nat) : chanOn (withHost x s) c = chanOn s c := rfl
@[simp] theorem measuring_withHost (x : HostLink) (s : State) (c : Nat) : measuring (withHost x s) c = measuring s c := rfl
@[simp] theorem inService_withHost (x : HostLink) (s : State) : inService (withHost x s) = inService s := rfl
@[simp] theorem allIdle_withHost (x : HostLink) (s : State) : allIdle (withHost x s) = allIdle s := rfl
@[simp] theorem legalRoom_withHost (x : HostLink) (s : State) : legalRoom (withHost x s) = legalRoom s := rfl

theorem withHost_same (x : HostLink) (s : State) : SameModule s (withHost x s) := rfl

/-- A host request whose action refuses beside every host link: it answers with the status and leaves the module as it is. -/
theorem host_refuses {op : OpSpec} {c : Instr} {r : Request} {s : State} {act : State → State × Answer} {st : Nat}
    (hc : exec c s = .next (hostRequest op r act s)) (ha : ∀ x, act (withHost x s) = (withHost x s, .now st [])) :
    Admitted op r s → Completes c s (fun t => Answers s r op.code st [] t ∧ SameModule s t) :=
  host_leads hc (sameSender_of rfl rfl rfl) ha

theorem originOf_setOrigin (p : Port) (f : Origin → Origin) (s : State) : originOf (setOrigin p f s) p = f (originOf s p) := by
  cases p <;> rfl

theorem admitted_progress {code : Nat} (r : Request) (s : State) :
    (originOf (admitted code r s) r.port).progress = (originOf s r.port).progress := by
  unfold admitted
  dsimp only
  split
  · rw [originOf_transfer]
  · rw [originOf_setOrigin, acceptSeq, originOf_transfer]

/-- An admitted request whose opcode answers later is kept among those in progress (R52). -/
theorem host_later {op : OpSpec} {r : Request} {s u : State} {act : State → State × Answer} (h : Admitted op r s)
    (hcode : op.code ≠ 0x0101) (ha : ∀ x : HostLink, act (withHost x s) = (withHost x u, .later)) :
    hostRequest op r act s = setOrigin r.port (fun o => { o with progress := ⟨r.seq, r.cls, op.code, 0⟩ :: o.progress })
      (withHost (admitted op.code r s).host u) := by
  obtain ⟨hopen, hsrc, hmac, hfresh, hstatus, hcond⟩ := h
  have hstate : setOrigin r.port (acceptSeq r.seq) (present (spiTransfer r.port s)) = withHost (admitted op.code r s).host s :=
    (if_neg hcode).symm.trans (admitted_eq op.code r s)
  have hrun : runRequest op r act (withHost (admitted op.code r s).host s) = (withHost (admitted op.code r s).host u, .later) := by
    have hcond' : ¬ conditionRefuses (withHost (admitted op.code r s).host s) op.code = true := ne_true_of_eq_false hcond
    rw [runRequest, if_neg (not_not_intro hstatus), if_neg hcond', ha]
  simp only [hostRequest, acceptRequest, hopen, hsrc, hmac, hcode, hfresh.resolve_left hcode, hstate, hrun, Bool.and_self,
    Bool.not_true, Bool.false_eq_true, if_false]

/-! ### CHANNEL_MEASURE (R90) -/

/-- The measurement that a request starts. -/
def newMeasure (r : Request) : Measure :=
  { port := r.port, seq := r.seq, cls := r.cls, channel := fieldN r.payload 0 1, reference := fieldN r.payload 1 1
    mode := fieldN r.payload 2 1, wanted := fieldN r.payload 4 2, started := false, flags := 0, rawCur := [], cycles := [] }

theorem channelMeasure_starts {s : State} {r : Request} (hfields : firstFail r.payload measureFields = St.ok)
    (href : fieldN r.payload 0 1 ≠ fieldN r.payload 1 1) (hon : chanOn s (fieldN r.payload 0 1) = true)
    (hfree : s.acq.measure = none) (h : Admitted (opLen 0x0301 [clsN, clsB] 8) r s) :
    Completes (.channelMeasure r) s (fun t =>
      SameModule { s with acq := { s.acq with measure := some (newMeasure r) } } t ∧ t.out = s.out ∧
        (originOf t r.port).progress = ⟨r.seq, r.cls, 0x0301, 0⟩ :: (originOf s r.port).progress) := by
  refine ⟨_, congrArg Host.Outcome.next (host_later (u := setAcq (fun a => { a with measure := some (newMeasure r) }) s) h
      (by decide) fun x => guarded_pass (by simp [need, hfields, href, hon, hfree])),
    (withHost_same _ _).trans (setOrigin_same _ _ _), setOrigin_out _ _ _, ?_⟩
  rw [originOf_setOrigin]
  exact congrArg (List.cons _) (admitted_progress r s)

theorem channelMeasure_busy {s : State} {r : Request} (hfields : firstFail r.payload measureFields = St.ok)
    (href : fieldN r.payload 0 1 ≠ fieldN r.payload 1 1) (hon : chanOn s (fieldN r.payload 0 1) = true)
    (hbusy : s.acq.measure ≠ none) :
    Admitted (opLen 0x0301 [clsN, clsB] 8) r s →
      Completes (.channelMeasure r) s (fun t => Answers s r 0x0301 St.busy [] t ∧ SameModule s t) :=
  host_refuses rfl fun x => guarded_stop (by simp [need, hfields, href, hon, hbusy, St.ok, St.busy])

/-- The response to a measurement goes out with its values, and the measurement is over. -/
theorem channelMeasureComplete_sends {s : State} {m : Measure} (hm : s.acq.measure = some m) (hstart : m.started = true)
    (hdone : m.wanted ≤ m.cycles.length) :
    Completes .channelMeasureComplete s (fun t =>
      SameModule { s with acq := { s.acq with measure := none } } t ∧
        t.out.head? = some (.packet (packetOf s m.port m.cls 0x0301 m.seq 1 St.ok (measureReply s m)))) := by
  refine ⟨completeRequest m.port m.cls 0x0301 m.seq St.ok (measureReply s m)
    (draw (setAcq (fun a => { a with measure := none }) s)), congrArg Host.Outcome.next ?_, ?_, ?_⟩
  · simp only [hm, hstart, hdone, decide_true, Bool.and_self, if_true]
  · exact SameModule.trans (b := draw (setAcq (fun a => { a with measure := none }) s)) rfl
      (completeRequest_same _ _ _ _ _ _ _)
  · rw [completeRequest_out]
    exact congrArg (fun p => some (Out.packet p)) (packetOf_key (sameSender_of rfl rfl rfl) _ _ _ _ _ _ _)

theorem channelMeasureComplete_ignores {s : State} (h : s.acq.measure = none) : Ignores .channelMeasureComplete s :=
  congrArg Host.Outcome.next (by simp only [h])

/-! ### TRIAL_CALIBRATION (R91) -/

/-- The state in which a trial calibration waits for the next boundary and has entered the legal log. -/
def trialTaken (r : Request) (s : State) : State :=
  log (portOrigin r.port) 0x03 0x0302 r.payload true
    (setChan (fieldN r.payload 0 1) (fun x => { x with nextTrial := some (calOf r.payload), dropTrial := false }) s)

theorem trialTaken_withHost (x : HostLink) (r : Request) (s : State) :
    trialTaken r (withHost x s) = withHost x (trialTaken r s) :=
  log_withHost x _ _ _ _ _ (setChan (fieldN r.payload 0 1) _ s)

theorem trialTaken_sender (r : Request) (s : State) : SameSender s (trialTaken r s) :=
  sameSender_of (log_power ..) (log_cfg ..) (congrArg Cistern.hostKey (log_cis ..))

section
variable {s : State} {r : Request} (hfields : firstFail r.payload calFields = St.ok)
include hfields

theorem trialCalibration_taken (hservice : s.cis.lifecycle = 3) (hidle : allIdle s = true)
    (hfree : measuring s (fieldN r.payload 0 1) = false) (hroom : legalRoom s = true) :
    Admitted (opLen 0x0302 [clsN] 16) r s → Completes (.trialCalibration r) s (fun t =>
      Answers s r 0x0302 St.ok [] t ∧ SameModule (trialTaken r s) t) :=
  host_leads rfl (trialTaken_sender r s) fun x =>
    (guarded_pass (by simp [need, hfields, inService, hservice, hidle, hfree, hroom])).trans
      (congrArg done (trialTaken_withHost x r s))

theorem trialCalibration_refusedState (h : s.cis.lifecycle ≠ 3 ∨ allIdle s = false) :
    Admitted (opLen 0x0302 [clsN] 16) r s → Completes (.trialCalibration r) s (fun t =>
      Answers s r 0x0302 St.refusedState [] t ∧ SameModule s t) :=
  host_refuses rfl fun x => guarded_stop (by
    have hstate : (inService s && allIdle s) = false := by
      rcases h with hservice | hidle
      · simp [inService, hservice]
      · rw [hidle, Bool.and_false]
    simp [need, hfields, hstate, St.ok, St.refusedState])

theorem trialCalibration_noSpace (hservice : s.cis.lifecycle = 3) (hidle : allIdle s = true)
    (hfree : measuring s (fieldN r.payload 0 1) = false) (hroom : legalRoom s = false) :
    Admitted (opLen 0x0302 [clsN] 16) r s → Completes (.trialCalibration r) s (fun t =>
      Answers s r 0x0302 St.noSpace [] t ∧ SameModule s t) :=
  host_refuses rfl fun x => guarded_stop (by
    simp [need, hfields, inService, hservice, hidle, hfree, hroom, St.ok, St.noSpace])

end

/-! ### The statement -/

/-- Settles O20: a sample by what its streams do to their channels, the other commands case by case. -/
theorem acquisitionCommands : Obligations.AcquisitionCommands := by
  intro s r k tk run streams st ch
  refine ⟨gridCoherentSample_frame k tk streams, fun h hcover hmeasure hlive => ?_, gridCoherentSample_ignores k tk streams,
    stuckDetected_noted, stuckDetected_outlet, stuckDetected_ignores, channelMeasure_starts, channelMeasure_busy,
    fun m => channelMeasureComplete_sends, channelMeasureComplete_ignores, fun hfields => ⟨trialCalibration_taken hfields,
    trialCalibration_refusedState hfields, trialCalibration_noSpace hfields⟩⟩
  exact fun y hy => gridCoherentSample_one k h hcover hmeasure hlive hy

end Sys2Proof.Machine

/-! # Energy registers and the quadrants of reactive energy (R100, R102, R106, R108 to R113) -/

namespace Sys2Proof.Machine

/-! ### A register takes its window (R108, R113, R118) -/

theorem accFits_iff (a : Int) : accFits a = true ↔ -(2 ^ 79) ≤ a ∧ a < 2 ^ 79 := by
  simp only [accFits, Bool.and_eq_true, decide_eq_true_eq]

theorem takenInc_of_corrupt {x : Register} (w : RegWindow) (h : x.corrupt = true) : takenInc x w = none := by
  simp [takenInc, h]

theorem takenInc_of_noData (x : Register) {w : RegWindow} (h : w.status.getLsbD Reg.noData = true) : takenInc x w = none := by
  simp [takenInc, h]

theorem takenInc_of_sound {x : Register} {w : RegWindow} (hx : x.corrupt = false) (hw : w.status.getLsbD Reg.noData = false) :
    takenInc x w = w.inc := by
  simp [takenInc, hx, hw]

theorem stepRegister_acc (session : Bool) (w : RegWindow) (x : Register) :
    (stepRegister session w x).acc =
      if accFits (x.acc + (takenInc x w).getD 0) = true then x.acc + (takenInc x w).getD 0 else x.acc := rfl

theorem stepRegister_acc_of_none {w : RegWindow} {x : Register} (session : Bool) (h : takenInc x w = none) :
    (stepRegister session w x).acc = x.acc := by
  rw [stepRegister_acc, h]
  simp

/-- A register is CORRUPT after a window that found it so, or whose increment would carry it past its limits. -/
theorem stepRegister_corrupt {w : RegWindow} {x : Register} (session : Bool)
    (h : x.corrupt = true ∨ accFits (x.acc + (takenInc x w).getD 0) = false) : (stepRegister session w x).corrupt = true := by
  have hflag : (x.corrupt || !accFits (x.acc + (takenInc x w).getD 0)) = true := by
    rcases h with h | h <;> simp [h]
  have hbit : (withBit (0 : BitVec 16) Reg.corrupt).getLsbD Reg.corrupt = true := by decide
  simp only [Register.corrupt] at hflag ⊢
  simp only [stepRegister, Register.corrupt, hflag, if_true, BitVec.getLsbD_or, hbit, Bool.or_true, Bool.true_or]

theorem stepRegister_acc_limits (session : Bool) (w : RegWindow) {x : Register} (h : -(2 ^ 79) ≤ x.acc ∧ x.acc < 2 ^ 79) :
    -(2 ^ 79) ≤ (stepRegister session w x).acc ∧ (stepRegister session w x).acc < 2 ^ 79 := by
  rw [stepRegister_acc]
  split
  · next hfits => exact (accFits_iff _).mp hfits
  · exact h

/-- A sound register takes an increment that fits, and is flagged by one that does not (R113). -/
theorem stepRegister_sound {w : RegWindow} {x : Register} {inc : Int} (session : Bool) (hx : x.corrupt = false)
    (hw : w.status.getLsbD Reg.noData = false) (hinc : w.inc = some inc) :
    (-(2 ^ 79) ≤ x.acc + inc → x.acc + inc < 2 ^ 79 → (stepRegister session w x).acc = x.acc + inc) ∧
      ((x.acc + inc < -(2 ^ 79) ∨ 2 ^ 79 ≤ x.acc + inc) →
        (stepRegister session w x).acc = x.acc ∧ (stepRegister session w x).corrupt = true) := by
  have htaken : (takenInc x w).getD 0 = inc := by rw [takenInc_of_sound hx hw, hinc, Option.getD_some]
  refine ⟨fun hlo hhi => ?_, fun hout => ?_⟩
  · rw [stepRegister_acc, htaken, if_pos ((accFits_iff _).mpr ⟨hlo, hhi⟩)]
  · have hfits : accFits (x.acc + inc) = false := by
      rw [← Bool.not_eq_true, accFits_iff]
      omega
    refine ⟨?_, stepRegister_corrupt session (.inr (htaken ▸ hfits))⟩
    rw [stepRegister_acc, htaken, if_neg (ne_true_of_eq_false hfits)]

/-! ### Reactive energy by quadrant (R106) -/

/-- The quadrant by the signs of active energy and reactive power. -/
theorem quadrant_signs (ep q : Rat) :
    (0 ≤ ep → 0 ≤ q → quadrant ep q = 0) ∧ (ep < 0 → 0 ≤ q → quadrant ep q = 1) ∧
      (ep < 0 → q < 0 → quadrant ep q = 2) ∧ (0 ≤ ep → q < 0 → quadrant ep q = 3) := by
  refine ⟨fun he hq => ?_, fun he hq => ?_, fun he hq => ?_, fun he hq => ?_⟩
  · rw [quadrant, if_pos he, if_pos hq]
  · rw [quadrant, if_neg (Rat.not_le.mpr he), if_pos hq]
  · rw [quadrant, if_neg (Rat.not_le.mpr he), if_neg (Rat.not_le.mpr hq)]
  · rw [quadrant, if_pos he, if_neg (Rat.not_le.mpr hq)]

/-- Of four parts, one for each quadrant, an amount is in its own. -/
theorem getElem?_quadrants (q : Nat) (e : Int) (rest : List Int) {j : Nat} (hj : j < 4) :
    ((List.range 4).map (fun k => if k = q then e else 0) ++ rest)[j]? = some (if q = j then e else 0) := by
  rw [List.getElem?_append_left (by simpa using hj), List.getElem?_map, List.getElem?_range hj]
  simp only [Option.map_some, eq_comm]

/-- The third to sixth increments of a grid phase: all of the reactive energy in its quadrant, none in the others. -/
theorem gridIncrements_quadrant (ps : List WinPos) (v i : List Rat) {j : Nat} (hj : j < 4) :
    (gridIncrements ps v i)[2 + j]? =
      some (if quadrant (sumRat ((v.zipWith (· * ·) i).zipWith (fun x p => x * p.dt / (36 / 10)) ps)) (reactive ps v i) = j
        then units (max (reactive ps v i * (windowTime ps / (36 / 10))) (-(reactive ps v i * (windowTime ps / (36 / 10)))))
        else 0) := by
  rw [Nat.add_comm]
  exact getElem?_quadrants _ _ _ hj

/-! ### The statement -/

/-- Settles O18: a register by what it takes of its window, a grid phase by its list of increments. -/
theorem energyArithmetic : Obligations.EnergyArithmetic :=
  ⟨fun session w x _ => ⟨fun hx hw hinc => stepRegister_sound session hx hw hinc,
    fun hx => ⟨stepRegister_acc_of_none session (takenInc_of_corrupt w hx), stepRegister_corrupt session (.inl hx)⟩,
    fun hw => stepRegister_acc_of_none session (takenInc_of_noData x hw), stepRegister_acc_limits session w, rfl⟩,
    fun ps v i => ⟨rfl, rfl, fun _ hj => gridIncrements_quadrant ps v i hj⟩, quadrant_signs⟩

/-! ### Bidirectional transfer (R102) -/

/-- A register in absolute mode, of the six that count in and out, bars bidirectional transfer. -/
theorem bptOffered_of_absolute {s : State} {o : Outlet} {i : Nat} (hi : i ∈ [0, 1, 3, 4, 5, 7])
    (h : absolute s (8 * o.val + i) = true) : bptOffered s o = false := by
  have hall : [0, 1, 3, 4, 5, 7].all (fun (i : Nat) => !absolute s (8 * o.val + i)) = false :=
    List.all_eq_false.mpr ⟨i, hi, by simp [h]⟩
  rw [bptOffered, hall, Bool.false_and, Bool.false_and]

/-- Without an offer of bidirectional transfer, an outlet has the one service of its kind of current (R149). -/
theorem servicesOf_of_no_bpt {s : State} {o : Outlet} (p : Protocol) (h : bptOffered s o = false) :
    servicesOf s o p = if isDc s o.val = true then [.dc] else [.ac] := by
  simp [servicesOf, h]

/-- Settles O28: the absolute register bars the offer, and the services without it are DC or AC alone. -/
theorem absoluteRegistersBarBpt : Obligations.AbsoluteRegistersBarBpt := by
  intro s o p i hi h
  rw [servicesOf_of_no_bpt p (bptOffered_of_absolute hi h)]
  split <;> simp

end Sys2Proof.Machine

/-! # The commits of the energy area (R114, R115, R119)

Which slot is the newest complete one, what a window leaves alone until its commit is written, and the statement. -/

namespace Sys2Proof.Machine

/-! ### The newest complete slot (R5, R114) -/

theorem later_succ (n : U32) : later (n + 1#32) n = true := by
  have hdiff : (n + 1#32 - n).toNat = 1 := by bv_omega
  simp only [later, hdiff]
  decide

theorem not_later_succ (n : U32) : later n (n + 1#32) = false := by
  have hdiff : (n - (n + 1#32)).toNat = 2 ^ 32 - 1 := by bv_omega
  simp only [later, hdiff]
  decide

theorem newestCommit_congr {s t : State} (h0 : t.energy.slot0 = s.energy.slot0) (h1 : t.energy.slot1 = s.energy.slot1) :
    newestCommit t = newestCommit s := by
  simp only [newestCommit, newestSlot, h0, h1]

theorem slot0_of_newestSlot {s : State} (h : newestSlot s = some false) :
    s.energy.slot0.complete = true ∧ newestCommit s = some s.energy.slot0 := by
  refine ⟨?_, by simp [newestCommit, h]⟩
  cases h0 : s.energy.slot0.complete <;> cases h1 : s.energy.slot1.complete <;> simp [newestSlot, h0, h1] at h ⊢

theorem slot1_of_newestSlot {s : State} (h : newestSlot s = some true) :
    s.energy.slot1.complete = true ∧ newestCommit s = some s.energy.slot1 := by
  refine ⟨?_, by simp [newestCommit, h]⟩
  cases h0 : s.energy.slot0.complete <;> cases h1 : s.energy.slot1.complete <;> simp [newestSlot, h0, h1] at h ⊢

theorem no_slot_of_newestSlot {s : State} (h : newestSlot s = none) :
    s.energy.slot1.complete = false := by
  cases h0 : s.energy.slot0.complete <;> cases h1 : s.energy.slot1.complete <;> simp [newestSlot, h0, h1] at h ⊢

/-- The slot that a commit writes. -/
def nextCommit (partialKind : Bool) (angle : Nat) (s : State) : CommitSlot :=
  { number := (newestCommit s).elim 1 (fun x => x.number + 1), stamp := ⟨s.sun.cycle, angle⟩, epoch := s.sun.epoch
    utc := utcNow s, partialKind, part0 := true, part1 := true, regs := s.energy.regs.map slotRegister
    pulses := s.energy.pulses.mapIdx (committedPulse s) }

theorem writeCommit_slot1 {s : State} (partialKind : Bool) (angle : Nat) (h : newestSlot s = some false) :
    writeCommit partialKind angle s = setEnergy (fun e => { e with slot1 := nextCommit partialKind angle s }) s := if_pos h

theorem writeCommit_slot0 {s : State} (partialKind : Bool) (angle : Nat) (h : newestSlot s ≠ some false) :
    writeCommit partialKind angle s = setEnergy (fun e => { e with slot0 := nextCommit partialKind angle s }) s := if_neg h

theorem writeCommit_regs (partialKind : Bool) (angle : Nat) (s : State) :
    (writeCommit partialKind angle s).energy.regs = s.energy.regs := by
  by_cases h : newestSlot s = some false
  · rw [writeCommit_slot1 _ _ h]
    rfl
  · rw [writeCommit_slot0 _ _ h]
    rfl

theorem nextCommit_complete (partialKind : Bool) (angle : Nat) (s : State) : (nextCommit partialKind angle s).complete = true := rfl

theorem nextCommit_number {s : State} {x : CommitSlot} (partialKind : Bool) (angle : Nat) (h : newestCommit s = some x) :
    (nextCommit partialKind angle s).number = x.number + 1 := by
  simp [nextCommit, h]

/-- The commit that is written is the newest complete one: its number follows the other slot's, or the other slot is not
complete. -/
theorem newestCommit_writeCommit (partialKind : Bool) (angle : Nat) (s : State) :
    newestCommit (writeCommit partialKind angle s) = some (nextCommit partialKind angle s) := by
  match h : newestSlot s with
  | some false =>
    obtain ⟨hcomplete, hnewest⟩ := slot0_of_newestSlot h
    rw [writeCommit_slot1 _ _ h]
    simp [newestCommit, newestSlot, hcomplete, nextCommit_complete, nextCommit_number _ _ hnewest, later_succ]
  | some true =>
    obtain ⟨hcomplete, hnewest⟩ := slot1_of_newestSlot h
    rw [writeCommit_slot0 _ _ (by simp [h])]
    simp [newestCommit, newestSlot, hcomplete, nextCommit_complete, nextCommit_number _ _ hnewest, not_later_succ]
  | none =>
    rw [writeCommit_slot0 _ _ (by simp [h])]
    simp [newestCommit, newestSlot, no_slot_of_newestSlot h, nextCommit_complete]

/-! ### What a window leaves alone until its commit is written -/

/-- The commit slots, the state of the marker, and the dial. -/
def slotsAndDial (s : State) : CommitSlot × CommitSlot × Nat × Sundial :=
  (s.energy.slot0, s.energy.slot1, s.energy.markState, s.sun)

theorem newestCommit_of_slotsAndDial {s t : State} (h : slotsAndDial t = slotsAndDial s) : newestCommit t = newestCommit s :=
  newestCommit_congr (congrArg (·.1) h) (congrArg (·.2.1) h)

theorem markState_of_slotsAndDial {s t : State} (h : slotsAndDial t = slotsAndDial s) :
    t.energy.markState = s.energy.markState := congrArg (·.2.2.1) h

theorem sun_of_slotsAndDial {s t : State} (h : slotsAndDial t = slotsAndDial s) : t.sun = s.sun := congrArg (·.2.2.2) h

@[simp] theorem slotsAndDial_log (origin sub code : Nat) (detail : List Byte) (legal : Bool) (s : State) :
    slotsAndDial (log origin sub code detail legal s) = slotsAndDial s := by
  simp [slotsAndDial]

@[simp] theorem slotsAndDial_putReg (m : Nat) (x : Register) (s : State) : slotsAndDial (putReg m x s) = slotsAndDial s := rfl

theorem slotsAndDial_residueStep (e : Nat) (r : ResidueOutcome) (s : State) :
    slotsAndDial (residueStep e r s) = slotsAndDial s := by
  cases r with
  | pass => rfl
  | corrected => exact slotsAndDial_log ..
  | failed =>
    by_cases h : (if e = 0 then s.acq.held0 else s.acq.held1) = true
    · exact congrArg slotsAndDial (if_pos h)
    · exact (congrArg slotsAndDial (if_neg h)).trans (slotsAndDial_log ..)
  | unreadable => exact (slotsAndDial_log ..).trans (slotsAndDial_log ..)

theorem slotsAndDial_markCorrupt (m : Nat) (s : State) : slotsAndDial (markCorrupt m s) = slotsAndDial s := by
  unfold markCorrupt
  dsimp only
  split
  · rfl
  · exact slotsAndDial_log ..

theorem slotsAndDial_logRun (m : Nat) (w : RegWindow) (old new : Register) (s : State) :
    slotsAndDial (logRun m w old new s) = slotsAndDial s := by
  unfold logRun
  split
  · exact slotsAndDial_log ..
  · split
    · exact slotsAndDial_log ..
    · rfl

theorem slotsAndDial_commitRegister (s : State) (x : Nat × RegWindow) : slotsAndDial (commitRegister s x) = slotsAndDial s := by
  have hcorrupt (c : Bool) (m : Nat) (y : Register) (t : State) :
      slotsAndDial (if c then logCorrupt m y t else t) = slotsAndDial t := by
    cases c
    · rfl
    · exact slotsAndDial_log 0 0x04 0x0403 _ true t
  have hchanged (c : Prop) [Decidable c] (t : State) :
      slotsAndDial (if c then t else setEnergy (fun e => { e with changed := true }) t) = slotsAndDial t := by
    split <;> rfl
  unfold commitRegister
  rw [slotsAndDial_logRun, hchanged, hcorrupt, slotsAndDial_putReg]

theorem slotsAndDial_applyRestores (s : State) : slotsAndDial (applyRestores s) = slotsAndDial s :=
  foldl_keeps slotsAndDial (fun u (x : Nat × Int) => putReg x.1 { regAt u x.1 with
    acc := x.2 * 16777216, residue := residueOf (x.2 * 16777216), window := withoutBit (regAt u x.1).window Reg.corrupt
    sticky := withoutBit (regAt u x.1).sticky Reg.corrupt } u) (fun _ _ => rfl) s.energy.restore s

/-! ### A window is committed -/

/-- The state in which the residue checks of a window have taken effect and its unreadable registers are CORRUPT. -/
def windowJudged (w : WindowInput) (s : State) : State :=
  w.badRegs.foldl (fun u m => markCorrupt m u) (residueStep 1 w.met1 (residueStep 0 w.met0 s))

theorem slotsAndDial_windowJudged (w : WindowInput) (s : State) : slotsAndDial (windowJudged w s) = slotsAndDial s :=
  calc slotsAndDial (windowJudged w s)
      = slotsAndDial (residueStep 1 w.met1 (residueStep 0 w.met0 s)) :=
        foldl_keeps slotsAndDial _ (fun t m => slotsAndDial_markCorrupt m t) _ _
    _ = slotsAndDial (residueStep 0 w.met0 s) := slotsAndDial_residueStep ..
    _ = slotsAndDial s := slotsAndDial_residueStep ..

/-- The state whose registers a commit holds: each has taken its part of the window, and a regular commit has taken in the
restores that waited. -/
def windowTaken (partialKind : Bool) (ps : List WinPos) (w : WindowInput) (t : State) : State :=
  let parts := (allWindows ps (winBase partialKind ps t) t).zipIdx.map (fun x => (x.2, engineWindow t w x.2 x.1))
  let u := parts.foldl commitRegister t
  let u := commitPulses ((List.range 53).map (fun m => (regAt u m).acc - (regAt t m).acc)) u
  if partialKind then u else applyRestores u

theorem slotsAndDial_windowTaken (partialKind : Bool) (ps : List WinPos) (w : WindowInput) (t : State) :
    slotsAndDial (windowTaken partialKind ps w t) = slotsAndDial t := by
  have htaken (l : List (Nat × RegWindow)) (incs : List Int) :
      slotsAndDial (commitPulses incs (l.foldl commitRegister t)) = slotsAndDial t :=
    foldl_keeps slotsAndDial _ slotsAndDial_commitRegister l t
  unfold windowTaken
  dsimp only
  split
  · exact htaken _ _
  · exact (slotsAndDial_applyRestores _).trans (htaken _ _)

/-- A window is lost while both engines are out, or when it holds no sample; otherwise its commit is written (R115). -/
theorem commitWindow_cases (partialKind : Bool) (angle : Nat) (ps : List WinPos) (w : WindowInput) (s : State) :
    commitWindow partialKind angle ps w s = (windowJudged w s, none) ∨
      metrologyLost (windowJudged w s) = false ∧ ∃ changes, commitWindow partialKind angle ps w s =
        (setEnergy (fun e => { e with values := windowValues ps (windowJudged w s), nextLost := false })
          (writeCommit partialKind angle (windowTaken partialKind ps w (windowJudged w s))), some changes) := by
  by_cases h : (metrologyLost (windowJudged w s) || ps.isEmpty) = true
  · exact .inl (if_pos h)
  · obtain ⟨hlost, -⟩ := Bool.or_eq_false_iff.mp (Bool.eq_false_iff.mpr h)
    exact .inr ⟨hlost, _, if_neg h⟩

/-- A commit that began in one state stands in the other as the newest complete one, and holds the registers of that state. -/
def CommitStands (s : State) (partialKind : Bool) (angle : Nat) (t : State) : Prop :=
  ∃ c : CommitSlot, newestCommit t = some c ∧ c.number = (newestCommit s).elim 1 (fun x => x.number + 1) ∧
    c.stamp = ⟨s.sun.cycle, angle⟩ ∧ c.partialKind = partialKind ∧ c.regs = t.energy.regs.map slotRegister

theorem CommitStands.congr {s t u : State} {partialKind : Bool} {angle : Nat} (h : CommitStands s partialKind angle t)
    (h0 : u.energy.slot0 = t.energy.slot0) (h1 : u.energy.slot1 = t.energy.slot1) (hr : u.energy.regs = t.energy.regs) :
    CommitStands s partialKind angle u := by
  unfold CommitStands
  rw [newestCommit_congr h0 h1, hr]
  exact h

theorem commitStands_writeCommit {s u : State} (partialKind : Bool) (angle : Nat) (h : slotsAndDial u = slotsAndDial s) :
    CommitStands s partialKind angle (writeCommit partialKind angle u) :=
  ⟨nextCommit partialKind angle u, newestCommit_writeCommit _ _ _, by rw [← newestCommit_of_slotsAndDial h]; rfl,
    by rw [← sun_of_slotsAndDial h]; rfl, rfl, by rw [writeCommit_regs]; rfl⟩

theorem commitWindow_written {partialKind : Bool} {angle : Nat} {ps : List WinPos} {w : WindowInput} {s : State}
    {changes : List Int} (h : (commitWindow partialKind angle ps w s).2 = some changes) :
    CommitStands s partialKind angle (commitWindow partialKind angle ps w s).1 := by
  rcases commitWindow_cases partialKind angle ps w s with hlost | ⟨-, _, hwritten⟩
  · simp [hlost] at h
  · rw [hwritten]
    exact (commitStands_writeCommit partialKind angle
      ((slotsAndDial_windowTaken ..).trans (slotsAndDial_windowJudged w s))).congr rfl rfl rfl

/-! ### Both engines are held (R83, R115) -/

theorem residueStep_held {s : State} (e : Nat) (r : ResidueOutcome) (h0 : s.acq.held0 = true) (h1 : s.acq.held1 = true) :
    (residueStep e r s).acq = s.acq := by
  cases r with
  | pass => rfl
  | corrected => exact log_acq ..
  | failed => exact congrArg State.acq (if_pos (by rw [h0, h1, ite_self]))
  | unreadable => exact (log_acq ..).trans (log_acq ..)

theorem markCorrupt_acq (m : Nat) (s : State) : (markCorrupt m s).acq = s.acq := by
  unfold markCorrupt
  dsimp only
  split
  · rfl
  · exact log_acq ..

theorem windowJudged_held (w : WindowInput) {s : State} (h0 : s.acq.held0 = true) (h1 : s.acq.held1 = true) :
    (windowJudged w s).acq = s.acq := by
  have hmet0 := residueStep_held 0 w.met0 h0 h1
  calc (windowJudged w s).acq
      = (residueStep 1 w.met1 (residueStep 0 w.met0 s)).acq :=
        foldl_keeps (·.acq) _ (fun t m => markCorrupt_acq m t) _ _
    _ = (residueStep 0 w.met0 s).acq := residueStep_held _ _ (by rwa [hmet0]) (by rwa [hmet0])
    _ = s.acq := hmet0

/-- With both engines held, no commit is written, and the slots and the marker stay. -/
theorem commitWindow_held {s : State} (partialKind : Bool) (angle : Nat) (ps : List WinPos) (w : WindowInput)
    (h0 : s.acq.held0 = true) (h1 : s.acq.held1 = true) :
    (commitWindow partialKind angle ps w s).2 = none ∧
      slotsAndDial (commitWindow partialKind angle ps w s).1 = slotsAndDial s := by
  have hlost : metrologyLost (windowJudged w s) = true := by
    simp [metrologyLost, metOut, windowJudged_held w h0 h1, h0, h1]
  rcases commitWindow_cases partialKind angle ps w s with h | ⟨hmet, -⟩
  · rw [h]
    exact ⟨rfl, slotsAndDial_windowJudged w s⟩
  · simp [hlost] at hmet

/-! ### The regular and the partial commit (R115, R119, R129) -/

/-- A new image changes the records of the path and releases outputs that it disables; the rest of the energy state stays. -/
theorem reloadEnergy_energy (s : State) :
    (reloadEnergy s).energy = { s.energy with
      recs := (reloadEnergy s).energy.recs, reload := (reloadEnergy s).energy.reload
      pulses := (reloadEnergy s).energy.pulses } := by
  unfold reloadEnergy
  split
  · dsimp only
    rw [foldl_keeps (·.energy) _ (fun _ _ => log_energy ..)]
    rfl
  · rfl

theorem CommitStands.reload {s t : State} {partialKind : Bool} {angle : Nat} (h : CommitStands s partialKind angle t) :
    CommitStands s partialKind angle (reloadEnergy t) :=
  h.congr (by rw [reloadEnergy_energy]) (by rw [reloadEnergy_energy]) (by rw [reloadEnergy_energy])

theorem newestCommit_reloadEnergy (s : State) : newestCommit (reloadEnergy s) = newestCommit s :=
  newestCommit_congr (by rw [reloadEnergy_energy]) (by rw [reloadEnergy_energy])

theorem reloadEnergy_markState (s : State) : (reloadEnergy s).energy.markState = s.energy.markState := by
  rw [reloadEnergy_energy]

/-- What a regular commit leaves to the next window, from the state and the changes that the commit of its window made. -/
def afterRegular (before : State) (x : State × Option (List Int)) : State :=
  startWindowAt 128 (setEnergy (fun e => { e with
    nextPartial := if x.2.isSome then false else e.nextPartial
    pulsesHeld := e.pulsesHeld && x.2.isNone
    markState := if before.energy.pulsesHeld && x.2.isSome then 0 else e.markState }) x.1)

/-- What the partial commit leaves, likewise. -/
def afterPartial (last : Nat) (x : State × Option (List Int)) : State :=
  startWindowAt (last + 1) (setEnergy (fun e => { e with
    nextPartial := true, tail := false, markState := if x.2.isSome then 2 else e.markState }) x.1)

/-- The angle of a partial commit: that of the sample after the last, or where a regular commit would stand. -/
def partialAngle (last : Nat) : Nat := if last = 127 then 32768 else last * 256

theorem energyRegular_eq (w : WindowInput) (s : State) :
    energyRegular w s = (reloadEnergy (afterRegular s (commitWindow false 32768 (regularWindow w s) w s)),
      (commitWindow false 32768 (regularWindow w s) w s).2) := by
  unfold energyRegular
  generalize commitWindow false 32768 (regularWindow w s) w s = x
  rfl

theorem energyPartial_eq (w : WindowInput) (last : Nat) (s : State) :
    energyPartial w last s = (reloadEnergy (afterPartial last (commitWindow true (partialAngle last) (openWindow w last s) w s)),
      (commitWindow true (partialAngle last) (openWindow w last s) w s).2) := by
  unfold energyPartial
  rw [← partialAngle]
  generalize commitWindow true (partialAngle last) (openWindow w last s) w s = x
  rfl

theorem CommitStands.afterRegular {s : State} {partialKind : Bool} {angle : Nat} {x : State × Option (List Int)}
    (h : CommitStands s partialKind angle x.1) : CommitStands s partialKind angle (afterRegular s x) := h.congr rfl rfl rfl

theorem CommitStands.afterPartial {s : State} {partialKind : Bool} {angle : Nat} {x : State × Option (List Int)} (last : Nat)
    (h : CommitStands s partialKind angle x.1) : CommitStands s partialKind angle (afterPartial last x) := h.congr rfl rfl rfl

theorem newestCommit_afterRegular (s : State) (x : State × Option (List Int)) :
    newestCommit (afterRegular s x) = newestCommit x.1 := rfl

theorem newestCommit_afterPartial (last : Nat) (x : State × Option (List Int)) :
    newestCommit (afterPartial last x) = newestCommit x.1 := rfl

theorem afterPartial_markState (last : Nat) (x : State × Option (List Int)) :
    (afterPartial last x).energy.markState = if x.2.isSome then 2 else x.1.energy.markState := rfl

theorem energyRegular_written {w : WindowInput} {s : State} {changes : List Int} (h : (energyRegular w s).2 = some changes) :
    CommitStands s false 32768 (energyRegular w s).1 := by
  rw [energyRegular_eq] at h ⊢
  exact (commitWindow_written h).afterRegular.reload

theorem energyPartial_written {w : WindowInput} {last : Nat} {s : State} {changes : List Int}
    (h : (energyPartial w last s).2 = some changes) :
    CommitStands s true (partialAngle last) (energyPartial w last s).1 ∧ (energyPartial w last s).1.energy.markState = 2 := by
  rw [energyPartial_eq] at h ⊢
  exact ⟨((commitWindow_written h).afterPartial last).reload,
    by rw [reloadEnergy_markState, afterPartial_markState, if_pos (Option.isSome_of_eq_some h)]⟩

theorem energyRegular_held (w : WindowInput) {s : State} (h0 : s.acq.held0 = true) (h1 : s.acq.held1 = true) :
    newestCommit (energyRegular w s).1 = newestCommit s := by
  obtain ⟨-, hkeeps⟩ := commitWindow_held false 32768 (regularWindow w s) w h0 h1
  rw [energyRegular_eq, newestCommit_reloadEnergy, newestCommit_afterRegular, newestCommit_of_slotsAndDial hkeeps]

theorem energyPartial_held (w : WindowInput) (last : Nat) {s : State} (h0 : s.acq.held0 = true) (h1 : s.acq.held1 = true) :
    newestCommit (energyPartial w last s).1 = newestCommit s ∧
      (energyPartial w last s).1.energy.markState = s.energy.markState := by
  obtain ⟨hnone, hkeeps⟩ := commitWindow_held true (partialAngle last) (openWindow w last s) w h0 h1
  rw [energyPartial_eq, newestCommit_reloadEnergy, newestCommit_afterPartial, newestCommit_of_slotsAndDial hkeeps,
    reloadEnergy_markState, afterPartial_markState, hnone, ← markState_of_slotsAndDial hkeeps]
  exact ⟨rfl, rfl⟩

/-! ### The statement -/

/-- Settles O19: a commit that is written stands as the newest, and a window of held engines is lost. -/
theorem commitWritten : Obligations.CommitWritten := by
  intro w last s
  refine ⟨fun t changes h => ?_, fun t changes h => ?_, fun h0 h1 =>
    ⟨energyRegular_held w h0 h1, energyPartial_held w last.val h0 h1⟩⟩
  · obtain ⟨rfl, hchanges⟩ := Prod.ext_iff.mp h
    exact energyRegular_written hchanges
  · obtain ⟨rfl, hchanges⟩ := Prod.ext_iff.mp h
    obtain ⟨⟨c, hnewest, hnumber, hstamp, hkind, hregs⟩, hmark⟩ := energyPartial_written hchanges
    exact ⟨c, hnewest, hnumber, by rw [hstamp, partialAngle, Nat.mul_comm], hkind, hregs, hmark⟩

end Sys2Proof.Machine

/-! # The commands of metering (R104, R115, R117, R119, R123, R133) -/

namespace Sys2Proof.Machine

/-! ### Commits (R115, R119) -/

theorem commits_iff (s : State) :
    commits s = true ↔ up s = true ∧ (s.power.state ≠ .hold ∨ s.energy.tail = true) := by
  simp [commits]

theorem regularCommit_of_none {w : WindowInput} {s u : State} (h : energyRegular w s = (u, none)) : regularCommit w s = u := by
  rw [regularCommit, h]

theorem partialCommit_eq (w : WindowInput) (last : Fin 256) (s : State) :
    partialCommit w last s =
      (energyPartial w last.val s).2.elim (energyPartial w last.val s).1
        (fun changes => writeLane (billWindow true changes (energyPartial w last.val s).1)) := by
  unfold partialCommit
  rcases energyPartial w last.val s with ⟨t, _ | changes⟩ <;> rfl

theorem energyCommit_commits {s : State} (w : WindowInput) (h : up s = true)
    (htail : s.power.state ≠ .hold ∨ s.energy.tail = true) :
    Completes (.energyCommit w) s (fun t => t = regularCommit w (reachAngle 32768 s) ∧
      ∀ u, energyRegular w (reachAngle 32768 s) = (u, none) → t = u) :=
  ⟨_, congrArg Host.Outcome.next (if_pos ((commits_iff s).mpr ⟨h, htail⟩)), rfl, fun _ => regularCommit_of_none⟩

theorem energyCommit_ignores {s : State} (w : WindowInput)
    (h : up s = false ∨ (s.power.state = .hold ∧ s.energy.tail = false)) : Ignores (.energyCommit w) s := by
  refine congrArg Host.Outcome.next (if_neg fun hc => ?_)
  obtain ⟨hup, htail⟩ := (commits_iff s).mp hc
  rcases h with h | ⟨hhold, h⟩
  · simp [h] at hup
  · simp [h, hhold] at htail

theorem partialCommit_commits {s : State} (w : WindowInput) (last : Fin 256) (h : up s = true)
    (hhold : s.power.state = .hold) (htail : s.energy.tail = true) :
    Completes (.partialCommit w last) s (fun t =>
      t = (energyPartial w last.val (dialAtLeast (256 * last.val) s)).2.elim
        (energyPartial w last.val (dialAtLeast (256 * last.val) s)).1
        (fun changes => writeLane (billWindow true changes (energyPartial w last.val (dialAtLeast (256 * last.val) s)).1))) := by
  refine ⟨partialCommit w last (dialAtLeast (256 * last.val) s), ?_, partialCommit_eq w last _⟩
  rw [Nat.mul_comm]
  exact congrArg Host.Outcome.next (if_pos (by simp [h, hhold, htail]))

theorem partialCommit_ignores {s : State} (w : WindowInput) (last : Fin 256)
    (h : up s = false ∨ s.power.state ≠ .hold ∨ s.energy.tail = false) : Ignores (.partialCommit w last) s := by
  refine congrArg Host.Outcome.next (if_neg fun hc => ?_)
  obtain ⟨⟨hup, hhold⟩, htail⟩ : (up s = true ∧ s.power.state = .hold) ∧ s.energy.tail = true := by simpa using hc
  rcases h with h | h | h
  · simp [h] at hup
  · exact h hhold
  · simp [h] at htail

/-! ### Coolant (R104) -/

theorem coolantTemperatureTimeout_falls_back (s : State) (o : Outlet) :
    Completes (.coolantTemperatureTimeout o) s (fun t =>
      t = { s with energy := { s.energy with coolant := t.energy.coolant } } ∧ t.energy.coolant.get o = none ∧
        ∀ p, p ≠ o → t.energy.coolant.get p = s.energy.coolant.get p) :=
  ⟨setEnergy (fun e => { e with coolant := e.coolant.set o none }) s, rfl, rfl, PerOutlet.get_set_same _ _ _,
    fun _ hp => PerOutlet.get_set_other _ _ _ _ hp⟩

/-! ### Pulses (R123, R125) -/

theorem pulseEmit_conducts {s : State} {m : Fin 8} (h : up s = true) (hheld : s.energy.pulsesHeld = false)
    (hout : engineOut s (regOfMet1 (pulseReg s m.val)) = false) (hconst : pulseConst s m.val ≠ 0)
    (howed : 0 < (s.energy.pulses.getD m.val .init).backlog)
    (hpin : (s.energy.pulses.getD m.val .init).conducting = false) :
    Completes (.pulseEmit m) s (fun t => t = setPulse m.val (fun p => { p with conducting := true }) s) :=
  ⟨_, congrArg Host.Outcome.next (if_pos ⟨h, hheld, hout, hconst, howed, hpin⟩), rfl⟩

theorem pulseEmit_ignores {s : State} {m : Fin 8}
    (h : up s = false ∨ s.energy.pulsesHeld = true ∨ engineOut s (regOfMet1 (pulseReg s m.val)) = true ∨
      pulseConst s m.val = 0 ∨ (s.energy.pulses.getD m.val .init).backlog = 0 ∨
      (s.energy.pulses.getD m.val .init).conducting = true) : Ignores (.pulseEmit m) s := by
  refine congrArg Host.Outcome.next (if_neg fun ⟨hup, hheld, hout, hconst, howed, hpin⟩ => ?_)
  rcases h with h | h | h | h | h | h
  · simp [h] at hup
  · simp [h] at hheld
  · simp [h] at hout
  · exact hconst h
  · omega
  · exact Bool.noConfusion (h.symm.trans hpin)

/-! ### Snapshots (R117) -/

/-- The state with the logs and the journal left out. -/
def besideLogs (t : State) : State := { t with logs := State.reset.logs, dom := State.reset.dom }

theorem eq_of_besideLogs {s t : State} (h : besideLogs t = besideLogs s) : t = { s with logs := t.logs, dom := t.dom } :=
  congrArg (fun u : State => { u with logs := t.logs, dom := t.dom }) h

theorem besideLogs_log (origin sub code : Nat) (detail : List Byte) (legal : Bool) (s : State) :
    besideLogs (log origin sub code detail legal s) = besideLogs s := by
  rw [log_eq]
  rfl

/-- Snapshots act on the logs and the journal alone. -/
theorem snapshot_eq (ms : List Nat) (s : State) :
    snapshot ms s = { s with logs := (snapshot ms s).logs, dom := (snapshot ms s).dom } :=
  eq_of_besideLogs (foldl_keeps besideLogs _ (fun _ _ => besideLogs_log ..) ms s)

/-- Each register of a snapshot is one entry of the general log. -/
theorem snapshot_next (ms : List Nat) (s : State) : (snapshot ms s).logs.next = s.logs.next + ms.length := by
  induction ms generalizing s with
  | nil => rfl
  | cons m ms ih =>
    calc (snapshot (m :: ms) s).logs.next
        = (log 0 0x04 0x0401 (snapshotDetail s m) false s).logs.next + ms.length := ih _
      _ = s.logs.next + (m :: ms).length := by rw [log_next, List.length_cons]; omega

theorem snapshot_legal (ms : List Nat) (s : State) : (snapshot ms s).logs.legal = s.logs.legal :=
  foldl_keeps (·.logs.legal) _ (fun _ _ => log_false_legal ..) ms s

/-- After snapshots the registers count as unchanged, and beside that the logs and the journal alone have changed. -/
theorem snapshot_unchanged (ms : List Nat) (s : State) :
    setEnergy (fun e => { e with changed := false }) (snapshot ms s) =
      { s with energy := { s.energy with changed := false }, logs := (snapshot ms s).logs, dom := (snapshot ms s).dom } :=
  congrArg (setEnergy fun e => { e with changed := false }) (snapshot_eq ms s)

theorem snapshotAll_eq (s : State) :
    snapshotAll s = { s with
      energy := { s.energy with changed := false }, logs := (snapshotAll s).logs, dom := (snapshotAll s).dom } := by
  unfold snapshotAll
  generalize List.range 53 = ms
  exact snapshot_unchanged ms s

theorem snapshotPeriod_snapshots {s : State} (h : up s = true) (hchanged : s.energy.changed = true) :
    Completes .snapshotPeriod s (fun t =>
      t = { s with energy := { s.energy with changed := false }, logs := t.logs, dom := t.dom } ∧
        t.logs.next = s.logs.next + 53 ∧ t.logs.legal = s.logs.legal) := by
  refine ⟨snapshotAll s, congrArg Host.Outcome.next (if_pos ⟨h, hchanged⟩), snapshotAll_eq s, ?_, ?_⟩
  · rw [snapshotAll, setEnergy_logs, snapshot_next, List.length_range]
  · rw [snapshotAll, setEnergy_logs, snapshot_legal]

theorem snapshotPeriod_ignores {s : State} (h : up s = false ∨ s.energy.changed = false) : Ignores .snapshotPeriod s := by
  refine congrArg Host.Outcome.next (if_neg fun ⟨hup, hchanged⟩ => ?_)
  rcases h with h | h
  · simp [h] at hup
  · simp [h] at hchanged

/-! ### REGISTER_RESTORE (R133) -/

theorem setEnergy_withHost (x : HostLink) (f : Energy → Energy) (s : State) :
    setEnergy f (withHost x s) = withHost x (setEnergy f s) := rfl

@[simp] theorem regAt_withHost (x : HostLink) (s : State) (m : Nat) : regAt (withHost x s) m = regAt s m := rfl

/-- The state in which a restore waits for the next regular commit and has entered the legal log. -/
def restoreTaken (r : Request) (s : State) : State :=
  log (portOrigin r.port) 0x04 0x0407 (byte (fieldN r.payload 0 1) :: zeros 7 ++ leInt 8 (fieldI r.payload 4 8)) true
    (setEnergy (fun e => { e with
      restore := e.restore.filter (fun x => x.1 != fieldN r.payload 0 1) ++ [(fieldN r.payload 0 1, fieldI r.payload 4 8)] }) s)

theorem restoreTaken_withHost (x : HostLink) (r : Request) (s : State) :
    restoreTaken r (withHost x s) = withHost x (restoreTaken r s) := by
  rw [restoreTaken, setEnergy_withHost, log_withHost, restoreTaken]

theorem restoreTaken_sender (r : Request) (s : State) : SameSender s (restoreTaken r s) :=
  sameSender_of (log_power ..) (log_cfg ..) (congrArg Cistern.hostKey (log_cis ..))

/-- The fields of a restore name a register. -/
theorem restore_fields {p : List Byte} (hm : fieldN p 0 1 ≤ 52) (hres : fieldN p 1 3 = 0) :
    firstFail p [span 0 1 0 52, rsv 1 3] = St.ok := by
  rw [firstFail_cons_ok (fieldStatus_span (Nat.zero_le _) hm), firstFail_cons_ok (fieldStatus_rsv hres), firstFail]

section
variable {s : State} {r : Request} (hm : fieldN r.payload 0 1 ≤ 52) (hres : fieldN r.payload 1 3 = 0)
include hm hres

theorem registerRestore_taken (hservice : s.cis.lifecycle = 3) (hidle : allIdle s = true)
    (hcorrupt : (regAt s (fieldN r.payload 0 1)).corrupt = true)
    (hfits : restoreFits (fieldN r.payload 0 1) (fieldI r.payload 4 8) = true) (hroom : legalRoom s = true) :
    Admitted (opLen 0x0405 [clsN] 12) r s → Completes (.registerRestore r) s (fun t =>
      Answers s r 0x0405 St.ok [] t ∧ SameModule (restoreTaken r s) t) :=
  host_leads rfl (restoreTaken_sender r s) fun x =>
    (guarded_pass (by simp [need, restore_fields hm hres, inService, hservice, hidle, hcorrupt, hfits, hroom])).trans
      (congrArg done (restoreTaken_withHost x r s))

theorem registerRestore_refusedState
    (h : s.cis.lifecycle ≠ 3 ∨ allIdle s = false ∨ (regAt s (fieldN r.payload 0 1)).corrupt = false) :
    Admitted (opLen 0x0405 [clsN] 12) r s → Completes (.registerRestore r) s (fun t =>
      Answers s r 0x0405 St.refusedState [] t ∧ SameModule s t) :=
  host_refuses rfl fun x => guarded_stop (by
    have hstate : (inService s && allIdle s && (regAt s (fieldN r.payload 0 1)).corrupt) = false := by
      rcases h with hservice | hidle | hsound
      · simp [inService, hservice]
      · rw [hidle, Bool.and_false, Bool.false_and]
      · rw [hsound, Bool.and_false]
    simp [need, restore_fields hm hres, hstate, St.ok, St.refusedState])

theorem registerRestore_range (hservice : s.cis.lifecycle = 3) (hidle : allIdle s = true)
    (hcorrupt : (regAt s (fieldN r.payload 0 1)).corrupt = true)
    (hfits : restoreFits (fieldN r.payload 0 1) (fieldI r.payload 4 8) = false) :
    Admitted (opLen 0x0405 [clsN] 12) r s → Completes (.registerRestore r) s (fun t =>
      Answers s r 0x0405 St.range [] t ∧ SameModule s t) :=
  host_refuses rfl fun x => guarded_stop (by
    simp [need, restore_fields hm hres, inService, hservice, hidle, hcorrupt, hfits, St.ok, St.range])

end

/-! ### The statement -/

/-- Settles O21, command by command and case by case. -/
theorem meterCommands : Obligations.MeterCommands := by
  intro s r w last o m
  exact ⟨energyCommit_commits w, energyCommit_ignores w, partialCommit_commits w last, partialCommit_ignores w last,
    coolantTemperatureTimeout_falls_back s o, ⟨pulseEmit_conducts, pulseEmit_ignores⟩, ⟨_, rfl, rfl⟩,
    snapshotPeriod_snapshots, snapshotPeriod_ignores, fun hm hres => ⟨registerRestore_taken hm hres,
    registerRestore_refusedState hm hres, registerRestore_range hm hres⟩⟩

end Sys2Proof.Machine

/-! # Sessions: the ramp-down, causes, closing and opening (R117, R143, R168 to R170, R184, R200)

What each operation of a session does to its outlet and leaves to the others, and the statement. -/

namespace Sys2Proof.Machine

/-! ### The ramp-down (R184) -/

theorem rampStep_discharge {s : State} {o : Outlet} (h : (sessOf s o).setpoint.mode = 3) :
    rampStep s o = { (sessOf s o).setpoint with
      current := min 0 ((sessOf s o).setpoint.current + 10000 * (rampRate s o : Int)) } := by
  simp [rampStep, h, Int.mul_comm]

theorem rampStep_charge {s : State} {o : Outlet} (h : (sessOf s o).setpoint.mode ≠ 3) :
    rampStep s o = { (sessOf s o).setpoint with
      mode := 2, current := max 0 ((sessOf s o).setpoint.current - 10000 * (rampRate s o : Int)) } := by
  simp [rampStep, h, Int.mul_comm]

theorem rampStep_power (s : State) (o : Outlet) :
    (rampStep s o).voltage = (sessOf s o).setpoint.voltage ∧ (rampStep s o).power = (sessOf s o).setpoint.power := by
  by_cases h : (sessOf s o).setpoint.mode = 3
  · rw [rampStep_discharge h]
    exact ⟨rfl, rfl⟩
  · rw [rampStep_charge h]
    exact ⟨rfl, rfl⟩

/-- A current that is raised towards 0 by a step stays at or below it. -/
theorem raise_towards_zero {c step : Int} (hstep : 0 ≤ step) (hc : c ≤ 0) :
    c ≤ min 0 (c + step) ∧ min 0 (c + step) ≤ 0 ∧ (c ≤ -step → min 0 (c + step) = c + step) ∧
      (-step ≤ c → min 0 (c + step) = 0) := by
  omega

/-- A current that is lowered towards 0 by a step stays at or above it. -/
theorem lower_towards_zero {c step : Int} (hstep : 0 ≤ step) (hc : 0 ≤ c) :
    max 0 (c - step) ≤ c ∧ 0 ≤ max 0 (c - step) ∧ (step ≤ c → max 0 (c - step) = c - step) ∧
      (c ≤ step → max 0 (c - step) = 0) := by
  omega

/-! ### Operations beside the sessions -/

/-- The state with everything left out that an operation of a link changes. -/
def besideLink (t : State) : State := { t with link := State.reset.link, out := [], freeCount := 0 }

theorem eq_of_besideLink {s t : State} (h : besideLink t = besideLink s) :
    t = { s with link := t.link, out := t.out, freeCount := t.freeCount } :=
  congrArg (fun u : State => { u with link := t.link, out := t.out, freeCount := t.freeCount }) h

/-- The output that a command gives an outlet: 0 V where the outlet is disabled (R135). -/
def commandedGen (s : State) (o : Outlet) (g : Generator) : Generator := if outletType s o.val = 0 then .zero else g

theorem commandedGen_of_enabled {s : State} {o : Outlet} (g : Generator) (h : outletType s o.val ≠ 0) :
    commandedGen s o g = g := if_neg h

/-- A command to the generator is noted, and waits or is passed on. -/
theorem commandGen_cases (o : Outlet) (g : Generator) (s : State) :
    commandGen o g s = setLink o (fun l => { l with commanded := commandedGen s o g }) s ∨
      commandGen o g s =
        queueGen o (commandedGen s o g) (setLink o (fun l => { l with commanded := commandedGen s o g }) s) :=
  (Decidable.em _).imp (fun h => if_pos h) (fun h => if_neg h)

theorem commandGen_besideLink (o : Outlet) (g : Generator) (s : State) : besideLink (commandGen o g s) = besideLink s := by
  rcases commandGen_cases o g s with h | h
  · rw [h]
    rfl
  · rw [h]
    rfl

theorem freshNmk_besideLink (o : Outlet) (s : State) : besideLink (freshNmk o s) = besideLink s := by
  unfold freshNmk
  split <;> rfl

theorem closeTcp_besideLink (o : Outlet) (s : State) : besideLink (closeTcp o s) = besideLink s := by
  by_cases h : (s.link.get o).tcpOpen = true <;> simp only [closeTcp, h] <;> rfl

theorem endLink_besideLink (o : Outlet) (s : State) : besideLink (endLink o s) = besideLink s := by
  have h : besideLink (closeTcp o (freshNmk o s)) = besideLink s := (closeTcp_besideLink o _).trans (freshNmk_besideLink o s)
  unfold endLink
  dsimp only
  split <;> exact h

theorem beginLink_besideLink (o : Outlet) (s : State) : besideLink (beginLink o s) = besideLink s := by
  unfold beginLink
  dsimp only
  refine (freshNmk_besideLink o _).trans ?_
  split <;> rfl

theorem sess_of_besideLink {s t : State} (h : besideLink t = besideLink s) : t.sess = s.sess := by
  rw [eq_of_besideLink h]

theorem energy_of_besideLink {s t : State} (h : besideLink t = besideLink s) : t.energy = s.energy := by
  rw [eq_of_besideLink h]

theorem logs_of_besideLink {s t : State} (h : besideLink t = besideLink s) : t.logs = s.logs := by
  rw [eq_of_besideLink h]

theorem sun_of_besideLink {s t : State} (h : besideLink t = besideLink s) : t.sun = s.sun := by
  rw [eq_of_besideLink h]

theorem cfg_of_besideLink {s t : State} (h : besideLink t = besideLink s) : t.cfg = s.cfg := by
  rw [eq_of_besideLink h]


/-! ### Operations that leave the sessions (R154, R186, R222) -/

theorem journal_sess (kind object seq : Nat) (s : State) : (journal kind object seq s).sess = s.sess := by rw [journal_eq]

theorem writeReply_sess (o : Outlet) (f : StandingFields) (s : State) : (writeReply o f s).sess = s.sess := by
  unfold writeReply
  dsimp only
  split
  · exact (sess_of_besideLink (commandGen_besideLink ..)).trans (journal_sess ..)
  · exact journal_sess ..

theorem renewReply_sess (o : Outlet) (s : State) : (renewReply o s).sess = s.sess := by
  unfold renewReply
  split
  · exact writeReply_sess ..
  · rfl

/-- A frame to a converter goes out or waits in its queue. -/
theorem sendCan_sessions (f : CanOut) (s : State) : (sendCan f s).sess.out = s.sess.out := by
  unfold sendCan
  split <;> rfl

theorem sendSetpoint_sessions (o : Outlet) (s : State) : (sendSetpoint o s).sess.out = s.sess.out :=
  foldl_keeps (·.sess.out) (fun t f => sendCan f t) (fun t f => sendCan_sessions f t) _ s

theorem scrAction_sess (o : Outlet) (row : Nat) (cuts : Bool) (measured limit : List Byte) (s : State) :
    (scrAction o row cuts measured limit s).sess = s.sess := by
  by_cases h : (if cuts then (s.hedge.scr.get o).cut else (s.hedge.scr.get o).ramp) = true
  · exact congrArg State.sess (if_pos h)
  · exact (congrArg State.sess (if_neg h)).trans (log_sess ..)

theorem withhold_sess (o : Outlet) (p : Setpoint) (s : State) : (withhold o p s).sess = s.sess := by
  unfold withhold
  split
  · exact scrAction_sess ..
  · split
    · exact scrAction_sess ..
    · exact scrAction_sess ..

theorem logCause_sess (s : State) : (logCause s).sess = s.sess := log_sess ..

theorem sess_of_vehicle {s t : State} (h : vehicle t = vehicle s) : t.sess = s.sess := congrArg Vehicle.sess h

theorem SameModule.logs_eq {s t : State} (h : SameModule s t) : t.logs = s.logs := by
  unfold SameModule at h
  rw [h]

theorem SameModule.sun_eq {s t : State} (h : SameModule s t) : t.sun = s.sun := by
  unfold SameModule at h
  rw [h]

theorem SameModule.cfg_eq {s t : State} (h : SameModule s t) : t.cfg = s.cfg := by
  unfold SameModule at h
  rw [h]

theorem SameModule.link_eq {s t : State} (h : SameModule s t) : t.link = s.link := by
  unfold SameModule at h
  rw [h]


theorem sendEvent_same (p : Port) (cls opcode : Nat) (payload : List Byte) (s : State) :
    SameModule s (sendEvent p cls opcode payload s) := by
  unfold sendEvent
  exact (sendPacket_same _ s).trans (setOrigin_same _ _ _)

/-- An event to the hosts leaves the module as it is. -/
theorem eventAll_same (cls opcode : Nat) (payload : List Byte) (s : State) : SameModule s (eventAll cls opcode payload s) := by
  unfold eventAll
  refine List.foldlRecOn (motive := fun t => SameModule s t) _ _ (SameModule.refl s) fun t ht p _ => ?_
  split
  · exact ht.trans (sendEvent_same ..)
  · exact ht

/-! ### The sessions after an operation -/

/-- In the second state the outlet's session is as given; the sessions of the other outlets are those of the first state. -/
def SessAfter (o : Outlet) (x : Session) (s t : State) : Prop := sessOf t o = x ∧ ∀ y, y ≠ o → sessOf t y = sessOf s y

theorem SessAfter.refl (o : Outlet) (s : State) : SessAfter o (sessOf s o) s s := ⟨rfl, fun _ _ => rfl⟩

theorem SessAfter.congr_out {o : Outlet} {x : Session} {s t u : State} (h : SessAfter o x s t)
    (hu : u.sess.out = t.sess.out) : SessAfter o x s u := by
  unfold SessAfter sessOf
  rw [hu]
  exact h

theorem SessAfter.congr {o : Outlet} {x : Session} {s t u : State} (h : SessAfter o x s t) (hu : u.sess = t.sess) :
    SessAfter o x s u := h.congr_out (congrArg Sessions.out hu)

theorem SessAfter.then_setSess {o : Outlet} {x : Session} {s t : State} (h : SessAfter o x s t) (f : Session → Session) :
    SessAfter o (f x) s (setSess o f t) := by
  obtain ⟨hx, hothers⟩ := h
  exact ⟨hx ▸ PerOutlet.get_set_same _ _ _, fun y hy => (PerOutlet.get_set_other _ _ _ _ hy).trans (hothers y hy)⟩

theorem goTo_sess (o : Outlet) (y : SState) (s : State) :
    (goTo o y s).sess = (setSess o (fun x => { x with state := y }) s).sess := by
  unfold goTo
  dsimp only
  rw [sess_of_vehicle (eventAll_vehicle ..), journal_eq]
  split <;> rfl

theorem SessAfter.then_goTo {o : Outlet} {x : Session} {s t : State} (h : SessAfter o x s t) (y : SState) :
    SessAfter o { x with state := y } s (goTo o y t) :=
  (h.then_setSess (fun x => { x with state := y })).congr (goTo_sess o y t)

theorem SessAfter.then_commandGen {o : Outlet} {x : Session} {s t : State} (h : SessAfter o x s t) (p : Outlet) (g : Generator) :
    SessAfter o x s (commandGen p g t) := h.congr (sess_of_besideLink (commandGen_besideLink p g t))

/-- A new setpoint touches the setpoint, its count and what the converter has in force. -/
theorem SessAfter.then_putSetpoint {o : Outlet} {x : Session} {s t : State} (h : SessAfter o x s t) (p : Setpoint) :
    ∃ sp n q, SessAfter o { x with setpoint := sp, setSeq := n, inForce := q } s (putSetpoint o p t) := by
  have hput := (h.congr (journal_sess 2 o.val ((sessOf t o).setSeq + 1).toNat t)).then_setSess
    (fun x => { x with setpoint := p, setSeq := x.setSeq + 1 })
  unfold putSetpoint
  split
  · exact ⟨x.setpoint, x.setSeq, x.inForce, h⟩
  · unfold releaseSetpoint
    dsimp only
    split
    · exact ⟨_, _, _, (hput.then_setSess _).congr_out (sendSetpoint_sessions ..)⟩
    · exact ⟨_, _, x.inForce, hput.congr (withhold_sess ..)⟩

/-! ### Closing (R117, R143, R169) -/

/-- A session as it is closed, unless it is closed already. -/
def closedSession (reason : Nat) (x : Session) : Session :=
  if x.closed then x
  else { x with
    reason := reason, closed := true, informational := false
    query := if x.query = .pending ∨ x.informational then .answered else x.query }

theorem closedSession_closed (reason : Nat) (x : Session) : (closedSession reason x).closed = true := by
  unfold closedSession
  split
  · next h => exact h
  · rfl

theorem closedSession_state (reason : Nat) (x : Session) : (closedSession reason x).state = x.state := by
  unfold closedSession
  split <;> rfl

theorem closedSession_reason {reason : Nat} {x : Session} (h : x.closed = false) : (closedSession reason x).reason = reason := by
  simp [closedSession, h]

theorem closeSession_of_closed {s : State} {o : Outlet} (reason : Nat) (h : (sessOf s o).closed = true) :
    closeSession o reason s = s := if_pos h

/-- The state in which an open session has its end reason and its record is closed. -/
def recordClosed (o : Outlet) (reason : Nat) (s : State) : State :=
  closeRecord o reason (snapshot ((List.range 8).map (fun (i : Nat) => 8 * o.val + i))
    (setSess o (fun y => { y with reason := reason }) s))

/-- The state in which the session itself is closed. -/
def sessionEnded (o : Outlet) (reason : Nat) (s : State) : State :=
  setSess o (fun y => { y with
    closed := true, informational := false
    query := if y.query = .pending ∨ y.informational then .answered else y.query }) (recordClosed o reason s)

/-- Entry 0x0603 of a session that closes. -/
def endDetail (o : Outlet) (reason : Nat) (s : State) : List Byte :=
  [byte o.val, byte reason, byte (sessOf s o).state.code, 0] ++ leBytes 4 (sessOf s o).number ++
    leInt 8 (committedValue s (8 * o.val))

theorem closeSession_of_open {s : State} {o : Outlet} (reason : Nat) (h : (sessOf s o).closed = false) :
    closeSession o reason s = endLink o (log 0 0x06 0x0603 (endDetail o reason s) false (sessionEnded o reason s)) :=
  if_neg (ne_true_of_eq_false h)

theorem SessAfter.then_close {o : Outlet} {x : Session} {s t : State} (h : SessAfter o x s t) (reason : Nat) :
    SessAfter o (closedSession reason x) s (closeSession o reason t) := by
  have hx : (sessOf t o).closed = x.closed := congrArg Session.closed h.1
  cases hclosed : x.closed with
  | true =>
    rw [closeSession_of_closed reason (hx.trans hclosed), closedSession, if_pos hclosed]
    exact h
  | false =>
    have hrecord : (recordClosed o reason t).sess = (setSess o (fun y => { y with reason := reason }) t).sess :=
      (sess_of_vehicle (closeRecord_vehicle ..)).trans (sess_of_vehicle (snapshot_vehicle ..))
    have hended := ((h.then_setSess (fun y => { y with reason := reason })).congr hrecord).then_setSess
      (fun y => { y with
        closed := true, informational := false
        query := if y.query = .pending ∨ y.informational then .answered else y.query })
    rw [closeSession_of_open reason (hx.trans hclosed), closedSession, if_neg (ne_true_of_eq_false hclosed)]
    exact hended.congr ((sess_of_besideLink (endLink_besideLink ..)).trans (log_sess ..))

/-! ### Transitions (R169, R184, R201) -/

/-- A session whose waiting availability has taken effect. -/
def availabilityTaken (x : Session) : Session :=
  { x with outOfService := x.availLater.getD x.outOfService, availLater := none }

section
variable {o : Outlet} {x : Session} {s t : State} (h : SessAfter o x s t)
include h

theorem SessAfter.then_enterS0 :
    SessAfter o (availabilityTaken { x with auth := 0, state := .s0 }) s (enterS0 o t) :=
  (((h.then_setSess (fun x => { x with auth := 0 })).then_goTo .s0).then_setSess availabilityTaken).then_commandGen o .static12

theorem SessAfter.then_enterS9 : SessAfter o (availabilityTaken { x with state := .s9 }) s (enterS9 o t) :=
  ((h.then_goTo .s9).then_setSess availabilityTaken).then_commandGen o .static12

theorem SessAfter.then_enterS7 (cause : Nat) :
    ∃ sp n q, SessAfter o { x with cause := cause, state := .s7, setpoint := sp, setSeq := n, inForce := q } s
      (enterS7 o cause t) := by
  have hramp := (h.then_setSess (fun x => { x with cause := cause })).then_goTo .s7
  obtain ⟨sp, n, q, hput⟩ := hramp.then_putSetpoint
    (rampStep (goTo o .s7 (setSess o (fun x => { x with cause := cause }) t)) o)
  refine ⟨sp, n, q, SessAfter.congr ?_ (renewReply_sess o _)⟩
  split
  · exact hput.then_commandGen o .static12
  · exact hput

theorem SessAfter.then_logCause : SessAfter o x s (logCause t) := h.congr (logCause_sess t)

theorem SessAfter.then_noteCause (cause : Nat) :
    SessAfter o { x with causes := cause :: causesNow t o, causeCycle := t.sun.cycle } s (noteCause o cause t) :=
  h.then_setSess _

end

/-! ### Causes (R169, R170, R172) -/

theorem giveCause_of_some {s : State} {o : Outlet} {cause : Nat} {f : State → State} (h : causeStep s o cause = some f) :
    giveCause o cause s = noteCause o cause (f s) := by
  rw [giveCause, h]

/-- A cause without a transition is noted at most. -/
theorem giveCause_of_none {s : State} {o : Outlet} {cause : Nat} (h : causeStep s o cause = none) :
    giveCause o cause s = logCause (noteCause o cause s) ∨ giveCause o cause s = s := by
  rw [giveCause, h]
  exact (Decidable.em _).imp (fun h => if_pos h) (fun h => if_neg h)

/-- What a cause can do where it has a transition: end the session before it charges, begin its ramp-down, or replace the cause
of one. -/
theorem causeStep_cases {s : State} {o : Outlet} {cause : Nat} {f : State → State} (h : causeStep s o cause = some f) :
    f = (fun t => enterS0 o (closeSession o 3 t)) ∨ f = (fun t => enterS9 o (closeSession o cause t)) ∨ f = enterS7 o cause ∨
      f = (fun t => logCause (setSess o (fun y => { y with cause := cause }) t)) := by
  have early (x : Session) (h : causeStep.early o x cause = some f) :
      f = (fun t => enterS0 o (closeSession o 3 t)) ∨ f = (fun t => enterS9 o (closeSession o cause t)) := by
    unfold causeStep.early at h
    split at h
    · exact .inl (Option.some.inj h).symm
    · split at h
      · exact .inr (Option.some.inj h).symm
      · cases h
  have ramp (h : causeStep.ramp o cause = some f) : f = enterS7 o cause := by
    unfold causeStep.ramp at h
    split at h
    · exact (Option.some.inj h).symm
    · cases h
  unfold causeStep at h
  dsimp only at h
  split at h
  · cases h
  · split at h
    · split at h
      · exact .inl (Option.some.inj h).symm
      · cases h
    · exact (early _ h).imp_right .inl
    · exact (early _ h).imp_right .inl
    · exact .inr (.inr (.inl (ramp h)))
    · exact .inr (.inr (.inl (ramp h)))
    · exact .inr (.inr (.inl (ramp h)))
    · split at h
      · exact .inr (.inr (.inr (Option.some.inj h).symm))
      · cases h
    · cases h

/-- A cause touches the session of its own outlet alone. -/
theorem giveCause_others (o : Outlet) (cause : Nat) (s : State) : ∃ x, SessAfter o x s (giveCause o cause s) := by
  have hs := SessAfter.refl o s
  cases h : causeStep s o cause with
  | none =>
    rcases giveCause_of_none h with hgive | hgive
    · rw [hgive]
      exact ⟨_, (hs.then_noteCause cause).then_logCause⟩
    · rw [hgive]
      exact ⟨_, hs⟩
  | some f =>
    rw [giveCause_of_some h]
    rcases causeStep_cases h with rfl | rfl | rfl | rfl
    · exact ⟨_, (hs.then_close 3).then_enterS0.then_noteCause cause⟩
    · exact ⟨_, (hs.then_close cause).then_enterS9.then_noteCause cause⟩
    · obtain ⟨sp, n, q, hramp⟩ := hs.then_enterS7 cause
      exact ⟨_, hramp.then_noteCause cause⟩
    · exact ⟨_, (hs.then_setSess _).then_logCause.then_noteCause cause⟩

section
variable {s : State} {o : Outlet} {cause : Nat} (happlies : causeApplies s o cause = true)
include happlies

theorem causeStep_left (h : (sessOf s o).state = .s1 ∨ (sessOf s o).state = .s2 ∨ (sessOf s o).state = .s3)
    (hcause : cause = 3) : causeStep s o cause = some (fun t => enterS0 o (closeSession o 3 t)) := by
  subst hcause
  rcases h with h | h | h <;> simp [causeStep, causeStep.early, happlies, h]

theorem causeStep_early (h : (sessOf s o).state = .s2 ∨ (sessOf s o).state = .s3) (hcause : cause ∈ endCauses) :
    causeStep s o cause = some (fun t => enterS9 o (closeSession o cause t)) := by
  have hstays : cause ≠ 3 := by
    rintro rfl
    exact absurd hcause (by decide)
  rcases h with h | h <;> simp [causeStep, causeStep.early, happlies, h, hcause, hstays]

theorem causeStep_ramp (h : (sessOf s o).state = .s4 ∨ (sessOf s o).state = .s5 ∨ (sessOf s o).state = .s6)
    (hcause : cause ∈ rampCauses) : causeStep s o cause = some (enterS7 o cause) := by
  rcases h with h | h | h <;> simp [causeStep, causeStep.ramp, happlies, h, hcause]

theorem causeStep_idle (h : (sessOf s o).state = .s0 ∨ (sessOf s o).state = .s8 ∨ (sessOf s o).state = .s9 ∨
    (sessOf s o).state = .se) : causeStep s o cause = none := by
  rcases h with h | h | h | h <;> simp [causeStep, happlies, h]

/-- A vehicle that leaves before it charges: the session is closed, and its outlet is in S0. -/
theorem giveCause_left (h : (sessOf s o).state = .s1 ∨ (sessOf s o).state = .s2 ∨ (sessOf s o).state = .s3) (hcause : cause = 3) :
    (sessOf (giveCause o cause s) o).state = .s0 ∧ (sessOf (giveCause o cause s) o).closed = true := by
  rw [giveCause_of_some (causeStep_left happlies h hcause),
    (((SessAfter.refl o s).then_close 3).then_enterS0.then_noteCause cause).1]
  exact ⟨rfl, closedSession_closed 3 _⟩

/-- A cause before energy flows: the session is closed with it as its end reason, and its outlet is in S9. -/
theorem giveCause_early (h : (sessOf s o).state = .s2 ∨ (sessOf s o).state = .s3) (hcause : cause ∈ endCauses) :
    (sessOf (giveCause o cause s) o).state = .s9 ∧ (sessOf (giveCause o cause s) o).closed = true ∧
      ((sessOf s o).closed = false → (sessOf (giveCause o cause s) o).reason = cause) := by
  rw [giveCause_of_some (causeStep_early happlies h hcause),
    (((SessAfter.refl o s).then_close cause).then_enterS9.then_noteCause cause).1]
  exact ⟨rfl, closedSession_closed cause _, closedSession_reason⟩

/-- A cause while energy flows: the ramp-down begins, and the session stays open. -/
theorem giveCause_ramp (h : (sessOf s o).state = .s4 ∨ (sessOf s o).state = .s5 ∨ (sessOf s o).state = .s6)
    (hcause : cause ∈ rampCauses) :
    (sessOf (giveCause o cause s) o).state = .s7 ∧ (sessOf (giveCause o cause s) o).cause = cause ∧
      (sessOf (giveCause o cause s) o).closed = (sessOf s o).closed := by
  obtain ⟨sp, n, q, hramp⟩ := (SessAfter.refl o s).then_enterS7 cause
  rw [giveCause_of_some (causeStep_ramp happlies h hcause), (hramp.then_noteCause cause).1]
  exact ⟨rfl, rfl, rfl⟩

/-- Without a session that runs, a cause changes no state. -/
theorem giveCause_idle (h : (sessOf s o).state = .s0 ∨ (sessOf s o).state = .s8 ∨ (sessOf s o).state = .s9 ∨
    (sessOf s o).state = .se) : (sessOf (giveCause o cause s) o).state = (sessOf s o).state := by
  rcases giveCause_of_none (causeStep_idle happlies h) with hgive | hgive
  · rw [hgive, ((SessAfter.refl o s).then_noteCause cause).then_logCause.1]
  · rw [hgive]

end

/-! ### What closing leaves (R117, R143, R169) -/

theorem debit_energy (i : Nat) (cost : Int) (s : State) : (debit i cost s).energy = s.energy := by
  unfold debit
  split <;> rfl

theorem signed_energy (s : State) : (signed s).energy = s.energy :=
  signed_keeps (·.energy) (fun _ => rfl) (fun _ _ _ => rfl) (fun _ _ _ => rfl) s

theorem closeRecord_energy (o : Outlet) (reason : Nat) (s : State) : (closeRecord o reason s).energy = s.energy := by
  unfold closeRecord
  split
  · rfl
  · rw [log_energy]
    split
    · exact (debit_energy ..).trans (signed_energy _)
    · exact signed_energy _

theorem sessionEnded_energy (o : Outlet) (reason : Nat) (s : State) : (sessionEnded o reason s).energy = s.energy :=
  (closeRecord_energy ..).trans (by rw [snapshot_eq]; rfl)

/-- The end of a session leaves its link without a connection and without a matching run. -/
theorem endLink_link (o : Outlet) (s : State) :
    ((endLink o s).link.get o).tcpOpen = false ∧ ((endLink o s).link.get o).link = 0 ∧
      ((endLink o s).link.get o).matching.step = 0 := by
  unfold endLink
  dsimp only
  split <;> simp [queueGen, setLink, closeTcp, dropConnection, Matching.init]

/-- An open session is closed with its reason, beside the registers and the other sessions, and its entry is the newest. -/
theorem closeSession_ends {s : State} {o : Outlet} (reason : Nat) (h : (sessOf s o).closed = false) :
    (closeSession o reason s).energy = s.energy ∧
      (closeSession o reason s).logs.general.head? =
        some (newEntry (sessionEnded o reason s) 0 0x06 0x0603 (endDetail o reason s)) ∧
      ((closeSession o reason s).link.get o).tcpOpen = false ∧ ((closeSession o reason s).link.get o).link = 0 ∧
      ((closeSession o reason s).link.get o).matching.step = 0 := by
  have hend := endLink_besideLink o (log 0 0x06 0x0603 (endDetail o reason s) false (sessionEnded o reason s))
  rw [closeSession_of_open reason h]
  refine ⟨?_, ?_, endLink_link o _⟩
  · rw [energy_of_besideLink hend, log_energy, sessionEnded_energy]
  · rw [logs_of_besideLink hend, log_general_head]

/-! ### Opening (R168, R200) -/

theorem newEntry_congr {s t : State} (origin sub code : Nat) (detail : List Byte) (hl : t.logs = s.logs) (hs : t.sun = s.sun) :
    newEntry t origin sub code detail = newEntry s origin sub code detail := by
  simp only [newEntry, entryUtc, utcNow, stamp, hl, hs]

theorem outletType_congr {s t : State} (h : t.cfg = s.cfg) (n : Nat) : outletType t n = outletType s n := by
  rw [outletType, outletType, h]

/-- The session that an outlet opens: new but for what belongs to the outlet, its allocation and its converter. -/
def openedSession (s : State) (number : Nat) (x : Session) : Session :=
  { Session.init with
    number := number, reason := x.reason, closed := false, startUtc := utcNow s, startStamp := stamp s
    outOfService := x.outOfService, availLater := x.availLater, preAuth := x.preAuth, preOrigin := x.preOrigin
    alloc := x.alloc, nextAlloc := x.nextAlloc, allocSince := x.allocSince
    setpoint := x.setpoint, setSeq := x.setSeq, inForce := x.inForce }

/-- The number of the next session. -/
def nextNumber (s : State) : Nat := (s.sess.lastNumber + 1) % 4294967296

/-- The state in which an outlet has its new session and Scarecrow has taken back its checks. -/
def sessionOpened (o : Outlet) (s : State) : State :=
  setScr o (fun c => { c with ramp := false, cut := false })
    (setSess o (openedSession s (nextNumber s))
      (clearSessionStatus o { s with sess := { s.sess with lastNumber := nextNumber s } }))

/-- The state in which the new session has its record and its link and is in S1. -/
def sessionStarted (o : Outlet) (s : State) : State := goTo o .s1 (beginLink o (openRecord o (sessionOpened o s)))

/-- Entry 0x0601 of a session that opens. -/
def startDetail (o : Outlet) (s : State) : List Byte :=
  [byte o.val, byte (outletType s o.val), 0, 0] ++ leBytes 4 (nextNumber s) ++ zeros 8

theorem enterS1_eq (o : Outlet) (s : State) :
    enterS1 o s = commandGen o .static12 (log 0 0x06 0x0601 (startDetail o s) false (sessionStarted o s)) := rfl

/-- A transition to another state than S0 changes the session's state, beside what goes out to the hosts. -/
theorem goTo_same (o : Outlet) {y : SState} (s : State) (hy : y ≠ .s0) :
    SameModule (setSess o (fun x => { x with state := y }) s) (goTo o y s) := by
  unfold goTo
  dsimp only
  rw [if_neg hy]
  refine SameModule.trans ?_ (eventAll_same ..)
  rw [journal_eq]
  rfl

theorem commandGen_link (o : Outlet) (g : Generator) (s : State) :
    ∃ n, (commandGen o g s).link.get o = { s.link.get o with commanded := commandedGen s o g, next := n } := by
  rcases commandGen_cases o g s with h | h
  · exact ⟨(s.link.get o).next, by simp [h, setLink]⟩
  · exact ⟨some (commandedGen s o g), by simp [h, setLink, queueGen]⟩

theorem beginLink_link (o : Outlet) (s : State) :
    ((beginLink o s).link.get o).protocol = none ∧ ((beginLink o s).link.get o).matchFail = false ∧
      ((beginLink o s).link.get o).pwmOnly = false := by
  unfold beginLink
  dsimp only
  simp only [setLink, PerOutlet.get_set_same, and_self]

theorem sessionStarted_sess (o : Outlet) (s : State) :
    (sessionStarted o s).sess =
      (setSess o (fun x => { x with state := .s1 }) (sessionOpened o s)).sess := by
  have hbegin := sess_of_besideLink (beginLink_besideLink o (openRecord o (sessionOpened o s)))
  rw [sessionStarted, goTo_sess]
  simp only [setSess, hbegin]
  rfl

theorem sessionStarted_same (o : Outlet) (s : State) :
    SameModule (setSess o (fun x => { x with state := .s1 }) (beginLink o (openRecord o (sessionOpened o s))))
      (sessionStarted o s) := goTo_same o _ (by decide)

theorem sessionStarted_link (o : Outlet) (s : State) :
    (sessionStarted o s).link = (beginLink o (openRecord o (sessionOpened o s))).link := (sessionStarted_same o s).link_eq

/-- Opening a session leaves what its entry is made of. -/
theorem sessionStarted_entry (o : Outlet) (s : State) :
    (sessionStarted o s).logs = s.logs ∧ (sessionStarted o s).sun = s.sun ∧ (sessionStarted o s).cfg = s.cfg := by
  have hsame := sessionStarted_same o s
  have hbegin := beginLink_besideLink o (openRecord o (sessionOpened o s))
  rw [hsame.logs_eq, hsame.sun_eq, hsame.cfg_eq, setSess_logs, setSess_sun, setSess_cfg, logs_of_besideLink hbegin,
    sun_of_besideLink hbegin, cfg_of_besideLink hbegin]
  exact ⟨rfl, rfl, rfl⟩

theorem enterS1_sess (o : Outlet) (s : State) : (enterS1 o s).sess = (sessionStarted o s).sess :=
  (sess_of_besideLink (commandGen_besideLink ..)).trans (log_sess ..)

theorem enterS1_lastNumber (o : Outlet) (s : State) : (enterS1 o s).sess.lastNumber = nextNumber s := by
  rw [enterS1_sess, sessionStarted_sess]
  rfl

theorem enterS1_sessions (o : Outlet) (s : State) :
    SessAfter o { openedSession s (nextNumber s) (sessOf s o) with state := .s1 } s (enterS1 o s) := by
  have hnumber : SessAfter o (sessOf s o) s
      (clearSessionStatus o { s with sess := { s.sess with lastNumber := nextNumber s } }) := (SessAfter.refl o s).congr_out rfl
  have hopened : SessAfter o (openedSession s (nextNumber s) (sessOf s o)) s (sessionOpened o s) :=
    (hnumber.then_setSess (openedSession s (nextNumber s))).congr rfl
  exact (hopened.then_setSess (fun x => { x with state := .s1 })).congr ((enterS1_sess o s).trans (sessionStarted_sess o s))

theorem enterS1_logged (o : Outlet) (s : State) :
    (enterS1 o s).logs.general.head? = some (newEntry s 0 0x06 0x0601 (startDetail o s)) := by
  obtain ⟨hlogs, hsun, -⟩ := sessionStarted_entry o s
  rw [enterS1_eq, logs_of_besideLink (commandGen_besideLink ..), log_general_head, newEntry_congr _ _ _ _ hlogs hsun]

theorem enterS1_link (o : Outlet) (s : State) :
    ((enterS1 o s).link.get o).protocol = none ∧ ((enterS1 o s).link.get o).matchFail = false ∧
      ((enterS1 o s).link.get o).pwmOnly = false ∧
      (outletType s o.val ≠ 0 → ((enterS1 o s).link.get o).commanded = .static12) := by
  obtain ⟨n, hlink⟩ := commandGen_link o .static12 (log 0 0x06 0x0601 (startDetail o s) false (sessionStarted o s))
  obtain ⟨hprotocol, hmatch, hpwm⟩ := beginLink_link o (openRecord o (sessionOpened o s))
  obtain ⟨-, -, hcfg⟩ := sessionStarted_entry o s
  rw [enterS1_eq, hlink, log_link, sessionStarted_link]
  refine ⟨hprotocol, hmatch, hpwm, fun htype => ?_⟩
  dsimp only
  rw [commandedGen_of_enabled]
  rwa [outletType_congr ((log_cfg ..).trans hcfg)]

/-! ### The statement -/

/-- Settles O35: the ramp-down by its two directions, a cause by the state it meets, closing and opening by what their operations
leave. -/
theorem sessionRules : Obligations.SessionRules := by
  refine ⟨fun s o => ?_, fun s o cause happlies => ?_, fun s o reason => ?_, fun s o => ?_⟩
  · obtain ⟨hvoltage, hpower⟩ := rampStep_power s o
    have hstep : (0 : Int) ≤ 10000 * rampRate s o := by omega
    refine ⟨hvoltage, hpower, fun hmode hcurrent => ?_, fun hmode hcurrent => ?_⟩
    · rw [rampStep_discharge hmode]
      exact ⟨hmode, raise_towards_zero hstep hcurrent⟩
    · rw [rampStep_charge hmode]
      exact ⟨rfl, lower_towards_zero hstep hcurrent⟩
  · obtain ⟨x, -, hothers⟩ := giveCause_others o cause s
    exact ⟨giveCause_early happlies, giveCause_left happlies, giveCause_ramp happlies, giveCause_idle happlies, hothers⟩
  · obtain ⟨hsess, hothers⟩ := (SessAfter.refl o s).then_close reason
    have hclosed : (sessOf (closeSession o reason s) o).closed = true := by rw [hsess, closedSession_closed]
    refine ⟨closeSession_of_closed reason, fun hopen => ?_, closeSession_of_closed reason hclosed⟩
    obtain ⟨henergy, hentry, htcp, hlink, hstep⟩ := closeSession_ends reason hopen
    exact ⟨hclosed, by rw [hsess, closedSession_reason hopen], by rw [hsess, closedSession_state], htcp, hlink, fun _ => hstep,
      henergy, hothers, _, hentry, rfl, rfl⟩
  · obtain ⟨hsess, hothers⟩ := enterS1_sessions o s
    obtain ⟨hprotocol, hmatch, hpwm, hcommanded⟩ := enterS1_link o s
    dsimp only
    rw [hsess, enterS1_lastNumber]
    exact ⟨rfl, rfl, rfl, rfl, rfl, rfl, rfl, rfl, rfl, hprotocol, hmatch, hpwm, hcommanded, hothers, enterS1_logged o s⟩

end Sys2Proof.Machine

/-! # The frame of the standing conditions (R50, R65, R171, R207, R240)

What the standing conditions leave alone when they take effect, and the statement. -/

namespace Sys2Proof.Machine

/-- Settles O6: nothing that the standing conditions do reaches the parts of the state of `calm` and `kept`. -/
theorem settleFrame : Obligations.SettleFrame := by
  unfold Obligations.SettleFrame
  intro s
  have hcalm := settle_calm s
  have hkept := settle_kept s
  generalize settle s = t at hcalm hkept ⊢
  exact ⟨congrArg Calm.clockMs hcalm, congrArg Calm.power hcalm, congrArg Calm.sun hcalm, congrArg Calm.acq hcalm,
    congrArg Calm.trellis hcalm, congrArg Calm.wadi hcalm, congrArg Calm.update hcalm, congrArg Calm.reader0 hcalm,
    congrArg Calm.reader1 hcalm, congrArg Calm.tag hcalm, congrArg Calm.rake hcalm, congrArg Calm.disp hcalm,
    congrArg Calm.fabric hcalm, congrArg Kept.otp hkept, congrArg Kept.pending hkept⟩

end Sys2Proof.Machine

/-! # The authorisation commands (R65, R201, R476)

A response carries the module's address, which the configuration in force gives (R65). An outlet that enters S0 releases the
records held under its number (R476), and the address record 0x0102 has the number of outlet 0 as its key. So in a state that holds
a record of this type, which no warm reset leaves, a response that is sent after outlet 0 has reached S0 carries another address
than the state before the request gives. -/

namespace Sys2Proof.Machine

/-- An admitted request whose action answers at once is completed on the state that the action leaves. -/
theorem host_completes {op : OpSpec} {r : Request} {s u : State} {act : State → State × Answer} {st : Nat} {pl : List Byte}
    (h : Admitted op r s) (hcode : op.code ≠ 0x0101) (ha : act (admitted op.code r s) = (u, .now st pl)) :
    hostRequest op r act s = completeRequest r.port r.cls op.code r.seq st pl u := by
  obtain ⟨hopen, hsrc, hmac, hfresh, hstatus, hcond⟩ := h
  have hstate : setOrigin r.port (acceptSeq r.seq) (present (spiTransfer r.port s)) = admitted op.code r s := (if_neg hcode).symm
  have hcond' : ¬ conditionRefuses (admitted op.code r s) op.code = true := by
    rw [admitted_eq]
    exact ne_true_of_eq_false hcond
  have hrun : runRequest op r act (admitted op.code r s) = (u, .now st pl) := by
    rw [runRequest, if_neg (not_not_intro hstatus), if_neg hcond', ha]
  simp only [hostRequest, acceptRequest, hopen, hsrc, hmac, hcode, hfresh.resolve_left hcode, hstate, hrun, Bool.and_self,
    Bool.not_true, Bool.false_eq_true, if_false]

/-- The response to a request carries the address that the module has once the action has taken effect. -/
theorem hostAddress_of_answers {s u : State} {r : Request} {code st st' : Nat} {pl pl' : List Byte}
    (h : Answers s r code st' pl' (completeRequest r.port r.cls code r.seq st pl u)) :
    hostAddress u r.port = hostAddress s r.port :=
  congrArg Packet.source (Out.packet.inj (Option.some.inj ((completeRequest_out ..).symm.trans h)))

/-- A running module whose outlet 0 is in S9 after its vehicle has gone, and which holds a record 0x0102 under key 0. -/
def addressHeldState : State :=
  { State.reset with
    power.phase := .running, power.charged := true, power.vbat := 300, acq.mclkOn := true, cis.hostKey := some 1
    cis.lifecycle := 3, link.o0.pilot := some .a, sess.out.o0.state := .s9
    cfg := { State.reset.cfg with
      slot := 0, held := [⟨0x0102, 0, 0, 0, 0, true, true, leBytes 4 0x0A000001 ++ zeros 20⟩] } }

/-- OUTLET_AVAILABILITY of outlet 0 on E0, with the HMAC that the host forms. -/
def availabilityRequest : Request :=
  let r : Request := ⟨.e0, 1, clsN, 1, 0, 0, 0, zeros 4, 0, 0, 0⟩
  { r with mac := hostMac addressHeldState (requestBytes 0x0608 r) }

/-- The state that the availability request leads to before its response goes out. -/
def availabilitySettled : State := settle (takeAvailability 0 false (admitted 0x0608 availabilityRequest addressHeldState))

theorem availabilityRequest_admitted : Admitted (opLen 0x0608 [clsN] 4) availabilityRequest addressHeldState := by
  refine ⟨by decide +kernel, by decide +kernel, ?_, .inr (by decide +kernel), by decide +kernel, by decide +kernel⟩
  exact Bool.and_eq_true_iff.mpr ⟨beq_self_eq_true _, by decide +kernel⟩

theorem availabilityRequest_completes :
    exec (.outletAvailability availabilityRequest) addressHeldState =
      .next (completeRequest availabilityRequest.port availabilityRequest.cls 0x0608 availabilityRequest.seq St.ok []
        availabilitySettled) :=
  congrArg Host.Outcome.next (host_completes availabilityRequest_admitted (by decide) rfl)

theorem addressHeldState_address : hostAddress addressHeldState .e0 = 0x0A000001 := by decide +kernel

/-- Outlet 0 has entered S0, and the module has its default address again. -/
theorem availabilitySettled_address : hostAddress availabilitySettled .e0 = 0xC0A80064 := by decide +kernel

/-- Refutes O36: OUTLET_AVAILABILITY while outlet 0 is in S9 with pilot A and a record 0x0102 is held under key 0. The standing
conditions bring the outlet to S0, the held record is released, and the response carries the default address where the statement
gives it the address of the state before. -/
theorem not_authorisationCommands : ¬ Obligations.AuthorisationCommands := by
  unfold Obligations.AuthorisationCommands
  rintro ⟨hcommands, -⟩
  obtain ⟨-, -, -, -, -, -, -, -, -, -, havailability, -⟩ := hcommands addressHeldState 0 availabilityRequest
  obtain ⟨t, hexec, hanswers, -⟩ := havailability (by decide) (by decide) (by decide) availabilityRequest_admitted
  obtain rfl := Host.Outcome.next.inj (availabilityRequest_completes.symm.trans hexec)
  have haddress : hostAddress availabilitySettled .e0 = hostAddress addressHeldState .e0 :=
    hostAddress_of_answers (u := availabilitySettled) (r := availabilityRequest) (code := 0x0608) hanswers
  rw [availabilitySettled_address, addressHeldState_address] at haddress
  exact absurd haddress (by decide)

end Sys2Proof.Machine

/-! # Ramp-down and the time limits of the session states (R169, R171, R184, R219)

What drive, the transitions to S8 and SE and Hedge's weld check leave in the sessions, and the statement. -/

namespace Sys2Proof.Machine

/-! ### Drive and the transitions that withdraw it (R184, R203) -/

theorem commandChannel_sess (i : Nat) (on : Bool) (s : State) : (commandChannel i on s).sess = s.sess := by
  unfold commandChannel
  dsimp only
  split
  · rfl
  · exact journal_sess ..

theorem commandContactors_sess (o : Outlet) (on : Bool) (s : State) : (commandContactors o on s).sess = s.sess :=
  foldl_keeps (·.sess) _ (fun t i => commandChannel_sess i on t) _ s

section
variable {o : Outlet} {x : Session} {s t : State} (h : SessAfter o x s t)
include h

theorem SessAfter.then_setDrive (on : Bool) : SessAfter o { x with drive := on } s (setDrive o on t) := by
  unfold setDrive
  split
  · next hon =>
    have hx : { x with drive := on } = x := by rw [← hon, h.1]
    rw [hx]
    exact h
  · have hdrive := ((h.congr (journal_sess 9 o.val (flag on) t)).then_setSess (fun x => { x with drive := on })).congr
      (commandContactors_sess o on _)
    dsimp only
    split
    · exact hdrive.congr rfl
    · exact hdrive

theorem SessAfter.then_enterS8 :
    ∃ sp n q, SessAfter o { x with setpoint := sp, setSeq := n, inForce := q, drive := false, state := .s8 } s
      (enterS8 o t) := by
  obtain ⟨sp, n, q, hput⟩ := h.then_putSetpoint setpointOff
  exact ⟨sp, n, q, ((hput.then_setDrive false).then_goTo .s8).congr (setHedge_sess ..)⟩

theorem SessAfter.then_enterSE (reason : Nat) :
    ∃ y : Session, y.drive = false ∧ y.closed = x.closed ∧
      SessAfter o { closedSession reason y with state := .se } s (enterSE o reason t) := by
  obtain ⟨sp, n, q, hput⟩ := (h.then_setDrive false).then_putSetpoint setpointOff
  exact ⟨{ x with drive := false, setpoint := sp, setSeq := n, inForce := q }, rfl, rfl,
    (hput.then_close reason).then_goTo .se⟩

end

theorem closedSession_drive (reason : Nat) (x : Session) : (closedSession reason x).drive = x.drive := by
  unfold closedSession
  split <;> rfl

/-! ### Commands that a condition guards -/

theorem carriesOut_of {c : Instr} {s t : State} {g : Prop} [Decidable g] {p : State → Prop}
    (hexec : exec c s = .next (if g then settle t else s)) (hg : g) (ht : p t) : CarriesOut c s p :=
  ⟨t, hexec.trans (congrArg Host.Outcome.next (if_pos hg)), ht⟩

theorem ignores_of {c : Instr} {s t : State} {g : Prop} [Decidable g] (hexec : exec c s = .next (if g then t else s))
    (hg : ¬g) : Ignores c s := hexec.trans (congrArg Host.Outcome.next (if_neg hg))

/-! ### The current reaches the open threshold (R169, R184) -/

section
variable {s : State} {o : Outlet}

theorem openThresholdMet_dc (h : (sessOf s o).state = .s7) (hdc : isDc s o.val = true) :
    openThresholdMet o s = enterS8 o s := (if_pos h).trans (if_pos hdc)

theorem openThresholdMet_ac (h : (sessOf s o).state = .s7) (hdc : isDc s o.val = false) :
    openThresholdMet o s = enterS9 o (closeSession o (sessOf s o).cause (setDrive o false s)) :=
  (if_pos h).trans (if_neg (ne_true_of_eq_false hdc))

theorem openThresholdMet_paused (h : (sessOf s o).state = .s6) (hpaused : (sessOf s o).paused = true)
    (hac : isAc s o.val = true) :
    openThresholdMet o s = goTo o .s3 (setSess o (fun y => { y with paused := false }) (setDrive o false s)) :=
  (if_neg (by rw [h]; decide)).trans (if_pos ⟨h, hpaused, hac⟩)

theorem openThresholdMet_other (h7 : (sessOf s o).state ≠ .s7) (h6 : (sessOf s o).state ≠ .s6) : openThresholdMet o s = s :=
  (if_neg h7).trans (if_neg fun h => h6 h.1)

end

theorem enterS8_withdraws (o : Outlet) (s : State) :
    (sessOf (enterS8 o s) o).state = .s8 ∧ (sessOf (enterS8 o s) o).drive = false := by
  obtain ⟨sp, n, q, hsess, -⟩ := (SessAfter.refl o s).then_enterS8
  rw [hsess]
  exact ⟨rfl, rfl⟩

theorem enterS9_state (o : Outlet) (s : State) : (sessOf (enterS9 o s) o).state = .s9 := by
  rw [(SessAfter.refl o s).then_enterS9.1]
  rfl

/-- A ramp-down that takes too long: drive is removed under load, and the session ends with reason 18. -/
theorem enterSE_ends (o : Outlet) (reason cause : Nat) (s : State) :
    let x := sessOf (noteCause o cause (enterSE o reason s)) o
    x.state = .se ∧ x.drive = false ∧ x.closed = true ∧ ((sessOf s o).closed = false → x.reason = reason) := by
  obtain ⟨y, hdrive, hclosed, hse⟩ := (SessAfter.refl o s).then_enterSE reason
  dsimp only
  rw [(hse.then_noteCause cause).1, ← hclosed]
  exact ⟨rfl, (closedSession_drive reason y).trans hdrive, closedSession_closed reason y, closedSession_reason⟩

/-! ### The weld check (R219) -/

theorem hedge_of_besideLink {s t : State} (h : besideLink t = besideLink s) : t.hedge = s.hedge := by
  rw [eq_of_besideLink h]

theorem goTo_hedge (o : Outlet) (y : SState) (s : State) : (goTo o y s).hedge = s.hedge := by
  have hevent (u : State) : (eventAll clsN 0x0607 (statusPayload u) u).hedge = u.hedge :=
    congrArg Vehicle.hedge (eventAll_vehicle ..)
  unfold goTo
  dsimp only
  rw [hevent, journal_eq]
  split <;> rfl

theorem closeSession_hedge (o : Outlet) (reason : Nat) (s : State) : (closeSession o reason s).hedge = s.hedge := by
  cases hclosed : (sessOf s o).closed with
  | true => rw [closeSession_of_closed reason hclosed]
  | false =>
    have hrecord : (recordClosed o reason s).hedge = s.hedge :=
      (congrArg Vehicle.hedge (closeRecord_vehicle ..)).trans (congrArg Vehicle.hedge (snapshot_vehicle ..))
    rw [closeSession_of_open reason hclosed, hedge_of_besideLink (endLink_besideLink ..), log_hedge]
    exact hrecord

theorem enterS9_hedge (o : Outlet) (s : State) : (enterS9 o s).hedge = s.hedge := by
  rw [enterS9, hedge_of_besideLink (commandGen_besideLink ..), applyAvailability, setSess_hedge, goTo_hedge]

theorem judgeWeldCheck_sess (o : Outlet) (s : State) : (judgeWeldCheck o s).sess = s.sess := by
  unfold judgeWeldCheck
  dsimp only
  split
  · exact log_sess ..
  · rfl

/-- Below 60 V through the whole check time, the check says nothing. -/
theorem judgeWeldCheck_inconclusive {s : State} {o : Outlet} (h : (s.hedge.out.get o).weldHigh < 6000) :
    ((judgeWeldCheck o s).hedge.out.get o).weldInconclusive = true := by
  rw [judgeWeldCheck, if_pos h, log_hedge, setHedge_hedge]
  simp only [PerOutlet.get_set_same]

/-- The end of the weld check: the session is closed with its cause, and its outlet is in S9. -/
theorem weldCheckEnd_closes (o : Outlet) (cause : Nat) (s : State) :
    let t := enterS9 o (closeSession o cause (judgeWeldCheck o s))
    (sessOf t o).state = .s9 ∧ (sessOf t o).closed = true ∧ ((sessOf s o).closed = false → (sessOf t o).reason = cause) ∧
      ((s.hedge.out.get o).weldHigh < 6000 → (t.hedge.out.get o).weldInconclusive = true) := by
  have hjudged := (SessAfter.refl o s).congr (judgeWeldCheck_sess o s)
  dsimp only
  rw [(hjudged.then_close cause).then_enterS9.1, enterS9_hedge, closeSession_hedge]
  exact ⟨rfl, closedSession_closed cause _, closedSession_reason, judgeWeldCheck_inconclusive⟩

/-- The limits of S4 and S5 begin the ramp-down. -/
theorem giveCause_limit {s : State} {o : Outlet} {cause : Nat} (hstate : (sessOf s o).state = .s4 ∨ (sessOf s o).state = .s5)
    (hcause : cause = 16 ∨ cause = 17) : (sessOf (giveCause o cause s) o).state = .s7 := by
  have happlies : causeApplies s o cause = true := by rcases hcause with rfl | rfl <;> simp [causeApplies]
  have hramp : cause ∈ rampCauses := by rcases hcause with rfl | rfl <;> decide
  obtain ⟨hs7, -⟩ := giveCause_ramp happlies (hstate.imp_right .inl) hramp
  exact hs7

/-! ### The statement -/

/-- Settles O37, command by command, from what the transitions leave in the session. -/
theorem sessionLimitCommands : Obligations.SessionLimitCommands := by
  unfold Obligations.SessionLimitCommands
  intro s o
  refine ⟨fun hrun h => carriesOut_of rfl ⟨hrun, h⟩ rfl, fun h => ?_, fun hrun h hdc => ?_, fun hrun h hdc => ?_,
    fun hrun h hpaused hac => ?_, fun hrun h7 h6 => carriesOut_of rfl hrun (openThresholdMet_other h7 h6),
    fun hrun h => carriesOut_of rfl ⟨hrun, h⟩ (enterSE_ends o 18 18 s),
    fun hrun h => carriesOut_of rfl ⟨hrun, h⟩ ⟨rfl, giveCause_limit (.inl h) (.inl rfl)⟩,
    fun h => ignores_of rfl fun hg => h hg.2,
    fun hrun h => carriesOut_of rfl ⟨hrun, h⟩ ⟨rfl, giveCause_limit (.inr h) (.inr rfl)⟩,
    fun h => ignores_of rfl fun hg => h hg.2,
    fun hrun h => carriesOut_of rfl ⟨hrun, h⟩ (weldCheckEnd_closes o _ s), fun h => ignores_of rfl fun hg => h hg.2⟩
  · have hno : ¬ (domainRuns s = true ∧ (sessOf s o).state = .s7) := by
      rintro ⟨hrun, h7⟩
      rcases h with h | h
      · simp [h] at hrun
      · exact h h7
    exact ⟨ignores_of rfl hno, ignores_of rfl hno⟩
  · exact carriesOut_of rfl hrun ⟨openThresholdMet_dc h hdc, openThresholdMet_dc h hdc ▸ enterS8_withdraws o s⟩
  · exact carriesOut_of rfl hrun ⟨openThresholdMet_ac h hdc, openThresholdMet_ac h hdc ▸ enterS9_state o _⟩
  · refine carriesOut_of rfl hrun ?_
    have hs3 := (((SessAfter.refl o s).then_setDrive false).then_setSess (fun y => { y with paused := false })).then_goTo .s3
    rw [openThresholdMet_paused h hpaused hac, hs3.1]
    exact ⟨rfl, rfl, rfl, rfl⟩

end Sys2Proof.Machine

/-! # The converter bus (R185 to R187, R189, R211, R222)

What is sent to the converters and read from them, the setpoint gate, and the statement. -/

namespace Sys2Proof.Machine

theorem completes_of {c : Instr} {s t : State} {g : Prop} [Decidable g] {p : State → Prop}
    (hexec : exec c s = .next (if g then t else s)) (hg : g) (ht : p t) : Completes c s p :=
  ⟨t, hexec.trans (congrArg Host.Outcome.next (if_pos hg)), ht⟩

/-! ### Status and limits frames (R187, R189) -/

/-- The state in which a status frame has been read into its outlet's converter. -/
def statusRead (f : CanFrame) (s : State) (o : Outlet) : State :=
  draw (draw (draw (draw (setConv o (fun _ => readStatus s o f) s))))

theorem setConv_get (o : Outlet) (f : Converter → Converter) (s : State) :
    (setConv o f s).sess.conv.get o = f (s.sess.conv.get o) := PerOutlet.get_set_same _ _ _

theorem statusRead_conv (f : CanFrame) (s : State) (o : Outlet) : (statusRead f s o).sess.conv.get o = readStatus s o f :=
  setConv_get o (fun _ => readStatus s o f) s

/-- A frame that reports another state than 6 is read, and that is all. -/
theorem takeStatus_normal {f : CanFrame} {s : State} {o : Outlet} (h : (readStatus s o f).state ≠ 6) :
    takeStatus f s o = statusRead f s o := if_pos (by rwa [← statusRead_conv] at h)

/-- A repeated frame in state 6 is cause 7, without an entry. -/
theorem takeStatus_again {f : CanFrame} {s : State} {o : Outlet} (h : (readStatus s o f).state = 6)
    (hwas : (s.sess.conv.get o).state = 6) (hrun : domainRuns s = true) :
    takeStatus f s o = giveCause o 7 (statusRead f s o) := by
  have hnow : ¬ ((statusRead f s o).sess.conv.get o).state ≠ 6 := by rwa [statusRead_conv, Decidable.not_not]
  refine (if_neg hnow).trans ?_
  rw [← statusRead, if_pos hwas]
  exact if_pos hrun

/-- A limits frame: the converter is as read, and its coolant temperature counts for the outlet; sessions and outputs stay. -/
theorem takeLimits_reads (f : CanFrame) (s : State) (o : Outlet) :
    let t := takeLimits f s o
    t.sess.conv.get o = readLimits s o f ∧ (∀ y, y ≠ o → t.sess.conv.get y = s.sess.conv.get y) ∧
      (∀ v, (readLimits s o f).coolant = some v → t.energy.coolant.get o = some v) ∧ t.sess.out = s.sess.out ∧
      t.out = s.out := by
  dsimp only
  unfold takeLimits
  dsimp only
  split
  · next v hv =>
    refine ⟨PerOutlet.get_set_same _ _ _, fun y hy => PerOutlet.get_set_other _ _ _ _ hy, fun w hw => ?_, rfl, rfl⟩
    rw [setEnergy_energy]
    exact (PerOutlet.get_set_same _ _ _).trans (hv.symm.trans hw)
  · next hnone =>
    refine ⟨PerOutlet.get_set_same _ _ _, fun y hy => PerOutlet.get_set_other _ _ _ _ hy, fun w hw => ?_, rfl, rfl⟩
    rw [hnone] at hw
    cases hw

/-- A converter that is lost: it is marked, and entry 0x0605 tells its last fault and state. -/
theorem converterLost_logged (o : Outlet) (s : State) :
    let c := s.sess.conv.get o
    let t := logConverter o (setConv o (fun c => { c with lost := true }) s)
    t.sess.conv.get o = { c with lost := true } ∧ t.logs.general.head? = some (newEntry s 0 0x06 0x0605
      ([byte o.val, byte (convChannel s o.val)] ++ leBytes 2 c.fault ++ [byte c.state] ++ zeros 11)) := by
  dsimp only
  unfold logConverter
  dsimp only
  rw [log_sess, log_general_head, setConv_get]
  exact ⟨rfl, congrArg some (newEntry_congr _ _ _ _ rfl rfl)⟩

/-! ### Sending (R185, R186, R190, R211) -/

/-- The state with the outputs and the frames that wait behind a trip frame left out. -/
def besideCan (t : State) : State := { t with out := [], sess := { t.sess with canQueue := [] } }

theorem eq_of_besideCan {s t : State} (h : besideCan t = besideCan s) :
    t = { s with out := t.out, sess := { s.sess with canQueue := t.sess.canQueue } } :=
  congrArg (fun u : State => { u with out := t.out, sess := { u.sess with canQueue := t.sess.canQueue } }) h

theorem sendCan_besideCan (f : CanOut) (s : State) : besideCan (sendCan f s) = besideCan s := by
  unfold sendCan
  split <;> rfl

theorem sendNative_besideCan (channel code addr : Nat) (data : List Byte) (urgent : Bool) (s : State) :
    besideCan (sendNative channel code addr data urgent s) = besideCan s :=
  foldl_keeps besideCan _ (fun t f => sendCan_besideCan f t) _ s

theorem sendCan_free {s : State} (f : CanOut) (h : s.sess.tripWait = none) : sendCan f s = emit (.can f) s := by
  simp [sendCan, h]

theorem sendCan_urgent {f : CanOut} (s : State) (h : f.urgent = true) : sendCan f s = emit (.can f) s := by
  simp [sendCan, h]

theorem sendCan_queued {s : State} {f : CanOut} (h : s.sess.tripWait ≠ none) (hf : f.urgent = false) :
    sendCan f s = { s with sess := { s.sess with canQueue := s.sess.canQueue ++ [f] } } := by
  simp [sendCan, Option.isSome_iff_ne_none.mpr h, hf]

/-- Without an entry of the converter map, a message is one native frame. -/
theorem sendNative_unmapped {s : State} {code : Nat} (channel addr : Nat) (data : List Byte) (urgent : Bool)
    (h : mapEntries s code = []) :
    sendNative channel code addr data urgent s = sendCan ⟨channel, false, code * 16 + addr, data, urgent⟩ s := by
  rw [sendNative, nativeFrames, h]
  rfl

theorem mapEntries_congr {s t : State} (h : t.cfg = s.cfg) (code : Nat) : mapEntries t code = mapEntries s code := by
  rw [mapEntries, mapEntries, h]

/-- Without the converter map, a message on both channels is a frame on channel 0 and one on channel 1. -/
theorem sendNative_both {s : State} {code : Nat} (addr : Nat) (d0 d1 : List Byte) (urgent : Bool) (h : mapEntries s code = []) :
    sendNative 1 code addr d1 urgent (sendNative 0 code addr d0 urgent s) =
      sendCan ⟨1, false, code * 16 + addr, d1, urgent⟩ (sendCan ⟨0, false, code * 16 + addr, d0, urgent⟩ s) := by
  have hcfg : (sendNative 0 code addr d0 urgent s).cfg = s.cfg := by
    rw [eq_of_besideCan (sendNative_besideCan 0 code addr d0 urgent s)]
  rw [sendNative_unmapped 1 addr d1 urgent ((mapEntries_congr hcfg code).trans h), sendNative_unmapped 0 addr d0 urgent h]

/-! ### The heartbeat (R186) -/

/-- Data of the heartbeat on a channel. -/
def heartbeatData (s : State) (channel : Nat) : List Byte :=
  [s.sess.heartbeat, 0] ++ leBytes 2 (runMask s channel) ++ wordBytes 4 s.sun.cycle

/-- The state in which the heartbeat is on its way on both channels, before it counts. -/
def heartbeatSent (s : State) : State :=
  sendNative 1 1 0 (heartbeatData s 1) false (sendNative 0 1 0 (heartbeatData s 0) false s)

theorem sendHeartbeat_eq (s : State) :
    sendHeartbeat s = { s with
      out := (heartbeatSent s).out
      sess := { s.sess with heartbeat := s.sess.heartbeat + 1, canQueue := (heartbeatSent s).sess.canQueue } } := by
  have hsent : besideCan (heartbeatSent s) = besideCan s := (sendNative_besideCan ..).trans (sendNative_besideCan ..)
  calc sendHeartbeat s
      = { heartbeatSent s with
          sess := { (heartbeatSent s).sess with heartbeat := (heartbeatSent s).sess.heartbeat + 1 } } := rfl
    _ = _ := by rw [eq_of_besideCan hsent]

theorem heartbeatSent_unmapped {s : State} (h : mapEntries s 1 = []) :
    heartbeatSent s = sendCan ⟨1, false, 0x010, heartbeatData s 1, false⟩
      (sendCan ⟨0, false, 0x010, heartbeatData s 0, false⟩ s) :=
  sendNative_both 0 _ _ false h

theorem heartbeatSent_free {s : State} (h : mapEntries s 1 = []) (hfree : s.sess.tripWait = none) :
    heartbeatSent s = emit (.can ⟨1, false, 0x010, heartbeatData s 1, false⟩)
      (emit (.can ⟨0, false, 0x010, heartbeatData s 0, false⟩) s) := by
  rw [heartbeatSent_unmapped h, sendCan_free _ hfree]
  exact sendCan_free _ hfree

/-- While a trip frame waits to start, the heartbeat waits behind it. -/
theorem heartbeatSent_queued {s : State} (h : mapEntries s 1 = []) (hwait : s.sess.tripWait ≠ none) :
    (heartbeatSent s).out = s.out ∧ (heartbeatSent s).sess.canQueue =
      s.sess.canQueue ++ [⟨0, false, 0x010, heartbeatData s 0, false⟩, ⟨1, false, 0x010, heartbeatData s 1, false⟩] := by
  rw [heartbeatSent_unmapped h, sendCan_queued hwait rfl, sendCan_queued (by exact hwait) rfl]
  exact ⟨rfl, List.append_assoc _ _ _⟩

/-! ### Trip frames (R211) -/

theorem foldl_emitCan (l : List CanOut) (s : State) :
    l.foldl (fun u f => emit (.can f) u) s = { s with out := (l.map Out.can).reverse ++ s.out } := by
  induction l generalizing s with
  | nil => rfl
  | cons f l ih =>
    rw [List.foldl_cons, ih]
    simp [emit]

/-- A trip frame goes out on both channels, and what waited behind it follows. -/
theorem sendTripFrame_unmapped {s : State} (w : TripWait) (h : mapEntries s 0 = []) :
    let data := leBytes 2 w.mask ++ [byte w.reason, w.counter] ++ zeros 4
    sendTripFrame w s = { s with
      sess := { s.sess with tripWait := none, canQueue := [] }
      out := (s.sess.canQueue.map Out.can).reverse ++
        .can ⟨1, false, 0, data, true⟩ :: .can ⟨0, false, 0, data, true⟩ :: s.out } := by
  dsimp only
  rw [sendTripFrame, foldl_emitCan, sendNative_both 0 _ _ true h, sendCan_urgent _ rfl, sendCan_urgent _ rfl]
  rfl

/-! ### The setpoint gate (R222) -/

theorem cfgN_congr {s t : State} (h : t.cfg = s.cfg) (type key off n dflt : Nat) :
    cfgN t type key off n dflt = cfgN s type key off n dflt := by
  have hforce : inForce t type key = inForce s type key := by rw [inForce, inForce, h]
  rw [cfgN, cfgN, hforce]

/-- The gate looks at the configuration, Scarecrow, the mean voltage, and the state and allocation of the outlet's session. -/
theorem gatePasses_congr {s t : State} {o : Outlet} (p : Setpoint) (hcfg : t.cfg = s.cfg) (hhedge : t.hedge = s.hedge)
    (henergy : t.energy = s.energy) (hstate : (sessOf t o).state = (sessOf s o).state)
    (halloc : (sessOf t o).alloc = (sessOf s o).alloc) : gatePasses t o p = gatePasses s o p := by
  have hcurrent : gateCurrent t o = gateCurrent s o := by
    simp only [gateCurrent, allocCurrent, meanVolts, ratedCurrent, cfgN_congr hcfg, hhedge, henergy, halloc]
  have hvoltage : ratedVoltage t o = ratedVoltage s o := cfgN_congr hcfg ..
  rw [gatePasses, gatePasses, currentPasses, currentPasses, hcurrent, hvoltage, hstate]

/-- A check that acts without cutting leaves the ramp-down request standing, and sends nothing. -/
theorem scrAction_ramps (o : Outlet) (row : Nat) (measured limit : List Byte) (s : State) :
    ((scrAction o row false measured limit s).hedge.scr.get o).ramp = true ∧
      (scrAction o row false measured limit s).out = s.out := by
  by_cases h : (s.hedge.scr.get o).ramp = true
  · have hstays : scrAction o row false measured limit s = s := if_pos h
    rw [hstays]
    exact ⟨h, rfl⟩
  · have hacts : scrAction o row false measured limit s =
        log 0 0x07 0x0706 ([byte o.val, byte row, byte (flag false), 0] ++ measured ++ limit ++ zeros 4) false
          (setScr o (fun x => { x with ramp := true }) s) := if_neg h
    rw [hacts, log_hedge, log_out, setScr_hedge]
    simp only [PerOutlet.get_set_same, setScr_out, and_self]

theorem withhold_ramps (o : Outlet) (p : Setpoint) (s : State) :
    ((withhold o p s).hedge.scr.get o).ramp = true ∧ (withhold o p s).out = s.out := by
  unfold withhold
  split
  · exact scrAction_ramps ..
  · split
    · exact scrAction_ramps ..
    · exact scrAction_ramps ..

theorem releaseSetpoint_passes {s : State} {o : Outlet} (h : gatePasses s o (sessOf s o).setpoint = true) :
    releaseSetpoint o s = sendSetpoint o (setSess o (fun x => { x with inForce := x.setpoint }) s) := if_pos h

theorem releaseSetpoint_withheld {s : State} {o : Outlet} (h : gatePasses s o (sessOf s o).setpoint = false) :
    releaseSetpoint o s = withhold o (sessOf s o).setpoint s := if_neg (ne_true_of_eq_false h)

/-- The state in which a new setpoint of an outlet stands, before it meets the gate. -/
def setpointChanged (o : Outlet) (p : Setpoint) (s : State) : State :=
  setSess o (fun x => { x with setpoint := p, setSeq := x.setSeq + 1 })
    (journal 2 o.val ((sessOf s o).setSeq + 1).toNat s)

theorem putSetpoint_new {s : State} {o : Outlet} {p : Setpoint} (hdc : isDc s o.val = true) (hp : (sessOf s o).setpoint ≠ p) :
    putSetpoint o p s = releaseSetpoint o (setpointChanged o p s) := if_neg (by simp [hdc, hp])

theorem setpointChanged_sess (o : Outlet) (p : Setpoint) (s : State) :
    SessAfter o { sessOf s o with setpoint := p, setSeq := (sessOf s o).setSeq + 1 } s (setpointChanged o p s) :=
  ((SessAfter.refl o s).congr (journal_sess ..)).then_setSess _

theorem setpointChanged_gate (o : Outlet) (p : Setpoint) (s : State) :
    gatePasses (setpointChanged o p s) o p = gatePasses s o p := by
  refine gatePasses_congr p ?_ ?_ ?_ (by rw [(setpointChanged_sess o p s).1]) (by rw [(setpointChanged_sess o p s).1]) <;>
    rw [setpointChanged, journal_eq] <;> rfl

/-- A new setpoint is counted; the converter has it in force once the gate lets it through. -/
theorem putSetpoint_gated {s : State} {o : Outlet} {p : Setpoint} (hdc : isDc s o.val = true) (hp : (sessOf s o).setpoint ≠ p) :
    let x := sessOf (putSetpoint o p s) o
    x.setpoint = p ∧ x.setSeq = (sessOf s o).setSeq + 1 ∧ (gatePasses s o p = true → x.inForce = p) ∧
      (gatePasses s o p = false → x.inForce = (sessOf s o).inForce) := by
  have hchanged := setpointChanged_sess o p s
  have hgate : gatePasses (setpointChanged o p s) o (sessOf (setpointChanged o p s) o).setpoint = gatePasses s o p := by
    rw [hchanged.1]
    exact setpointChanged_gate o p s
  dsimp only
  rw [putSetpoint_new hdc hp]
  cases hpass : gatePasses s o p with
  | true =>
    have hsent := (hchanged.then_setSess (fun x => { x with inForce := x.setpoint })).congr_out
      (sendSetpoint_sessions o _)
    rw [releaseSetpoint_passes (hgate.trans hpass), hsent.1]
    exact ⟨rfl, rfl, fun _ => rfl, nofun⟩
  | false =>
    have hheld := hchanged.congr (withhold_sess o (sessOf (setpointChanged o p s) o).setpoint (setpointChanged o p s))
    rw [releaseSetpoint_withheld (hgate.trans hpass), hheld.1]
    exact ⟨rfl, rfl, nofun, fun _ => rfl⟩

/-! ### The commands, case by case -/

section
variable {s : State} {o : Outlet} {f : CanFrame}

theorem converterStatusFrame_normal (hup : up s = true) (hframe : frameOutlets s 8 f = [o])
    (hstate : (readStatus s o f).state ≠ 6) : CarriesOut (.converterStatusFrame f) s (fun t =>
      t.sess.conv.get o = readStatus s o f ∧ (∀ y, y ≠ o → t.sess.conv.get y = s.sess.conv.get y) ∧
        t.sess.out = s.sess.out ∧ t.logs = s.logs) := by
  refine carriesOut_of rfl hup ?_
  rw [hframe, List.foldl_cons, List.foldl_nil, takeStatus_normal hstate]
  exact ⟨statusRead_conv f s o, fun y hy => PerOutlet.get_set_other _ _ _ _ hy, rfl, rfl⟩

theorem converterStatusFrame_again (hup : up s = true) (hframe : frameOutlets s 8 f = [o])
    (hstate : (readStatus s o f).state = 6) (hwas : (s.sess.conv.get o).state = 6) (hrun : domainRuns s = true) :
    CarriesOut (.converterStatusFrame f) s (fun t => ∃ u : State, t = giveCause o 7 u ∧
      u.sess.conv.get o = readStatus s o f ∧ u.sess.out = s.sess.out ∧ u.logs = s.logs) := by
  refine carriesOut_of rfl hup ?_
  rw [hframe, List.foldl_cons, List.foldl_nil, takeStatus_again hstate hwas hrun]
  exact ⟨_, rfl, statusRead_conv f s o, rfl, rfl⟩

theorem converterLimitsFrame_reads (hup : up s = true) (hframe : frameOutlets s 9 f = [o]) :
    Completes (.converterLimitsFrame f) s (fun t =>
      t.sess.conv.get o = readLimits s o f ∧ (∀ y, y ≠ o → t.sess.conv.get y = s.sess.conv.get y) ∧
      (∀ v, (readLimits s o f).coolant = some v → t.energy.coolant.get o = some v) ∧ t.sess.out = s.sess.out ∧
      t.out = s.out) := by
  refine completes_of rfl hup ?_
  rw [hframe, List.foldl_cons, List.foldl_nil]
  exact takeLimits_reads f s o

theorem converterLimitsFrame_ignores (hframe : frameOutlets s 9 f = []) : Ignores (.converterLimitsFrame f) s := by
  refine congrArg Host.Outcome.next ?_
  rw [hframe, List.foldl_nil, ite_self]

theorem converterLost_ignores (h : up s = false ∨ isDc s o.val = false ∨ (s.sess.conv.get o).lost = true) :
    Ignores (.converterLost o) s := by
  refine ignores_of rfl fun ⟨hup, hdc, hlost⟩ => ?_
  rcases h with h | h | h
  · simp [h] at hup
  · simp [h] at hdc
  · exact Bool.noConfusion (h.symm.trans hlost)

theorem sequenceEchoLag_due (lag : Nat) (hup : up s = true) (hdc : isDc s o.val = true)
    (hdue : (s.sess.conv.get o).lagLog = none ∨ ∃ y, (s.sess.conv.get o).lagLog = some y ∧ y + 60000 ≤ s.clockMs) :
    let c := s.sess.conv.get o
    Completes (.sequenceEchoLag o lag) s (fun t =>
      t.sess.conv.get o = { c with lags := 0, longest := 0, lagLog := some s.clockMs } ∧
      t.logs.general.head? = some (newEntry s 0 0x06 0x0606
        ([byte o.val, byte (convChannel s o.val), (sessOf s o).setSeq, byte c.echo] ++ leBytes 4 (c.lags + 1) ++
          leBytes 4 (max c.longest lag) ++ zeros 4))) := by
  have helapsed : (s.sess.conv.get o).lagLog.elim true (fun t => decide (t + 60000 ≤ s.clockMs)) = true := by
    rcases hdue with h | ⟨y, h, hy⟩
    · rw [h, Option.elim_none]
    · rwa [h, Option.elim_some, decide_eq_true_eq]
  refine completes_of rfl ⟨hup, hdc⟩ ?_
  dsimp only
  rw [if_pos helapsed, setConv_get, setConv_logs, log_general_head, log_sess]
  exact ⟨rfl, rfl⟩

theorem sequenceEchoLag_counts (lag : Nat) (hup : up s = true) (hdc : isDc s o.val = true) {y : Nat}
    (hlast : (s.sess.conv.get o).lagLog = some y) (hsoon : s.clockMs < y + 60000) :
    Completes (.sequenceEchoLag o lag) s (fun t =>
      t = setConv o (fun c => { c with lags := c.lags + 1, longest := max c.longest lag }) s) := by
  have hearly : ¬ (s.sess.conv.get o).lagLog.elim true (fun t => decide (t + 60000 ≤ s.clockMs)) = true := by
    rwa [hlast, Option.elim_some, decide_eq_true_eq, Nat.not_le]
  refine completes_of rfl ⟨hup, hdc⟩ ?_
  dsimp only
  rw [if_neg hearly]
  rfl

theorem heartbeat_beats (hup : up s = true) : Completes .heartbeat s (fun t =>
    t.sess = { s.sess with heartbeat := s.sess.heartbeat + 1, canQueue := t.sess.canQueue } ∧ t.logs = s.logs ∧
    (mapEntries s 1 = [] →
      let f0 : CanOut := ⟨0, false, 0x010, heartbeatData s 0, false⟩
      let f1 : CanOut := ⟨1, false, 0x010, heartbeatData s 1, false⟩
      (s.sess.tripWait = none → t.out = .can f1 :: .can f0 :: s.out ∧ t.sess.canQueue = s.sess.canQueue) ∧
      (s.sess.tripWait ≠ none → t.out = s.out ∧ t.sess.canQueue = s.sess.canQueue ++ [f0, f1]))) := by
  refine completes_of rfl hup ?_
  rw [sendHeartbeat_eq]
  refine ⟨rfl, rfl, fun hmap => ⟨fun hfree => ?_, heartbeatSent_queued hmap⟩⟩
  rw [heartbeatSent_free hmap hfree]
  exact ⟨rfl, rfl⟩

theorem setpointRepeat_withheld (hrun : domainRuns s = true) (hdc : isDc s o.val = true)
    (hgate : gatePasses s o (sessOf s o).setpoint = false) : CarriesOut (.setpointRepeat o) s (fun t =>
      t.out = s.out ∧ (sessOf t o).inForce = (sessOf s o).inForce ∧ (t.hedge.scr.get o).ramp = true) := by
  obtain ⟨hramp, hout⟩ := withhold_ramps o (sessOf s o).setpoint s
  have hsess := (SessAfter.refl o s).congr (withhold_sess o (sessOf s o).setpoint s)
  refine carriesOut_of rfl ⟨hrun, hdc⟩ ?_
  rw [releaseSetpoint_withheld hgate, hsess.1]
  exact ⟨hout, rfl, hramp⟩

theorem setpoint_ignores (p : Setpoint) (h : domainRuns s = false ∨ isDc s o.val = false) :
    Ignores (.setpointRepeat o) s ∧ Ignores (.setpointSend o p) s := by
  have hno : ¬ (domainRuns s = true ∧ isDc s o.val = true) := by
    rintro ⟨hrun, hdc⟩
    rcases h with h | h
    · simp [h] at hrun
    · simp [h] at hdc
  exact ⟨ignores_of rfl hno, ignores_of rfl hno⟩

theorem setpointSend_new {p : Setpoint} (hrun : domainRuns s = true) (hdc : isDc s o.val = true)
    (hp : (sessOf s o).setpoint ≠ p) : CarriesOut (.setpointSend o p) s (fun t =>
      (sessOf t o).setpoint = p ∧ (sessOf t o).setSeq = (sessOf s o).setSeq + 1 ∧
      (gatePasses s o p = true → (sessOf t o).inForce = p) ∧
      (gatePasses s o p = false → (sessOf t o).inForce = (sessOf s o).inForce)) := by
  refine carriesOut_of rfl ⟨hrun, hdc⟩ ?_
  rw [if_neg hp]
  exact putSetpoint_gated hdc hp

theorem tripFrame_goes {w : TripWait} (hwait : s.sess.tripWait = some w) (hup : up s = true) (hmap : mapEntries s 0 = []) :
    let data := leBytes 2 w.mask ++ [byte w.reason, w.counter] ++ zeros 4
    Completes (.tripFrame true) s (fun t => t = { s with
      sess := { s.sess with tripWait := none, canQueue := [] }
      out := (s.sess.canQueue.map Out.can).reverse ++
        .can ⟨1, false, 0, data, true⟩ :: .can ⟨0, false, 0, data, true⟩ :: s.out }) := by
  refine ⟨sendTripFrame w s, congrArg Host.Outcome.next ?_, sendTripFrame_unmapped w hmap⟩
  rw [hwait]
  exact if_pos ⟨hup, rfl⟩

theorem tripFrame_ignores {started : Bool} (h : s.sess.tripWait = none ∨ up s = false ∨ started = false) :
    Ignores (.tripFrame started) s := by
  refine congrArg Host.Outcome.next ?_
  split
  · next w hw =>
    refine if_neg fun ⟨hup, hstarted⟩ => ?_
    rcases h with h | h | h
    · rw [hw] at h
      cases h
    · simp [h] at hup
    · simp [h] at hstarted
  · rfl

end

/-! ### The statement -/

/-- Settles O38, command by command and case by case. -/
theorem converterCommands : Obligations.ConverterCommands := by
  unfold Obligations.ConverterCommands
  intro s o f lag p started
  refine ⟨converterStatusFrame_normal, converterStatusFrame_again, fun hup hframe => carriesOut_of rfl hup ?_,
    converterLimitsFrame_reads, converterLimitsFrame_ignores, fun hdown => ?_,
    fun hup hdc hlost => carriesOut_of rfl ⟨hup, hdc, hlost⟩ (converterLost_logged o s), converterLost_ignores,
    fun hup hdc => ⟨sequenceEchoLag_due lag hup hdc, fun y => sequenceEchoLag_counts lag hup hdc⟩, heartbeat_beats,
    fun hrun hdc hgate => carriesOut_of rfl ⟨hrun, hdc⟩ (releaseSetpoint_passes hgate), setpointRepeat_withheld,
    setpoint_ignores p, setpointSend_new, fun w => tripFrame_goes, tripFrame_ignores⟩
  · rw [hframe, List.foldl_nil]
  · have hno : ¬ up s = true := ne_true_of_eq_false hdown
    exact ⟨ignores_of rfl hno, ignores_of rfl hno, ignores_of rfl hno⟩

end Sys2Proof.Machine

/-! # Power allocation (R191 to R195, R197)

What an allocation that comes into force touches, what the demand of an outlet depends on, and the statement. -/

namespace Sys2Proof.Machine

/-! ### What the demand of an outlet depends on (R191) -/

/-- Two states agree on an outlet: on its session, converter and link, and on the configuration. -/
structure SameOutlet (y : Outlet) (s t : State) : Prop where
  sess : sessOf t y = sessOf s y
  conv : t.sess.conv.get y = s.sess.conv.get y
  link : t.link.get y = s.link.get y
  cfg : t.cfg = s.cfg

theorem SameOutlet.refl (y : Outlet) (s : State) : SameOutlet y s s := ⟨rfl, rfl, rfl, rfl⟩

theorem SameOutlet.trans {y : Outlet} {s t u : State} (h : SameOutlet y s t) (g : SameOutlet y t u) : SameOutlet y s u :=
  ⟨g.sess.trans h.sess, g.conv.trans h.conv, g.link.trans h.link, g.cfg.trans h.cfg⟩

section
variable {y : Outlet} {s t : State} (h : SameOutlet y s t)
include h

theorem SameOutlet.outletType : outletType t y.val = outletType s y.val := outletType_congr h.cfg _

theorem SameOutlet.dutyOutlet : dutyOutlet t y = dutyOutlet s y := by
  rw [Machine.dutyOutlet, Machine.dutyOutlet, h.outletType, h.link]

theorem SameOutlet.cableRating : cableRating t y = cableRating s y := by
  have hfield (off dflt : Nat) : linkField t y off dflt = linkField s y off dflt := cfgN_congr h.cfg ..
  rw [Machine.cableRating, Machine.cableRating, hfield, hfield, h.link]

theorem SameOutlet.phasesDrawn : phasesDrawn t y = phasesDrawn s y := by
  rw [Machine.phasesDrawn, Machine.phasesDrawn, singlePhase, singlePhase, h.cfg, h.sess]

theorem SameOutlet.dcDemand : dcDemand t y = dcDemand s y := by
  simp only [Machine.dcDemand, dcCap, ratedPower, cfgN_congr h.cfg, h.sess, h.conv]

theorem SameOutlet.acDemand : acDemand t y = acDemand s y := by
  simp only [Machine.acDemand, h.cableRating, ratedCurrent, nominalVolts, cfgN_congr h.cfg, h.sess, h.dutyOutlet, h.phasesDrawn]

theorem SameOutlet.outletDemand : outletDemand t y = outletDemand s y := by
  rw [Machine.outletDemand, Machine.outletDemand, isDc, isDc, isAc, isAc, h.outletType, h.sess, h.dcDemand, h.acDemand]

end

/-! ### What acts on one outlet leaves the others as they are (R183, R191, R222) -/

theorem sameOutlet_of {y : Outlet} {s t : State} (hsess : t.sess = s.sess) (hlink : t.link = s.link) (hcfg : t.cfg = s.cfg) :
    SameOutlet y s t := ⟨by rw [sessOf, sessOf, hsess], by rw [hsess], by rw [hlink], hcfg⟩

theorem sameOutlet_journal (y : Outlet) (kind object seq : Nat) (s : State) : SameOutlet y s (journal kind object seq s) := by
  rw [journal_eq]
  exact sameOutlet_of rfl rfl rfl

theorem sameOutlet_setScr (o y : Outlet) (f : Scarecrow → Scarecrow) (s : State) : SameOutlet y s (setScr o f s) :=
  sameOutlet_of rfl rfl rfl

theorem sameOutlet_scrAction (o y : Outlet) (row : Nat) (cuts : Bool) (measured limit : List Byte) (s : State) :
    SameOutlet y s (scrAction o row cuts measured limit s) := by
  by_cases h : (if cuts then (s.hedge.scr.get o).cut else (s.hedge.scr.get o).ramp) = true
  · exact sameOutlet_of (scrAction_sess ..) (congrArg State.link (if_pos h)) (congrArg State.cfg (if_pos h))
  · exact sameOutlet_of (scrAction_sess ..) ((congrArg State.link (if_neg h)).trans (log_link ..))
      ((congrArg State.cfg (if_neg h)).trans (log_cfg ..))

theorem sameOutlet_withhold (o y : Outlet) (p : Setpoint) (s : State) : SameOutlet y s (withhold o p s) := by
  unfold withhold
  split
  · exact sameOutlet_scrAction ..
  · split
    · exact sameOutlet_scrAction ..
    · exact (sameOutlet_scrAction ..).trans (sameOutlet_of rfl rfl rfl)

theorem sameOutlet_sendSetpoint (o y : Outlet) (s : State) : SameOutlet y s (sendSetpoint o s) := by
  rw [sendSetpoint, eq_of_besideCan (sendNative_besideCan ..)]
  exact ⟨rfl, rfl, rfl, rfl⟩

section
variable {o y : Outlet} (hy : y ≠ o)
include hy

theorem sameOutlet_setSess (f : Session → Session) (s : State) : SameOutlet y s (setSess o f s) :=
  ⟨PerOutlet.get_set_other _ _ _ _ hy, rfl, rfl, rfl⟩

theorem sameOutlet_setLink (f : Link → Link) (s : State) : SameOutlet y s (setLink o f s) :=
  ⟨rfl, rfl, PerOutlet.get_set_other _ _ _ _ hy, rfl⟩

theorem sameOutlet_commandGen (g : Generator) (s : State) : SameOutlet y s (commandGen o g s) := by
  rcases commandGen_cases o g s with h | h
  · rw [h]
    exact sameOutlet_setLink hy _ s
  · rw [h]
    exact (sameOutlet_setLink hy _ s).trans (sameOutlet_setLink hy _ _)

theorem sameOutlet_writeReply (f : StandingFields) (s : State) : SameOutlet y s (writeReply o f s) := by
  have hwritten := fun n => (sameOutlet_journal y 3 o.val n s).trans
    (sameOutlet_setLink hy (fun l => { l with reply := f, replyGen := l.replyGen + 2, replyOver := false }) _)
  unfold writeReply
  dsimp only
  split
  · exact (hwritten _).trans (sameOutlet_commandGen hy _ _)
  · exact hwritten _

theorem sameOutlet_renewReply (s : State) : SameOutlet y s (renewReply o s) := by
  unfold renewReply
  split
  · exact sameOutlet_writeReply hy ..
  · exact .refl y s

theorem sameOutlet_freshReply (s : State) : SameOutlet y s (freshReply o s) := by
  unfold freshReply
  split
  · exact sameOutlet_writeReply hy ..
  · exact .refl y s

theorem sameOutlet_releaseSetpoint (s : State) : SameOutlet y s (releaseSetpoint o s) := by
  unfold releaseSetpoint
  dsimp only
  split
  · exact (sameOutlet_setSess hy _ s).trans (sameOutlet_sendSetpoint ..)
  · exact sameOutlet_withhold ..

theorem sameOutlet_putSetpoint (p : Setpoint) (s : State) : SameOutlet y s (putSetpoint o p s) := by
  unfold putSetpoint
  split
  · exact .refl y s
  · exact ((sameOutlet_journal ..).trans (sameOutlet_setSess hy _ _)).trans (sameOutlet_releaseSetpoint hy _)

theorem sameOutlet_updateSet (s : State) : SameOutlet y s (updateSet o s) := by
  unfold updateSet
  dsimp only
  split
  · split
    · exact (sameOutlet_putSetpoint hy _ s).trans (sameOutlet_freshReply hy _)
    · exact (sameOutlet_freshReply hy s).trans (sameOutlet_putSetpoint hy _ _)
  · unfold followReply
    split
    · exact .refl y s
    · exact sameOutlet_renewReply hy s

theorem sameOutlet_takeAlloc (w : Int) (s : State) : SameOutlet y s (takeAlloc o w s) := by
  unfold takeAlloc
  dsimp only
  split
  · exact sameOutlet_setSess hy _ s
  · exact ((sameOutlet_setSess hy _ s).trans (sameOutlet_setScr ..)).trans (sameOutlet_updateSet hy _)

end

/-! ### An allocation comes into force (R191, R195) -/

theorem freshReply_sess (o : Outlet) (s : State) : (freshReply o s).sess = s.sess := by
  unfold freshReply
  split
  · exact writeReply_sess ..
  · rfl

theorem followReply_sess (o : Outlet) (s : State) : (followReply o s).sess = s.sess := by
  unfold followReply
  split
  · rfl
  · exact renewReply_sess ..

theorem putSetpoint_alloc (o : Outlet) (p : Setpoint) (s : State) :
    (sessOf (putSetpoint o p s) o).alloc = (sessOf s o).alloc := by
  obtain ⟨sp, n, q, hsess, -⟩ := (SessAfter.refl o s).then_putSetpoint p
  rw [hsess]

theorem updateSet_alloc (o : Outlet) (s : State) : (sessOf (updateSet o s) o).alloc = (sessOf s o).alloc := by
  unfold updateSet
  dsimp only
  split
  · split
    · rw [sessOf, freshReply_sess, ← sessOf, putSetpoint_alloc]
    · rw [putSetpoint_alloc, sessOf, freshReply_sess, ← sessOf]
  · rw [sessOf, followReply_sess, ← sessOf]

/-- In S7 the outlet keeps the allocation it had; otherwise it takes the new one. -/
theorem takeAlloc_alloc (o : Outlet) (w : Int) (s : State) :
    (sessOf (takeAlloc o w s) o).alloc = if (sessOf s o).state = .s7 then (sessOf s o).alloc else w := by
  unfold takeAlloc
  dsimp only
  split
  · next hkeeps =>
    rw [((SessAfter.refl o s).then_setSess _).1]
    split
    · rfl
    · next h7 => exact hkeeps.resolve_right h7
  · next htakes =>
    rw [updateSet_alloc, if_neg fun h7 => htakes (.inr h7)]
    exact congrArg Session.alloc (PerOutlet.get_set_same ..)

/-- What acts on each outlet in turn and leaves the others as they are, acts on each as it found it. -/
theorem forOutlets_each {f : Outlet → State → State} (hf : ∀ o y t, y ≠ o → SameOutlet y t (f o t)) (y : Outlet)
    (s : State) : ∃ t, SameOutlet y s t ∧ SameOutlet y (f y t) (forOutlets f s) := by
  match y with
  | 0 => exact ⟨s, .refl 0 s, ((hf 1 0 _ (by decide)).trans (hf 2 0 _ (by decide))).trans (hf 3 0 _ (by decide))⟩
  | 1 => exact ⟨_, hf 0 1 s (by decide), (hf 2 1 _ (by decide)).trans (hf 3 1 _ (by decide))⟩
  | 2 => exact ⟨_, (hf 0 2 s (by decide)).trans (hf 1 2 _ (by decide)), hf 3 2 _ (by decide)⟩
  | 3 => exact ⟨_, ((hf 0 3 s (by decide)).trans (hf 1 3 _ (by decide))).trans (hf 2 3 _ (by decide)), .refl 3 _⟩

/-- The fallback of an outlet without an allocation: its demand, up to the fallback outlet power. -/
def fallbackAlloc (s : State) (o : Outlet) : Int := min (outletDemand s o) (cfgN s 0x0602 0 20 4 0)

/-- The state in which every outlet has taken its fallback. -/
def fallbackTaken (s : State) : State := forOutlets (fun o t => takeAlloc o (fallbackAlloc t o) t) s

theorem fallbackTaken_alloc (s : State) (y : Outlet) :
    (sessOf (fallbackTaken s) y).alloc = if (sessOf s y).state = .s7 then (sessOf s y).alloc else fallbackAlloc s y := by
  obtain ⟨t, hbefore, hafter⟩ :=
    forOutlets_each (f := fun o t => takeAlloc o (fallbackAlloc t o) t) (fun o y t hy => sameOutlet_takeAlloc hy _ t) y s
  have hfallback : fallbackAlloc t y = fallbackAlloc s y := by
    rw [fallbackAlloc, fallbackAlloc, hbefore.outletDemand, cfgN_congr hbefore.cfg]
  rw [fallbackTaken, hafter.sess, takeAlloc_alloc, hbefore.sess, hfallback]

theorem fallbackTaken_trellis (s : State) : (fallbackTaken s).trellis = s.trellis :=
  congrArg Calm.trellis (forOutlets_calm _ s fun o t => takeAlloc_calm o _ t)

/-! ### Held reductions (R193) -/

/-- The oldest reduction of an outlet leaves, whatever was reduced before it. -/
theorem dropFirst_oldest {slot o : Nat} {w : Int} {l₁ l₂ : List (Nat × Nat × Int)}
    (h : ∀ r ∈ l₁, ¬(r.1 = slot ∧ r.2.1 = o)) : dropFirst slot o (l₁ ++ (slot, o, w) :: l₂) = l₁ ++ l₂ := by
  induction l₁ with
  | nil => exact if_pos ⟨rfl, rfl⟩
  | cons r l₁ ih =>
    obtain ⟨hr, hl⟩ := List.forall_mem_cons.mp h
    exact (if_neg hr).trans (congrArg (r :: ·) (ih hl))

theorem dropFirst_absent {slot o : Nat} {l : List (Nat × Nat × Int)} (h : ∀ r ∈ l, ¬(r.1 = slot ∧ r.2.1 = o)) :
    dropFirst slot o l = l := by
  induction l with
  | nil => rfl
  | cons r l ih =>
    obtain ⟨hr, hl⟩ := List.forall_mem_cons.mp h
    exact (if_neg hr).trans (congrArg (r :: ·) (ih hl))

/-! ### The commands, case by case -/

/-- The state with the sessions left out. -/
def besideSessions (t : State) : State := { t with sess := State.reset.sess }

theorem besideSessions_setSess (o : Outlet) (f : Session → Session) (s : State) :
    besideSessions (setSess o f s) = besideSessions s := rfl

theorem forOutlets_keeps {α : Type} (g : State → α) {f : Outlet → State → State} (h : ∀ o t, g (f o t) = g t) (s : State) :
    g (forOutlets f s) = g s := (h 3 _).trans ((h 2 _).trans ((h 1 _).trans (h 0 s)))

/-- The allocations for the next cycle act on the sessions alone. -/
theorem setNextAlloc_eq (w : List Int) (s : State) : setNextAlloc w s = { s with sess := (setNextAlloc w s).sess } := by
  have hbeside : besideSessions (setNextAlloc w s) = besideSessions s :=
    forOutlets_keeps besideSessions (fun o t => besideSessions_setSess o _ t) _
  exact congrArg (fun u : State => { u with sess := (setNextAlloc w s).sess }) hbeside

/-- The state in which the stack's new allocations stand, with the falls of AC outlets held off the budget. -/
def stackAllocated (s : State) : State :=
  { s with trellis := { s.trellis with
      allocs := slotAllocs s (allocateStack s), budget := budgetInForce s, allocCycle := some s.sun.cycle
      reductions := s.trellis.reductions ++ acFalls s s.trellis.allocs (slotAllocs s (allocateStack s)) } }

section
variable {s : State}

theorem powerAllocation_allocates (hrun : domainRuns s = true) (halloc : allocates s = true) :
    Completes .powerAllocation s (fun t =>
      let new := slotAllocs s (allocateStack s)
      t.trellis.allocs = new ∧ t.trellis.budget = budgetInForce s ∧ t.trellis.allocCycle = some s.sun.cycle ∧
      t.trellis.reductions = s.trellis.reductions ++ acFalls s s.trellis.allocs new ∧ t.logs = s.logs ∧ t.link = s.link ∧
      t.energy = s.energy ∧ t.hedge = s.hedge) := by
  have hexec : exec .powerAllocation s =
      .next (setNextAlloc ((List.range 4).map (allocAt (slotAllocs s (allocateStack s)) s.power.straps.val))
        (stackAllocated s)) := congrArg Host.Outcome.next ((if_neg (by rw [hrun]; decide)).trans (if_pos halloc))
  refine ⟨_, hexec, ?_⟩
  rw [setNextAlloc_eq]
  exact ⟨rfl, rfl, rfl, rfl, rfl, rfl, rfl, rfl⟩

theorem powerAllocation_shadows (hrun : domainRuns s = true) (halloc : allocates s = false) (hspare : s.trellis.role = 2) :
    Completes .powerAllocation s (fun t =>
      let new := slotAllocs s (allocateStack s)
      t = { s with trellis := { s.trellis with
        shadow := new, allocCycle := some s.sun.cycle
        reductions := s.trellis.reductions ++ acFalls s s.trellis.shadow new } }) :=
  ⟨_, congrArg Host.Outcome.next ((if_neg (by rw [hrun]; decide)).trans
    ((if_neg (ne_true_of_eq_false halloc)).trans (if_pos hspare))), rfl⟩

theorem powerAllocation_ignores (h : domainRuns s = false ∨ (allocates s = false ∧ s.trellis.role ≠ 2)) :
    Ignores .powerAllocation s := by
  refine congrArg Host.Outcome.next ?_
  cases hrun : domainRuns s with
  | false => exact if_pos rfl
  | true =>
    obtain ⟨halloc, hrole⟩ := h.resolve_left (by rw [hrun]; decide)
    exact (if_neg (by decide)).trans ((if_neg (ne_true_of_eq_false halloc)).trans (if_neg hrole))

theorem acReductionExpiry_drops {slot : Slot} {o : Outlet} {w : Int} {l₁ l₂ : List (Nat × Nat × Int)}
    (hlist : s.trellis.reductions = l₁ ++ (slot.val, o.val, w) :: l₂)
    (hfirst : ∀ r ∈ l₁, ¬(r.1 = slot.val ∧ r.2.1 = o.val)) : Completes (.acReductionExpiry slot o) s (fun t =>
      t = { s with trellis := { s.trellis with reductions := l₁ ++ l₂ } }) := by
  refine ⟨_, rfl, ?_⟩
  rw [hlist, dropFirst_oldest hfirst]

theorem acReductionExpiry_ignores {slot : Slot} {o : Outlet}
    (h : ∀ r ∈ s.trellis.reductions, ¬(r.1 = slot.val ∧ r.2.1 = o.val)) : Ignores (.acReductionExpiry slot o) s := by
  refine congrArg Host.Outcome.next ?_
  rw [dropFirst_absent h]

theorem allocationMissing_falls_back (hrun : domainRuns s = true) (hmissing : 3 ≤ s.sess.noAlloc) :
    CarriesOut .allocationMissing s (fun t =>
      (∀ y, (sessOf t y).alloc = if (sessOf s y).state = .s7 then (sessOf s y).alloc
        else min (outletDemand s y) (cfgN s 0x0602 0 20 4 0)) ∧ t.trellis = s.trellis) :=
  carriesOut_of rfl ⟨hrun, hmissing⟩ ⟨fallbackTaken_alloc s, fallbackTaken_trellis s⟩

theorem allocationMissing_ignores (h : domainRuns s = false ∨ s.sess.noAlloc < 3) : Ignores .allocationMissing s := by
  refine ignores_of rfl fun ⟨hrun, hmissing⟩ => ?_
  rcases h with h | h
  · simp [h] at hrun
  · omega

theorem siteBudgetTimeout_stale (h : s.sess.siteBudget ≠ none) :
    Completes .siteBudgetTimeout s (fun t => t = { s with sess := { s.sess with siteStale := true } }) := by
  refine ⟨_, rfl, ?_⟩
  rw [Option.isSome_iff_ne_none.mpr h, Bool.or_true]

theorem siteBudgetTimeout_ignores (h : s.sess.siteBudget = none) : Ignores .siteBudgetTimeout s := by
  have hstale : (s.sess.siteStale || s.sess.siteBudget.isSome) = s.sess.siteStale := by
    rw [h, Option.isSome_none, Bool.or_false]
  refine congrArg Host.Outcome.next ?_
  rw [hstale]

end

/-! ### The statement -/

/-- Settles O39, command by command and case by case. -/
theorem allocationCommands : Obligations.AllocationCommands := by
  unfold Obligations.AllocationCommands
  intro s slot o
  exact ⟨powerAllocation_allocates, powerAllocation_shadows, powerAllocation_ignores,
    fun w l₁ l₂ => acReductionExpiry_drops, acReductionExpiry_ignores, allocationMissing_falls_back,
    allocationMissing_ignores, siteBudgetTimeout_stale, siteBudgetTimeout_ignores⟩

end Sys2Proof.Machine

/-! # Permits, trips and channels (R203, R207 to R212, R240, R244, R250)

First what the operations of Hedge do to its state, to the waiting trip frame and to the logs, each stated once; then the
statement. -/

namespace Sys2Proof.Machine

/-! ### Bits of a word, and a value per outlet -/

theorem getLsbD_withBit {w i : Nat} (v : BitVec w) (h : i < w) : (withBit v i).getLsbD i = true := by
  rw [withBit, BitVec.getLsbD_or, BitVec.getLsbD_ofNat, Nat.testBit_two_pow_self, decide_eq_true h]
  exact Bool.or_true _

theorem getLsbD_withBit_other {w i j : Nat} (v : BitVec w) (h : i ≠ j) : (withBit v j).getLsbD i = v.getLsbD i := by
  rw [withBit, BitVec.getLsbD_or, BitVec.getLsbD_ofNat, Nat.testBit_two_pow_of_ne h.symm, Bool.and_false, Bool.or_false]

theorem getLsbD_withoutBit_other {w i j : Nat} (v : BitVec w) (h : i ≠ j) : (withoutBit v j).getLsbD i = v.getLsbD i := by
  by_cases hi : i < w
  · rw [withoutBit, BitVec.getLsbD_and, BitVec.getLsbD_not, BitVec.getLsbD_ofNat, Nat.testBit_two_pow_of_ne h.symm,
      Bool.and_false, Bool.not_false, decide_eq_true hi, Bool.and_true, Bool.and_true]
  · rw [BitVec.getLsbD_of_ge _ _ (Nat.le_of_not_lt hi), BitVec.getLsbD_of_ge _ _ (Nat.le_of_not_lt hi)]

theorem PerOutlet.set_set {α : Type} (x : PerOutlet α) (o : Outlet) (a b : α) : (x.set o a).set o b = x.set o b := by
  match o with
  | 0 | 1 | 2 | 3 => rfl

theorem perOutlet_get {α : Type} (f : Outlet → α) (o : Outlet) : (perOutlet f).get o = f o := by
  match o with
  | 0 | 1 | 2 | 3 => rfl

theorem setHedge_get (o : Outlet) (f : HedgeOutlet → HedgeOutlet) (s : State) :
    (setHedge o f s).hedge.out.get o = f (s.hedge.out.get o) := PerOutlet.get_set_same ..

theorem setHedge_get_other {o y : Outlet} (f : HedgeOutlet → HedgeOutlet) (s : State) (h : y ≠ o) :
    (setHedge o f s).hedge.out.get y = s.hedge.out.get y := PerOutlet.get_set_other _ _ _ _ h

theorem setHedge_setHedge (o : Outlet) (f g : HedgeOutlet → HedgeOutlet) (s : State) :
    setHedge o f (setHedge o g s) = setHedge o (fun h => f (g h)) s := by
  simp only [setHedge, PerOutlet.set_set, PerOutlet.get_set_same]

theorem setHedge_self {o : Outlet} {f : HedgeOutlet → HedgeOutlet} {s : State}
    (h : f (s.hedge.out.get o) = s.hedge.out.get o) : setHedge o f s = s := by
  rw [setHedge, h]
  match o with
  | 0 | 1 | 2 | 3 => rfl

/-! ### The permit (R207) -/

/-- What pilot A leaves of an outlet's trips: bits 3 and 4 are cleared (R209). -/
def HedgeOutlet.pilotCleared (h : HedgeOutlet) : HedgeOutlet :=
  if 10500 ≤ h.high then { h with latched := h.latched &&& 0x67, causes := h.causes &&& 0x67 } else h

/-- What the permit's conditions make of an outlet, with drive requested or not. -/
def HedgeOutlet.permitted (permit drive : Bool) (h : HedgeOutlet) : HedgeOutlet :=
  { h with
    permit := permit, granted := drive && (h.granted || permit), closed := permit || (h.closed && h.delaying)
    weldRun := h.weldRun && !drive }

/-- Hedge's permit of an outlet by its conditions. -/
def permitDue (s : State) (o : Outlet) : Bool :=
  (sessOf s o).drive && hedgeAllows s o && ((s.hedge.out.get o).granted || hedgeFirst s o)

theorem setHedge_pilotCleared (o : Outlet) (s : State) : setHedge o HedgeOutlet.pilotCleared s =
    if hedgeA s o = true then
      setHedge o (fun h => { h with latched := h.latched &&& 0x67, causes := h.causes &&& 0x67 }) s else s := by
  by_cases h : 10500 ≤ (s.hedge.out.get o).high
  · rw [if_pos (show hedgeA s o = true from decide_eq_true h)]
    simp only [setHedge, HedgeOutlet.pilotCleared, if_pos h]
  · rw [if_neg (show ¬hedgeA s o = true from fun ha => h (of_decide_eq_true ha)), setHedge_self (show HedgeOutlet.pilotCleared _ = _ from if_neg h)]

theorem hedgePermit_eq (o : Outlet) (s : State) :
    hedgePermit o s = setHedge o (fun h => h.pilotCleared.permitted
      (permitDue (setHedge o HedgeOutlet.pilotCleared s) o) (sessOf s o).drive) s :=
  (congrArg (fun u => setHedge o (HedgeOutlet.permitted (permitDue u o) (sessOf u o).drive) u)
    (setHedge_pilotCleared o s).symm).trans (setHedge_setHedge ..)

theorem mismatch_false_of_normal {s : State} (h : hedgeStateCode s = 0) : s.hedge.mismatch = false := by
  cases hm : s.hedge.mismatch with
  | false => rfl
  | true => cases hf : s.hedge.fault <;> simp [hedgeStateCode, hm, hf] at h

theorem moduleTrip_false (s : State) : moduleTrip s = false ↔ s.hedge.estop = false ∧ s.hedge.wiring = false ∧
    s.hedge.safeFault = false ∧ s.hedge.group = false ∧ s.hedge.fault = false := by
  simp only [moduleTrip, Bool.or_eq_false_iff, and_assoc]

/-- What Hedge's comparators see of the pilot while they recognise B, C or D. -/
theorem hedgeBcd_high {s : State} {o : Outlet} (h : hedgeBcd s o = true) :
    1500 < (s.hedge.out.get o).high ∧ (s.hedge.out.get o).high < 10500 := by
  simp only [hedgeBcd, hedgeLoss, Bool.not_eq_true', Bool.or_eq_false_iff, decide_eq_false_iff_not, Int.not_le] at h
  exact ⟨h.1.2, h.1.1⟩

theorem hedgeAllows_needs {s : State} {o : Outlet} (h : hedgeAllows s o = true) :
    hedgeLive s = true ∧ hedgeType s o ≠ 0 ∧ s.hedge.confirmed = true ∧ (s.hedge.out.get o).latched = 0 ∧
      moduleTrip s = false ∧ s.hedge.mismatch = false ∧ outletStuck s o = false ∧ hedgeBcd s o = true ∧
      lifeAllows s = true ∧ s.rake.permitOk = true := by
  simp only [hedgeAllows, Bool.and_eq_true, bne_iff_ne, beq_iff_eq, Bool.not_eq_true', and_assoc] at h
  obtain ⟨hlive, htype, hconfirmed, hlatched, htrip, hcode, hstuck, hbcd, hlife, hrake⟩ := h
  exact ⟨hlive, htype, hconfirmed, hlatched, htrip, mismatch_false_of_normal hcode, hstuck, hbcd, hlife, hrake⟩

/-- What the permit's conditions ask of an outlet, for the first grant as well (R207). -/
theorem permitDue_needs {s : State} {o : Outlet} (h : permitDue s o = true) :
    (sessOf s o).drive = true ∧ hedgeAllows s o = true ∧ ((s.hedge.out.get o).granted = true ∨ hedgeFirst s o = true) := by
  simpa only [permitDue, Bool.and_eq_true, Bool.or_eq_true, and_assoc] using h

theorem lifeAllows_iff (s : State) : lifeAllows s = true ↔ s.cis.lifecycle ≠ 0 ∧ s.cis.lifecycle ≠ 4 := by
  simp [lifeAllows]

theorem hedgeFirst_needs {s : State} {o : Outlet} (h : hedgeFirst s o = true) :
    (hedgeDc s o = true ∧ (chanState s (4 * o.val + 2)).prot.natAbs ≤ 6000 * 5461 / fullScale s (4 * o.val + 2)) ∨
      (hedgeDc s o = false ∧ (s.hedge.out.get o).residualDc.natAbs ≤ 3000) := by
  cases hdc : hedgeDc s o
  · exact .inr ⟨rfl, of_decide_eq_true ((if_neg (ne_true_of_eq_false hdc)).symm.trans h)⟩
  · exact .inl ⟨rfl, of_decide_eq_true ((if_pos hdc).symm.trans h)⟩

theorem pilotCleared_keeps (h : HedgeOutlet) :
    h.pilotCleared.high = h.high ∧ h.pilotCleared.granted = h.granted ∧ h.pilotCleared.delaying = h.delaying := by
  unfold HedgeOutlet.pilotCleared
  split <;> exact ⟨rfl, rfl, rfl⟩

section
variable (s : State) (o : Outlet)

theorem hedgePermit_get : (hedgePermit o s).hedge.out.get o = (s.hedge.out.get o).pilotCleared.permitted
    (permitDue (setHedge o HedgeOutlet.pilotCleared s) o) (sessOf s o).drive := by
  rw [hedgePermit_eq, setHedge_get]

theorem hedgePermit_get_other {y : Outlet} (h : y ≠ o) : (hedgePermit o s).hedge.out.get y = s.hedge.out.get y := by
  rw [hedgePermit_eq, setHedge_get_other _ _ h]

/-- A granted permit shows everything that R207 asks for. -/
theorem hedgePermit_granted :
    let h := (hedgePermit o s).hedge.out.get o
    h.permit = true →
       (sessOf s o).drive = true ∧ hedgeLive s = true ∧ hedgeType s o ≠ 0 ∧ s.hedge.confirmed = true ∧ h.latched = 0 ∧
       s.hedge.estop = false ∧ s.hedge.wiring = false ∧ s.hedge.safeFault = false ∧ s.hedge.group = false ∧
       s.hedge.fault = false ∧ s.hedge.mismatch = false ∧ outletStuck s o = false ∧ 1500 < h.high ∧ h.high < 10500 ∧
       s.cis.lifecycle ≠ 0 ∧ s.cis.lifecycle ≠ 4 ∧ s.rake.permitOk = true ∧ h.closed = true ∧
       ((s.hedge.out.get o).granted = true ∨
         (hedgeDc s o = true ∧ (chanState s (4 * o.val + 2)).prot.natAbs ≤ 6000 * 5461 / fullScale s (4 * o.val + 2)) ∨
         (hedgeDc s o = false ∧ h.residualDc.natAbs ≤ 3000)) := by
  dsimp only
  rw [hedgePermit_get]
  intro hpermit
  have hdue : permitDue (setHedge o HedgeOutlet.pilotCleared s) o = true := hpermit
  obtain ⟨hdrive, hallows, hfirst⟩ := permitDue_needs hdue
  obtain ⟨hlive, htype, hconfirmed, hlatched, htrip, hmismatch, hstuck, hbcd, hlife, hrake⟩ := hedgeAllows_needs hallows
  obtain ⟨hestop, hwiring, hsafe, hgroup, hfault⟩ := (moduleTrip_false _).mp htrip
  obtain ⟨hlow, hhigh⟩ := hedgeBcd_high hbcd
  obtain ⟨hblank, hretired⟩ := (lifeAllows_iff _).mp hlife
  rw [setHedge_get] at hlatched hlow hhigh hfirst
  refine ⟨hdrive, hlive, htype, hconfirmed, hlatched, hestop, hwiring, hsafe, hgroup, hfault, hmismatch, hstuck, hlow, hhigh,
    hblank, hretired, hrake, ?_, ?_⟩
  · exact (congrArg (· || _) hdue).trans (Bool.true_or _)
  · rw [(pilotCleared_keeps _).2.1] at hfirst
    refine hfirst.imp_right fun hf => ?_
    have hneeds := hedgeFirst_needs hf
    rw [setHedge_get] at hneeds
    exact hneeds

theorem hedgePermit_opens (hpermit : ((hedgePermit o s).hedge.out.get o).permit = false)
    (hdelay : (s.hedge.out.get o).delaying = false) : ((hedgePermit o s).hedge.out.get o).closed = false := by
  rw [hedgePermit_get] at hpermit ⊢
  have hdue : permitDue (setHedge o HedgeOutlet.pilotCleared s) o = false := hpermit
  simp [HedgeOutlet.permitted, hdue, pilotCleared_keeps, hdelay]

theorem hedgePermit_withdrawn (hdrive : (sessOf s o).drive = false) :
    ((hedgePermit o s).hedge.out.get o).permit = false ∧ ((hedgePermit o s).hedge.out.get o).granted = false := by
  have hdue : permitDue (setHedge o HedgeOutlet.pilotCleared s) o = false := by
    simp only [permitDue, show (sessOf (setHedge o HedgeOutlet.pilotCleared s) o).drive = false from hdrive, Bool.false_and]
  rw [hedgePermit_get, hdue, hdrive]
  exact ⟨rfl, rfl⟩

/-- Pilot A clears bits 3 and 4 and keeps the weld latch (R209). -/
theorem hedgePermit_pilotA (hhigh : 10500 ≤ ((hedgePermit o s).hedge.out.get o).high) :
    ((hedgePermit o s).hedge.out.get o).latched.getLsbD 3 = false ∧
      ((hedgePermit o s).hedge.out.get o).latched.getLsbD 4 = false ∧
      ((hedgePermit o s).hedge.out.get o).latched.getLsbD 5 = (s.hedge.out.get o).latched.getLsbD 5 := by
  rw [hedgePermit_get] at hhigh ⊢
  have hseen : 10500 ≤ (s.hedge.out.get o).high := (pilotCleared_keeps _).1 ▸ hhigh
  have hlatched : ((s.hedge.out.get o).pilotCleared.permitted (permitDue (setHedge o HedgeOutlet.pilotCleared s) o)
      (sessOf s o).drive).latched = (s.hedge.out.get o).latched &&& 0x67 := by
    simp only [HedgeOutlet.permitted, HedgeOutlet.pilotCleared, if_pos hseen]
  rw [hlatched]
  simp

end

/-! ### Trips of an outlet (R209 to R211, R240) -/

/-- An outlet with a trip bit latched, whose cause is there. -/
def HedgeOutlet.marked (bit : Nat) (h : HedgeOutlet) : HedgeOutlet :=
  { h with latched := withBit h.latched bit, causes := withBit h.causes bit }

/-- An outlet that a trip has taken the permit from; the switches wait for a delay that is not 0. -/
def HedgeOutlet.switched (weld : Bool) (delay : Nat) (h : HedgeOutlet) : HedgeOutlet :=
  { h with
    permit := false, newTrip := true, newWeld := weld, delaying := h.closed && delay != 0, closed := h.closed && delay != 0 }

/-- What a trip makes of an outlet: one that is latched already only keeps its cause. -/
def HedgeOutlet.tripped (bit delay : Nat) (h : HedgeOutlet) : HedgeOutlet :=
  if h.latched.getLsbD bit then h.marked bit else (h.marked bit).switched (bit == 5) delay

theorem HedgeOutlet.tripped_latched {bit : Nat} (delay : Nat) {h : HedgeOutlet} (hlatched : h.latched.getLsbD bit = true) :
    h.tripped bit delay = h.marked bit := if_pos hlatched

theorem HedgeOutlet.tripped_free {bit : Nat} (delay : Nat) {h : HedgeOutlet} (hfree : h.latched.getLsbD bit = false) :
    h.tripped bit delay = (h.marked bit).switched (bit == 5) delay := if_neg (ne_true_of_eq_false hfree)

/-- A trip latches its bit, and leaves the others and what the outlet's checks have read. -/
theorem HedgeOutlet.tripped_keeps (bit delay : Nat) (h : HedgeOutlet) : h.tripped bit delay =
    { h with
      latched := withBit h.latched bit, causes := withBit h.causes bit, permit := (h.tripped bit delay).permit
      closed := (h.tripped bit delay).closed, delaying := (h.tripped bit delay).delaying
      newTrip := (h.tripped bit delay).newTrip, newWeld := (h.tripped bit delay).newWeld } := by
  unfold HedgeOutlet.tripped
  split <;> rfl

theorem tripSwitches_eq (weld : Bool) (o : Outlet) (s : State) :
    tripSwitches weld o s = setHedge o (HedgeOutlet.switched weld (block0701 s 2 1)) s := rfl

theorem logTrip_hedge (outlet : Nat) (bit value : List Byte) (mask : Option Nat) (s : State) :
    (logTrip outlet bit value mask s).hedge = s.hedge := log_hedge ..

theorem logTrip_sess (outlet : Nat) (bit value : List Byte) (mask : Option Nat) (s : State) :
    (logTrip outlet bit value mask s).sess = s.sess := log_sess ..

theorem logTrip_eq (outlet : Nat) (bit value : List Byte) (mask : Option Nat) (s : State) :
    logTrip outlet bit value mask s =
      { s with
        logs := (logTrip outlet bit value mask s).logs, dom := (logTrip outlet bit value mask s).dom
        freeCount := (logTrip outlet bit value mask s).freeCount } := by
  rw [logTrip, log_eq]
  rfl

theorem logTrip_next (outlet : Nat) (bit value : List Byte) (mask : Option Nat) (s : State) :
    (logTrip outlet bit value mask s).logs.next = s.logs.next + 1 := log_next ..

theorem requestTrip_eq (mask reason : Nat) (s : State) :
    requestTrip mask reason s = { s with sess := (requestTrip mask reason s).sess } := by
  unfold requestTrip
  dsimp only
  split <;> rfl

theorem requestTrip_sessions (mask reason : Nat) (s : State) : (requestTrip mask reason s).sess.out = s.sess.out := by
  unfold requestTrip
  dsimp only
  split <;> rfl

theorem requestTrip_first {s : State} (mask reason : Nat) (h : s.sess.tripWait = none) :
    (requestTrip mask reason s).sess.tripWait = some ⟨mask, reason, s.sess.tripCount⟩ ∧
      (requestTrip mask reason s).sess.tripCount = s.sess.tripCount + 1 := by
  simp [requestTrip, h]

theorem requestTrip_joins {s : State} {w : TripWait} (mask reason : Nat) (h : s.sess.tripWait = some w) :
    (requestTrip mask reason s).sess.tripWait =
      some ⟨w.mask ||| mask, if reason = 1 then 1 else w.reason, w.counter⟩ := by
  simp [requestTrip, h]

theorem requestTrip_waits (mask reason : Nat) (s : State) : (requestTrip mask reason s).sess.tripWait ≠ none := by
  cases h : s.sess.tripWait with
  | none => simp [requestTrip_first mask reason h]
  | some w => simp [requestTrip_joins mask reason h]

/-- The state in which a trip of an outlet has asked for its trip frame: with drive on, and with a reason for one (R211). -/
def tripRequested (o : Outlet) (reason : Option Nat) (s : State) : State :=
  match if driveOn s o then reason else none with
  | some r => requestTrip (addressMask s [o]) r s
  | none => s

theorem tripRequested_none {o : Outlet} {reason : Option Nat} {s : State} (h : driveOn s o = false ∨ reason = none) :
    tripRequested o reason s = s := by
  have hnone : (if driveOn s o then reason else none) = none := by
    rcases h with h | h <;> simp [h]
  rw [tripRequested, hnone]

theorem tripRequested_some {o : Outlet} {r : Nat} {s : State} (h : driveOn s o = true) :
    tripRequested o (some r) s = requestTrip (addressMask s [o]) r s := by
  rw [tripRequested, if_pos h]

theorem tripRequested_eq (o : Outlet) (reason : Option Nat) (s : State) :
    tripRequested o reason s = { s with sess := (tripRequested o reason s).sess } := by
  unfold tripRequested
  split
  · exact requestTrip_eq ..
  · rfl

theorem tripRequested_sessions (o : Outlet) (reason : Option Nat) (s : State) :
    (tripRequested o reason s).sess.out = s.sess.out := by
  unfold tripRequested
  split
  · exact requestTrip_sessions ..
  · rfl

theorem tripOutlet_of_latched {o : Outlet} {bit : Nat} {s : State} (reason : Option Nat) (value : List Byte)
    (h : (s.hedge.out.get o).latched.getLsbD bit = true) :
    tripOutlet o bit reason value s = setHedge o (HedgeOutlet.marked bit) s := if_pos h

/-- A new trip of an outlet: the frame, the bit and the switches, and the entry. -/
theorem tripOutlet_of_free {o : Outlet} {bit : Nat} {s : State} (reason : Option Nat) (value : List Byte)
    (h : (s.hedge.out.get o).latched.getLsbD bit = false) :
    ∃ mask, tripOutlet o bit reason value s = logTrip o.val [byte bit] value mask
      (tripSwitches (bit == 5) o (setHedge o (HedgeOutlet.marked bit) (tripRequested o reason s))) := by
  refine ⟨if driveOn s o then reason.map (fun _ => addressMask s [o]) else none, ?_⟩
  refine (if_neg (ne_true_of_eq_false h)).trans ?_
  cases hdrive : driveOn s o with
  | false =>
    rw [tripRequested_none (.inl hdrive)]
    rfl
  | true =>
    cases reason with
    | none =>
      rw [tripRequested_none (.inr rfl)]
      rfl
    | some r =>
      rw [tripRequested_some hdrive]
      rfl

section
variable (o : Outlet) (bit : Nat) (reason : Option Nat) (value : List Byte) (s : State)

theorem tripOutlet_hedge : (tripOutlet o bit reason value s).hedge =
    (setHedge o (HedgeOutlet.tripped bit (block0701 s 2 1)) s).hedge := by
  cases h : (s.hedge.out.get o).latched.getLsbD bit with
  | true =>
    rw [tripOutlet_of_latched reason value h]
    simp only [setHedge_hedge, HedgeOutlet.tripped_latched _ h]
  | false =>
    obtain ⟨mask, htrip⟩ := tripOutlet_of_free reason value h
    rw [htrip, logTrip_hedge, tripRequested_eq, tripSwitches_eq, setHedge_setHedge]
    simp only [setHedge_hedge, HedgeOutlet.tripped_free _ h]
    rfl

theorem tripOutlet_get : (tripOutlet o bit reason value s).hedge.out.get o =
    (s.hedge.out.get o).tripped bit (block0701 s 2 1) := by
  rw [tripOutlet_hedge, setHedge_get]

theorem tripOutlet_get_other {y : Outlet} (h : y ≠ o) :
    (tripOutlet o bit reason value s).hedge.out.get y = s.hedge.out.get y := by
  rw [tripOutlet_hedge, setHedge_get_other _ _ h]

/-- A trip of an outlet acts on Hedge, the waiting trip frame, the logs and the journal alone. -/
theorem tripOutlet_eq : tripOutlet o bit reason value s =
    { s with
      hedge := (tripOutlet o bit reason value s).hedge, sess := (tripOutlet o bit reason value s).sess
      logs := (tripOutlet o bit reason value s).logs, dom := (tripOutlet o bit reason value s).dom
      freeCount := (tripOutlet o bit reason value s).freeCount } := by
  cases h : (s.hedge.out.get o).latched.getLsbD bit with
  | true =>
    rw [tripOutlet_of_latched reason value h]
    rfl
  | false =>
    obtain ⟨mask, htrip⟩ := tripOutlet_of_free reason value h
    rw [htrip, logTrip_eq, tripRequested_eq]
    rfl

theorem tripOutlet_link : (tripOutlet o bit reason value s).link = s.link := by
  rw [tripOutlet_eq]

variable {o bit s}

theorem tripOutlet_sess_of_free (h : (s.hedge.out.get o).latched.getLsbD bit = false) :
    (tripOutlet o bit reason value s).sess = (tripRequested o reason s).sess := by
  obtain ⟨mask, htrip⟩ := tripOutlet_of_free reason value h
  rw [htrip, logTrip_sess, tripSwitches_eq, setHedge_sess, setHedge_sess]

theorem tripOutlet_next_of_free (h : (s.hedge.out.get o).latched.getLsbD bit = false) :
    (tripOutlet o bit reason value s).logs.next = s.logs.next + 1 := by
  obtain ⟨mask, htrip⟩ := tripOutlet_of_free reason value h
  rw [htrip, logTrip_next, tripRequested_eq]
  rfl

theorem tripOutlet_sessions : (tripOutlet o bit reason value s).sess.out = s.sess.out := by
  cases h : (s.hedge.out.get o).latched.getLsbD bit with
  | true => rw [tripOutlet_of_latched reason value h, setHedge_sess]
  | false => rw [tripOutlet_sess_of_free reason value h, tripRequested_sessions]

/-- A trip latches its bit with its cause, and no other bit. -/
theorem tripOutlet_bits (o : Outlet) {bit : Nat} (reason : Option Nat) (value : List Byte) (s : State) (hbit : bit < 7) :
    let x := (tripOutlet o bit reason value s).hedge.out.get o
    (x.latched.getLsbD bit = true ∧ x.causes.getLsbD bit = true) ∧
      ∀ i, i ≠ bit → x.latched.getLsbD i = (s.hedge.out.get o).latched.getLsbD i := by
  dsimp only
  rw [tripOutlet_get, HedgeOutlet.tripped_keeps]
  exact ⟨⟨getLsbD_withBit _ hbit, getLsbD_withBit _ hbit⟩, fun i hi => getLsbD_withBit_other _ hi⟩

/-- A trip that is latched already is not logged again and asks for no further frame. -/
theorem tripOutlet_again (h : (s.hedge.out.get o).latched.getLsbD bit = true) :
    (tripOutlet o bit reason value s).logs = s.logs ∧ (tripOutlet o bit reason value s).sess = s.sess := by
  rw [tripOutlet_of_latched reason value h]
  exact ⟨rfl, rfl⟩

/-- A new trip takes the permit, and opens the switches at once or after the contactor delay. -/
theorem tripOutlet_new (h : (s.hedge.out.get o).latched.getLsbD bit = false) :
    let x := (tripOutlet o bit reason value s).hedge.out.get o
    x.permit = false ∧ x.newTrip = true ∧ x.newWeld = decide (bit = 5) ∧
      (block0701 s 2 1 = 0 → x.closed = false ∧ x.delaying = false) ∧
      (block0701 s 2 1 ≠ 0 → x.closed = (s.hedge.out.get o).closed ∧ x.delaying = (s.hedge.out.get o).closed) := by
  dsimp only
  rw [tripOutlet_get, HedgeOutlet.tripped_free _ h]
  refine ⟨rfl, rfl, rfl, fun hdelay => ?_, fun hdelay => ?_⟩
  · simp [HedgeOutlet.switched, hdelay]
  · simp [HedgeOutlet.switched, HedgeOutlet.marked, hdelay]

end

/-! ### Trips of the module (R212) -/

theorem tripLatch_setLatch (j k : ModuleTrip) (v : Bool) (h : Hedge) :
    tripLatch j (setLatch k v h) = if j = k then v else tripLatch j h := by
  cases j <;> cases k <;> rfl

theorem tripLatch_withOut (k : ModuleTrip) (x : PerOutlet HedgeOutlet) (h : Hedge) :
    tripLatch k { h with out := x } = tripLatch k h := by
  cases k <;> rfl

/-- Latching a trip of the module leaves the outlets, the block and the sources of safe frames. -/
theorem setLatch_beside (k : ModuleTrip) (v : Bool) (h : Hedge) :
    (setLatch k v h).out = h.out ∧ (setLatch k v h).block = h.block ∧ (setLatch k v h).sources = h.sources := by
  cases k <;> exact ⟨rfl, rfl, rfl⟩

theorem forOutlets_tripSwitches_hedge (weld : Bool) (s : State) : (forOutlets (tripSwitches weld) s).hedge =
    { s.hedge with out := perOutlet (fun o => (s.hedge.out.get o).switched weld (block0701 s 2 1)) } := rfl

theorem forOutlets_tripSwitches_beside (weld : Bool) (s : State) : (forOutlets (tripSwitches weld) s).sess = s.sess ∧
    (forOutlets (tripSwitches weld) s).logs = s.logs := ⟨rfl, rfl⟩

theorem tripModule_of_latched {k : ModuleTrip} {s : State} (h : tripLatch k s.hedge = true) : tripModule k s = s := if_pos h

/-- The state in which a trip of the module is latched and has asked for its frame. -/
def moduleTripped (k : ModuleTrip) (s : State) : State :=
  requestTrip (addressMask s outlets) 2 (setHedgeM (setLatch k true) s)

theorem moduleTripped_hedge (k : ModuleTrip) (s : State) : (moduleTripped k s).hedge = setLatch k true s.hedge := by
  rw [moduleTripped, requestTrip_eq]
  rfl

theorem moduleTripped_logs (k : ModuleTrip) (s : State) : (moduleTripped k s).logs = s.logs := by
  rw [moduleTripped, requestTrip_eq]
  rfl

theorem tripModule_of_free {k : ModuleTrip} {s : State} (h : tripLatch k s.hedge = false) :
    tripModule k s = logTrip 0xFF (openField 1 (moduleTripped k s)) (openField 4 (moduleTripped k s))
      (some (addressMask s outlets)) (forOutlets (tripSwitches false) (moduleTripped k s)) := if_neg (ne_true_of_eq_false h)

theorem tripModule_hedge_of_free {k : ModuleTrip} {s : State} (h : tripLatch k s.hedge = false) :
    (tripModule k s).hedge = { setLatch k true s.hedge with
      out := perOutlet (fun o => (s.hedge.out.get o).switched false (block0701 s 2 1)) } := by
  obtain ⟨hout, hblock, -⟩ := setLatch_beside k true s.hedge
  have hdelay : block0701 (moduleTripped k s) 2 1 = block0701 s 2 1 := by
    simp only [block0701, blockN, moduleTripped_hedge, hblock]
  rw [tripModule_of_free h, logTrip_hedge, forOutlets_tripSwitches_hedge, hdelay, moduleTripped_hedge, hout]

/-- What a new trip of the module does: it takes every outlet's permit, asks for a trip frame and is logged. -/
theorem tripModule_new {k : ModuleTrip} {s : State} (h : tripLatch k s.hedge = false) :
    let t := tripModule k s
    (∀ y : Outlet, (t.hedge.out.get y).permit = false ∧ (t.hedge.out.get y).newTrip = true ∧
      (t.hedge.out.get y).latched = (s.hedge.out.get y).latched) ∧ t.sess.tripWait ≠ none ∧ t.logs.next = s.logs.next + 1 := by
  refine ⟨fun y => ?_, ?_, ?_⟩
  · rw [tripModule_hedge_of_free h, perOutlet_get]
    exact ⟨rfl, rfl, rfl⟩
  · rw [tripModule_of_free h, logTrip_sess, (forOutlets_tripSwitches_beside ..).1]
    exact requestTrip_waits (addressMask s outlets) 2 (setHedgeM (setLatch k true) s)
  · rw [tripModule_of_free h, logTrip_next, (forOutlets_tripSwitches_beside ..).2, moduleTripped_logs]

theorem tripModule_latches (k : ModuleTrip) (s : State) : tripLatch k (tripModule k s).hedge = true := by
  cases h : tripLatch k s.hedge with
  | true => rwa [tripModule_of_latched h]
  | false =>
    rw [tripModule_hedge_of_free h, tripLatch_withOut, tripLatch_setLatch, if_pos rfl]

/-! ### Resets of trips (R209, R212) -/

/-- The module's latches once those whose cause has gone are cleared. -/
def Hedge.policyCleared (h : Hedge) : Hedge :=
  { h with
    estop := h.estop && !(!h.openA && !h.openB), wiring := h.wiring && !(!h.openA && !h.openB && h.bothOpened)
    group := h.group && !h.groupGone }

theorem flags_eq_zero (l : List Bool) : flags l = 0 ↔ ∀ b ∈ l, b = false := by
  induction l with
  | nil => simp [flags]
  | cons b l ih =>
    have hflag : flag b = 0 ↔ b = false := by cases b <;> decide
    rw [flags, List.forall_mem_cons, ← ih, ← hflag]
    omega

theorem moduleBits_zero_iff (s : State) : moduleBits s.hedge = 0 ↔ moduleTrip s = false := by
  simp [moduleBits, flags_eq_zero, moduleTrip_false]

theorem policyCleared_of_clear {s : State} (h : moduleTrip s = false) : s.hedge.policyCleared = s.hedge := by
  obtain ⟨hestop, hwiring, -, hgroup, -⟩ := (moduleTrip_false s).mp h
  generalize s.hedge = x at hestop hwiring hgroup ⊢
  cases x
  simp only at hestop hwiring hgroup
  subst hestop hwiring hgroup
  rfl

theorem resetModule_of_clear {s : State} (origin : Nat) (h : moduleTrip s = false) : resetModule origin s = (s, 0) := by
  rw [resetModule, if_pos ((moduleBits_zero_iff s).mpr h)]

theorem resetModule_of_trip {s : State} (origin : Nat) (h : moduleTrip s = true) : resetModule origin s =
    (logReset origin 0xFF (moduleBits s.hedge - moduleBits s.hedge.policyCleared) (moduleBits s.hedge.policyCleared)
      (setHedgeM Hedge.policyCleared s), moduleBits s.hedge.policyCleared) := by
  have htrip : ¬moduleBits s.hedge = 0 := fun hzero => Bool.eq_false_iff.mp ((moduleBits_zero_iff s).mp hzero) h
  rw [resetModule, if_neg htrip]
  rfl

theorem logReset_hedge (origin outlet cleared remaining : Nat) (s : State) :
    (logReset origin outlet cleared remaining s).hedge = s.hedge := log_hedge ..

theorem logReset_next (origin outlet cleared remaining : Nat) (s : State) :
    (logReset origin outlet cleared remaining s).logs.next = s.logs.next + 1 := log_next ..

theorem resetModule_hedge (origin : Nat) (s : State) : (resetModule origin s).1.hedge = s.hedge.policyCleared := by
  cases h : moduleTrip s with
  | false => rw [resetModule_of_clear origin h, policyCleared_of_clear h]
  | true => rw [resetModule_of_trip origin h, logReset_hedge, setHedgeM_hedge]

/-- What remains latched decides the answer. -/
theorem resetModule_bits (origin : Nat) (s : State) :
    (resetModule origin s).2 = moduleBits (resetModule origin s).1.hedge := by
  rw [resetModule_hedge]
  cases h : moduleTrip s with
  | false => rw [resetModule_of_clear origin h, policyCleared_of_clear h, (moduleBits_zero_iff s).mpr h]
  | true => rw [resetModule_of_trip origin h]

theorem resetModule_logged {s : State} (origin : Nat) (h : moduleTrip s = true) :
    (resetModule origin s).1.logs.next = s.logs.next + 1 := by
  rw [resetModule_of_trip origin h]
  exact logReset_next ..

theorem policyCleared_open {h : Hedge} (hopen : h.openA = true ∨ h.openB = true) :
    h.policyCleared.estop = h.estop ∧ h.policyCleared.wiring = h.wiring := by
  rcases hopen with hopen | hopen <;> simp [Hedge.policyCleared, hopen]

theorem policyCleared_closed {h : Hedge} (hA : h.openA = false) (hB : h.openB = false) : h.policyCleared.estop = false ∧
    (h.bothOpened = true → h.policyCleared.wiring = false) ∧
    (h.bothOpened = false → h.policyCleared.wiring = h.wiring) := by
  refine ⟨?_, fun hboth => ?_, fun hboth => ?_⟩ <;> simp [Hedge.policyCleared, *]

theorem policyCleared_group (h : Hedge) : h.policyCleared.group = true ↔ h.group = true ∧ h.groupGone = false := by
  simp [Hedge.policyCleared]

theorem resetOutlet_of_clear {o : Outlet} {s : State} (origin : Nat) (h : (s.hedge.out.get o).latched = 0) :
    resetOutlet origin o s = (s, 0) := if_pos h

/-- The bits that a reset leaves latched: those that the policy keeps, and those whose cause remains. -/
def HedgeOutlet.bitsLeft (h : HedgeOutlet) : BitVec 7 := h.latched &&& ~~~(h.latched &&& 0x47 &&& ~~~h.causes)

theorem resetOutlet_of_trip {o : Outlet} {s : State} (origin : Nat) (h : (s.hedge.out.get o).latched ≠ 0) :
    ∃ cleared, resetOutlet origin o s = (logReset origin o.val cleared (s.hedge.out.get o).bitsLeft.toNat
      (setHedge o (fun x => { x with latched := (s.hedge.out.get o).bitsLeft }) s), (s.hedge.out.get o).bitsLeft.toNat) :=
  ⟨_, if_neg h⟩

theorem resetOutlet_latched (origin : Nat) (o : Outlet) (s : State) :
    ((resetOutlet origin o s).1.hedge.out.get o).latched = (s.hedge.out.get o).bitsLeft ∧
      (resetOutlet origin o s).2 = (s.hedge.out.get o).bitsLeft.toNat := by
  by_cases h : (s.hedge.out.get o).latched = 0
  · rw [resetOutlet_of_clear origin h, HedgeOutlet.bitsLeft, h]
    simp
  · obtain ⟨cleared, hreset⟩ := resetOutlet_of_trip origin h
    rw [hreset, logReset_hedge, setHedge_get]
    exact ⟨rfl, rfl⟩

/-! ### When a channel conducts (R203, R208, R244, R250) -/

theorem chanSw_driveChannels {s : State} {i : Nat} (h : i < s.sw.chans.length) :
    chanSw (driveChannels s) i = driveChannel s i (chanSw s i) := by
  simp [chanSw, driveChannels, h]

theorem driveChannel_conducting {s : State} {i : Nat} (x : Switch) (h : conducts s i = true) : driveChannel s i x =
    if x.on then x
    else { x with on := true, inrush := chanField s i 8 1 != 0, overCount := 0, inrushEnd := s.clockMs } := if_pos h

theorem driveChannel_blocked {s : State} {i : Nat} (x : Switch) (h : conducts s i = false) :
    driveChannel s i x = { x with on := false, inrush := false, overCount := 0 } := if_neg (ne_true_of_eq_false h)

/-- An output follows its conditions; switching on opens the inrush window, and requests and latches stay. -/
theorem driveChannel_follows (s : State) (i : Nat) (x : Switch) :
    let y := driveChannel s i x
    y.on = conducts s i ∧ (y.on = true → x.on = false → y.inrush = (chanField s i 8 1 != 0)) ∧
      (y.on = false → y.inrush = false) ∧ y.commanded = x.commanded ∧ y.short = x.short ∧ y.overcur = x.overcur := by
  cases h : conducts s i with
  | false => simp [driveChannel_blocked x h]
  | true => cases hon : x.on <;> simp [driveChannel_conducting x h, hon]

theorem conducts_iff (s : State) (i : Nat) :
    let x := chanSw s i
    conducts s i = true ↔
       x.commanded = true ∧ x.short = false ∧ x.overcur = false ∧ x.thermalLatch = false ∧ x.shed = false ∧ x.thermal = false ∧
       x.undervoltage = false ∧ x.needsCycle = false ∧ chanUse s i ≠ 0 ∧
       (i < 8 → (s.hedge.out.get (contactorOutlet i)).closed = true ∧ (s.hedge.scr.get (contactorOutlet i)).permit = true) ∧
       (i < 8 → i % 2 = 1 → isAc s (contactorOutlet i).val = true → cfgN s 0x0702 (contactorOutlet i).val 1 1 2 ≠ 1) ∧
       (8 ≤ i → chanField s i 2 1 = 1 → moduleTrip s = false) := by
  have hspare : spareContactor s i = false ↔
      (i < 8 → i % 2 = 1 → isAc s (contactorOutlet i).val = true → cfgN s 0x0702 (contactorOutlet i).val 1 1 2 ≠ 1) := by
    simp [spareContactor]
  have hgates : hedgeOff s i = false ∧ scrOff s i = false ↔
      (i < 8 → (s.hedge.out.get (contactorOutlet i)).closed = true ∧ (s.hedge.scr.get (contactorOutlet i)).permit = true) ∧
      (8 ≤ i → chanField s i 2 1 = 1 → moduleTrip s = false) := by
    by_cases hi : i < 8
    · simp [hedgeOff, scrOff, hi, Nat.not_le_of_lt hi]
    · simp [hedgeOff, scrOff, safetyRelated, hi, Nat.le_of_not_lt hi]
  have hable : chanAble s i = true ↔ spareContactor s i = false ∧ (chanSw s i).commanded = true ∧
      (chanSw s i).latched = false ∧ (chanSw s i).thermal = false ∧ (chanSw s i).undervoltage = false ∧
      (chanSw s i).needsCycle = false ∧ chanUse s i ≠ 0 := by
    simp only [chanAble, Bool.and_eq_true, Bool.not_eq_true', bne_iff_ne, and_assoc]
  have hlatched : (chanSw s i).latched = false ↔ (chanSw s i).short = false ∧ (chanSw s i).overcur = false ∧
      (chanSw s i).thermalLatch = false ∧ (chanSw s i).shed = false := by
    simp only [Switch.latched, Bool.or_eq_false_iff, and_assoc]
  have hconducts : conducts s i = true ↔ chanAble s i = true ∧ hedgeOff s i = false ∧ scrOff s i = false := by
    simp only [conducts, Bool.and_eq_true, Bool.not_eq_true', and_assoc]
  rw [hconducts, hable, hspare, hlatched, hgates]
  exact ⟨fun ⟨⟨hs, hc, ⟨hshort, hover, hlatch, hshed⟩, ht, hu, hn, huse⟩, hgate, htrip⟩ =>
      ⟨hc, hshort, hover, hlatch, hshed, ht, hu, hn, huse, hgate, hs, htrip⟩,
    fun ⟨hc, hshort, hover, hlatch, hshed, ht, hu, hn, huse, hgate, hs, htrip⟩ =>
      ⟨⟨hs, hc, ⟨hshort, hover, hlatch, hshed⟩, ht, hu, hn, huse⟩, hgate, htrip⟩⟩

/-! ### The statement -/

/-- Settles O43: the permit, the trip of an outlet, the trips of the module with their resets, and the channels, each from what
the operation does. -/
theorem tripRules : Obligations.TripRules := by
  unfold Obligations.TripRules
  refine ⟨fun s o => ⟨hedgePermit_granted s o, hedgePermit_opens s o, hedgePermit_withdrawn s o, hedgePermit_pilotA s o,
    fun _ => hedgePermit_get_other s o⟩, fun s o bit reason value hbit => ?_, fun s k origin o => ⟨tripModule_of_latched,
    fun h => ⟨tripModule_latches k s, tripModule_new h⟩, ?_, ?_⟩, fun s i hi => ?_⟩
  · obtain ⟨hbits, hother⟩ := tripOutlet_bits o reason value s hbit
    refine ⟨hbits.1, hbits.2, hother, fun y => tripOutlet_get_other o bit reason value s, tripOutlet_link ..,
      tripOutlet_sessions reason value, tripOutlet_again reason value, fun h => ?_⟩
    obtain ⟨hpermit, hnew, hweld, hatOnce, hdelayed⟩ := tripOutlet_new reason value h
    have hsess := tripOutlet_sess_of_free reason value h
    refine ⟨hpermit, hnew, hweld, hatOnce, hdelayed, tripOutlet_next_of_free reason value h, fun hnone => ?_,
      fun r hdrive hr hwait => ?_, fun r w hdrive hr hwait => ?_⟩
    · rw [hsess, tripRequested_none hnone]
    · subst hr
      rw [hsess, tripRequested_some hdrive]
      exact requestTrip_first _ _ hwait
    · subst hr
      rw [hsess, tripRequested_some hdrive]
      exact requestTrip_joins _ _ hwait
  · rw [resetModule_bits]
    have hhedge := resetModule_hedge origin s
    dsimp only
    rw [hhedge]
    exact ⟨policyCleared_open, policyCleared_closed, rfl, rfl, rfl, policyCleared_group _, rfl,
      resetModule_logged origin, fun h => congrArg Prod.fst (resetModule_of_clear origin h)⟩
  · obtain ⟨hlatched, hleft⟩ := resetOutlet_latched origin o s
    exact ⟨hlatched, hleft.trans (congrArg BitVec.toNat hlatched.symm),
      fun h => congrArg Prod.fst (resetOutlet_of_clear origin h)⟩
  · dsimp only
    rw [chanSw_driveChannels hi]
    obtain ⟨hon, hopens, hcloses, hkept⟩ := driveChannel_follows s i (chanSw s i)
    exact ⟨by rw [hon]; exact conducts_iff s i, hopens, hcloses, hkept⟩

end Sys2Proof.Machine

/-! # Hedge's inputs (R205, R209, R210, R213 to R219)

What a run of samples is, what a residual check and a half-period of the insulation monitor leave, then one lemma per command and
case, and the statement. -/

namespace Sys2Proof.Machine

/-! ### A run of samples (R209) -/

/-- The `n` values of a list from place `i` on satisfy a test. -/
def RunAt (q : Int → Bool) (l : List Int) (i n : Nat) : Prop := i + n ≤ l.length ∧ ∀ j, j < n → q (l.getD (i + j) 0) = true

section
variable {q : Int → Bool} {x : Int} {l : List Int} {i m n : Nat}

theorem RunAt.shorter (h : RunAt q l i n) (hm : m ≤ n) : RunAt q l i m :=
  ⟨Nat.le_trans (Nat.add_le_add_left hm i) h.1, fun j hj => h.2 j (Nat.lt_of_lt_of_le hj hm)⟩

theorem runAt_cons_succ : RunAt q (x :: l) (i + 1) n ↔ RunAt q l i n := by
  simp only [RunAt, List.length_cons, Nat.add_right_comm i 1, Nat.add_le_add_iff_right, List.getD_cons_succ]

theorem runAt_cons_zero : RunAt q (x :: l) 0 (n + 1) ↔ q x = true ∧ RunAt q l 0 n := by
  simp only [RunAt, Nat.zero_add, List.length_cons, Nat.add_le_add_iff_right]
  refine ⟨fun ⟨hlen, hall⟩ => ⟨hall 0 (Nat.succ_pos n), hlen, fun j hj => hall (j + 1) (Nat.succ_lt_succ hj)⟩,
    fun ⟨hx, hlen, hall⟩ => ⟨hlen, fun j hj => ?_⟩⟩
  cases j with
  | zero => exact hx
  | succ j => exact hall j (Nat.lt_of_succ_lt_succ hj)

theorem exists_runAt_cons (hn : 0 < n) :
    (∃ i, RunAt q (x :: l) i n) ↔ (q x = true ∧ RunAt q l 0 (n - 1)) ∨ ∃ i, RunAt q l i n := by
  obtain ⟨n, rfl⟩ := Nat.exists_eq_succ_of_ne_zero (Nat.ne_of_gt hn)
  constructor
  · rintro ⟨_ | i, h⟩
    · exact .inl (runAt_cons_zero.mp h)
    · exact .inr ⟨i, runAt_cons_succ.mp h⟩
  · rintro (h | ⟨i, h⟩)
    · exact ⟨0, runAt_cons_zero.mpr h⟩
    · exact ⟨i + 1, runAt_cons_succ.mpr h⟩

/-- A run with `k` values before the list ends within it, or a whole run stands in the list. -/
theorem runOf_iff {k : Nat} (hk : k < n) : runOf n q k l = true ↔ RunAt q l 0 (n - k) ∨ ∃ i, RunAt q l i n := by
  induction l generalizing k with
  | nil =>
    refine iff_of_false Bool.false_ne_true ?_
    rintro (⟨hlen, -⟩ | ⟨i, hlen, -⟩)
    · simp only [List.length_nil] at hlen
      omega
    · simp only [List.length_nil] at hlen
      omega
  | cons x l ih =>
    have hstart : RunAt q (x :: l) 0 (n - k) ↔ q x = true ∧ RunAt q l 0 (n - (k + 1)) := by
      rw [← runAt_cons_zero, show n - (k + 1) + 1 = n - k by omega]
    rw [exists_runAt_cons (Nat.lt_of_le_of_lt (Nat.zero_le k) hk), hstart, runOf]
    cases hx : q x with
    | false =>
      rw [if_neg Bool.false_ne_true, ih (Nat.lt_of_le_of_lt (Nat.zero_le k) hk)]
      have hfrom : RunAt q l 0 (n - 0) → ∃ i, RunAt q l i n := fun h => ⟨0, h⟩
      simp only [Bool.false_eq_true, false_and, false_or]
      exact ⟨fun h => h.elim hfrom id, .inr⟩
    | true =>
      have hend : RunAt q l 0 (n - 1) → RunAt q l 0 (n - (k + 1)) := fun h => h.shorter (by omega)
      rw [if_pos rfl, Bool.or_eq_true, decide_eq_true_iff]
      simp only [true_and]
      by_cases hlast : n ≤ k + 1
      · have hnow : RunAt q l 0 (n - (k + 1)) := by
          rw [Nat.sub_eq_zero_of_le hlast]
          exact ⟨Nat.zero_le _, fun j hj => absurd hj (Nat.not_lt_zero j)⟩
        exact iff_of_true (.inl hlast) (.inl hnow)
      · rw [ih (Nat.lt_of_not_le hlast)]
        exact ⟨fun h => h.elim (fun h => absurd h hlast) (fun h => h.imp_right .inr),
          fun h => .inr (h.elim .inl (fun h => h.elim (fun h => .inl (hend h)) .inr))⟩

theorem runOf_iff_exists (hn : 0 < n) : runOf n q 0 l = true ↔ ∃ i, RunAt q l i n :=
  (runOf_iff hn).trans ⟨fun h => h.elim (fun h => ⟨0, h⟩) id, .inr⟩

end

/-! ### The residual current (R214) -/

/-- What a residual check below its threshold leaves of an outlet: the cause of its bit is gone. -/
def HedgeOutlet.causeGone (bit : Nat) (h : HedgeOutlet) : HedgeOutlet := { h with causes := withoutBit h.causes bit }

/-- The code that a residual limit has on an outlet's channel, squared. -/
def residualSquare (limit : Nat) (o : Outlet) (s : State) : Rat :=
  (protCode limit (fullScale s (4 * o.val + 3)) : Nat) * (protCode limit (fullScale s (4 * o.val + 3)) : Nat)

section
variable {o : Outlet} {bit limit : Nat} {square : Rat} {mA : Int} {s : State}

theorem residualTrip_over (h : residualSquare limit o s ≤ square) :
    residualTrip o bit limit square mA s = tripOutlet o bit (some 2) (leInt 4 mA) s :=
  if_pos (by rw [Rat.natCast_mul]; exact h)

theorem residualTrip_below (h : square < residualSquare limit o s) :
    residualTrip o bit limit square mA s = setHedge o (HedgeOutlet.causeGone bit) s :=
  if_neg (by rw [Rat.natCast_mul]; exact Rat.not_le.mpr h)

theorem tripOutlet_residualSquare (o : Outlet) (bit : Nat) (reason : Option Nat) (value : List Byte) (limit : Nat) (p : Outlet)
    (s : State) :
    residualSquare limit p (tripOutlet o bit reason value s) = residualSquare limit p s := by
  rw [tripOutlet_eq]
  rfl

theorem residualTrip_residualSquare (limit' : Nat) (p : Outlet) :
    residualSquare limit' p (residualTrip o bit limit square mA s) = residualSquare limit' p s := by
  by_cases h : residualSquare limit o s ≤ square
  · rw [residualTrip_over h, tripOutlet_residualSquare]
  · rw [residualTrip_below (Rat.not_le.mp h)]
    rfl

/-- A residual check keeps the trips that stand. -/
theorem residualTrip_keeps {i : Nat} (hi : i ≠ bit) :
    ((residualTrip o bit limit square mA s).hedge.out.get o).latched.getLsbD i = (s.hedge.out.get o).latched.getLsbD i := by
  by_cases h : residualSquare limit o s ≤ square
  · rw [residualTrip_over h, tripOutlet_get, HedgeOutlet.tripped_keeps]
    exact getLsbD_withBit_other _ hi
  · rw [residualTrip_below (Rat.not_le.mp h), setHedge_get]
    rfl

theorem residualTrip_latches (hbit : bit < 7) (h : residualSquare limit o s ≤ square) :
    ((residualTrip o bit limit square mA s).hedge.out.get o).latched.getLsbD bit = true := by
  rw [residualTrip_over h]
  exact (tripOutlet_bits o _ _ s hbit).1.1

end

/-! ### Insulation (R215 to R217) -/

theorem judge_selfTimed (value warn fault : Rat) (m : Imd) : (judge value warn fault m).selfTimed = m.selfTimed := rfl

theorem tripOutlet_imd (o : Outlet) (bit : Nat) (reason : Option Nat) (value : List Byte) (s : State) :
    ((tripOutlet o bit reason value s).hedge.out.get o).imd = (s.hedge.out.get o).imd := by
  rw [tripOutlet_get, HedgeOutlet.tripped_keeps]

theorem tripOutlet_ite_imd {c : Prop} [Decidable c] (o : Outlet) (bit : Nat) (reason : Option Nat) (value : List Byte)
    (s : State) : ((if c then tripOutlet o bit reason value s else s).hedge.out.get o).imd = (s.hedge.out.get o).imd := by
  split
  · exact tripOutlet_imd ..
  · rfl

/-- A half-period that ended before its time is noted, whatever the plateaus give. -/
theorem halfPeriod_selfTimed (o : Outlet) (x : ImdInput) (s : State) :
    ((halfPeriod o true x s).hedge.out.get o).imd.selfTimed = true := by
  unfold halfPeriod
  dsimp only
  split
  · split
    · rw [tripOutlet_ite_imd, draw_hedge, setHedge_get, judge_selfTimed]
      exact Bool.or_true _
    · rw [setHedge_get]
      exact Bool.or_true _
  · rw [setHedge_get]
    exact Bool.or_true _

/-! ### The commands -/

section
variable {s : State} {o : Outlet}

theorem hedgeStep_carriesOut {c : Instr} {f : State → State} {p : State → Prop} (hexec : exec c s = hedgeStep f s)
    (hlive : hedgeLive s = true) (h : p (f s)) : CarriesOut c s p := carriesOut_of hexec hlive h

theorem hedgeStep_ignores {c : Instr} {f : State → State} (hexec : exec c s = hedgeStep f s) (hdead : hedgeLive s = false) :
    Ignores c s := ignores_of hexec (ne_true_of_eq_false hdead)

theorem estopOpen_trips (b : Bool) (hlive : hedgeLive s = true) :
    CarriesOut (.estopOpen b) s (fun t => ∃ u : State, t = tripModule .estop u ∧
      u.hedge.openA = (s.hedge.openA || !b) ∧ u.hedge.openB = (s.hedge.openB || b) ∧
      (u.hedge.openA = true → u.hedge.openB = true → u.hedge.bothOpened = true) ∧ u.hedge.out = s.hedge.out) := by
  refine hedgeStep_carriesOut (show _ = execEstopOpen b s from rfl) hlive ⟨_, rfl, rfl, rfl, fun hA hB => ?_, rfl⟩
  rw [setHedgeM_hedge] at hA hB ⊢
  simp only at hA hB ⊢
  rw [hA, hB]
  exact Bool.or_true _

/-- A period of a test pulse on line A while its contact is closed: the pulse comes back, or it is missed once more. -/
theorem testPulse_lineA (hlive : hedgeLive s = true) (hmode : block0701 s 0 1 = 1) (hclosed : s.hedge.openA = false)
    (own cross : Bool) {p : State → Prop}
    (h : let n := if own then 0 else s.hedge.missA + 1
      let t : State := { s with hedge := { s.hedge with missA := n } }
      p (if cross || 2 ≤ n then tripModule .wiring t else t)) : CarriesOut (.testPulse false own cross) s p := by
  refine hedgeStep_carriesOut (show _ = execTestPulse false own cross s from rfl) hlive ?_
  dsimp only
  rw [if_neg (not_not_intro hmode)]
  simpa [setHedgeM, hclosed] using h

theorem testPulse_contacts (hlive : hedgeLive s = true) (hmode : block0701 s 0 1 = 1) (hclosed : s.hedge.openA = false) :
    CarriesOut (.testPulse false true false) s (fun t => t = { s with hedge := { s.hedge with missA := 0 } }) ∧
      (s.hedge.missA = 0 → CarriesOut (.testPulse false false false) s (fun t =>
        t = { s with hedge := { s.hedge with missA := 1 } })) ∧
      (1 ≤ s.hedge.missA → CarriesOut (.testPulse false false false) s (fun t =>
        t = tripModule .wiring { s with hedge := { s.hedge with missA := s.hedge.missA + 1 } })) ∧
      CarriesOut (.testPulse false true true) s (fun t =>
        t = tripModule .wiring { s with hedge := { s.hedge with missA := 0 } }) := by
  refine ⟨testPulse_lineA hlive hmode hclosed true false rfl, fun hmiss => ?_, fun hmiss => ?_,
    testPulse_lineA hlive hmode hclosed true true rfl⟩
  · refine testPulse_lineA hlive hmode hclosed false false ?_
    rw [hmiss]
    rfl
  · refine testPulse_lineA hlive hmode hclosed false false (if_pos ?_)
    simpa using hmiss

theorem testPulse_unused (lineB own cross : Bool) (hlive : hedgeLive s = true) (hmode : block0701 s 0 1 ≠ 1) :
    CarriesOut (.testPulse lineB own cross) s (fun t => t = s) :=
  hedgeStep_carriesOut (show _ = execTestPulse lineB own cross s from rfl) hlive (if_pos hmode)

theorem estopDiscrepancy_trips (hlive : hedgeLive s = true) (h : s.hedge.openA ≠ s.hedge.openB) :
    CarriesOut .estopDiscrepancy s (fun t => t = tripModule .wiring s) :=
  hedgeStep_carriesOut (show _ = execEstopDiscrepancy s from rfl) hlive (if_pos (bne_iff_ne.mpr h))

theorem estopDiscrepancy_agrees (hlive : hedgeLive s = true) (h : s.hedge.openA = s.hedge.openB) :
    CarriesOut .estopDiscrepancy s (fun t => t = s) :=
  hedgeStep_carriesOut (show _ = execEstopDiscrepancy s from rfl) hlive (if_neg (by simp [h]))

/-- The protection samples of an outlet's current hold a run at or above its threshold code. -/
def overcurrentRun (s : State) (o : Outlet) (c : Nat) (feed : Feed) : Bool :=
  runOf (block0702 s o 2 1) (fun x : Int => decide (protCode (block0702 s o 4 4) (fullScale s c) ≤ x.natAbs)) 0
    (protSamples s c feed)

theorem overcurrentTrip_trips (ph : Fin 3) (feed : Feed) (v : Int) (hlive : hedgeLive s = true) (htype : hedgeType s o ≠ 0)
    (hhit : overcurrentRun s o (currentChannel s o ph.val) feed = true) :
    CarriesOut (.overcurrentTrip o ⟨ph, feed, v⟩) s (fun t => t = tripOutlet o 0 (some 1) (leInt 4 v) s) :=
  hedgeStep_carriesOut (show _ = execOvercurrentTrip o ⟨ph, feed, v⟩ s from rfl) hlive (if_pos ⟨htype, hhit⟩)

theorem overcurrentTrip_quiet (ph : Fin 3) (feed : Feed) (v : Int) (hlive : hedgeLive s = true)
    (hhit : overcurrentRun s o (currentChannel s o ph.val) feed = false) :
    CarriesOut (.overcurrentTrip o ⟨ph, feed, v⟩) s (fun t => t = s) :=
  hedgeStep_carriesOut (show _ = execOvercurrentTrip o ⟨ph, feed, v⟩ s from rfl) hlive
    (if_neg fun h => ne_true_of_eq_false hhit h.2)

theorem contactorDelayEnd_opens (h : (s.hedge.out.get o).delaying = true) :
    CarriesOut (.contactorDelayEnd o) s (fun t => t = { s with hedge := { s.hedge with
      out := s.hedge.out.set o { s.hedge.out.get o with delaying := false, closed := false } } }) :=
  carriesOut_of (show _ = execContactorDelayEnd o s from rfl) h rfl

theorem contactorDelayEnd_ignores (h : (s.hedge.out.get o).delaying = false) : Ignores (.contactorDelayEnd o) s :=
  ignores_of (show _ = execContactorDelayEnd o s from rfl) (ne_true_of_eq_false h)

/-! ### The insulation monitor and the pilot -/

theorem insulationPolarityChange_changes (m : ImdInput) (hlive : hedgeLive s = true)
    (hrun : (s.hedge.out.get o).imd.running = true) (hcycles : block0702 s o 12 2 ≤ (s.hedge.out.get o).imd.cycles) :
    CarriesOut (.insulationPolarityChange o m) s (fun t => t = halfPeriod o false m s) :=
  hedgeStep_carriesOut (show _ = execInsulationPolarityChange o m s from rfl) hlive (if_pos ⟨hrun, hcycles⟩)

theorem insulationPolarityChange_waits (m : ImdInput) (hlive : hedgeLive s = true)
    (h : ¬((s.hedge.out.get o).imd.running = true ∧ block0702 s o 12 2 ≤ (s.hedge.out.get o).imd.cycles)) :
    CarriesOut (.insulationPolarityChange o m) s (fun t => t = s) :=
  hedgeStep_carriesOut (show _ = execInsulationPolarityChange o m s from rfl) hlive (if_neg h)

theorem insulationSelfTimed_changes (m : ImdInput) (hlive : hedgeLive s = true)
    (hrun : (s.hedge.out.get o).imd.running = true) : CarriesOut (.insulationSelfTimed o m) s (fun t =>
      t = halfPeriod o true m s ∧ (t.hedge.out.get o).imd.selfTimed = true) := by
  refine hedgeStep_carriesOut (show _ = execInsulationSelfTimed o m s from rfl) hlive ?_
  rw [if_pos hrun]
  exact ⟨rfl, halfPeriod_selfTimed o m s⟩

theorem insulationSelfTimed_stopped (m : ImdInput) (hlive : hedgeLive s = true)
    (hrun : (s.hedge.out.get o).imd.running = false) : CarriesOut (.insulationSelfTimed o m) s (fun t => t = s) :=
  hedgeStep_carriesOut (show _ = execInsulationSelfTimed o m s from rfl) hlive (if_neg (ne_true_of_eq_false hrun))

theorem insulationNoValue_trips (hlive : hedgeLive s = true) (hrun : (s.hedge.out.get o).imd.running = true)
    (hnone : 8 ≤ (s.hedge.out.get o).imd.noValue) : CarriesOut (.insulationNoValue o) s (fun t =>
      (t.hedge.out.get o).latched.getLsbD 3 = true ∧ (t.hedge.out.get o).imd.status = .fault) := by
  refine hedgeStep_carriesOut (show _ = execInsulationNoValue o s from rfl) hlive ?_
  dsimp only
  rw [if_pos ⟨hrun, hnone⟩, draw_hedge]
  exact ⟨(tripOutlet_bits o _ _ _ (by decide)).1.1, by rw [tripOutlet_imd, setHedge_get]⟩

theorem insulationNoValue_waits (hlive : hedgeLive s = true)
    (h : (s.hedge.out.get o).imd.running = false ∨ (s.hedge.out.get o).imd.noValue < 8) :
    CarriesOut (.insulationNoValue o) s (fun t => t = s) := by
  refine hedgeStep_carriesOut (show _ = execInsulationNoValue o s from rfl) hlive (if_neg ?_)
  rintro ⟨hrun, hnone⟩
  rcases h with h | h
  · exact ne_true_of_eq_false h hrun
  · omega

/-- The plateaus by which the pilot counts as lost (R218). -/
def PilotLost (s : State) (o : Outlet) (high low : Int) : Prop :=
  10500 ≤ high ∨ high ≤ 1500 ∨ ((∃ d, (s.link.get o).gen = .duty d) ∧ -10500 < low)

theorem seePilot_get (o : Outlet) (high low : Int) (s : State) :
    (seePilot o high low s).hedge.out.get o = { s.hedge.out.get o with high := high, low := low } := setHedge_get ..

theorem hedgeLoss_seePilot (s : State) (o : Outlet) (high low : Int) :
    hedgeLoss (seePilot o high low s) o = true ↔ PilotLost s o high low := by
  have hlink : (seePilot o high low s).link = s.link := rfl
  rw [hedgeLoss, seePilot_get, hlink, PilotLost]
  cases (s.link.get o).gen <;> simp [or_assoc]

theorem driveOn_seePilot (s : State) (o : Outlet) (high low : Int) : driveOn (seePilot o high low s) o = driveOn s o := by
  rw [driveOn, driveOn, seePilot_get]
  rfl

/-- A trip by the pilot latches bit 4 and keeps the plateaus that Hedge has seen. -/
theorem pilotTrip (s : State) (o : Outlet) (high low : Int) (reason : Option Nat) (value : List Byte) :
    let t := draw (tripOutlet o 4 reason value (seePilot o high low s))
    (t.hedge.out.get o).latched.getLsbD 4 = true ∧ (t.hedge.out.get o).high = high ∧ (t.hedge.out.get o).low = low := by
  dsimp only
  refine ⟨(tripOutlet_bits o _ _ _ (by decide)).1.1, ?_⟩
  rw [draw_hedge, tripOutlet_get, HedgeOutlet.tripped_keeps, seePilot_get]
  exact ⟨rfl, rfl⟩

theorem pilotLoss_trips {high low : Int} (hlive : hedgeLive s = true) (hdrive : driveOn s o = true)
    (hgen : (s.link.get o).gen ≠ .stateF) (hlost : PilotLost s o high low) :
    CarriesOut (.pilotLoss ⟨o, high, low⟩) s (fun t =>
      (t.hedge.out.get o).latched.getLsbD 4 = true ∧ (t.hedge.out.get o).high = high ∧ (t.hedge.out.get o).low = low) := by
  refine hedgeStep_carriesOut (show _ = execPilotLoss ⟨o, high, low⟩ s from rfl) hlive ?_
  dsimp only
  rw [if_pos ⟨(driveOn_seePilot ..).trans hdrive, (hedgeLoss_seePilot ..).mpr hlost, hgen⟩]
  exact pilotTrip s o high low _ _

theorem pilotLoss_sees {high low : Int} (hlive : hedgeLive s = true)
    (h : driveOn s o = false ∨ (s.link.get o).gen = .stateF ∨ ¬PilotLost s o high low) :
    CarriesOut (.pilotLoss ⟨o, high, low⟩) s (fun t => t = seePilot o high low s) := by
  refine hedgeStep_carriesOut (show _ = execPilotLoss ⟨o, high, low⟩ s from rfl) hlive (if_neg ?_)
  rintro ⟨hdrive, hlost, hgen⟩
  rw [driveOn_seePilot] at hdrive
  rcases h with h | h | h
  · exact ne_true_of_eq_false h hdrive
  · exact hgen h
  · exact h ((hedgeLoss_seePilot ..).mp hlost)

/-- Hedge sees B from 8.0 V up and never at 7.0 V or below, while the pilot is not lost. -/
theorem hedgeB_seePilot {high low : Int} (h : ¬PilotLost s o high low) (hhigh : 8000 ≤ high) :
    hedgeB (seePilot o high low s) o = true := by
  have hbcd : hedgeBcd (seePilot o high low s) o = true :=
    congrArg (!·) (Bool.eq_false_iff.mpr fun hloss => h ((hedgeLoss_seePilot ..).mp hloss))
  simp [hedgeB, hbcd, seePilot_get, hhigh]

theorem not_hedgeB_seePilot {high low : Int} (h : PilotLost s o high low ∨ high ≤ 7000) :
    ¬hedgeB (seePilot o high low s) o = true := by
  intro hb
  simp only [hedgeB, hedgeBcd, seePilot_get, Bool.and_eq_true, Bool.or_eq_true, decide_eq_true_eq, Bool.not_eq_true'] at hb
  obtain ⟨hloss, hlevel⟩ := hb
  rcases h with h | h
  · exact ne_true_of_eq_false hloss ((hedgeLoss_seePilot ..).mpr h)
  · rcases hlevel with hlevel | ⟨hlevel, -⟩ <;> omega

theorem pilotBTimeout_trips {high low : Int} (hlive : hedgeLive s = true) (hdrive : driveOn s o = true)
    (hlost : ¬PilotLost s o high low) (hhigh : 8000 ≤ high) :
    CarriesOut (.pilotBTimeout ⟨o, high, low⟩) s (fun t =>
      (t.hedge.out.get o).latched.getLsbD 4 = true ∧ (t.hedge.out.get o).high = high ∧ (t.hedge.out.get o).low = low) := by
  refine hedgeStep_carriesOut (show _ = execPilotBTimeout ⟨o, high, low⟩ s from rfl) hlive ?_
  dsimp only
  rw [if_pos ⟨(driveOn_seePilot ..).trans hdrive, hedgeB_seePilot hlost hhigh⟩]
  exact pilotTrip s o high low _ _

theorem pilotBTimeout_sees {high low : Int} (hlive : hedgeLive s = true)
    (h : driveOn s o = false ∨ PilotLost s o high low ∨ high ≤ 7000) :
    CarriesOut (.pilotBTimeout ⟨o, high, low⟩) s (fun t => t = seePilot o high low s) := by
  refine hedgeStep_carriesOut (show _ = execPilotBTimeout ⟨o, high, low⟩ s from rfl) hlive (if_neg ?_)
  rintro ⟨hdrive, hb⟩
  rw [driveOn_seePilot] at hdrive
  rcases h with h | h
  · exact ne_true_of_eq_false h hdrive
  · exact not_hedgeB_seePilot h hb

/-! ### The weld check, a fault of Hedge, and the automatic resets -/

theorem weldCheckStart_runs (hlive : hedgeLive s = true) (hdc : hedgeDc s o = true) (hdrive : (sessOf s o).drive = false)
    (hopen : (s.hedge.out.get o).closed = false) : CarriesOut (.weldCheckStart o) s (fun t =>
      t = { s with hedge := { s.hedge with out := s.hedge.out.set o { s.hedge.out.get o with weldRun := true } } }) :=
  hedgeStep_carriesOut (show _ = execWeldCheckStart o s from rfl) hlive
    (if_pos ⟨hdc, congrArg (!·) hdrive, congrArg (!·) hopen⟩)

theorem weldDetected_trips {v onL : Int} (hlive : hedgeLive s = true) (hrun : (s.hedge.out.get o).weldRun = true)
    (hdrive : (sessOf s o).drive = false) (hv : 6000 ≤ v.natAbs) (hnear : (v - onL).natAbs ≤ 100 * block0702 s o 14 2) :
    CarriesOut (.weldDetected o v onL) s (fun t => t = tripOutlet o 5 none (leInt 4 v) s) :=
  hedgeStep_carriesOut (show _ = execWeldDetected o v onL s from rfl) hlive
    (if_pos ⟨hrun, congrArg (!·) hdrive, hv, hnear⟩)

theorem weldDetected_quiet {v : Int} (onL : Int) (hlive : hedgeLive s = true) (hv : v.natAbs < 6000) :
    CarriesOut (.weldDetected o v onL) s (fun t => t = s) :=
  hedgeStep_carriesOut (show _ = execWeldDetected o v onL s from rfl) hlive
    (if_neg fun ⟨_, _, h, _⟩ => Nat.not_le_of_lt hv h)

theorem hedgeFault_trips (hup : up s = true) : CarriesOut .hedgeFault s (fun t => t = tripModule .fault s) :=
  carriesOut_of (show _ = execHedgeFault s from rfl) hup rfl

theorem hedgeFault_ignores (hup : up s = false) : Ignores .hedgeFault s :=
  ignores_of (show _ = execHedgeFault s from rfl) (ne_true_of_eq_false hup)

theorem tripResetAutomatic_resets (hlive : hedgeLive s = true) (hpolicy : block0701 s 1 1 = 1) :
    CarriesOut (.tripResetAutomatic (some o)) s (fun t => t = (resetOutlet 8 o s).1) ∧
      CarriesOut (.tripResetAutomatic none) s (fun t => t = (resetModule 8 s).1) :=
  ⟨hedgeStep_carriesOut (show _ = execTripResetAutomatic (some o) s from rfl) hlive (if_neg (not_not_intro hpolicy)),
    hedgeStep_carriesOut (show _ = execTripResetAutomatic none s from rfl) hlive (if_neg (not_not_intro hpolicy))⟩

theorem tripResetAutomatic_manual (hlive : hedgeLive s = true) (hpolicy : block0701 s 1 1 ≠ 1) :
    CarriesOut (.tripResetAutomatic none) s (fun t => t = s) :=
  hedgeStep_carriesOut (show _ = execTripResetAutomatic none s from rfl) hlive (if_pos hpolicy)

/-- The two residual checks, of the DC part and then of the AC part, in codes squared. -/
def residualChecked (o : Outlet) (dcSquare acSquare : Rat) (dcMa acMa : Int) (s : State) : State :=
  residualTrip o 2 30 acSquare acMa (residualTrip o 1 6 dcSquare dcMa s)

theorem residualChecked_below {dcSquare acSquare : Rat} (dcMa acMa : Int) (hdc : dcSquare < residualSquare 6 o s)
    (hac : acSquare < residualSquare 30 o s) :
    (residualChecked o dcSquare acSquare dcMa acMa s).hedge.out.get o = ((s.hedge.out.get o).causeGone 1).causeGone 2 ∧
      (residualChecked o dcSquare acSquare dcMa acMa s).logs = s.logs := by
  rw [residualChecked, residualTrip_below hdc]
  have hac' : acSquare < residualSquare 30 o (setHedge o (HedgeOutlet.causeGone 1) s) := hac
  rw [residualTrip_below hac', setHedge_get, setHedge_get]
  exact ⟨rfl, rfl⟩

theorem residualChecked_dc {dcSquare : Rat} (acSquare : Rat) (dcMa acMa : Int) (hdc : residualSquare 6 o s ≤ dcSquare) :
    ((residualChecked o dcSquare acSquare dcMa acMa s).hedge.out.get o).latched.getLsbD 1 = true := by
  rw [residualChecked, residualTrip_keeps (by decide), residualTrip_latches (by decide) hdc]

theorem residualChecked_ac (dcSquare : Rat) {acSquare : Rat} (dcMa acMa : Int) (hac : residualSquare 30 o s ≤ acSquare) :
    ((residualChecked o dcSquare acSquare dcMa acMa s).hedge.out.get o).latched.getLsbD 2 = true := by
  refine residualTrip_latches (by decide) ?_
  rwa [residualTrip_residualSquare]

/-- The mean of a list of samples, and the mean square of what remains once the mean is removed. -/
def codeMean (l : List Int) : Rat := (sumInt l : Rat) / l.length
def codeSpread (l : List Int) : Rat := (sumInt (l.map (fun x => x * x)) : Rat) / l.length - codeMean l * codeMean l

/-- The DC reading of an outlet's residual channel, µA. -/
def residualReading (s : State) (o : Outlet) (mean : Rat) : Int :=
  openRound (mean * ((fullScale s (4 * o.val + 3) : Rat) * 1000 / 5461))

/-- The samples of an outlet's residual channel over the last 20 ms. -/
def residualSamples (s : State) (o : Outlet) (before feed : Feed) : List Int :=
  protSamples s (4 * o.val + 3) before ++ protSamples s (4 * o.val + 3) feed

/-- A residual check reads its samples and judges them by their mean and their AC part. -/
theorem residualCurrentCheck_checks {before feed : Feed} {p : State → Prop} (hlive : hedgeLive s = true)
    (hac : hedgeAc s o = true) (h : let l := residualSamples s o before feed
      ∀ ac dcMa acMa, p (residualChecked o (codeMean l * codeMean l) (codeSpread l) dcMa acMa
        (setHedge o (fun h => { h with residualDc := residualReading s o (codeMean l), residualAc := ac }) s))) :
    CarriesOut (.residualCurrentCheck o before feed) s p := by
  refine hedgeStep_carriesOut (show _ = execResidualCurrentCheck o before feed s from rfl) hlive ?_
  dsimp only
  rw [if_pos hac]
  exact h _ _ _

theorem residualCurrentCheck_unused (before feed : Feed) (hlive : hedgeLive s = true) (hac : hedgeAc s o = false) :
    CarriesOut (.residualCurrentCheck o before feed) s (fun t => t = s) :=
  hedgeStep_carriesOut (show _ = execResidualCurrentCheck o before feed s from rfl) hlive
    (if_neg (ne_true_of_eq_false hac))

theorem residualCurrentCheck_below {before feed : Feed} (hlive : hedgeLive s = true) (hac : hedgeAc s o = true)
    (hdc : codeMean (residualSamples s o before feed) * codeMean (residualSamples s o before feed) < residualSquare 6 o s)
    (hsquare : codeSpread (residualSamples s o before feed) < residualSquare 30 o s) :
    CarriesOut (.residualCurrentCheck o before feed) s (fun t =>
      (t.hedge.out.get o).residualDc = residualReading s o (codeMean (residualSamples s o before feed)) ∧
        (t.hedge.out.get o).latched = (s.hedge.out.get o).latched ∧
        (t.hedge.out.get o).causes.getLsbD 1 = false ∧ (t.hedge.out.get o).causes.getLsbD 2 = false ∧ t.logs = s.logs) := by
  refine residualCurrentCheck_checks hlive hac fun ac dcMa acMa => ?_
  obtain ⟨hget, hlogs⟩ := residualChecked_below (s := setHedge o (fun h => { h with
    residualDc := residualReading s o (codeMean (residualSamples s o before feed)), residualAc := ac }) s) dcMa acMa hdc hsquare
  rw [hget, hlogs, setHedge_get]
  exact ⟨rfl, rfl, (getLsbD_withoutBit_other _ (by decide)).trans (getLsbD_withoutBit _), getLsbD_withoutBit _, rfl⟩

theorem residualCurrentCheck_dc {before feed : Feed} (hlive : hedgeLive s = true) (hac : hedgeAc s o = true)
    (hdc : residualSquare 6 o s ≤ codeMean (residualSamples s o before feed) * codeMean (residualSamples s o before feed)) :
    CarriesOut (.residualCurrentCheck o before feed) s (fun t => (t.hedge.out.get o).latched.getLsbD 1 = true) :=
  residualCurrentCheck_checks hlive hac fun _ dcMa acMa => residualChecked_dc _ dcMa acMa hdc

theorem residualCurrentCheck_ac {before feed : Feed} (hlive : hedgeLive s = true) (hac : hedgeAc s o = true)
    (hsquare : residualSquare 30 o s ≤ codeSpread (residualSamples s o before feed)) :
    CarriesOut (.residualCurrentCheck o before feed) s (fun t => (t.hedge.out.get o).latched.getLsbD 2 = true) :=
  residualCurrentCheck_checks hlive hac fun _ dcMa acMa => residualChecked_ac _ dcMa acMa hsquare

/-- Without Hedge none of its inputs has an effect. -/
theorem hedgeInputs_ignored (o : Outlet) (ph : Fin 3) (b : Bool) (v onL high low : Int) (m : ImdInput) (before feed : Feed)
    (hdead : hedgeLive s = false) :
    ∀ c ∈ ([.estopOpen b, .testPulse b b b, .estopDiscrepancy, .overcurrentTrip o ⟨ph, feed, v⟩,
      .residualCurrentCheck o before feed, .insulationPolarityChange o m, .insulationSelfTimed o m, .insulationNoValue o,
      .pilotLoss ⟨o, high, low⟩, .pilotBTimeout ⟨o, high, low⟩, .weldCheckStart o, .weldDetected o v onL,
      .tripResetAutomatic none] : List Instr), Ignores c s := by
  simp only [List.forall_mem_cons]
  exact ⟨hedgeStep_ignores (show _ = execEstopOpen b s from rfl) hdead,
    hedgeStep_ignores (show _ = execTestPulse b b b s from rfl) hdead,
    hedgeStep_ignores (show _ = execEstopDiscrepancy s from rfl) hdead,
    hedgeStep_ignores (show _ = execOvercurrentTrip o ⟨ph, feed, v⟩ s from rfl) hdead,
    hedgeStep_ignores (show _ = execResidualCurrentCheck o before feed s from rfl) hdead,
    hedgeStep_ignores (show _ = execInsulationPolarityChange o m s from rfl) hdead,
    hedgeStep_ignores (show _ = execInsulationSelfTimed o m s from rfl) hdead,
    hedgeStep_ignores (show _ = execInsulationNoValue o s from rfl) hdead,
    hedgeStep_ignores (show _ = execPilotLoss ⟨o, high, low⟩ s from rfl) hdead,
    hedgeStep_ignores (show _ = execPilotBTimeout ⟨o, high, low⟩ s from rfl) hdead,
    hedgeStep_ignores (show _ = execWeldCheckStart o s from rfl) hdead,
    hedgeStep_ignores (show _ = execWeldDetected o v onL s from rfl) hdead,
    hedgeStep_ignores (show _ = execTripResetAutomatic none s from rfl) hdead, List.forall_mem_nil _⟩

end

/-! ### The statement -/

/-- Settles O40, input by input and case by case. -/
theorem protectionCommands : Obligations.ProtectionCommands := by
  unfold Obligations.ProtectionCommands
  intro s o ph b v onL high low m before feed
  exact ⟨estopOpen_trips b, ⟨_, rfl, rfl⟩, testPulse_contacts, testPulse_unused b true true, estopDiscrepancy_trips,
    estopDiscrepancy_agrees, fun hlive htype => ⟨overcurrentTrip_trips ph feed v hlive htype, overcurrentTrip_quiet ph feed v hlive⟩,
    fun n q l hn => runOf_iff_exists hn, contactorDelayEnd_opens, contactorDelayEnd_ignores,
    fun hlive hac => ⟨residualCurrentCheck_below hlive hac, residualCurrentCheck_dc hlive hac, residualCurrentCheck_ac hlive hac⟩,
    residualCurrentCheck_unused before feed, insulationPolarityChange_changes m,
    fun hlive hcycles => insulationPolarityChange_waits m hlive fun h => Nat.not_le_of_lt hcycles h.2,
    insulationSelfTimed_changes m,
    fun hlive hrun => ⟨insulationPolarityChange_waits m hlive fun h => ne_true_of_eq_false hrun h.1,
      insulationSelfTimed_stopped m hlive hrun⟩,
    insulationNoValue_trips, insulationNoValue_waits, pilotLoss_trips, pilotLoss_sees, pilotBTimeout_trips, pilotBTimeout_sees,
    weldCheckStart_runs, fun hlive hrun hdrive => ⟨weldDetected_trips hlive hrun hdrive, weldDetected_quiet onL hlive⟩,
    hedgeFault_trips, hedgeFault_ignores, tripResetAutomatic_resets, tripResetAutomatic_manual,
    hedgeInputs_ignored o ph b v onL high low m before feed⟩

end Sys2Proof.Machine

/-! # Safe frames (R225 to R228)

What Hedge holds of a source, what a copy, a pair and a safe-frame fault make of it, then one lemma per command and case, and the
statement. -/

namespace Sys2Proof.Machine

/-! ### A trip of the module leaves the sources and the latches that stand -/

theorem tripModule_sources (k : ModuleTrip) (s : State) : (tripModule k s).hedge.sources = s.hedge.sources := by
  cases h : tripLatch k s.hedge with
  | true => rw [tripModule_of_latched h]
  | false =>
    rw [tripModule_hedge_of_free h]
    exact (setLatch_beside k true s.hedge).2.2

theorem tripModule_keeps {j : ModuleTrip} (k : ModuleTrip) {s : State} (hj : tripLatch j s.hedge = true) :
    tripLatch j (tripModule k s).hedge = true := by
  cases h : tripLatch k s.hedge with
  | true => rwa [tripModule_of_latched h]
  | false =>
    rw [tripModule_hedge_of_free h, tripLatch_withOut, tripLatch_setLatch, hj]
    exact ite_self _

/-! ### What Hedge holds of a source (R227) -/

theorem sourceOf_congr {s t : State} (h : t.hedge.sources = s.hedge.sources) (slot : Nat) : sourceOf t slot = sourceOf s slot := by
  rw [sourceOf, sourceOf, h]

theorem sourceOf_slot (s : State) (slot : Nat) : (sourceOf s slot).slot = slot := by
  unfold sourceOf
  cases h : s.hedge.sources.find? (fun x => x.slot == slot) with
  | none => rfl
  | some x => simpa using List.find?_some h

theorem sourceOf_putSource_same {slot : Nat} {x : SafeSource} (s : State) (h : x.slot = slot) :
    sourceOf (putSource x s) slot = x := by
  simp [sourceOf, putSource, h]

theorem sourceOf_putSource_other {slot : Nat} {x : SafeSource} (s : State) (h : slot ≠ x.slot) :
    sourceOf (putSource x s) slot = sourceOf s slot := by
  have hx : (fun y : SafeSource => decide ((y.slot != x.slot) = true ∧ (y.slot == slot) = true)) = fun y => y.slot == slot := by
    funext y
    by_cases hy : y.slot = slot <;> simp [hy, h]
  unfold sourceOf putSource
  rw [setHedgeM_hedge, List.find?_cons_of_neg (by simpa using h.symm), List.find?_filter, hx]

/-! ### A fault, a group trip request, and a pair (R227, R228) -/

section
variable (slot : Nat) (bytes : List Byte) (s : State)

theorem sourceOf_safeFault (kind : Nat) (path seq : List Byte) :
    sourceOf (safeFault slot kind path seq s) slot = { sourceOf s slot with fault := true } := by
  rw [safeFault, sourceOf_congr (tripModule_sources ..)]
  refine (sourceOf_congr (congrArg Hedge.sources (log_hedge ..)) slot).trans ?_
  exact sourceOf_putSource_same s (sourceOf_slot s slot)

theorem safeFault_latches (kind : Nat) (path seq : List Byte) :
    (safeFault slot kind path seq s).hedge.safeFault = true := tripModule_latches .safeFault _

theorem safeFault_keeps_group (kind : Nat) (path seq : List Byte) (h : s.hedge.group = true) :
    (safeFault slot kind path seq s).hedge.group = true :=
  tripModule_keeps (j := .group) .safeFault ((congrArg Hedge.group (log_hedge ..)).trans h)

/-- The group trip request of a frame. -/
def asksGroup (bytes : List Byte) : Bool := (fieldN bytes 8 1).testBit 1

theorem takeGroup_eq : takeGroup slot bytes s =
    if asksGroup bytes then
      tripModule .group (setHedgeM (fun h => { h with groupGone := false })
        (putSource { sourceOf s slot with group := asksGroup bytes } s))
    else putSource { sourceOf s slot with group := asksGroup bytes } s := rfl

theorem sourceOf_takeGroup :
    sourceOf (takeGroup slot bytes s) slot = { sourceOf s slot with group := asksGroup bytes } := by
  have hput : sourceOf (putSource { sourceOf s slot with group := asksGroup bytes } s) slot =
      { sourceOf s slot with group := asksGroup bytes } := sourceOf_putSource_same s (sourceOf_slot s slot)
  rw [takeGroup_eq]
  split
  · exact (sourceOf_congr (tripModule_sources ..) slot).trans hput
  · exact hput

variable {bytes} in
theorem takeGroup_trips (h : asksGroup bytes = true) : (takeGroup slot bytes s).hedge.group = true := by
  rw [takeGroup_eq, if_pos h]
  exact tripModule_latches .group _

theorem sourceOf_takePair : sourceOf (takePair slot bytes s) slot = { sourceOf s slot with
    seq := some (seqOf bytes), fault := false, group := asksGroup bytes
    waiting := (sourceOf s slot).waiting.filter (fun w => seqOf w.2 != seqOf bytes) } := by
  rw [takePair, sourceOf_takeGroup, sourceOf_putSource_same s (by exact sourceOf_slot s slot)]

end

/-! ### A copy (R227) -/

/-- The state in which the group trip request of a trip frame has acted. -/
def copyRead (slot : Nat) (bytes : List Byte) (s : State) : State :=
  if tripFrameBytes bytes then takeGroup slot bytes s else s

/-- The copy on the other path that waits with the sequence of a copy. -/
def otherCopy (slot : Nat) (path : Path) (bytes : List Byte) (u : State) : Option (Path × List Byte) :=
  (sourceOf u slot).waiting.find? (fun w => w.1 != path && seqOf w.2 == seqOf bytes)

section
variable {slot : Nat} {path : Path} {bytes : List Byte} {s u : State}

theorem takeCopy_waits (hu : copyRead slot bytes s = u) (h : otherCopy slot path bytes u = none) :
    takeCopy slot path bytes s = putSource { sourceOf u slot with
      waiting :=
        (sourceOf u slot).waiting.filter (fun y => seqOf y.2 != seqOf bytes || y.1 != path) ++ [(path, bytes)] } u := by
  unfold takeCopy
  rw [otherCopy] at h
  rw [copyRead] at hu
  simp only [hu, h]

theorem takeCopy_pairs {q : Path} (hu : copyRead slot bytes s = u) (h : otherCopy slot path bytes u = some (q, bytes)) :
    takeCopy slot path bytes s = takePair slot bytes u := by
  unfold takeCopy
  rw [otherCopy] at h
  rw [copyRead] at hu
  simp only [hu, h, if_true]

theorem takeCopy_differs {w : Path × List Byte} (hu : copyRead slot bytes s = u)
    (h : otherCopy slot path bytes u = some w) (hw : w.2 ≠ bytes) :
    takeCopy slot path bytes s = safeFault slot 0 (openField 1 u) (wordBytes 4 (seqOf bytes))
      (putSource { sourceOf u slot with
        waiting := (sourceOf u slot).waiting.filter (fun y => seqOf y.2 != seqOf bytes) } u) := by
  unfold takeCopy
  rw [otherCopy] at h
  rw [copyRead] at hu
  simp only [hu, h, if_neg hw]

/-- A frame of type 1 asks for nothing before its pair is complete. -/
theorem copyRead_cyclic (h : tripFrameBytes bytes = false) : copyRead slot bytes s = s := if_neg (ne_true_of_eq_false h)

theorem copyRead_trip (h : tripFrameBytes bytes = true) : copyRead slot bytes s = takeGroup slot bytes s := if_pos h

/-- A trip frame that asks for a group trip has it with its first copy, whatever becomes of the pair (R228). -/
theorem takeCopy_trip (hframe : tripFrameBytes bytes = true) (hasks : asksGroup bytes = true) :
    (sourceOf (takeCopy slot path bytes s) slot).group = true ∧ (takeCopy slot path bytes s).hedge.group = true := by
  have hread : copyRead slot bytes s = takeGroup slot bytes s := copyRead_trip hframe
  have hgroup : (takeGroup slot bytes s).hedge.group = true := takeGroup_trips slot s hasks
  have hsource : (sourceOf (takeGroup slot bytes s) slot).group = true := by rw [sourceOf_takeGroup, hasks]
  cases h : otherCopy slot path bytes (takeGroup slot bytes s) with
  | none =>
    rw [takeCopy_waits hread h, sourceOf_putSource_same _ (by exact sourceOf_slot _ slot)]
    exact ⟨hsource, hgroup⟩
  | some w =>
    by_cases hw : w.2 = bytes
    · rw [takeCopy_pairs (q := w.1) hread (by rw [h, ← hw]), sourceOf_takePair]
      exact ⟨hasks, takeGroup_trips slot _ hasks⟩
    · rw [takeCopy_differs hread h hw, sourceOf_safeFault, sourceOf_putSource_same _ (by exact sourceOf_slot _ slot)]
      exact ⟨hsource, safeFault_keeps_group slot _ _ _ _ hgroup⟩

end

/-! ### The commands -/

section
variable {s : State} {p : Path} {bytes : List Byte}

/-- The slot that a frame names as its source. -/
def frameSource (bytes : List Byte) : Nat := fieldN bytes 0 2 % 16

theorem safeFrameReceive_takes {post : State → Prop} (hlive : hedgeLive s = true) (hvalid : copyValid s bytes = true)
    (hlater : copyLater s bytes = true) (h : post (takeCopy (frameSource bytes) p bytes s)) :
    CarriesOut (.safeFrameReceive p bytes) s post := by
  refine ⟨_, ?_, h⟩
  show execSafeFrameReceive p bytes s = _
  simp only [execSafeFrameReceive, receiveSafe, hlive, hvalid, hlater, Bool.not_true, Bool.and_self, Bool.false_eq_true,
    if_false, if_true]
  rfl

theorem safeFrameReceive_first (hlive : hedgeLive s = true) (hvalid : copyValid s bytes = true)
    (hlater : copyLater s bytes = true) (hframe : tripFrameBytes bytes = false)
    (hwait : (sourceOf s (frameSource bytes)).waiting = []) : CarriesOut (.safeFrameReceive p bytes) s (fun t =>
      (sourceOf t (frameSource bytes)).waiting = [(p, bytes)] ∧
        (sourceOf t (frameSource bytes)).seq = (sourceOf s (frameSource bytes)).seq ∧
        (sourceOf t (frameSource bytes)).fault = (sourceOf s (frameSource bytes)).fault ∧ t.logs = s.logs) := by
  refine safeFrameReceive_takes hlive hvalid hlater ?_
  rw [takeCopy_waits (copyRead_cyclic hframe) (by rw [otherCopy, hwait]; rfl),
    sourceOf_putSource_same _ (by exact sourceOf_slot _ _), hwait]
  exact ⟨rfl, rfl, rfl, rfl⟩

theorem safeFrameReceive_pair (hlive : hedgeLive s = true) (hvalid : copyValid s bytes = true)
    (hlater : copyLater s bytes = true) (hframe : tripFrameBytes bytes = false) {q : Path} (hq : q ≠ p)
    (hwait : (sourceOf s (frameSource bytes)).waiting = [(q, bytes)]) : CarriesOut (.safeFrameReceive p bytes) s (fun t =>
      (sourceOf t (frameSource bytes)).waiting = [] ∧ (sourceOf t (frameSource bytes)).seq = some (seqOf bytes) ∧
        (sourceOf t (frameSource bytes)).fault = false ∧ (sourceOf t (frameSource bytes)).group = asksGroup bytes ∧
        (asksGroup bytes = true → t.hedge.group = true)) := by
  refine safeFrameReceive_takes hlive hvalid hlater ?_
  have hother : otherCopy (frameSource bytes) p bytes s = some (q, bytes) := by simp [otherCopy, hwait, hq]
  rw [takeCopy_pairs (copyRead_cyclic hframe) hother, sourceOf_takePair, hwait]
  exact ⟨by simp, rfl, rfl, rfl, takeGroup_trips _ _⟩

theorem safeFrameReceive_differs (hlive : hedgeLive s = true) (hvalid : copyValid s bytes = true)
    (hlater : copyLater s bytes = true) (hframe : tripFrameBytes bytes = false) {q : Path} {other : List Byte} (hq : q ≠ p)
    (hwait : (sourceOf s (frameSource bytes)).waiting = [(q, other)]) (hseq : seqOf other = seqOf bytes)
    (hother : other ≠ bytes) : CarriesOut (.safeFrameReceive p bytes) s (fun t =>
      (sourceOf t (frameSource bytes)).waiting = [] ∧ (sourceOf t (frameSource bytes)).fault = true ∧
        t.hedge.safeFault = true) := by
  refine safeFrameReceive_takes hlive hvalid hlater ?_
  have hfound : otherCopy (frameSource bytes) p bytes s = some (q, other) := by simp [otherCopy, hwait, hq, hseq]
  rw [takeCopy_differs (copyRead_cyclic hframe) hfound hother, sourceOf_safeFault,
    sourceOf_putSource_same _ (by exact sourceOf_slot _ _), hwait]
  exact ⟨by simp [hseq], rfl, safeFault_latches ..⟩

theorem safeFrameReceive_trip (hlive : hedgeLive s = true) (hvalid : copyValid s bytes = true)
    (hlater : copyLater s bytes = true) (hframe : tripFrameBytes bytes = true) (hasks : asksGroup bytes = true) :
    CarriesOut (.safeFrameReceive p bytes) s (fun t =>
      (sourceOf t (frameSource bytes)).group = true ∧ t.hedge.group = true) :=
  safeFrameReceive_takes hlive hvalid hlater (takeCopy_trip hframe hasks)

theorem safeFrameReceive_discards (hlive : hedgeLive s = true) (h : copyValid s bytes = false ∨ copyLater s bytes = false) :
    Completes (.safeFrameReceive p bytes) s (fun t =>
      t = { s with hedge := { s.hedge with safeDiscards := s.hedge.safeDiscards + 1 } }) := by
  have hrefused : (copyValid s bytes && copyLater s bytes) = false := Bool.and_eq_false_iff.mpr h
  refine ⟨_, ?_, rfl⟩
  show execSafeFrameReceive p bytes s = _
  simp only [execSafeFrameReceive, receiveSafe, hlive, hrefused, Bool.not_true, Bool.false_eq_true, if_false]
  rfl

theorem safeFrameReceive_ignores (hlive : hedgeLive s = false) : Ignores (.safeFrameReceive p bytes) s := by
  show execSafeFrameReceive p bytes s = _
  simp only [execSafeFrameReceive, receiveSafe, hlive, Bool.not_false, if_true]

variable {slot : Slot}

theorem safeFrameCopyMissing_faults {w : Path × List Byte} {rest : List (Path × List Byte)}
    (hwait : (sourceOf s slot.val).waiting = w :: rest) : CarriesOut (.safeFrameCopyMissing slot) s (fun t =>
      (sourceOf t slot.val).waiting = rest ∧ (sourceOf t slot.val).fault = true ∧ t.hedge.safeFault = true) := by
  refine ⟨safeFault slot.val 1 [byte (flag (w.1 == .trellis))] (wordBytes 4 (seqOf w.2))
    (putSource { sourceOf s slot.val with waiting := rest } s), ?_, ?_⟩
  · show execSafeFrameCopyMissing slot s = _
    simp only [execSafeFrameCopyMissing, hwait]
  · dsimp only
    rw [sourceOf_safeFault, sourceOf_putSource_same _ (by exact sourceOf_slot _ _)]
    exact ⟨rfl, rfl, safeFault_latches ..⟩

theorem safeFrameCopyMissing_ignores (hwait : (sourceOf s slot.val).waiting = []) : Ignores (.safeFrameCopyMissing slot) s := by
  show execSafeFrameCopyMissing slot s = _
  simp only [execSafeFrameCopyMissing, hwait]

theorem safeFramePairTimeout_faults (hlive : hedgeLive s = true) (hmember : slot.val ∈ otherMembers s)
    (hseq : (sourceOf s slot.val).seq ≠ none) : CarriesOut (.safeFramePairTimeout slot) s (fun t =>
      (sourceOf t slot.val).fault = true ∧ t.hedge.safeFault = true) := by
  refine carriesOut_of (show _ = execSafeFramePairTimeout slot s from rfl)
    ⟨hlive, hmember, Option.isSome_iff_ne_none.mpr hseq⟩ ?_
  rw [sourceOf_safeFault]
  exact ⟨rfl, safeFault_latches ..⟩

theorem safeFramePairTimeout_ignores
    (h : hedgeLive s = false ∨ slot.val ∉ otherMembers s ∨ (sourceOf s slot.val).seq = none) :
    Ignores (.safeFramePairTimeout slot) s := by
  refine ignores_of (show _ = execSafeFramePairTimeout slot s from rfl) ?_
  rintro ⟨hlive, hmember, hseq⟩
  rcases h with h | h | h
  · exact ne_true_of_eq_false h hlive
  · exact h hmember
  · rw [h] at hseq
    exact Bool.false_ne_true hseq

theorem safeFrameSequenceClear_clears (slot : Slot) (s : State) : Completes (.safeFrameSequenceClear slot) s (fun t =>
      (sourceOf t slot.val).seq = none ∧ (sourceOf t slot.val).waiting = (sourceOf s slot.val).waiting ∧
        ∀ y, y ≠ slot.val → sourceOf t y = sourceOf s y) := by
  refine ⟨_, show _ = execSafeFrameSequenceClear slot s from rfl, ?_⟩
  have hslot : (sourceOf s slot.val).slot = slot.val := sourceOf_slot s slot.val
  dsimp only
  rw [sourceOf_putSource_same _ (by exact hslot)]
  exact ⟨rfl, rfl, fun y hy => sourceOf_putSource_other s (by rw [hslot]; exact hy)⟩

theorem safeFrameFaultClear_clears (hfault : s.hedge.safeFault = true) (hmatch : membersMatch s = true) :
    CarriesOut .safeFrameFaultClear s (fun t => t = { s with hedge := { s.hedge with safeFault := false } }) :=
  carriesOut_of (show _ = execSafeFrameFaultClear s from rfl) (Bool.and_eq_true_iff.mpr ⟨hfault, hmatch⟩) rfl

theorem safeFrameFaultClear_ignores (h : s.hedge.safeFault = false ∨ membersMatch s = false) :
    Ignores .safeFrameFaultClear s :=
  ignores_of (show _ = execSafeFrameFaultClear s from rfl) (ne_true_of_eq_false (Bool.and_eq_false_iff.mpr h))

theorem groupTripClear_notes (hgroup : s.hedge.group = true) (hnone : ∀ y ∈ s.hedge.sources, y.group = false) :
    Completes .groupTripClear s (fun t => t = { s with hedge := { s.hedge with groupGone := true } }) := by
  have hall : s.hedge.sources.all (fun x => !x.group) = true := List.all_eq_true.mpr fun y hy => congrArg (!·) (hnone y hy)
  exact completes_of (show _ = execGroupTripClear s from rfl) (Bool.and_eq_true_iff.mpr ⟨hgroup, hall⟩) rfl

theorem groupTripClear_ignores (hgroup : s.hedge.group = false) : Ignores .groupTripClear s :=
  ignores_of (show _ = execGroupTripClear s from rfl)
    (ne_true_of_eq_false (Bool.and_eq_false_iff.mpr (.inl hgroup)))

/-! ### Sending (R226) -/

theorem safeFrameCyclic_sends (hsends : sendsSafe s = true) (hwait : s.hedge.safeWait = none) :
    Completes .safeFrameCyclic s (fun t =>
      t.out = .safeFrame .e0 (some (block0704 s 8 4, 49411)) (safeFrameBytes s 1) :: s.out ∧ t.hedge = { s.hedge with
        safeSeq := s.hedge.safeSeq + 1, safeWait := some (safeFrameBytes s 1) }) :=
  completes_of (show _ = execSafeFrameCyclic s from rfl)
    (Bool.and_eq_true_iff.mpr ⟨hsends, Option.isNone_iff_eq_none.mpr hwait⟩) ⟨rfl, rfl⟩

theorem safeFrameCyclic_ignores (h : sendsSafe s = false ∨ s.hedge.safeWait ≠ none) : Ignores .safeFrameCyclic s := by
  refine ignores_of (show _ = execSafeFrameCyclic s from rfl) ?_
  rw [Bool.and_eq_true, Option.isNone_iff_eq_none]
  exact fun ⟨hsends, hwait⟩ => h.elim (fun h => ne_true_of_eq_false h hsends) (fun h => h hwait)

theorem safeFrameTripSend_sends (hsends : sendsSafe s = true) (hchanged : tripChanged s = true) :
    Completes .safeFrameTripSend s (fun t =>
      t.out = .safeFrame .e0 (some (block0704 s 8 4, 49411)) (safeFrameBytes s 2) :: s.out ∧ t.hedge = { s.hedge with
        safeSeq := s.hedge.safeSeq + 1, lastState := safeState s, safeWait := some (safeFrameBytes s 2) }) :=
  completes_of (show _ = execSafeFrameTripSend s from rfl) (Bool.and_eq_true_iff.mpr ⟨hsends, hchanged⟩) ⟨rfl, rfl⟩

theorem safeFrameTripSend_ignores (h : sendsSafe s = false ∨ tripChanged s = false) : Ignores .safeFrameTripSend s :=
  ignores_of (show _ = execSafeFrameTripSend s from rfl) (ne_true_of_eq_false (Bool.and_eq_false_iff.mpr h))

end

/-! ### The statement -/

/-- Settles O41, command by command and case by case. -/
theorem safeFrameCommands : Obligations.SafeFrameCommands := by
  unfold Obligations.SafeFrameCommands
  intro s p bytes slot
  exact ⟨fun hlive hvalid hlater hframe => ⟨safeFrameReceive_first hlive hvalid hlater hframe,
      fun q => safeFrameReceive_pair hlive hvalid hlater hframe,
      fun q other => safeFrameReceive_differs hlive hvalid hlater hframe⟩,
    safeFrameReceive_trip, safeFrameReceive_discards, safeFrameReceive_ignores, fun w rest => safeFrameCopyMissing_faults,
    safeFrameCopyMissing_ignores, safeFramePairTimeout_faults, safeFramePairTimeout_ignores,
    safeFrameSequenceClear_clears slot s, safeFrameFaultClear_clears, safeFrameFaultClear_ignores, groupTripClear_notes,
    groupTripClear_ignores,
    fun hsends => ⟨safeFrameCyclic_sends hsends, fun h => safeFrameCyclic_ignores (.inr h), safeFrameTripSend_sends hsends,
      fun h => safeFrameTripSend_ignores (.inr h)⟩,
    fun hsends => ⟨safeFrameCyclic_ignores (.inl hsends), safeFrameTripSend_ignores (.inl hsends)⟩⟩

end Sys2Proof.Machine

/-! # The safety opcodes (R65, R239, R476)

As in the authorisation commands, a response carries the address that the module has once the effect of its request has settled. In
the running module of `addressHeldState` the standing conditions bring outlet 0 from S9 to S0, which releases the record 0x0102 held
under its number (R476), so that the response to TRIP_RESET goes out with another address than the statement gives it. -/

namespace Sys2Proof.Machine

/-- TRIP_RESET of outlet 0 on E0, with the HMAC that the host forms. -/
def tripResetRequest : Request :=
  let r : Request := ⟨.e0, 1, clsN, 1, 0, 0, 0, zeros 4, 0, 0, 0⟩
  { r with mac := hostMac addressHeldState (requestBytes 0x0703 r) }

/-- The state that the reset leads to before its response goes out: no trip is latched, and the standing conditions act. -/
def tripResetSettled : State := settle (admitted 0x0703 tripResetRequest addressHeldState)

theorem tripResetRequest_admitted : Admitted (opLen 0x0703 [clsN, clsH] 4) tripResetRequest addressHeldState := by
  refine ⟨by decide +kernel, by decide +kernel, ?_, .inr (by decide +kernel), by decide +kernel, by decide +kernel⟩
  exact Bool.and_eq_true_iff.mpr ⟨beq_self_eq_true _, by decide +kernel⟩

theorem tripResetRequest_completes :
    exec (.tripReset tripResetRequest) addressHeldState =
      .next (completeRequest tripResetRequest.port tripResetRequest.cls 0x0703 tripResetRequest.seq St.ok [] tripResetSettled) :=
  congrArg Host.Outcome.next (host_completes tripResetRequest_admitted (by decide) rfl)

/-- Outlet 0 has entered S0, and the module has its default address again. -/
theorem tripResetSettled_address : hostAddress tripResetSettled .e0 = 0xC0A80064 := by decide +kernel

/-- Refutes O42: TRIP_RESET of outlet 0 while it is in S9 with pilot A and a record 0x0102 is held under key 0. The standing
conditions bring the outlet to S0, the held record is released, and the response carries the default address where the statement
gives it the address of the state before. -/
theorem not_safetyOpcodes : ¬ Obligations.SafetyOpcodes := by
  unfold Obligations.SafetyOpcodes
  intro h
  obtain ⟨-, hreset, -⟩ := h addressHeldState 0 tripResetRequest false ⟨0, 0, 0, 0, 0, none⟩
  obtain ⟨houtlet, -⟩ := hreset (by decide) tripResetRequest_admitted
  obtain ⟨t, hexec, hanswers⟩ := houtlet (by decide)
  obtain rfl := Host.Outcome.next.inj (tripResetRequest_completes.symm.trans hexec)
  have haddress : hostAddress tripResetSettled .e0 = hostAddress addressHeldState .e0 :=
    hostAddress_of_answers (u := tripResetSettled) (r := tripResetRequest) (code := 0x0703) hanswers
  rw [tripResetSettled_address, addressHeldState_address] at haddress
  exact absurd haddress (by decide)

end Sys2Proof.Machine

/-! # The switch opcodes (R65, R259, R476)

As with the authorisation and safety commands, a response carries the address that the module has once the effect of its request has
settled. SWITCH_COMMAND acts on a host load, which has nothing to do with the outlets, but the standing conditions that follow it
reach them all the same: in a state like `addressHeldState` they bring outlet 0 from S9 to S0 and so release the record 0x0102 held
under its number. -/

namespace Sys2Proof.Machine

/-- `addressHeldState` with every channel set up as a host load. -/
def hostLoadsState : State :=
  { addressHeldState with sw.chans := List.replicate 16 { Switch.init with setup := [0, 2] ++ zeros 14 } }

/-- SWITCH_COMMAND on E0 that commands channel 8 off, with the HMAC that the host forms. -/
def switchOffRequest : Request :=
  let r : Request := ⟨.e0, 1, clsN, 1, 0, 0, 0, [8, 0, 0, 0], 0, 0, 0⟩
  { r with mac := hostMac hostLoadsState (requestBytes 0x0802 r) }

/-- The state that the command leads to before its response goes out. -/
def switchOffSettled : State := settle (commandChannel 8 false (admitted 0x0802 switchOffRequest hostLoadsState))

theorem switchOffRequest_admitted : Admitted (opLen 0x0802 [clsN, clsH] 4) switchOffRequest hostLoadsState := by
  refine ⟨by decide +kernel, by decide +kernel, ?_, .inr (by decide +kernel), by decide +kernel, by decide +kernel⟩
  exact Bool.and_eq_true_iff.mpr ⟨beq_self_eq_true _, by decide +kernel⟩

theorem switchOffRequest_completes :
    exec (.switchCommand switchOffRequest) hostLoadsState =
      .next (completeRequest switchOffRequest.port switchOffRequest.cls 0x0802 switchOffRequest.seq St.ok [] switchOffSettled) :=
  congrArg Host.Outcome.next (host_completes switchOffRequest_admitted (by decide) (guarded_pass (by decide +kernel)))

theorem hostLoadsState_address : hostAddress hostLoadsState .e0 = 0x0A000001 := addressHeldState_address

/-- Outlet 0 has entered S0, and the module has its default address again. -/
theorem switchOffSettled_address : hostAddress switchOffSettled .e0 = 0xC0A80064 := by decide +kernel

/-- Refutes O44: SWITCH_COMMAND to a host load while outlet 0 is in S9 with pilot A and a record 0x0102 is held under key 0. The
standing conditions bring the outlet to S0, the held record is released, and the response carries the default address where the
statement gives it the address of the state before. -/
theorem not_switchCommands : ¬ Obligations.SwitchCommands := by
  unfold Obligations.SwitchCommands
  rintro ⟨-, hopcodes⟩
  obtain ⟨hcommand, -⟩ := hopcodes hostLoadsState switchOffRequest []
  obtain ⟨hcarried, -⟩ := hcommand (by decide) (by decide) (by decide) (by decide)
  obtain ⟨t, hexec, hanswers, -⟩ := hcarried (by decide +kernel) (.inl (by decide)) switchOffRequest_admitted
  obtain rfl := Host.Outcome.next.inj (switchOffRequest_completes.symm.trans hexec)
  have haddress : hostAddress switchOffSettled .e0 = hostAddress hostLoadsState .e0 :=
    hostAddress_of_answers (u := switchOffSettled) (r := switchOffRequest) (code := 0x0802) hanswers
  rw [switchOffSettled_address, hostLoadsState_address] at haddress
  exact absurd haddress (by decide)

end Sys2Proof.Machine

/-! # Billing: credit, costs, periods and the clock (R268 to R270, R273, R277, R281, R282)

What each rule makes of a cost, a period and the clock, and the two statements. -/

namespace Sys2Proof.Machine

/-! ### The available credit (R281) -/

/-- The account of an outlet's open prepaid session, and no other, is the one that it runs on. -/
theorem prepaidAccount_eq_some {s : State} {o : Outlet} {i : Nat} :
    prepaidAccount s o = some i ↔
      (sessOf s o).prepaid = true ∧ (sessOf s o).closed = false ∧ (sessOf s o).grant.account = i := by
  unfold prepaidAccount
  dsimp only
  split
  · next h =>
    obtain ⟨hprepaid, hopen⟩ : (sessOf s o).prepaid = true ∧ (sessOf s o).closed = false := by simpa using h
    simp [hprepaid, hopen]
  · next h => exact ⟨nofun, fun ⟨hprepaid, hopen, _⟩ => absurd (by simp [hprepaid, hopen]) h⟩

/-- The cost that is open on an account: that of each open session which runs on it. -/
theorem openCost_eq (s : State) (i : Nat) :
    openCost s i = (outlets.map (fun o =>
      if (sessOf s o).prepaid = true ∧ (sessOf s o).closed = false ∧ (sessOf s o).grant.account = i then
        (s.bill.outlets.get o).cost else 0)).sum := by
  simp only [openCost, prepaidAccount_eq_some, sumInt, List.sum_eq_foldl]

/-- The credit check is made on the account that the store holds under the number. -/
theorem creditAccepts_iff (s : State) (i : Nat) :
    creditAccepts s i = true ↔ ∃ x, accountOf s i = some x ∧ 0 < availableCredit s x := by
  unfold creditAccepts
  cases accountOf s i <;> simp

/-! ### Session costs (R282) -/

theorem addCost_stopped {x : OutletBill} (price minor : Nat) (delta : Int) (h : x.stopped = true) :
    addCost price minor delta x = x := if_pos h

/-- What a window adds to a cost: whole units go to the cost, the rest stays in the remainder. -/
theorem addCost_runs {x : OutletBill} (price minor : Nat) (delta : Int) (h : x.stopped = false) :
    let v := (x.remainder : Int) + delta * price * minor
    addCost price minor delta x =
      { x with cost := x.cost + v / costUnit, residue := residueOf (x.cost + v / costUnit), remainder := (v % costUnit).toNat } :=
  if_neg (ne_true_of_eq_false h)

/-- Units and rest together are the whole, and the rest is below one unit. -/
theorem unit_and_remainder (c v : Int) :
    (c + v / costUnit) * 100000000 + ((v % costUnit).toNat : Int) = c * 100000000 + v ∧
      (v % costUnit).toNat < 100000000 := by
  unfold costUnit
  omega

theorem addCost_keeps_whole {x : OutletBill} (price minor : Nat) (delta : Int) (h : x.stopped = false) :
    let y := addCost price minor delta x
    y.cost * 100000000 + y.remainder = x.cost * 100000000 + x.remainder + delta * price * minor ∧
      y.remainder < 100000000 ∧ y.residue = residueOf y.cost ∧ y.account = x.account := by
  obtain ⟨hwhole, hrest⟩ := unit_and_remainder x.cost (x.remainder + delta * price * minor)
  rw [addCost_runs price minor delta h]
  exact ⟨hwhole.trans (Int.add_assoc ..).symm, hrest, rfl, rfl⟩

/-! ### Closing a billing period (R268 to R270, R273) -/

/-- The record of the period that closes. -/
def closedPeriod (endUtc : Option Nat) (late byCommand : Bool) (s : State) : PeriodRecord :=
  let body := periodBody endUtc (periodFlags late byCommand s) s
  { number := s.bill.period, endUtc, values := s.bill.values, bytes := body ++ wordBytes 64 (metrologySign s body) }

/-- The billing state as the next period starts, after the record of the one that closes. -/
def startPeriodAfter (r : PeriodRecord) (b : Billing) : Billing :=
  { b with
    periods := (r :: b.periods).take 16
    demand := clearMaxima b.demand, demand0 := clearedBlock b.demand0, demand1 := clearedBlock b.demand1
    period := b.period + 1, periodStart := r.endUtc, lastEnd := r.endUtc, stopped := []
    pStep := false, pIncomplete := false, pLost := false, deferred := false
    outlets := outlets.foldl (fun (p : PerOutlet OutletBill) o => p.set o { p.get o with stopped := false }) b.outlets }

/-- Entry 0x0901 of a period that closes. -/
def periodDetail (endUtc : Option Nat) (late byCommand : Bool) (s : State) : List Byte :=
  leBytes 4 s.bill.period ++ leBytes 4 (utcField endUtc) ++ leBytes 2 (periodFlags late byCommand s) ++ zeros 6

/-- A period closes by its signed record and one legal entry. -/
theorem closePeriod_eq (origin : Nat) (endUtc : Option Nat) (late byCommand : Bool) (s : State) :
    closePeriod origin endUtc late byCommand s =
      log origin 0x09 0x0901 (periodDetail endUtc late byCommand s) true
        (signed (setBill (startPeriodAfter (closedPeriod endUtc late byCommand s)) s)) := rfl

/-- A signature leaves the billing. -/
@[simp] theorem signed_bill (s : State) : (signed s).bill = s.bill :=
  signed_keeps (·.bill) (fun _ => rfl) (fun _ _ _ => rfl) (fun _ _ _ => rfl) s

theorem closePeriod_bill (origin : Nat) (endUtc : Option Nat) (late byCommand : Bool) (s : State) :
    (closePeriod origin endUtc late byCommand s).bill = startPeriodAfter (closedPeriod endUtc late byCommand s) s.bill := by
  rw [closePeriod_eq, log_bill, signed_bill, setBill_bill]

/-- What neither the billing nor the count of the free values nor the key tails nor the logs change, the close of a period
leaves. -/
theorem closePeriod_keeps {α : Type} (g : State → α) (hb : ∀ f t, g (setBill f t) = g t) (hd : ∀ t, g (draw t) = g t)
    (hk : ∀ a b t, g (setCis (fun c => { c with tailA := a, tailB := b }) t) = g t)
    (hl : ∀ l d t, g { t with logs := l, dom := d } = g t) (origin : Nat) (endUtc : Option Nat) (late byCommand : Bool)
    (s : State) : g (closePeriod origin endUtc late byCommand s) = g s := by
  rw [closePeriod_eq, log_eq]
  exact (hl _ _ _).trans ((signed_keeps g hd hk hl _).trans (hb _ _))

theorem closePeriod_newest (origin : Nat) (endUtc : Option Nat) (late byCommand : Bool) (s : State) :
    ∃ e, (closePeriod origin endUtc late byCommand s).logs.general.head? = some e ∧ e.origin = origin ∧ e.sub = 0x09 ∧
      e.code = 0x0901 := by
  rw [closePeriod_eq]
  exact ⟨_, log_general_head .., rfl, rfl, rfl⟩

/-- A demand block that is written has a good CRC, which does not run over itself. -/
theorem sealDemand_good (d : DemandBlock) : demandGood (sealDemand d) = true := beq_self_eq_true (crc32c (demandBody d))

/-- A good block of retention SRAM stays good as its maxima are taken back. -/
theorem clearedBlock_good {d : DemandBlock} (h : demandGood d = true) :
    demandGood (clearedBlock d) = true ∧ (clearedBlock d).maxima = List.replicate 16 (0, 0) := by
  rw [clearedBlock, if_pos h]
  exact ⟨sealDemand_good _, rfl⟩

/-! ### Setting and slewing the clock (R277) -/

/-- The difference that a step to a target reports. -/
def stepDifference (utc ms : Nat) (s : State) : Int :=
  if s.sun.utcValid then (utc : Int) * 1000 + ms - utcMs s else noDifference

/-- The state in which the clock stands at its new time, before the step is logged. -/
def clockStepped (utc ms : Nat) (s : State) : State :=
  setBill (fun b => { b with
    slew := 0, stepPending := true, pStep := true
    openRecs := outlets.foldl (fun (p : PerOutlet (Option OpenRecord)) o =>
      p.set o ((p.get o).map (fun x => { x with clockStep := true }))) b.openRecs })
    { s with sun := { s.sun with utc := utc, utcMark := (s.clockMs : Int) - ms, utcValid := true } }

section
variable {s : State} {origin : Nat} (horigin : origin ∈ [1, 2, 3])
include horigin

/-- A host may step the clock while the legal log has room. -/
theorem clockStep_room (utc ms : Nat) (hroom : legalRoom s = true) :
    clockStep origin utc ms s =
      (logClock origin 1 (utcField (utcNow s)) utc (stepDifference utc ms s) (clockStepped utc ms s), St.ok,
        stepDifference utc ms s) := by
  have hmay : ¬ (!(decide (origin ∈ [1, 2, 3]) || (decide (origin = 6) && inService s))) = true := by simp [horigin]
  exact (if_neg hmay).trans (if_neg (by simp [hroom]))

theorem clockStep_full (utc ms : Nat) (hroom : legalRoom s = false) : clockStep origin utc ms s = (s, St.noSpace, 0) := by
  have hmay : ¬ (!(decide (origin ∈ [1, 2, 3]) || (decide (origin = 6) && inService s))) = true := by simp [horigin]
  exact (if_neg hmay).trans (if_pos (by simp [hroom]))

end

theorem legal_length_of_room {s : State} (h : legalRoom s = true) : s.logs.legal.length < 4096 := by
  have hfree : 64 ≤ legalSize - s.logs.legal.length := of_decide_eq_true h
  unfold legalSize at hfree
  omega

/-- A step is a legal event: with room it is one more entry of the legal log. -/
theorem logClock_step_legal {s : State} (origin old new : Nat) (delta : Int) (h : s.logs.legal.length < 4096) :
    (logClock origin 1 old new delta s).logs.legal.length = s.logs.legal.length + 1 := by
  obtain ⟨hlegal, -⟩ := log_true_room origin 0x09 0x0902
    (byte 1 :: zeros 3 ++ leBytes 4 old ++ leBytes 4 new ++ leInt 4 delta) h
  exact congrArg List.length hlegal

theorem clockSlew_invalid {s : State} (origin : Nat) (delta : Int) (h : s.sun.utcValid = false) :
    clockSlew origin delta s = (s, St.refusedState) := if_pos (by simp [h])

theorem clockSlew_far {s : State} (origin : Nat) {delta : Int} (h : s.sun.utcValid = true) (hfar : 2000 < delta.natAbs) :
    clockSlew origin delta s = (s, St.range) := (if_neg (by simp [h])).trans (if_pos hfar)

/-- A slew of a valid clock by at most 2 s begins, and is logged. -/
theorem clockSlew_near {s : State} (origin : Nat) {delta : Int} (h : s.sun.utcValid = true) (hnear : delta.natAbs ≤ 2000) :
    clockSlew origin delta s =
      (logClock origin 0 s.sun.utc ((utcMs s + delta) / 1000).toNat delta (setBill (fun b => { b with slew := delta }) s),
        St.ok) := (if_neg (by simp [h])).trans (if_neg (Nat.not_lt.mpr hnear))

/-! ### The statements -/

/-- Settles O47: a cost by the division of what is added, a period by its equation, and the clock case by case. -/
theorem billingRules : Obligations.BillingRules := by
  refine ⟨fun price minor delta x => ⟨addCost_stopped price minor delta, addCost_keeps_whole price minor delta⟩,
    fun origin endUtc late byCommand s => ?_,
    fun s origin utc ms delta => ⟨fun horigin hroom => ?_, fun horigin => clockStep_full horigin utc ms,
      clockSlew_invalid origin delta, clockSlew_far origin, fun hvalid hnear => ?_⟩⟩
  · have hsess := closePeriod_keeps (·.sess) (fun _ _ => rfl) (fun _ => rfl) (fun _ _ _ => rfl) (fun _ _ _ => rfl) origin endUtc
      late byCommand s
    have henergy := closePeriod_keeps (·.energy) (fun _ _ => rfl) (fun _ => rfl) (fun _ _ _ => rfl) (fun _ _ _ => rfl) origin
      endUtc late byCommand s
    dsimp only
    rw [closePeriod_bill]
    exact ⟨rfl, rfl, rfl, rfl, rfl, List.length_take_le .., clearedBlock_good, clearedBlock_good,
      ⟨closedPeriod endUtc late byCommand s, s.bill.periods.take 15, rfl, rfl, rfl, rfl, rfl⟩, closePeriod_newest .., hsess,
      henergy⟩
  · rw [clockStep_room horigin utc ms hroom]
    refine ⟨rfl, log_sun .., ?_, rfl, logClock_step_legal _ _ _ _ (legal_length_of_room hroom), log_sess ..⟩
    exact congrArg Billing.slew (log_bill ..)
  · rw [clockSlew_near origin hvalid hnear]
    exact ⟨rfl, log_bill .., log_sun .., log_false_legal ..⟩

end Sys2Proof.Machine

namespace Sys2Proof

/-- Settles O46: the open cost by what it means that a session runs on an account, the credit check by the account that it finds. -/
theorem availableCredit : Obligations.AvailableCredit := fun s a i =>
  ⟨congrArg (fun cost => a.balance - cost + if a.emergencyAllowed then a.limit else 0) (Machine.openCost_eq s a.index),
    Machine.creditAccepts_iff s i⟩

end Sys2Proof

/-! # The reads of billing, display and key store (R297, R298, R315, R350)

What each action with cases of its own does, and the statement. -/

namespace Sys2Proof.Machine

/-! ### Fields of the requests (R48) -/

theorem firstFail_single {body : List Byte} {f : FieldSpec} (h : fieldStatus body f = St.ok) : firstFail body [f] = St.ok :=
  firstFail_cons_ok h

theorem fieldStatus_anyF (body : List Byte) (off n : Nat) : fieldStatus body (anyF off n) = St.ok := rfl

/-- SESSION_RECORD_READ asks for up to 5 records. -/
theorem sessionRecordRead_fields {p : List Byte} (hcount : fieldN p 4 1 ≤ 5) (hres : fieldN p 5 3 = 0) :
    firstFail p [anyF 0 4, cntZ 4 1 0 5, rsv 5 3] = St.ok := by
  rw [firstFail_cons_ok (fieldStatus_anyF ..), firstFail_cons_ok (fieldStatus_cntZ (Nat.zero_le _) hcount),
    firstFail_single (fieldStatus_rsv hres)]

/-- A code in a range followed by a reserved field. -/
theorem firstFail_span_rsv {p : List Byte} {off n lo hi off' n' : Nat} (hlo : lo ≤ fieldN p off n) (hhi : fieldN p off n ≤ hi)
    (hres : fieldN p off' n' = 0) : firstFail p [span off n lo hi, rsv off' n'] = St.ok := by
  rw [firstFail_cons_ok (fieldStatus_span hlo hhi), firstFail_single (fieldStatus_rsv hres)]

/-! ### The first check that fails (R51) -/

theorem need_fails {c : Bool} (h : c = false) (st : Nat) : need c st = st := if_neg (ne_true_of_eq_false h)

theorem guarded_head {st : Nat} {l : List Nat} {act : State → State × Answer} {s : State} (h : st ≠ St.ok) :
    guarded (st :: l) act s = refuse st s := guarded_stop (List.find?_cons_of_pos (by simp [h]))

theorem guarded_tail {st : Nat} {l : List Nat} {act : State → State × Answer} {s : State} (h : st = St.ok) :
    guarded (st :: l) act s = guarded l act s := by
  unfold guarded
  rw [List.find?_cons_of_neg (by simp [h])]

/-! ### Actions with cases of their own -/

/-- What BILLING_PERIOD_READ does for a period. -/
def periodRead (n : Nat) (s : State) : State × Answer :=
  match s.bill.periods.find? (fun x => x.number == n) with
  | some x => reply x.bytes s
  | none => refuse St.checkFail s

theorem periodRead_found {n : Nat} {s : State} {x : PeriodRecord} (h : s.bill.periods.find? (fun x => x.number == n) = some x) :
    periodRead n s = reply x.bytes s := by
  rw [periodRead, h]

theorem periodRead_absent {n : Nat} {s : State} (h : s.bill.periods.find? (fun x => x.number == n) = none) :
    periodRead n s = refuse St.checkFail s := by
  rw [periodRead, h]

/-- The state in which the tamper store has been acknowledged. -/
def tamperAcknowledged (s : State) : State := setBill (fun b => { b with tamper := { b.tamper with unacked := false } }) s

/-- What TAMPER_READ does. -/
def tamperRead (p : List Byte) (s : State) : State × Answer :=
  guarded [firstFail p [span 0 1 0 1, rsv 1 3], need (fieldN p 0 1 == 0 || inService s) St.refusedState]
    (fun s => reply (tamperStore s) (if fieldN p 0 1 = 1 then tamperAcknowledged s else s)) s

theorem tamperRead_plain {p : List Byte} (s : State) (hack : fieldN p 0 1 = 0) (hres : fieldN p 1 3 = 0) :
    tamperRead p s = reply (tamperStore s) s := by
  have hfields : firstFail p [span 0 1 0 1, rsv 1 3] = St.ok := firstFail_span_rsv (Nat.zero_le _) (by omega) hres
  unfold tamperRead
  rw [guarded_pass (by simp [hfields, need_of, hack]), if_neg (by omega)]

theorem tamperRead_acknowledge {p : List Byte} {s : State} (hack : fieldN p 0 1 = 1) (hres : fieldN p 1 3 = 0)
    (hservice : s.cis.lifecycle = 3) : tamperRead p s = reply (tamperStore s) (tamperAcknowledged s) := by
  have hfields : firstFail p [span 0 1 0 1, rsv 1 3] = St.ok := firstFail_span_rsv (Nat.zero_le _) (by omega) hres
  unfold tamperRead
  rw [guarded_pass (by simp [hfields, need_of, inService, hservice]), if_pos hack]

theorem tamperRead_refused {p : List Byte} {s : State} (hack : fieldN p 0 1 = 1) (hres : fieldN p 1 3 = 0)
    (hservice : s.cis.lifecycle ≠ 3) : tamperRead p s = refuse St.refusedState s := by
  have hfields : firstFail p [span 0 1 0 1, rsv 1 3] = St.ok := firstFail_span_rsv (Nat.zero_le _) (by omega) hres
  rw [tamperRead, guarded_tail hfields, need_fails (by simp [inService, hack, hservice]), guarded_head (by decide)]

/-- The body of an attestation (R350). -/
def attestBody (s : State) : List Byte :=
  [byte s.cis.lifecycle, 0] ++ leBytes 2 (keyGen s) ++ leBytes 4 ((statementInForce s).elim 0 (fun x => x.number)) ++
    digestBytes s.cis.legalMeas ++ digestBytes s.cis.appMeas

/-- What ATTEST answers: the body and its signature under the identity key. -/
def attestation (challenge : List Byte) (s : State) : List Byte :=
  attestBody s ++ s.cis.identity.elim (openField 64 s)
    (fun d => wordBytes 64 (Config.sign d (challenge ++ attestBody s) s.freeCount))

theorem attestation_signed {s : State} {d : BitVec 256} (challenge : List Byte) (h : s.cis.identity = some d) :
    attestation challenge s =
      attestBody s ++ wordBytes 64 (Config.sign d (challenge ++ attestBody s) s.freeCount) := by
  rw [attestation, h, Option.elim_some]

/-! ### The statement -/

/-- Settles O12: each read is a reply that the host link passes on, and a refusal leaves the module as it is. -/
theorem legalSideReads : Obligations.LegalSideReads := by
  intro s r
  refine ⟨?_, fun hcount hres => ?_, fun x hx => ?_, fun hnone => ?_, ?_, fun hindex hres => ?_, fun hack hres => ?_,
    fun hack hres => ⟨fun hservice => ?_, fun hservice => ?_⟩, ?_, fun hid hoff hlen hres => ?_, ?_, fun hres hitem => ?_,
    fun d hd => ?_⟩
  · exact host_leads (u := draw s) rfl (sameSender_of rfl rfl rfl) fun _ => rfl
  · exact host_leads (u := draw s) rfl (sameSender_of rfl rfl rfl) fun _ => guarded_one (sessionRecordRead_fields hcount hres)
  · exact host_reads (act := periodRead (fieldN r.payload 0 4)) rfl fun _ _ _ => periodRead_found hx
  · exact host_refuses (act := periodRead (fieldN r.payload 0 4)) rfl fun _ => periodRead_absent hnone
  · exact host_reads rfl fun _ _ _ => rfl
  · exact host_reads rfl fun _ _ _ => guarded_one (firstFail_span_rsv (Nat.zero_le _) hindex hres)
  · exact host_reads (act := tamperRead r.payload) rfl fun _ _ _ => tamperRead_plain _ hack hres
  · exact host_leads (act := tamperRead r.payload) (u := tamperAcknowledged s) rfl (sameSender_of rfl rfl rfl) fun _ =>
      tamperRead_acknowledge hack hres hservice
  · exact host_refuses (act := tamperRead r.payload) rfl fun _ => tamperRead_refused hack hres hservice
  · exact host_reads rfl fun _ _ _ => rfl
  · exact host_reads rfl fun _ _ _ => bulkRead_block _ _ hid hoff hlen hres
  · exact host_reads rfl fun _ _ _ => rfl
  · exact host_reads rfl fun _ _ _ => guarded_pass (by simp [need_of, reservedOk_of, hitem, hres])
  · exact host_leads (act := fun u => reply (attestation r.payload u) (draw u)) (u := draw s) rfl (sameSender_of rfl rfl rfl)
      fun x => congrArg (reply · (draw (withHost x s))) (attestation_signed r.payload (s := withHost x s) hd)

end Sys2Proof.Machine

/-! # Objects that come in one block (R53 to R55, R519)

What the first block of a transfer does, and the answer of a load that it opens. -/

namespace Sys2Proof.Machine

/-! ### An object that comes in one block, and one that does not (R54, R55) -/

theorem mapM_none_of_mem {α β : Type} {f : α → Option β} {l : List α} {a : α} (ha : a ∈ l) (hf : f a = none) :
    l.mapM f = none := by
  induction l with
  | nil => cases ha
  | cons b l ih =>
    rw [List.mapM_cons]
    rcases List.mem_cons.mp ha with rfl | hl
    · rw [hf]
      rfl
    · rw [ih hl]
      cases f b <;> rfl

/-- Reading every position of a list gives the list. -/
theorem mapM_getElem?_range {α : Type} (l : List α) : (List.range l.length).mapM (fun i => l[i]?) = some l := by
  induction l with
  | nil => rfl
  | cons a l ih =>
    rw [List.length_cons, List.range_succ_eq_map, List.mapM_cons, List.mapM_map]
    have hrest : ((fun i => (a :: l)[i]?) ∘ Nat.succ) = fun i => l[i]? := rfl
    rw [hrest, ih]
    rfl

theorem byteAt_single (off : Nat) (data : List Byte) (i : Nat) :
    byteAt [(off, data)] i = if off ≤ i then data[i - off]? else none := by
  by_cases h : off ≤ i <;> simp [byteAt, h]

/-- One block from the start with every byte is the object. -/
theorem assemble_whole (data : List Byte) : assemble [(0, data)] data.length = some data := by
  simp only [assemble, byteAt_single, Nat.zero_le, if_true, Nat.sub_zero]
  exact mapM_getElem?_range data

/-- One block with fewer bytes is not the object: the byte after it, or the first, is missing. -/
theorem assemble_part {off total : Nat} {data : List Byte} (h : data.length < total) : assemble [(off, data)] total = none := by
  by_cases hoff : off = 0
  · refine mapM_none_of_mem (a := data.length) (List.mem_range.mpr h) ?_
    rw [byteAt_single, hoff, if_pos (Nat.zero_le _)]
    exact List.getElem?_eq_none (Nat.le_refl _)
  · refine mapM_none_of_mem (a := 0) (List.mem_range.mpr (by omega)) ?_
    rw [byteAt_single, if_neg (by omega)]

/-! ### The first block of a transfer (R53 to R55, R519) -/

/-- The object that a write block brings, as far as it brings it. -/
def writtenData (p : List Byte) : List Byte := slice p 16 (fieldN p 12 2)

/-- The header that answers a write block. -/
def blockReply (p : List Byte) : List Byte := blockHeader (fieldN p 0 4) (fieldN p 4 4) (fieldN p 8 4) (fieldN p 12 2)

/-- The transfer that a block opens. -/
def openedTransfer (code : Nat) (r : Request) : Transfer :=
  { id := fieldN r.payload 0 4, object := code, port := r.port, total := fieldN r.payload 8 4, blocks := [], received := 0
    state := .receiving, status := St.ok }

theorem writtenData_length {n : Nat} {p : List Byte} (h : BlockFits n p) : (writtenData p).length = fieldN p 12 2 := by
  obtain ⟨-, -, -, -, -, -, -, -, hlength, -⟩ := h
  rw [writtenData, slice, List.length_take, List.length_drop]
  omega

/-- A block that fits passes every check of its header. -/
theorem blockChecks_pass {n : Nat} {p : List Byte} (h : BlockFits n p) : ∀ x ∈ blockChecks n p, x = St.ok := by
  obtain ⟨hid, hoff, hzero, htotal, hlen, hmax, hend, hmod, hlength, hres⟩ := h
  have hbody : (decide (fieldN p 12 2 ≤ 1384) && decide (fieldN p 4 4 + fieldN p 12 2 ≤ fieldN p 8 4) &&
      (fieldN p 12 2 % 8 == 0 || fieldN p 4 4 + fieldN p 12 2 == fieldN p 8 4) && p.length == 16 + fieldN p 12 2) = true := by
    simp [hmax, hend, hmod, hlength]
  simp [blockChecks, need_of, reservedOk_of, hid, hoff, hzero, htotal, hlen, hbody, hres]

/-- No other origin holds a load of an object that may open. -/
theorem heldElsewhere_of_mayOpen {s : State} {code : Nat} {port : Port} {id : Nat} (h : MayOpen s code port id) :
    heldElsewhere code port s = false := by
  obtain ⟨-, -, hall⟩ := h
  refine List.any_eq_false.mpr fun t ht => ?_
  have hthis := List.all_eq_true.mp hall t ht
  simp only [Bool.or_eq_true, bne_iff_ne, beq_iff_eq, Bool.and_eq_true] at hthis ⊢
  rintro ⟨⟨hreceiving, hobject⟩, hport⟩
  rcases hthis with (hstate | hcode) | hsame
  · exact hstate hreceiving
  · exact hcode hobject
  · exact hport hsame

section
variable {code maxTotal : Nat} {check : Nat → Nat} {apply : List Byte → State → State × Nat} {r : Request} {s : State}
  (hfits : BlockFits maxTotal r.payload) (hcheck : check (fieldN r.payload 8 4) = St.ok)
  (hopen : MayOpen s code r.port (fieldN r.payload 0 4))
include hfits hcheck hopen

theorem bulkWrite_checks : ∀ x ∈ blockChecks maxTotal r.payload ++
    [check (fieldN r.payload 8 4), need (decide (openTransfers s < 4)) St.busy, need (!heldElsewhere code r.port s) St.busy],
    x = St.ok := by
  have hfree := heldElsewhere_of_mayOpen hopen
  obtain ⟨-, hfew, -⟩ := hopen
  refine List.forall_mem_append.mpr ⟨blockChecks_pass hfits, ?_⟩
  simp [need_of, hcheck, hfew, hfree]

/-- A first block is taken: alone it is the object or a part of it. -/
theorem bulkWrite_first : bulkWrite code maxTotal check apply r s =
    match assemble [(fieldN r.payload 4 4, writtenData r.payload)] (fieldN r.payload 8 4) with
    | none => (putTransfer { openedTransfer code r with
          blocks := [(fieldN r.payload 4 4, writtenData r.payload)]
          received := receivedBytes [(fieldN r.payload 4 4, writtenData r.payload)] (fieldN r.payload 8 4) } s,
        .now St.ok (blockReply r.payload))
    | some object =>
      let u := apply object s
      (putTransfer { openedTransfer code r with
          received := fieldN r.payload 8 4, status := u.2, state := if u.2 = St.ok then .applied else .refused } u.1,
        .now u.2 (if u.2 = St.ok then blockReply r.payload else [])) := by
  have hchecks := bulkWrite_checks hfits hcheck hopen
  have hheader : blockHeader (fieldN r.payload 0 4) (fieldN r.payload 4 4) (fieldN r.payload 8 4)
      (slice r.payload 16 (fieldN r.payload 12 2)).length = blockReply r.payload :=
    congrArg (blockHeader _ _ _) (writtenData_length hfits)
  obtain ⟨hnone, -⟩ := hopen
  unfold bulkWrite
  dsimp only
  rw [hnone]
  dsimp only
  rw [guarded_pass hchecks, hheader]
  rfl

/-- The block that is the whole object is applied, and its transfer ends with the object's status. -/
theorem bulkWrite_whole (hlen : fieldN r.payload 12 2 = fieldN r.payload 8 4) :
    ∃ t : Transfer, bulkWrite code maxTotal check apply r s =
      let u := apply (writtenData r.payload) s
      (putTransfer t u.1, .now u.2 (if u.2 = St.ok then blockReply r.payload else [])) := by
  have hdata := writtenData_length hfits
  have hstart : fieldN r.payload 4 4 = 0 := by
    obtain ⟨-, -, -, -, -, -, hend, -⟩ := hfits
    omega
  have hassemble : assemble [(fieldN r.payload 4 4, writtenData r.payload)] (fieldN r.payload 8 4) =
      some (writtenData r.payload) := by
    rw [hstart, ← hlen, ← hdata, assemble_whole]
  rw [bulkWrite_first hfits hcheck hopen, hassemble]
  exact ⟨_, rfl⟩

/-- A block that is a part of its object waits for the rest. -/
theorem bulkWrite_part (hlen : fieldN r.payload 12 2 < fieldN r.payload 8 4) :
    ∃ t : Transfer, bulkWrite code maxTotal check apply r s = (putTransfer t s, .now St.ok (blockReply r.payload)) := by
  have hdata := writtenData_length hfits
  have hassemble : assemble [(fieldN r.payload 4 4, writtenData r.payload)] (fieldN r.payload 8 4) = none :=
    assemble_part (by omega)
  rw [bulkWrite_first hfits hcheck hopen, hassemble]
  exact ⟨_, rfl⟩

end

theorem mayOpen_withHost {s : State} {x : HostLink} (hx : x.transfers = s.host.transfers) {code : Nat} {port : Port} {id : Nat}
    (h : MayOpen s code port id) : MayOpen (withHost x s) code port id := by
  simpa only [MayOpen, findTransfer, openTransfers, withHost, hx] using h

/-- A load that its first block opens: the block that is the whole object is applied and answered with its status; a part is
acknowledged, and the module waits as it is. -/
theorem load_answers {code maxTotal : Nat} {check : Nat → Nat} {apply : List Byte → State → State × Nat} {c : Instr} {r : Request}
    {s : State}
    (hc : exec c s = .next (hostRequest (opBulk code [clsB]) r (bulkWrite code maxTotal check apply r) s))
    (happly : ∀ b x, apply b (withHost x s) = (withHost x (apply b s).1, (apply b s).2))
    (hsender : ∀ b, SameSender s (apply b s).1) (hfits : BlockFits maxTotal r.payload)
    (hcheck : check (fieldN r.payload 8 4) = St.ok) (hopen : MayOpen s code r.port (fieldN r.payload 0 4))
    (hadmitted : Admitted (opBulk code [clsB]) r s) :
    let u := apply (writtenData r.payload) s
    ∃ t, exec c s = .next t ∧
      (fieldN r.payload 12 2 = fieldN r.payload 8 4 →
        Answers s r code u.2 (if u.2 = St.ok then blockReply r.payload else []) t ∧ SameModule u.1 t) ∧
      (fieldN r.payload 12 2 < fieldN r.payload 8 4 → Answers s r code St.ok (blockReply r.payload) t ∧ SameModule s t) := by
  let u := apply (writtenData r.payload) s
  refine ⟨_, hc, fun hlen => ?_, fun hlen => ?_⟩
  · obtain ⟨t, ht, hanswers⟩ := host_answers (v := u.1) (st := u.2) (pl := if u.2 = St.ok then blockReply r.payload else []) hc
      (fun x hx _ => by
        obtain ⟨t, hwrite⟩ := bulkWrite_whole (apply := apply) hfits hcheck (mayOpen_withHost hx hopen) hlen
        rw [happly] at hwrite
        exact ⟨_, hwrite, hsender _, rfl⟩) hadmitted
    rwa [← Host.Outcome.next.inj (hc.symm.trans ht)] at hanswers
  · obtain ⟨t, ht, hanswers⟩ := host_answers (v := s) hc (fun x hx _ => by
        obtain ⟨t, hwrite⟩ := bulkWrite_part (apply := apply) hfits hcheck (mayOpen_withHost hx hopen) hlen
        exact ⟨_, hwrite, sameSender_of rfl rfl rfl, rfl⟩) hadmitted
    rwa [← Host.Outcome.next.inj (hc.symm.trans ht)] at hanswers

end Sys2Proof.Machine

/-! # The opcodes of billing (R277, R284, R296 to R298)

Each action beside the host link, case by case: loads of tables and accounts, a credit, the clock and the close of a period. -/

namespace Sys2Proof.Machine

/-! ### What packets take from the state, step by step (R50, R65) -/

theorem SameSender.trans {s u v : State} (h : SameSender s u) (g : SameSender u v) : SameSender s v := by
  obtain ⟨hkey, haddress⟩ := h
  obtain ⟨gkey, gaddress⟩ := g
  exact ⟨gkey.trans hkey, fun p => (gaddress p).trans (haddress p)⟩

theorem log_sender (origin sub code : Nat) (detail : List Byte) (legal : Bool) (s : State) :
    SameSender s (log origin sub code detail legal s) :=
  sameSender_of (log_power ..) (log_cfg ..) (congrArg Cistern.hostKey (log_cis ..))

theorem setBill_sender (f : Billing → Billing) (s : State) : SameSender s (setBill f s) := sameSender_of rfl rfl rfl

/-! ### Loading the tariff table (R296) -/

theorem applyTable_withHost (origin : Nat) (b : List Byte) (x : HostLink) (s : State) :
    applyTable origin b (withHost x s) = (withHost x (applyTable origin b s).1, (applyTable origin b s).2) := by
  have hstatus : tableStatus (withHost x s) b = tableStatus s b := rfl
  unfold applyTable
  dsimp only
  rw [hstatus, legalRoom_withHost]
  split
  · rfl
  · split
    · rfl
    · rfl

theorem applyTable_sender (origin : Nat) (b : List Byte) (s : State) : SameSender s (applyTable origin b s).1 := by
  unfold applyTable
  dsimp only
  split
  · exact sameSender_of rfl rfl rfl
  · split
    · exact sameSender_of rfl rfl rfl
    · exact setBill_sender _ s

/-! ### Loading accounts, and crediting one (R297, R298) -/

theorem logAccount_withHost (x : HostLink) (origin index kind : Nat) (amount : Int) (s : State) :
    logAccount origin index kind amount (withHost x s) = withHost x (logAccount origin index kind amount s) :=
  log_withHost ..

theorem logAccount_sender (origin index kind : Nat) (amount : Int) (s : State) :
    SameSender s (logAccount origin index kind amount s) := log_sender ..

/-- The state in which an entry of a load has been put, or taken away, before it is logged. -/
def accountEntered (e : List Byte) (s : State) : State :=
  if (fieldN e 2 1).testBit 0 then putAccount (accountFrom e) s
  else setBill (fun b => { b with
    accounts := b.accounts.filter (fun x => x.index != (accountFrom e).index), accountsChanged := true }) s

theorem loadAccount_eq (origin : Nat) (s : State) (e : List Byte) :
    loadAccount origin s e = logAccount origin (accountFrom e).index 0 (accountFrom e).balance (accountEntered e s) := rfl

theorem accountEntered_withHost (x : HostLink) (e : List Byte) (s : State) :
    accountEntered e (withHost x s) = withHost x (accountEntered e s) := by
  unfold accountEntered
  split <;> rfl

theorem accountEntered_sender (e : List Byte) (s : State) : SameSender s (accountEntered e s) := by
  unfold accountEntered
  split <;> exact setBill_sender _ s

theorem loadAccount_withHost (x : HostLink) (origin : Nat) (e : List Byte) (s : State) :
    loadAccount origin (withHost x s) e = withHost x (loadAccount origin s e) := by
  rw [loadAccount_eq, loadAccount_eq, accountEntered_withHost, logAccount_withHost]

theorem loadAccount_sender (origin : Nat) (e : List Byte) (s : State) : SameSender s (loadAccount origin s e) :=
  (accountEntered_sender e s).trans (logAccount_sender ..)

/-- The state in which the store has been emptied for a load that replaces all. -/
def accountsEmptied (b : List Byte) (s : State) : State :=
  if fieldN b 0 1 = 0 then setBill (fun x => { x with accounts := [], accountsChanged := true }) s else s

theorem accountsEmptied_withHost (x : HostLink) (b : List Byte) (s : State) :
    accountsEmptied b (withHost x s) = withHost x (accountsEmptied b s) := by
  unfold accountsEmptied
  split <;> rfl

theorem accountsEmptied_sender (b : List Byte) (s : State) : SameSender s (accountsEmptied b s) := by
  unfold accountsEmptied
  split <;> exact sameSender_of rfl rfl rfl

/-- The state from which the entries of a load are put; a load without entries is logged by itself. -/
def accountBase (origin : Nat) (b : List Byte) (s : State) : State :=
  if fieldN b 4 4 = 0 then logAccount origin 0xFFFF 0 0 (accountsEmptied b s) else accountsEmptied b s

theorem accountBase_withHost (x : HostLink) (origin : Nat) (b : List Byte) (s : State) :
    accountBase origin b (withHost x s) = withHost x (accountBase origin b s) := by
  rw [accountBase, accountBase, accountsEmptied_withHost, logAccount_withHost]
  split <;> rfl

theorem accountBase_sender (origin : Nat) (b : List Byte) (s : State) : SameSender s (accountBase origin b s) := by
  unfold accountBase
  split
  · exact (accountsEmptied_sender b s).trans (logAccount_sender ..)
  · exact accountsEmptied_sender b s

theorem writeAccountStore_withHost (x : HostLink) (s : State) :
    writeAccountStore (withHost x s) = withHost x (writeAccountStore s) := rfl

theorem writeAccountStore_sender (s : State) : SameSender s (writeAccountStore s) := setBill_sender _ s

/-- The state in which a good load has been applied. -/
def accountsLoaded (origin : Nat) (b : List Byte) (s : State) : State :=
  writeAccountStore ((accountEntries b).foldl (loadAccount origin) (accountBase origin b s))

theorem applyAccounts_refused (origin : Nat) {b : List Byte} (s : State) (h : accountStatus b ≠ St.ok) :
    applyAccounts origin b s = (s, accountStatus b) := if_pos h

theorem applyAccounts_good (origin : Nat) {b : List Byte} (s : State) (h : accountStatus b = St.ok) :
    applyAccounts origin b s = (accountsLoaded origin b s, St.ok) := if_neg (not_not_intro h)

theorem accountsLoaded_withHost (x : HostLink) (origin : Nat) (b : List Byte) (s : State) :
    accountsLoaded origin b (withHost x s) = withHost x (accountsLoaded origin b s) := by
  have hload := List.foldl_hom (l := accountEntries b) (init := accountBase origin b s) (withHost x)
    (fun t e => loadAccount_withHost x origin e t)
  rw [accountsLoaded, accountBase_withHost, hload, writeAccountStore_withHost]
  rfl

theorem accountsLoaded_sender (origin : Nat) (b : List Byte) (s : State) : SameSender s (accountsLoaded origin b s) := by
  have hload : SameSender s ((accountEntries b).foldl (loadAccount origin) (accountBase origin b s)) :=
    List.foldlRecOn (motive := SameSender s) _ _ (accountBase_sender origin b s)
      fun t ht e _ => ht.trans (loadAccount_sender origin e t)
  exact hload.trans (writeAccountStore_sender _)

theorem applyAccounts_withHost (origin : Nat) (b : List Byte) (x : HostLink) (s : State) :
    applyAccounts origin b (withHost x s) = (withHost x (applyAccounts origin b s).1, (applyAccounts origin b s).2) := by
  by_cases h : accountStatus b = St.ok
  · rw [applyAccounts_good origin _ h, applyAccounts_good origin _ h, accountsLoaded_withHost]
  · rw [applyAccounts_refused origin _ h, applyAccounts_refused origin _ h]

theorem applyAccounts_sender (origin : Nat) (b : List Byte) (s : State) : SameSender s (applyAccounts origin b s).1 := by
  by_cases h : accountStatus b = St.ok
  · rw [applyAccounts_good origin _ h]
    exact accountsLoaded_sender origin b s
  · rw [applyAccounts_refused origin _ h]
    exact sameSender_of rfl rfl rfl

/-- An account after a credit: beside its balance, emergency credit alone may go out of use. -/
def creditedAccount (s : State) (a : Account) (amount : Int) : Account :=
  let paid := { a with balance := a.balance + amount }
  { paid with emergencyInUse := a.emergencyInUse && decide (availableCredit s paid ≤ paid.limit) }

theorem creditAccount_eq (origin : Nat) (a : Account) (amount : Int) (s : State) :
    creditAccount origin a amount s =
      writeAccountStore (logAccount origin a.index 1 amount (putAccount (creditedAccount s a amount) s)) := rfl

theorem creditAccount_withHost (x : HostLink) (origin : Nat) (a : Account) (amount : Int) (s : State) :
    creditAccount origin a amount (withHost x s) = withHost x (creditAccount origin a amount s) := by
  have hput : putAccount (creditedAccount (withHost x s) a amount) (withHost x s) =
    withHost x (putAccount (creditedAccount s a amount) s) := rfl
  rw [creditAccount_eq, creditAccount_eq, hput, logAccount_withHost, writeAccountStore_withHost]

theorem creditAccount_sender (origin : Nat) (a : Account) (amount : Int) (s : State) :
    SameSender s (creditAccount origin a amount s) :=
  ((setBill_sender _ s).trans (logAccount_sender ..)).trans (writeAccountStore_sender _)

theorem accountOf_congr {s t : State} (h : t.bill.accounts = s.bill.accounts) (i : Nat) : accountOf t i = accountOf s i := by
  rw [accountOf, accountOf, h]

theorem accountOf_putAccount (a : Account) (s : State) : accountOf (putAccount a s) a.index = some a :=
  List.find?_cons_of_pos (beq_self_eq_true a.index)

theorem index_of_accountOf {s : State} {i : Nat} {a : Account} (h : accountOf s i = some a) : a.index = i := by
  have hfound : s.bill.accounts.find? (fun a => a.index == i) = some a := h
  simpa using List.find?_some hfound

/-- Writing the store leaves the accounts. -/
theorem writeAccountStore_accounts (s : State) : (writeAccountStore s).bill.accounts = s.bill.accounts := rfl

theorem logAccount_bill (origin index kind : Nat) (amount : Int) (s : State) :
    (logAccount origin index kind amount s).bill = s.bill := log_bill ..

/-- The credited account is the one that the store holds after the credit. -/
theorem accountOf_creditAccount (origin : Nat) (a : Account) (amount : Int) (s : State) :
    accountOf (creditAccount origin a amount s) a.index = some (creditedAccount s a amount) := by
  have haccounts : (creditAccount origin a amount s).bill.accounts =
      (putAccount (creditedAccount s a amount) s).bill.accounts := by
    rw [creditAccount_eq, writeAccountStore_accounts, logAccount_bill]
  exact (accountOf_congr haccounts _).trans (accountOf_putAccount (creditedAccount s a amount) s)

/-! ### Setting the clock by opcode (R277, R298) -/

theorem portOrigin_mem (p : Port) : portOrigin p ∈ [1, 2, 3] := by
  cases p <;> decide

theorem fieldStatus_msk {body : List Byte} {off n m : Nat} (h : fieldN body off n &&& m = fieldN body off n) :
    fieldStatus body (msk off n m) = St.ok := if_pos h

theorem clockSet_fields {p : List Byte} (hms : fieldN p 4 2 ≤ 999) (hres : fieldN p 7 1 = 0)
    (hkind : fieldN p 6 1 = 0 ∨ fieldN p 6 1 = 1) : firstFail p [anyF 0 4, span 4 2 0 999, msk 6 1 1, rsv 7 1] = St.ok := by
  have hmask : fieldN p 6 1 &&& 1 = fieldN p 6 1 := by
    rcases hkind with h | h <;> rw [h] <;> rfl
  rw [firstFail_cons_ok (fieldStatus_anyF ..), firstFail_cons_ok (fieldStatus_span (Nat.zero_le _) hms),
    firstFail_cons_ok (fieldStatus_msk hmask), firstFail_single (fieldStatus_rsv hres)]

theorem clockStep_withHost {origin : Nat} {s : State} (horigin : origin ∈ [1, 2, 3]) (hroom : legalRoom s = true) (utc ms : Nat)
    (x : HostLink) : clockStep origin utc ms (withHost x s) =
      (withHost x (clockStep origin utc ms s).1, St.ok, (clockStep origin utc ms s).2.2) := by
  rw [clockStep_room horigin utc ms hroom, clockStep_room (s := withHost x s) horigin utc ms hroom]
  exact congrArg (·, St.ok, stepDifference utc ms s)
    (log_withHost x origin 0x09 0x0902 _ _ (clockStepped utc ms s))

theorem clockStep_sender {origin : Nat} {s : State} (horigin : origin ∈ [1, 2, 3]) (hroom : legalRoom s = true) (utc ms : Nat) :
    SameSender s (clockStep origin utc ms s).1 := by
  rw [clockStep_room horigin utc ms hroom]
  exact SameSender.trans (u := clockStepped utc ms s) (sameSender_of rfl rfl rfl) (log_sender ..)

/-- The difference of a target to the clock. -/
def clockDifference (p : List Byte) (s : State) : Int := (fieldN p 0 4 : Int) * 1000 + fieldN p 4 2 - utcMs s

theorem clockSlew_withHost (origin : Nat) {delta : Int} {s : State} (hvalid : s.sun.utcValid = true)
    (hnear : delta.natAbs ≤ 2000) (x : HostLink) :
    clockSlew origin delta (withHost x s) = (withHost x (clockSlew origin delta s).1, St.ok) := by
  rw [clockSlew_near origin hvalid hnear, clockSlew_near (s := withHost x s) origin hvalid hnear]
  exact congrArg (·, St.ok) (log_withHost x origin 0x09 0x0902 _ _ (setBill (fun b => { b with slew := delta }) s))

theorem clockSlew_sender (origin : Nat) {delta : Int} {s : State} (hvalid : s.sun.utcValid = true)
    (hnear : delta.natAbs ≤ 2000) : SameSender s (clockSlew origin delta s).1 := by
  rw [clockSlew_near origin hvalid hnear]
  exact (setBill_sender _ s).trans (log_sender ..)

section
variable {r : Request} (s : State)

/-- A request of kind 1 steps the clock, or refuses with the status of the step. -/
theorem setClock_steps (hkind : fieldN r.payload 6 1 = 1) :
    setClock r s =
      let u := clockStep (portOrigin r.port) (fieldN r.payload 0 4) (fieldN r.payload 4 2) s
      if u.2.1 = St.ok then reply (leInt 4 u.2.2) u.1 else refuse u.2.1 s := if_pos hkind

/-- A request of kind 0 slews the clock, or refuses with the status of the slew. -/
theorem setClock_slews (hkind : fieldN r.payload 6 1 = 0) :
    setClock r s =
      let u := clockSlew (portOrigin r.port) (clockDifference r.payload s) s
      if u.2 = St.ok then reply (leInt 4 (clockDifference r.payload s)) u.1 else refuse u.2 s := if_neg (by omega)

end

section
variable {r : Request} {s : State}

theorem setClock_room (hkind : fieldN r.payload 6 1 = 1) (hroom : legalRoom s = true) (x : HostLink) :
    setClock r (withHost x s) =
      reply (leInt 4 (clockStep (portOrigin r.port) (fieldN r.payload 0 4) (fieldN r.payload 4 2) s).2.2)
        (withHost x (clockStep (portOrigin r.port) (fieldN r.payload 0 4) (fieldN r.payload 4 2) s).1) := by
  rw [setClock_steps _ hkind, clockStep_withHost (portOrigin_mem r.port) hroom]
  rfl

theorem setClock_full (hkind : fieldN r.payload 6 1 = 1) (hroom : legalRoom s = false) :
    setClock r s = refuse St.noSpace s := by
  rw [setClock_steps _ hkind, clockStep_full (portOrigin_mem r.port) _ _ hroom]
  rfl

theorem setClock_invalid (hkind : fieldN r.payload 6 1 = 0) (hvalid : s.sun.utcValid = false) :
    setClock r s = refuse St.refusedState s := by
  rw [setClock_slews _ hkind, clockSlew_invalid _ _ hvalid]
  rfl

theorem setClock_far (hkind : fieldN r.payload 6 1 = 0) (hvalid : s.sun.utcValid = true)
    (hfar : 2000 < (clockDifference r.payload s).natAbs) : setClock r s = refuse St.range s := by
  rw [setClock_slews _ hkind, clockSlew_far _ hvalid hfar]
  rfl

theorem setClock_near (hkind : fieldN r.payload 6 1 = 0) (hvalid : s.sun.utcValid = true)
    (hnear : (clockDifference r.payload s).natAbs ≤ 2000) (x : HostLink) :
    setClock r (withHost x s) =
      reply (leInt 4 (clockDifference r.payload s))
        (withHost x (clockSlew (portOrigin r.port) (clockDifference r.payload s) s).1) := by
  have hdiff : clockDifference r.payload (withHost x s) = clockDifference r.payload s := rfl
  rw [setClock_slews _ hkind, hdiff, clockSlew_withHost _ hvalid hnear]
  rfl

end

/-! ### Closing a period by opcode (R268, R298) -/

theorem closePeriod_withHost (x : HostLink) (origin : Nat) (endUtc : Option Nat) (late byCommand : Bool) (s : State) :
    closePeriod origin endUtc late byCommand (withHost x s) = withHost x (closePeriod origin endUtc late byCommand s) := by
  have hstart : setBill (startPeriodAfter (closedPeriod endUtc late byCommand (withHost x s))) (withHost x s) =
      withHost x (setBill (startPeriodAfter (closedPeriod endUtc late byCommand s)) s) := rfl
  rw [closePeriod_eq, closePeriod_eq, hstart, signed_withHost, log_withHost]
  rfl

theorem closePeriod_sender (origin : Nat) (endUtc : Option Nat) (late byCommand : Bool) (s : State) :
    SameSender s (closePeriod origin endUtc late byCommand s) :=
  ((setBill_sender _ s).trans (signed_sender _)).trans (log_sender ..)

/-- What BILLING_PERIOD_CLOSE does. -/
def periodClose (origin : Nat) (s : State) : State × Answer :=
  guarded [need (!s.bill.deferred) St.refusedState, need (legalRoom s) St.noSpace]
    (fun s => reply (leBytes 4 s.bill.period) (closePeriod origin (utcNow s) false true s)) s

theorem periodClose_closes {s : State} (origin : Nat) (hdeferred : s.bill.deferred = false) (hroom : legalRoom s = true) :
    periodClose origin s = reply (leBytes 4 s.bill.period) (closePeriod origin (utcNow s) false true s) :=
  guarded_pass (by simp [need_of, hdeferred, hroom])

theorem periodClose_deferred {s : State} (origin : Nat) (hdeferred : s.bill.deferred = true) :
    periodClose origin s = refuse St.refusedState s := by
  rw [periodClose, need_fails (by simp [hdeferred]), guarded_head (by decide)]

theorem periodClose_full {s : State} (origin : Nat) (hdeferred : s.bill.deferred = false) (hroom : legalRoom s = false) :
    periodClose origin s = refuse St.noSpace s := by
  rw [periodClose, guarded_tail (need_of (by simp [hdeferred]) _), need_fails hroom, guarded_head (by decide)]

/-! ### Crediting an account by opcode (R297, R298) -/

/-- What ACCOUNT_CREDIT does. -/
def accountCredit (r : Request) (s : State) : State × Answer :=
  guarded [ need (accountOf s (fieldN r.payload 0 2)).isSome St.range, reservedOk r.payload 2 2
          , need (fieldI r.payload 4 8 != 0) St.lenZero, need (!heldElsewhere 0x0908 r.port s) St.busy ]
    (fun s =>
      let a := (accountOf s (fieldN r.payload 0 2)).getD (accountDefault (fieldN r.payload 0 2))
      reply (leInt 8 (a.balance + fieldI r.payload 4 8))
        (creditAccount (portOrigin r.port) a (fieldI r.payload 4 8) s)) s

theorem heldElsewhere_withHost {x : HostLink} {s : State} (hx : x.transfers = s.host.transfers) (code : Nat) (port : Port) :
    heldElsewhere code port (withHost x s) = heldElsewhere code port s := by
  simp only [heldElsewhere, withHost, hx]

section
variable {r : Request} {s : State}

theorem accountCredit_absent (h : accountOf s (fieldN r.payload 0 2) = none) : accountCredit r s = refuse St.range s := by
  rw [accountCredit, need_fails (by simp [h]), guarded_head (by decide)]

section
variable (hres : fieldN r.payload 2 2 = 0)
include hres

theorem accountCredit_zero (h : (accountOf s (fieldN r.payload 0 2)).isSome = true) (hzero : fieldI r.payload 4 8 = 0) :
    accountCredit r s = refuse St.lenZero s := by
  rw [accountCredit, guarded_tail (need_of h _), guarded_tail (reservedOk_of hres), need_fails (by simp [hzero]),
    guarded_head (by decide)]

theorem accountCredit_busy (h : (accountOf s (fieldN r.payload 0 2)).isSome = true) (hzero : fieldI r.payload 4 8 ≠ 0)
    (hheld : heldElsewhere 0x0908 r.port s = true) : accountCredit r s = refuse St.busy s := by
  rw [accountCredit, guarded_tail (need_of h _), guarded_tail (reservedOk_of hres), guarded_tail (need_of (by simp [hzero]) _),
    need_fails (by simp [hheld]), guarded_head (by decide)]

theorem accountCredit_credits {a : Account} (h : accountOf s (fieldN r.payload 0 2) = some a) (hzero : fieldI r.payload 4 8 ≠ 0)
    (hheld : heldElsewhere 0x0908 r.port s = false) :
    accountCredit r s = reply (leInt 8 (a.balance + fieldI r.payload 4 8))
      (creditAccount (portOrigin r.port) a (fieldI r.payload 4 8) s) := by
  unfold accountCredit
  rw [guarded_pass (by simp [need_of, reservedOk_of, h, hres, hzero, hheld])]
  simp only [h, Option.getD_some]

end
end

/-! ### The opcodes, by their actions beside the host link (R277, R296 to R298) -/

section
variable {r : Request} {s : State}

section
variable (hms : fieldN r.payload 4 2 ≤ 999) (hres : fieldN r.payload 7 1 = 0)
include hms hres

theorem clockSet_act (hkind : fieldN r.payload 6 1 = 0 ∨ fieldN r.payload 6 1 = 1) (t : State) :
    guarded [firstFail r.payload [anyF 0 4, span 4 2 0 999, msk 6 1 1, rsv 7 1]] (setClock r) t = setClock r t :=
  guarded_one (clockSet_fields hms hres hkind)

theorem clockSet_refuses {st : Nat} (hkind : fieldN r.payload 6 1 = 0 ∨ fieldN r.payload 6 1 = 1)
    (hst : ∀ x, setClock r (withHost x s) = refuse st (withHost x s)) :
    Admitted (opLen 0x0902 [clsN] 8) r s → Completes (.clockSet r) s (fun t => Answers s r 0x0902 st [] t ∧ SameModule s t) :=
  host_refuses rfl fun x => (clockSet_act hms hres hkind _).trans (hst x)

theorem clockSet_steps (hkind : fieldN r.payload 6 1 = 1) (hroom : legalRoom s = true) :
    Admitted (opLen 0x0902 [clsN] 8) r s → Completes (.clockSet r) s (fun t =>
      Answers s r 0x0902 St.ok
        (leInt 4 (clockStep (portOrigin r.port) (fieldN r.payload 0 4) (fieldN r.payload 4 2) s).2.2) t ∧
      SameModule (clockStep (portOrigin r.port) (fieldN r.payload 0 4) (fieldN r.payload 4 2) s).1 t) :=
  host_leads rfl (clockStep_sender (portOrigin_mem r.port) hroom _ _) fun x =>
    (clockSet_act hms hres (.inr hkind) _).trans (setClock_room hkind hroom x)

theorem clockSet_slews (hkind : fieldN r.payload 6 1 = 0) (hvalid : s.sun.utcValid = true)
    (hnear : (clockDifference r.payload s).natAbs ≤ 2000) :
    Admitted (opLen 0x0902 [clsN] 8) r s → Completes (.clockSet r) s (fun t =>
      Answers s r 0x0902 St.ok (leInt 4 (clockDifference r.payload s)) t ∧
      SameModule (clockSlew (portOrigin r.port) (clockDifference r.payload s) s).1 t) :=
  host_leads rfl (clockSlew_sender _ hvalid hnear) fun x =>
    (clockSet_act hms hres (.inl hkind) _).trans (setClock_near hkind hvalid hnear x)

end

theorem billingPeriodClose_closes (hdeferred : s.bill.deferred = false) (hroom : legalRoom s = true) :
    Admitted (opNone 0x0905 [clsN]) r s → Completes (.billingPeriodClose r) s (fun t =>
      Answers s r 0x0905 St.ok (leBytes 4 s.bill.period) t ∧
      SameModule (closePeriod (portOrigin r.port) (utcNow s) false true s) t) :=
  host_leads (act := periodClose (portOrigin r.port)) rfl (closePeriod_sender _ _ _ _ s) fun x =>
    (periodClose_closes (s := withHost x s) _ hdeferred hroom).trans
      (congrArg (reply (leBytes 4 s.bill.period)) (closePeriod_withHost x _ _ _ _ s))

theorem billingPeriodClose_refuses {st : Nat}
    (hst : ∀ x, periodClose (portOrigin r.port) (withHost x s) = refuse st (withHost x s)) :
    Admitted (opNone 0x0905 [clsN]) r s →
      Completes (.billingPeriodClose r) s (fun t => Answers s r 0x0905 st [] t ∧ SameModule s t) :=
  host_refuses (act := periodClose (portOrigin r.port)) rfl hst

theorem accountCredit_refuses {st : Nat}
    (hst : ∀ x, x.transfers = s.host.transfers → accountCredit r (withHost x s) = refuse st (withHost x s)) :
    Admitted (opLen 0x0909 [clsN, clsH] 12) r s →
      Completes (.accountCredit r) s (fun t => Answers s r 0x0909 st [] t ∧ SameModule s t) :=
  host_answers (act := accountCredit r) rfl fun x hx _ => ⟨withHost x s, hst x hx, sameSender_of rfl rfl rfl, rfl⟩

theorem accountCredit_completes (hres : fieldN r.payload 2 2 = 0) (hzero : fieldI r.payload 4 8 ≠ 0)
    (hheld : heldElsewhere 0x0908 r.port s = false) {a : Account} (ha : accountOf s (fieldN r.payload 0 2) = some a) :
    Admitted (opLen 0x0909 [clsN, clsH] 12) r s → Completes (.accountCredit r) s (fun t =>
      Answers s r 0x0909 St.ok (leInt 8 (a.balance + fieldI r.payload 4 8)) t ∧
      SameModule (creditAccount (portOrigin r.port) a (fieldI r.payload 4 8) s) t) :=
  host_answers (act := accountCredit r) rfl fun x hx _ =>
    ⟨withHost x (creditAccount (portOrigin r.port) a (fieldI r.payload 4 8) s),
      (accountCredit_credits (s := withHost x s) hres ha hzero ((heldElsewhere_withHost hx _ _).trans hheld)).trans
        (congrArg (reply (leInt 8 (a.balance + fieldI r.payload 4 8))) (creditAccount_withHost x _ a _ s)),
      creditAccount_sender _ a _ s, rfl⟩

/-- A load of accounts has a header and whole entries. -/
theorem accountLoad_check {n : Nat} (h : decide (16 ≤ n ∧ (n - 16) % 40 = 0) = true) :
    need (decide (16 ≤ n) && (n - 16) % 40 == 0) St.lenBad = St.ok := by
  obtain ⟨hhead, hentries⟩ := of_decide_eq_true h
  exact need_of (by simp [hhead, hentries]) _

end

end Sys2Proof.Machine

/-! # The commands of billing (R263, R268, R274 to R276, R283 to R288)

The account store, the tamper inputs, the evaluation by what its steps leave of the part of the billing that is its own, and the
statement. -/

namespace Sys2Proof.Machine

/-! ### The account store (R284) -/

/-- The copy that a save writes. -/
def savedAccounts (b : Billing) : AccountStore :=
  let gen (c : Option AccountStore) : Nat := c.elim 0 (fun x => x.generation)
  { generation := max (gen b.storeA) (gen b.storeB) + 1, lastRecord := b.lastRecord, accounts := b.accounts
    crc := entriesCheck b.accounts }

/-- One of the two places of the store holds the saved copy. -/
theorem writeAccountStore_saves (s : State) :
    (writeAccountStore s).bill.storeA = some (savedAccounts s.bill) ∨
      (writeAccountStore s).bill.storeB = some (savedAccounts s.bill) :=
  (Decidable.em _).imp (fun h => if_pos h) (fun h => if_neg h)

theorem accountStoreWrite_saves {s : State} (h : up s = true) (hchanged : s.bill.accountsChanged = true) :
    Completes .accountStoreWrite s (fun t =>
      t.bill.accountsChanged = false ∧ t.bill.accounts = s.bill.accounts ∧
        ∃ c, (t.bill.storeA = some c ∨ t.bill.storeB = some c) ∧ c.accounts = s.bill.accounts ∧
          c.lastRecord = s.bill.lastRecord) :=
  ⟨writeAccountStore s, congrArg Host.Outcome.next (if_pos ⟨h, hchanged⟩), rfl, rfl, savedAccounts s.bill,
    writeAccountStore_saves s, rfl, rfl⟩

theorem accountStoreWrite_ignores {s : State} (h : up s = false ∨ s.bill.accountsChanged = false) :
    Ignores .accountStoreWrite s :=
  congrArg Host.Outcome.next (if_neg (fun ⟨hup, hchanged⟩ => h.elim (by simp [hup]) (by simp [hchanged])))

/-! ### The tamper inputs (R287, R288) -/

/-- The inputs and their store after a sample of the four inputs. -/
def tamperAfter (s : State) (opened : BitVec 4) : Tamper := (List.range 4).foldl (sampleInput s opened) s.bill.tamper

/-- The state in which the inputs have been sampled, before events pass to the log. -/
def tamperSampled (opened : BitVec 4) (s : State) : State := setBill (fun b => { b with tamper := tamperAfter s opened }) s

/-- The state in which the pending events stand in the log. -/
def tamperLogged (s : State) : State :=
  let es := s.bill.tamper.events
  let t := es.dropLast.foldl (fun u e => logTamper e 0 u) s
  es.getLast?.elim t (fun e => logTamper e s.bill.tamper.overflow t)

theorem logTampers_next (es : List TamperEvent) (s : State) :
    (es.foldl (fun u e => logTamper e 0 u) s).logs.next = s.logs.next + es.length := by
  induction es generalizing s with
  | nil => rfl
  | cons e es ih =>
    rw [List.foldl_cons, ih, logTamper, log_next, List.length_cons]
    omega

theorem logTampers_bill (es : List TamperEvent) (s : State) :
    (es.foldl (fun u e => logTamper e 0 u) s).bill = s.bill :=
  foldl_keeps (·.bill) (fun u e => logTamper e 0 u) (fun _ _ => log_bill ..) es s

/-- Each pending event is one entry of the log, and the store is as before. -/
theorem tamperLogged_entries {s : State} (h : s.bill.tamper.events ≠ []) :
    (tamperLogged s).logs.next = s.logs.next + s.bill.tamper.events.length ∧ (tamperLogged s).bill = s.bill := by
  have hcount := List.length_pos_iff.mpr h
  unfold tamperLogged
  dsimp only
  rw [List.getLast?_eq_some_getLast h, Option.elim_some]
  constructor
  · rw [logTamper, log_next, logTampers_next, List.length_dropLast]
    omega
  · rw [logTamper, log_bill, logTampers_bill]

theorem drainTamper_waits {s : State} (h : s.power.state ≠ .run ∨ up s = false ∨ s.bill.tamper.events = []) :
    drainTamper s = s :=
  if_neg (by rcases h with h | h | h <;> simp [h])

theorem drainTamper_drains {s : State} (hup : up s = true) (hrun : s.power.state = .run) (h : s.bill.tamper.events ≠ []) :
    drainTamper s =
      setBill (fun b => { b with tamper := { b.tamper with events := [], overflow := 0 } }) (tamperLogged s) :=
  if_pos (by simp [hup, hrun, h])

theorem tamperSample_off {s : State} (opened : BitVec 4) (h : s.power.state = .off) : Ignores (.tamperSample opened) s :=
  congrArg Host.Outcome.next (if_pos h)

theorem exec_tamperSample {s : State} (opened : BitVec 4) (h : s.power.state ≠ .off) :
    exec (.tamperSample opened) s = .next (drainTamper (tamperSampled opened s)) := congrArg Host.Outcome.next (if_neg h)

theorem tamperSample_waits {s : State} (opened : BitVec 4) (h : s.power.state ≠ .off)
    (hwaits : s.power.state ≠ .run ∨ up s = false ∨ (tamperAfter s opened).events = []) :
    Completes (.tamperSample opened) s (fun t => t = { s with bill := { s.bill with tamper := tamperAfter s opened } }) :=
  ⟨_, exec_tamperSample opened h, drainTamper_waits (s := tamperSampled opened s) hwaits⟩

theorem tamperSample_drains {s : State} (opened : BitVec 4) (hup : up s = true) (hrun : s.power.state = .run)
    (h : (tamperAfter s opened).events ≠ []) :
    Completes (.tamperSample opened) s (fun t =>
      t.bill.tamper = { tamperAfter s opened with events := [], overflow := 0 } ∧
        t.logs.next = s.logs.next + (tamperAfter s opened).events.length) := by
  obtain ⟨hnext, hbill⟩ := tamperLogged_entries (s := tamperSampled opened s) h
  refine ⟨_, exec_tamperSample opened (by simp [hrun]), ?_⟩
  rw [drainTamper_drains (s := tamperSampled opened s) hup hrun h]
  exact ⟨congrArg (fun b : Billing => { b.tamper with events := [], overflow := 0 }) hbill, hnext⟩


/-! ### The part of the billing that is of the evaluations (R265, R274) -/

/-- The part of the billing that is of the evaluations: the block that they write, the tables, and what they keep of their own. -/
structure Evaluation where
  control : ControlBlock
  table : Option (Nat × List Rec)
  nextTable : Option (Nat × List Rec)
  afterCut : Bool
  stepPending : Bool
  subInterval : Option Int

/-- That part of a state. -/
def evaluation (s : State) : Evaluation :=
  ⟨s.bill.control, s.bill.table, s.bill.nextTable, s.bill.afterCut, s.bill.stepPending, s.bill.subInterval⟩

theorem evaluation_of_bill {s t : State} (h : t.bill = s.bill) : evaluation t = evaluation s := by
  rw [evaluation, evaluation, h]

/-! ### Operations that leave the billing -/

theorem SameModule.bill_eq {s t : State} (h : SameModule s t) : t.bill = s.bill := by
  unfold SameModule at h
  rw [h]

theorem bill_of_besideLink {s t : State} (h : besideLink t = besideLink s) : t.bill = s.bill := by
  rw [eq_of_besideLink h]

theorem journal_bill (kind object seq : Nat) (s : State) : (journal kind object seq s).bill = s.bill := by rw [journal_eq]

theorem snapshot_bill (ms : List Nat) (s : State) : (snapshot ms s).bill = s.bill := by rw [snapshot_eq]

theorem logCause_bill (s : State) : (logCause s).bill = s.bill := log_bill ..

theorem goTo_bill (o : Outlet) (x : SState) (s : State) : (goTo o x s).bill = s.bill := by
  unfold goTo
  dsimp only
  rw [(eventAll_same ..).bill_eq]
  split <;> exact journal_bill ..

theorem scrAction_bill (o : Outlet) (row : Nat) (cuts : Bool) (measured limit : List Byte) (s : State) :
    (scrAction o row cuts measured limit s).bill = s.bill := by
  by_cases h : (if cuts then (s.hedge.scr.get o).cut else (s.hedge.scr.get o).ramp) = true
  · exact congrArg State.bill (if_pos h)
  · exact (congrArg State.bill (if_neg h)).trans (log_bill ..)

theorem withhold_bill (o : Outlet) (p : Setpoint) (s : State) : (withhold o p s).bill = s.bill := by
  unfold withhold
  split
  · exact scrAction_bill ..
  · split
    · exact scrAction_bill ..
    · exact scrAction_bill ..

theorem sendCan_bill (f : CanOut) (s : State) : (sendCan f s).bill = s.bill := by
  unfold sendCan
  split <;> rfl

theorem sendSetpoint_bill (o : Outlet) (s : State) : (sendSetpoint o s).bill = s.bill :=
  foldl_keeps (·.bill) (fun t f => sendCan f t) (fun t f => sendCan_bill f t) _ s

theorem putSetpoint_bill (o : Outlet) (p : Setpoint) (s : State) : (putSetpoint o p s).bill = s.bill := by
  unfold putSetpoint releaseSetpoint
  dsimp only
  split
  · rfl
  · split
    · exact (sendSetpoint_bill ..).trans (journal_bill ..)
    · exact (withhold_bill ..).trans (journal_bill ..)

theorem writeReply_bill (o : Outlet) (f : StandingFields) (s : State) : (writeReply o f s).bill = s.bill := by
  unfold writeReply
  dsimp only
  split
  · exact (bill_of_besideLink (commandGen_besideLink ..)).trans (journal_bill ..)
  · exact journal_bill ..

theorem renewReply_bill (o : Outlet) (s : State) : (renewReply o s).bill = s.bill := by
  unfold renewReply
  split
  · exact writeReply_bill ..
  · rfl

theorem enterS0_bill (o : Outlet) (s : State) : (enterS0 o s).bill = s.bill := by
  rw [enterS0, bill_of_besideLink (commandGen_besideLink ..), applyAvailability, setSess_bill, goTo_bill, setSess_bill]

theorem enterS9_bill (o : Outlet) (s : State) : (enterS9 o s).bill = s.bill := by
  rw [enterS9, bill_of_besideLink (commandGen_besideLink ..), applyAvailability, setSess_bill, goTo_bill]

theorem enterS7_bill (o : Outlet) (cause : Nat) (s : State) : (enterS7 o cause s).bill = s.bill := by
  unfold enterS7
  dsimp only
  rw [renewReply_bill]
  split
  · exact (bill_of_besideLink (commandGen_besideLink ..)).trans ((putSetpoint_bill ..).trans (goTo_bill ..))
  · exact (putSetpoint_bill ..).trans (goTo_bill ..)

/-! ### Session records, and causes -/

theorem debit_evaluation (i : Nat) (cost : Int) (s : State) : evaluation (debit i cost s) = evaluation s := by
  unfold debit
  split <;> rfl

theorem closeRecord_evaluation (o : Outlet) (reason : Nat) (s : State) :
    evaluation (closeRecord o reason s) = evaluation s := by
  have hsigned (f : Billing → Billing) (h : evaluation (setBill f s) = evaluation s) :
      evaluation (signed (setBill f s)) = evaluation s := (evaluation_of_bill (signed_bill _)).trans h
  unfold closeRecord
  split
  · rfl
  · dsimp only
    rw [evaluation_of_bill (log_bill ..)]
    split
    · exact (debit_evaluation ..).trans (hsigned _ rfl)
    · exact hsigned _ rfl

theorem closeSession_evaluation (o : Outlet) (reason : Nat) (s : State) :
    evaluation (closeSession o reason s) = evaluation s := by
  cases h : (sessOf s o).closed with
  | true => rw [closeSession_of_closed reason h]
  | false =>
    rw [closeSession_of_open reason h, evaluation_of_bill (bill_of_besideLink (endLink_besideLink ..)),
      evaluation_of_bill (log_bill ..)]
    exact (closeRecord_evaluation ..).trans (evaluation_of_bill (snapshot_bill ..))

theorem giveCause_evaluation (o : Outlet) (cause : Nat) (s : State) : evaluation (giveCause o cause s) = evaluation s := by
  cases h : causeStep s o cause with
  | none =>
    rcases giveCause_of_none h with hgive | hgive
    · rw [hgive]
      exact evaluation_of_bill (logCause_bill _)
    · rw [hgive]
  | some f =>
    have hnote : evaluation (giveCause o cause s) = evaluation (f s) := by
      rw [giveCause_of_some h]
      rfl
    rw [hnote]
    rcases causeStep_cases h with rfl | rfl | rfl | rfl
    · exact (evaluation_of_bill (enterS0_bill ..)).trans (closeSession_evaluation ..)
    · exact (evaluation_of_bill (enterS9_bill ..)).trans (closeSession_evaluation ..)
    · exact evaluation_of_bill (enterS7_bill ..)
    · exact evaluation_of_bill (logCause_bill _)

/-! ### The steps of an evaluation (R268, R274, R276, R283, R285, R296) -/

theorem log_evaluation (origin sub code : Nat) (detail : List Byte) (legal : Bool) (s : State) :
    evaluation (log origin sub code detail legal s) = evaluation s := evaluation_of_bill (log_bill ..)

/-- A table that waits is taken; the rest of the part is as before. -/
theorem takeTable_evaluation (s : State) :
    evaluation (takeTable s) = { evaluation s with table := s.bill.nextTable.or s.bill.table, nextTable := none } := by
  unfold takeTable
  split
  · next serial recs h =>
    rw [logTariffs, log_evaluation, h]
    rfl
  · next h =>
    rw [h]
    simp [evaluation, h]

theorem creditDemand_evaluation (utc cause : Nat) (demand : Int) (s : State) :
    evaluation (creditDemand utc cause demand s) = evaluation s := by
  unfold creditDemand
  dsimp only
  split
  · rfl
  · exact log_evaluation ..

/-- The state in which the power of the sub-interval that ends stands in the ring. -/
def powerNoted (cause : Nat) (s : State) : State :=
  let j := s.bill.demand.pos % subCount s
  setDemand (fun d => { d with
      ring := d.ring.set j (subPower s), pos := (j + 1) % subCount s, filled := min (subCount s) (d.filled + 1)
      ringMask := if cause = 0 then withoutBit d.ringMask j else withBit d.ringMask j })
    (setBill (fun b => { b with ringCauses := b.ringCauses.set j cause }) s)

/-- A full ring of `n` powers is a demand, which competes for the maximum. -/
def ringCredited (utc cause n : Nat) (s : State) : State :=
  if s.bill.demand.filled < n then s
  else creditDemand utc (((cause :: s.bill.ringCauses.take n).find? (fun c => c != 0)).getD 0)
    (sumInt (s.bill.demand.ring.take n) / n) s

theorem endSub_eq (utc cause nextCause : Nat) (s : State) :
    endSub utc cause nextCause s =
      writeDemand (startSub utc nextCause (ringCredited utc cause (subCount s) (powerNoted cause s))) := rfl

theorem ringCredited_evaluation (utc cause n : Nat) (s : State) :
    evaluation (ringCredited utc cause n s) = evaluation s := by
  unfold ringCredited
  split
  · rfl
  · exact creditDemand_evaluation ..

theorem endSub_evaluation (utc cause nextCause : Nat) (s : State) : evaluation (endSub utc cause nextCause s) = evaluation s := by
  have hnext (t : State) : evaluation (writeDemand (startSub utc nextCause t)) = evaluation t := by
    simp only [evaluation, writeDemand, startSub, setDemand, setBill_bill]
  have hnoted : evaluation (powerNoted cause s) = evaluation s := by
    simp only [evaluation, powerNoted, setDemand, setBill_bill]
  rw [endSub_eq, hnext, ringCredited_evaluation, hnoted]

/-- Step 1 of R274 sets the sub-interval that the next evaluation compares with. -/
theorem demandStep_evaluation (utc : Nat) (l : Int) (s : State) :
    evaluation (demandStep utc l s) = { evaluation s with subInterval := some (l / subSeconds s) } := by
  have hset (t : State) (ht : evaluation t = evaluation s) :
      evaluation (setBill (fun x => { x with subInterval := some (l / subSeconds s) }) t) =
        { evaluation s with subInterval := some (l / subSeconds s) } :=
    congrArg (fun e : Evaluation => { e with subInterval := some (l / (subSeconds s : Int)) }) ht
  refine hset _ ?_
  split
  · rfl
  · split
    · split <;> rfl
    · exact endSub_evaluation ..

theorem demandInvalid_evaluation (s : State) :
    evaluation (demandInvalid s) = { evaluation s with subInterval := none } := by
  simp only [evaluation, demandInvalid, spoilDemand, setDemand, setBill_bill]

theorem closeCut_evaluation (o : Outlet) (s : State) : evaluation (closeCut o s) = evaluation s := by
  unfold closeCut
  split
  · exact closeRecord_evaluation ..
  · rfl

/-- The block that an evaluation writes. -/
def evaluatedBlock (s : State) : ControlBlock :=
  { generation := s.bill.control.generation + 1, tariff := (tariffNow s).tariff, forced := !s.sun.utcValid
    prices := (List.range 16).map (fun k => tarN s 0x0906 0 (4 * k) 4 0)
    accounts := outlets.foldl (fun (p : PerOutlet (Option Nat)) o => p.set o (prepaidAccount s o)) (.all none) }

theorem tariffStep_evaluation (s : State) :
    evaluation (tariffStep s) = { evaluation s with control := evaluatedBlock s } := rfl

theorem closePeriod_evaluation (origin : Nat) (endUtc : Option Nat) (late byCommand : Bool) (s : State) :
    evaluation (closePeriod origin endUtc late byCommand s) = evaluation s := by
  rw [evaluation, closePeriod_bill]
  rfl

theorem periodStep_evaluation (utc : Nat) (s : State) : evaluation (periodStep utc s) = evaluation s := by
  unfold periodStep
  dsimp only
  split
  · rfl
  · split
    · split
      · split
        · rfl
        · exact closePeriod_evaluation ..
      · rfl
    · rfl

theorem useEmergency_evaluation (o : Outlet) (a : Account) (s : State) : evaluation (useEmergency o a s) = evaluation s := by
  unfold useEmergency
  dsimp only
  split
  · rw [evaluation_of_bill (eventAll_same ..).bill_eq, log_evaluation]
    rfl
  · rfl

theorem exhausted_evaluation (o : Outlet) (a : Account) (s : State) : evaluation (exhausted o a s) = evaluation s := by
  unfold exhausted
  dsimp only
  split
  · split
    · rfl
    · exact log_evaluation ..
  · rw [giveCause_evaluation]
    split
    · rfl
    · exact log_evaluation ..

/-- The state in which the emergency credit of an outlet's session is noted, if it is in use. -/
def emergencyNoted (o : Outlet) (a : Account) (s : State) : State :=
  let t := useEmergency o a s
  if (accountOf t a.index).any (fun x => x.emergencyInUse) then
    setOpenRec o (fun x => { x with emergency := true }) (setOutletBill o (fun x => { x with emergency := true }) t)
  else t

theorem emergencyNoted_evaluation (o : Outlet) (a : Account) (s : State) :
    evaluation (emergencyNoted o a s) = evaluation s := by
  refine Eq.trans ?_ (useEmergency_evaluation o a s)
  unfold emergencyNoted
  dsimp only
  split <;> rfl

/-- The checks of a session on an account: emergency credit first, then whether the credit is at its end. -/
theorem creditStep_account {o : Outlet} {s : State} {a : Account} (h : (prepaidAccount s o).bind (accountOf s) = some a) :
    creditStep o s =
      if availableCredit (emergencyNoted o a s) a ≤ 0 then exhausted o a (emergencyNoted o a s) else emergencyNoted o a s := by
  rw [creditStep, h]
  rfl

theorem creditStep_none {o : Outlet} {s : State} (h : (prepaidAccount s o).bind (accountOf s) = none) : creditStep o s = s := by
  rw [creditStep, h]

theorem creditStep_evaluation (o : Outlet) (s : State) : evaluation (creditStep o s) = evaluation s := by
  cases h : (prepaidAccount s o).bind (accountOf s) with
  | none => rw [creditStep_none h]
  | some a =>
    rw [creditStep_account h]
    split
    · rw [exhausted_evaluation, emergencyNoted_evaluation]
    · exact emergencyNoted_evaluation ..

/-! ### The whole evaluation -/

theorem evaluate_valid {s : State} (h : s.sun.utcValid = true) :
    evaluate s = periodStep s.sun.utc
      (tariffStep (forOutlets closeCut (demandStep s.sun.utc (localOf s s.sun.utc) s))) := by
  have hnow : utcNow s = some s.sun.utc := if_pos h
  have hlocal : localNow s = some (localOf s s.sun.utc) := by
    rw [localNow, hnow]
    rfl
  rw [evaluate, hnow, hlocal]

theorem evaluate_invalid {s : State} (h : s.sun.utcValid = false) :
    evaluate s = tariffStep (forOutlets closeCut (demandInvalid s)) := by
  have hnow : utcNow s = none := if_neg (ne_true_of_eq_false h)
  have hlocal : localNow s = none := by
    rw [localNow, hnow]
    rfl
  rw [evaluate, hnow, hlocal]

/-- Step 2 of R274 writes the next block, which tells whether the clock is valid. -/
theorem tariffStep_block {s t : State} {sub : Option Int} (ht : evaluation t = { evaluation s with subInterval := sub })
    (hsun : t.sun = s.sun) :
    ∃ block : ControlBlock, evaluation (tariffStep t) = { evaluation s with control := block, subInterval := sub } ∧
      block.generation = s.bill.control.generation + 1 ∧ block.forced = !s.sun.utcValid :=
  ⟨evaluatedBlock t, congrArg (fun e : Evaluation => { e with control := evaluatedBlock t }) ht,
    congrArg (fun e : Evaluation => e.control.generation + 1) ht, congrArg (fun x : Sundial => !x.utcValid) hsun⟩

/-- Beside what an evaluation does to demand, sessions and periods, it writes the next block and its sub-interval. -/
theorem evaluate_evaluation (s : State) :
    ∃ (block : ControlBlock) (sub : Option Int),
      evaluation (evaluate s) = { evaluation s with control := block, subInterval := sub } ∧
        block.generation = s.bill.control.generation + 1 ∧ block.forced = (!s.sun.utcValid) ∧
        (s.sun.utcValid = false → sub = none) := by
  have hcut (t : State) : evaluation (forOutlets closeCut t) = evaluation t := forOutlets_keeps evaluation closeCut_evaluation t
  have hcutSun (t : State) : (forOutlets closeCut t).sun = t.sun := sun_of_calm (forOutlets_calm _ t closeCut_calm)
  cases h : s.sun.utcValid with
  | true =>
    obtain ⟨block, hblock, hgeneration, hforced⟩ := tariffStep_block ((hcut _).trans (demandStep_evaluation s.sun.utc
      (localOf s s.sun.utc) s)) ((hcutSun _).trans (sun_of_calm (demandStep_calm ..)))
    rw [evaluate_valid h, periodStep_evaluation]
    exact ⟨block, _, hblock, hgeneration, hforced.trans (by rw [h]), nofun⟩
  | false =>
    obtain ⟨block, hblock, hgeneration, hforced⟩ := tariffStep_block ((hcut _).trans (demandInvalid_evaluation s))
      ((hcutSun _).trans (sun_of_calm (demandInvalid_calm s)))
    rw [evaluate_invalid h]
    exact ⟨block, none, hblock, hgeneration, hforced.trans (by rw [h]), fun _ => rfl⟩

/-- The state in which an evaluation acts: at its angle, with the table that waited. -/
def evaluationStart (s : State) : State := takeTable (reachAngle 40960 s)

/-- The state in which an evaluation has decided, before the credit checks. -/
def evaluationDecided (s : State) : State :=
  setBill (fun b => { b with afterCut := false, stepPending := false }) (evaluate (evaluationStart s))

/-- The state that an evaluation leads to. -/
def evaluationEnd (s : State) : State :=
  let t := forOutlets creditStep (evaluationDecided s)
  journal 8 0 t.bill.control.generation.toNat t

theorem exec_tariffEvaluation {s : State} (h : evaluates s = true) :
    exec .tariffEvaluation s = .next (settle (evaluationEnd s)) := congrArg Host.Outcome.next (if_pos h)

theorem evaluationStart_sun (s : State) : (evaluationStart s).sun = { s.sun with angle := 40960, frac := 0 } :=
  (sun_of_calm (takeTable_calm _)).trans (reachAngle_sun 40960 s)

theorem evaluationEnd_sun (s : State) : (evaluationEnd s).sun = { s.sun with angle := 40960, frac := 0 } := by
  have hcalm : calm (evaluationEnd s) = calm (evaluationStart s) := by
    unfold evaluationEnd evaluationDecided
    dsimp only
    rw [journal_calm, forOutlets_calm _ _ creditStep_calm, setBill_calm, evaluate_calm]
  exact (sun_of_calm hcalm).trans (evaluationStart_sun s)

theorem evaluationStart_evaluation (s : State) :
    evaluation (evaluationStart s) = { evaluation s with table := s.bill.nextTable.or s.bill.table, nextTable := none } := by
  have hreach : (reachAngle 40960 s).bill = s.bill := reachAngle_keeps (·.bill) (fun _ _ => rfl) (fun _ _ => rfl) 40960 s
  rw [evaluationStart, takeTable_evaluation, hreach, evaluation_of_bill hreach]

theorem evaluationEnd_evaluation (s : State) :
    ∃ (block : ControlBlock) (sub : Option Int),
      evaluation (evaluationEnd s) = ⟨block, s.bill.nextTable.or s.bill.table, none, false, false, sub⟩ ∧
        block.generation = s.bill.control.generation + 1 ∧ block.forced = (!s.sun.utcValid) ∧
        (s.sun.utcValid = false → sub = none) := by
  have hstart := evaluationStart_evaluation s
  have hvalid : (evaluationStart s).sun.utcValid = s.sun.utcValid := by rw [evaluationStart_sun]
  obtain ⟨block, sub, hdecided, hgeneration, hforced, hsub⟩ := evaluate_evaluation (evaluationStart s)
  refine ⟨block, sub, ?_, hgeneration.trans (congrArg (fun e : Evaluation => e.control.generation + 1) hstart),
    hvalid ▸ hforced, hvalid ▸ hsub⟩
  calc evaluation (evaluationEnd s)
      = evaluation (evaluationDecided s) :=
        (evaluation_of_bill (journal_bill ..)).trans (forOutlets_keeps evaluation creditStep_evaluation _)
    _ = { evaluation (evaluate (evaluationStart s)) with afterCut := false, stepPending := false } := rfl
    _ = _ := by rw [hdecided, hstart]

theorem tariffEvaluation_evaluates {s : State} (h : evaluates s = true) :
    CarriesOut .tariffEvaluation s (fun t =>
      t.sun = { s.sun with angle := 40960, frac := 0 } ∧ t.bill.control.generation = s.bill.control.generation + 1 ∧
      t.bill.control.forced = !s.sun.utcValid ∧ t.bill.afterCut = false ∧ t.bill.stepPending = false ∧ t.bill.nextTable = none ∧
      t.bill.table = s.bill.nextTable.or s.bill.table ∧ (s.sun.utcValid = false → t.bill.subInterval = none)) := by
  obtain ⟨block, sub, hend, hgeneration, hforced, hsub⟩ := evaluationEnd_evaluation s
  have hcontrol : (evaluationEnd s).bill.control = block := congrArg Evaluation.control hend
  refine ⟨evaluationEnd s, exec_tariffEvaluation h, evaluationEnd_sun s, ?_, ?_, congrArg Evaluation.afterCut hend,
    congrArg Evaluation.stepPending hend, congrArg Evaluation.nextTable hend, congrArg Evaluation.table hend,
    fun hinvalid => (congrArg Evaluation.subInterval hend).trans (hsub hinvalid)⟩
  · rw [hcontrol, hgeneration]
  · rw [hcontrol, hforced]

theorem tariffEvaluation_ignores {s : State} (h : evaluates s = false) : Ignores .tariffEvaluation s :=
  congrArg Host.Outcome.next (if_neg (ne_true_of_eq_false h))


/-! ### The statement -/

/-- Settles O48: the evaluation by the part of the billing that is its own, the opcodes by their actions beside the host link, and
the loads by the object that one block brings. -/
theorem billingCommands : Obligations.BillingCommands := by
  intro s r opened
  refine ⟨tariffEvaluation_evaluates, tariffEvaluation_ignores, accountStoreWrite_saves, accountStoreWrite_ignores,
    ⟨tamperSample_off opened, tamperSample_waits opened, tamperSample_drains opened⟩,
    fun hms hres => ⟨clockSet_steps hms hres, fun hkind hvalid hfar => ?_, fun hkind hroom => ?_, clockSet_slews hms hres,
      fun hkind hvalid => ?_⟩,
    ⟨billingPeriodClose_closes, fun hdeferred => ?_, fun hdeferred hroom => ?_⟩, fun hfits hcheck hopen => ?_,
    fun hfits hcheck hopen => ?_,
    fun hres => ⟨fun hnone => ?_, fun hsome hzero => ?_, fun hsome hzero hheld => ?_, fun hzero hheld a ha =>
      ⟨accountCredit_completes hres hzero hheld ha, creditedAccount s a (fieldI r.payload 4 8), ?_, rfl, rfl, rfl⟩⟩⟩
  · exact clockSet_refuses hms hres (.inl hkind) fun x => setClock_far (s := withHost x s) hkind hvalid hfar
  · exact clockSet_refuses hms hres (.inr hkind) fun x => setClock_full (s := withHost x s) hkind hroom
  · exact clockSet_refuses hms hres (.inl hkind) fun x => setClock_invalid (s := withHost x s) hkind hvalid
  · exact billingPeriodClose_refuses fun x => periodClose_deferred (s := withHost x s) _ hdeferred
  · exact billingPeriodClose_refuses fun x => periodClose_full (s := withHost x s) _ hdeferred hroom
  · exact load_answers rfl (fun b x => applyTable_withHost _ b x s) (fun b => applyTable_sender _ b s) hfits rfl hopen
  · exact load_answers rfl (fun b x => applyAccounts_withHost _ b x s) (fun b => applyAccounts_sender _ b s) hfits
      (accountLoad_check hcheck) hopen
  · exact accountCredit_refuses fun x _ => accountCredit_absent (s := withHost x s) hnone
  · exact accountCredit_refuses fun x _ => accountCredit_zero (s := withHost x s) hres hsome hzero
  · exact accountCredit_refuses fun x hx =>
      accountCredit_busy (s := withHost x s) hres hsome hzero ((heldElsewhere_withHost hx _ _).trans hheld)
  · rw [← index_of_accountOf ha]
    exact accountOf_creditAccount _ a _ s

end Sys2Proof.Machine

/-! # The legal display (R302, R303, R305 to R312, R315)

The stress of a pixel, start and fault of the scan, the parts of a frame, the gains, the saves, and the opcodes by their actions
beside the host link. -/

namespace Sys2Proof.Machine

/-! ### The stress of a pixel (R310) -/

theorem stressPixel_ended {x : Pixel} (g : Nat) (h : x.counter = 0xFFFFFFFF) : stressPixel g x = x := if_pos h

section
variable {g : Nat} {x : Pixel} (hcounter : x.counter ≠ 0xFFFFFFFF)
include hcounter

theorem stressPixel_below (h : x.sub + x.code * g < 80000) : stressPixel g x = { x with sub := x.sub + x.code * g } :=
  (if_neg hcounter).trans (if_neg (Nat.not_le.mpr h))

theorem stressPixel_reaches (h : 80000 ≤ x.sub + x.code * g) :
    stressPixel g x = { x with counter := x.counter + 1, sub := x.sub + x.code * g - 80000 } :=
  (if_neg hcounter).trans (if_pos h)

/-- What a frame adds goes to the sub-accumulator, and each 80,000 of it to the counter. -/
theorem stressPixel_counts :
    (stressPixel g x).counter * 80000 + (stressPixel g x).sub = x.counter * 80000 + x.sub + x.code * g ∧
      (x.sub < 80000 → x.code * g ≤ 80000 → (stressPixel g x).sub < 80000) ∧ (stressPixel g x).index = x.index ∧
      (stressPixel g x).code = x.code ∧ (stressPixel g x).worn = x.worn := by
  rcases Nat.lt_or_ge (x.sub + x.code * g) 80000 with hbelow | hreaches
  · rw [stressPixel_below hcounter hbelow]
    exact ⟨(Nat.add_assoc ..).symm, fun _ _ => hbelow, rfl, rfl, rfl⟩
  · rw [stressPixel_reaches hcounter hreaches]
    exact ⟨by dsimp only; omega, fun _ _ => by dsimp only; omega, rfl, rfl, rfl⟩

end

/-! ### Start and fault of the scan (R302, R303) -/

theorem newEntry_setDisp (f : Display → Display) (s : State) (origin sub code : Nat) (detail : List Byte) :
    newEntry (setDisp f s) origin sub code detail = newEntry s origin sub code detail := rfl

/-- A command that ends in a VPP fault stops the scan and logs the value with the state in which it was read. -/
theorem vppFails_completes {c : Instr} {s : State} {v : Nat} (hc : exec c s = .next (vppFails v (readVpp v s))) {d : DispState}
    (hstate : s.disp.state = d) : Completes c s (fun t =>
      t.disp = { s.disp with vpp := v, state := .vppFault, dispEn := false } ∧
      t.logs.general.head? = some (newEntry s 0 0x0A 0x0A01 (leBytes 2 v ++ [byte d.code] ++ zeros 13))) := by
  subst hstate
  refine ⟨_, hc, log_disp .., ?_⟩
  rw [vppFails, log_general_head, newEntry_setDisp, readVpp, newEntry_setDisp, List.append_cons]
  rfl

theorem awakeIn_false {s : State} {d : DispState} (h : awake s = false ∨ s.disp.state ≠ d) :
    (awake s && s.disp.state == d) = false := by
  rcases h with hasleep | hstate
  · rw [hasleep, Bool.false_and]
  · rw [beq_false_of_ne hstate, Bool.and_false]

section
variable {s : State} (v : Nat)

theorem vppInRange_idle (h : awake s = false ∨ s.disp.state ≠ .starting) :
    Completes (.vppInRange v) s (fun t => t = { s with disp := { s.disp with vpp := v } }) :=
  ⟨readVpp v s, congrArg Host.Outcome.next (if_neg (by simp [awakeIn_false h])), rfl⟩

theorem vppStartTimeout_idle (h : awake s = false ∨ s.disp.state ≠ .starting) :
    Completes (.vppStartTimeout v) s (fun t => t = { s with disp := { s.disp with vpp := v } }) :=
  ⟨readVpp v s, congrArg Host.Outcome.next (if_neg (ne_true_of_eq_false (awakeIn_false h))), rfl⟩

theorem vppFaultRestart_ignores (h : awake s = false ∨ s.disp.state ≠ .vppFault) : Ignores .vppFaultRestart s :=
  congrArg Host.Outcome.next (if_neg (ne_true_of_eq_false (awakeIn_false h)))

theorem displayFrame_ignores (h : awake s = false ∨ scans s = false) : Ignores .displayFrame s :=
  congrArg Host.Outcome.next (if_neg (ne_true_of_eq_false (Bool.and_eq_false_iff.mpr h)))

theorem vppFault_in_range (hlo : 850 ≤ v) (hhi : v ≤ 1650) :
    Completes (.vppFault v) s (fun t => t = { s with disp := { s.disp with vpp := v } }) :=
  ⟨readVpp v s, congrArg Host.Outcome.next (if_neg (by simp; omega)), rfl⟩

variable (hawake : awake s = true)
include hawake

theorem vppInRange_starts (hstate : s.disp.state = .starting) (hlo : 900 ≤ v) (hhi : v ≤ 1600) :
    Completes (.vppInRange v) s (fun t => t = { s with disp := { s.disp with vpp := v, state := scanState s.disp } }) :=
  ⟨_, congrArg Host.Outcome.next (if_pos (by simp [hawake, hstate, hlo, hhi])), rfl⟩

theorem vppStartTimeout_fails (hstate : s.disp.state = .starting) :
    exec (.vppStartTimeout v) s = .next (vppFails v (readVpp v s)) :=
  congrArg Host.Outcome.next (if_pos (by simp [hawake, hstate]))

theorem vppFault_fails (hstate : s.disp.state = .scanning) (h : v < 850 ∨ 1650 < v) :
    exec (.vppFault v) s = .next (vppFails v (readVpp v s)) :=
  congrArg Host.Outcome.next (if_pos (by simp [hawake, scans, hstate, h]))

theorem vppFaultRestart_starts (hstate : s.disp.state = .vppFault) : Completes .vppFaultRestart s (fun t =>
    t = { s with disp := { s.disp with state := .starting, dispEn := true } }) :=
  ⟨displayStart s, congrArg Host.Outcome.next (if_pos (by simp [hawake, hstate])), rfl⟩

end

/-! ### A frame (R300, R305, R306, R310) -/

theorem markWorn_setPixels (wears : Nat → Bool) (f : Display → List Pixel) (s : State) : ∃ pixels newWorn,
    markWorn wears (setDisp (fun d => { d with pixels := f d }) s) =
      { s with disp := { s.disp with pixels := pixels, newWorn := newWorn } } := ⟨_, _, rfl⟩

/-- A frame's stress changes the pixels and the count of those newly worn. -/
theorem stressFrame_eq (s : State) : ∃ pixels newWorn, stressFrame s =
    { s with disp := { s.disp with pixels := pixels, newWorn := newWorn } } := by
  unfold stressFrame
  exact markWorn_setPixels _ _ s

/-- The copy of the lane changes what is shown and, by its font, the display state; a bad font is logged. -/
theorem takeLane_eq (s : State) : takeLane s =
    { s with
      disp := { s.disp with shown := (takeLane s).disp.shown, state := (takeLane s).disp.state }
      logs := (takeLane s).logs, dom := (takeLane s).dom } := by
  unfold takeLane
  dsimp only
  split
  · rfl
  · split
    · rfl
    · rw [log_eq]
      rfl

/-- The first lane that has been written is shown, and its font decides the display state. -/
theorem takeLane_first {s : State} (hgen : s.disp.lane.generation ≠ 0) (hnone : s.disp.shown = none) :
    (takeLane s).disp.shown = some s.disp.lane ∧
      (takeLane s).disp.state = if fontGood s.disp.lane then .scanning else .fontFault := by
  unfold takeLane
  dsimp only
  rw [if_neg fun h => h.elim hgen fun hshown => by simp [hnone] at hshown]
  by_cases hfont : fontGood s.disp.lane = true
  · rw [if_pos hfont, if_pos hfont]
    exact ⟨rfl, rfl⟩
  · rw [if_neg hfont, if_neg hfont, log_disp]
    exact ⟨rfl, rfl⟩

theorem displayFrame_completes {s : State} (hawake : awake s = true) (hscans : scans s = true) :
    Completes .displayFrame s (fun t =>
      t = { s with disp := t.disp, logs := t.logs, dom := t.dom, freeCount := t.freeCount } ∧ t.disp.nextRows = [] ∧
      (∀ x, x ∈ s.disp.nextRows → x ∈ t.disp.rows) ∧ t.disp.test = (if allIdle s then s.disp.test else none) ∧
      (s.disp.lane.generation ≠ 0 → s.disp.shown = none → t.disp.shown = some s.disp.lane ∧
        t.disp.state = (if fontGood s.disp.lane then .scanning else .fontFault))) := by
  refine ⟨stressFrame (takeLane (takeRows s)), congrArg Host.Outcome.next (if_pos (by simp [hawake, hscans])), ?_⟩
  have hlane := takeLane_first (s := takeRows s)
  obtain ⟨pixels, newWorn, hframe⟩ := stressFrame_eq (takeLane (takeRows s))
  rw [hframe]
  refine ⟨?_, ?_, fun x hx => ?_, ?_, hlane⟩ <;> rw [takeLane_eq (takeRows s)]
  · rfl
  · rfl
  · exact List.mem_append_left _ hx
  · rfl

/-! ### The dwell, and the gains (R307, R311) -/

/-- Newly worn pixels of a panel are logged, and their count starts again, or nothing happens. -/
theorem logWorn_cases (panel : Nat) (s : State) : logWorn panel s = s ∨ ∃ detail newWorn wornLog,
    logWorn panel s =
      log 0 0x0A 0x0A02 detail false (setDisp (fun d => { d with newWorn := newWorn, wornLog := wornLog }) s) := by
  unfold logWorn
  dsimp only
  by_cases hpanel : panel = 0
  · simp only [if_pos hpanel]
    split
    · exact .inr ⟨_, _, _, rfl⟩
    · exact .inl rfl
  · simp only [if_neg hpanel]
    split
    · exact .inr ⟨_, _, _, rfl⟩
    · exact .inl rfl

theorem logWorn_keeps (panel : Nat) (s : State) : (logWorn panel s).disp.pixels = s.disp.pixels ∧
    (logWorn panel s).logs.legal = s.logs.legal ∧ (logWorn panel s).disp.state = s.disp.state := by
  rcases logWorn_cases panel s with h | ⟨detail, newWorn, wornLog, h⟩
  · rw [h]
    exact ⟨rfl, rfl, rfl⟩
  · rw [h, log_disp, log_false_legal]
    exact ⟨rfl, rfl, rfl⟩

theorem recompute_pixels (s : State) : (recompute s).disp.pixels =
    s.disp.pixels.map (fun x => { x with code := driveCode s x.counter, worn := x.worn || wearsOut s x.counter }) :=
  List.map_map

section
variable {s : State} (hawake : awake s = true)
include hawake

theorem dwellStep_completes : Completes .dwellStep s (fun t =>
    t = { s with disp := { s.disp with position := (s.disp.position + 1) % max 1 (legalList s).length } }) :=
  ⟨_, congrArg Host.Outcome.next (if_pos hawake), rfl⟩

theorem gainRecompute_completes : Completes .gainRecompute s (fun t =>
    t.disp.pixels = s.disp.pixels.map (fun x => { x with code := driveCode s x.counter, worn := x.worn || wearsOut s x.counter }) ∧
    t.logs.legal = s.logs.legal ∧ t.disp.state = s.disp.state) := by
  obtain ⟨hpixels, hlegal, hstate⟩ := logWorn_keeps 0 (recompute s)
  obtain ⟨hpixels', hlegal', hstate'⟩ := logWorn_keeps 1 (logWorn 0 (recompute s))
  exact ⟨logWorn 1 (logWorn 0 (recompute s)), congrArg Host.Outcome.next (if_pos hawake),
    hpixels'.trans (hpixels.trans (recompute_pixels s)), hlegal'.trans hlegal, hstate'.trans hstate⟩

end

/-! ### Saves of the stress (R312) -/

/-- The check of a copy does not cover itself. -/
theorem stressBody_check (c : StressCopy) (check : U32) : stressBody { c with check } = stressBody c := by
  simp only [stressBody, wornBytes]

theorem stressValid_sealStress (c : StressCopy) : stressValid (sealStress c) = true := by
  rw [stressValid, sealStress, stressBody_check c (crc32c (stressBody c))]
  exact beq_self_eq_true (crc32c (stressBody c))

theorem newestStress_none {s : State} (h : newestStress s = none) : s.disp.copyB.filter stressValid = none := by
  unfold newestStress at h
  split at h
  case h_1 => split at h <;> cases h
  case h_2 => cases h
  case h_3 => exact h

/-- The copy in use is valid and in one of the two places. -/
theorem newestStress_some {s : State} {n : StressCopy} (h : newestStress s = some n) :
    stressValid n = true ∧ (s.disp.copyA = some n ∨ s.disp.copyB = some n) := by
  have hplace : s.disp.copyA.filter stressValid = some n ∨ s.disp.copyB.filter stressValid = some n := by
    unfold newestStress at h
    split at h
    case h_1 a b ha hb =>
      split at h
      · exact .inr (hb.trans h)
      · exact .inl (ha.trans h)
    case h_2 a ha _ => exact .inl (ha.trans h)
    case h_3 => exact .inr h
  rcases hplace with hA | hB
  · obtain ⟨hcopy, hvalid⟩ := Option.filter_eq_some_iff.mp hA
    exact ⟨hvalid, .inl hcopy⟩
  · obtain ⟨hcopy, hvalid⟩ := Option.filter_eq_some_iff.mp hB
    exact ⟨hvalid, .inr hcopy⟩

theorem putStress_inA {s : State} {n : StressCopy} (c : Option StressCopy) (h : newestStress s = some n)
    (hA : s.disp.copyA = some n) : putStress c s = { s with disp := { s.disp with copyB := c } } := by
  simp [putStress, setDisp, h, hA]

theorem putStress_outsideA {s : State} (c : Option StressCopy) (h : newestStress s = none ∨ newestStress s ≠ s.disp.copyA) :
    putStress c s = { s with disp := { s.disp with copyA := c } } := by
  rcases h with h | h <;> simp [putStress, setDisp, h]

/-- A valid copy of the next generation is the one in use once it has been put in the place of the older one. -/
theorem newestStress_putStress {s : State} {c : StressCopy} (hvalid : stressValid c = true)
    (hgen : c.generation = (newestStress s).elim 0 (fun c => c.generation) + 1) : newestStress (putStress (some c) s) = some c := by
  cases hnewest : newestStress s with
  | none =>
    rw [putStress_outsideA _ (.inl hnewest)]
    simp [newestStress, Option.filter_some, newestStress_none hnewest, hvalid]
  | some n =>
    rw [hnewest, Option.elim_some] at hgen
    obtain ⟨hn, hplace⟩ := newestStress_some hnewest
    by_cases hA : s.disp.copyA = some n
    · rw [putStress_inA _ hnewest hA]
      simp [newestStress, Option.filter_some, hA, hn, hvalid, hgen]
    · rw [putStress_outsideA _ (.inr fun h => hA (h.symm.trans hnewest))]
      simp [newestStress, Option.filter_some, hplace.resolve_left hA, hn, hvalid, hgen, Nat.not_lt.mpr (Nat.le_succ n.generation)]

theorem putStress_cases (c : Option StressCopy) (s : State) :
    putStress c s = { s with disp := { s.disp with copyA := c } } ∨
      putStress c s = { s with disp := { s.disp with copyB := c } } := by
  cases h : (newestStress s).isSome && newestStress s == s.disp.copyA with
  | false => exact .inl (by simp only [putStress, setDisp, h, Bool.false_eq_true, if_false])
  | true => exact .inr (by simp only [putStress, setDisp, h, if_true])

/-- A copy that is put stands in one of the two places, and the counters run on. -/
theorem putStress_keeps (c : Option StressCopy) (s : State) : (putStress c s).logs = s.logs ∧
    (putStress c s).disp.pixels = s.disp.pixels ∧ ((putStress c s).disp.copyA = c ∨ (putStress c s).disp.copyB = c) := by
  rcases putStress_cases c s with h | h
  · rw [h]
    exact ⟨rfl, rfl, .inl rfl⟩
  · rw [h]
    exact ⟨rfl, rfl, .inr rfl⟩

/-- A save that fails is logged, and leaves its place without a copy. -/
theorem saveStress_false (s : State) :
    ∃ detail, saveStress false s = log 0 0x0A 0x0A03 detail false (putStress none s) := ⟨_, rfl⟩

section
variable {s : State} (hawake : awake s = true)
include hawake

theorem stressSave_saves : Completes (.stressSave true) s (fun t => ∃ c : StressCopy, newestStress t = some c ∧
    c.generation = (newestStress s).elim 0 (fun c => c.generation) + 1 ∧ t.logs = s.logs ∧
    c.counters = (s.disp.pixels.filter (fun x => x.counter != 0)).map (fun x => (x.index, x.counter))) :=
  ⟨saveStress true s, congrArg Host.Outcome.next (if_pos hawake), _,
    newestStress_putStress (stressValid_sealStress _) rfl, rfl, rfl, rfl⟩

theorem stressSave_fails : Completes (.stressSave false) s (fun t =>
    t.logs.next = s.logs.next + 1 ∧ t.disp.pixels = s.disp.pixels ∧ (t.disp.copyA = none ∨ t.disp.copyB = none)) := by
  obtain ⟨detail, hsave⟩ := saveStress_false s
  refine ⟨saveStress false s, congrArg Host.Outcome.next (if_pos hawake), ?_⟩
  rw [hsave]
  dsimp only
  rw [log_next, log_disp]
  obtain ⟨hlogs, hpixels, hplace⟩ := putStress_keeps none s
  exact ⟨congrArg (fun l => l.next + 1) hlogs, hpixels, hplace⟩

end

/-- Nothing of the display's steps happens while the domains are down or the power is held. -/
theorem display_ignores {s : State} (h : awake s = false) :
    Ignores .dwellStep s ∧ Ignores .gainRecompute s ∧ Ignores (.stressSave true) s ∧ Ignores (.stressSave false) s := by
  have hasleep : ∀ t : State, (if awake s then t else s) = s := fun _ => if_neg (ne_true_of_eq_false h)
  exact ⟨congrArg Host.Outcome.next (hasleep _), congrArg Host.Outcome.next (hasleep _),
    congrArg Host.Outcome.next (hasleep _), congrArg Host.Outcome.next (hasleep _)⟩

/-! ### Display operations beside the host link -/

@[simp] theorem serialBytes_withHost (x : HostLink) (s : State) : serialBytes (withHost x s) = serialBytes s := rfl
@[simp] theorem serviceIdle_withHost (x : HostLink) (s : State) : serviceIdle (withHost x s) = serviceIdle s := rfl

theorem setDisp_withHost (f : Display → Display) (x : HostLink) (s : State) :
    setDisp f (withHost x s) = withHost x (setDisp f s) := rfl

theorem pixelsOf_withHost (x : HostLink) (s : State) (counters : List (Nat × Nat)) (worn : List Nat) :
    pixelsOf (withHost x s) counters worn = pixelsOf s counters worn := rfl

theorem saveStress_withHost (x : HostLink) (s : State) : saveStress true (withHost x s) = withHost x (saveStress true s) := rfl

theorem applyStress_withHost (origin : Nat) (b : List Byte) (x : HostLink) (s : State) :
    applyStress origin b (withHost x s) = (withHost x (applyStress origin b s).1, (applyStress origin b s).2) := by
  unfold applyStress
  dsimp only
  rw [serialBytes_withHost, pixelsOf_withHost, setDisp_withHost, log_withHost, saveStress_withHost]
  split <;> rfl

theorem saveStress_sender (s : State) : SameSender s (saveStress true s) := sameSender_of rfl rfl rfl

theorem applyStress_sender (origin : Nat) (b : List Byte) (s : State) : SameSender s (applyStress origin b s).1 := by
  unfold applyStress
  dsimp only
  split
  · exact sameSender_of rfl rfl rfl
  · refine SameSender.trans ?_ (saveStress_sender _)
    exact SameSender.trans (u := setDisp _ s) (sameSender_of rfl rfl rfl) (log_sender ..)

/-! ### The opcodes (R309, R315) -/

/-- A number that may not be 0 is accepted from 1 up to its limit. -/
theorem fieldStatus_cnt {body : List Byte} {off n hi : Nat} (hlo : 1 ≤ fieldN body off n) (hhi : fieldN body off n ≤ hi) :
    fieldStatus body (cnt off n 1 hi) = St.ok := (if_neg (Nat.ne_of_gt hlo)).trans (if_pos ⟨hlo, hhi⟩)

/-- Two actions that agree beside every host link serve a request alike. -/
theorem hostRequest_congr {op : OpSpec} {r : Request} {s : State} {f g : State → State × Answer}
    (h : ∀ x, f (withHost x s) = g (withHost x s)) : hostRequest op r f s = hostRequest op r g s := by
  have hrun : runRequest op r f (admitted op.code r s) = runRequest op r g (admitted op.code r s) := by
    have hact : f (admitted op.code r s) = g (admitted op.code r s) := by
      rw [admitted_eq]
      exact h _
    rw [runRequest, runRequest, hact]
  by_cases hcode : op.code = 0x0101
  · simp only [admitted, if_pos hcode] at hrun
    simp only [hostRequest, acceptRequest, if_pos hcode, hrun]
  · simp only [admitted, if_neg hcode] at hrun
    simp only [hostRequest, acceptRequest, if_neg hcode, hrun]

/-- What APPLICATION_ROWS does. -/
def applicationRows (p : List Byte) (s : State) : State × Answer :=
  guarded [ need (p.length == 4 + 64 * fieldN p 2 1) St.lenBad, need (fieldN p 0 1 != 0) St.locked
          , firstFail p [span 0 1 1 1, span 1 1 0 63, cnt 2 1 1 21, rsv 3 1]
          , need (fieldN p 1 1 + fieldN p 2 1 ≤ 64) St.range ]
    (fun s => done (writeRows p s)) s

theorem applicationRows_writes {p : List Byte} (s : State) (hpanel : fieldN p 0 1 = 1) (hlo : 1 ≤ fieldN p 2 1)
    (hhi : fieldN p 2 1 ≤ 21) (hfirst : fieldN p 1 1 ≤ 63) (hend : fieldN p 1 1 + fieldN p 2 1 ≤ 64) (hres : fieldN p 3 1 = 0)
    (hlen : p.length = 4 + 64 * fieldN p 2 1) : applicationRows p s = done (writeRows p s) := by
  have hfields : firstFail p [span 0 1 1 1, span 1 1 0 63, cnt 2 1 1 21, rsv 3 1] = St.ok := by
    rw [firstFail_cons_ok (fieldStatus_span (by omega) (by omega)), firstFail_cons_ok (fieldStatus_span (Nat.zero_le _) hfirst),
      firstFail_cons_ok (fieldStatus_cnt hlo hhi), firstFail_single (fieldStatus_rsv hres)]
  exact guarded_pass (by simp [hfields, need_of, hlen, hpanel, hend])

/-- Panel 0 is not for the host (R309). -/
theorem applicationRows_locked {p : List Byte} (s : State) (hlen : p.length = 4 + 64 * fieldN p 2 1) (hpanel : fieldN p 0 1 = 0) :
    applicationRows p s = refuse St.locked s := by
  rw [applicationRows, guarded_tail (need_of (by simp [hlen]) _), need_fails (by simp [hpanel]), guarded_head (by decide)]

theorem displayTest_fields {p : List Byte} (hpattern : fieldN p 0 1 ≤ 2) (hres : fieldN p 1 1 = 0) (hlo : 1 ≤ fieldN p 2 2)
    (hhi : fieldN p 2 2 ≤ 60) : firstFail p [span 0 1 0 2, rsv 1 1, cnt 2 2 1 60] = St.ok := by
  rw [firstFail_cons_ok (fieldStatus_span (Nat.zero_le _) hpattern), firstFail_cons_ok (fieldStatus_rsv hres),
    firstFail_single (fieldStatus_cnt hlo hhi)]

section
variable {r : Request} {s : State}

theorem stressRestore_request (hidle : serviceIdle s = true) : exec (.stressRestore r) s =
    .next (hostRequest (opBulk 0x0A04 [clsB]) r
      (bulkWrite 0x0A04 stressLength (fun n => need (n == stressLength) St.lenBad) (applyStress (portOrigin r.port)) r) s) :=
  congrArg Host.Outcome.next (hostRequest_congr fun x => guarded_one (need_of ((serviceIdle_withHost x s).trans hidle) _))

theorem stressRestore_refuses (hidle : serviceIdle s = false) :
    Admitted (opBulk 0x0A04 [clsB]) r s →
      Completes (.stressRestore r) s (fun t => Answers s r 0x0A04 St.refusedState [] t ∧ SameModule s t) :=
  host_refuses rfl fun x => by
    rw [need_fails ((serviceIdle_withHost x s).trans hidle), guarded_head (by decide)]
    rfl

section
variable (hfields : firstFail r.payload [span 0 1 0 2, rsv 1 1, cnt 2 2 1 60] = St.ok)
include hfields

theorem displayTest_starts (hidle : serviceIdle s = true) :
    Admitted (opLen 0x0A05 [clsN] 4) r s → Completes (.displayTest r) s (fun t => Answers s r 0x0A05 St.ok [] t ∧
      SameModule { s with disp := { s.disp with test := some (fieldN r.payload 0 1) } } t) :=
  host_leads rfl (sameSender_of rfl rfl rfl) fun x => guarded_pass (by simp [hfields, need_of, hidle])

theorem displayTest_refuses (hidle : serviceIdle s = false) :
    Admitted (opLen 0x0A05 [clsN] 4) r s →
      Completes (.displayTest r) s (fun t => Answers s r 0x0A05 St.refusedState [] t ∧ SameModule s t) :=
  host_refuses rfl fun x => by
    rw [guarded_tail hfields, need_fails ((serviceIdle_withHost x s).trans hidle), guarded_head (by decide)]
    rfl

end

end

/-! ### The statement -/

/-- Settles O49: a pixel by its sub-accumulator, the display's own steps one by one, and the opcodes by their actions beside the
host link. -/
theorem displayCommands : Obligations.DisplayCommands := by
  refine ⟨fun g x => ⟨stressPixel_ended g, stressPixel_counts⟩, fun s r v => ⟨
    fun hawake hstate => ⟨vppInRange_starts v hawake hstate,
      vppFails_completes (vppStartTimeout_fails v hawake hstate) hstate⟩,
    fun h => ⟨vppInRange_idle v h, vppStartTimeout_idle v h⟩,
    fun hawake hstate => ⟨fun h => vppFails_completes (vppFault_fails v hawake hstate h) hstate,
      vppFault_in_range v⟩,
    vppFaultRestart_starts, vppFaultRestart_ignores, displayFrame_completes, displayFrame_ignores, dwellStep_completes,
    gainRecompute_completes, stressSave_saves, stressSave_fails, display_ignores,
    fun hpanel hlo hhi hfirst hend hres hlen => ?_, fun hlen hpanel => ?_, fun hidle hfits htotal hopen => ?_,
    stressRestore_refuses,
    fun hpattern hres hlo hhi => ⟨displayTest_starts (displayTest_fields hpattern hres hlo hhi),
      displayTest_refuses (displayTest_fields hpattern hres hlo hhi)⟩, _, rfl, rfl⟩⟩
  · exact host_leads (act := applicationRows r.payload) (u := writeRows r.payload s) rfl (sameSender_of rfl rfl rfl)
      fun x => applicationRows_writes _ hpanel hlo hhi hfirst hend hres hlen
  · exact host_refuses (act := applicationRows r.payload) rfl fun x => applicationRows_locked _ hlen hpanel
  · exact load_answers (stressRestore_request hidle) (fun b x => applyStress_withHost _ b x s)
      (fun b => applyStress_sender _ b s) hfits (need_of htotal _) hopen

end Sys2Proof.Machine

/-! # OTP is one-way (R317, R319, R334, R335, R342, R428)

What each command can do to the queue, the OTP and the bounded parts of the host link (`Onward`). The operations behind the
commands have one law each under Laws; here they are put together, command by command. -/

namespace Sys2Proof.Machine

/-- Whatever next state a command ends in, it stands in a relation to the state before. -/
structure Leads (R : State → State → Prop) (s : State) (x : Host.Outcome State Fault Refusal) : Prop where
  next : ∀ t, x = .next t → R s t

theorem leads_next {R : State → State → Prop} {s u : State} (h : R s u) : Leads R s (.next u) :=
  ⟨fun _ e => Host.Outcome.next.inj e ▸ h⟩

/-! ### What every command does to the queue and OTP -/

/-- The relation of every command: the queue stays, OTP is programmed one way, the host link stays within its bounds. -/
def OnwardStep (s t : State) : Prop := Onward (kept s) (kept t)

theorem onward_ite {c : Prop} [Decidable c] {a : Kept} {x y : State} (hx : Onward a (kept x)) (hy : Onward a (kept y)) :
    Onward a (kept (if c then x else y)) := by
  split
  · exact hx
  · exact hy

theorem onward_same {s u : State} (h : kept u = kept s) : Leads OnwardStep s (.next u) := leads_next (Onward.of_eq h)

/-- A command whose effect a condition guards. -/
theorem onward_guarded {c : Prop} [Decidable c] {s u : State} (h : Onward (kept s) (kept u)) :
    Leads OnwardStep s (.next (if c then u else s)) := leads_next (onward_ite h (.refl _))

theorem onward_host {op : OpSpec} {r : Request} {act : State → State × Answer} {s : State}
    (h : ∀ u, Onward (kept u) (kept (act u).1)) : Leads OnwardStep s (.next (hostRequest op r act s)) :=
  leads_next (hostRequest_onward op r act s h)

theorem guarded_onward_of {checks : List Nat} {act : State → State × Answer} {s : State}
    (h : (∀ c ∈ checks, c = St.ok) → Onward (kept s) (kept (act s).1)) : Onward (kept s) (kept (guarded checks act s).1) := by
  unfold guarded
  split
  · exact .refl _
  · next hnone => exact h (by simpa using hnone)

/-! ### The counter of key and life-cycle messages (R340 to R342) -/

/-- The first check that fails is none when every check passes. -/
theorem firstBad_ok_iff {l : List Nat} : (l.find? (fun c => c != St.ok)).getD St.ok = St.ok ↔ ∀ c ∈ l, c = St.ok := by
  cases hf : l.find? (fun c => c != St.ok) with
  | none => simpa using hf
  | some x =>
    have hbad := List.find?_some hf
    exact ⟨fun e => by simp [show x = St.ok from e] at hbad, fun h => h x (List.mem_of_find?_eq_some hf)⟩

theorem counterStatus_ok {s : State} {n : Nat} :
    counterStatus s n = St.ok ↔ s.otp.keyCounter < n ∧ n ≤ s.otp.keyCounter + 16 := by
  unfold counterStatus
  split
  · simp [St.counterStale, St.ok]; omega
  · split
    · simp [St.range, St.ok]; omega
    · simp; omega

theorem counter_of_keyMessageStatus {s : State} {p : List Byte} (h : keyMessageStatus s p = St.ok) :
    s.otp.keyCounter < fieldN p 20 4 :=
  (counterStatus_ok.mp (firstBad_ok_iff.mp h _ (by simp))).1

theorem counter_of_lifeMessageStatus {s : State} {p : List Byte} (h : lifeMessageStatus s p = St.ok) :
    s.otp.keyCounter < fieldN p 20 4 :=
  (counterStatus_ok.mp (firstBad_ok_iff.mp h _ (by simp))).1

/-! ### The operations that several commands share -/

theorem onRequest_onward {o : Outlet} {defined : Protocol → Bool} {alone act : Protocol → State → State} {s : State}
    (hn : ∀ p u, kept (alone p u) = kept u) (ha : ∀ p u, kept (act p u) = kept u) :
    Leads OnwardStep s (onRequest o defined alone act s) := by
  refine onward_same ?_
  repeat' split
  all_goals simp [hn, ha]

theorem onMessage_onward {o : Outlet} {msg : Nat} {defined : Protocol → Bool} {act : Protocol → State → State} {s : State}
    (ha : ∀ p u, kept (act p u) = kept u) : Leads OnwardStep s (onMessage o msg defined act s) :=
  onRequest_onward (fun _ _ => by simp) ha

theorem onLoop_onward {o : Outlet} {defined : Protocol → Bool} {answer : Protocol → State → State} {follow : State → State}
    {s : State} (hn : ∀ p u, kept (answer p u) = kept u) (hf : ∀ u, kept (follow u) = kept u) :
    Leads OnwardStep s (onLoop o defined answer follow s) := by
  unfold onLoop
  exact onRequest_onward (fun _ _ => by simp [hn]) (fun _ _ => by simp [hn, hf])

theorem expireTo_onward {o : Outlet} {row : Nat} {runs : Timers → Bool} {stop : Timers → Timers} {follow : State → State}
    {s : State} (hf : ∀ u, kept (follow u) = kept u) : Leads OnwardStep s (expireTo o row runs stop follow s) :=
  onward_same (by simp [hf])

theorem poll_kept (port : Fin 2) (l : List (Nat × PollResult)) (s : State) : kept (poll port l s).1 = kept s := by
  induction l generalizing s with
  | nil => rfl
  | cons x rest ih =>
    obtain ⟨std, x⟩ := x
    unfold poll
    repeat' split
    all_goals simp [ih]

/-! ### The commands, one by one -/

theorem execHostPacketUndefined_onward (port : Port) (src frameLen : Nat) (bytes : List Byte) (load queued : Nat) (s : State) :
    Leads OnwardStep s (execHostPacketUndefined port src frameLen bytes load queued s) := by
  refine leads_next (onward_ite (.refl _) (onward_ite (.of_eq ?_) (onward_ite (.refl _) ?_)))
  · simp
  · exact acceptRequest_onward _ _ _ _ (fun _ => .refl _)

theorem execStuckDetected_onward (ch : Chan) (run : Nat) (s : State) : Leads OnwardStep s (execStuckDetected ch run s) := by
  unfold execStuckDetected
  refine onward_same ?_
  repeat' split
  all_goals simp

theorem execDoubleBitError_onward (array elem addr : Nat) (a : Access) (i : StartInput) (s : State) :
    Leads OnwardStep s (execDoubleBitError array elem addr a i s) := by
  refine leads_next (onward_ite (onward_ite (.refl _) (powerDown_onward _ s)) (onward_ite ?_ (.refl _)))
  exact .trans (.of_eq (by simp)) (respondDoubleBit_onward _ _ _ _ _)

theorem execPermissionViolation_onward (elem : Fin 14) (a : Access) (addr : Nat) (s : State) :
    Leads OnwardStep s (execPermissionViolation elem a addr s) :=
  leads_next (onward_ite (.refl _) (onward_ite (.of_eq (access_kept _ _ _)) (violate_onward _ _ _ _)))

theorem execChannelMeasureComplete_onward (s : State) : Leads OnwardStep s (execChannelMeasureComplete s) := by
  unfold execChannelMeasureComplete
  cases s.acq.measure with
  | none => exact leads_next (.refl _)
  | some m =>
    refine onward_guarded (.trans (.of_eq ?_) (completeRequest_onward ..))
    simp

theorem execHoldReturn_onward (v24 : Nat) (s : State) : Leads OnwardStep s (execHoldReturn v24 s) := by
  refine leads_next (onward_ite (.refl _) (onward_ite (.of_eq ?_) (onward_ite ?_ (onward_ite ?_ (.of_eq ?_)))))
  · simp
  · exact fullRestart_onward _ _ _ (setPower _ s)
  · exact fullRestart_onward _ _ _ (setPower _ s)
  · simp

theorem execHoldupEnd_onward (vbat : Nat) (s : State) : Leads OnwardStep s (execHoldupEnd vbat s) := by
  refine leads_next (onward_ite (.refl _) ?_)
  refine .trans (.trans (.of_eq ?_) (powerDown_onward .unpowered (if up s then loseEntries s else s))) (.of_eq ?_)
  · simp
  · simp

theorem execPowerOnReset_onward (v24 vbat : Nat) (straps : Slot) (recover buttonPressed : Bool) (s : State) :
    Leads OnwardStep s (execPowerOnReset v24 vbat straps recover buttonPressed s) := by
  exact onward_guarded (fullRestart_onward _ _ _ (setPower _ s))

theorem execBrownOut_onward (cause : BrownOutCause) (s : State) : Leads OnwardStep s (execBrownOut cause s) := by
  cases cause <;> exact onward_guarded (fullRestart_onward ..)

theorem execPllLockWaitExpiry_onward (s : State) : Leads OnwardStep s (execPllLockWaitExpiry s) := by
  exact onward_guarded (fullRestart_onward ..)

theorem execHoldupCharged_onward (i : StartInput) (s : State) : Leads OnwardStep s (execHoldupCharged i s) := by
  exact onward_guarded (startTested_onward i (setPower _ s))

theorem execBootTimeout_onward (i : StartInput) (s : State) : Leads OnwardStep s (execBootTimeout i s) := by
  exact onward_guarded (warmRestart_onward 7 i s)

theorem execWarmReset_onward (cause : WarmCause) (i : StartInput) (s : State) :
    Leads OnwardStep s (execWarmReset cause i s) := by
  cases cause with
  | opcode => exact onward_guarded (orderlyReset_onward i s)
  | button => exact onward_guarded (orderlyReset_onward i s)
  | restartFailed => exact onward_guarded (warmRestart_onward 6 i s)
  | bootTimeout => exact onward_guarded (warmRestart_onward 7 i s)
  | recoveryExit => exact onward_guarded (leaveRecovery_onward i s)
  | activation => exact leads_next (activateWaiting_onward i s)
  | fallback => exact onward_guarded (runFallback_onward i s)

theorem execEngineReset_onward (elem : Fin 14) (s : State) : Leads OnwardStep s (execEngineReset elem s) := by
  exact onward_guarded (engineRestart_onward elem.val s)

theorem execRecoveryEntry_onward (cause : RecoveryCause) (s : State) : Leads OnwardStep s (execRecoveryEntry cause s) := by
  cases cause with
  | button => exact onward_guarded (recoveryReset_onward s)
  | strap => exact onward_guarded (enterRecovery_onward false 1 (nominalFreq s) s)
  | failedBoots =>
    refine onward_guarded (.trans (.of_eq ?_) (enterRecovery_onward false 3 (nominalFreq s) (ledgerStart s)))
    simp

theorem execRecoveryTimeout_onward (i : StartInput) (s : State) : Leads OnwardStep s (execRecoveryTimeout i s) := by
  exact onward_guarded (leaveRecovery_onward i s)

theorem execResetButtonPress_onward (s : State) : Leads OnwardStep s (execResetButtonPress s) := by
  refine leads_next (onward_ite (.refl _) (onward_ite ?_ (.of_eq rfl)))
  exact fullRestart_onward s.power.straps 1 s.power.recover (setPower _ s)

theorem execResetButtonRelease_onward (held : Nat) (s : State) : Leads OnwardStep s (execResetButtonRelease held s) :=
  leads_next (onward_ite (.refl _) (onward_ite (.of_eq rfl) (releaseEffect_onward held (setPower _ s))))

theorem execReset_onward (r : Request) (s : State) : Leads OnwardStep s (execReset r s) := by
  unfold execReset
  dsimp only
  generalize ht : hostRequest _ _ _ s = t
  have host : Onward (kept s) (kept t) := ht ▸ hostRequest_onward _ _ _ _ fun u => .of_eq (by simp)
  exact leads_next (host.trans (.of_eq (by simp)))

theorem execShutdown_onward (r : Request) (s : State) : Leads OnwardStep s (execShutdown r s) := by
  unfold execShutdown
  dsimp only
  generalize ht : hostRequest _ _ _ s = t
  have host : Onward (kept s) (kept t) := ht ▸ hostRequest_onward _ _ _ _ fun u => .of_eq (by simp)
  exact leads_next (host.trans (.of_eq (by simp)))

theorem execShutdownSequence_onward (w : WindowInput) (lastSample : Fin 256) (k : RakeOutcome) (s : State) :
    Leads OnwardStep s (execShutdownSequence w lastSample k s) := by
  exact onward_guarded (shutDown_onward w lastSample k s)

theorem execDoorbell_onward (elem : Fin 14) (event : DoorbellEvent) (s : State) :
    Leads OnwardStep s (execDoorbell elem event s) := by
  unfold execDoorbell
  refine onward_same ?_
  (repeat' split) <;> simp

theorem execCmMnbcSoundInd_onward (o : Outlet) (runId : BitVec 64) (att : List Nat) (s : State) :
    Leads OnwardStep s (execCmMnbcSoundInd o runId att s) := by
  refine onward_same ?_
  by_cases h : (s.link.get o).matching.sounds < 10 <;> simp [h]

theorem execT1sFirstFrame_onward (o : Outlet) (mac : BitVec 48) (s : State) :
    Leads OnwardStep s (execT1sFirstFrame o mac s) := by
  refine onward_same ?_
  (repeat' split) <;> simp

theorem execSdpRequest_onward (o : Outlet) (security : Nat) (s : State) : Leads OnwardStep s (execSdpRequest o security s) := by
  refine onward_same ?_
  (repeat' split) <;> simp

theorem execTlsHandshake_onward (o : Outlet) (t : TlsOffer) (s : State) : Leads OnwardStep s (execTlsHandshake o t s) := by
  refine onward_same ?_
  (repeat' split) <;> simp

theorem execSupportedAppProtocol_onward (o : Outlet) (offers : List AppOffer) (s : State) :
    Leads OnwardStep s (execSupportedAppProtocol o offers s) := by
  refine onward_same ?_
  (repeat' split) <;> simp

theorem execSessionSetup_onward (o : Outlet) (evccid : List Byte) (s : State) :
    Leads OnwardStep s (execSessionSetup o evccid s) := by
  unfold execSessionSetup
  refine onMessage_onward fun _ _ => ?_
  dsimp only
  split <;> simp

theorem execServiceDiscovery_onward (o : Outlet) (s : State) : Leads OnwardStep s (execServiceDiscovery o s) := by
  unfold execServiceDiscovery
  exact onMessage_onward fun _ _ => by simp

theorem execServiceDetail_onward (o : Outlet) (certificateService : Bool) (s : State) :
    Leads OnwardStep s (execServiceDetail o certificateService s) := by
  unfold execServiceDetail
  exact onMessage_onward fun _ _ => by simp

theorem execPaymentServiceSelection_onward (o : Outlet) (contract : Bool) (service : EnergyService) (dynamic : Bool) (s : State) :
    Leads OnwardStep s (execPaymentServiceSelection o contract service dynamic s) := by
  unfold execPaymentServiceSelection
  exact onMessage_onward fun _ _ => by simp

theorem execPaymentDetails_onward (o : Outlet) (c : Contract) (s : State) : Leads OnwardStep s (execPaymentDetails o c s) := by
  unfold execPaymentDetails
  exact onMessage_onward fun _ _ => by simp

theorem execAuthorizationSetup_onward (o : Outlet) (s : State) : Leads OnwardStep s (execAuthorizationSetup o s) := by
  unfold execAuthorizationSetup
  exact onMessage_onward fun _ _ => by simp

theorem execAuthorization_onward (o : Outlet) (c : Option Contract) (s : State) :
    Leads OnwardStep s (execAuthorization o c s) := by
  unfold execAuthorization
  refine onMessage_onward fun _ _ => ?_
  cases c <;> simp

theorem execChargeParameterDiscovery_onward (o : Outlet) (p : EvParams) (s : State) :
    Leads OnwardStep s (execChargeParameterDiscovery o p s) := by
  unfold execChargeParameterDiscovery
  exact onMessage_onward fun _ _ => by simp

theorem execScheduleExchange_onward (o : Outlet) (dynamic : Bool) (s : State) :
    Leads OnwardStep s (execScheduleExchange o dynamic s) := by
  unfold execScheduleExchange
  exact onMessage_onward fun _ _ => by simp

theorem execCableCheck_onward (o : Outlet) (s : State) : Leads OnwardStep s (execCableCheck o s) := by
  unfold execCableCheck
  exact onMessage_onward fun _ _ => by simp

theorem execPreCharge_onward (o : Outlet) (targetVoltage : Nat) (s : State) :
    Leads OnwardStep s (execPreCharge o targetVoltage s) := by
  unfold execPreCharge
  exact onMessage_onward fun _ _ => by simp

theorem execPowerDelivery_onward (o : Outlet) (start : Bool) (s : State) :
    Leads OnwardStep s (execPowerDelivery o start s) := by
  unfold execPowerDelivery
  exact onMessage_onward fun _ _ => by simp

theorem execCurrentDemand_onward (o : Outlet) (v i p : Nat) (s : State) : Leads OnwardStep s (execCurrentDemand o v i p s) := by
  unfold execCurrentDemand
  exact onLoop_onward (fun _ _ => by simp) (fun _ => by simp)

theorem execChargingStatus_onward (o : Outlet) (s : State) : Leads OnwardStep s (execChargingStatus o s) := by
  unfold execChargingStatus
  exact onLoop_onward (fun _ _ => by simp) (fun _ => by simp)

theorem execWeldingDetection_onward (o : Outlet) (s : State) : Leads OnwardStep s (execWeldingDetection o s) := by
  unfold execWeldingDetection
  exact onMessage_onward fun _ _ => by simp

theorem execMeteringReceipt_onward (o : Outlet) (s : State) : Leads OnwardStep s (execMeteringReceipt o s) := by
  unfold execMeteringReceipt
  exact onMessage_onward fun _ _ => by simp

theorem execCertificateInstallation_onward (o : Outlet) (s : State) : Leads OnwardStep s (execCertificateInstallation o s) := by
  unfold execCertificateInstallation
  exact onMessage_onward fun _ _ => by simp

theorem execCertificateUpdate_onward (o : Outlet) (s : State) : Leads OnwardStep s (execCertificateUpdate o s) := by
  unfold execCertificateUpdate
  exact onMessage_onward fun _ _ => by simp

theorem execSessionStop_onward (o : Outlet) (s : State) : Leads OnwardStep s (execSessionStop o s) := by
  unfold execSessionStop
  exact onMessage_onward fun _ _ => by simp

theorem execUnsupportedMessage_onward (o : Outlet) (s : State) : Leads OnwardStep s (execUnsupportedMessage o s) := by
  unfold execUnsupportedMessage
  exact onMessage_onward fun _ _ => by simp

theorem execDomainAnswer_onward (o : Outlet) (a : DomainReply) (s : State) : Leads OnwardStep s (execDomainAnswer o a s) := by
  refine onward_same ?_
  (repeat' split) <;> simp

theorem execCommunicationsetupTimeout_onward (o : Outlet) (s : State) :
    Leads OnwardStep s (execCommunicationsetupTimeout o s) := by
  unfold execCommunicationsetupTimeout
  split
  · exact expireTo_onward fun _ => by simp
  · exact expireTo_onward fun _ => by simp

theorem execResponseTimeout_onward (o : Outlet) (loop : Bool) (s : State) :
    Leads OnwardStep s (execResponseTimeout o loop s) := by
  unfold execResponseTimeout
  split
  · exact expireTo_onward fun _ => by simp
  · exact onward_same (by simp)

theorem execAuthorisationAnswer_onward (r : Request) (s : State) : Leads OnwardStep s (execAuthorisationAnswer r s) := by
  refine onward_host fun u => .of_eq (guarded_kept _ _ _ fun v => ?_)
  cases outletOf v (fieldN r.payload 0 4) <;> simp

theorem execSieveLoad_onward (r : Request) (s : State) : Leads OnwardStep s (execSieveLoad r s) :=
  onward_host fun u => bulkWrite_onward _ _ _ _ _ u fun _ _ => .of_eq (by simp)

theorem execTripFrame_onward (started : Bool) (s : State) : Leads OnwardStep s (execTripFrame started s) := by
  refine onward_same ?_
  (repeat' split) <;> simp

theorem execTripResetAutomatic_onward (o : Option Outlet) (s : State) : Leads OnwardStep s (execTripResetAutomatic o s) := by
  refine onward_same ?_
  (repeat' split) <;> simp

theorem execSafeFrameCopyMissing_onward (slot : Slot) (s : State) : Leads OnwardStep s (execSafeFrameCopyMissing slot s) := by
  unfold execSafeFrameCopyMissing
  cases h : (sourceOf s slot.val).waiting <;> exact onward_same (by simp [h])

theorem execTripReset_onward (r : Request) (s : State) : Leads OnwardStep s (execTripReset r s) := by
  refine onward_host fun u => .of_eq (guarded_kept _ _ _ fun v => ?_)
  by_cases ho : fieldN r.payload 0 1 = 0xFF <;> simp [ho]

theorem execParameterBlockLoad_onward (agrees : Bool) (s : State) : Leads OnwardStep s (execParameterBlockLoad agrees s) := by
  refine onward_same ?_
  (repeat' split) <;> simp

theorem execCurrentCaptureComplete_onward (samples : List Nat) (s : State) :
    Leads OnwardStep s (execCurrentCaptureComplete samples s) := by
  unfold execCurrentCaptureComplete
  cases s.sw.capture with
  | none => exact leads_next (.refl _)
  | some c => exact leads_next (completeRequest_onward _ _ _ _ _ _ (setSw _ s))

theorem execBillingPeriodRead_onward (r : Request) (s : State) : Leads OnwardStep s (execBillingPeriodRead r s) := by
  refine onward_host fun u => .of_eq ?_
  cases u.bill.periods.find? (fun x => x.number == fieldN r.payload 0 4) <;> simp

theorem execTariffLoad_onward (r : Request) (s : State) : Leads OnwardStep s (execTariffLoad r s) :=
  onward_host fun u => bulkWrite_onward _ _ _ _ _ u fun _ _ => .of_eq (by simp)

theorem execAccountLoad_onward (r : Request) (s : State) : Leads OnwardStep s (execAccountLoad r s) :=
  onward_host fun u => bulkWrite_onward _ _ _ _ _ u fun _ _ => .of_eq (by simp)

theorem execStressRestore_onward (r : Request) (s : State) : Leads OnwardStep s (execStressRestore r s) :=
  onward_host fun u => guarded_onward _ _ u fun v => bulkWrite_onward _ _ _ _ _ v fun _ _ => .of_eq (by simp)

theorem execKeyUpdate_onward (head : Request) (key sig : List Byte) (s : State) :
    Leads OnwardStep s (execKeyUpdate head key sig s) := by
  refine onward_host fun u => ?_
  dsimp only
  split
  · next h => exact applyKeyMessage_onward _ _ u (Nat.le_of_lt (counter_of_keyMessageStatus h))
  · exact .of_eq (by simp)

theorem execLifeCycleChange_onward (head : Request) (sig : List Byte) (s : State) :
    Leads OnwardStep s (execLifeCycleChange head sig s) := by
  refine onward_host fun u => guarded_onward_of fun h => ?_
  have counter := counter_of_lifeMessageStatus (h _ (List.mem_singleton_self _))
  refine .trans (.trans (programCounter_onward _ u (Nat.le_of_lt counter))
    (changeLifecycle_onward (portOrigin (head.append sig).port) 0 (fieldN (head.append sig).payload 2 1) _))
    (.of_eq (warnCounter_kept _))

theorem execMiscompare_onward (i : StartInput) (s : State) : Leads OnwardStep s (execMiscompare i s) := by
  exact onward_guarded (takeOver_onward 1 i s)

theorem execWatchdogExpiry_onward (i : StartInput) (s : State) : Leads OnwardStep s (execWatchdogExpiry i s) := by
  exact onward_guarded (takeOver_onward 3 i s)

theorem execWadiFrameReceived_onward (inputs : List WadiHeard) (syncAngle : Fin 65536) (s : State) :
    Leads OnwardStep s (execWadiFrameReceived inputs syncAngle s) := by
  unfold execWadiFrameReceived
  refine onward_same ?_
  split <;> simp

theorem execUpdateWrite_onward (head : Request) (data : List Byte) (s : State) :
    Leads OnwardStep s (execUpdateWrite head data s) := by
  refine onward_host fun u => guarded_onward _ _ u fun v => ?_
  cases findTransfer v (fieldN (head.append data).payload 0 4) with
  | some x => exact continuePackage_onward x _ v
  | none => exact openPackage_onward _ v

theorem execActivate_onward (r : Request) (i : StartInput) (s : State) : Leads OnwardStep s (execActivate r i s) := by
  unfold execActivate
  dsimp only
  generalize ht : hostRequest _ _ _ s = t
  have host : Onward (kept s) (kept t) := ht ▸ hostRequest_onward _ _ _ _ fun u => .of_eq (by simp)
  cases t.update.go with
  | none => exact leads_next host
  | some m => exact leads_next (host.trans (activateNow_onward _ _ _ _))

theorem execActivationWhenIdle_onward (i : StartInput) (s : State) : Leads OnwardStep s (execActivationWhenIdle i s) := by
  exact leads_next (activateWaiting_onward i s)

theorem execIdleWaitExpiry_onward (s : State) : Leads OnwardStep s (execIdleWaitExpiry s) := by
  unfold execIdleWaitExpiry
  cases s.update.waiting <;> exact onward_same (by simp)

theorem execEngineSafePoint_onward (elem : Fin 14) (s : State) : Leads OnwardStep s (execEngineSafePoint elem s) := by
  unfold execEngineSafePoint
  cases enginePlace elem.val with
  | none => exact leads_next (.refl _)
  | some p => exact onward_guarded (engineRestart_onward elem.val (setUpdate _ s))

theorem execConfirm_onward (r : Request) (s : State) : Leads OnwardStep s (execConfirm r s) :=
  onward_host fun u => guarded_onward _ _ u fun v => confirmTrial_onward _ v

theorem execReject_onward (r : Request) (i : StartInput) (s : State) : Leads OnwardStep s (execReject r i s) :=
  leads_next (.trans (hostRequest_onward _ _ _ _ fun _ => .of_eq (by simp)) (runFallback_onward i _))

theorem execTrialLimitExpiry_onward (i : StartInput) (s : State) : Leads OnwardStep s (execTrialLimitExpiry i s) :=
  leads_next (onward_ite (.refl _) (onward_ite (confirmTrial_onward 0 s) (runFallback_onward i (setUpdate _ s))))

theorem execSow_onward (r : Request) (s : State) : Leads OnwardStep s (execSow r s) := by
  refine onward_host fun u => .of_eq (guarded_kept _ _ _ fun v => ?_)
  cases (slotOf v (fieldN r.payload 0 1) (fieldN r.payload 1 1 = 1)).header <;> simp

theorem execRecoveryExit_onward (r : Request) (i : StartInput) (s : State) : Leads OnwardStep s (execRecoveryExit r i s) := by
  unfold execRecoveryExit
  dsimp only
  generalize ht : hostRequest _ _ _ s = t
  have host : Onward (kept s) (kept t) := ht ▸ hostRequest_onward _ _ _ _ fun u => .of_eq (by simp)
  exact leads_next (onward_ite (host.trans (leaveRecovery_onward i t)) host)

theorem execGuardTimeEnd_onward (port : Fin 2) (a b v : PollResult) (s : State) :
    Leads OnwardStep s (execGuardTimeEnd port a b v s) := by
  have polled := poll_kept port [(0, a), (1, b), (2, v)] s
  unfold execGuardTimeEnd
  refine leads_next (onward_ite (.refl _) (.of_eq ?_))
  generalize poll port _ s = x at polled ⊢
  obtain ⟨t, found⟩ := x
  cases found <;> simpa using polled

theorem execRepoll_onward (port : Fin 2) (a b v : PollResult) (s : State) : Leads OnwardStep s (execRepoll port a b v s) := 
  onward_same (by simp [poll_kept])

theorem execRespond_onward (slot : Nat) (nr : BitVec 128) (sigR sigS : BitVec 256) (s : State) :
    Leads OnwardStep s (execRespond slot nr sigR sigS s) := by
  refine onward_same (inField_kept _ _ fun t => ?_)
  cases t.tag.nonce with
  | none => simp
  | some x => simp

theorem execTagRequest_onward (requestBlock : Bool) (s : State) : Leads OnwardStep s (execTagRequest requestBlock s) := by
  unfold execTagRequest
  dsimp only
  generalize (if requestBlock = true then 3 else 2) = k
  refine leads_next (onward_ite (.refl _) ?_)
  cases blockContent s k with
  | none => exact .of_eq (by simp)
  | some b => exact onward_ite (.refl _) (onward_ite (handleRequest_onward b s) (.of_eq (by simp)))

theorem execWiredWriteRetryExpiry_onward (block : Fin 256) (retries : Nat) (s : State) :
    Leads OnwardStep s (execWiredWriteRetryExpiry block retries s) := by
  refine leads_next (onward_ite (.refl _) (.trans (.of_eq ?_) (foldl_onward _ (fun _ _ => completeRequest_onward ..) _ _)))
  simp

theorem execTagRead_onward (r : Request) (s : State) : Leads OnwardStep s (execTagRead r s) := by
  refine onward_host fun u => .of_eq (guarded_kept _ _ _ fun v => ?_)
  dsimp only
  split <;> simp

theorem execTagWrite_onward (r : Request) (committed : Bool) (s : State) : Leads OnwardStep s (execTagWrite r committed s) := by
  refine onward_host fun u => .of_eq (guarded_kept _ _ _ fun v => ?_)
  cases committed <;> simp

theorem execTagSecurity_onward (r : Request) (s : State) : Leads OnwardStep s (execTagSecurity r s) := by
  refine onward_host fun u => .of_eq (guarded_kept _ _ _ fun v => ?_)
  by_cases h : fieldN r.payload 0 1 = 1 <;> simp [h]

theorem execRakeRestart_onward (straps : Slot) (recover : Bool) (s : State) :
    Leads OnwardStep s (execRakeRestart straps recover s) := by
  exact onward_guarded (fullRestart_onward ..)

theorem execRakeRun_onward (r : Request) (w : WindowInput) (lastSample : Fin 256) (s : State) :
    Leads OnwardStep s (execRakeRun r w lastSample s) :=
  leads_next (.trans (hostRequest_onward _ _ _ _ fun _ => .of_eq (by simp)) (.of_eq (runIfAsked_kept ..)))

theorem execOrderlyResetTimeout_onward (i : StartInput) (s : State) : Leads OnwardStep s (execOrderlyResetTimeout i s) :=
  leads_next (onward_ite (.refl _) (onward_ite (orderlyReset_onward i s) (onward_ite (.of_eq rfl) (.refl _))))

/-- Every command leads onward. -/
theorem exec_onward (c : Instr) (s : State) : Leads OnwardStep s (exec c s) := by
  cases c with
  | bulkTransferTimeout | keepalivePeriod | hostAbsenceTimeout | dialCycleBoundary | gridCoherentSample | retentionScrub
    | scrubAccess | energyCommit | coolantTemperatureTimeout | pulseEmit | pulseEnd | snapshotPeriod | holdEntry |
    partialCommit | vbatLoss | idleEntry | idleExit | resetButtonStuck | utcSecond | crystalTrim | clockSlewComplete |
    pilotStateRecognised | pilotInvalid | proximityClassified | generatorCommand | cmSlacParamReq | cmStartAttenCharInd
    | cmAttenCharInd | cmAttenCharRsp | cmValidateReq | cmSlacMatchReq | vehicleJoined | matchingTimeout |
    slacRetryStateFEnd | tcpConnect | tcpClose | v2gtpInvalid | cableCheckFinished | v2gSeccSequenceTimeout |
    readytochargeTimeout | cpstateDetectionTimeout | tcpConnectionWaitTimeout | standingReplyWrite | standingReplyExpiry
    | cardWaitExpiry | hostAnswerTimeout | heldCredentialExpiry | preAuthorisationExpiry | rampDownStep |
    openThresholdReached | rampDownTimeout | cableCheckTimeout | prechargeTimeout | weldCheckTimeEnd |
    converterStatusFrame | converterLimitsFrame | converterLost | sequenceEchoLag | heartbeat | setpointRepeat |
    setpointSend | powerAllocation | acReductionExpiry | allocationMissing | siteBudgetTimeout | estopOpen | estopClosed
    | testPulse | estopDiscrepancy | overcurrentTrip | contactorDelayEnd | residualCurrentCheck |
    insulationPolarityChange | insulationSelfTimed | insulationNoValue | pilotLoss | pilotBTimeout | weldCheckStart |
    weldDetected | hedgeFault | safeFrameCyclic | safeFrameTripSend | safeFrameReceive | safeFramePairTimeout |
    safeFrameSequenceClear | safeFrameFaultClear | groupTripClear | confirmationLockExpiry | scarecrowCheck |
    scarecrowRampWithdraw | scarecrowPermitTimeout | channelCommandWrite | channelShort | channelOvercurrent |
    inrushWindowEnd | channelThermal | thermalRestart | openLoadSet | openLoadClear | groupMeanCheck |
    undervoltageRelease | undervoltageReturn | tariffEvaluation | accountStoreWrite | tamperSample | vppInRange |
    vppStartTimeout | vppFault | vppFaultRestart | displayFrame | dwellStep | gainRecompute | stressSave |
    displayTestEnd | trngTestFail | trngRetest | cisRequest | seedWrite | handback | standbySweep | domainTestComplete |
    trellisFrameStart | syncReceived | slotFrameReceived | slotAbsent | spareTakeover | memberSilence | listenTimeExpiry
    | syncReadbackMismatch | trellisPairFailed | wadiFrameStart | wadiAllocation | nodeAbsent | masterLost |
    masterCandidateStart | joinTimeout | indexFree | antennaSense | cardRemoval | pairingWaitExpiry | tagFieldOn |
    tagFieldOff | tagCommandRead | tagCommandWrite | password | challenge | leave | tagState | tagStatusUpdate |
    tagLogMirror | maintenanceWindow | maintenanceWindowEnd | rakeGroupComplete | rakePowerLimit | rakeConditionTimeout
    | pilotTestEnd | transmitTestEnd | holdupChargeTimeout | vbatLow | neighbourDiscovery =>
    exact onward_same (by simp)
  | identity | keepalive | configurationReport | generalLogRead | legalLogRead | bulkTransferStatus | legalLogArchive |
    sundialStatus | channelMeasure | trialCalibration | acquisitionStatus | registerRead | signedRegisterSnapshot |
    instantaneousValues | pulseStatus | registerRestore | powerStatus | remoteAuthorise | stopSession | sieveStatus |
    sessionStatus | outletAvailability | powerTarget | safetyStatus | confirmCheckValue | weldClear | switchStatus |
    switchCommand | currentCapture | billingStatus | clockSet | sessionRecordRead | billingPeriodClose | tariffRegisters
    | accountCredit | accountRead | tamperRead | displayStatus | applicationRows | stressRead | displayTest |
    cisternStatus | publicKeyRead | tlsKeyGenerate | attest | takeoverStatus | domainSwitch | stackStatus |
    mastershipTransfer | wadiStatus | neighbourTable | transmitTest | updateStatus | ownerLock | sowingStatus |
    contactlessStatus | rakeStatus | linkStatus | linkCounters | pilotTest =>
    exact onward_host fun _ => .of_eq (by simp)
  | hostPacketUndefined => exact execHostPacketUndefined_onward ..
  | stuckDetected => exact execStuckDetected_onward ..
  | doubleBitError => exact execDoubleBitError_onward ..
  | permissionViolation => exact execPermissionViolation_onward ..
  | channelMeasureComplete => exact execChannelMeasureComplete_onward ..
  | holdReturn => exact execHoldReturn_onward ..
  | holdupEnd => exact execHoldupEnd_onward ..
  | powerOnReset => exact execPowerOnReset_onward ..
  | brownOut => exact execBrownOut_onward ..
  | pllLockWaitExpiry => exact execPllLockWaitExpiry_onward ..
  | holdupCharged => exact execHoldupCharged_onward ..
  | bootTimeout => exact execBootTimeout_onward ..
  | warmReset => exact execWarmReset_onward ..
  | engineReset => exact execEngineReset_onward ..
  | recoveryEntry => exact execRecoveryEntry_onward ..
  | recoveryTimeout => exact execRecoveryTimeout_onward ..
  | resetButtonPress => exact execResetButtonPress_onward ..
  | resetButtonRelease => exact execResetButtonRelease_onward ..
  | reset => exact execReset_onward ..
  | shutdown => exact execShutdown_onward ..
  | shutdownSequence => exact execShutdownSequence_onward ..
  | doorbell => exact execDoorbell_onward ..
  | cmMnbcSoundInd => exact execCmMnbcSoundInd_onward ..
  | t1sFirstFrame => exact execT1sFirstFrame_onward ..
  | sdpRequest => exact execSdpRequest_onward ..
  | tlsHandshake => exact execTlsHandshake_onward ..
  | supportedAppProtocol => exact execSupportedAppProtocol_onward ..
  | sessionSetup => exact execSessionSetup_onward ..
  | serviceDiscovery => exact execServiceDiscovery_onward ..
  | serviceDetail => exact execServiceDetail_onward ..
  | paymentServiceSelection => exact execPaymentServiceSelection_onward ..
  | paymentDetails => exact execPaymentDetails_onward ..
  | authorizationSetup => exact execAuthorizationSetup_onward ..
  | authorization => exact execAuthorization_onward ..
  | chargeParameterDiscovery => exact execChargeParameterDiscovery_onward ..
  | scheduleExchange => exact execScheduleExchange_onward ..
  | cableCheck => exact execCableCheck_onward ..
  | preCharge => exact execPreCharge_onward ..
  | powerDelivery => exact execPowerDelivery_onward ..
  | currentDemand o v i p => exact execCurrentDemand_onward o v i p s
  | chargingStatus => exact execChargingStatus_onward ..
  | weldingDetection => exact execWeldingDetection_onward ..
  | meteringReceipt => exact execMeteringReceipt_onward ..
  | certificateInstallation => exact execCertificateInstallation_onward ..
  | certificateUpdate => exact execCertificateUpdate_onward ..
  | sessionStop => exact execSessionStop_onward ..
  | unsupportedMessage => exact execUnsupportedMessage_onward ..
  | domainAnswer => exact execDomainAnswer_onward ..
  | communicationsetupTimeout => exact execCommunicationsetupTimeout_onward ..
  | responseTimeout => exact execResponseTimeout_onward ..
  | authorisationAnswer => exact execAuthorisationAnswer_onward ..
  | sieveLoad => exact execSieveLoad_onward ..
  | tripFrame => exact execTripFrame_onward ..
  | tripResetAutomatic => exact execTripResetAutomatic_onward ..
  | safeFrameCopyMissing => exact execSafeFrameCopyMissing_onward ..
  | tripReset => exact execTripReset_onward ..
  | parameterBlockLoad => exact execParameterBlockLoad_onward ..
  | currentCaptureComplete => exact execCurrentCaptureComplete_onward ..
  | billingPeriodRead => exact execBillingPeriodRead_onward ..
  | tariffLoad => exact execTariffLoad_onward ..
  | accountLoad => exact execAccountLoad_onward ..
  | stressRestore => exact execStressRestore_onward ..
  | keyUpdate => exact execKeyUpdate_onward ..
  | lifeCycleChange => exact execLifeCycleChange_onward ..
  | miscompare => exact execMiscompare_onward ..
  | watchdogExpiry => exact execWatchdogExpiry_onward ..
  | wadiFrameReceived => exact execWadiFrameReceived_onward ..
  | updateWrite => exact execUpdateWrite_onward ..
  | activate => exact execActivate_onward ..
  | activationWhenIdle => exact execActivationWhenIdle_onward ..
  | idleWaitExpiry => exact execIdleWaitExpiry_onward ..
  | engineSafePoint => exact execEngineSafePoint_onward ..
  | confirm => exact execConfirm_onward ..
  | reject => exact execReject_onward ..
  | trialLimitExpiry => exact execTrialLimitExpiry_onward ..
  | sow => exact execSow_onward ..
  | recoveryExit => exact execRecoveryExit_onward ..
  | guardTimeEnd => exact execGuardTimeEnd_onward ..
  | repoll => exact execRepoll_onward ..
  | respond => exact execRespond_onward ..
  | tagRequest => exact execTagRequest_onward ..
  | wiredWriteRetryExpiry => exact execWiredWriteRetryExpiry_onward ..
  | tagRead => exact execTagRead_onward ..
  | tagWrite => exact execTagWrite_onward ..
  | tagSecurity => exact execTagSecurity_onward ..
  | rakeRestart => exact execRakeRestart_onward ..
  | rakeRun => exact execRakeRun_onward ..
  | orderlyResetTimeout => exact execOrderlyResetTimeout_onward ..

/-- Settles O3: the front command leads onward, and the passing of a millisecond leaves OTP as it is. -/
theorem otpIsOneWay : Obligations.OtpIsOneWay := by
  unfold Obligations.OtpIsOneWay
  intro k s t hk hstep
  unfold step at hstep
  split at hstep
  · have hotp : (elapse s).otp = s.otp := congrArg Kept.otp (elapse_kept s)
    obtain rfl := Host.Outcome.next.inj hstep
    rwa [hotp]
  · next c rest hqueue => exact hk.trans ((exec_onward c { s with pending := rest }).next t hstep).otp

end Sys2Proof.Machine

/-! # The block: a step, and a millisecond -/

namespace Sys2Proof.Machine

/-- Settles O1: what the definition of a step says of a queue with a front. -/
theorem stepRunsCommand : Obligations.StepRunsCommand := by
  unfold Obligations.StepRunsCommand
  intro c rest s hqueue
  rw [step, hqueue]

/-! ### A millisecond passes (R27, R138, R180, R483) -/

/-- The state with everything left out that a millisecond may change. -/
def besideElapse (t : State) : State :=
  { t with
    clockMs := 0, power := State.reset.power, fabric := State.reset.fabric, sun := State.reset.sun, logs := State.reset.logs
    link := State.reset.link, sess := State.reset.sess, hedge := State.reset.hedge, dom := State.reset.dom
    out := State.reset.out }

theorem applyGen_keeps {α : Type} (g : State → α) {o : Outlet} (hl : ∀ f t, g (setLink o f t) = g t)
    (hh : ∀ f t, g (setHedge o f t) = g t) (x : Generator) (s : State) : g (applyGen o x s) = g s := by
  unfold applyGen
  refine (hl _ _).trans ?_
  split
  · exact hh ..
  · rfl

theorem startPeriod_keeps {α : Type} (g : State → α) {o : Outlet} (hl : ∀ f t, g (setLink o f t) = g t)
    (hh : ∀ f t, g (setHedge o f t) = g t) (s : State) : g (startPeriod o s) = g s := by
  unfold startPeriod
  cases (s.link.get o).next with
  | none => rfl
  | some x => exact applyGen_keeps g hl hh x s

theorem startPeriods_keeps {α : Type} (g : State → α) (hl : ∀ o f t, g (setLink o f t) = g t)
    (hh : ∀ o f t, g (setHedge o f t) = g t) (s : State) : g (startPeriods s) = g s :=
  forOutlets_keeps g (fun o => startPeriod_keeps g (hl o) (hh o)) s

theorem saveSystem_keeps {α : Type} (g : State → α) (hp : ∀ f t, g (setPower f t) = g t) (s : State) :
    g (saveSystem s) = g s := by
  unfold saveSystem
  dsimp only
  split
  · rfl
  · exact hp ..

theorem besideElapse_finishLoad (s : State) : besideElapse (finishLoad s) = besideElapse s := by
  unfold finishLoad
  split
  · rfl
  · rw [log_eq]; rfl

theorem elapse_keeps {α : Type} (g : State → α) (hp : ∀ f t, g (setPower f t) = g t) (s : State) :
    g (elapse s) = g (finishLoad (startPeriods (tick s))) := by
  unfold elapse
  dsimp only
  split
  · exact saveSystem_keeps g hp _
  · rfl

theorem besideElapse_elapse (s : State) : besideElapse (elapse s) = besideElapse s :=
  calc besideElapse (elapse s)
    _ = besideElapse (finishLoad (startPeriods (tick s))) := elapse_keeps besideElapse (fun _ _ => rfl) s
    _ = besideElapse (startPeriods (tick s)) := besideElapse_finishLoad _
    _ = besideElapse (tick s) := startPeriods_keeps besideElapse (fun _ _ _ => rfl) (fun _ _ _ => rfl) _
    _ = besideElapse s := tick_keeps besideElapse (fun _ _ => rfl) (fun _ _ => rfl) s

theorem finishLoad_clockMs (s : State) : (finishLoad s).clockMs = s.clockMs := by
  unfold finishLoad
  split
  · rfl
  · rw [log_clockMs]; rfl

theorem elapse_clockMs (s : State) : (elapse s).clockMs = s.clockMs + 1 :=
  calc (elapse s).clockMs
    _ = (finishLoad (startPeriods (tick s))).clockMs := elapse_keeps (·.clockMs) (fun _ _ => rfl) s
    _ = (startPeriods (tick s)).clockMs := finishLoad_clockMs _
    _ = (tick s).clockMs := startPeriods_keeps (·.clockMs) (fun _ _ _ => rfl) (fun _ _ _ => rfl) _
    _ = s.clockMs + 1 := tick_clockMs s

/-- R27: the dial moves on by its frequency word at each of the 400,000 clocks, up to the end of its cycle. -/
theorem tick_sun (s : State) :
    (tick s).sun =
      let p := min (2 ^ 48 - 1) (s.sun.angle * 2 ^ 32 + s.sun.frac.toNat + 400000 * s.sun.freqWord)
      { s.sun with angle := p / 2 ^ 32, frac := BitVec.ofNat 32 p } := by
  have hring (lo hi : Nat) (t : State) : (ringPassed lo hi t).sun = t.sun := ringPassed_keeps (·.sun) (fun _ _ => rfl) lo hi t
  rw [tick, setSun_sun, hring]
  rfl

theorem elapse_sun (s : State) : (elapse s).sun = (tick s).sun :=
  calc (elapse s).sun
    _ = (finishLoad (startPeriods (tick s))).sun := elapse_keeps (·.sun) (fun _ _ => rfl) s
    _ = (startPeriods (tick s)).sun := finishLoad_sun _
    _ = (tick s).sun := startPeriods_keeps (·.sun) (fun _ _ _ => rfl) (fun _ _ _ => rfl) _

/-! ### The pilot generators begin a period (R138) -/

theorem startPeriod_other {o y : Outlet} (h : y ≠ o) (s : State) : SameOutlet y s (startPeriod o s) := by
  have hall {α : Type} (g : State → α) (hl : ∀ f t, g (setLink o f t) = g t) (hh : ∀ f t, g (setHedge o f t) = g t) :
      g (startPeriod o s) = g s := startPeriod_keeps g hl hh s
  exact ⟨hall (sessOf · y) (fun _ _ => rfl) (fun _ _ => rfl), hall (·.sess.conv.get y) (fun _ _ => rfl) (fun _ _ => rfl),
    hall (·.link.get y) (fun _ _ => PerOutlet.get_set_other _ _ _ _ h) (fun _ _ => rfl),
    hall (·.cfg) (fun _ _ => rfl) (fun _ _ => rfl)⟩

theorem applyGen_gen (o : Outlet) (g : Generator) (s : State) :
    ((applyGen o g s).link.get o).gen = g ∧ ((applyGen o g s).link.get o).next = none := by
  simp only [applyGen, setLink_link, PerOutlet.get_set_same]
  repeat' split
  all_goals exact ⟨rfl, rfl⟩

theorem startPeriod_gen (o : Outlet) (s : State) :
    ((startPeriod o s).link.get o).gen = (s.link.get o).next.getD (s.link.get o).gen ∧
      ((startPeriod o s).link.get o).next = none := by
  unfold startPeriod
  cases h : (s.link.get o).next with
  | none => exact ⟨rfl, h⟩
  | some g => exact applyGen_gen o g s

theorem finishLoad_link (s : State) : (finishLoad s).link = s.link := by
  unfold finishLoad
  split
  · rfl
  · rw [log_link]; rfl

theorem elapse_link (s : State) : (elapse s).link = (startPeriods (tick s)).link :=
  (elapse_keeps (·.link) (fun _ _ => rfl) s).trans (finishLoad_link _)

theorem elapse_gen (s : State) (o : Outlet) :
    ((elapse s).link.get o).gen = (s.link.get o).next.getD (s.link.get o).gen ∧ ((elapse s).link.get o).next = none := by
  obtain ⟨t, hbefore, hafter⟩ := forOutlets_each (fun o y u h => startPeriod_other (o := o) h u) o (tick s)
  have hlink : (elapse s).link.get o = (startPeriod o t).link.get o := by rw [elapse_link]; exact hafter.link
  have hat : t.link.get o = s.link.get o := by rw [hbefore.link, tick_link]
  rw [hlink, ← hat]
  exact startPeriod_gen o t

/-! ### The load ends, and the system block is kept up to date (R180, R483) -/

theorem finishLoad_loading (s : State) : (finishLoad s).sess.loading = none := by
  unfold finishLoad
  split
  · next h => exact h
  · rw [log_sess]; rfl

theorem elapse_loading (s : State) : (elapse s).sess.loading = none := by
  rw [elapse_keeps (·.sess.loading) (fun _ _ => rfl) s]
  exact finishLoad_loading _

theorem later_next (g : U32) : later (g + 1) g = true ∧ later g (g + 1) = false := by
  have hone : g + 1 - g = 1 := by bv_omega
  have hback : g - (g + 1) = 0xFFFFFFFF := by bv_omega
  constructor
  · rw [later, hone]; decide
  · rw [later, hback]; decide

/-- The copy that a change is written to becomes the newest. -/
theorem newestSystem_written {p : Power} {b : SystemBlock}
    (hnext : ∀ a, newestSystem p = some a → b.generation = a.generation + 1) :
    newestSystem (if system0Newest p then { p with system1 := some b } else { p with system0 := some b }) = some b := by
  by_cases hzero : system0Newest p = true
  · rw [if_pos hzero]
    cases h0 : p.system0 with
    | none => simp [newestSystem, system0Newest]
    | some a =>
      have hold : later a.generation b.generation = false := by
        rw [hnext a (by rw [newestSystem, if_pos hzero, h0])]
        exact (later_next _).2
      simp [newestSystem, system0Newest, hold]
  · rw [if_neg hzero]
    cases h1 : p.system1 with
    | none => simp [newestSystem, system0Newest]
    | some a =>
      have hnew : later b.generation a.generation = true := by
        rw [hnext a (by rw [newestSystem, if_neg hzero, h1])]
        exact (later_next _).1
      simp [newestSystem, system0Newest, hnew]

/-- R483: the newest copy holds the items as they stand, whether the change was written now or before. -/
theorem saveSystem_newest (s : State) :
    newestSystem (saveSystem s).power = some (systemNow ((newestSystem s.power).elim 0 (fun b => b.generation)) s) ∨
      newestSystem (saveSystem s).power = some (systemNow ((newestSystem s.power).elim 0 (fun b => b.generation) + 1) s) := by
  unfold saveSystem
  dsimp only
  split
  · next hsame => exact .inl hsame
  · exact .inr (newestSystem_written fun a ha => by rw [ha]; rfl)

theorem systemNow_generation {s t : State} {p : Power} {g : U32} (hp : newestSystem p = some (systemNow g s))
    (hitems : systemNow 0 t = systemNow 0 s) :
    newestSystem p = some (systemNow ((newestSystem p).elim 0 (fun b => b.generation)) t) := by
  have hsame : systemNow g t = systemNow g s := congrArg (fun b : SystemBlock => { b with generation := g }) hitems
  rw [hp, ← hsame]
  rfl

theorem elapse_system {s : State} (h : up s = true) :
    newestSystem (elapse s).power =
      some (systemNow ((newestSystem (elapse s).power).elim 0 (fun b => b.generation)) (elapse s)) := by
  have hpower : (finishLoad (startPeriods (tick s))).power = s.power := by
    have hload : (finishLoad (startPeriods (tick s))).power = (startPeriods (tick s)).power := by
      unfold finishLoad
      split
      · rfl
      · rw [log_power]; rfl
    rw [hload, startPeriods_keeps (·.power) (fun _ _ _ => rfl) (fun _ _ _ => rfl), tick_power]
  have hacq : (finishLoad (startPeriods (tick s))).acq = s.acq :=
    (elapse_keeps (·.acq) (fun _ _ => rfl) s).symm.trans (congrArg (·.acq) (besideElapse_elapse s))
  have hup : up (finishLoad (startPeriods (tick s))) = true := by
    rw [up, hpower, hacq]
    exact h
  rw [elapse]
  simp only [hup, if_true]
  have hitems := saveSystem_keeps (systemNow 0) (fun _ _ => rfl) (finishLoad (startPeriods (tick s)))
  exact (saveSystem_newest _).elim (systemNow_generation · hitems) (systemNow_generation · hitems)

/-- Settles O2. -/
theorem idleStepIsOneMillisecond : Obligations.IdleStepIsOneMillisecond := by
  unfold Obligations.IdleStepIsOneMillisecond
  intro s hidle
  have hbeside {α : Type} (g : State → α) : g (besideElapse (elapse s)) = g (besideElapse s) :=
    congrArg g (besideElapse_elapse s)
  refine ⟨elapse s, ?_, (hbeside (·.pending)).trans hidle, elapse_clockMs s, (elapse_sun s).trans (tick_sun s), elapse_gen s,
    elapse_loading s, elapse_system, hbeside (·.cfg), hbeside (·.host), hbeside (·.acq), hbeside (·.energy), hbeside (·.sw),
    hbeside (·.bill), hbeside (·.otp), hbeside (·.cis), hbeside (·.disp), hbeside (·.trellis), hbeside (·.wadi),
    hbeside (·.update), hbeside (·.reader0), hbeside (·.reader1), hbeside (·.tag), hbeside (·.rake)⟩
  rw [step, hidle]

end Sys2Proof.Machine

/-! # The frames of the commands fail for the sample at a grid angle (R74) -/

namespace Sys2Proof.Machine

/-- Outlet 0 of a DC type in the weld check of S8, in a module that runs. -/
def weldChecking : State :=
  setSess 0 (fun x => { x with state := .s8 })
    { State.reset with power.phase := .running, cfg.recs := [⟨0x0601, 0, 0, 0, 0, true, true, [0, 1]⟩] }

/-- The protection path of channel 0 delivers the code of its full scale. -/
def fullScaleStream : ChanStream := ⟨0, 0, .codes [], .codes [5461], false⟩

theorem openRound_int (n : Int) : openRound (n : Rat) = n := by simp [openRound]

theorem protValue_fullScale (s : State) (c : Nat) : protValue s c 5461 = fullScale s c := by
  have hexact : ((5461 : Int) : Rat) * (fullScale s c : Rat) / 5461 = ((fullScale s c : Int) : Rat) := by
    push_cast
    rw [mul_div_right_comm, div_self (by norm_num), one_mul]
  rw [protValue, hexact, openRound_int]

theorem takeProtect_weldHigh {s : State} {st : ChanStream} {x : Int} (hchan : st.chan.val = 0) (hon : chanOn s 0 = true)
    (hone : protSamples s 0 st.protect = [x]) (hstate : (sessOf s 0).state = .s8) :
    ((takeProtect st s).hedge.out.get 0).weldHigh = max (s.hedge.out.get 0).weldHigh (protValue s 0 x).natAbs := by
  have hhedge (f : ChanState → ChanState) : (setChan 0 f s).hedge = s.hedge := rfl
  simp [takeProtect, hchan, hon, hone, hstate, hhedge]

theorem sampled_hedge (k : Fin 256) (tk : Nat) (streams : List ChanStream) (s : State) :
    (sampled k tk streams s).hedge = (protectTaken k streams s).hedge := by
  unfold sampled
  split
  · rfl
  · exact foldl_keeps (·.hedge) _ (fun t st => (takeSample_keeps (·.hedge) (fun _ _ => rfl) ..).trans
      (takeRaw_keeps (·.hedge) (fun _ _ => rfl) ..)) streams _

theorem weldHigh_gridCoherentSample :
    ((sampled 0 0 [fullScaleStream] weldChecking).hedge.out.get 0).weldHigh = fullScale weldChecking 0 := by
  have hdial {α : Type} (g : State → α) (hr : ∀ d t, g (ring d t) = g t) (hs : ∀ f t, g (setSun f t) = g t) :
      g (reachAngle 0 weldChecking) = g weldChecking := reachAngle_keeps g hr hs 0 _
  have hon : chanOn (reachAngle 0 weldChecking) 0 = true :=
    (hdial (chanOn · 0) (fun _ _ => rfl) (fun _ _ => rfl)).trans (by decide)
  have hone : protSamples (reachAngle 0 weldChecking) 0 fullScaleStream.protect = [5461] :=
    (hdial (protSamples · 0 _) (fun _ _ => rfl) (fun _ _ => rfl)).trans (by decide)
  have hstate : (sessOf (reachAngle 0 weldChecking) 0).state = .s8 :=
    (hdial (fun t => (sessOf t 0).state) (fun _ _ => rfl) (fun _ _ => rfl)).trans (by decide)
  have hhigh : ((reachAngle 0 weldChecking).hedge.out.get 0).weldHigh = 0 :=
    (hdial (fun t => (t.hedge.out.get 0).weldHigh) (fun _ _ => rfl) (fun _ _ => rfl)).trans (by decide)
  rw [sampled_hedge]
  refine (takeProtect_weldHigh rfl hon hone hstate).trans ?_
  rw [hhigh, protValue_fullScale, hdial (fullScale · 0) (fun _ _ => rfl) (fun _ _ => rfl), Nat.zero_max, Int.natAbs_natCast]

/-- Refutes O7: its second clause names the sample at a grid angle, and the protection path of that sample keeps the highest
voltage of an outlet's weld check in Hedge (R74). -/
theorem not_commandFrames : ¬ Obligations.CommandFrames := by
  unfold Obligations.CommandFrames
  intro ⟨_, hother, _⟩
  obtain ⟨_, _, hhedge, _⟩ := hother (.gridCoherentSample 0 0 [fullScaleStream]) weldChecking _ rfl
    (exec_gridCoherentSample 0 0 _ (by decide))
  have hhigh := weldHigh_gridCoherentSample
  rw [hhedge] at hhigh
  exact absurd hhigh (by decide)

end Sys2Proof.Machine

/-! # The key store: life-cycle changes and key messages (R321, R333 to R335, R340 to R342) -/

namespace Sys2Proof.Machine

/-- Settles O50: the rows of the rule's table in the order of its cases. -/
theorem lifecycleFromOtp : Obligations.LifecycleFromOtp := by
  unfold Obligations.LifecycleFromOtp lifecycleOf
  intro o
  refine ⟨fun hr => if_pos hr, fun hr hroot => by simp [hr, hroot], fun hr hroot => ?_⟩
  simp only [hr, hroot, Bool.false_eq_true, if_false, Bool.not_true]
  refine ⟨fun h0 => if_pos h0, fun h0 hin => ?_, fun h0 hout => ?_, fun h0 hin hout => ?_⟩
  · rw [if_neg h0, if_pos hin]
  · rw [if_neg h0, if_neg (by omega), if_pos hout]
  · rw [if_neg h0, if_neg hin, if_neg hout]

/-! ### A life-cycle change (R321, R334, R335) -/

theorem putKeyBlock_cis (x : KeyBlock) (s : State) : ∃ a b, (putKeyBlock x s).cis = { s.cis with tailA := a, tailB := b } := by
  unfold putKeyBlock setCis
  cases appSlotB s with
  | true => exact ⟨_, _, rfl⟩
  | false => exact ⟨_, _, rfl⟩

/-- A new statement leaves the keys and the OTP alone and counts one statement up. -/
theorem formStatement_cis (state signer : Nat) (by' key meas : BitVec 256) (s : State) :
    ∃ a b, (formStatement state signer by' key meas s).1.cis =
      { s.cis with tailA := a, tailB := b, keyNumber := s.cis.keyNumber + 1 } := by
  obtain ⟨a, b, h⟩ := putKeyBlock_cis _ (setCis (fun c => { c with keyNumber := c.keyNumber + 1 }) s)
  exact ⟨a, b, h⟩

theorem formStatement_otp (state signer : Nat) (by' key meas : BitVec 256) (s : State) :
    (formStatement state signer by' key meas s).1.otp = s.otp := rfl

theorem logStatement_otp (x : Statement) (s : State) : (logStatement x s).otp = s.otp := log_otp ..
theorem logStatement_cis (x : Statement) (s : State) : (logStatement x s).cis = s.cis := log_cis ..
theorem logLifecycle_otp (origin old new path : Nat) (s : State) : (logLifecycle origin old new path s).otp = s.otp := log_otp ..
theorem logLifecycle_cis (origin old new path : Nat) (s : State) : (logLifecycle origin old new path s).cis = s.cis := log_cis ..

theorem holdTap_keeps {α : Type} (g : State → α) (h : ∀ f t, g (setTap f t) = g t) (s : State) : g (holdTap s) = g s := by
  unfold holdTap
  split
  · rfl
  · exact h ..

/-- The statement of a transition's key: the key is held, and the other keys and OTP stay. -/
theorem newMetrology_cis (s : State) :
    ∃ k a b, (newMetrology s).1.cis =
      { s.cis with metrology := some k, tailA := a, tailB := b, keyNumber := s.cis.keyNumber + 1 } := by
  obtain ⟨a, b, h⟩ := formStatement_cis 1 0 (identityKey s) (metrologyKey s s.cis.legalMeas) s.cis.legalMeas
    (setCis (fun c => { c with metrology := some (metrologyKey s s.cis.legalMeas) }) s)
  exact ⟨_, a, b, h⟩

theorem newMetrology_otp (s : State) : (newMetrology s).1.otp = s.otp := rfl

theorem enterField_cis (origin : Nat) (s : State) :
    ∃ k a b, (enterField origin s).cis =
      { s.cis with lifecycle := 2, metrology := some k, tailA := a, tailB := b, keyNumber := s.cis.keyNumber + 1 } := by
  obtain ⟨k, a, b, h⟩ := newMetrology_cis
    (setCis (fun c => { c with lifecycle := 2 }) (setOtp (fun o => { o with entriesY := o.entriesY + 1 }) s))
  refine ⟨k, a, b, ?_⟩
  simp only [enterField, logStatement_cis, logLifecycle_cis]
  exact h

theorem enterField_otp (origin : Nat) (s : State) :
    (enterField origin s).otp = { s.otp with entriesY := s.otp.entriesY + 1 } := by
  simp only [enterField, logStatement_otp, logLifecycle_otp]
  rfl

theorem leaveField_cis (origin path target : Nat) (s : State) :
    ∃ k a b, (leaveField origin path target s).cis =
      { s.cis with
        lifecycle := 3, metrology := some k, tls := none, wadi := none, trellis := none, hostKey := none
        tailA := a, tailB := b, keyNumber := s.cis.keyNumber + 1 } := by
  simp only [leaveField, logStatement_cis, logLifecycle_cis]
  obtain ⟨k, a, b, h⟩ := newMetrology_cis _
  exact ⟨k, a, b, h⟩

theorem leaveField_otp (origin path target : Nat) (s : State) :
    (leaveField origin path target s).otp = { s.otp with exitsX := s.otp.exitsX + 1 } := by
  simp only [leaveField, logStatement_otp, logLifecycle_otp]
  rfl

/-- A module that leaves SERVICE ends its trials; key store and OTP stay. -/
theorem changeLifecycle_keeps {α : Type} (g : State → α) (ht : ∀ f t, g (setTap f t) = g t) (origin path target : Nat)
    (s : State) : ∃ u, u.cis = s.cis ∧ u.otp = s.otp ∧ g (changeLifecycle origin path target s) =
      g (if target = 2 then enterField origin u else if target = 3 then leaveField origin path 3 u else enterRetired origin u) :=
  ⟨if s.cis.lifecycle = 3 ∧ target ≠ 3 then leaveService s else s, by split <;> rfl, by split <;> rfl, holdTap_keeps g ht _⟩

theorem enterRetired_store (origin : Nat) (s : State) :
    ∃ u : State, u.otp.serial = s.otp.serial ∧ (enterRetired origin s).cis = (retire u).cis ∧
      (enterRetired origin s).otp = (retire u).otp := by
  unfold enterRetired
  split
  · exact ⟨leaveField origin 0 4 s, by rw [leaveField_otp], rfl, rfl⟩
  · exact ⟨s, rfl, logLifecycle_cis .., logLifecycle_otp ..⟩

theorem changeLifecycle_field (origin path : Nat) (s : State) :
    let t := changeLifecycle origin path 2 s
    t.cis.lifecycle = 2 ∧ t.otp = { s.otp with entriesY := s.otp.entriesY + 1 } ∧ t.cis.metrology ≠ none ∧
      t.cis.tls = s.cis.tls ∧ t.cis.hostKey = s.cis.hostKey ∧ t.cis.keyNumber = s.cis.keyNumber + 1 := by
  obtain ⟨u, hcis, hotp, h⟩ := changeLifecycle_keeps (fun t => (t.cis, t.otp)) (fun _ _ => rfl) origin path 2 s
  obtain ⟨hc, ho⟩ := Prod.mk.inj h
  obtain ⟨k, a, b, hstore⟩ := enterField_cis origin u
  dsimp only
  rw [hc, ho, if_pos rfl, hstore, enterField_otp, hcis, hotp]
  simp

theorem changeLifecycle_service (origin path : Nat) (s : State) :
    let t := changeLifecycle origin path 3 s
    t.cis.lifecycle = 3 ∧ t.otp = { s.otp with exitsX := s.otp.exitsX + 1 } ∧ t.cis.metrology ≠ none ∧ t.cis.tls = none ∧
      t.cis.wadi = none ∧ t.cis.trellis = none ∧ t.cis.hostKey = none := by
  obtain ⟨u, hcis, hotp, h⟩ := changeLifecycle_keeps (fun t => (t.cis, t.otp)) (fun _ _ => rfl) origin path 3 s
  obtain ⟨hc, ho⟩ := Prod.mk.inj h
  obtain ⟨k, a, b, hstore⟩ := leaveField_cis origin path 3 u
  dsimp only
  rw [hc, ho, if_neg (by decide), if_pos rfl, hstore, leaveField_otp, hcis, hotp]
  simp

theorem changeLifecycle_retired (origin path : Nat) (s : State) :
    let t := changeLifecycle origin path 4 s
    t.cis.lifecycle = 4 ∧ t.otp.retired = true ∧ t.otp.rootDestroyed = true ∧ t.otp.root = BitVec.allOnes 256 ∧
      t.cis.identity = none ∧ t.cis.metrology = none ∧ t.cis.tls = none ∧ t.cis.wadi = none ∧ t.cis.trellis = none ∧
      t.cis.hostKey = none ∧ t.otp.serial = s.otp.serial := by
  obtain ⟨u, -, hotp, h⟩ := changeLifecycle_keeps (fun t => (t.cis, t.otp)) (fun _ _ => rfl) origin path 4 s
  obtain ⟨hc, ho⟩ := Prod.mk.inj h
  obtain ⟨v, hserial, hstore, hfuses⟩ := enterRetired_store origin u
  dsimp only
  rw [hc, ho, if_neg (by decide), if_neg (by decide), hstore, hfuses, ← hotp, ← hserial]
  exact ⟨rfl, rfl, rfl, rfl, rfl, rfl, rfl, rfl, rfl, rfl, rfl⟩

/-! ### The checks of a key message (R340 to R342) -/

theorem need_ok_iff {c : Bool} {st : Nat} (h : st ≠ St.ok) : need c st = St.ok ↔ c = true := by
  cases c with
  | false => simpa [need] using h
  | true => simp [need]

theorem keyUsable_of_keyVerifies {s : State} {i : Nat} {msg sig : List Byte} (h : keyVerifies s i msg sig = true) :
    keyUsable s i = true := by
  rw [keyVerifies, Bool.and_eq_true] at h
  exact h.1

theorem secretPayload_iff {cls op : Nat} : secretPayload cls op = true ↔ 3 ≤ cls ∧ cls ≤ 5 ∧ op = 1 := by
  simp [secretPayload, and_assoc]

theorem keyMessageStatus_ok_iff (s : State) (p : List Byte) :
    let cls := fieldN p 2 1
    let n := fieldN p 20 4
    let len := fieldN p 26 2
    keyMessageStatus s p = St.ok ↔
      p.length = 172 + len ∧ fieldsOk p = true ∧ bindingMine s (slice p 4 16) = true ∧ keyUsable s (fieldN p 24 1) = true ∧
      keyVerifies s (fieldN p 24 1) (p.take (108 + len)) (slice p (108 + len) 64) = true ∧
      s.otp.keyCounter < n ∧ n ≤ s.otp.keyCounter + 16 ∧ n ≤ 2048 ∧
        operationAllowed s cls (fieldN p 3 1) (fieldN p 25 1) = true ∧
      onTrial s 2 = false ∧ s.cis.migrating = none ∧
      (3 ≤ cls ∧ cls ≤ 5 ∧ fieldN p 3 1 = 1 → (unwrapped s p).isSome = true) ∧ (cls = 6 → legalRoom s = true) := by
  intro cls n len
  have hlen : p.length = 108 + len + 64 ↔ p.length = 172 + len := by omega
  have hsecret : (!secretPayload cls (fieldN p 3 1) || (unwrapped s p).isSome) = true ↔
      (3 ≤ cls ∧ cls ≤ 5 ∧ fieldN p 3 1 = 1 → (unwrapped s p).isSome = true) := by
    rw [← secretPayload_iff, Bool.or_eq_true, Bool.not_eq_true', Bool.eq_false_iff, imp_iff_not_or]
  have hroom : (cls != 6 || legalRoom s) = true ↔ (cls = 6 → legalRoom s = true) := by
    rw [Bool.or_eq_true, bne_iff_ne, imp_iff_not_or]
  unfold keyMessageStatus
  rw [firstBad_ok_iff]
  simp only [List.forall_mem_cons, List.not_mem_nil, false_implies, implies_true, and_true]
  rw [need_ok_iff (by decide), need_ok_iff (by decide), need_ok_iff (by decide), need_ok_iff (by decide), need_ok_iff (by decide),
    need_ok_iff (by decide), need_ok_iff (by decide), need_ok_iff (by decide), counterStatus_ok, hsecret, Bool.and_eq_true,
    Bool.and_eq_true, hroom, beq_iff_eq, hlen, decide_eq_true_eq, Option.isNone_iff_eq_none, Bool.not_eq_true']
  constructor
  · rintro ⟨h1, h2, h3, h4, ⟨h5, h6⟩, ⟨h7, h8⟩, h9, h10, h11, h12⟩
    exact ⟨h1, h2, h3, keyUsable_of_keyVerifies h4, h4, h5, h6, h11, h7, h8, h9, h10, h12⟩
  · rintro ⟨h1, h2, h3, -, h4, h5, h6, h11, h7, h8, h9, h10, h12⟩
    exact ⟨h1, h2, h3, h4, ⟨h5, h6⟩, ⟨h7, h8⟩, h9, h10, h11, h12⟩

theorem operationAllowed_outside {s : State} (h : s.cis.lifecycle = 0 ∨ s.cis.lifecycle = 4) (cls op slot : Nat) :
    operationAllowed s cls op slot = false := by
  unfold operationAllowed
  obtain h | h := h <;> simp [h]

theorem operationAllowed_write_slot {s : State} {slot : Nat}
    (h : s.cis.lifecycle = 2 ∨ s.otp.programmed.getLsbD slot = true) : operationAllowed s 6 1 slot = false := by
  unfold operationAllowed
  obtain h | h := h <;> simp [h]

/-- Settles O52. -/
theorem keyStoreRules : Obligations.KeyStoreRules := by
  unfold Obligations.KeyStoreRules
  exact ⟨fun origin path s => ⟨changeLifecycle_field origin path s, changeLifecycle_service origin path s,
      changeLifecycle_retired origin path s⟩,
    keyMessageStatus_ok_iff, fun s op slot h cls => operationAllowed_outside h cls op slot,
    fun s slot h => operationAllowed_write_slot h⟩

end Sys2Proof.Machine

/-! # A write of a tag block is atomic (R451, R452) -/

namespace Sys2Proof.Machine

/-! ### The committed copy (R451) -/

theorem good_eq_false {x : TagCopy} : x.good = false ↔ ¬x.good = true := by simp

theorem committedCopy_good {b : TagBlock} {c : Bool} (h : committedCopy b = some c) : (copyOf b c).good = true := by
  unfold committedCopy at h
  dsimp only at h
  split at h
  · next named hnamed =>
    obtain ⟨m, -, hm⟩ := Option.bind_eq_some_iff.mp hnamed
    split at hm
    · next hgood =>
      cases hm
      cases h
      exact hgood.1
    · cases hm
  · split at h
    · next h0 h1 =>
      cases Option.some.inj h
      cases laterGen b.copy1.gen b.copy0.gen <;> assumption
    · next h0 _ => cases h; exact h0
    · next _ h1 => cases h; exact h1
    · cases h

/-- A block has a committed copy as soon as one of its copies stands. -/
theorem committedCopy_of_good {b : TagBlock} {c : Bool} (h : (copyOf b c).good = true) : ∃ d, committedCopy b = some d := by
  unfold committedCopy
  dsimp only
  split
  · exact ⟨_, rfl⟩
  · split
    · exact ⟨_, rfl⟩
    · exact ⟨_, rfl⟩
    · exact ⟨_, rfl⟩
    · next h0 h1 => cases c <;> simp_all [copyOf]

/-- The only copy that stands is the committed one. -/
theorem committedCopy_of_only {b : TagBlock} {c : Bool} (h : (copyOf b c).good = true) (hother : (copyOf b (!c)).good = false) :
    committedCopy b = some c := by
  obtain ⟨d, hd⟩ := committedCopy_of_good h
  obtain rfl | hd' : d = c ∨ d = !c := by cases c <;> cases d <;> simp
  · exact hd
  · have hgood := committedCopy_good hd
    rw [hd', hother] at hgood
    cases hgood

theorem committedCopy_of_none {b : TagBlock} (h : ∀ c, (copyOf b c).good = false) : committedCopy b = none := by
  cases hd : committedCopy b with
  | none => rfl
  | some d => exact absurd (committedCopy_good hd) (by rw [h d]; decide)

theorem committedCopy_of_marker {b : TagBlock} {c : Bool} (hmarker : b.marker = some (c, (copyOf b c).gen.setWidth 8))
    (h : (copyOf b c).good = true) : committedCopy b = some c := by
  simp [committedCopy, hmarker, h]

/-! ### The steps of a write (R452) -/

/-- The copy that a write replaces while the other one is committed: without a committed copy it is copy 0. -/
def writtenOver (b : TagBlock) : Bool := !(committedCopy b).getD true

/-- The block with one of its copies replaced. -/
def withCopy (b : TagBlock) (c : Bool) (x : TagCopy) : TagBlock := if c then { b with copy1 := x } else { b with copy0 := x }

theorem copyOf_withCopy (b : TagBlock) (c : Bool) (x : TagCopy) : copyOf (withCopy b c x) c = x := by cases c <;> rfl

theorem copyOf_withCopy_other (b : TagBlock) (c : Bool) (x : TagCopy) : copyOf (withCopy b c x) (!c) = copyOf b (!c) := by
  cases c <;> rfl

/-- The copy that a completed step 3 leaves: the new content under the next generation. -/
def nextCopy (b : TagBlock) (data : List Byte) : TagCopy :=
  let gen := (copyOf b (!writtenOver b)).gen + 1
  ⟨padTo 32 data, gen, copyCrc (padTo 32 data) gen⟩

/-- The copy that a collapse in step 3 leaves: it fails its CRC. -/
def brokenCopy (b : TagBlock) (data : List Byte) : TagCopy :=
  let gen := (copyOf b (writtenOver b)).gen
  ⟨padTo 32 data, gen, ~~~copyCrc (padTo 32 data) gen⟩

theorem nextCopy_good (b : TagBlock) (data : List Byte) : (nextCopy b data).good = true := by simp [nextCopy, TagCopy.good]

theorem brokenCopy_bad (b : TagBlock) (data : List Byte) : (brokenCopy b data).good = false := by
  simp only [brokenCopy, TagCopy.good, beq_eq_false_iff_ne, ne_eq]
  generalize copyCrc _ _ = x
  bv_omega

/-- The block that each place of a collapse leaves. -/
theorem programBlock_eq (b : TagBlock) (data : List Byte) (c : Collapse) :
    programBlock b data c =
      match c with
      | .step1 | .step2 => b
      | .step3 => withCopy b (writtenOver b) (brokenCopy b data)
      | .step4 | .beforeMarker => withCopy b (writtenOver b) (nextCopy b data)
      | .afterMarker | .never =>
        { withCopy b (writtenOver b) (nextCopy b data) with
          marker := some (writtenOver b, (nextCopy b data).gen.setWidth 8) } := by
  unfold programBlock writtenOver nextCopy brokenCopy
  cases h : (committedCopy b).getD true <;> cases c <;> simp [withCopy, writtenOver, h]

/-- The content of a block's committed copy. -/
def committedContent (b : TagBlock) : Option (List Byte) := (committedCopy b).map (fun one => (copyOf b one).data)

theorem committedCopy_cases (b : TagBlock) :
    committedCopy b = some (!writtenOver b) ∨ ∀ c, (copyOf b c).good = false := by
  cases h : committedCopy b with
  | some d => exact .inl (by simp [writtenOver, h])
  | none =>
    refine .inr fun c => good_eq_false.mpr fun hgood => ?_
    obtain ⟨d, hd⟩ := committedCopy_of_good hgood
    rw [h] at hd
    cases hd

/-- A broken copy is never the committed one: the block reads as before. -/
theorem committedContent_broken (b : TagBlock) {x : TagCopy} (hbad : x.good = false) :
    committedContent (withCopy b (writtenOver b) x) = committedContent b := by
  have hother := copyOf_withCopy_other b (writtenOver b) x
  have hsame := copyOf_withCopy b (writtenOver b) x
  obtain hold | hnone := committedCopy_cases b
  · have hnew : committedCopy (withCopy b (writtenOver b) x) = some (!writtenOver b) := by
      refine committedCopy_of_only ?_ ?_
      · rw [hother]; exact committedCopy_good hold
      · rw [Bool.not_not, hsame]; exact hbad
    rw [committedContent, committedContent, hnew, hold, Option.map_some, Option.map_some, hother]
  · have hbads : ∀ c, (copyOf (withCopy b (writtenOver b) x) c).good = false := fun c => by
      obtain rfl | rfl : c = writtenOver b ∨ c = !writtenOver b := by cases c <;> cases writtenOver b <;> simp
      · rw [hsame]; exact hbad
      · rw [hother]; exact hnone _
    rw [committedContent, committedContent, committedCopy_of_none hbads, committedCopy_of_none hnone]
    rfl

/-- Before the marker is set the block reads as before or as the new copy. -/
theorem committedContent_unmarked (b : TagBlock) {x : TagCopy} (hgood : x.good = true) :
    committedContent (withCopy b (writtenOver b) x) = committedContent b ∨
      committedContent (withCopy b (writtenOver b) x) = some x.data := by
  have hother := copyOf_withCopy_other b (writtenOver b) x
  have hsame := copyOf_withCopy b (writtenOver b) x
  obtain ⟨d, hd⟩ := committedCopy_of_good (hsame ▸ hgood)
  obtain rfl | rfl : d = writtenOver b ∨ d = !writtenOver b := by cases d <;> cases writtenOver b <;> simp
  · exact .inr (by rw [committedContent, hd, Option.map_some, hsame])
  · obtain hold | hnone := committedCopy_cases b
    · exact .inl (by rw [committedContent, committedContent, hd, hold, Option.map_some, Option.map_some, hother])
    · have hstands := committedCopy_good hd
      rw [hother, hnone] at hstands
      cases hstands

theorem committedContent_marked (b : TagBlock) {c : Bool} {x : TagCopy} (hgood : x.good = true) :
    committedContent { withCopy b c x with marker := some (c, x.gen.setWidth 8) } = some x.data := by
  have hsame : copyOf { withCopy b c x with marker := some (c, x.gen.setWidth 8) } c = x := copyOf_withCopy b c x
  rw [committedContent, committedCopy_of_marker (c := c) (by rw [hsame]) (by rw [hsame]; exact hgood), Option.map_some, hsame]

theorem programBlock_content (b : TagBlock) (data : List Byte) (c : Collapse) :
    committedContent (programBlock b data c) = committedContent b ∨
      committedContent (programBlock b data c) = some (padTo 32 data) := by
  rw [programBlock_eq]
  cases c with
  | step1 | step2 => exact .inl rfl
  | step3 => exact .inl (committedContent_broken b (brokenCopy_bad b data))
  | step4 | beforeMarker => exact committedContent_unmarked b (nextCopy_good b data)
  | afterMarker | never => exact .inr (committedContent_marked b (nextCopy_good b data))

theorem programBlock_marked {c : Collapse} (h : c = .never ∨ c = .afterMarker) (b : TagBlock) (data : List Byte) :
    committedContent (programBlock b data c) = some (padTo 32 data) := by
  rw [programBlock_eq]
  obtain rfl | rfl := h <;> exact committedContent_marked b (nextCopy_good b data)

theorem programBlock_unstarted {c : Collapse} (h : c = .step1 ∨ c = .step2) (b : TagBlock) (data : List Byte) :
    programBlock b data c = b := by
  obtain rfl | rfl := h <;> rfl

theorem withCopy_index (b : TagBlock) (c : Bool) (x : TagCopy) : (withCopy b c x).index = b.index := by cases c <;> rfl

theorem programBlock_index (b : TagBlock) (data : List Byte) (c : Collapse) : (programBlock b data c).index = b.index := by
  rw [programBlock_eq]
  cases c with
  | step1 | step2 => rfl
  | _ => exact withCopy_index ..

/-- Settles O58. -/
theorem tagWriteAtomic : Obligations.TagWriteAtomic := by
  unfold Obligations.TagWriteAtomic
  exact fun b data c => ⟨programBlock_content b data c, fun h => programBlock_marked h b data,
    fun h => programBlock_unstarted h b data, programBlock_index b data c⟩

end Sys2Proof.Machine

/-! # What a restart keeps, and what a loss of retention SRAM leaves (R476, R480, R481) -/

namespace Sys2Proof.Machine

theorem saveSystem_eq (s : State) : saveSystem s = { s with power := (saveSystem s).power } := by
  unfold saveSystem
  dsimp only
  split
  · rfl
  · rfl

theorem loseRetention_next (s : State) :
    (s.logs.general = [] → (loseRetention s).logs.next = 0) ∧
      ∀ e l, s.logs.general = e :: l → (loseRetention s).logs.next = e.index + 1 := by
  have hnext : (loseRetention s).logs.next = s.logs.general.head?.elim 0 (fun e => e.index + 1) := rfl
  exact ⟨fun h => by rw [hnext, h]; rfl, fun e l h => by rw [hnext, h]; rfl⟩

theorem loseRetention_lastNumber (s : State) :
    (∀ e, latestEntry s 0x06 0x0601 (fun _ => true) = some e → (loseRetention s).sess.lastNumber = fieldN e.detail 4 4) ∧
      (latestEntry s 0x06 0x0601 (fun _ => true) = none → (loseRetention s).sess.lastNumber = 0) := by
  have hnumber : (loseRetention s).sess.lastNumber =
      (latestEntry s 0x06 0x0601 (fun _ => true)).elim 0 (fun e => fieldN e.detail 4 4) := rfl
  exact ⟨fun e h => by rw [hnumber, h]; rfl, fun h => by rw [hnumber, h]; rfl⟩

theorem sessOf_reset : ∀ o : Outlet, (sessOf State.reset o).state = .s0 ∧ (sessOf State.reset o).drive = false := by decide

theorem fullRestart_outlet (cause : Nat) (straps : Slot) (recover : Bool) (s : State) (o : Outlet) :
    let t := fullRestart cause straps recover s
    (sessOf t o).state = .s0 ∧ (sessOf t o).drive = false ∧ (t.hedge.out.get o).closed = false ∧
      (t.hedge.out.get o).latched = if (s.hedge.out.get o).latched.getLsbD 5 then 0x20 else 0 := by
  intro t
  have hhedge : t.hedge.out.get o = weldOnly ((s.hedge.out.get o).latched.getLsbD 5) := by
    show (perOutlet (fun o => weldOnly (((saveSystem s).hedge.out.get o).latched.getLsbD 5))).get o = _
    rw [perOutlet_get, saveSystem_eq]
  have hsess : sessOf t o = sessOf State.reset o := rfl
  obtain ⟨hstate, hdrive⟩ := sessOf_reset o
  rw [hhedge, hsess]
  exact ⟨hstate, hdrive, rfl, rfl⟩

theorem fullRestart_origin (cause : Nat) (straps : Slot) (recover : Bool) (s : State) (p : Port) :
    (originOf (fullRestart cause straps recover s) p).lastSeq = (originOf s p).lastSeq ∧
      (originOf (fullRestart cause straps recover s) p).cache = [] := by
  unfold fullRestart powerDown
  rw [saveSystem_eq]
  cases p <;> exact ⟨rfl, rfl⟩

/-- Settles O22. -/
theorem restartKeeps : Obligations.RestartKeeps := by
  unfold Obligations.RestartKeeps
  refine ⟨fun cause straps recover s => ?_, fun s => ?_⟩
  · have houtlet := fullRestart_outlet cause straps recover s
    have horigin := fullRestart_origin cause straps recover s
    revert houtlet horigin
    unfold fullRestart powerDown
    rw [saveSystem_eq s]
    intro houtlet horigin
    exact ⟨rfl, rfl, rfl, rfl, rfl, rfl, rfl, rfl, rfl, rfl, rfl, rfl, rfl, rfl, horigin, houtlet, rfl, rfl, rfl, rfl, rfl, rfl,
      rfl, rfl, rfl, rfl, rfl, rfl, rfl, rfl, rfl, rfl, rfl, rfl, rfl, rfl⟩
  · obtain ⟨hempty, hnewest⟩ := loseRetention_next s
    obtain ⟨hentry, hnone⟩ := loseRetention_lastNumber s
    exact ⟨rfl, rfl, rfl, rfl, rfl, rfl, rfl, rfl, rfl, hempty, hnewest, rfl, rfl, rfl, hentry, hnone, rfl, rfl, rfl, rfl, rfl⟩

end Sys2Proof.Machine

/-! # The reads of domains, stack, site line, updates, tag and Rake (R383, R414, R436, R457, R471) -/

namespace Sys2Proof.Machine

/-- A host request whose action replies and draws a free value. -/
theorem host_reads_draw {op : OpSpec} {c : Instr} {r : Request} {s : State} {act : State → State × Answer} {pl : List Byte}
    (hc : exec c s = .next (hostRequest op r act s)) (ha : ∀ x, act (withHost x s) = reply pl (draw (withHost x s))) :
    Admitted op r s → Completes c s (fun t => Answers s r op.code St.ok pl t ∧ SameModule s t) :=
  host_answers hc fun x _ _ => ⟨_, ha x, sameSender_of rfl rfl rfl, rfl⟩

/-- A read of tag blocks that can all be read gives their contents (R457). -/
theorem tagRead_reply {p : List Byte} {s : State} {ks : List Nat} (h : ∀ k ∈ ks, (blockContent s k).isSome = true) :
    (let bad := ks.filter (fun k => (blockContent s k).isNone)
     if bad = [] then reply (p.take 2 ++ [0, 0] ++ ks.flatMap (fun k => (blockContent s k).getD (zeros 32))) s
     else refuse St.checkFail (bad.foldl (fun t k => logUnreadable k t) s)) =
      reply (p.take 2 ++ [0, 0] ++ ks.flatMap (fun k => (blockContent s k).getD (zeros 32))) s :=
  if_pos (List.filter_eq_nil_iff.mpr fun k hk => by rw [Option.isNone_eq_false_iff.mpr (h k hk)]; decide)

/-- Settles O13: each read is a reply that the host link passes on. -/
theorem moduleReads : Obligations.ModuleReads := by
  unfold Obligations.ModuleReads
  intro s r
  refine ⟨host_reads_draw rfl fun _ => rfl, host_reads rfl fun _ _ _ => rfl, host_reads_draw rfl fun _ => rfl,
    fun hid hoff hlen hres => ?_, host_reads rfl fun _ _ _ => ?_, host_reads rfl fun _ _ _ => rfl,
    host_reads rfl fun _ _ _ => rfl, fun hzero hcount hend hres hread => ?_, host_reads_draw rfl fun _ => rfl⟩
  · exact host_reads rfl fun x _ _ => bulkRead_block _ _ hid hoff hlen hres
  · have hregions : (List.range 5).flatMap (regionBytes s) =
        regionBytes s 0 ++ (regionBytes s 1 ++ (regionBytes s 2 ++ (regionBytes s 3 ++ regionBytes s 4))) := by
      simp [List.range_succ]
    simp only [List.append_assoc, ← hregions]
    rfl
  · refine host_reads rfl fun x _ _ => ?_
    rw [guarded_pass (by simp [need_of, reservedOk_of, hzero, hcount, hend, hres])]
    refine (tagRead_reply (s := withHost x s) fun k hk => ?_).trans ?_
    · obtain ⟨i, hi, rfl⟩ := List.mem_map.mp hk
      exact hread i (List.mem_range.mp hi)
    · rw [List.flatMap_map]
      rfl

end Sys2Proof.Machine

/-! # The commands of the Cistern (R320, R326, R334, R338 to R343, R350, R351) -/

namespace Sys2Proof.Machine

theorem SameModule.sender {s t : State} (h : SameModule s t) : SameSender s t := by
  rw [h]
  exact sameSender_of rfl rfl rfl

/-! ### Health tests and key requests (R320, R326) -/

theorem trngTestFail_completes {s : State} (h : up s = true) (test : Fin 2) :
    Completes (.trngTestFail test) s (fun t =>
      t.cis = { s.cis with trngFault := true } ∧
      t.logs.general.head? = some (newEntry s 0 0x0B 0x0B07 (byte (test.val + 1) :: zeros 15))) :=
  ⟨_, congrArg Host.Outcome.next (if_pos h), log_cis .., log_general_head ..⟩

theorem trngRetest_completes {s : State} (h : up s = true) (ok : Bool) :
    Completes (.trngRetest ok) s (fun t => t = { s with cis := { s.cis with trngFault := s.cis.trngFault && !ok } }) :=
  ⟨_, congrArg Host.Outcome.next (if_pos h), rfl⟩

theorem cisRequest_served {s : State} {e : Fin 14} (h : up s = true) (hqueue : hasQueue s e.val = true) (cls : Fin 7) :
    exec (.cisRequest cls e) s = .next (
      if cls.val = 1 ∧ grants s 1 = true then signed (emit (.cis e.val cls.val (grants s cls.val)) s)
      else emit (.cis e.val cls.val (grants s cls.val)) s) :=
  congrArg Host.Outcome.next (if_pos (by simp [h, hqueue]))

theorem cisRequest_ignores {s : State} {e : Fin 14} (h : up s = false ∨ hasQueue s e.val = false) (cls : Fin 7) :
    Ignores (.cisRequest cls e) s := congrArg Host.Outcome.next (if_neg (by obtain h | h := h <;> simp [h]))

/-! ### Key messages and life-cycle messages (R338 to R343) -/

theorem keyMessageStatus_withHost (x : HostLink) (p : List Byte) (s : State) :
    keyMessageStatus (withHost x s) p = keyMessageStatus s p := rfl

theorem lifeMessageStatus_withHost (x : HostLink) (p : List Byte) (s : State) :
    lifeMessageStatus (withHost x s) p = lifeMessageStatus s p := rfl

theorem slotOperation_counter (op slot : Nat) (key : BitVec 512) (s : State) :
    (slotOperation op slot key s).otp.keyCounter = s.otp.keyCounter := by
  unfold slotOperation
  split <;> rfl

theorem otp_of_kept {s t : State} (h : kept t = kept s) : t.otp = s.otp := congrArg Kept.otp h

theorem applyKeyMessage_counter (origin : Nat) (p : List Byte) (s : State) :
    (applyKeyMessage origin p s).otp.keyCounter = fieldN p 20 4 := by
  unfold applyKeyMessage
  dsimp only
  split
  · rw [otp_of_kept (warnCounter_kept _), otp_of_kept (logKey_kept ..), slotOperation_counter]
    rfl
  · rw [otp_of_kept (warnCounter_kept _), otp_of_kept (logKey_kept ..), otp_of_kept (writeKeys_kept _),
      otp_of_kept (putKey_kept ..)]
    rfl

theorem warnCounter_same (s : State) : SameModule s (warnCounter s) := by
  unfold warnCounter
  split
  · exact eventAll_same ..
  · exact .refl s

/-- R340: an accepted message is applied, and answered on the state that it leaves. -/
theorem keyUpdate_accepted {s : State} {head : Request} {key sig : List Byte}
    (h : Admitted ⟨0x0B03, [clsN], false, fun n => 172 ≤ n && n ≤ 236⟩ (head.append (key ++ sig)) s)
    (hok : keyMessageStatus s (head.append (key ++ sig)).payload = St.ok) :
    let q := head.append (key ++ sig)
    let u := applyKeyMessage (portOrigin q.port) q.payload (admitted 0x0B03 q s)
    Completes (.keyUpdate head key sig) s (fun t =>
      SameModule u t ∧ t.otp.keyCounter = fieldN q.payload 20 4 ∧
        t.out.head? = some (.packet (packetOf u q.port q.cls 0x0B03 q.seq 1 St.ok []))) := by
  intro q u
  have hstatus : keyMessageStatus (admitted 0x0B03 q s) q.payload = St.ok := by
    rw [admitted_eq]
    exact hok
  refine ⟨_, congrArg Host.Outcome.next (host_completes h (by decide) (if_pos hstatus)), completeRequest_same .., ?_,
    completeRequest_out ..⟩
  rw [(completeRequest_same _ _ _ _ _ _ _ : SameModule u _)]
  exact applyKeyMessage_counter ..

theorem SameModule.of_log {s t : State} {origin sub code : Nat} {detail : List Byte} {legal : Bool}
    (h : SameModule (log origin sub code detail legal s) t) : SameModule { s with logs := t.logs } t := by
  rw [log_eq] at h
  rw [h.logs_eq]
  exact h

/-- The detail of entry 0x0B04. -/
def keyRefusal (p : List Byte) (st : Nat) : List Byte :=
  [byte (fieldN p 2 1), byte st, 0, 0] ++ leBytes 4 (fieldN p 20 4) ++ zeros 8

/-- R340: a refused message is logged and has no other effect. -/
theorem keyUpdate_refused {s : State} {head : Request} {key sig : List Byte}
    (h : Admitted ⟨0x0B03, [clsN], false, fun n => 172 ≤ n && n ≤ 236⟩ (head.append (key ++ sig)) s)
    (hbad : keyMessageStatus s (head.append (key ++ sig)).payload ≠ St.ok) :
    let q := head.append (key ++ sig)
    let st := keyMessageStatus s q.payload
    Completes (.keyUpdate head key sig) s (fun t =>
      Answers s q 0x0B03 st [] t ∧ SameModule { s with logs := t.logs } t ∧
         t.logs.general.head? = some (newEntry s (portOrigin q.port) 0x0B 0x0B04 (keyRefusal q.payload st))) := by
  intro q st
  obtain ⟨t, ht, hanswer, hsame⟩ := host_leads (c := .keyUpdate head key sig) (st := st) (pl := []) rfl (log_sender ..)
    (fun x => (if_neg hbad).trans
      (congrArg (refuse st) (log_withHost x (portOrigin q.port) 0x0B 0x0B04 (keyRefusal q.payload st) false s))) h
  refine ⟨t, ht, hanswer, hsame.of_log, ?_⟩
  rw [hsame.logs_eq]
  exact log_general_head ..

theorem lifeCycleChange_accepted {s : State} {head : Request} {sig : List Byte}
    (h : Admitted (opLen 0x0B05 [clsN] 92) (head.append sig) s)
    (hok : lifeMessageStatus s (head.append sig).payload = St.ok) :
    let q := head.append sig
    let p := q.payload
    let w := changeLifecycle (portOrigin q.port) 0 (fieldN p 2 1) (programCounter (fieldN p 20 4) (admitted 0x0B05 q s))
    Completes (.lifeCycleChange head sig) s (fun t => SameModule (warnCounter w) t ∧
      t.out.head? = some (.packet (packetOf w q.port q.cls 0x0B05 q.seq 1 St.ok [byte w.cis.lifecycle, 0, 0, 0]))) := by
  intro q p w
  have hstatus : lifeMessageStatus (admitted 0x0B05 q s) p = St.ok := by
    rw [admitted_eq]
    exact hok
  have hout := completeRequest_out q.port q.cls 0x0B05 q.seq St.ok [byte w.cis.lifecycle, 0, 0, 0] (warnCounter w)
  rw [packetOf_key (warnCounter_same w).sender] at hout
  exact ⟨_, congrArg Host.Outcome.next (host_completes h (by decide) (guarded_one hstatus)), completeRequest_same .., hout⟩

theorem lifeCycleChange_refused {s : State} {head : Request} {sig : List Byte}
    (h : Admitted (opLen 0x0B05 [clsN] 92) (head.append sig) s)
    (hbad : lifeMessageStatus s (head.append sig).payload ≠ St.ok) :
    Completes (.lifeCycleChange head sig) s (fun t =>
      Answers s (head.append sig) 0x0B05 (lifeMessageStatus s (head.append sig).payload) [] t ∧ SameModule s t) :=
  host_refuses (st := lifeMessageStatus s (head.append sig).payload) (c := .lifeCycleChange head sig) rfl
    (fun _ => guarded_head hbad) h

/-! ### TLS_KEY_GENERATE (R351) -/

theorem writeKeys_cis (s : State) : ∃ a b, (writeKeys s).cis = { s.cis with tailA := a, tailB := b } :=
  putKeyBlock_cis ..

theorem logKey_sender (origin cls op slot n : Nat) (key : Option (List Byte)) (s : State) :
    SameSender s (logKey origin cls op slot n key s) := log_sender ..

theorem length_openField (n : Nat) (s : State) : (openField n s).length = n := length_leBytes ..

theorem length_wordBytes (n : Nat) {w : Nat} (v : BitVec w) : (wordBytes n v).length = n := length_leBytes ..

/-- The refusals of TLS_KEY_GENERATE, in their order. -/
def tlsChecks (s : State) : List Nat :=
  [ need (s.cis.lifecycle == 1 || s.cis.lifecycle == 3) St.refusedState, need s.cis.migrating.isNone St.busy
  , need (!s.cis.trngFault) St.refusedState ]

theorem tlsChecks_state {s : State} (h : ¬(s.cis.lifecycle = 1 ∨ s.cis.lifecycle = 3)) :
    (tlsChecks s).find? (fun c => c != St.ok) = some St.refusedState := by
  have hneed : need (s.cis.lifecycle == 1 || s.cis.lifecycle == 3) St.refusedState = St.refusedState :=
    need_fails (by simpa using h) _
  rw [tlsChecks, hneed]
  rfl

theorem tlsChecks_busy {s : State} (h : s.cis.lifecycle = 1 ∨ s.cis.lifecycle = 3) (hmig : s.cis.migrating ≠ none) :
    (tlsChecks s).find? (fun c => c != St.ok) = some St.busy := by
  have hneed : need s.cis.migrating.isNone St.busy = St.busy := need_fails (by simpa using Option.isSome_iff_ne_none.mpr hmig) _
  rw [tlsChecks, need_of (by simpa using h), hneed]
  rfl

theorem tlsChecks_trng {s : State} (h : s.cis.lifecycle = 1 ∨ s.cis.lifecycle = 3) (hmig : s.cis.migrating = none)
    (htrng : s.cis.trngFault = true) : (tlsChecks s).find? (fun c => c != St.ok) = some St.refusedState := by
  rw [tlsChecks, need_of (by simpa using h), need_of (by simp [hmig]), htrng]
  rfl

theorem tlsKeyGenerate_refused {s : State} {r : Request} {st : Nat}
    (hstop : (tlsChecks s).find? (fun c => c != St.ok) = some st) :
    Admitted (opNone 0x0B04 [clsN]) r s → ∃ t, exec (.tlsKeyGenerate r) s = .next t ∧
      Answers s r 0x0B04 st [] t ∧ SameModule s t :=
  host_refuses rfl fun _ => guarded_stop hstop

/-- What TLS_KEY_GENERATE does once it is not refused. -/
def tlsGenerated (origin : Nat) (s : State) : State × Answer :=
  let k := Config.free256 s.freeCount
  let pub := wordBytes 64 (Config.publicKey k)
  let t := writeKeys (putKey 2 (some k) (draw s))
  let sig := t.cis.identity.elim (openField 64 t)
    (fun d => wordBytes 64 (Config.sign d (ascii "SGTK" ++ serialBytes t ++ pub) t.freeCount))
  reply (pub ++ sig) (logKey origin 2 1 0 t.otp.keyCounter (some (digestBytes k)) (draw t))

theorem exec_tlsKeyGenerate (r : Request) (s : State) : exec (.tlsKeyGenerate r) s =
    .next (hostRequest (opNone 0x0B04 [clsN]) r (fun s => guarded (tlsChecks s) (tlsGenerated (portOrigin r.port)) s) s) := rfl

theorem tlsGenerated_replies (origin : Nat) (s : State) :
    ∃ (k : BitVec 256) (sig : List Byte) (u : State),
      tlsGenerated origin s = (u, .now St.ok (wordBytes 64 (Config.publicKey k) ++ sig)) ∧ sig.length = 64 ∧
        u.cis.tls = some k ∧ u.cis.hostKey = s.cis.hostKey ∧ SameSender s u := by
  let k := Config.free256 s.freeCount
  let t := writeKeys (putKey 2 (some k) (draw s))
  obtain ⟨a, b, hstore⟩ : ∃ a b, t.cis = { s.cis with tls := some k, tailA := a, tailB := b } := writeKeys_cis _
  have hlogged : (logKey origin 2 1 0 t.otp.keyCounter (some (digestBytes k)) (draw t)).cis = t.cis := log_cis ..
  have hsender : SameSender s t := sameSender_of rfl rfl (by rw [hstore])
  have hlog := logKey_sender origin 2 1 0 t.otp.keyCounter (some (digestBytes k)) (draw t)
  refine ⟨k, _, _, rfl, ?_, ?_, ?_, hsender.trans hlog⟩
  · cases t.cis.identity with
    | none => exact length_openField 64 t
    | some d => exact length_wordBytes 64 _
  · rw [hlogged, hstore]
  · rw [hlogged, hstore]

theorem tlsKeyGenerate_generated {s : State} {r : Request} (hmay : s.cis.lifecycle = 1 ∨ s.cis.lifecycle = 3)
    (hmig : s.cis.migrating = none) (htrng : s.cis.trngFault = false) (h : Admitted (opNone 0x0B04 [clsN]) r s) :
    Completes (.tlsKeyGenerate r) s (fun t => ∃ (k : BitVec 256) (sig : List Byte),
      t.cis.tls = some k ∧ t.cis.hostKey = s.cis.hostKey ∧
        Answers s r 0x0B04 St.ok (wordBytes 64 (Config.publicKey k) ++ sig) t ∧ sig.length = 64) := by
  have hcis : (admitted 0x0B04 r s).cis = s.cis := by rw [admitted_eq]
  have hsender : SameSender s (admitted 0x0B04 r s) := (admitted_same 0x0B04 r s).sender
  have hstatus : ∀ c ∈ tlsChecks (admitted 0x0B04 r s), c = St.ok := by simp [tlsChecks, hcis, hmig, htrng, hmay, need]
  obtain ⟨k, sig, u, hact, hlength, htls, hhost, hu⟩ := tlsGenerated_replies (portOrigin r.port) (admitted 0x0B04 r s)
  obtain ⟨hanswer, hsame⟩ := host_now (op := opNone 0x0B04 [clsN])
    (act := fun s => guarded (tlsChecks s) (tlsGenerated (portOrigin r.port)) s) h ((guarded_pass hstatus).trans hact)
    (hsender.trans hu)
  refine ⟨_, exec_tlsKeyGenerate r s, k, sig, ?_, ?_, hanswer, hlength⟩
  · rw [hsame, htls]
  · rw [hsame, hhost, hcis]

/-- Settles O51. -/
theorem cisternCommands : Obligations.CisternCommands := by
  unfold Obligations.CisternCommands
  intro s r key sig ok test cls e
  refine ⟨fun h => trngTestFail_completes h test, fun h => trngRetest_completes h ok, fun h => ⟨?_, ?_, ?_⟩,
    fun h hqueue hcls => ?_, fun h hqueue => ?_, fun h => cisRequest_ignores (.inr h) cls, ?_, ?_, ?_, ?_, ?_, ?_⟩
  · exact congrArg Host.Outcome.next (if_neg (by simp [h]))
  · exact congrArg Host.Outcome.next (if_neg (by simp [h]))
  · exact cisRequest_ignores (.inl h) cls
  · exact ⟨_, (cisRequest_served h hqueue cls).trans (congrArg Host.Outcome.next (if_neg fun hsign => hcls hsign.1)), rfl⟩
  · have hexec := cisRequest_served h hqueue 1
    by_cases hgrants : grants s 1 = true
    · rw [if_pos ⟨rfl, hgrants⟩] at hexec
      exact ⟨_, hexec, (congrFun (if_pos hgrants) _).symm⟩
    · rw [if_neg fun hsign => hgrants hsign.2] at hexec
      exact ⟨_, hexec, (congrFun (if_neg hgrants : (if grants s 1 = true then signed else id) = id) _).symm⟩
  · intro op q p c st u h
    by_cases hok : st = St.ok
    · simp only [if_pos hok]
      exact keyUpdate_accepted h hok
    · simp only [if_neg hok]
      exact keyUpdate_refused h hok
  · intro op q p c st w h
    by_cases hok : st = St.ok
    · simp only [if_pos hok]
      exact lifeCycleChange_accepted h hok
    · simp only [if_neg hok]
      exact lifeCycleChange_refused h hok
  · exact fun hmay hmig htrng h => tlsKeyGenerate_generated hmay hmig htrng h
  · exact fun hmay => tlsKeyGenerate_refused (tlsChecks_state hmay)
  · exact fun hmay hmig => tlsKeyGenerate_refused (tlsChecks_busy hmay hmig)
  · exact fun hmay hmig htrng => tlsKeyGenerate_refused (tlsChecks_trng hmay hmig htrng)

end Sys2Proof.Machine

/-! # Resets: OTP does not always stay as it is (R335, R434, R477) -/

namespace Sys2Proof.Machine

/-- R335: the key store that is built in a retired module destroys the root secret. -/
theorem buildStore_rootDestroyed {s : State} (h : s.otp.retired = true) : (buildStore s).otp.rootDestroyed = true := by
  unfold buildStore
  exact congrArg (fun t : State => t.otp.rootDestroyed) (if_pos h)

theorem powerDown_otp (phase : Phase) (s : State) : (powerDown phase s).otp = s.otp :=
  (otp_of_kept (saveSystem_kept s) : (saveSystem s).otp = s.otp)

/-- The state from which ROM builds the key store in recovery. -/
def recoveryStart (fresh : Bool) (nominal : Nat) (s : State) : State :=
  if fresh then { powerDown .recovery s with sun := s.sun } else sundialStart nominal (powerDown .recovery s)

theorem recoveryStart_otp (fresh : Bool) (nominal : Nat) (s : State) : (recoveryStart fresh nominal s).otp = s.otp := by
  unfold recoveryStart
  split
  · exact powerDown_otp .recovery s
  · exact (otp_of_kept (sundialStart_kept ..)).trans (powerDown_otp _ s)

/-- The state in recovery before its entries. -/
def recoveryReady (fresh : Bool) (nominal : Nat) (s : State) : State :=
  setPower (fun p => { p with charged := s.power.charged, state := .run })
    (recoveryNetwork (buildStore (recoveryStart fresh nominal s)))

theorem enterRecovery_eq (fresh : Bool) (why nominal : Nat) (s : State) :
    enterRecovery fresh why nominal s =
      updateLog 0 0x0E08 0 (byte why :: zeros 15) (startEntry 8 s.power.retention (recoveryReady fresh nominal s)) := rfl

theorem enterRecovery_otp (fresh : Bool) (why nominal : Nat) (s : State) :
    (enterRecovery fresh why nominal s).otp = (buildStore (recoveryStart fresh nominal s)).otp := by
  rw [enterRecovery_eq, otp_of_kept (updateLog_kept ..), otp_of_kept (startEntry_kept ..), recoveryReady, setPower_otp,
    otp_of_kept (recoveryNetwork_kept _)]

/-- A module that boots, with the fuse of retirement programmed and the root secret not destroyed. -/
def retiredBoot : State := { State.reset with power.phase := .booting, otp.retired := true }

/-- A start in which every check passes. -/
def passingStart : StartInput :=
  { groups := [0, 0, 0, 0, 0, 0], coreA := true, coreB := true, romOk := true, hedgeOk := true, blockOk := true
    imagesOk := true, otpErrors := [], rootOk := true, badRegs := [], badTariffs := [], duration := 0, peak := 0 }

/-- Refutes O25: its clause on ROM recovery (as the one on warm resets) says that OTP stays, of every state. ROM builds the key
store again, and in a retired module that destroys the root secret, here for the first time. -/
theorem not_resetCommands : ¬ Obligations.ResetCommands := by
  unfold Obligations.ResetCommands
  intro ⟨_, h⟩
  obtain ⟨_, _, _, _, _, _, _, _, _, _, _, hstrap, _⟩ := h retiredBoot passingStart ⟨.e0, 0, 0, 0, 0, 0, 0, [], 0, 0, 0⟩
  obtain ⟨t, ht, _, hotp⟩ := hstrap rfl
  obtain rfl : enterRecovery false 1 (nominalFreq retiredBoot) retiredBoot = t := Host.Outcome.next.inj ht
  rw [enterRecovery_otp] at hotp
  have hdestroyed : (buildStore (recoveryStart false (nominalFreq retiredBoot) retiredBoot)).otp.rootDestroyed = true :=
    buildStore_rootDestroyed (by rw [recoveryStart_otp]; rfl)
  rw [hotp] at hdestroyed
  exact absurd hdestroyed (by decide)

end Sys2Proof.Machine

/-! # The start: brown-out, the lock wait, the hold-up storage and the start test (R418, R466, R475, R476, R488) -/

namespace Sys2Proof.Machine

/-! ### What a start leaves alone -/

/-- The parts of the state by which the steps of a start are told apart: power, the boot ledger, the trial and the time. -/
def startCore (s : State) : Power × List Nat × BitVec 5 × Nat := (s.power, s.update.ledger, s.update.trial, s.clockMs)

theorem startCore_of_calm {s t : State} (h : calm t = calm s) : startCore t = startCore s :=
  congrArg (fun c : Calm => (c.power, c.update.ledger, c.update.trial, c.clockMs)) h

theorem log_startCore (origin sub code : Nat) (detail : List Byte) (legal : Bool) (s : State) :
    startCore (log origin sub code detail legal s) = startCore s := startCore_of_calm (by simp)

theorem setOtp_startCore (f : Otp → Otp) (s : State) : startCore (setOtp f s) = startCore s := rfl
theorem setCis_startCore (f : Cistern → Cistern) (s : State) : startCore (setCis f s) = startCore s := rfl

theorem pairEffect_startCore (off bit pair : Nat) (s : State) : startCore (pairEffect off bit pair s).1 = startCore s := by
  simp only [pairEffect, apply_ite Prod.fst, apply_ite startCore, setOtp_startCore, setCis_startCore, ite_self]

theorem pairError_startCore (s : State) (e : Nat × Nat × Nat) : startCore (pairError s e) = startCore s :=
  (log_startCore ..).trans (pairEffect_startCore ..)

theorem retire_startCore (s : State) : startCore (retire s) = startCore s := rfl
theorem draw_startCore (s : State) : startCore (draw s) = startCore s := rfl
theorem dropKeys_startCore (s : State) : startCore (dropKeys s) = startCore s := rfl
theorem holdTap_startCore (s : State) : startCore (holdTap s) = startCore s := holdTap_keeps startCore (fun _ _ => rfl) s

theorem buildStore_startCore (s : State) : startCore (buildStore s) = startCore s := by
  simp only [buildStore, apply_ite startCore, retire_startCore, startCore_of_calm (deriveMetrology_calm _),
    startCore_of_calm (loadBlobs_calm _), setCis_startCore, holdTap_startCore, draw_startCore, dropKeys_startCore, ite_self]

theorem startCistern_startCore (i : StartInput) (s : State) : startCore (startCistern i s) = startCore s := by
  unfold startCistern
  rw [buildStore_startCore, startCore_of_calm (generateRoot_calm ..), foldl_keeps startCore _ pairError_startCore,
    startCore_of_calm (measureImages_calm _)]
  rfl

theorem setReader_startCore (p : Fin 2) (f : Reader → Reader) (s : State) : startCore (setReader p f s) = startCore s := by
  unfold setReader
  split <;> rfl

/-- The readers of the ports that are enabled begin. -/
theorem startReaders_startCore (f : Reader → Reader) (s : State) :
    startCore ([0, 1].foldl (fun (u : State) (p : Fin 2) => if portEnabled u p then setReader p f u else u) s) = startCore s :=
  foldl_keeps startCore _ (fun u p => by
    split
    · exact setReader_startCore ..
    · rfl) _ _

theorem wiredWrite_startCore (k : Nat) (data : List Byte) (s : State) : startCore (wiredWrite k data s) = startCore s := rfl

theorem commandGens_startCore (g : Generator) (s : State) :
    startCore (forOutlets (fun o u => commandGen o g u) s) = startCore s :=
  startCore_of_calm (forOutlets_calm _ _ fun o t => commandGen_calm o g t)

theorem startMclk_startCore (s : State) : startCore (startMclk s) = startCore s := rfl

theorem startEngines_startCore (i : StartInput) (s : State) : startCore (startEngines i s) = startCore s := by
  simp only [startEngines, wiredWrite_startCore, startReaders_startCore, commandGens_startCore, apply_ite startCore,
    startCore_of_calm (startChannels_calm _), startCore_of_calm (tripModule_calm ..), startCore_of_calm (takeBlock_calm ..),
    startMclk_startCore, ite_self]
  rfl

theorem setDisp_startCore (f : Display → Display) (s : State) : startCore (setDisp f s) = startCore s := rfl

theorem loadStress_startCore (s : State) : startCore (loadStress s) = startCore s := by
  unfold loadStress
  split
  · exact setDisp_startCore ..
  · exact (log_startCore ..).trans (setDisp_startCore ..)

theorem restoreAll_startCore (i : StartInput) (s : State) : startCore (restoreAll i s) = startCore s := by
  simp only [restoreAll, writeLane, displayStart, setDisp_startCore, loadStress_startCore, apply_ite startCore, draw_startCore,
    log_startCore, startCore_of_calm (restoreAccounts_calm _), startCore_of_calm (restoreBilling_calm ..),
    startCore_of_calm (reloadEnergy_calm _), startCore_of_calm (restoreEnergy_calm ..), ite_self]

theorem wadiListen_startCore (keep : Bool) (s : State) : startCore (wadiListen keep s) = startCore s := rfl

/-! ### The start entry (R487, R488) -/

theorem buttonAtStart_power (s : State) : ∃ b, (buttonAtStart s).power = { s.power with stuck := b } := by
  unfold buttonAtStart
  split
  · exact ⟨true, by rw [draw_power, log_power, setPower_power]⟩
  · exact ⟨s.power.stuck, rfl⟩

theorem buttonAtStart_ledger (s : State) : (buttonAtStart s).update.ledger = s.update.ledger := by
  unfold buttonAtStart
  split
  · rw [draw_update, log_update]; rfl
  · rfl

theorem startEntry_ledger (cause : Nat) (valid : Bool) (s : State) :
    (startEntry cause valid s).update.ledger = s.update.ledger := by
  unfold startEntry
  dsimp only
  rw [buttonAtStart_ledger, setPower_update, log_update]

theorem startEntry_power (cause : Nat) (valid : Bool) (s : State) :
    ∃ b, (startEntry cause valid s).power = { s.power with
      cause := cause, retentionAtStart := valid, startMs := s.clockMs, startUtc := utcNow s, lowest24 := s.power.v24
      stuck := b } := by
  unfold startEntry
  dsimp only
  obtain ⟨b, hb⟩ := buttonAtStart_power _
  exact ⟨b, hb.trans (by rw [setPower_power, log_power])⟩

theorem buttonAtStart_disp (s : State) : (buttonAtStart s).disp = s.disp := by
  unfold buttonAtStart
  split
  · rw [draw_disp, log_disp, setPower_disp]
  · rfl

theorem startEntry_disp (cause : Nat) (valid : Bool) (s : State) : (startEntry cause valid s).disp = s.disp := by
  unfold startEntry
  dsimp only
  rw [buttonAtStart_disp, setPower_disp, log_disp]

theorem restoreAll_disp (i : StartInput) (s : State) : (restoreAll i s).disp.state = .starting := by
  unfold restoreAll writeLane displayStart
  rfl

/-! ### The boot (R418, R475) -/

/-- The state of a cold boot before its start entry. -/
def coldStarted (i : StartInput) (s : State) : State :=
  let t := restoreAll i (startEngines i (chooseDomain (readImage (startCistern i (bootSlots s)))))
  wadiListen false { t with trellis := { t.trellis with listening := memberMask t != 0 } }

theorem coldStarted_startCore (i : StartInput) (s : State) : startCore (coldStarted i s) = startCore s := by
  refine (wadiListen_startCore ..).trans ?_
  show startCore (restoreAll i _) = _
  rw [restoreAll_startCore, startEngines_startCore, startCore_of_calm (chooseDomain_calm _),
    startCore_of_calm (readImage_calm _), startCistern_startCore]
  rfl

theorem coldStarted_disp (i : StartInput) (s : State) : (coldStarted i s).disp.state = .starting :=
  restoreAll_disp i (startEngines i (chooseDomain (readImage (startCistern i (bootSlots s)))))

theorem coldBoot_good {i : StartInput} (h : i.imagesOk = true) (s : State) :
    coldBoot i s = settle (setPower (fun p => { p with retention := true })
      (startEntry s.power.cause s.power.retention (setPower (fun p => { p with phase := .booting }) (coldStarted i s)))) := by
  simp only [coldBoot, coldStarted, h, Bool.not_true, Bool.false_eq_true, if_false]

theorem power_of_calm {s t : State} (h : calm t = calm s) : t.power = s.power := congrArg Calm.power h
theorem update_of_calm {s t : State} (h : calm t = calm s) : t.update = s.update := congrArg Calm.update h
theorem disp_of_calm {s t : State} (h : calm t = calm s) : t.disp = s.disp := congrArg Calm.disp h

theorem coldBoot_started {i : StartInput} (h : i.imagesOk = true) (s : State) :
    let t := coldBoot i s
    t.update.ledger = s.update.ledger ∧ t.power.phase = .booting ∧ t.power.retention = true ∧
      t.power.retentionAtStart = s.power.retention ∧ t.power.startMs = s.clockMs ∧ t.disp.state = .starting := by
  obtain ⟨hpower, hrest⟩ := Prod.mk.inj (coldStarted_startCore i s)
  obtain ⟨hledger, htrial⟩ := Prod.mk.inj hrest
  have hclock := (Prod.mk.inj htrial).2
  have hsettled (u : State) : (settle u).update = u.update ∧ (settle u).power = u.power ∧ (settle u).disp = u.disp :=
    ⟨update_of_calm (settle_calm u), power_of_calm (settle_calm u), disp_of_calm (settle_calm u)⟩
  intro t
  obtain ⟨hu, hp, hd⟩ := hsettled (setPower (fun p => { p with retention := true })
    (startEntry s.power.cause s.power.retention (setPower (fun p => { p with phase := .booting }) (coldStarted i s))))
  rw [← coldBoot_good h] at hu hp hd
  obtain ⟨b, hb⟩ := startEntry_power s.power.cause s.power.retention
    (setPower (fun p => { p with phase := .booting }) (coldStarted i s))
  rw [setPower_power, hb] at hp
  rw [setPower_disp, startEntry_disp, setPower_disp] at hd
  refine ⟨?_, ?_, ?_, ?_, ?_, ?_⟩
  · rw [hu, setPower_update, startEntry_ledger]
    exact hledger
  · rw [hp]; rfl
  · rw [hp]
  · rw [hp]
  · rw [hp]; exact hclock
  · rw [hd]; exact coldStarted_disp i s

/-! ### What ROM decides (R417, R418) -/

theorem ledgerStart_ledger (s : State) :
    (ledgerStart s).update.ledger =
      0x0F :: (if s.update.ledger.length < 1024 then s.update.ledger else s.update.ledger.take 2) := by
  unfold ledgerStart
  split
  · rfl
  · rfl

theorem ledgerStart_trial (s : State) : (ledgerStart s).update.trial = s.update.trial := by
  unfold ledgerStart
  split
  · rfl
  · rfl

theorem ledgerStart_power (s : State) : (ledgerStart s).power = s.power ∧ (ledgerStart s).clockMs = s.clockMs := by
  unfold ledgerStart
  split
  · exact ⟨rfl, rfl⟩
  · exact ⟨rfl, rfl⟩

theorem takeWhile_length_lt_two {l : List Nat} {x : Nat} (h : l.take 2 ≠ [x, x]) :
    (l.takeWhile (fun e => e == x)).length < 2 := by
  match l with
  | [] => simp
  | [a] => by_cases ha : a = x <;> simp [ha]
  | a :: b :: l =>
    by_cases ha : a = x
    · have hb : b ≠ x := fun hb => h (by simp [ha, hb])
      simp [ha, hb]
    · simp [ha]

/-- Two boots that were only started are two failed boots. -/
theorem failedBoots_ledgerStart {s : State} (h : s.update.ledger.take 2 ≠ [0x0F, 0x0F]) : failedBoots (ledgerStart s) < 2 := by
  rw [failedBoots, ledgerStart_ledger, List.drop_succ_cons, List.drop_zero]
  refine takeWhile_length_lt_two ?_
  split
  · exact h
  · rwa [List.take_take, Nat.min_self]

theorem romBoot_boots {s : State} (fresh : Bool) (nominal : Nat) (boot : State → State)
    (h : s.update.ledger.take 2 ≠ [0x0F, 0x0F]) (htrial : s.update.trial = 0) :
    romBoot fresh nominal boot s = boot (ledgerStart s) := by
  unfold romBoot
  dsimp only
  rw [if_neg (by simp [ledgerStart_trial, htrial]), if_neg (Nat.not_le.mpr (failedBoots_ledgerStart h))]

end Sys2Proof.Machine

/-! # The start test, and what follows it (R418, R434, R466, R475) -/

namespace Sys2Proof.Machine

/-! ### The start test (R466, R467, R475) -/

/-- A result that was not given counts as not run. -/
theorem getD_append_replicate (l : List Nat) (n d x : Nat) : (l ++ List.replicate n x).getD d x = l.getD d x := by
  by_cases h : d < l.length
  · rw [List.getD_append _ _ _ _ h]
  · have hle := Nat.not_lt.mp h
    rw [List.getD_append_right _ _ _ _ hle, List.getD_eq_default _ _ hle]
    by_cases hn : d - l.length < n
    · rw [List.getD_replicate _ hn]
    · rw [List.getD_eq_default _ _ (by simpa using Nat.not_lt.mp hn)]

/-- The six results of the long start test. -/
def testResults (i : StartInput) : List Nat := i.groups ++ List.replicate (6 - i.groups.length) 3

/-- Whether the start test fails domain 0 or domain 1: in the short form by its core check, in the long one by its group. -/
def testFails (i : StartInput) (s : State) (d : Nat) : Bool :=
  if signatureUsable s then (if d = 0 then !i.coreA else !i.coreB) else i.groups.getD d 3 != 0

/-- The state in which the start test has run: Sundial runs, and the long form has noted and logged its results. -/
def startTestRun (i : StartInput) (s : State) : State :=
  let t := logEarlierRun (sundialStart (nominalFreq (readConfiguration s)) s)
  if signatureUsable s then t
  else
    logRake (leBytes 2 i.duration) (leBytes 2 i.peak)
      (setRake (fun k => { k with permitOk := (((testResults i).take 6).drop 2).all (fun x => x == 0) })
        (noteResults 3 ((testResults i).take 6) t))

/-- The state from which ROM goes on: the failures of the test stand against the domains. -/
def startMarked (i : StartInput) (s : State) : State :=
  failDomain 1 (testFails i s 1) (failDomain 0 (testFails i s 0) (startTestRun i s))

theorem startTested_eq (i : StartInput) (s : State) :
    startTested i s =
      if (testFails i s 0 && testFails i s 1) || (signatureUsable s && !i.romOk) then
        setPower (fun p => { p with phase := .heldReset }) (startTestRun i s)
      else
        let t := startMarked i s
        if t.power.recover || t.power.cause == 8 then
          enterRecovery true (if t.power.recover then 1 else if t.power.byButton then 2 else Config.freeNat t.freeCount)
            (nominalFreq (readConfiguration s)) (draw (ledgerStart t))
        else romBoot true (nominalFreq (readConfiguration s)) (coldBoot i) t := by
  unfold startTested startMarked testFails startTestRun testResults
  dsimp only
  rw [getD_append_replicate, getD_append_replicate]
  by_cases h : signatureUsable s = true
  · simp only [h, if_true]
    rfl
  · simp only [h, Bool.false_eq_true, if_false]

theorem sundialStart_startCore (nominal : Nat) (s : State) : startCore (sundialStart nominal s) = startCore s := log_startCore ..

theorem logRake_startCore (duration peak : List Byte) (s : State) : startCore (logRake duration peak s) = startCore s :=
  log_startCore ..

theorem logEarlierRun_startCore (s : State) : startCore (logEarlierRun s) = startCore s := by
  unfold logEarlierRun
  split
  · exact logRake_startCore ..
  · rfl

theorem startTestRun_startCore (i : StartInput) (s : State) : startCore (startTestRun i s) = startCore s := by
  have hrun := (logEarlierRun_startCore _).trans (sundialStart_startCore (nominalFreq (readConfiguration s)) s)
  unfold startTestRun
  dsimp only
  split
  · exact hrun
  · exact (logRake_startCore ..).trans hrun

theorem startMarked_startCore (i : StartInput) (s : State) : startCore (startMarked i s) = startCore s :=
  (startCore_of_calm ((failDomain_calm ..).trans (failDomain_calm ..))).trans (startTestRun_startCore i s)

theorem startTestRun_power (i : StartInput) (s : State) : (startTestRun i s).power = s.power :=
  congrArg Prod.fst (startTestRun_startCore i s)

theorem sundialStart_rake (nominal : Nat) (s : State) : (sundialStart nominal s).rake = s.rake := log_rake ..

theorem logEarlierRun_lastKind (s : State) : (logEarlierRun s).rake.lastKind = s.rake.lastKind := by
  unfold logEarlierRun
  split
  · show (logRake _ _ s).rake.lastKind = _
    exact congrArg Rake.lastKind (log_rake ..)
  · rfl

theorem startTestRun_lastKind (i : StartInput) (s : State) :
    (startTestRun i s).rake.lastKind = if signatureUsable s then s.rake.lastKind else 3 := by
  unfold startTestRun
  dsimp only
  split
  · rw [logEarlierRun_lastKind, sundialStart_rake]
  · exact congrArg Rake.lastKind (log_rake ..)

theorem startMarked_trial (i : StartInput) (s : State) : (startMarked i s).update.trial = s.update.trial :=
  congrArg (fun c => c.2.2.1) (startMarked_startCore i s)

/-- The test leaves no domain to start: the module stays in reset. -/
theorem startTested_held {i : StartInput} {s : State}
    (h : testFails i s 0 = true ∧ testFails i s 1 = true ∨ signatureUsable s = true ∧ i.romOk = false) :
    startTested i s = setPower (fun p => { p with phase := .heldReset }) (startTestRun i s) := by
  rw [startTested_eq, if_pos]
  obtain ⟨h0, h1⟩ | ⟨hshort, hrom⟩ := h
  · rw [h0, h1]; rfl
  · rw [hshort, hrom]; exact Bool.or_true _

theorem startTested_passed {i : StartInput} {s : State} (hdomain : testFails i s 0 = false ∨ testFails i s 1 = false)
    (hrom : signatureUsable s = true → i.romOk = true) :
    startTested i s =
      let t := startMarked i s
      if t.power.recover || t.power.cause == 8 then
        enterRecovery true (if t.power.recover then 1 else if t.power.byButton then 2 else Config.freeNat t.freeCount)
          (nominalFreq (readConfiguration s)) (draw (ledgerStart t))
      else romBoot true (nominalFreq (readConfiguration s)) (coldBoot i) t := by
  have hboth : (testFails i s 0 && testFails i s 1) = false := by
    obtain h | h := hdomain <;> simp [h]
  have hshort : (signatureUsable s && !i.romOk) = false := by
    cases h : signatureUsable s with
    | false => rfl
    | true => simp [hrom h]
  rw [startTested_eq, hboth, hshort]
  exact if_neg (by decide)

theorem startMarked_power (i : StartInput) (s : State) : (startMarked i s).power = s.power :=
  congrArg Prod.fst (startMarked_startCore i s)

theorem startMarked_ledger (i : StartInput) (s : State) : (startMarked i s).update.ledger = s.update.ledger :=
  congrArg (fun c => c.2.1) (startMarked_startCore i s)

theorem startMarked_clockMs (i : StartInput) (s : State) : (startMarked i s).clockMs = s.clockMs :=
  congrArg (fun c => c.2.2.2) (startMarked_startCore i s)

/-- The images boot, or wait for the boot timeout. -/
theorem startTested_boots {i : StartInput} {s : State} (hdomain : testFails i s 0 = false ∨ testFails i s 1 = false)
    (hrom : signatureUsable s = true → i.romOk = true) (hrecover : s.power.recover = false) (hcause : s.power.cause ≠ 8)
    (hledger : s.update.ledger.take 2 ≠ [0x0F, 0x0F]) (htrial : s.update.trial = 0) :
    startTested i s = coldBoot i (ledgerStart (startMarked i s)) := by
  rw [startTested_passed hdomain hrom]
  dsimp only
  rw [startMarked_power, hrecover, if_neg (by simpa using hcause),
    romBoot_boots _ _ _ (by rwa [startMarked_ledger]) (by rwa [startMarked_trial])]

theorem recoveryNetwork_power (s : State) : (recoveryNetwork s).power = s.power := power_of_calm (recoveryNetwork_calm s)

theorem buildStore_power (s : State) : (buildStore s).power = s.power := congrArg Prod.fst (buildStore_startCore s)

theorem recoveryStart_phase (fresh : Bool) (nominal : Nat) (s : State) :
    (recoveryStart fresh nominal s).power.phase = .recovery := by
  unfold recoveryStart
  split
  · rfl
  · exact congrArg (fun c => c.1.phase) (sundialStart_startCore nominal (powerDown .recovery s))

theorem enterRecovery_power (fresh : Bool) (why nominal : Nat) (s : State) :
    (enterRecovery fresh why nominal s).power.phase = .recovery ∧
      (enterRecovery fresh why nominal s).power.charged = s.power.charged := by
  obtain ⟨b, hb⟩ := startEntry_power 8 s.power.retention (recoveryReady fresh nominal s)
  rw [enterRecovery_eq, power_of_calm (updateLog_calm ..), hb, recoveryReady, setPower_power, recoveryNetwork_power,
    buildStore_power]
  exact ⟨recoveryStart_phase fresh nominal s, rfl⟩

theorem startTested_recovers {i : StartInput} {s : State} (hdomain : testFails i s 0 = false ∨ testFails i s 1 = false)
    (hrom : signatureUsable s = true → i.romOk = true) (h : s.power.recover = true ∨ s.power.cause = 8) :
    (startTested i s).power.phase = .recovery ∧ (startTested i s).power.charged = s.power.charged := by
  have hgoes : ((startMarked i s).power.recover || (startMarked i s).power.cause == 8) = true := by
    rw [startMarked_power]
    obtain h | h := h <;> simp [h]
  rw [startTested_passed hdomain hrom]
  dsimp only
  rw [if_pos hgoes]
  obtain ⟨hphase, hcharged⟩ := enterRecovery_power true
    (if (startMarked i s).power.recover then 1
      else if (startMarked i s).power.byButton then 2 else Config.freeNat (startMarked i s).freeCount)
    (nominalFreq (readConfiguration s)) (draw (ledgerStart (startMarked i s)))
  refine ⟨hphase, hcharged.trans ?_⟩
  rw [draw_power, (ledgerStart_power _).1, startMarked_power]

/-! ### The statement -/

/-- The state in which the hold-up storage is charged. -/
def holdupFull (s : State) : State := setPower (fun p => { p with charged := true }) s

theorem holdupCharged_tests {i : StartInput} {s : State}
    (h : (s.power.phase = .charging ∨ s.power.phase = .pllWait) ∧ s.power.state = .run) :
    exec (.holdupCharged i) s = .next (startTested i (holdupFull s)) := congrArg Host.Outcome.next (if_pos h)

theorem testFails_short {i : StartInput} {s : State} (h : signatureUsable s = true) (d : Nat) :
    testFails i s d = if d = 0 then !i.coreA else !i.coreB := if_pos h

theorem testFails_long {i : StartInput} {s : State} (h : signatureUsable s = false) (d : Nat) :
    testFails i s d = (i.groups.getD d 3 != 0) := if_neg (ne_true_of_eq_false h)

theorem testFails_passed {i : StartInput} {s : State}
    (h : (signatureUsable s = true ∧ i.romOk = true ∧ (i.coreA = true ∨ i.coreB = true)) ∨
      (signatureUsable s = false ∧ (i.groups.getD 0 3 = 0 ∨ i.groups.getD 1 3 = 0))) :
    (testFails i s 0 = false ∨ testFails i s 1 = false) ∧ (signatureUsable s = true → i.romOk = true) := by
  obtain ⟨hshort, hrom, hcore⟩ | ⟨hlong, hgroup⟩ := h
  · exact ⟨hcore.imp (fun hA => by simp [testFails_short hshort, hA]) (fun hB => by simp [testFails_short hshort, hB]),
      fun _ => hrom⟩
  · exact ⟨hgroup.imp (fun h0 => by rw [testFails_long hlong, h0]; rfl) (fun h1 => by rw [testFails_long hlong, h1]; rfl),
      fun hshort => absurd hshort (by simp [hlong])⟩

theorem startTested_held_phase {i : StartInput} {s : State}
    (h : testFails i s 0 = true ∧ testFails i s 1 = true ∨ signatureUsable s = true ∧ i.romOk = false) :
    (startTested i s).power = { s.power with phase := .heldReset } ∧
      (startTested i s).rake.lastKind = if signatureUsable s then s.rake.lastKind else 3 := by
  rw [startTested_held h, setPower_power, startTestRun_power, setPower_rake, startTestRun_lastKind]
  exact ⟨rfl, rfl⟩

/-- R475: with images that pass, the module boots and takes the start's facts; else it waits for the boot timeout. -/
theorem startTested_images {i : StartInput} {s : State} (hboots : startTested i s = coldBoot i (ledgerStart (startMarked i s))) :
    let t := startTested i s
    t.update.ledger.head? = some 0x0F ∧ (i.imagesOk = false → t.power.phase = .bootFailed) ∧
      (i.imagesOk = true → t.power.phase = .booting ∧ t.power.retention = true ∧
        t.power.retentionAtStart = s.power.retention ∧ t.power.startMs = s.clockMs ∧ t.disp.state = .starting) := by
  intro t
  have ht : t = coldBoot i (ledgerStart (startMarked i s)) := hboots
  cases himages : i.imagesOk with
  | false =>
    have hfailed : t = setPower (fun p => { p with phase := .bootFailed }) (ledgerStart (startMarked i s)) :=
      ht.trans (if_pos (by simp [himages]))
    rw [hfailed, setPower_update, ledgerStart_ledger]
    exact ⟨rfl, fun _ => rfl, fun h => by cases h⟩
  | true =>
    obtain ⟨hledger, hphase, hvalid, hatStart, hstart, hdisp⟩ := coldBoot_started himages (ledgerStart (startMarked i s))
    rw [ht, hledger, ledgerStart_ledger]
    refine ⟨rfl, (fun h => by cases h), fun _ => ⟨hphase, hvalid, ?_, ?_, hdisp⟩⟩
    · rw [hatStart, (ledgerStart_power _).1, startMarked_power]
    · rw [hstart, (ledgerStart_power _).2, startMarked_clockMs]

/-- Settles O24. -/
theorem startCommands : Obligations.StartCommands := by
  unfold Obligations.StartCommands
  intro s i v
  refine ⟨fun h => ⟨_, congrArg Host.Outcome.next (if_pos h), rfl⟩, fun h => ⟨_, congrArg Host.Outcome.next (if_pos h), rfl⟩,
    fun hhold hup htail => ⟨_, congrArg Host.Outcome.next (if_pos ⟨hhold, hup, htail⟩), rfl⟩, fun h => ⟨?_, ?_⟩, fun h => ?_,
    fun h => ⟨_, congrArg Host.Outcome.next (if_pos h), rfl⟩, fun h => congrArg Host.Outcome.next (if_neg h),
    fun hphase hcharged => ⟨_, congrArg Host.Outcome.next (if_pos ⟨hphase, hcharged⟩), log_power .., log_general_head ..⟩,
    fun h => ?_, fun h => congrArg Host.Outcome.next (if_neg h), fun hready hshort hrom => ?_,
    fun hready hshort hA hB => ?_, fun hready hlong hA hB => ?_, fun hready hpassed hrecover hcause hledger htrial => ?_,
    fun hready hshort hrom hA hgoes => ?_⟩
  · exact congrArg Host.Outcome.next (if_neg (by simp [h]))
  · exact congrArg Host.Outcome.next (if_neg (by simp [h]))
  · refine congrArg Host.Outcome.next (if_neg fun ⟨hhold, hup, htail⟩ => ?_)
    obtain h | h | h := h
    · exact h hhold
    · simp [hup] at h
    · simp [htail] at h
  · refine congrArg Host.Outcome.next (if_neg fun ⟨hphase, hcharged⟩ => ?_)
    obtain h | h := h
    · exact h hphase
    · simp [hcharged] at h
  · obtain ⟨hpower, hkind⟩ := startTested_held_phase (i := i) (s := holdupFull s) (.inr ⟨hshort, hrom⟩)
    exact ⟨_, holdupCharged_tests hready, by rw [hpower], by rw [hpower]; rfl, hkind.trans (if_pos hshort)⟩
  · obtain ⟨hpower, -⟩ := startTested_held_phase (i := i) (s := holdupFull s) (.inl
      ⟨(testFails_short hshort 0).trans (by simp [hA]), (testFails_short hshort 1).trans (by simp [hB])⟩)
    exact ⟨_, holdupCharged_tests hready, congrArg Power.phase hpower⟩
  · obtain ⟨hpower, hkind⟩ := startTested_held_phase (i := i) (s := holdupFull s) (.inl
      ⟨(testFails_long hlong 0).trans (by simpa using hA), (testFails_long hlong 1).trans (by simpa using hB)⟩)
    exact ⟨_, holdupCharged_tests hready, by rw [hpower], hkind.trans (if_neg (ne_true_of_eq_false hlong))⟩
  · obtain ⟨hdomain, hrom⟩ := testFails_passed (s := holdupFull s) hpassed
    exact ⟨_, holdupCharged_tests hready,
      startTested_images (startTested_boots hdomain hrom hrecover hcause hledger htrial)⟩
  · obtain ⟨hdomain, -⟩ := testFails_passed (i := i) (s := holdupFull s) (.inl ⟨hshort, hrom, .inl hA⟩)
    obtain ⟨hphase, hcharged⟩ := startTested_recovers (s := holdupFull s) hdomain (fun _ => hrom) hgoes
    exact ⟨_, holdupCharged_tests hready, hphase, hcharged.trans rfl⟩

end Sys2Proof.Machine

/-! # IDLE, the reset button, and the opcodes for reset and shutdown (R473, R478, R479, R484, R487) -/

namespace Sys2Proof.Machine

/-! ### IDLE (R473) -/

theorem logPower_eq (old new : PowerState) (s : State) :
    logPower old new s = { s with logs := (logPower old new s).logs, dom := (logPower old new s).dom } := log_eq ..

theorem idleEntry_enters {s : State} (h : s.power.state = .run ∧ s.power.phase = .running ∧ idleConditions s = true) :
    Completes .idleEntry s (fun t =>
      t = { s with power := { s.power with state := .idle }, logs := t.logs, dom := t.dom } ∧
      t.logs.general.head? = some (newEntry s 0 0x11 0x1102 ([0, 1, 0, 0] ++ leBytes 4 s.power.v24 ++ zeros 8))) :=
  ⟨_, congrArg Host.Outcome.next (if_pos h), logPower_eq .., log_general_head ..⟩

theorem idleExit_leaves {s : State} (h : s.power.state = .idle ∧ idleConditions s = false) :
    Completes .idleExit s (fun t =>
      t = { s with power := { s.power with state := .run }, logs := t.logs, dom := t.dom }) :=
  ⟨_, congrArg Host.Outcome.next (if_pos h), logPower_eq ..⟩

/-! ### The button (R484) -/

/-- The state in which the button is let go. -/
def buttonReleased (s : State) : State := { s with power := { s.power with pressed := false, stuck := false } }

theorem resetButtonRelease_takes {s : State} (held : Nat) (hpressed : s.power.pressed = true) (hstuck : s.power.stuck = false)
    (hlive : buttonDead s = false) :
    exec (.resetButtonRelease held) s = .next (releaseEffect held (buttonReleased s)) :=
  congrArg Host.Outcome.next ((if_neg (by simp [hpressed])).trans (if_neg (by simp [hstuck, hlive])))

theorem phase_ne_recovery_of_up {s : State} (h : up s = true) : s.power.phase ≠ .recovery := by
  intro hr
  simp [up, hr] at h

/-- What a release does in a started module that takes the button into account. -/
theorem releaseEffect_up {s : State} {held : Nat} (hup : up s = true) (hmode : buttonMode s ≠ 3) :
    releaseEffect held s =
      if held < 2000 then (if buttonMode s = 1 then askByButton false s else s)
      else if held < 5000 then logButton held 0 s
      else if held ≤ 10000 then askByButton true s
      else if held < 30000 then logButton held 0 s
      else s :=
  (if_neg (phase_ne_recovery_of_up hup)).trans (if_neg (by simp [hup, hmode]))

theorem askByButton_asks {s : State} (recovery : Bool) (h : resetPending s = false) :
    askByButton recovery s = endSessions { s with power := { s.power with orderly := some (recovery, true) } } :=
  if_neg (ne_true_of_eq_false h)

theorem askByButton_pending {s : State} (recovery : Bool) (h : resetPending s = true) : askByButton recovery s = s := if_pos h

theorem logButton_eq (held action : Nat) (s : State) :
    logButton held action s = { s with logs := (logButton held action s).logs, dom := (logButton held action s).dom } :=
  log_eq ..

theorem logButton_head (held : Nat) (s : State) :
    (logButton held 0 (buttonReleased s)).logs.general.head? = some (newEntry s 0 0x11 0x1103 (leBytes 4 held ++ zeros 12)) :=
  log_general_head ..

/-! ### The opcodes for reset and shutdown (R478, R487) -/

/-- The checks of opcode 0x1102, and of opcode 0x1103. -/
def resetChecks (p : List Byte) (s : State) : List Nat :=
  [need (fieldN p 0 1 ≤ 1) St.range, reservedOk p 1 3, need (!resetPending s) St.busy]
def shutdownChecks (p : List Byte) (s : State) : List Nat :=
  [ need (fieldN p 0 1 ≤ 1) St.range, reservedOk p 1 3, need (!resetPending s) St.busy
  , need (fieldN p 0 1 = 1 ∨ allSess s (fun x => !x.running)) St.refusedState ]

/-- A reset is asked for, and a shutdown. -/
def resetAsked (p : List Byte) (s : State) : State := setPower (fun x => { x with orderly := some (fieldN p 0 1 == 1, false) }) s
def shutdownAsked (s : State) : State := setPower (fun x => { x with shutting := true, expired := false }) s

/-- The host link's part of RESET, and of SHUTDOWN. -/
def resetTaken (r : Request) (s : State) : State :=
  hostRequest (opLen 0x1102 [clsN] 4) r
    (fun s => guarded (resetChecks r.payload s) (fun s => done (resetAsked r.payload s)) s) s
def shutdownTaken (r : Request) (s : State) : State :=
  hostRequest (opLen 0x1103 [clsN] 4) r (fun s => guarded (shutdownChecks r.payload s) (fun s => done (shutdownAsked s)) s) s

theorem exec_reset (r : Request) (s : State) : exec (.reset r) s =
    .next (if s.power.orderly.isNone && (resetTaken r s).power.orderly.isSome then endSessions (resetTaken r s)
      else resetTaken r s) := rfl

theorem exec_shutdown (r : Request) (s : State) : exec (.shutdown r) s =
    .next (if !s.power.shutting && (shutdownTaken r s).power.shutting then endSessions (shutdownTaken r s)
      else shutdownTaken r s) := rfl

theorem SameModule.power_eq {s t : State} (h : SameModule s t) : t.power = s.power := by rw [h]

theorem resetPending_false {s : State} (h : resetPending s = false) : s.power.orderly = none ∧ s.power.shutting = false := by
  simpa [resetPending] using h

/-- What the host link does with an admitted request whose action does the same beside every host link. -/
theorem host_takes {op : OpSpec} {r : Request} {s u : State} {act : State → State × Answer} {st : Nat} {pl : List Byte}
    (hk : SameSender s u) (ha : ∀ x : HostLink, act (withHost x s) = (withHost x u, .now st pl)) (h : Admitted op r s) :
    Answers s r op.code st pl (hostRequest op r act s) ∧ SameModule u (hostRequest op r act s) := by
  have hact : act (admitted op.code r s) = (withHost (admitted op.code r s).host u, .now st pl) := by
    rw [admitted_eq]
    exact ha _
  obtain ⟨hanswer, hsame⟩ := host_now h hact (hk.trans (withHost_same _ u).sender)
  exact ⟨hanswer, (withHost_same _ u).trans hsame⟩

theorem setPower_sender {f : Power → Power} {s : State} (h : (f s.power).phase = s.power.phase) :
    SameSender s (setPower f s) := by
  refine ⟨?_, fun p => by cases p <;> rfl⟩
  simp only [hostKeyOf, setPower_power, setPower_cis, h]

theorem reset_takes {s : State} {r : Request} (hkind : fieldN r.payload 0 1 ≤ 1) (hres : fieldN r.payload 1 3 = 0)
    (hfree : resetPending s = false) (h : Admitted (opLen 0x1102 [clsN] 4) r s) :
    Answers s r 0x1102 St.ok [] (resetTaken r s) ∧ SameModule (resetAsked r.payload s) (resetTaken r s) := by
  have hchecks (x : HostLink) : ∀ c ∈ resetChecks r.payload (withHost x s), c = St.ok := by
    have hfree' : resetPending (withHost x s) = false := hfree
    simp [resetChecks, need_of, reservedOk_of, hkind, hres, hfree']
  exact host_takes (setPower_sender rfl) (fun x => guarded_pass (hchecks x)) h

/-- R478: the response goes out, and then the sessions end. -/
theorem reset_asks {s : State} {r : Request} (hkind : fieldN r.payload 0 1 ≤ 1) (hres : fieldN r.payload 1 3 = 0)
    (hfree : resetPending s = false) (h : Admitted (opLen 0x1102 [clsN] 4) r s) :
    ∃ t, exec (.reset r) s = .next t ∧ ∃ v, Answers s r 0x1102 St.ok [] v ∧ SameModule (resetAsked r.payload s) v ∧
      t = endSessions v := by
  obtain ⟨hanswer, hsame⟩ := reset_takes hkind hres hfree h
  have hnow : (s.power.orderly.isNone && (resetTaken r s).power.orderly.isSome) = true := by
    rw [hsame.power_eq, (resetPending_false hfree).1]
    rfl
  exact ⟨_, (exec_reset r s).trans (congrArg Host.Outcome.next (if_pos hnow)), _, hanswer, hsame, rfl⟩

theorem reset_busy {s : State} {r : Request} (hkind : fieldN r.payload 0 1 ≤ 1) (hres : fieldN r.payload 1 3 = 0)
    (hpending : resetPending s = true) (h : Admitted (opLen 0x1102 [clsN] 4) r s) :
    ∃ t, exec (.reset r) s = .next t ∧ Answers s r 0x1102 St.busy [] t ∧ SameModule s t := by
  have hstop (x : HostLink) : (resetChecks r.payload (withHost x s)).find? (fun c => c != St.ok) = some St.busy := by
    have hpending' : resetPending (withHost x s) = true := hpending
    rw [resetChecks, need_of (by simpa using hkind), reservedOk_of hres, hpending']
    rfl
  obtain ⟨hanswer, hsame⟩ : Answers s r 0x1102 St.busy [] (resetTaken r s) ∧ SameModule s (resetTaken r s) :=
    host_takes (sameSender_of rfl rfl rfl) (fun x => guarded_stop (hstop x)) h
  have hnow : (s.power.orderly.isNone && (resetTaken r s).power.orderly.isSome) = false := by
    rw [hsame.power_eq]
    cases s.power.orderly <;> rfl
  exact ⟨_, (exec_reset r s).trans (congrArg Host.Outcome.next (if_neg (ne_true_of_eq_false hnow))), hanswer, hsame⟩

theorem shutdown_asks {s : State} {r : Request} (hkind : fieldN r.payload 0 1 ≤ 1) (hres : fieldN r.payload 1 3 = 0)
    (hfree : resetPending s = false) (hmay : fieldN r.payload 0 1 = 1 ∨ allSess s (fun x => !x.running) = true)
    (h : Admitted (opLen 0x1103 [clsN] 4) r s) :
    ∃ t, exec (.shutdown r) s = .next t ∧ ∃ v, Answers s r 0x1103 St.ok [] v ∧ SameModule (shutdownAsked s) v ∧
      t = endSessions v := by
  have hchecks (x : HostLink) : ∀ c ∈ shutdownChecks r.payload (withHost x s), c = St.ok := by
    have hfree' : resetPending (withHost x s) = false := hfree
    have hmay' : fieldN r.payload 0 1 = 1 ∨ allSess (withHost x s) (fun x => !x.running) = true := hmay
    simp [shutdownChecks, need_of, reservedOk_of, hkind, hres, hfree', hmay']
  obtain ⟨hanswer, hsame⟩ :
      Answers s r 0x1103 St.ok [] (shutdownTaken r s) ∧ SameModule (shutdownAsked s) (shutdownTaken r s) :=
    host_takes (setPower_sender rfl) (fun x => guarded_pass (hchecks x)) h
  have hnow : (!s.power.shutting && (shutdownTaken r s).power.shutting) = true := by
    rw [hsame.power_eq, (resetPending_false hfree).2]
    rfl
  exact ⟨_, (exec_shutdown r s).trans (congrArg Host.Outcome.next (if_pos hnow)), _, hanswer, hsame, rfl⟩

theorem shutdown_refused {s : State} {r : Request} {st : Nat}
    (hstop : ∀ x, (shutdownChecks r.payload (withHost x s)).find? (fun c => c != St.ok) = some st)
    (h : Admitted (opLen 0x1103 [clsN] 4) r s) :
    ∃ t, exec (.shutdown r) s = .next t ∧ Answers s r 0x1103 st [] t ∧ SameModule s t := by
  obtain ⟨hanswer, hsame⟩ : Answers s r 0x1103 st [] (shutdownTaken r s) ∧ SameModule s (shutdownTaken r s) :=
    host_takes (sameSender_of rfl rfl rfl) (fun x => guarded_stop (hstop x)) h
  have hnow : (!s.power.shutting && (shutdownTaken r s).power.shutting) = false := by
    rw [hsame.power_eq]
    cases s.power.shutting <;> rfl
  exact ⟨_, (exec_shutdown r s).trans (congrArg Host.Outcome.next (if_neg (ne_true_of_eq_false hnow))), hanswer, hsame⟩

theorem shutdownChecks_running {p : List Byte} {s : State} (hkind : fieldN p 0 1 = 0) (hres : fieldN p 1 3 = 0)
    (hfree : resetPending s = false) (hrun : allSess s (fun x => !x.running) = false) :
    (shutdownChecks p s).find? (fun c => c != St.ok) = some St.refusedState := by
  have hrefused : need (fieldN p 0 1 = 1 ∨ allSess s (fun x => !x.running)) St.refusedState = St.refusedState :=
    need_fails (by rw [hkind, hrun]; rfl) _
  rw [shutdownChecks, need_of (by simp [hkind]), reservedOk_of hres, hfree, hrefused]
  rfl

theorem shutdownChecks_pending {p : List Byte} {s : State} (hkind : fieldN p 0 1 ≤ 1) (hres : fieldN p 1 3 = 0)
    (hpending : resetPending s = true) : (shutdownChecks p s).find? (fun c => c != St.ok) = some St.busy := by
  rw [shutdownChecks, need_of (by simpa using hkind), reservedOk_of hres, hpending]
  rfl

/-! ### The shutdown (R479) -/

/-- The module at the end of a shutdown, before its power goes. -/
def shutDownReady (w : WindowInput) (last : Fin 256) (k : RakeOutcome) (s : State) : State :=
  let t := snapshotAll (partialCommit w last (dialAtLeast (last.val * 256) s))
  let t := displayStop (saveStress k.saveOk (writeAccountStore t))
  setRake (fun x => { x with unlogged := true, measured := some (k.duration, k.peak) })
    (noteResults 0 ((k.groups ++ List.replicate (6 - k.groups.length) 3).take 6) t)

theorem shutDown_eq (w : WindowInput) (last : Fin 256) (k : RakeOutcome) (s : State) :
    shutDown w last k s = powerDown .shutDown (shutDownReady w last k s) := rfl

theorem shutDownReady_otp (w : WindowInput) (last : Fin 256) (k : RakeOutcome) (s : State) :
    (shutDownReady w last k s).otp = s.otp := otp_of_kept (by simp [shutDownReady])

/-- A window's commit touches neither the power state nor the Rake. -/
def powerAndRake (s : State) : Power × Rake := (s.power, s.rake)

theorem powerAndRake_of_calm {s t : State} (h : calm t = calm s) : powerAndRake t = powerAndRake s :=
  congrArg (fun c : Calm => (c.power, c.rake)) h

theorem powerAndRake_log (origin sub code : Nat) (detail : List Byte) (legal : Bool) (s : State) :
    powerAndRake (log origin sub code detail legal s) = powerAndRake s := powerAndRake_of_calm (log_calm ..)

theorem residueStep_powerAndRake (e : Nat) (r : ResidueOutcome) (s : State) :
    powerAndRake (residueStep e r s) = powerAndRake s := by
  unfold residueStep
  cases r with
  | pass => rfl
  | corrected => exact powerAndRake_log ..
  | failed =>
    by_cases hheld : (if e = 0 then s.acq.held0 else s.acq.held1) = true
    · rw [if_pos hheld]
    · rw [if_neg hheld]
      exact powerAndRake_log ..
  | unreadable => exact (powerAndRake_log ..).trans (powerAndRake_log ..)

theorem windowJudged_powerAndRake (w : WindowInput) (s : State) : powerAndRake (windowJudged w s) = powerAndRake s := by
  refine (foldl_keeps powerAndRake _ (fun u m => powerAndRake_of_calm (markCorrupt_calm m u)) _ _).trans ?_
  exact (residueStep_powerAndRake ..).trans (residueStep_powerAndRake ..)

theorem windowTaken_powerAndRake (partialKind : Bool) (ps : List WinPos) (w : WindowInput) (s : State) :
    powerAndRake (windowTaken partialKind ps w s) = powerAndRake s := by
  have htaken (l : List (Nat × RegWindow)) (incs : List Int) :
      powerAndRake (commitPulses incs (l.foldl commitRegister s)) = powerAndRake s :=
    (powerAndRake_of_calm (commitPulses_calm ..)).trans
      (foldl_keeps powerAndRake _ (fun u x => powerAndRake_of_calm (commitRegister_calm u x)) l s)
  unfold windowTaken
  dsimp only
  split
  · exact htaken _ _
  · exact (powerAndRake_of_calm (applyRestores_calm _)).trans (htaken _ _)

theorem commitWindow_powerAndRake (partialKind : Bool) (angle : Nat) (ps : List WinPos) (w : WindowInput) (s : State) :
    powerAndRake (commitWindow partialKind angle ps w s).1 = powerAndRake s := by
  obtain h | ⟨-, changes, h⟩ := commitWindow_cases partialKind angle ps w s
  · rw [h]
    exact windowJudged_powerAndRake w s
  · rw [h]
    exact ((powerAndRake_of_calm (writeCommit_calm ..)).trans (windowTaken_powerAndRake ..)).trans (windowJudged_powerAndRake w s)

theorem energyPartial_powerAndRake (w : WindowInput) (last : Nat) (s : State) :
    powerAndRake (energyPartial w last s).1 = powerAndRake s := by
  rw [energyPartial_eq]
  exact (powerAndRake_of_calm (reloadEnergy_calm _)).trans (commitWindow_powerAndRake ..)

theorem partialCommit_powerAndRake (w : WindowInput) (last : Fin 256) (s : State) :
    powerAndRake (partialCommit w last s) = powerAndRake s := by
  rw [partialCommit_eq]
  cases (energyPartial w last.val s).2 with
  | none => exact energyPartial_powerAndRake ..
  | some changes => exact (powerAndRake_of_calm (billWindow_calm true changes _)).trans (energyPartial_powerAndRake ..)

theorem partialCommit_power (w : WindowInput) (last : Fin 256) (s : State) : (partialCommit w last s).power = s.power :=
  congrArg Prod.fst (partialCommit_powerAndRake w last s)

theorem partialCommit_rake (w : WindowInput) (last : Fin 256) (s : State) : (partialCommit w last s).rake = s.rake :=
  congrArg Prod.snd (partialCommit_powerAndRake w last s)

theorem dialAtLeast_power (angle : Nat) (s : State) : (dialAtLeast angle s).power = s.power := by
  unfold dialAtLeast
  split
  · exact reachAngle_keeps (·.power) (fun _ _ => rfl) (fun _ _ => rfl) angle s
  · rfl

theorem saveStress_power (ok : Bool) (s : State) : (saveStress ok s).power = s.power := by
  unfold saveStress
  dsimp only
  split
  · rfl
  · exact log_power ..

theorem shutDownReady_power (w : WindowInput) (last : Fin 256) (k : RakeOutcome) (s : State) :
    (shutDownReady w last k s).power = s.power := by
  show (saveStress k.saveOk (writeAccountStore (snapshotAll (partialCommit w last (dialAtLeast (last.val * 256) s))))).power = _
  rw [saveStress_power, power_of_calm (writeAccountStore_calm _), power_of_calm (snapshotAll_calm _), partialCommit_power,
    dialAtLeast_power]

theorem powerDown_rake (phase : Phase) (s : State) :
    (powerDown phase s).rake =
      { s.rake with tap := .init, left := [], results := [], repeated := false, permitOk := true } := by
  unfold powerDown
  rw [saveSystem_eq]

theorem saveSystem_state (s : State) : (saveSystem s).power.state = s.power.state := by
  unfold saveSystem
  dsimp only
  split
  · rfl
  · rw [setPower_power]
    split
    · rfl
    · rfl

theorem powerDown_state (phase : Phase) (s : State) : (powerDown phase s).power.state = s.power.state := saveSystem_state s

theorem saveSystem_pressed (s : State) : (saveSystem s).power.pressed = s.power.pressed := by
  unfold saveSystem
  dsimp only
  split
  · rfl
  · rw [setPower_power]
    split
    · rfl
    · rfl

theorem powerDown_pressed (phase : Phase) (s : State) : (powerDown phase s).power.pressed = s.power.pressed :=
  saveSystem_pressed s

/-- R479: a shutdown leaves the module without drive, with its outlets in S0 and its displays dark. -/
theorem shutdownSequence_runs {s : State} (w : WindowInput) (last : Fin 256) (k : RakeOutcome)
    (h : (domainRuns s && s.power.shutting && (sessionsEnded s || s.power.expired)) = true) :
    Completes (.shutdownSequence w last k) s (fun t =>
      t.power.phase = .shutDown ∧ t.power.state = s.power.state ∧ t.power.shutting = false ∧
        t.disp.dispEn = false ∧ t.rake.lastKind = 0 ∧ t.rake.unlogged = true ∧ t.otp = s.otp ∧
        (∀ o : Outlet, (sessOf t o).state = .s0 ∧ (sessOf t o).drive = false)) := by
  refine ⟨_, (congrArg Host.Outcome.next (if_pos h)).trans (congrArg Host.Outcome.next (shutDown_eq w last k s)), rfl,
    ?_, rfl, rfl, ?_, ?_, ?_, sessOf_reset⟩
  · rw [powerDown_state, shutDownReady_power]
  · rw [powerDown_rake]; rfl
  · rw [powerDown_rake]; rfl
  · rw [powerDown_otp, shutDownReady_otp]

/-- Settles O26. -/
theorem shutdownCommands : Obligations.ShutdownCommands := by
  unfold Obligations.ShutdownCommands
  intro s r held w last k
  refine ⟨fun hrun hphase hidle => idleEntry_enters ⟨hrun, hphase, hidle⟩, fun h => ?_,
    fun hidle hcond => idleExit_leaves ⟨hidle, hcond⟩, fun h => ?_, fun h => congrArg Host.Outcome.next (if_pos h),
    fun hlive hphase => ?_, fun hlive hphase => ?_, fun h => congrArg Host.Outcome.next (if_pos h), ?_,
    fun hawake hpressed hstuck =>
      ⟨_, congrArg Host.Outcome.next (if_pos ⟨hawake, hpressed, hstuck⟩), logButton_eq ..⟩, fun h => ?_, ?_, ?_,
    fun hdomain hshut hended => shutdownSequence_runs w last k ?_, fun h => ?_⟩
  · refine congrArg Host.Outcome.next (if_neg fun ⟨hrun, hphase, hidle⟩ => ?_)
    obtain h | h | h := h
    · exact h hrun
    · exact h hphase
    · simp [hidle] at h
  · refine congrArg Host.Outcome.next (if_neg fun ⟨hidle, hcond⟩ => ?_)
    obtain h | h := h
    · exact h hidle
    · simp [hcond] at h
  · exact ⟨_, congrArg Host.Outcome.next ((if_neg (ne_true_of_eq_false hlive)).trans (if_neg hphase)), rfl⟩
  · exact ⟨_, congrArg Host.Outcome.next ((if_neg (ne_true_of_eq_false hlive)).trans (if_pos hphase)),
      rfl, rfl, rfl, powerDown_pressed .charging _⟩
  · intro t0 hpressed
    refine ⟨fun h => ⟨_, congrArg Host.Outcome.next ((if_neg (by simp [hpressed])).trans (if_pos (by simpa using h))), rfl⟩,
      fun hstuck hlive hup hmode => ?_⟩
    have hexec := resetButtonRelease_takes held hpressed hstuck hlive
    rw [releaseEffect_up (s := buttonReleased s) hup hmode] at hexec
    refine ⟨fun hshort hmode1 => ⟨_, hexec, ?_⟩, fun hshort hmode1 hfree => ⟨_, hexec, ?_⟩,
      fun hlo hhi hfree => ⟨_, hexec, ?_⟩, fun hother => ?_, fun hhi hlo hpending => ⟨_, hexec, ?_⟩⟩
    · exact (if_pos hshort).trans (if_neg hmode1)
    · exact ((if_pos hshort).trans (if_pos hmode1)).trans (askByButton_asks false hfree)
    · rw [if_neg (by omega), if_neg (by omega), if_pos hhi]
      exact askByButton_asks true hfree
    · obtain ⟨hlo, hhi⟩ | ⟨hlo, hhi⟩ := hother
      · rw [if_neg (by omega), if_pos hhi] at hexec
        exact ⟨_, hexec, logButton_eq .., logButton_head ..⟩
      · rw [if_neg (by omega), if_neg (by omega), if_neg (by omega), if_pos hhi] at hexec
        exact ⟨_, hexec, logButton_eq .., logButton_head ..⟩
    · rw [if_neg (by omega), if_neg (by omega), if_pos hhi]
      exact askByButton_pending true hpending
  · refine congrArg Host.Outcome.next (if_neg fun ⟨hawake, hpressed, hstuck⟩ => ?_)
    obtain h | h | h := h
    · simp [h] at hawake
    · simp [h] at hpressed
    · simp [h] at hstuck
  · exact fun hkind hres => ⟨fun hfree => reset_asks hkind hres hfree, fun hpending => reset_busy hkind hres hpending⟩
  · exact fun hkind hres => ⟨fun hfree hmay => shutdown_asks hkind hres hfree hmay,
      fun hfree hzero hrun => shutdown_refused fun _ => shutdownChecks_running hzero hres hfree hrun,
      fun hpending => shutdown_refused fun _ => shutdownChecks_pending hkind hres hpending⟩
  · simpa [hdomain, hshut] using hended
  · exact congrArg Host.Outcome.next (if_neg (by obtain h | h := h <;> simp [h]))

end Sys2Proof.Machine

/-! # The reader ports (R439 to R443) -/

namespace Sys2Proof.Machine

/-! ### A change of one port -/

theorem otherPort_ne (p : Fin 2) : otherPort p ≠ p := by
  revert p; decide

theorem otherPort_otherPort (p : Fin 2) : otherPort (otherPort p) = p := by
  revert p; decide

theorem readerOf_setReader (p : Fin 2) (f : Reader → Reader) (s : State) : readerOf (setReader p f s) p = f (readerOf s p) := by
  unfold readerOf setReader
  split <;> rfl

theorem readerOf_setReader_other {p p' : Fin 2} (f : Reader → Reader) (s : State) (h : p' ≠ p) :
    readerOf (setReader p f s) p' = readerOf s p' := by
  have hiff : p' = 0 ↔ p ≠ 0 := by omega
  unfold readerOf setReader
  by_cases hp : p = 0 <;> simp [hp, hiff]

theorem setReader_setReader (p : Fin 2) (f g : Reader → Reader) (s : State) :
    setReader p f (setReader p g s) = setReader p (fun x => f (g x)) s := by
  unfold setReader
  split <;> rfl

theorem setReader_congr {p : Fin 2} {f g : Reader → Reader} {s : State} (h : f (readerOf s p) = g (readerOf s p)) :
    setReader p f s = setReader p g s := by
  unfold readerOf at h
  unfold setReader
  split <;> simp_all

theorem setReader_sess (p : Fin 2) (f : Reader → Reader) (s : State) : (setReader p f s).sess = s.sess := by
  unfold setReader
  split <;> rfl

theorem setReader_logs (p : Fin 2) (f : Reader → Reader) (s : State) : (setReader p f s).logs = s.logs := by
  unfold setReader
  split <;> rfl

theorem setReader_cfg (p : Fin 2) (f : Reader → Reader) (s : State) : (setReader p f s).cfg = s.cfg := by
  unfold setReader
  split <;> rfl

theorem setReader_clockMs (p : Fin 2) (f : Reader → Reader) (s : State) : (setReader p f s).clockMs = s.clockMs := by
  unfold setReader
  split <;> rfl

theorem cfgN_setReader (p : Fin 2) (f : Reader → Reader) (s : State) (group elem off n dflt : Nat) :
    cfgN (setReader p f s) group elem off n dflt = cfgN s group elem off n dflt := by
  unfold cfgN inForce
  rw [setReader_cfg]

theorem readerOf_of_calm {s t : State} (p : Fin 2) (h : calm t = calm s) : readerOf t p = readerOf s p := by
  unfold readerOf
  rw [show t.reader0 = s.reader0 from congrArg Calm.reader0 h, show t.reader1 = s.reader1 from congrArg Calm.reader1 h]

/-! ### Raising and lowering the field (R443) -/

theorem raiseField_waits {p : Fin 2} {s : State} (h : cfgN s 0x0F01 0 3 1 0 = 1 ∧ 2 ≤ (readerOf s (otherPort p)).state) :
    raiseField p s = setReader p (fun r => { r with run := 0, waiting := true }) s :=
  if_pos ⟨h.1, decide_eq_true h.2⟩

theorem raiseField_polls {p : Fin 2} {s : State} (h : ¬(cfgN s 0x0F01 0 3 1 0 = 1 ∧ 2 ≤ (readerOf s (otherPort p)).state)) :
    raiseField p s = setReader p (fun r => { r with run := 0, waiting := false, state := 2 }) s :=
  if_neg fun hc => h ⟨hc.1, of_decide_eq_true hc.2⟩

theorem lowerField_alone {p : Fin 2} {s : State} (h : (readerOf s (otherPort p)).waiting = false) :
    lowerField p s = setReader p (fun r => { r with state := 1, run := 0 }) s := by
  have hother := readerOf_setReader_other (fun r => { r with state := 1, run := 0 }) s (otherPort_ne p)
  exact if_neg (by rw [hother, h]; decide)

/-- The port that waited has its turn: the port that held it back is at the low field now. -/
theorem lowerField_passes {p : Fin 2} {s : State} (h : (readerOf s (otherPort p)).waiting = true) :
    lowerField p s = setReader (otherPort p) (fun r => { r with run := 0, waiting := false, state := 2 })
      (setReader p (fun r => { r with state := 1, run := 0 }) s) := by
  have hother := readerOf_setReader_other (fun r => { r with state := 1, run := 0 }) s (otherPort_ne p)
  refine (if_pos (hother ▸ h)).trans (raiseField_polls ?_)
  rw [otherPort_otherPort, readerOf_setReader]
  exact fun hc => absurd (show 2 ≤ 1 from hc.2) (by decide)

theorem readerOf_lowerField (p : Fin 2) (s : State) :
    readerOf (lowerField p s) p = { readerOf s p with state := 1, run := 0 } := by
  cases h : (readerOf s (otherPort p)).waiting with
  | false => rw [lowerField_alone h, readerOf_setReader]
  | true => rw [lowerField_passes h, readerOf_setReader_other _ _ (otherPort_ne p).symm, readerOf_setReader]

theorem lowerField_sess (p : Fin 2) (s : State) : (lowerField p s).sess = s.sess := by
  cases h : (readerOf s (otherPort p)).waiting with
  | false => rw [lowerField_alone h, setReader_sess]
  | true => rw [lowerField_passes h, setReader_sess, setReader_sess]

/-! ### ANTENNA_SENSE (R439) -/

/-- FLD serves the port. -/
def portServed (s : State) (p : Fin 2) : Prop := awake s = true ∧ portEnabled s p = true

theorem served_iff {s : State} {p : Fin 2} : (fieldRuns s && portEnabled s p) = true ↔ portServed s p := Bool.and_eq_true_iff

theorem not_served {s : State} {p : Fin 2} (h : portServed s p) : ¬ (!(fieldRuns s && portEnabled s p)) = true := by
  simp [served_iff.mpr h]

theorem exec_antennaSense {s : State} {q : Fin 2} (load : Int) (h : portServed s q) :
    exec (.antennaSense q load) s = .next (
      if 2 ≤ (readerOf s q).state ∨ (readerOf s q).waiting = true then setReader q (fun x => { x with load := load }) s
      else if deviates s (readerOf s q).baseline load then
        if (readerOf s q).run + 1 = 3 then
          raiseField q (setReader q (fun x => { x with state := 1, load := load, run := x.run + 1 }) s)
        else setReader q (fun x => { x with state := 1, load := load, run := x.run + 1 }) s
      else draw (setReader q (fun x => { x with
        state := 1, load := load, run := 0, baseline := averaged s (readerOf s q).baseline load }) s)) :=
  congrArg Host.Outcome.next (if_neg (not_served h))

theorem averaged_between (s : State) (base load : Int) :
    min base load ≤ averaged s base load ∧ averaged s base load ≤ max base load := by
  unfold averaged clamp
  omega

/-- The port measures and is not at full field, and does not wait for it. -/
theorem antennaSense_low {s : State} {q : Fin 2} (load : Int) (hon : portServed s q) (hlow : (readerOf s q).state < 2)
    (hwait : (readerOf s q).waiting = false) :
    exec (.antennaSense q load) s = .next (
      if deviates s (readerOf s q).baseline load then
        if (readerOf s q).run + 1 = 3 then
          raiseField q (setReader q (fun x => { x with state := 1, load := load, run := x.run + 1 }) s)
        else setReader q (fun x => { x with state := 1, load := load, run := x.run + 1 }) s
      else draw (setReader q (fun x => { x with
        state := 1, load := load, run := 0, baseline := averaged s (readerOf s q).baseline load }) s)) := by
  rw [exec_antennaSense load hon, if_neg]
  rintro (hc | hc)
  · omega
  · simp [hwait] at hc

theorem antennaSense_quiet {s : State} {q : Fin 2} {load : Int} (hon : portServed s q) (hlow : (readerOf s q).state < 2)
    (hwait : (readerOf s q).waiting = false) (hdev : deviates s (readerOf s q).baseline load = false) :
    Completes (.antennaSense q load) s (fun t =>
      let z := readerOf t q
      z = { readerOf s q with state := 1, load := load, run := 0, baseline := z.baseline } ∧
      min (readerOf s q).baseline load ≤ z.baseline ∧ z.baseline ≤ max (readerOf s q).baseline load ∧
      readerOf t (otherPort q) = readerOf s (otherPort q) ∧ t.sess = s.sess) := by
  obtain ⟨hmin, hmax⟩ := averaged_between s (readerOf s q).baseline load
  refine ⟨_, (antennaSense_low load hon hlow hwait).trans (congrArg Host.Outcome.next (if_neg (ne_true_of_eq_false hdev))), ?_⟩
  dsimp only
  rw [readerOf_of_calm q (draw_calm _), readerOf_of_calm (otherPort q) (draw_calm _), readerOf_setReader,
    readerOf_setReader_other _ _ (otherPort_ne q)]
  exact ⟨rfl, hmin, hmax, rfl, setReader_sess ..⟩

theorem antennaSense_deviates {s : State} {q : Fin 2} {load : Int} (hon : portServed s q) (hlow : (readerOf s q).state < 2)
    (hwait : (readerOf s q).waiting = false) (hdev : deviates s (readerOf s q).baseline load = true) :
    ((readerOf s q).run ≠ 2 → Completes (.antennaSense q load) s (fun t =>
      t = setReader q (fun z => { z with state := 1, load := load, run := (readerOf s q).run + 1 }) s)) ∧
    ((readerOf s q).run = 2 → (cfgN s 0x0F01 0 3 1 0 = 1 ∧ 2 ≤ (readerOf s (otherPort q)).state) →
      Completes (.antennaSense q load) s (fun t =>
        t = setReader q (fun z => { z with state := 1, load := load, run := 0, waiting := true }) s)) ∧
    ((readerOf s q).run = 2 → ¬(cfgN s 0x0F01 0 3 1 0 = 1 ∧ 2 ≤ (readerOf s (otherPort q)).state) →
      Completes (.antennaSense q load) s (fun t =>
        t = setReader q (fun z => { z with state := 2, load := load, run := 0 }) s)) := by
  have hexec := (antennaSense_low load hon hlow hwait).trans (congrArg Host.Outcome.next (if_pos hdev))
  have hother (f : Reader → Reader) := readerOf_setReader_other f s (otherPort_ne q)
  refine ⟨fun hrun => ?_, fun hrun hheld => ?_, fun hrun hfree => ?_⟩
  · exact ⟨_, hexec.trans (congrArg Host.Outcome.next (if_neg (by omega))), setReader_congr rfl⟩
  · refine ⟨_, hexec.trans (congrArg Host.Outcome.next (if_pos (by omega))), ?_⟩
    rw [raiseField_waits (by rwa [cfgN_setReader, hother]), setReader_setReader]
  · refine ⟨_, hexec.trans (congrArg Host.Outcome.next (if_pos (by omega))), ?_⟩
    rw [raiseField_polls (by rwa [cfgN_setReader, hother]), setReader_setReader]
    exact setReader_congr (by simp only [hwait])

/-! ### One card (R441) -/

/-- A card that was delivered is not again: it is present, and it was not removed. -/
theorem mayDeliver_of_present {s : State} {p : Fin 2} {ident : List Byte} {rest : List Delivered}
    (h : (readerOf s p).cards = ⟨ident, none⟩ :: rest) : mayDeliver s p ident = false := by
  unfold mayDeliver
  rw [h]
  simp

/-- The state in which a card's identifier is handed to the session. -/
def delivered (p : Fin 2) (std : Nat) (ident : List Byte) (s : State) : State :=
  setReader p (fun r => { r with
    delivered := r.delivered + 1
    cards := ⟨ident, none⟩ :: r.cards.filter (fun c => c.ident != ident) })
    (setReader p (fun r => { r with state := 4, std }) s)

theorem readerOf_delivered (p : Fin 2) (std : Nat) (ident : List Byte) (s : State) :
    readerOf (delivered p std ident s) p = { readerOf s p with
      state := 4, std, delivered := (readerOf s p).delivered + 1
      cards := ⟨ident, none⟩ :: (readerOf s p).cards.filter (fun c => c.ident != ident) } := by
  unfold delivered
  rw [readerOf_setReader, readerOf_setReader]

theorem oneCard_delivers {p : Fin 2} {ident : List Byte} {s : State} (std : Nat) (h : mayDeliver s p ident = true) :
    oneCard p std ident s = cardRead p.val ident (delivered p std ident s) := if_pos h

theorem oneCard_keeps_quiet {p : Fin 2} {ident : List Byte} {s : State} (std : Nat) (h : mayDeliver s p ident = false) :
    oneCard p std ident s = setReader p (fun r => { r with state := 4, std }) s := if_neg (ne_true_of_eq_false h)

/-! ### A poll (R440, R441) -/

theorem poll_none (p : Fin 2) (s : State) : poll p [(0, .none), (1, .none), (2, .none)] s = (s, false) := by
  simp only [poll, ite_self]

theorem poll_first_one {p : Fin 2} {ident : List Byte} {s : State} (rest : List (Nat × PollResult))
    (hstd : (portStandards s p).testBit 0 = true) (h : randomUid 0 ident = false) :
    poll p ((0, .one ident) :: rest) s = (oneCard p 0 ident s, true) := by
  simp [poll, hstd, h]

theorem poll_first_several {p : Fin 2} {s : State} (rest : List (Nat × PollResult))
    (hstd : (portStandards s p).testBit 0 = true) :
    poll p ((0, .several) :: rest) s =
      (setReader p (fun r => { r with state := 4, std := 0 }) (cardNotDelivered p 2 0 [] s), true) := by
  simp [poll, hstd]

theorem cardNotDelivered_head (p : Fin 2) (cause std : Nat) (s : State) :
    (cardNotDelivered p cause std [] s).logs.general.head? =
      some (newEntry s 0 0x0F 0x0F01 [byte p.val, byte cause, byte std, 0]) := log_general_head ..

/-! ### GUARD_TIME_END and REPOLL (R440, R441) -/

theorem exec_guardTimeEnd {s : State} {q : Fin 2} (a b v : PollResult) (hon : portServed s q) (h : (readerOf s q).state = 2) :
    exec (.guardTimeEnd q a b v) s = .next (match poll q [(0, a), (1, b), (2, v)] s with
      | (t, true) => settle t
      | (t, false) => lowerField q (setReader q (fun r => { r with empty := r.empty + 1, baseline := r.load }) t)) :=
  congrArg Host.Outcome.next (if_neg (by simp [served_iff.mpr hon, h]))

theorem exec_repoll {s : State} {q : Fin 2} (a b v : PollResult) (hon : portServed s q) (h : (readerOf s q).state = 4) :
    exec (.repoll q a b v) s = .next (settle (poll q [(0, a), (1, b), (2, v)] s).1) :=
  congrArg Host.Outcome.next (if_neg (by simp [served_iff.mpr hon, h]))

/-- The ports that FLD does not serve, and the ports in another state, take no part. -/
theorem reader_ignores {s : State} {q : Fin 2} (load : Int) (a b v : PollResult) :
    (¬ portServed s q → Ignores (.antennaSense q load) s) ∧
    ((¬ portServed s q ∨ (readerOf s q).state ≠ 2) → Ignores (.guardTimeEnd q a b v) s) ∧
    ((¬ portServed s q ∨ (readerOf s q).state ≠ 4) → Ignores (.repoll q a b v) s) := by
  refine ⟨fun h => congrArg Host.Outcome.next (if_pos ?_), fun h => congrArg Host.Outcome.next (if_pos ?_),
    fun h => congrArg Host.Outcome.next (if_pos ?_)⟩
  · rw [← served_iff] at h
    simp [h]
  · rw [← served_iff] at h
    rcases h with h | h <;> simp [h]
  · rw [← served_iff] at h
    rcases h with h | h <;> simp [h]

/-- No standard finds a card: the port lowers its field and takes the present load as its baseline. -/
theorem guardTimeEnd_empty {s : State} {q : Fin 2} (hon : portServed s q) (h : (readerOf s q).state = 2) :
    Completes (.guardTimeEnd q .none .none .none) s (fun t =>
      readerOf t q = { readerOf s q with
        state := 1, run := 0, empty := (readerOf s q).empty + 1, baseline := (readerOf s q).load } ∧ t.sess = s.sess ∧
      ((readerOf s (otherPort q)).waiting = false → readerOf t (otherPort q) = readerOf s (otherPort q)) ∧
      ((readerOf s (otherPort q)).waiting = true →
        readerOf t (otherPort q) = { readerOf s (otherPort q) with state := 2, run := 0, waiting := false })) := by
  have hexec : exec (.guardTimeEnd q .none .none .none) s = .next (lowerField q (setReader q (fun r => { r with
      empty := r.empty + 1, baseline := r.load }) s)) := by
    rw [exec_guardTimeEnd .none .none .none hon h, poll_none]
  refine ⟨_, hexec, ?_, ?_, fun hw => ?_, fun hw => ?_⟩
  · rw [readerOf_lowerField, readerOf_setReader]
  · rw [lowerField_sess, setReader_sess]
  · rw [lowerField_alone (by rwa [readerOf_setReader_other _ _ (otherPort_ne q)]),
      readerOf_setReader_other _ _ (otherPort_ne q), readerOf_setReader_other _ _ (otherPort_ne q)]
  · rw [lowerField_passes (by rwa [readerOf_setReader_other _ _ (otherPort_ne q)]), readerOf_setReader,
      readerOf_setReader_other _ _ (otherPort_ne q), readerOf_setReader_other _ _ (otherPort_ne q)]

/-- A poll whose first standard finds one card with a fixed identifier. -/
theorem found_one {s : State} {q : Fin 2} {ident : List Byte} {c : Instr}
    (hc : exec c s = .next (settle (oneCard q 0 ident s))) :
    (mayDeliver s q ident = true → CarriesOut c s (fun t =>
      (readerOf t q).state = 4 ∧ (readerOf t q).std = 0 ∧ (readerOf t q).delivered = (readerOf s q).delivered + 1 ∧
        mayDeliver t q ident = false)) ∧
    (mayDeliver s q ident = false → CarriesOut c s (fun t => t = setReader q (fun z => { z with state := 4, std := 0 }) s)) := by
  refine ⟨fun h => ⟨_, hc, ?_⟩, fun h => ⟨_, hc, oneCard_keeps_quiet 0 h⟩⟩
  have hreader : readerOf (oneCard q 0 ident s) q = readerOf (delivered q 0 ident s) q := by
    rw [oneCard_delivers 0 h, readerOf_of_calm q (cardRead_calm ..)]
  rw [readerOf_delivered] at hreader
  dsimp only
  rw [mayDeliver_of_present (congrArg Reader.cards hreader), hreader]
  exact ⟨rfl, rfl, rfl, rfl⟩

theorem guardTimeEnd_several {s : State} {q : Fin 2} (b v : PollResult) (hon : portServed s q) (h : (readerOf s q).state = 2)
    (hstd : (portStandards s q).testBit 0 = true) :
    CarriesOut (.guardTimeEnd q .several b v) s (fun t =>
      (readerOf t q).state = 4 ∧ (readerOf t q).delivered = (readerOf s q).delivered ∧ t.sess = s.sess ∧
      t.logs.general.head? = some (newEntry s 0 0x0F 0x0F01 [byte q.val, 2, 0, 0])) := by
  refine ⟨_, (exec_guardTimeEnd .several b v hon h).trans (by rw [poll_first_several _ hstd]), ?_⟩
  dsimp only
  rw [readerOf_setReader, setReader_sess, setReader_logs]
  refine ⟨rfl, ?_, log_sess .., cardNotDelivered_head ..⟩
  rw [cardNotDelivered, readerOf_of_calm q (log_calm ..)]

/-! ### CARD_REMOVAL and PAIRING_WAIT_EXPIRY (R441, R443) -/

theorem cardRemoval_removes {s : State} {q : Fin 2} (h : awake s = true) (hstate : 3 ≤ (readerOf s q).state) :
    Completes (.cardRemoval q) s (fun t =>
      (readerOf t q).state = 1 ∧ (∀ c ∈ (readerOf t q).cards, c.removed ≠ none) ∧
      (readerOf t q).cards.map (fun c => c.ident) = (readerOf s q).cards.map (fun c => c.ident) ∧ t.sess = s.sess) := by
  refine ⟨_, congrArg Host.Outcome.next (if_neg (by simp [fieldRuns, h, hstate])), ?_⟩
  dsimp only
  rw [readerOf_lowerField, readerOf_setReader, lowerField_sess, setReader_sess]
  refine ⟨rfl, fun c hc => ?_, ?_, rfl⟩
  · obtain ⟨x, -, rfl⟩ := List.mem_map.mp hc
    split
    · simp
    · assumption
  · rw [List.map_map]
    refine List.map_congr_left fun x _ => ?_
    dsimp only [Function.comp]
    split <;> rfl

theorem pairingWaitExpiry_turns {s : State} {q : Fin 2} (h : awake s = true) (hwait : (readerOf s q).waiting = true) :
    Completes (.pairingWaitExpiry q) s (fun t =>
      readerOf t q = { readerOf s q with waiting := false, state := 2 } ∧
      readerOf t (otherPort q) =
        { readerOf s (otherPort q) with state := 1, run := 0, waiting := fullField (readerOf s (otherPort q)) }) := by
  refine ⟨_, congrArg Host.Outcome.next (if_neg (by simp [fieldRuns, h, hwait])), ?_, ?_⟩
  · rw [readerOf_setReader_other _ _ (otherPort_ne q).symm, readerOf_setReader]
  · rw [readerOf_setReader, readerOf_setReader_other _ _ (otherPort_ne q)]

/-! ### The statement -/

/-- Settles O57, by the state of the port and of the port it is paired with. -/
theorem readerCommands : Obligations.ReaderCommands := by
  intro s q load a b v
  obtain ⟨hsense, hguard, hrepoll⟩ := reader_ignores (s := s) (q := q) load a b v
  refine ⟨fun h => ⟨hsense h, hguard (.inl h), hrepoll (.inl h)⟩, fun hon h => ?_, fun hon hlow hwait => ?_,
    fun _ h => hguard (.inr h), fun _ h => hrepoll (.inr h), fun hon h => guardTimeEnd_empty hon h, fun hon h => ?_,
    fun ident hon hstd d hd hstate hfixed => ?_, fun hon h hstd => guardTimeEnd_several b v hon h hstd,
    fun h hstate => cardRemoval_removes h hstate, fun h => ?_, fun h hwait => pairingWaitExpiry_turns h hwait, fun h => ?_⟩
  · exact ⟨_, (exec_antennaSense load hon).trans (congrArg Host.Outcome.next (if_pos h)), rfl⟩
  · exact ⟨antennaSense_quiet hon hlow hwait, fun hdev => (antennaSense_deviates hon hlow hwait hdev).1,
      fun hdev => (antennaSense_deviates hon hlow hwait hdev).2.1, fun hdev => (antennaSense_deviates hon hlow hwait hdev).2.2⟩
  · exact ⟨_, exec_repoll .none .none .none hon h, congrArg Prod.fst (poll_none q s)⟩
  · refine found_one ?_
    simp only [List.mem_cons, List.not_mem_nil, or_false] at hd
    rcases hd with rfl | rfl
    · rw [exec_guardTimeEnd _ b v hon hstate, poll_first_one _ hstd hfixed]
    · rw [exec_repoll _ b v hon hstate, poll_first_one _ hstd hfixed]
  · refine congrArg Host.Outcome.next (if_pos ?_)
    rcases h with h | h
    · simp [fieldRuns, h]
    · simp [Nat.not_le.mpr h]
  · refine congrArg Host.Outcome.next (if_pos ?_)
    rcases h with h | h
    · simp [fieldRuns, h]
    · simp [h]

end Sys2Proof.Machine

/-! # The service tag (R444 to R453, R457, R458) -/

namespace Sys2Proof.Machine

/-! ### Blocks (R451) -/

theorem storedBlock_index (s : State) (k : Nat) : (storedBlock s k).index = k := by
  unfold storedBlock
  cases h : s.tag.blocks.find? (fun b => b.index == k) with
  | none => rfl
  | some b => exact eq_of_beq (List.find?_some (p := fun b : TagBlock => b.index == k) h)

theorem storedBlock_putBlock {b : TagBlock} {k : Nat} (s : State) (h : b.index = k) : storedBlock (putBlock b s) k = b := by
  simp [storedBlock, putBlock, setTag, h]

theorem storedBlock_putBlock_other {b : TagBlock} {k : Nat} (s : State) (h : k ≠ b.index) :
    storedBlock (putBlock b s) k = storedBlock s k := by
  have hb : (b.index == k) = false := beq_false_of_ne h.symm
  simp only [storedBlock, putBlock, setTag, List.find?_cons, hb, List.find?_filter]
  congr 2
  funext x
  by_cases hx : x.index = k
  · simp [hx, h]
  · simp [hx]

theorem blockContent_eq {s : State} {k : Nat} (h : ¬(4 ≤ k ∧ k ≤ 7)) :
    blockContent s k = committedContent (storedBlock s k) :=
  if_neg h

theorem blockContent_congr {s t : State} (k : Nat) (h : t.tag.blocks = s.tag.blocks) : blockContent t k = blockContent s k := by
  unfold blockContent storedBlock
  rw [h]

theorem blockContent_setTag {f : Tag → Tag} (hf : ∀ x, (f x).blocks = x.blocks) (s : State) (k : Nat) :
    blockContent (setTag f s) k = blockContent s k := blockContent_congr k (hf s.tag)

theorem blockContent_tagOpen (s : State) (k : Nat) : blockContent (tagOpen s) k = blockContent s k :=
  blockContent_setTag (fun _ => rfl) s k

theorem blockContent_putBlock_other {b : TagBlock} {k : Nat} (s : State) (h : k ≠ b.index) :
    blockContent (putBlock b s) k = blockContent s k := by
  unfold blockContent
  rw [storedBlock_putBlock_other s h]

/-- A write that is not cut short leaves its content, and the other blocks (R452). -/
theorem blockContent_programmed {k : Nat} (hk : ¬(4 ≤ k ∧ k ≤ 7)) (data : List Byte) (s : State) :
    blockContent (putBlock (programBlock (storedBlock s k) data .never) s) k = some (padTo 32 data) := by
  rw [blockContent_eq hk, storedBlock_putBlock s ((programBlock_index ..).trans (storedBlock_index s k)),
    programBlock_marked (.inl rfl)]

theorem blockContent_wiredWrite {k : Nat} (hk : ¬(4 ≤ k ∧ k ≤ 7)) (data : List Byte) (s : State) :
    blockContent (wiredWrite k data s) k = some (padTo 32 data) := blockContent_programmed hk data s

/-! ### Attempts and answers (R447, R448) -/

theorem wrongAttempt_tag (s : State) :
    (wrongAttempt s).tag = { s.tag with attempts := s.tag.attempts + 1, locked := decide (8 ≤ s.tag.attempts + 1) } := by
  unfold wrongAttempt
  dsimp only
  split
  · rw [log_tag]; rfl
  · rfl

theorem wrongAttempt_out (s : State) : (wrongAttempt s).out = s.out := by
  unfold wrongAttempt
  dsimp only
  split
  · rw [log_out]; rfl
  · rfl

theorem inField_on {f : State → State} {s : State} (h : s.tag.field = true) : inField f s = f s := if_pos h

theorem inField_off {f : State → State} {s : State} (h : s.tag.field = false) : inField f s = s :=
  if_neg (ne_true_of_eq_false h)

/-! ### The field and reading (R444, R447) -/

theorem tagFieldOn_activates (s : State) : Completes .tagFieldOn s (fun t =>
    t.tag = { s.tag with field := true, secured := false, uid := t.tag.uid } ∧ t.tag.uid.toNat % 256 = 8 ∧
      t.out = .tagActive 4 t.tag.uid 0x20 8 4 :: s.out) := by
  refine ⟨_, rfl, rfl, ?_, rfl⟩
  change ((Config.free32 s.freeCount &&& 0xFFFFFF00#32) ||| 8#32).toNat % 2 ^ 8 = 8
  rw [← BitVec.toNat_setWidth, BitVec.setWidth_or, BitVec.setWidth_and]
  simp

theorem tagFieldOff_opens (s : State) : Completes .tagFieldOff s (fun t =>
    t.tag = { s.tag with field := t.tag.field, secured := false, nonce := none } ∧
    (s.tag.field = false → t.tag.field = false) ∧ t.out = s.out ∧ t.logs = s.logs ∧ t.sess = s.sess) :=
  ⟨_, rfl, rfl, fun h => Bool.and_eq_false_iff.mpr (.inl h), rfl, rfl, rfl⟩

theorem block_of_rights {block : Nat} (h : fieldRights block ≠ 0) : ¬(4 ≤ block ∧ block ≤ 7) := by
  unfold fieldRights at h
  split_ifs at h <;> omega

section Field

variable {s : State} (hfield : s.tag.field = true)
include hfield

theorem tagCommandRead_range {first count : Nat} (h : count = 0 ∨ 4 < count ∨ 256 < first + count) :
    Completes (.tagCommandRead first count) s (fun t => t = emit (.tag [byte St.range]) s) :=
  ⟨_, congrArg Host.Outcome.next ((inField_on hfield).trans (if_pos h)), rfl⟩

theorem tagCommandRead_reads {first count : Nat} (hlo : 1 ≤ count) (hhi : count ≤ 4) (hend : first + count ≤ 256)
    {contents : Nat → List Byte} (h : ∀ j, j < count → blockContent s (first + j) = some (contents j)) :
    Completes (.tagCommandRead first count) s (fun t =>
      t = emit (.tag (byte St.ok :: (List.range count).flatMap contents)) s) := by
  refine ⟨_, congrArg Host.Outcome.next ((inField_on hfield).trans (if_neg (by omega))), ?_⟩
  have hbad : ((List.range count).map (fun i => first + i)).filter (fun k => (blockContent s k).isNone) = [] := by
    refine List.filter_eq_nil_iff.mpr fun k hk => ?_
    obtain ⟨j, hj, rfl⟩ := List.mem_map.mp hk
    simp [h j (List.mem_range.mp hj)]
  have hdata : ((List.range count).map (fun i => first + i)).flatMap (fun k => (blockContent s k).getD (zeros 32)) =
      (List.range count).flatMap contents := by
    rw [List.flatMap_map]
    refine List.flatMap_congr fun j hj => ?_
    rw [h j (List.mem_range.mp hj)]
    rfl
  dsimp only
  rw [hbad, hdata]
  rfl

/-! ### Writing (R446, R452) -/

/-- A write that the rights allow, as far as the collapse lets it run. -/
theorem exec_tagCommandWrite {block : Nat} {data : List Byte} {collapse c : Collapse} (hblock : block < 256)
    (hsecured : s.tag.secured = true) (hrights : fieldRights block ≠ 0)
    (hc : (if tagPowered s ∧ collapse ≠ .step1 then .never else collapse) = c) :
    exec (.tagCommandWrite block data collapse) s = .next (
      let t := setTag (fun t => { t with
        fieldWrites := if c = .never ∨ c = .afterMarker then t.fieldWrites + 1 else t.fieldWrites
        poweredRequest := if block = 3 ∧ (c = .never ∨ c = .afterMarker) then tagPowered s else t.poweredRequest })
        (putBlock (programBlock (storedBlock s block) (mergedContent s block data) c) s)
      if collapse = .never then tagAnswer St.ok [] t else setTag (fun x => { x with field := false }) (tagOpen t)) := by
  subst hc
  refine congrArg Host.Outcome.next ((inField_on hfield).trans ((if_neg (by omega)).trans (if_neg ?_)))
  rintro (hopen | hnone)
  · rw [hsecured] at hopen
    cases hopen
  · exact hrights hnone

theorem tagCommandWrite_writes {block : Nat} (data : List Byte) (hblock : block < 256) (hsecured : s.tag.secured = true)
    (hrights : fieldRights block ≠ 0) :
    Completes (.tagCommandWrite block data .never) s (fun t =>
      blockContent t block = some (padTo 32 (mergedContent s block data)) ∧ t.tag.fieldWrites = s.tag.fieldWrites + 1 ∧
      (∀ k, k ≠ block → blockContent t k = blockContent s k) ∧ t.out = .tag [byte St.ok] :: s.out) := by
  have hindex := (programBlock_index (storedBlock s block) (mergedContent s block data) .never).trans (storedBlock_index s block)
  refine ⟨_, (exec_tagCommandWrite hfield hblock hsecured hrights (ite_self _)).trans (congrArg Host.Outcome.next (if_pos rfl)),
    ?_, rfl, fun k hk => ?_, rfl⟩
  · exact (blockContent_setTag (fun _ => rfl) _ _).trans (blockContent_programmed (block_of_rights hrights) _ s)
  · exact (blockContent_setTag (fun _ => rfl) _ _).trans (blockContent_putBlock_other s (by rwa [hindex]))

/-- On field power alone a collapse before the marker leaves the write without its count. -/
theorem tagCommandWrite_cut {block : Nat} (data : List Byte) (hblock : block < 256) (hsecured : s.tag.secured = true)
    (hrights : fieldRights block ≠ 0) (hpower : tagPowered s = false) :
    Completes (.tagCommandWrite block data .beforeMarker) s (fun t =>
      t.tag.field = false ∧ t.tag.secured = false ∧ t.out = s.out ∧ t.tag.fieldWrites = s.tag.fieldWrites) :=
  ⟨_, (exec_tagCommandWrite hfield hblock hsecured hrights (if_neg (by simp [hpower]))).trans
    (congrArg Host.Outcome.next (if_neg (by decide))), rfl, rfl, rfl, rfl⟩

/-- A module that supplies the tag completes the write: the collapse only ends the session. -/
theorem tagCommandWrite_supplied {block : Nat} (data : List Byte) {collapse : Collapse} (hblock : block < 256)
    (hsecured : s.tag.secured = true) (hrights : fieldRights block ≠ 0) (hpower : tagPowered s = true)
    (hnever : collapse ≠ .never) (hstep : collapse ≠ .step1) :
    Completes (.tagCommandWrite block data collapse) s (fun t =>
      blockContent t block = some (padTo 32 (mergedContent s block data)) ∧ t.tag.fieldWrites = s.tag.fieldWrites + 1 ∧
      t.tag.field = false ∧ t.tag.secured = false ∧ t.out = s.out) := by
  refine ⟨_, (exec_tagCommandWrite hfield hblock hsecured hrights (if_pos ⟨hpower, hstep⟩)).trans
    (congrArg Host.Outcome.next (if_neg hnever)), ?_, rfl, rfl, rfl, rfl⟩
  exact (blockContent_setTag (fun _ => rfl) _ _).trans ((blockContent_tagOpen ..).trans
    ((blockContent_setTag (fun _ => rfl) _ _).trans (blockContent_programmed (block_of_rights hrights) _ s)))

theorem tagCommandWrite_range {block : Nat} (data : List Byte) (collapse : Collapse) (h : 256 ≤ block) :
    Completes (.tagCommandWrite block data collapse) s (fun t => t = emit (.tag [byte St.range]) s) :=
  ⟨_, congrArg Host.Outcome.next ((inField_on hfield).trans (if_pos h)), rfl⟩

theorem tagCommandWrite_locked {block : Nat} (data : List Byte) {collapse : Collapse} (hblock : block < 256)
    (h : s.tag.secured = false ∨ fieldRights block = 0) (hstep : collapse ≠ .step1) :
    Completes (.tagCommandWrite block data collapse) s (fun t => t = emit (.tag [byte St.locked]) s) :=
  ⟨_, congrArg Host.Outcome.next ((inField_on hfield).trans ((if_neg (by omega)).trans ((if_pos h).trans (if_neg hstep)))), rfl⟩

/-! ### The secured state (R448, R449) -/

theorem secured_locked (h : s.tag.locked = true) (value : U32) (slot : Nat) (nr : BitVec 128) (sigR sigS : BitVec 256) :
    ∀ c ∈ [Instr.password value, .challenge, .respond slot nr sigR sigS],
      Completes c s (fun t => t = emit (.tag [byte St.locked]) s) := by
  have hall : ∀ f : State → State, f s = tagAnswer St.locked [] s → inField f s = emit (.tag [byte St.locked]) s :=
    fun f hf => (inField_on hfield).trans hf
  intro c hc
  simp only [List.mem_cons, List.not_mem_nil, or_false] at hc
  rcases hc with rfl | rfl | rfl
  · exact ⟨_, congrArg Host.Outcome.next (hall _ (if_pos h)), rfl⟩
  · exact ⟨_, congrArg Host.Outcome.next (hall _ (if_pos h)), rfl⟩
  · exact ⟨_, congrArg Host.Outcome.next (hall _ (if_pos h)), rfl⟩

section Unlocked

variable (hopen : s.tag.locked = false)
include hopen

theorem password_accepted {value : U32} (hset : s.tag.password ≠ 0) (h : value = s.tag.password) :
    Completes (.password value) s (fun t =>
      t.tag = { s.tag with secured := true, attempts := 0 } ∧ t.out = .tag [byte St.ok] :: s.out) :=
  ⟨_, congrArg Host.Outcome.next ((inField_on hfield).trans ((if_neg (ne_true_of_eq_false hopen)).trans (if_pos ⟨hset, h⟩))),
    rfl, rfl⟩

theorem password_wrong {value : U32} (h : value ≠ s.tag.password) :
    Completes (.password value) s (fun t =>
      t.tag = { s.tag with attempts := s.tag.attempts + 1, locked := decide (8 ≤ s.tag.attempts + 1) } ∧
        t.out = .tag [byte St.authFail] :: s.out) :=
  ⟨_, congrArg Host.Outcome.next ((inField_on hfield).trans
    ((if_neg (ne_true_of_eq_false hopen)).trans (if_neg fun hc => h hc.2))),
    wrongAttempt_tag s, congrArg (List.cons _) (wrongAttempt_out s)⟩

theorem challenge_refused (h : awake s = false ∨ s.cis.trngFault = true) :
    Completes .challenge s (fun t => t = emit (.tag [byte St.refusedState]) s) := by
  have hguard : (!awake s || s.cis.trngFault) = true := by
    rcases h with h | h <;> simp [h]
  exact ⟨_, congrArg Host.Outcome.next ((inField_on hfield).trans
    ((if_neg (ne_true_of_eq_false hopen)).trans (if_pos hguard))), rfl⟩

theorem challenge_answers (hawake : awake s = true) (htrng : s.cis.trngFault = false) :
    Completes .challenge s (fun t =>
      ∃ nt, t.tag = { s.tag with nonce := some (nt, s.clockMs) } ∧ t.out = .tag (byte St.ok :: wordBytes 16 nt) :: s.out) := by
  have hguard : ¬ (!awake s || s.cis.trngFault) = true := by simp [hawake, htrng]
  exact ⟨_, congrArg Host.Outcome.next ((inField_on hfield).trans
    ((if_neg (ne_true_of_eq_false hopen)).trans (if_neg hguard))), _, rfl, rfl⟩

theorem respond_refused (slot : Nat) (nr : BitVec 128) (sigR sigS : BitVec 256) (h : awake s = false) :
    Completes (.respond slot nr sigR sigS) s (fun t => t = emit (.tag [byte St.refusedState]) s) :=
  ⟨_, congrArg Host.Outcome.next ((inField_on hfield).trans
    ((if_neg (ne_true_of_eq_false hopen)).trans (if_pos (by simp [h])))), rfl⟩

section Awake

variable (hawake : awake s = true) {slot : Nat} (nr : BitVec 128) (sigR sigS : BitVec 256)
include hawake

theorem respond_range (h : 4 ≤ slot) :
    Completes (.respond slot nr sigR sigS) s (fun t => t = emit (.tag [byte St.range]) s) :=
  ⟨_, congrArg Host.Outcome.next ((inField_on hfield).trans
    ((if_neg (ne_true_of_eq_false hopen)).trans ((if_neg (by simp [hawake])).trans (if_pos h)))), rfl⟩

/-- The answer to a Respond that finds no Challenge. -/
theorem respond_unasked (hslot : slot < 4) (h : s.tag.nonce = none) :
    Completes (.respond slot nr sigR sigS) s (fun t => t = emit (.tag [byte St.timeout]) s) := by
  refine ⟨_, congrArg Host.Outcome.next ((inField_on hfield).trans
    ((if_neg (ne_true_of_eq_false hopen)).trans ((if_neg (by simp [hawake])).trans (if_neg (by omega))))), ?_⟩
  rw [h]
  rfl

theorem exec_respond {nt : BitVec 128} {made : Nat} (hslot : slot < 4) (h : s.tag.nonce = some (nt, made)) :
    exec (.respond slot nr sigR sigS) s = .next (
      if made + 2000 < s.clockMs then tagAnswer St.timeout [] (setTag (fun x => { x with nonce := none }) s)
      else if keyVerifies s slot (readerMessage s nt nr) (wordBytes 32 sigR ++ wordBytes 32 sigS) then
        tagAnswer St.ok (wordBytes 64 (tagSignature s nt nr)) (draw (enterSecured (setTag (fun x => { x with nonce := none }) s)))
      else tagAnswer St.authFail [] (wrongAttempt (setTag (fun x => { x with nonce := none }) s))) := by
  refine congrArg Host.Outcome.next ((inField_on hfield).trans
    ((if_neg (ne_true_of_eq_false hopen)).trans ((if_neg (by simp [hawake])).trans ((if_neg (by omega)).trans ?_))))
  rw [h]

theorem respond_late {nt : BitVec 128} {made : Nat} (hslot : slot < 4) (h : s.tag.nonce = some (nt, made))
    (hlate : made + 2000 < s.clockMs) :
    Completes (.respond slot nr sigR sigS) s (fun t =>
      t.tag = { s.tag with nonce := none } ∧ t.out = .tag [byte St.timeout] :: s.out) :=
  ⟨_, (exec_respond hfield hopen hawake nr sigR sigS hslot h).trans (congrArg Host.Outcome.next (if_pos hlate)), rfl, rfl⟩

theorem respond_verified {nt : BitVec 128} {made : Nat} (hslot : slot < 4) (h : s.tag.nonce = some (nt, made))
    (htime : s.clockMs ≤ made + 2000)
    (hgood : keyVerifies s slot (readerMessage s nt nr) (wordBytes 32 sigR ++ wordBytes 32 sigS) = true) :
    Completes (.respond slot nr sigR sigS) s (fun t =>
      t.tag = { s.tag with nonce := none, secured := true, attempts := 0 } ∧
      t.out = .tag (byte St.ok :: wordBytes 64 (tagSignature s nt nr)) :: s.out) :=
  ⟨_, (exec_respond hfield hopen hawake nr sigR sigS hslot h).trans
    (congrArg Host.Outcome.next ((if_neg (by omega)).trans (if_pos hgood))), rfl, rfl⟩

theorem respond_wrong {nt : BitVec 128} {made : Nat} (hslot : slot < 4) (h : s.tag.nonce = some (nt, made))
    (htime : s.clockMs ≤ made + 2000)
    (hbad : keyVerifies s slot (readerMessage s nt nr) (wordBytes 32 sigR ++ wordBytes 32 sigS) = false) :
    Completes (.respond slot nr sigR sigS) s (fun t =>
      t.tag = { s.tag with nonce := none, attempts := s.tag.attempts + 1, locked := decide (8 ≤ s.tag.attempts + 1) } ∧
      t.out = .tag [byte St.authFail] :: s.out) :=
  ⟨_, (exec_respond hfield hopen hawake nr sigR sigS hslot h).trans
    (congrArg Host.Outcome.next ((if_neg (by omega)).trans (if_neg (ne_true_of_eq_false hbad)))),
    wrongAttempt_tag _, congrArg (List.cons _) (wrongAttempt_out _)⟩

end Awake
end Unlocked
end Field

/-- A slot that holds no key, or a revoked one, verifies nothing. -/
theorem keyVerifies_unusable {s : State} {slot : Nat}
    (h : s.otp.programmed.getLsbD slot = false ∨ s.otp.revoked.getLsbD slot = true)
    (msg sig : List Byte) : keyVerifies s slot msg sig = false := by
  unfold keyVerifies keyUsable
  rcases h with h | h <;> simp [h]

/-! ### The wired side (R445, R450, R453) -/

theorem tagSide_ignores {s : State} (h : awake s = false) (wants : Bool) (retries : Nat) :
    Ignores (.tagRequest wants) s ∧ Ignores .tagStatusUpdate s ∧ Ignores .tagLogMirror s ∧
      ∀ k, Ignores (.wiredWriteRetryExpiry k retries) s :=
  ⟨congrArg Host.Outcome.next (if_pos (by simp [tagServed, h])), congrArg Host.Outcome.next (if_neg (by simp [tagServed, h])),
    congrArg Host.Outcome.next (if_neg (by simp [tagServed, h])),
    fun _ => congrArg Host.Outcome.next (if_pos (by simp [tagServed, h]))⟩

/-- A number of two bytes that stands after other bytes. -/
theorem fieldN_after {p q : List Byte} {v off n : Nat} (hp : p.length = off) (hv : v < 2 ^ (8 * n)) :
    fieldN (p ++ leBytes n v ++ q) off n = v := by
  subst hp
  have hdrop : (p ++ leBytes n v ++ q).drop p.length = leBytes n v ++ q := by
    rw [List.append_assoc, List.drop_left]
  unfold fieldN slice
  rw [hdrop, List.take_append_of_le_length (length_leBytes n v).ge, List.take_of_length_le (length_leBytes n v).le,
    leNat_leBytes, Nat.mod_eq_of_lt hv]

theorem leNat_lt (bs : List Byte) : leNat bs < 2 ^ (8 * bs.length) := by
  induction bs with
  | nil => decide
  | cons b bs ih =>
    have hb := b.isLt
    have hpow : 2 ^ (8 * (b :: bs).length) = 256 * 2 ^ (8 * bs.length) := by
      rw [List.length_cons, Nat.mul_add, Nat.pow_add]
      omega
    rw [leNat, hpow]
    omega

theorem fieldN_lt (bs : List Byte) (off n : Nat) : fieldN bs off n < 2 ^ (8 * n) :=
  (leNat_lt _).trans_le (Nat.pow_le_pow_right (by decide) (Nat.mul_le_mul_left 8 (List.length_take_le ..)))

/-- An answer block: what was asked, the number of the request, and the rest of the 32 bytes. -/
theorem answered_block {s : State} {b rest : List Byte} {k m : Nat} (hb : b.length = 32)
    (hk : ¬(4 ≤ k ∧ k ≤ 7)) (hm : m ≤ 32)    (hlen : m + 2 + rest.length = 32) :
    ∃ n, blockContent (wiredWrite k (b.take m ++ leBytes 2 (fieldN b 0 2) ++ rest) s) k = some n ∧ n.take m = b.take m ∧
      fieldN n m 2 = fieldN b 0 2 := by
  have htake : (b.take m).length = m := by rw [List.length_take, hb, Nat.min_eq_left hm]
  refine ⟨b.take m ++ leBytes 2 (fieldN b 0 2) ++ rest, ?_, ?_, fieldN_after htake (fieldN_lt ..)⟩
  · rw [blockContent_wiredWrite hk, padTo_of_length]
    rw [List.length_append, List.length_append, htake, length_leBytes, hlen]
  · rw [List.append_assoc, List.take_append_of_le_length htake.ge, List.take_of_length_le htake.le]

theorem handleRequest_answers (s : State) {b : List Byte} (hb : b.length = 32) :
    ∃ n, blockContent (handleRequest b s) 3 = some n ∧ n.take 16 = b.take 16 ∧ fieldN n 16 2 = fieldN b 0 2 := by
  unfold handleRequest
  simp only [List.append_assoc]
  rw [← List.append_assoc (b.take 16)]
  exact answered_block hb (by decide) (by decide) (by simp [leInt, length_leBytes, zeros])

theorem handleConfirmation_answers (s : State) {b : List Byte} (hb : b.length = 32) :
    ∃ n, blockContent (handleConfirmation b s) 2 = some n ∧ n.take 8 = b.take 8 ∧ fieldN n 8 2 = fieldN b 0 2 := by
  unfold handleConfirmation
  simp only [List.append_assoc]
  rw [← List.append_assoc (b.take 8)]
  exact answered_block hb (by decide) (by decide) (by simp [length_leBytes, zeros])

theorem tagRequest_block3 {s : State} {b : List Byte} (h : awake s = true) (hb : b.length = 32)
    (hcontent : blockContent s 3 = some b) :
    (fieldN b 0 2 = fieldN b 16 2 → Ignores (.tagRequest true) s) ∧
    (fieldN b 0 2 ≠ fieldN b 16 2 → Completes (.tagRequest true) s (fun t =>
      ∃ n, blockContent t 3 = some n ∧ n.take 16 = b.take 16 ∧ fieldN n 16 2 = fieldN b 0 2)) := by
  have hexec : exec (.tagRequest true) s = .next (if fieldN b 0 2 = fieldN b 16 2 then s else handleRequest b s) := by
    refine congrArg Host.Outcome.next ((if_neg (by simp [tagServed, h])).trans ?_)
    simp only [if_true]
    rw [hcontent]
  exact ⟨fun heq => hexec.trans (congrArg Host.Outcome.next (if_pos heq)),
    fun hne => ⟨_, hexec.trans (congrArg Host.Outcome.next (if_neg hne)), handleRequest_answers s hb⟩⟩

theorem tagRequest_block2 {s : State} {b : List Byte} (h : awake s = true) (hb : b.length = 32)
    (hcontent : blockContent s 2 = some b) :
    (fieldN b 0 2 = fieldN b 8 2 → Ignores (.tagRequest false) s) ∧
    (fieldN b 0 2 ≠ fieldN b 8 2 → Completes (.tagRequest false) s (fun t =>
      ∃ n, blockContent t 2 = some n ∧ n.take 8 = b.take 8 ∧ fieldN n 8 2 = fieldN b 0 2)) := by
  have hexec : exec (.tagRequest false) s = .next (if fieldN b 0 2 = fieldN b 8 2 then s else handleConfirmation b s) := by
    refine congrArg Host.Outcome.next ((if_neg (by simp [tagServed, h])).trans ?_)
    simp only [Bool.false_eq_true, if_false]
    rw [hcontent]
  exact ⟨fun heq => hexec.trans (congrArg Host.Outcome.next (if_pos heq)),
    fun hne => ⟨_, hexec.trans (congrArg Host.Outcome.next (if_neg hne)), handleConfirmation_answers s hb⟩⟩

theorem statusBlock_length (s : State) : (statusBlock s).length = 32 := by
  simp [statusBlock, length_leBytes, outlets, zeros]

theorem tagStatusUpdate_writes {s : State} (h : awake s = true)
    (hnew : (blockContent s 1).map withoutTime ≠ some (withoutTime (statusBlock s))) :
    Completes .tagStatusUpdate s (fun t =>
      blockContent t 1 = some (statusBlock s) ∧ t.sess = s.sess ∧ t.hedge = s.hedge) := by
  refine ⟨_, congrArg Host.Outcome.next (if_pos ⟨h, hnew⟩), ?_, rfl, rfl⟩
  rw [blockContent_wiredWrite (by decide), padTo_of_length (statusBlock_length s)]

/-! ### The log mirror (R445) -/

/-- Entries are written into the ring, oldest first. -/
def mirrorAll (l : List LogEntry) (s : State) : State := l.foldl (fun t e => mirrorEntry e t) s

theorem mirrorAll_append (l : List LogEntry) (e : LogEntry) (s : State) :
    mirrorAll (l ++ [e]) s = mirrorEntry e (mirrorAll l s) := List.foldl_concat ..

theorem mirrorAll_ring (l : List LogEntry) (s : State) : (mirrorAll l s).tag.ring % 64 = (s.tag.ring + l.length) % 64 := by
  induction l generalizing s with
  | nil => rfl
  | cons e l ih =>
    refine (ih (mirrorEntry e s)).trans ?_
    rw [show (mirrorEntry e s).tag.ring = (s.tag.ring + 1) % 64 from rfl, List.length_cons]
    omega

theorem mirrorAll_ring_lt (l : List LogEntry) {s : State} (h : s.tag.ring < 64) : (mirrorAll l s).tag.ring < 64 := by
  induction l generalizing s with
  | nil => exact h
  | cons e l ih => exact ih (Nat.mod_lt _ (by decide))

theorem mirrorAll_logs (l : List LogEntry) (s : State) : (mirrorAll l s).logs = s.logs :=
  foldl_keeps State.logs (fun t e => mirrorEntry e t) (fun _ _ => rfl) l s

theorem blockContent_mirrorEntry {k : Nat} (e : LogEntry) {s : State} (h : s.tag.ring = k) :
    blockContent (mirrorEntry e s) (8 + k) = some (padTo 32 (entryBytes e)) := by
  subst h
  exact (blockContent_congr _ rfl).trans (blockContent_wiredWrite (by omega) _ s)

theorem tagLogMirror_mirrors {s : State} (h : awake s = true) (hdue : mirrorDue s ≠ []) :
    Completes .tagLogMirror s (fun t =>
      t.tag.ring = (s.tag.ring + (mirrorDue s).length) % 64 ∧ t.logs = s.logs ∧
      (∀ e, (mirrorDue s).getLast? = some e → t.tag.mirrored = e.index + 1 ∧ (s.tag.ring < 64 →
        blockContent t (8 + (s.tag.ring + ((mirrorDue s).length - 1)) % 64) = some (padTo 32 (entryBytes e))))) := by
  refine ⟨mirrorAll (mirrorDue s) s, congrArg Host.Outcome.next (if_pos h), ?_⟩
  generalize mirrorDue s = l at hdue ⊢
  obtain rfl | ⟨l, e, rfl⟩ := List.eq_nil_or_concat' l
  · exact absurd rfl hdue
  have hring := mirrorAll_ring l s
  refine ⟨?_, mirrorAll_logs .., fun e' he => ?_⟩
  · rw [mirrorAll_append, List.length_append, List.length_singleton]
    change ((mirrorAll l s).tag.ring + 1) % 64 = _
    omega
  · obtain rfl : e = e' := by simpa using he
    rw [mirrorAll_append]
    refine ⟨rfl, fun hlt => blockContent_mirrorEntry e ?_⟩
    have hrange := mirrorAll_ring_lt l hlt
    rw [List.length_append, List.length_singleton, Nat.add_sub_cancel]
    omega

/-! ### Writes that are given up (R453) -/

theorem setOrigin_logs (p : Port) (f : Origin → Origin) (s : State) : (setOrigin p f s).logs = s.logs := by
  unfold setOrigin
  split <;> rfl

theorem completeRequest_logs (port : Port) (cls opcode : Nat) (seq : U32) (status : Nat) (payload : List Byte) (s : State) :
    (completeRequest port cls opcode seq status payload s).logs = s.logs := by
  unfold completeRequest
  dsimp only
  rw [setOrigin_logs, foldl_keeps State.logs (fun t _ => sendPacket _ t) (fun _ _ => rfl), journal_logs]

theorem tag_of_calm {s t : State} (h : calm t = calm s) : t.tag = s.tag := congrArg Calm.tag h

theorem wiredWriteRetryExpiry_gives_up {s : State} (h : awake s = true) (k : Fin 256) (retries : Nat) :
    Completes (.wiredWriteRetryExpiry k retries) s (fun t =>
      t.tag.abandoned = s.tag.abandoned + retries ∧ (∀ y ∈ t.tag.retrying, y.1 ≠ k.val) ∧
      (∃ e, t.logs.general.head? = some e ∧ e.sub = 0x0F ∧ e.code = 0x0F04)) := by
  refine ⟨_, congrArg Host.Outcome.next (if_neg (by simp [tagServed, h])), ?_⟩
  dsimp only
  rw [foldl_keeps State.tag _ (fun t x => tag_of_calm (completeRequest_calm ..)),
    foldl_keeps State.logs _ (fun t x => completeRequest_logs ..)]
  refine ⟨?_, fun y hy => ?_, _, log_general_head .., rfl, rfl⟩
  · exact congrArg (·.abandoned + retries) (log_tag ..)
  · simpa using (List.mem_filter.mp hy).2

/-! ### The opcodes (R457, R458) -/

theorem wiredWrite_sender (k : Nat) (data : List Byte) (s : State) : SameSender s (wiredWrite k data s) :=
  sameSender_of rfl rfl rfl

theorem setTag_sender (f : Tag → Tag) (s : State) : SameSender s (setTag f s) := sameSender_of rfl rfl rfl

section Opcodes

variable {s : State} {r : Request}

theorem tagWrite_range (committed : Bool) (hk : fieldN r.payload 0 1 < 72) :
    Admitted (opLen 0x0F03 [clsN] 36) r s → Completes (.tagWrite r committed) s (fun t =>
      Answers s r 0x0F03 St.range [] t ∧ SameModule s t) :=
  host_refuses (op := opLen 0x0F03 [clsN] 36) rfl fun x => guarded_stop (by simp [need, Nat.not_le.mpr hk, St.ok, St.range])

theorem tagWrite_writes (hres : fieldN r.payload 1 3 = 0) (hk : 72 ≤ fieldN r.payload 0 1) :
    Admitted (opLen 0x0F03 [clsN] 36) r s → Completes (.tagWrite r true) s (fun t =>
      Answers s r 0x0F03 St.ok [] t ∧ SameModule (wiredWrite (fieldN r.payload 0 1) (slice r.payload 4 32) s) t) :=
  host_leads (op := opLen 0x0F03 [clsN] 36) rfl (wiredWrite_sender ..) fun x =>
    guarded_pass (by simp [need, hk, reservedOk_of hres])

theorem tagWrite_waits (hres : fieldN r.payload 1 3 = 0) (hk : 72 ≤ fieldN r.payload 0 1)
    (h : Admitted (opLen 0x0F03 [clsN] 36) r s) : Completes (.tagWrite r false) s (fun t =>
      SameModule { s with tag := { s.tag with retrying := (fieldN r.payload 0 1, r.port, r.seq, r.cls) :: s.tag.retrying } } t ∧
        t.out = s.out) :=
  ⟨_, congrArg Host.Outcome.next (host_later
      (u := setTag (fun t => { t with retrying := (fieldN r.payload 0 1, r.port, r.seq, r.cls) :: t.retrying }) s) h
      (by decide) fun x => guarded_pass (by simp [need, hk, reservedOk_of hres])),
    (withHost_same _ _).trans (setOrigin_same _ _ _), setOrigin_out _ _ _⟩

theorem tagSecurity_range (h : 2 < fieldN r.payload 0 1) :
    Admitted (opLen 0x0F04 [clsN] 8) r s → Completes (.tagSecurity r) s (fun t =>
      Answers s r 0x0F04 St.range [] t ∧ SameModule s t) :=
  host_refuses (op := opLen 0x0F04 [clsN] 8) rfl fun x => guarded_stop (by
    have h1 : fieldN r.payload 0 1 ≠ 1 := by omega
    have h2 : fieldN r.payload 0 1 ≠ 2 := by omega
    simp [need, h1, h2, St.ok, St.range])

/-- The state in which TAG_SECURITY leaves the tag. -/
def tagSecured (r : Request) (s : State) : State :=
  if fieldN r.payload 0 1 = 1 then
    log (portOrigin r.port) 0x0F 0x0F05 [byte (portOrigin r.port)] false
      (setTag (fun t => { t with password := BitVec.ofNat 32 (fieldN r.payload 4 4) }) s)
  else if s.tag.locked then
    log (portOrigin r.port) 0x0F 0x0F02 [0, 1, 0] false (setTag (fun t => { t with locked := false, attempts := 0 }) s)
  else setTag (fun t => { t with locked := false, attempts := 0 }) s

theorem tagSecured_sender (r : Request) (s : State) : SameSender s (tagSecured r s) := by
  unfold tagSecured
  split_ifs
  · exact (setTag_sender _ s).trans (log_sender ..)
  · exact (setTag_sender _ s).trans (log_sender ..)
  · exact setTag_sender ..

theorem tagSecured_withHost (x : HostLink) : tagSecured r (withHost x s) = withHost x (tagSecured r s) := by
  unfold tagSecured
  rw [apply_ite (withHost x), apply_ite (withHost x), ← log_withHost, ← log_withHost]
  rfl

theorem tagSecurity_secures (hres : fieldN r.payload 1 3 = 0) (hop : fieldN r.payload 0 1 = 1 ∨ fieldN r.payload 0 1 = 2)
    (hblank : s.cis.lifecycle ≠ 0) (hretired : s.cis.lifecycle ≠ 4) :
    Admitted (opLen 0x0F04 [clsN] 8) r s → Completes (.tagSecurity r) s (fun t =>
      Answers s r 0x0F04 St.ok [] t ∧ SameModule (tagSecured r s) t) := by
  refine host_leads (op := opLen 0x0F04 [clsN] 8) rfl (tagSecured_sender r s) fun x => ?_
  refine (guarded_pass (by simp [need, hop, reservedOk_of hres, hblank, hretired])).trans ?_
  rw [← tagSecured_withHost]
  unfold tagSecured
  split <;> rfl

end Opcodes

/-! ### The statement -/

/-- Settles O59, by the tag's field commands, its wired side and its opcodes. -/
theorem tagCommands : Obligations.TagCommands := by
  intro s r first count block slot retries data collapse value nr sigR sigS wants committed
  refine ⟨tagFieldOn_activates s, tagFieldOff_opens s, fun h => ?_, fun hfield => ?_, fun h => tagSide_ignores h wants retries,
    fun h => ?_, fun hres => ?_, fun hres hblank hretired => ?_⟩
  · have hoff (f : State → State) : (Host.Outcome.next (inField f s) : Host.Outcome State Fault Refusal) = .next s :=
      congrArg Host.Outcome.next (inField_off h)
    exact ⟨hoff _, hoff _, hoff _, hoff _, hoff _, hoff _, hoff _⟩
  · refine ⟨tagCommandRead_range hfield, fun hlo hhi hend contents => tagCommandRead_reads hfield hlo hhi hend,
      tagCommandWrite_range hfield data collapse, fun hb h hstep => tagCommandWrite_locked hfield data hb h hstep,
      tagCommandWrite_writes hfield data, tagCommandWrite_cut hfield data, tagCommandWrite_supplied hfield data,
      fun hlocked => ?_, fun h => password_accepted hfield h, fun h => password_wrong hfield h, challenge_refused hfield,
      challenge_answers hfield,
      fun h => respond_refused hfield h slot nr sigR sigS, fun h hawake => respond_range hfield h hawake nr sigR sigS,
      fun h hawake hslot => ⟨respond_unasked hfield h hawake nr sigR sigS hslot, fun nt made hasked => ?_⟩,
      ⟨_, congrArg Host.Outcome.next (inField_on hfield), rfl, rfl⟩,
      ⟨_, congrArg Host.Outcome.next (inField_on hfield), rfl⟩⟩
    · have hall := secured_locked hfield hlocked value slot nr sigR sigS
      exact ⟨hall _ (by simp), hall _ (by simp), hall _ (by simp)⟩
    · have hverify := respond_verified hfield h hawake nr sigR sigS hslot hasked
      have hwrong := respond_wrong hfield h hawake nr sigR sigS hslot hasked
      refine ⟨respond_late hfield h hawake nr sigR sigS hslot hasked, fun htime => ?_,
        fun htime hkey => hwrong htime (keyVerifies_unusable hkey _ _)⟩
      cases hkey : keyVerifies s slot (readerMessage s nt nr) (wordBytes 32 sigR ++ wordBytes 32 sigS) with
      | true =>
        obtain ⟨t, hexec, ht⟩ := hverify htime hkey
        exact ⟨t, hexec, fun _ => ht, fun hc => by cases hc⟩
      | false =>
        obtain ⟨t, hexec, ht⟩ := hwrong htime hkey
        exact ⟨t, hexec, fun hc => by (cases hc), fun _ => ht⟩
  · refine ⟨fun b hb hcontent => tagRequest_block3 h hb hcontent, fun b hb hcontent => tagRequest_block2 h hb hcontent,
      tagStatusUpdate_writes h, fun hsame => congrArg Host.Outcome.next (if_neg fun hc => hc.2 hsame), fun hdue => ?_,
      tagLogMirror_mirrors h, fun k => wiredWriteRetryExpiry_gives_up h k retries⟩
    refine congrArg Host.Outcome.next ((if_pos h).trans ?_)
    rw [hdue]
    rfl
  · exact ⟨tagWrite_range committed, fun hk => ⟨tagWrite_writes hres hk, blockContent_wiredWrite (by omega) ..⟩,
      tagWrite_waits hres⟩
  · refine ⟨fun hop => ?_, fun hop hlocked => ?_, fun hop hlocked => ?_, tagSecurity_range⟩
    · have hsecured := tagSecurity_secures hres (.inl hop) hblank hretired
      rwa [tagSecured, if_pos hop] at hsecured
    · have hsecured := tagSecurity_secures hres (.inr hop) hblank hretired
      rwa [tagSecured, if_neg (by omega), if_pos hlocked] at hsecured
    · have hsecured := tagSecurity_secures hres (.inr hop) hblank hretired
      rwa [tagSecured, if_neg (by omega), if_neg (ne_true_of_eq_false hlocked)] at hsecured

end Sys2Proof.Machine

/-! # The Rake self-test (R460 to R467, R471) -/

namespace Sys2Proof.Machine

/-! ### A run starts (R463) -/

theorem startRake_starts (kind : Nat) (groups : List Nat) (w : WindowInput) (last : Fin 256) (s : State) :
    (startRake kind groups w last s).power = { s.power with phase := .rake } ∧
    (startRake kind groups w last s).rake = { s.rake with lastKind := kind, left := groups, results := [], repeated := false } ∧
    (startRake kind groups w last s).sess = s.sess ∧ (startRake kind groups w last s).otp = s.otp := by
  refine ⟨?_, ?_, sess_of_vehicle (partialCommit_vehicle w last s), otp_of_kept (partialCommit_kept w last s)⟩
  · exact congrArg (fun p : Power => { p with phase := .rake }) (partialCommit_power w last s)
  · exact congrArg (fun k : Rake => { k with lastKind := kind, left := groups, results := [], repeated := false })
      (partialCommit_rake w last s)

theorem maintenanceWindow_runs {s : State} (w : WindowInput) (last : Fin 256)
    (h : (domainRuns s && maintenanceDue s && allIdle s && noUpdate s && s.sun.utcValid) = true) :
    Completes (.maintenanceWindow w last) s (fun t =>
      t.power = { s.power with phase := .rake } ∧ t.rake.left = [1, 2, 3, 4, 5, 6] ∧ t.rake.results = [] ∧ t.rake.lastKind = 1 ∧
      t.rake.signature = s.rake.signature ∧ t.sess = s.sess ∧ t.otp = s.otp) := by
  obtain ⟨hpower, hrake, hsess, hotp⟩ := startRake_starts 1 [1, 2, 3, 4, 5, 6] w last s
  refine ⟨_, congrArg Host.Outcome.next (if_pos h), hpower, ?_, ?_, ?_, ?_, hsess, hotp⟩
  all_goals rw [hrake]

/-! ### A window passes without a run (R463) -/

/-- What held a maintenance run back. -/
def heldBack (s : State) : Nat := if s.sun.utcValid = false then 3 else if allIdle s = false then 1 else 2

theorem maintenanceWindowEnd_logs {s : State} {told : Bool} (htold : told = (domainRuns s && cfgN s 0x1001 0 0 1 1 == 2 &&
    ((match s.rake.signature with
      | some x => !s.rake.magic || decide (x.utc + 86400 < s.sun.utc)
      | none => true) || !s.sun.utcValid) && !ranInWindow s)) :
    exec .maintenanceWindowEnd s =
      .next (if told then log 9 0x10 0x1002 (byte (heldBack s) :: zeros 15) false s else s) := by
  have hcause : (if (!s.sun.utcValid) = true then 3 else if (!allIdle s) = true then 1 else 2) = heldBack s := by
    simp [heldBack]
  subst htold
  rw [← hcause]
  rfl

/-- An entry's detail is filled up with zeros. -/
theorem newEntry_zeros (s : State) (origin sub code cause : Nat) :
    newEntry s origin sub code (byte cause :: zeros 15) = newEntry s origin sub code [byte cause] := rfl

/-! ### The run (R460, R461, R465) -/

theorem raking_iff {s : State} : raking s = true ↔ s.power.phase = .rake ∧ s.rake.left ≠ [] := by
  simp [raking]

theorem rake_ignores {s : State} (result : Nat) (h : s.power.phase ≠ .rake ∨ s.rake.left = []) :
    Ignores (.rakeGroupComplete result) s ∧ Ignores .rakePowerLimit s ∧ Ignores .rakeConditionTimeout s := by
  have hidle : raking s = false := by
    rw [Bool.eq_false_iff, ne_eq, raking_iff]
    tauto
  exact ⟨congrArg Host.Outcome.next (if_neg (by simp [hidle])), congrArg Host.Outcome.next (if_pos (by simp [hidle])),
    congrArg Host.Outcome.next (if_neg (by simp [hidle]))⟩

theorem exec_rakeGroupComplete {s : State} (result : Nat) (h : raking s = true) :
    exec (.rakeGroupComplete result) s = .next (endGroup result s) := congrArg Host.Outcome.next (if_pos h)

theorem exec_rakePowerLimit_again {s : State} (h : raking s = true) (hagain : s.rake.repeated = true) :
    exec .rakePowerLimit s = .next (endGroup 4 s) :=
  congrArg Host.Outcome.next ((if_neg (by simp [h])).trans (if_pos hagain))

theorem exec_rakePowerLimit_first {s : State} (h : raking s = true) (hfirst : s.rake.repeated = false) :
    exec .rakePowerLimit s = .next (setRake (fun k => { k with repeated := true }) s) :=
  congrArg Host.Outcome.next ((if_neg (by simp [h])).trans (if_neg (ne_true_of_eq_false hfirst)))

/-- A group ends that others follow. -/
theorem endGroup_next {s : State} {g h : Nat} {l : List Nat} (result : Nat) (hleft : s.rake.left = g :: h :: l) :
    endGroup result s = { s with rake := { s.rake with
      left := h :: l, results := s.rake.results ++ [(g, result)], repeated := false } } := by
  unfold endGroup
  rw [hleft]
  exact if_neg (List.cons_ne_nil _ _)

/-- The last group ends, and with it the run. -/
theorem endGroup_last {s : State} {g : Nat} (result : Nat) (hleft : s.rake.left = [g]) :
    endGroup result s = endRake (setRake (fun k => { k with
      left := [], results := k.results ++ [(g, result)], repeated := false }) s) := by
  unfold endGroup
  rw [hleft]
  exact if_pos rfl

/-- How a run ends (R465, R467). -/
def RunEnded (s t : State) (results : List (Nat × Nat)) : Prop :=
  let six := sixResults results
  t.rake.left = [] ∧ t.rake.lastResults = six ∧ t.rake.unlogged = true ∧ t.rake.permitOk = (s.rake.permitOk || sixPass six) ∧
  (sixPass six = false → t.rake.magic = false ∧ t.rake.signature = s.rake.signature) ∧
  (sixPass six = true → s.sun.utcValid = true → t.rake.magic = true ∧ ∃ x, t.rake.signature = some x ∧
    x.utc = s.sun.utc ∧ x.cycle = s.sun.cycle ∧ x.kind = s.rake.lastKind ∧ x.serial = s.otp.serial) ∧
  t.power = s.power ∧ t.otp = s.otp

theorem endRake_ends (s : State) : RunEnded s (endRake s) s.rake.results := by
  have hsign (h : sixPass (sixResults s.rake.results) = false) :
      ¬(sixPass (sixResults s.rake.results) && s.sun.utcValid) = true := by simp [h]
  refine ⟨rfl, rfl, rfl, rfl, fun hfail => ⟨?_, if_neg (hsign hfail)⟩,
    fun hpass hvalid => ⟨?_, _, if_pos (Bool.and_eq_true_iff.mpr ⟨hpass, hvalid⟩), rfl, rfl, rfl, rfl⟩, rfl, rfl⟩
  · exact (if_neg (hsign hfail)).trans (if_neg (ne_true_of_eq_false hfail))
  · exact if_pos (Bool.and_eq_true_iff.mpr ⟨hpass, hvalid⟩)

theorem endGroup_ends {s : State} {g : Nat} (result : Nat) (hleft : s.rake.left = [g]) :
    RunEnded s (endGroup result s) (s.rake.results ++ [(g, result)]) := by
  rw [endGroup_last result hleft]
  exact endRake_ends (setRake (fun k => { k with left := [], results := k.results ++ [(g, result)], repeated := false }) s)

/-- Group 6 without its condition does not pass. -/
theorem sixPass_of_six {l : List (Nat × Nat)} (h : ∀ x ∈ l, x.1 ≠ 6) : sixPass (sixResults (l ++ [(6, 3)])) = false := by
  have hnone : l.find? (fun x => x.1 == 6) = none := List.find?_eq_none.mpr fun x hx => by simpa using h x hx
  have hlast : (sixResults (l ++ [(6, 3)]))[5]? = some 3 := by
    simp [sixResults, List.find?_append, hnone]
  refine beq_false_of_ne fun hpass => ?_
  rw [hpass] at hlast
  cases hlast

theorem rakeConditionTimeout_ends {s : State} (hphase : s.power.phase = .rake) (hleft : s.rake.left = [6])
    (hresults : ∀ x ∈ s.rake.results, x.1 ≠ 6) :
    Completes .rakeConditionTimeout s (fun t =>
      t.rake.left = [] ∧ t.rake.magic = false ∧ t.rake.lastResults = sixResults (s.rake.results ++ [(6, 3)])) := by
  have hraking : raking s = true := raking_iff.mpr ⟨hphase, by simp [hleft]⟩
  obtain ⟨hempty, hsix, -, -, hfail, -, -, -⟩ := endGroup_ends 3 hleft
  exact ⟨_, congrArg Host.Outcome.next (if_pos ⟨hraking, by rw [hleft]; rfl⟩), hempty,
    (hfail (sixPass_of_six hresults)).1, hsix⟩

/-! ### RAKE_RUN (R471) -/

theorem groupsOf_ne_nil {mask : Nat} (hlo : 1 ≤ mask) (hhi : mask < 64) : groupsOf mask ≠ [] := by
  have hall : ∀ m < 64, 1 ≤ m → groupsOf m ≠ [] := by decide
  exact hall mask hhi hlo

/-- RAKE_RUN: the request is answered, and a run that was accepted starts. -/
def rakeAsked (r : Request) (s : State) : State :=
  hostRequest (opLen 0x1002 [clsN] 4) r
    (fun s => guarded [ need (fieldN r.payload 0 1 ≠ 0 ∧ fieldN r.payload 0 1 < 64) St.range, reservedOk r.payload 1 3
                      , need (inService s && allIdle s) St.refusedState ]
      (fun s => done (setRake (fun k => { k with left := groupsOf (fieldN r.payload 0 1) }) s)) s) s

theorem exec_rakeRun (r : Request) (w : WindowInput) (last : Fin 256) (s : State) :
    exec (.rakeRun r w last) s = .next (runIfAsked w last (rakeAsked r s)) := rfl

theorem runIfAsked_starts {s : State} (w : WindowInput) (last : Fin 256) (hleft : s.rake.left ≠ [])
    (h : s.power.phase ≠ .rake) :
    runIfAsked w last s = startRake 2 s.rake.left w last s := if_pos ⟨hleft, h⟩

theorem runIfAsked_rests {s : State} (w : WindowInput) (last : Fin 256) (hleft : s.rake.left = []) : runIfAsked w last s = s :=
  if_neg fun hc => hc.1 hleft

theorem SameModule.rake_eq {s t : State} (h : SameModule s t) : t.rake = s.rake := by rw [h]

section

variable {s : State} {r : Request} (w : WindowInput) (last : Fin 256) (hres : fieldN r.payload 1 3 = 0)

include hres in
theorem rakeRun_starts (hlo : 1 ≤ fieldN r.payload 0 1) (hhi : fieldN r.payload 0 1 < 64) (hservice : inService s = true)
    (hidle : allIdle s = true) (hphase : s.power.phase ≠ .rake) (h : Admitted (opLen 0x1002 [clsN] 4) r s) :
    Completes (.rakeRun r w last) s (fun t => ∃ v, Answers s r 0x1002 St.ok [] v ∧
      SameModule { s with rake := { s.rake with left := groupsOf (fieldN r.payload 0 1) } } v ∧
      t = startRake 2 (groupsOf (fieldN r.payload 0 1)) w last v) := by
  obtain ⟨hanswer, hsame⟩ : Answers s r 0x1002 St.ok [] (rakeAsked r s) ∧
      SameModule (setRake (fun k => { k with left := groupsOf (fieldN r.payload 0 1) }) s) (rakeAsked r s) :=
    host_takes (op := opLen 0x1002 [clsN] 4) (sameSender_of rfl rfl rfl)
      (fun x => guarded_pass (by simp [need, reservedOk_of hres, Nat.one_le_iff_ne_zero.mp hlo, hhi, hservice, hidle])) h
  have hleft : (rakeAsked r s).rake.left = groupsOf (fieldN r.payload 0 1) := congrArg Rake.left hsame.rake_eq
  have hpower : (rakeAsked r s).power = s.power := hsame.power_eq
  refine ⟨_, exec_rakeRun r w last s, _, hanswer, hsame, ?_⟩
  rw [runIfAsked_starts w last (hleft ▸ groupsOf_ne_nil hlo hhi) (hpower ▸ hphase), hleft]

/-- A request that is refused starts nothing. -/
theorem rakeRun_refuses {st : Nat} (hleft : s.rake.left = [])
    (ha : ∀ x : HostLink, guarded
      [ need (fieldN r.payload 0 1 ≠ 0 ∧ fieldN r.payload 0 1 < 64) St.range, reservedOk r.payload 1 3
        , need (inService (withHost x s) && allIdle (withHost x s)) St.refusedState ]
      (fun s => done (setRake (fun k => { k with left := groupsOf (fieldN r.payload 0 1) }) s)) (withHost x s) =
        (withHost x s, .now st [])) (h : Admitted (opLen 0x1002 [clsN] 4) r s) :
    Completes (.rakeRun r w last) s (fun t => Answers s r 0x1002 st [] t ∧ SameModule s t) := by
  obtain ⟨hanswer, hsame⟩ : Answers s r 0x1002 st [] (rakeAsked r s) ∧ SameModule s (rakeAsked r s) :=
    host_takes (op := opLen 0x1002 [clsN] 4) (sameSender_of rfl rfl rfl) ha h
  refine ⟨_, exec_rakeRun r w last s, ?_⟩
  rw [runIfAsked_rests w last ((congrArg Rake.left hsame.rake_eq).trans hleft)]
  exact ⟨hanswer, hsame⟩

end

/-! ### The statement -/

/-- Settles O60, by the end of a group. -/
theorem rakeCommands : Obligations.RakeCommands := by
  intro s r w last result straps recover
  refine ⟨maintenanceWindow_runs w last, fun h => congrArg Host.Outcome.next (if_neg (ne_true_of_eq_false h)),
    ⟨fun h => ?_, fun h => ?_⟩, rake_ignores result, fun hphase => ?_,
    fun hphase hleft => ⟨_, congrArg Host.Outcome.next (if_pos ⟨hphase, hleft⟩), rfl⟩, fun h => ?_,
    fun hres hleft hphase => ⟨fun hlo hhi hservice hidle hadm => ?_, fun hlo hhi h hadm => ?_, fun h hadm => ?_⟩⟩
  · refine ⟨_, (maintenanceWindowEnd_logs rfl).trans (congrArg Host.Outcome.next (if_pos h)), ?_, log_rake .., log_power ..⟩
    rw [log_general_head, newEntry_zeros]
    unfold heldBack
    split_ifs <;> rfl
  · exact (maintenanceWindowEnd_logs rfl).trans (congrArg Host.Outcome.next (if_neg (ne_true_of_eq_false h)))
  · refine ⟨fun g h l hleft => ?_, fun hleft hfirst => ?_, fun hhead => ?_, fun g hleft => ?_, rakeConditionTimeout_ends hphase⟩
    · have hraking : raking s = true := raking_iff.mpr ⟨hphase, by simp [hleft]⟩
      exact ⟨⟨_, exec_rakeGroupComplete result hraking, endGroup_next result hleft⟩,
        fun hagain => ⟨_, exec_rakePowerLimit_again hraking hagain, endGroup_next 4 hleft⟩⟩
    · exact ⟨_, exec_rakePowerLimit_first (raking_iff.mpr ⟨hphase, hleft⟩) hfirst, rfl⟩
    · exact congrArg Host.Outcome.next (if_neg fun hc => hhead hc.2)
    · exact ⟨_, exec_rakeGroupComplete result (raking_iff.mpr ⟨hphase, by simp [hleft]⟩), endGroup_ends result hleft⟩
  · exact congrArg Host.Outcome.next (if_neg fun hc => by tauto)
  · obtain ⟨t, hexec, v, hv⟩ := rakeRun_starts w last hres hlo hhi hservice hidle hphase hadm
    exact ⟨t, hexec, v, hv⟩
  · refine rakeRun_refuses w last hleft (fun x => guarded_stop ?_) hadm
    have hrefused : (inService s && allIdle s) = false := by
      rcases h with h | h <;> simp [h]
    simp [need, reservedOk_of hres, Nat.one_le_iff_ne_zero.mp hlo, hhi, hrefused, St.ok, St.refusedState]
  · refine rakeRun_refuses w last hleft (fun x => guarded_stop ?_) hadm
    have hrange : ¬(fieldN r.payload 0 1 ≠ 0 ∧ fieldN r.payload 0 1 < 64) := by
      rcases h with h | h <;> omega
    simp [need, hrange, St.ok, St.range]

end Sys2Proof.Machine

/-! # The two application domains (R353 to R366, R468) -/

namespace Sys2Proof.Machine

/-! ### Energy and the roles of the domains -/

/-- The energy registers, and what the domains hold beside their journal. -/
def roles (s : State) : Energy × Domains := (s.energy, { s.dom with journal := [], nextEntry := 0 })

theorem roles_of {s t : State} (he : t.energy = s.energy) (hd : t.dom = s.dom) : roles t = roles s := by
  rw [roles, roles, he, hd]

theorem energy_of_roles {s t : State} (h : roles t = roles s) : t.energy = s.energy := congrArg Prod.fst h

theorem active_of_roles {s t : State} (h : roles t = roles s) : t.dom.active = s.dom.active :=
  congrArg (fun x : Energy × Domains => x.2.active) h

theorem healthOf_of_roles {s t : State} (h : roles t = roles s) (d : Nat) : healthOf t d = healthOf s d := by
  unfold healthOf
  rw [show t.dom.healthA = s.dom.healthA from congrArg (fun x : Energy × Domains => x.2.healthA) h,
    show t.dom.healthB = s.dom.healthB from congrArg (fun x : Energy × Domains => x.2.healthB) h]

theorem seedOf_of_roles {s t : State} (h : roles t = roles s) (d : Nat) : seedOf t d = seedOf s d := by
  unfold seedOf
  rw [show t.dom.seed0 = s.dom.seed0 from congrArg (fun x : Energy × Domains => x.2.seed0) h,
    show t.dom.seed1 = s.dom.seed1 from congrArg (fun x : Energy × Domains => x.2.seed1) h]

theorem roles_of_besideLink {s t : State} (h : besideLink t = besideLink s) : roles t = roles s := by
  rw [eq_of_besideLink h]
  rfl

/-! ### Operations that leave them -/

theorem roles_journal (kind object seq : Nat) (s : State) : roles (journal kind object seq s) = roles s := by
  unfold journal
  split <;> rfl

theorem roles_addLegal (e : LogEntry) (s : State) : roles (addLegal e s) = roles s := by
  unfold addLegal
  split <;> rfl

theorem roles_log (origin sub code : Nat) (detail : List Byte) (legal : Bool) (s : State) :
    roles (log origin sub code detail legal s) = roles s := by
  have hgeneral (e : LogEntry) : roles (addGeneral e (journal 7 0 e.index s)) = roles s := roles_journal ..
  unfold log
  cases legal with
  | false => exact hgeneral _
  | true => exact (roles_addLegal ..).trans (hgeneral _)

theorem roles_sendEvent (p : Port) (cls opcode : Nat) (payload : List Byte) (s : State) :
    roles (sendEvent p cls opcode payload s) = roles s := by
  cases p <;> rfl

theorem roles_eventAll (cls opcode : Nat) (payload : List Byte) (s : State) : roles (eventAll cls opcode payload s) = roles s :=
  foldl_keeps roles (fun t p => if portOpen t p then sendEvent p cls opcode payload t else t) (fun t p => by
    split
    · exact roles_sendEvent ..
    · rfl) _ s

theorem roles_setSess (o : Outlet) (f : Session → Session) (s : State) : roles (setSess o f s) = roles s := rfl

theorem roles_goTo (o : Outlet) (x : SState) (s : State) : roles (goTo o x s) = roles s := by
  unfold goTo
  dsimp only
  rw [roles_eventAll]
  split <;> exact roles_journal ..

theorem roles_writeReply (o : Outlet) (f : StandingFields) (s : State) : roles (writeReply o f s) = roles s := by
  unfold writeReply
  dsimp only
  split
  · exact (roles_of_besideLink (commandGen_besideLink ..)).trans (roles_journal ..)
  · exact roles_journal ..

theorem roles_renewReply (o : Outlet) (s : State) : roles (renewReply o s) = roles s := by
  unfold renewReply
  split
  · exact roles_writeReply ..
  · rfl

theorem roles_renewReplies (s : State) : roles (renewReplies s) = roles s := forOutlets_keeps roles roles_renewReply s

theorem roles_scrAction (o : Outlet) (row : Nat) (cuts : Bool) (measured limit : List Byte) (s : State) :
    roles (scrAction o row cuts measured limit s) = roles s := by
  by_cases h : (if cuts then (s.hedge.scr.get o).cut else (s.hedge.scr.get o).ramp) = true
  · exact congrArg roles (if_pos h)
  · exact (congrArg roles (if_neg h)).trans (roles_log ..)

theorem roles_withhold (o : Outlet) (p : Setpoint) (s : State) : roles (withhold o p s) = roles s := by
  unfold withhold
  split
  · exact roles_scrAction ..
  · split
    · exact roles_scrAction ..
    · exact roles_scrAction ..

theorem roles_sendSetpoint (o : Outlet) (s : State) : roles (sendSetpoint o s) = roles s :=
  foldl_keeps roles (fun t f => sendCan f t) (fun t f => by unfold sendCan; split <;> rfl) _ s

theorem roles_putSetpoint (o : Outlet) (p : Setpoint) (s : State) : roles (putSetpoint o p s) = roles s := by
  unfold putSetpoint releaseSetpoint
  dsimp only
  split
  · rfl
  · split
    · exact (roles_sendSetpoint ..).trans (roles_journal ..)
    · exact (roles_withhold ..).trans (roles_journal ..)

theorem roles_enterS0 (o : Outlet) (s : State) : roles (enterS0 o s) = roles s := by
  rw [enterS0, roles_of_besideLink (commandGen_besideLink ..), applyAvailability, roles_setSess, roles_goTo, roles_setSess]

theorem roles_enterS9 (o : Outlet) (s : State) : roles (enterS9 o s) = roles s := by
  rw [enterS9, roles_of_besideLink (commandGen_besideLink ..), applyAvailability, roles_setSess, roles_goTo]

theorem roles_enterS7 (o : Outlet) (cause : Nat) (s : State) : roles (enterS7 o cause s) = roles s := by
  unfold enterS7
  dsimp only
  rw [roles_renewReply]
  split
  · exact (roles_of_besideLink (commandGen_besideLink ..)).trans ((roles_putSetpoint ..).trans (roles_goTo ..))
  · exact (roles_putSetpoint ..).trans (roles_goTo ..)

theorem roles_signed (s : State) : roles (signed s) = roles s := by
  unfold signed
  split
  · split
    · exact (roles_log ..).trans (putStatements_keeps roles (fun _ _ _ => rfl) _ (draw s))
    · rfl
  · rfl

theorem roles_debit (i : Nat) (cost : Int) (s : State) : roles (debit i cost s) = roles s := by
  unfold debit
  split <;> rfl

theorem roles_snapshot (ms : List Nat) (s : State) : roles (snapshot ms s) = roles s :=
  foldl_keeps roles _ (fun _ _ => roles_log ..) ms s

theorem roles_closeRecord (o : Outlet) (reason : Nat) (s : State) : roles (closeRecord o reason s) = roles s := by
  unfold closeRecord
  split
  · rfl
  · dsimp only
    rw [roles_log]
    split
    · exact (roles_debit ..).trans (roles_signed _)
    · exact roles_signed _

theorem roles_closeSession (o : Outlet) (reason : Nat) (s : State) : roles (closeSession o reason s) = roles s := by
  cases h : (sessOf s o).closed with
  | true => rw [closeSession_of_closed reason h]
  | false =>
    rw [closeSession_of_open reason h, roles_of_besideLink (endLink_besideLink ..), roles_log,
      sessionEnded, roles_setSess, recordClosed, roles_closeRecord, roles_snapshot, roles_setSess]

theorem roles_giveCause (o : Outlet) (cause : Nat) (s : State) : roles (giveCause o cause s) = roles s := by
  cases h : causeStep s o cause with
  | none =>
    rcases giveCause_of_none h with hgive | hgive
    · rw [hgive]
      exact roles_log ..
    · rw [hgive]
  | some f =>
    have hnote : roles (giveCause o cause s) = roles (f s) := by
      rw [giveCause_of_some h]
      rfl
    rw [hnote]
    rcases causeStep_cases h with rfl | rfl | rfl | rfl
    · exact (roles_enterS0 ..).trans (roles_closeSession ..)
    · exact (roles_enterS9 ..).trans (roles_closeSession ..)
    · exact roles_enterS7 ..
    · exact roles_log ..

theorem roles_cutSessions (s : State) : roles (cutSessions s) = roles s :=
  forOutlets_keeps roles (fun o t => by
    split
    · exact roles_giveCause ..
    · rfl) s

theorem roles_restoreDomain (seed : Option Nat) (s : State) : roles (restoreDomain seed s) = roles s := by
  unfold restoreDomain
  rw [roles_renewReplies]
  split
  · exact roles_cutSessions s
  · rfl

theorem roles_logTakeover (cause source target slot : Nat) (cycle : U32) (replayed gap : Nat) (s : State) :
    roles (logTakeover cause source target slot cycle replayed gap s) = roles s := roles_log ..

theorem roles_logRestart (cause result : Nat) (s : State) : roles (logRestart cause result s) = roles s := roles_log ..

/-! ### Control moves (R362) -/

/-- The other domain is active. -/
def controlMoved (cause : Nat) (x : Domains) : Domains :=
  { x with active := 1 - x.active, takeovers := x.takeovers + 1, lastCause := cause }

theorem roles_moveControl (cause : Nat) (seed : Option Nat) (replayed : Nat) (s : State) :
    roles (moveControl cause seed replayed s) = roles (setDom (controlMoved cause) s) :=
  (roles_logTakeover ..).trans (roles_restoreDomain ..)

theorem journal_hedge (kind object seq : Nat) (s : State) : (journal kind object seq s).hedge = s.hedge := by rw [journal_eq]

theorem renewReply_hedge (o : Outlet) (s : State) : (renewReply o s).hedge = s.hedge := by
  unfold renewReply writeReply
  dsimp only
  split
  · split
    · exact (hedge_of_besideLink (commandGen_besideLink ..)).trans (journal_hedge ..)
    · exact journal_hedge ..
  · rfl

/-- With a seed, what the module released stands: only the standing replies are renewed. -/
theorem moveControl_seeded {seed : Option Nat} (hseed : seed.isSome = true) (cause replayed : Nat) (s : State) :
    (moveControl cause seed replayed s).sess = s.sess ∧ (moveControl cause seed replayed s).hedge = s.hedge ∧
      (moveControl cause seed replayed s).sun = s.sun := by
  have hnone : ¬ seed.isNone = true := by
    cases seed with
    | none => cases hseed
    | some x => simp
  have hrestore (t : State) : restoreDomain seed t = renewReplies t := congrArg renewReplies (if_neg hnone)
  unfold moveControl
  dsimp only
  rw [hrestore]
  refine ⟨(log_sess ..).trans ?_, (log_hedge ..).trans ?_, (sun_of_calm (logTakeover_calm ..)).trans ?_⟩
  · exact (forOutlets_keeps State.sess renewReply_sess _).trans rfl
  · exact (forOutlets_keeps State.hedge renewReply_hedge _).trans rfl
  · exact (sun_of_calm (renewReplies_calm _)).trans rfl

/-! ### Health words (R356) -/

theorem setHealth_cases (d : Nat) (w : BitVec 32) (s : State) :
    let u := setDom (fun x => if d = 0 then { x with healthA := w } else { x with healthB := w }) s
    setHealth d w s = u ∨ setHealth d w s =
      log 0 0x0C 0x0C03 ([byte d, 0, 0, 0] ++ wordBytes 4 (healthOf s d) ++ wordBytes 4 w) false u :=
  (Decidable.em _).imp (fun h => if_pos h) (fun h => if_neg h)

/-- A domain's health word is replaced. -/
def healthPut (d : Nat) (w : BitVec 32) (x : Domains) : Domains :=
  { x with healthA := if d = 0 then w else x.healthA, healthB := if d = 0 then x.healthB else w }

theorem roles_setHealth (d : Nat) (w : BitVec 32) (s : State) :
    roles (setHealth d w s) = ((roles s).1, healthPut d w (roles s).2) := by
  have hput : roles (setDom (fun x => if d = 0 then { x with healthA := w } else { x with healthB := w }) s) =
      ((roles s).1, healthPut d w (roles s).2) := by
    unfold roles setDom healthPut
    split <;> rfl
  rcases setHealth_cases d w s with h | h
  · rw [h, hput]
  · rw [h, roles_log, hput]

/-- The health word of a domain, as the roles give it. -/
def healthIn (x : Domains) (d : Nat) : BitVec 32 := if d = 0 then x.healthA else x.healthB

theorem healthOf_eq (s : State) (d : Nat) : healthOf s d = healthIn (roles s).2 d := rfl

theorem healthIn_healthPut (d : Nat) (w : BitVec 32) (x : Domains) : healthIn (healthPut d w x) d = w := by
  unfold healthIn healthPut
  split <;> rfl

theorem healthIn_healthPut_other {d d' : Nat} (h : d' = 0 ↔ d ≠ 0) (w : BitVec 32) (x : Domains) :
    healthIn (healthPut d w x) d' = healthIn x d' := by
  unfold healthIn healthPut
  by_cases hd : d = 0 <;> simp [hd, h]

theorem healthOf_setHealth (d : Nat) (w : BitVec 32) (s : State) : healthOf (setHealth d w s) d = w := by
  rw [healthOf_eq, roles_setHealth, healthIn_healthPut]

theorem healthOf_setHealth_other {d d' : Nat} (h : d' = 0 ↔ d ≠ 0) (w : BitVec 32) (s : State) :
    healthOf (setHealth d w s) d' = healthOf s d' := by
  rw [healthOf_eq, roles_setHealth, healthIn_healthPut_other h, healthOf_eq]

theorem setHealth_sess (d : Nat) (w : BitVec 32) (s : State) : (setHealth d w s).sess = s.sess := by
  rcases setHealth_cases d w s with h | h
  · rw [h]; rfl
  · rw [h, log_sess]; rfl

theorem setHealth_hedge (d : Nat) (w : BitVec 32) (s : State) : (setHealth d w s).hedge = s.hedge := by
  rcases setHealth_cases d w s with h | h
  · rw [h]; rfl
  · rw [h, log_hedge]; rfl

theorem setHealth_sun (d : Nat) (w : BitVec 32) (s : State) : (setHealth d w s).sun = s.sun := by
  rcases setHealth_cases d w s with h | h
  · rw [h]; rfl
  · rw [h, log_sun]; rfl

theorem standby_other (s : State) : standby s = 0 ↔ s.dom.active ≠ 0 := by
  unfold standby
  omega

theorem active_other (s : State) : s.dom.active = 0 ↔ standby s ≠ 0 := by
  unfold standby
  omega

/-! ### A failure of the active domain (R362, R364) -/

theorem roles_setDom {f : Domains → Domains}
    (hf : ∀ x, { f x with journal := [], nextEntry := 0 } = f { x with journal := [], nextEntry := 0 }) (s : State) :
    roles (setDom f s) = ((roles s).1, f (roles s).2) := Prod.ext rfl (hf s.dom)

/-- The domain that failed is out, and no switch waits. -/
def failureNoted (a : Nat) (x : Domains) : Domains := { x with failed := some a, switchTo := false }

/-- What the seed and the journal give the domain that takes over. -/
def tookOver (cause : Nat) (s : State) : State :=
  moveControl cause (chooseSeed s) ((chooseSeed s).elim 0 (fun x => entriesSince s (seedOf s x)))
    (setDom (failureNoted s.dom.active) s)

/-- The health word of a domain that has failed. -/
def failedWord (w : BitVec 32) : BitVec 32 :=
  withBit (withoutBit (withoutBit w Health.ready) Health.sweeping) Health.rakePending

theorem takeOver_eligible {s : State} (cause : Nat) (i : StartInput) (h : eligible s (standby s) = true) :
    takeOver cause i s = setHealth s.dom.active (failedWord (healthOf (tookOver cause s) s.dom.active)) (tookOver cause s) :=
  if_pos h

theorem takeOver_ineligible {s : State} (cause : Nat) (i : StartInput) (h : eligible s (standby s) = false) :
    takeOver cause i s = restartInPlace cause i s := if_neg (ne_true_of_eq_false h)

theorem roles_tookOver (cause : Nat) (s : State) :
    roles (tookOver cause s) = ((roles s).1, controlMoved cause (failureNoted s.dom.active (roles s).2)) := by
  rw [tookOver, roles_moveControl, roles_setDom (fun _ => rfl), roles_setDom (fun _ => rfl)]

theorem roles_takenOver {s : State} (cause : Nat) (i : StartInput) (h : eligible s (standby s) = true) :
    roles (takeOver cause i s) = ((roles s).1, healthPut s.dom.active (failedWord (healthOf (tookOver cause s) s.dom.active))
      (controlMoved cause (failureNoted s.dom.active (roles s).2))) := by
  rw [takeOver_eligible cause i h, roles_setHealth, roles_tookOver]

theorem failedWord_bits (w : BitVec 32) : (failedWord w).getLsbD 0 = false ∧ (failedWord w).getLsbD 5 = true := by
  refine ⟨?_, getLsbD_withBit _ (by decide)⟩
  rw [failedWord, getLsbD_withBit_other _ (by decide), getLsbD_withoutBit_other _ (by decide)]
  exact getLsbD_withoutBit w

/-- The failures of the active domain, with the cause of each (R353). -/
theorem exec_failure {s : State} {i : StartInput} (h : domainRuns s = true) {c : Instr × Nat}
    (hc : c ∈ [(Instr.miscompare i, 1), (Instr.watchdogExpiry i, 3)]) : exec c.1 s = .next (takeOver c.2 i s) := by
  simp only [List.mem_cons, List.not_mem_nil, or_false] at hc
  rcases hc with rfl | rfl
  · exact congrArg Host.Outcome.next (if_pos h)
  · exact congrArg Host.Outcome.next (if_pos h)

theorem failure_takes_over {s : State} {i : StartInput} {c : Instr × Nat} (hexec : exec c.1 s = .next (takeOver c.2 i s))
    (h : eligible s (standby s) = true) :
    Completes c.1 s (fun t =>
      t.dom.active = 1 - s.dom.active ∧ t.dom.takeovers = s.dom.takeovers + 1 ∧ t.dom.lastCause = c.2 ∧
      t.dom.failed = some s.dom.active ∧ t.dom.switchTo = false ∧ (healthOf t s.dom.active).getLsbD 0 = false ∧
      (healthOf t s.dom.active).getLsbD 5 = true ∧ healthOf t (standby s) = healthOf s (standby s) ∧ t.energy = s.energy ∧
      t.otp = s.otp ∧
      ((chooseSeed s).isSome = true → ∀ o : Outlet, (sessOf t o).state = (sessOf s o).state ∧
        (t.hedge.out.get o) = (s.hedge.out.get o) ∧ causesNow t o = causesNow s o)) := by
  have hroles := roles_takenOver c.2 i h
  have hdom {α : Type} (g : Domains → α) : g (roles (takeOver c.2 i s)).2 = _ := congrArg (fun x => g x.2) hroles
  have hactive : healthOf (takeOver c.2 i s) s.dom.active = failedWord (healthOf (tookOver c.2 s) s.dom.active) := by
    rw [healthOf_eq, hroles, healthIn_healthPut]
  obtain ⟨hready, hpending⟩ := failedWord_bits (healthOf (tookOver c.2 s) s.dom.active)
  refine ⟨_, hexec, hdom Domains.active, hdom Domains.takeovers, hdom Domains.lastCause, hdom Domains.failed,
    hdom Domains.switchTo, hactive ▸ hready, hactive ▸ hpending, ?_, congrArg Prod.fst hroles, ?_, fun hseed o => ?_⟩
  · rw [healthOf_eq, hroles, healthIn_healthPut_other (standby_other s)]
    rfl
  · rw [takeOver_eligible c.2 i h]
    exact otp_of_kept (by simp [tookOver])
  · obtain ⟨hsess, hhedge, hsun⟩ := moveControl_seeded hseed c.2
      ((chooseSeed s).elim 0 (fun x => entriesSince s (seedOf s x))) (setDom (failureNoted s.dom.active) s)
    have hsess' : (takeOver c.2 i s).sess = s.sess := by
      rw [takeOver_eligible c.2 i h, setHealth_sess]
      exact hsess
    have hhedge' : (takeOver c.2 i s).hedge = s.hedge := by
      rw [takeOver_eligible c.2 i h, setHealth_hedge]
      exact hhedge
    have hsun' : (takeOver c.2 i s).sun = s.sun := by
      rw [takeOver_eligible c.2 i h, setHealth_sun]
      exact hsun
    rw [causesNow, causesNow, sessOf, sessOf, hsess', hhedge', hsun']
    exact ⟨rfl, rfl, rfl⟩

/-- A restart in place. -/
def restarted (cause : Nat) (s : State) : State :=
  logRestart cause 0 (restoreDomain (chooseSeed s)
    (setDom (fun x => { x with restarts := s.clockMs :: recentRestarts s, lastCause := cause }) s))

theorem restartInPlace_eq (cause : Nat) (i : StartInput) (s : State) :
    restartInPlace cause i s = if cfgN s 0x0C03 0 0 1 3 < (recentRestarts s).length + 1 then
      warmRestart 6 i (logRestart cause 1 s) else restarted cause s := rfl

theorem roles_restarted (cause : Nat) (s : State) : roles (restarted cause s) =
    ((roles s).1, { (roles s).2 with restarts := s.clockMs :: recentRestarts s, lastCause := cause }) := by
  rw [restarted, roles_logRestart, roles_restoreDomain, roles_setDom fun _ => rfl]

/-- A restart in place within the limit of the last hour, and a warm reset beyond it. -/
theorem failure_restarts {s : State} {i : StartInput} {c : Instr × Nat} (hexec : exec c.1 s = .next (takeOver c.2 i s))
    (h : eligible s (standby s) = false) :
    ((recentRestarts s).length + 1 ≤ cfgN s 0x0C03 0 0 1 3 → Completes c.1 s (fun t =>
      t.dom.active = s.dom.active ∧ t.dom.lastCause = c.2 ∧ t.dom.restarts = s.clockMs :: recentRestarts s ∧
      t.dom.takeovers = s.dom.takeovers ∧ t.energy = s.energy)) ∧
    (cfgN s 0x0C03 0 0 1 3 < (recentRestarts s).length + 1 →
      Completes c.1 s (fun t => t = warmRestart 6 i (logRestart c.2 1 s))) := by
  rw [takeOver_ineligible c.2 i h, restartInPlace_eq] at hexec
  refine ⟨fun hroom => ?_, fun hfull => ?_⟩
  · rw [if_neg (Nat.not_lt.mpr hroom)] at hexec
    have hroles := roles_restarted c.2 s
    generalize restarted c.2 s = t at hexec hroles
    have hdom {α : Type} (g : Domains → α) : g (roles t).2 = _ := congrArg (fun x => g x.2) hroles
    exact ⟨_, hexec, hdom Domains.active, hdom Domains.lastCause, hdom Domains.restarts, hdom Domains.takeovers,
      congrArg Prod.fst hroles⟩
  · rw [if_pos hfull] at hexec
    exact ⟨_, hexec, rfl⟩

end Sys2Proof.Machine

/-! # Seeds, switches, and the standby (R355 to R359, R365, R366, R468) -/

namespace Sys2Proof.Machine

/-! ### Seeds (R359) -/

/-- The seed that is written now. -/
def freshSeed (flagBits clocks : Nat) (s : State) : Seed :=
  { good := true, writer := s.dom.active, flags := flagBits, cycle := s.sun.cycle, epoch := s.sun.epoch
    first := s.dom.nextEntry, version := runningVersion s 2, serial := s.cfg.serial
    image := some (seedImage s), latch := some clocks }

/-- A seed goes into the slot not written last. -/
def seedPut (x : Seed) (d : Domains) : Domains :=
  { d with
    newest := 1 - d.newest, seed0 := if 1 - d.newest = 0 then x else d.seed0
    seed1 := if 1 - d.newest = 0 then d.seed1 else x }

theorem roles_writeSeed (flagBits clocks : Nat) (s : State) :
    roles (writeSeed flagBits clocks s) = ((roles s).1, seedPut (freshSeed flagBits clocks s) (roles s).2) := by
  unfold writeSeed
  dsimp only
  split
  · rw [roles_logTakeover]
    rfl
  · rfl

/-- The seed in a slot, as the roles give it. -/
def seedIn (d : Domains) (slot : Nat) : Seed := if slot = 0 then d.seed0 else d.seed1

theorem seedOf_eq (s : State) (slot : Nat) : seedOf s slot = seedIn (roles s).2 slot := rfl

theorem seedIn_seedPut (x : Seed) (d : Domains) : seedIn (seedPut x d) (seedPut x d).newest = x := by
  unfold seedIn seedPut
  dsimp only
  split <;> rfl

/-- A switch at a steady point writes its seed, and control moves (R365, R366). -/
def switchNoted (cause : Nat) (d : Domains) : Domains :=
  { d with switchTo := false, suspended := if cause = 4 then true else d.suspended }

theorem roles_switchDomain (cause flagBits clocks : Nat) (s : State) :
    roles (switchDomain cause flagBits clocks s) =
      ((roles s).1, controlMoved cause (switchNoted cause (seedPut (freshSeed flagBits clocks s) (roles s).2))) := by
  unfold switchDomain
  dsimp only
  rw [roles_moveControl, roles_setDom (fun _ => rfl), roles_setDom (fun _ => rfl), roles_writeSeed]
  rfl

theorem writeSeed_power_update (flagBits clocks : Nat) (s : State) :
    (writeSeed flagBits clocks s).power = s.power ∧ (writeSeed flagBits clocks s).update = s.update := by
  unfold writeSeed
  dsimp only
  split
  · exact ⟨power_of_calm (logTakeover_calm ..), update_of_calm (logTakeover_calm ..)⟩
  · exact ⟨rfl, rfl⟩

/-! ### SEED_WRITE (R359, R418) -/

theorem reachAngle_eq (angle : Nat) (s : State) :
    reachAngle angle s = { s with sun := { s.sun with angle := angle, frac := 0 }, fabric := (reachAngle angle s).fabric
                                  out := (reachAngle angle s).out } := by
  have hrest := eq_of_besideDial (reachAngle_keeps besideDial (fun _ _ => rfl) (fun _ _ => rfl) angle s)
  rw [reachAngle_sun] at hrest
  exact hrest

/-- The first seed after a start completes the boot. -/
def bootCompleted (booting : Prop) [Decidable booting] (v : State) : State :=
  if booting then
    setUpdate (fun u => { u with completed := true }) (ledgerEnd 0x00 { v with power := { v.power with phase := .running } })
  else v

theorem exec_seedWrite {s : State} (clocks : Nat) (h : domainRuns s = true) :
    exec (.seedWrite clocks) s = .next (bootCompleted ((reachAngle 49152 s).power.phase = .booting)
      (if (reachAngle 49152 s).dom.switchTo && steady (reachAngle 49152 s) &&
          eligible (reachAngle 49152 s) (standby (reachAngle 49152 s)) then
        switchDomain 4 2 clocks (reachAngle 49152 s)
      else writeSeed 0 clocks (reachAngle 49152 s))) := by
  have hruns : ¬ (!domainRuns s) = true := by simp [h]
  exact congrArg Host.Outcome.next (if_neg hruns)

theorem roles_bootCompleted (booting : Prop) [Decidable booting] (v : State) : roles (bootCompleted booting v) = roles v := by
  unfold bootCompleted
  split <;> rfl

/-- What the domains' decisions read of the state stands while the dial goes on. -/
theorem switchDue_reach (angle : Nat) (s : State) :
    ((reachAngle angle s).dom.switchTo && steady (reachAngle angle s) &&
      eligible (reachAngle angle s) (standby (reachAngle angle s))) = (s.dom.switchTo && steady s && eligible s (standby s)) := by
  rw [reachAngle_eq]
  rfl

theorem roles_reachAngle (angle : Nat) (s : State) : roles (reachAngle angle s) = roles s := by
  rw [reachAngle_eq]
  rfl

/-- A seed that was written is the newest one. -/
theorem newest_of_seedPut {t : State} {x : Seed} {d : Domains} (h : (roles t).2 = seedPut x d) :
    t.dom.newest = 1 - d.newest ∧ seedOf t t.dom.newest = x ∧ t.dom.active = d.active := by
  have hactive : (roles t).2.active = (seedPut x d).active := congrArg Domains.active h
  refine ⟨congrArg Domains.newest h, ?_, hactive⟩
  rw [seedOf_eq, show t.dom.newest = (roles t).2.newest from rfl, h]
  exact seedIn_seedPut x d

theorem seedWrite_writes {s : State} (clocks : Nat) (h : domainRuns s = true)
    (hdue : (s.dom.switchTo && steady s && eligible s (standby s)) = false) :
    Completes (.seedWrite clocks) s (fun t =>
      t.dom.newest = 1 - s.dom.newest ∧ (seedOf t t.dom.newest).good = true ∧ (seedOf t t.dom.newest).cycle = s.sun.cycle ∧
      (seedOf t t.dom.newest).epoch = s.sun.epoch ∧ (seedOf t t.dom.newest).writer = s.dom.active ∧
      (seedOf t t.dom.newest).latch = some clocks ∧ t.dom.active = s.dom.active ∧
      (s.power.phase = .booting → t.power.phase = .running ∧ t.update.completed = true ∧
        t.update.ledger = (ledgerEnd 0 s).update.ledger) ∧
      (s.power.phase ≠ .booting → t.power = s.power ∧ t.update = s.update)) := by
  have hexec := exec_seedWrite clocks h
  rw [switchDue_reach, if_neg (ne_true_of_eq_false hdue)] at hexec
  have hseed : freshSeed 0 clocks (reachAngle 49152 s) = freshSeed 0 clocks s := by
    rw [reachAngle_eq]
    rfl
  have hroles := roles_writeSeed 0 clocks (reachAngle 49152 s)
  rw [roles_reachAngle, hseed] at hroles
  obtain ⟨hnewest, hslot, hactive⟩ := newest_of_seedPut (congrArg Prod.snd ((roles_bootCompleted
    ((reachAngle 49152 s).power.phase = .booting) (writeSeed 0 clocks (reachAngle 49152 s))).trans hroles))
  obtain ⟨hpower, hupdate⟩ := writeSeed_power_update 0 clocks (reachAngle 49152 s)
  have hphase : (reachAngle 49152 s).power = s.power := by rw [reachAngle_eq]
  have hstart : (reachAngle 49152 s).update = s.update := by rw [reachAngle_eq]
  refine ⟨_, hexec, ?_⟩
  dsimp only
  rw [hslot]
  refine ⟨hnewest, rfl, rfl, rfl, rfl, rfl, hactive, fun hboot => ?_, fun hboot => ?_⟩
  · rw [bootCompleted, if_pos (hphase ▸ hboot)]
    refine ⟨rfl, rfl, ?_⟩
    show (match (writeSeed 0 clocks (reachAngle 49152 s)).update.ledger with
      | [] => []
      | e :: l => (if e = 0x0F then 0 else e) :: l) = _
    rw [hupdate, hstart]
    rfl
  · rw [bootCompleted, if_neg (hphase ▸ hboot)]
    exact ⟨hpower.trans hphase, hupdate.trans hstart⟩

/-- A commanded switch or a handback: the other domain is active, and the seed carries the flag (R365, R366). -/
theorem switched_of_roles {t s : State} {cause flagBits clocks : Nat} (h : (roles t).2 =
      controlMoved cause (switchNoted cause (seedPut (freshSeed flagBits clocks s) (roles s).2))) :
    t.dom.active = 1 - s.dom.active ∧ t.dom.lastCause = cause ∧ t.dom.takeovers = s.dom.takeovers + 1 ∧
      t.dom.switchTo = false ∧ (cause = 4 → t.dom.suspended = true) ∧ t.dom.newest = 1 - s.dom.newest ∧
      (seedOf t t.dom.newest).flags = flagBits := by
  refine ⟨congrArg Domains.active h, congrArg Domains.lastCause h, congrArg Domains.takeovers h, congrArg Domains.switchTo h,
    fun hcause => (congrArg Domains.suspended h).trans (if_pos hcause), congrArg Domains.newest h, ?_⟩
  rw [seedOf_eq, show t.dom.newest = (roles t).2.newest from rfl, h]
  exact congrArg Seed.flags (seedIn_seedPut (freshSeed flagBits clocks s) (roles s).2)

theorem seedWrite_switches {s : State} (clocks : Nat) (h : domainRuns s = true)
    (hdue : (s.dom.switchTo && steady s && eligible s (standby s)) = true) :
    Completes (.seedWrite clocks) s (fun t =>
      t.dom.active = 1 - s.dom.active ∧ t.dom.lastCause = 4 ∧ t.dom.switchTo = false ∧ t.dom.suspended = true ∧
      t.dom.newest = 1 - s.dom.newest ∧ (seedOf t t.dom.newest).flags = 2) := by
  have hexec := exec_seedWrite clocks h
  rw [switchDue_reach, if_pos hdue] at hexec
  have hroles := roles_switchDomain 4 2 clocks (reachAngle 49152 s)
  rw [roles_reachAngle, show freshSeed 2 clocks (reachAngle 49152 s) = freshSeed 2 clocks s by rw [reachAngle_eq]; rfl] at hroles
  obtain ⟨hactive, hcause, -, hswitch, hsuspended, hnewest, hflags⟩ := switched_of_roles (s := s) (congrArg Prod.snd
    ((roles_bootCompleted ((reachAngle 49152 s).power.phase = .booting) (switchDomain 4 2 clocks (reachAngle 49152 s))).trans
      hroles))
  exact ⟨_, hexec, hactive, hcause, hswitch, hsuspended rfl, hnewest, hflags⟩

theorem handback_hands_back {s : State} (h : (domainRuns s && s.dom.active == 1 && eligible s 0 && cfgN s 0x0C01 0 0 1 2 == 2 &&
      !handbackSuspended s && steady s) = true) :
    Completes .handback s (fun t =>
      t.dom.active = 0 ∧ t.dom.lastCause = 5 ∧ t.dom.takeovers = s.dom.takeovers + 1 ∧
        (seedOf t t.dom.newest).flags = 1) := by
  have hb : s.dom.active = 1 := by
    simp only [Bool.and_eq_true, beq_iff_eq] at h
    exact h.1.1.1.1.2
  obtain ⟨hactive, hcause, htakeovers, -, -, -, hflags⟩ :=
    switched_of_roles (s := s) (congrArg Prod.snd (roles_switchDomain 5 1 0 s))
  exact ⟨_, congrArg Host.Outcome.next (if_pos h), hactive.trans (by rw [hb]), hcause, htakeovers, hflags⟩

/-! ### The standby's sweep and test (R355, R356, R468) -/

theorem getLsbD_checkBit {w : BitVec 32} {b : Nat} (h : b < 32) (ok : Bool) : (checkBit w b ok).getLsbD b = !ok := by
  cases ok with
  | false => exact getLsbD_withBit w h
  | true => exact getLsbD_withoutBit w

theorem getLsbD_checkBit_other {w : BitVec 32} {b j : Nat} (h : j ≠ b) (ok : Bool) :
    (checkBit w b ok).getLsbD j = w.getLsbD j := by
  cases ok with
  | false => exact getLsbD_withBit_other w h
  | true => exact getLsbD_withoutBit_other w h

/-- The sweep count is above the bits of the word. -/
theorem getLsbD_swept (w : BitVec 32) (n : Nat) {j : Nat} (h : j < 16) :
    ((w &&& 0xFF00FFFF#32) ||| BitVec.ofNat 32 (n * 65536)).getLsbD j = w.getLsbD j := by
  have hcount : (n * 65536).testBit j = false := by
    rw [show 65536 = 2 ^ 16 from rfl, Nat.testBit_mul_two_pow]
    simp [Nat.not_le.mpr h]
  have hmask : ∀ j < 16, (0xFF00FFFF#32).getLsbD j = true := by decide
  rw [BitVec.getLsbD_or, BitVec.getLsbD_and, hmask j h, BitVec.getLsbD_ofNat, hcount]
  simp

/-- The word with the sweep count and the four checks. -/
def checkedWord (w : BitVec 32) (x : SweepResult) : BitVec 32 :=
  checkBit (checkBit (checkBit (checkBit (withBit ((w &&& 0xFF00FFFF#32) |||
    BitVec.ofNat 32 ((w.toNat / 65536 + 1) % 256 * 65536)) 1) 3 x.core) 2 x.memory)
    7 x.seed) 8 x.clock

/-- A check of the sweep has failed. -/
def sweepBad (x : SweepResult) : Bool := !(x.core && x.memory && x.seed && x.clock)

theorem sweptWord_eq (w : BitVec 32) (x : SweepResult) : sweptWord w x =
    checkBit (if sweepBad x then withBit (checkedWord w x) 5 else checkedWord w x) 0
      (sweepBad x || !x.code) := rfl

/-- The checks alone decide the bits other than READY and RAKE_PENDING. -/
theorem sweptWord_checked (w : BitVec 32) (x : SweepResult) {j : Nat} (h0 : j ≠ 0) (h5 : j ≠ 5) :
    (sweptWord w x).getLsbD j = (checkedWord w x).getLsbD j := by
  rw [sweptWord_eq, getLsbD_checkBit_other h0]
  split
  · exact getLsbD_withBit_other _ h5
  · rfl

/-- The checks leave the bits of which they say nothing. -/
theorem checkedWord_other (w : BitVec 32) (x : SweepResult) {j : Nat} (hj : j < 16) (h : j ∉ [1, 2, 3, 7, 8]) :
    (checkedWord w x).getLsbD j = w.getLsbD j := by
  simp only [List.mem_cons, List.not_mem_nil, or_false, not_or] at h
  obtain ⟨h1, h2, h3, h7, h8⟩ := h
  rw [checkedWord, getLsbD_checkBit_other h8, getLsbD_checkBit_other h7, getLsbD_checkBit_other h2, getLsbD_checkBit_other h3,
    getLsbD_withBit_other _ h1, getLsbD_swept w _ hj]

theorem checkedWord_bits (w : BitVec 32) (x : SweepResult) :
    (checkedWord w x).getLsbD 1 = true ∧ (checkedWord w x).getLsbD 2 = !x.memory ∧ (checkedWord w x).getLsbD 3 = !x.core ∧
    (checkedWord w x).getLsbD 7 = !x.seed ∧ (checkedWord w x).getLsbD 8 = !x.clock := by
  unfold checkedWord
  refine ⟨?_, ?_, ?_, ?_, getLsbD_checkBit (by decide) _⟩
  · rw [getLsbD_checkBit_other (by decide), getLsbD_checkBit_other (by decide), getLsbD_checkBit_other (by decide),
      getLsbD_checkBit_other (by decide)]
    exact getLsbD_withBit _ (by decide)
  · rw [getLsbD_checkBit_other (by decide), getLsbD_checkBit_other (by decide)]
    exact getLsbD_checkBit (by decide) _
  · rw [getLsbD_checkBit_other (by decide), getLsbD_checkBit_other (by decide), getLsbD_checkBit_other (by decide)]
    exact getLsbD_checkBit (by decide) _
  · rw [getLsbD_checkBit_other (by decide)]
    exact getLsbD_checkBit (by decide) _

/-- The bits that a sweep sets and clears. -/
theorem sweptWord_bits (w : BitVec 32) (x : SweepResult) :
    (sweptWord w x).getLsbD 0 = (!sweepBad x && x.code) ∧ (sweptWord w x).getLsbD 1 = true ∧
    (sweptWord w x).getLsbD 2 = !x.memory ∧ (sweptWord w x).getLsbD 3 = !x.core ∧ (sweptWord w x).getLsbD 7 = !x.seed ∧
    (sweptWord w x).getLsbD 8 = !x.clock ∧ (sweptWord w x).getLsbD 5 = (sweepBad x || w.getLsbD 5) := by
  obtain ⟨h1, h2, h3, h7, h8⟩ := checkedWord_bits w x
  refine ⟨?_, (sweptWord_checked w x (by decide) (by decide)).trans h1, (sweptWord_checked w x (by decide) (by decide)).trans h2,
    (sweptWord_checked w x (by decide) (by decide)).trans h3, (sweptWord_checked w x (by decide) (by decide)).trans h7,
    (sweptWord_checked w x (by decide) (by decide)).trans h8, ?_⟩
  · rw [sweptWord_eq]
    refine (getLsbD_checkBit (by decide) _).trans ?_
    rw [Bool.not_or, Bool.not_not]
  · rw [sweptWord_eq, getLsbD_checkBit_other (by decide)]
    cases hbad : sweepBad x with
    | true => exact getLsbD_withBit _ (by decide)
    | false => exact checkedWord_other w x (by decide) (by decide)

/-- A change of the standby's word leaves the other domain and the roles. -/
theorem standbySweep_judges {s : State} (x : SweepResult) (h : awake s = true)
    (hfail : (healthOf s (standby s)).getLsbD 6 = false) :
    Completes (.standbySweep x) s (fun t =>
      let w := healthOf t (standby s)
      let bad := !(x.core && x.memory && x.seed && x.clock)
      w.getLsbD 0 = (!bad && x.code) ∧ w.getLsbD 1 = true ∧ w.getLsbD 2 = !x.memory ∧ w.getLsbD 3 = !x.core ∧
      w.getLsbD 7 = !x.seed ∧ w.getLsbD 8 = !x.clock ∧ w.getLsbD 5 = (bad || (healthOf s (standby s)).getLsbD 5) ∧
      healthOf t s.dom.active = healthOf s s.dom.active ∧ t.dom.active = s.dom.active ∧ t.sess = s.sess) := by
  obtain ⟨h0, h1, h2, h3, h7, h8, h5⟩ := sweptWord_bits (healthOf s (standby s)) x
  refine ⟨_, congrArg Host.Outcome.next (if_pos (by simp only [Health.rakeFail, h, hfail]; rfl)), ?_⟩
  dsimp only
  rw [healthOf_setHealth, healthOf_setHealth_other (active_other s), setHealth_sess]
  exact ⟨h0, h1, h2, h3, h7, h8, h5, rfl, congrArg (fun y : Energy × Domains => y.2.active) (roles_setHealth ..), rfl⟩

/-- The word of a standby after its domain test. -/
def testedWord (result : Nat) (w : BitVec 32) : BitVec 32 :=
  if result = 0 then w &&& 0xFFFFFE40#32 else withBit (withoutBit w Health.rakePending) Health.rakeFail

theorem testedWord_passed (w : BitVec 32) : ∀ k ∈ [0, 1, 2, 3, 4, 5, 7, 8], (testedWord 0 w).getLsbD k = false := by
  have hmask : ∀ k ∈ [0, 1, 2, 3, 4, 5, 7, 8], (0xFFFFFE40#32).getLsbD k = false := by decide
  intro k hk
  rw [testedWord, if_pos rfl, BitVec.getLsbD_and, hmask k hk, Bool.and_false]

theorem testedWord_failed {result : Nat} (h : result ≠ 0) (w : BitVec 32) :
    (testedWord result w).getLsbD 5 = false ∧ (testedWord result w).getLsbD 6 = true := by
  rw [testedWord, if_neg h]
  exact ⟨(getLsbD_withBit_other _ (by decide)).trans (getLsbD_withoutBit w), getLsbD_withBit _ (by decide)⟩

theorem domainTestComplete_judges {s : State} (result duration : Nat) (h : awake s = true)
    (hpending : (healthOf s (standby s)).getLsbD 5 = true) :
    Completes (.domainTestComplete result duration) s (fun t =>
      (result = 0 → ∀ k ∈ [0, 1, 2, 3, 4, 5, 7, 8], (healthOf t (standby s)).getLsbD k = false) ∧
      (result ≠ 0 → (healthOf t (standby s)).getLsbD 5 = false ∧ (healthOf t (standby s)).getLsbD 6 = true) ∧
      healthOf t s.dom.active = healthOf s s.dom.active ∧
      (∃ e, t.logs.general.head? = some e ∧ e.sub = 0x10 ∧ e.code = 0x1003)) := by
  have hexec : exec (.domainTestComplete result duration) s =
      .next (log 9 0x10 0x1003 ([byte (standby s), byte result, 0, 0] ++ leBytes 4 duration ++ zeros 8) false
        (setHealth (standby s) (testedWord result (healthOf s (standby s))) s)) :=
    congrArg Host.Outcome.next (if_pos (by simp only [Health.rakePending, h, hpending]; rfl))
  refine ⟨_, hexec, ?_⟩
  dsimp only
  rw [healthOf_of_roles (roles_log ..), healthOf_of_roles (roles_log ..), healthOf_setHealth,
    healthOf_setHealth_other (active_other s)]
  refine ⟨fun hpass => ?_, fun hfailed => testedWord_failed hfailed _, rfl, _, log_general_head .., rfl, rfl⟩
  subst hpass
  exact testedWord_passed _

/-! ### DOMAIN_SWITCH (R366) -/

theorem roles_completeRequest (port : Port) (cls opcode : Nat) (seq : U32) (status : Nat) (payload : List Byte) (s : State) :
    roles (completeRequest port cls opcode seq status payload s) = roles s := by
  have horigin (f : Origin → Origin) (t : State) : roles (setOrigin port f t) = roles t := by cases port <;> rfl
  unfold completeRequest
  dsimp only
  rw [horigin, foldl_keeps roles (fun t _ => sendPacket _ t) (fun _ _ => rfl), roles_journal]

/-- A switch is noted, to take place at the first steady point. -/
def switchAsked (s : State) : State := setDom (fun x => { x with switchTo := true }) s

/-- DOMAIN_SWITCH on an admitted request. -/
def domainSwitchAct (s : State) : State × Answer :=
  guarded [need (inService s && eligible s (standby s)) St.refusedState] (fun s => done (switchAsked s)) s

theorem exec_domainSwitch (r : Request) (s : State) :
    exec (.domainSwitch r) s = .next (hostRequest (opNone 0x0C02 [clsN]) r domainSwitchAct s) := rfl

theorem domainSwitchAct_asks {s : State} (hservice : inService s = true) (heligible : eligible s (standby s) = true)
    (x : HostLink) : domainSwitchAct (withHost x s) = (withHost x (switchAsked s), .now St.ok []) := by
  have hok : (inService (withHost x s) && eligible (withHost x s) (standby (withHost x s))) = true :=
    Bool.and_eq_true_iff.mpr ⟨hservice, heligible⟩
  exact (guarded_one (need_of hok _)).trans rfl

theorem domainSwitchAct_refuses {s : State} (h : inService s = false ∨ eligible s (standby s) = false) (x : HostLink) :
    domainSwitchAct (withHost x s) = (withHost x s, .now St.refusedState []) := by
  have hrefused : (inService (withHost x s) && eligible (withHost x s) (standby (withHost x s))) = false := by
    show (inService s && eligible s (standby s)) = false
    rcases h with h | h <;> simp [h]
  rw [domainSwitchAct, need_fails hrefused, guarded_head (by decide)]
  rfl

theorem domainSwitch_waits {s : State} {r : Request} (hservice : inService s = true) (heligible : eligible s (standby s) = true)
    (h : Admitted (opNone 0x0C02 [clsN]) r s) :
    Completes (.domainSwitch r) s (fun t =>
      Answers s r 0x0C02 St.ok [] t ∧ SameModule s t ∧ t.dom.switchTo = true ∧ t.dom.active = s.dom.active) := by
  have hact := domainSwitchAct_asks hservice heligible
  have hadmitted : domainSwitchAct (admitted 0x0C02 r s) =
      (withHost (admitted 0x0C02 r s).host (switchAsked s), .now St.ok []) := by
    rw [admitted_eq]
    exact hact _
  have hroles := (congrArg roles (host_completes h (by decide) hadmitted)).trans (roles_completeRequest ..)
  obtain ⟨hanswer, hsame⟩ := host_takes (sameSender_of (s := s) (u := switchAsked s) rfl rfl rfl) hact h
  exact ⟨_, exec_domainSwitch r s, hanswer, hsame, congrArg (fun x : Energy × Domains => x.2.switchTo) hroles,
    congrArg (fun x : Energy × Domains => x.2.active) hroles⟩

/-! ### The statement -/

/-- Settles O53, by what moves the roles of the domains. -/
theorem domainCommands : Obligations.DomainCommands := by
  intro s r i x clocks result duration
  refine ⟨fun hruns heligible c hc => failure_takes_over (exec_failure hruns hc) heligible,
    fun hruns hnone c hc => failure_restarts (exec_failure hruns hc) hnone, fun hruns => ?_, seedWrite_writes clocks,
    seedWrite_switches clocks, ⟨handback_hands_back, fun h => congrArg Host.Outcome.next (if_neg (ne_true_of_eq_false h))⟩,
    standbySweep_judges x, fun h => ?_, domainTestComplete_judges result duration, fun h => ?_, domainSwitch_waits,
    fun h => host_refuses (exec_domainSwitch r s) (domainSwitchAct_refuses h)⟩
  · have hfalse := ne_true_of_eq_false hruns
    exact ⟨congrArg Host.Outcome.next (if_neg hfalse), congrArg Host.Outcome.next (if_neg hfalse),
      congrArg Host.Outcome.next (if_pos (by simp [hruns]))⟩
  · refine congrArg Host.Outcome.next (if_neg ?_)
    simp only [Health.rakeFail]
    rcases h with h | h <;> simp [h]
  · refine congrArg Host.Outcome.next (if_neg ?_)
    simp only [Health.rakePending]
    rcases h with h | h
    · simp [h]
    · rw [h, Bool.and_false]
      decide

end Sys2Proof.Machine

/-! # The stack link: what a member sends (R367 to R370, R375 to R378) -/

namespace Sys2Proof.Machine

/-! ### Frames as bytes -/

/-- The part of the sync frame before its MAC. -/
def syncHead (s : State) : List Byte :=
  let t := s.trellis
  leBytes 2 (stackId s) ++ [2, byte (if t.transfer.any (fun x => 0 < x.2) then 1 else 0)] ++
    wordBytes 4 t.frame ++ wordBytes 4 s.sun.cycle ++ [byte t.index, byte t.frames, byte t.masterSlot, byte t.spareSlot] ++
    wordBytes 2 t.term ++ wordBytes 2 t.present ++ leInt 4 t.budget ++ leBytes 4 (budgetCheck s) ++ zeros 16

theorem syncFrame_eq (s : State) : syncFrame s = withCheck (syncHead s ++ trellisMac s (syncHead s)) := rfl

theorem syncHead_length (s : State) : (syncHead s).length = 44 := by
  simp [syncHead, length_leBytes, length_wordBytes, leInt, zeros]

theorem length_trellisMac (s : State) (bytes : List Byte) : (trellisMac s bytes).length = 16 := by
  unfold trellisMac
  split
  · rw [List.length_take, digestBytes, length_wordBytes]
    rfl
  · rfl

theorem syncFrame_length (s : State) : (syncFrame s).length = 64 := by
  simp [syncFrame_eq, withCheck, syncHead_length, length_trellisMac, length_wordBytes]

/-- A field in front of what is appended. -/
theorem fieldN_append {p : List Byte} (q : List Byte) {off n : Nat} (h : off + n ≤ p.length) :
    fieldN (p ++ q) off n = fieldN p off n := by
  unfold fieldN slice
  rw [List.drop_append_of_le_length (by omega), List.take_append_of_le_length (by rw [List.length_drop]; omega)]

theorem fieldN_syncFrame (s : State) {off n : Nat} (h : off + n ≤ 44) :
    fieldN (syncFrame s) off n = fieldN (syncHead s) off n := by
  rw [syncFrame_eq, withCheck, fieldN_append _ (by rw [List.length_append, syncHead_length]; omega),
    fieldN_append _ (by rw [syncHead_length]; exact h)]

/-- A byte is a number of one byte. -/
theorem fieldN_byte {p q : List Byte} {v off : Nat} (hp : p.length = off) (hv : v < 256) :
    fieldN (p ++ byte v :: q) off 1 = v := by
  rw [List.append_cons]
  exact fieldN_after (n := 1) hp hv

theorem fieldN_word {p q : List Byte} {w off n : Nat} (v : BitVec w) (hp : p.length = off) (hw : w ≤ 8 * n) :
    fieldN (p ++ wordBytes n v ++ q) off n = v.toNat :=
  fieldN_after hp (v.isLt.trans_le (Nat.pow_le_pow_right (by decide) hw))

section SyncFields

variable (s : State)

theorem syncFrame_pending (h : s.trellis.transfer.any (fun x => 0 < x.2) = true) : fieldN (syncFrame s) 3 1 = 1 := by
  rw [fieldN_syncFrame s (by decide)]
  simp only [syncHead, List.append_assoc, List.cons_append, List.nil_append, if_pos h]
  rw [show leBytes 2 (stackId s) ++ 2 :: byte 1 :: _ = (leBytes 2 (stackId s) ++ [2]) ++ byte 1 :: _ by
    rw [List.append_assoc]; rfl]
  exact fieldN_byte (by rw [List.length_append, length_leBytes]; rfl) (by decide)

theorem syncFrame_frame : fieldN (syncFrame s) 4 4 = s.trellis.frame.toNat := by
  rw [fieldN_syncFrame s (by decide), syncHead]
  simp only [List.append_assoc]
  rw [← List.append_assoc, ← List.append_assoc]
  exact fieldN_word _ (by simp [length_leBytes]) (by decide)

theorem syncFrame_cycle : fieldN (syncFrame s) 8 4 = s.sun.cycle.toNat := by
  rw [fieldN_syncFrame s (by decide), syncHead]
  simp only [List.append_assoc]
  rw [← List.append_assoc, ← List.append_assoc, ← List.append_assoc]
  exact fieldN_word _ (by simp [length_leBytes, length_wordBytes]) (by decide)

theorem syncFrame_term : fieldN (syncFrame s) 16 2 = s.trellis.term.toNat := by
  rw [fieldN_syncFrame s (by decide), syncHead]
  simp only [List.append_assoc]
  rw [← List.append_assoc, ← List.append_assoc, ← List.append_assoc, ← List.append_assoc, ← List.append_assoc]
  exact fieldN_word _ (by simp [length_leBytes, length_wordBytes]) (by decide)

theorem syncFrame_index (h : s.trellis.index < 256) : fieldN (syncFrame s) 12 1 = s.trellis.index := by
  rw [fieldN_syncFrame s (by decide), syncHead]
  simp only [List.append_assoc, List.cons_append, List.nil_append]
  rw [← List.append_assoc, ← List.append_assoc]
  exact fieldN_byte (by simp [length_wordBytes]) h

theorem syncFrame_master (h : s.trellis.masterSlot < 256) : fieldN (syncFrame s) 14 1 = s.trellis.masterSlot := by
  have hplace : ∃ p q, syncHead s = p ++ byte s.trellis.masterSlot :: q ∧ p.length = 14 := by
    refine ⟨leBytes 2 (stackId s) ++ [2, byte (if s.trellis.transfer.any (fun x => 0 < x.2) then 1 else 0)] ++
      wordBytes 4 s.trellis.frame ++ wordBytes 4 s.sun.cycle ++ [byte s.trellis.index, byte s.trellis.frames],
      byte s.trellis.spareSlot :: (wordBytes 2 s.trellis.term ++ wordBytes 2 s.trellis.present ++
        leInt 4 s.trellis.budget ++ leBytes 4 (budgetCheck s) ++ zeros 16), ?_, ?_⟩
    · simp only [syncHead, List.append_assoc, List.cons_append, List.nil_append]
    · simp [length_leBytes, length_wordBytes]
  obtain ⟨p, q, hsplit, hlength⟩ := hplace
  rw [fieldN_syncFrame s (by decide), hsplit]
  exact fieldN_byte hlength h

end SyncFields

/-! ### The own slot frame (R370) -/

theorem sendSlot_eq (k : Nat) (s : State) : sendSlot k s = { s with
    hedge := { s.hedge with safeWait := none }
    trellis := { s.trellis with joining := s.trellis.joining - 1, rotation := (sendSlot k s).trellis.rotation }
    out := .trellisSlot (ownSlot s) (slotFrame k (s.hedge.safeWait.getD []) s) :: s.out
    dom := (sendSlot k s).dom, freeCount := (sendSlot k s).freeCount } := by
  unfold sendSlot
  dsimp only
  rw [journal_eq]
  rfl

/-- What a state has of the one in which the own slot frame went out. -/
structure SlotSent (s t : State) : Prop where
  frame : t.trellis.frame = s.trellis.frame
  index : t.trellis.index = s.trellis.index
  role : t.trellis.role = s.trellis.role
  term : t.trellis.term = s.trellis.term
  masterSlot : t.trellis.masterSlot = s.trellis.masterSlot
  transfer : t.trellis.transfer = s.trellis.transfer
  missed : t.trellis.missed = s.trellis.missed
  backoff : t.trellis.backoff = s.trellis.backoff
  sess : t.sess = s.sess
  hedge : t.hedge = { s.hedge with safeWait := none }
  out : ∃ f, t.out = .trellisSlot (ownSlot s) f :: s.out

theorem sendSlot_sends (k : Nat) (s : State) : SlotSent s (sendSlot k s) := by
  rw [sendSlot_eq]
  exact ⟨rfl, rfl, rfl, rfl, rfl, rfl, rfl, rfl, rfl, rfl, _, rfl⟩

/-! ### The sync frame goes out (R369, R378) -/

/-- The frames in which transfer pending is still to be sent. -/
def transferCounted (x : Option (Nat × Nat)) : Option (Nat × Nat) := x.bind fun y => if 0 < y.2 then some (y.1, y.2 - 1) else none

theorem sendSync_trellis (s : State) :
    (sendSync s).trellis = { s.trellis with transfer := transferCounted s.trellis.transfer } := rfl

theorem sendSync_logs (s : State) : (sendSync s).logs = s.logs := rfl

theorem sendSync_out (s : State) : (sendSync s).out = .trellisSync (syncFrame s) :: s.out := rfl

/-! ### Mastership (R375, R376, R378) -/

theorem spareCandidates_congr {s t : State} (hcfg : t.cfg = s.cfg) (hpower : t.power = s.power)
    (hpresent : ∀ x < 16, x ≠ ownSlot s → t.trellis.present.getLsbD x = s.trellis.present.getLsbD x) :
    spareCandidates t = spareCandidates s := by
  have hown : ownSlot t = ownSlot s := by
    unfold ownSlot
    rw [hpower]
  have hmask : candidateMask t = candidateMask s := by
    unfold candidateMask cfgN inForce
    rw [hcfg]
  refine List.filter_congr fun x hx => ?_
  rw [hown, hmask]
  by_cases hx' : x = ownSlot s
  · simp [hx']
  · rw [hpresent x (List.mem_range.mp hx) hx']

theorem not_mem_spareCandidates (s : State) {x : Nat} (h : 16 ≤ x) : x ∉ spareCandidates s := fun hx => by
  have hlt := List.mem_range.mp (List.mem_filter.mp hx).1
  omega

/-- The link of a module that becomes master. -/
def masterLink (s : State) : Trellis :=
  { s.trellis with
    role := 3, listening := false, silent := false, masterSlot := ownSlot s, term := s.trellis.term + 1
    highTerm := s.trellis.term + 1, missed := 0, transfer := none, readback := 0, budgetDiffers := false
    present := s.trellis.present ||| BitVec.ofNat 16 (2 ^ ownSlot s), allocs := s.trellis.shadow
    adopted := if follows s then (siteBudgetOf s).map (fun y => (y.1, s.clockMs - y.2)) else none }

/-- The state in which a new master has named its spare. -/
def masterNamed (s : State) : State :=
  nameSpare { s with trellis := masterLink s, wadi := { s.wadi with heldBack := true } }

theorem becomeMaster_eq (cause : Nat) (s : State) :
    becomeMaster cause s = sendSync (logMastership s.trellis.masterSlot (ownSlot s) cause (masterNamed s)) := rfl

theorem masterNamed_trellis (s : State) : (masterNamed s).trellis = { masterLink s with
    spareSlot := if s.trellis.spareSlot ∈ spareCandidates s then s.trellis.spareSlot else (spareCandidates s).headD 255 } := by
  have hspares : spareCandidates { s with trellis := masterLink s, wadi := { s.wadi with heldBack := true } } =
      spareCandidates s := by
    refine spareCandidates_congr rfl rfl fun x hx hne => ?_
    show (s.trellis.present ||| BitVec.ofNat 16 (2 ^ ownSlot s)).getLsbD x = _
    exact getLsbD_withBit_other _ hne
  unfold masterNamed nameSpare
  dsimp only
  rw [hspares]
  rfl

theorem logMastership_trellis (old new cause : Nat) (s : State) :
    (logMastership old new cause s).trellis = s.trellis := log_trellis ..

theorem becomeMaster_trellis (cause : Nat) (s : State) : (becomeMaster cause s).trellis = { masterLink s with
    spareSlot := if s.trellis.spareSlot ∈ spareCandidates s then s.trellis.spareSlot else (spareCandidates s).headD 255 } := by
  rw [becomeMaster_eq, sendSync_trellis, logMastership_trellis, masterNamed_trellis]
  rfl

/-- The sync of the new master. -/
theorem becomeMaster_out (cause : Nat) (s : State) :
    ∃ b, (becomeMaster cause s).out = .trellisSync b :: s.out ∧ b.length = 64 ∧
      fieldN b 16 2 = (s.trellis.term + 1).toNat ∧ fieldN b 14 1 = ownSlot s := by
  have hlink := (logMastership_trellis s.trellis.masterSlot (ownSlot s) cause (masterNamed s)).trans (masterNamed_trellis s)
  have hslot : ownSlot s < 256 := s.power.straps.isLt.trans (by decide)
  refine ⟨syncFrame (logMastership s.trellis.masterSlot (ownSlot s) cause (masterNamed s)),
    congrArg (List.cons _) (log_out ..), syncFrame_length _, ?_, ?_⟩
  · rw [syncFrame_term, hlink]
    rfl
  · rw [syncFrame_master _ (by rw [hlink]; exact hslot), hlink]
    rfl

theorem becomeMaster_logs (cause : Nat) (s : State) : (becomeMaster cause s).logs.general.head? =
    some (newEntry s 4 0x0C 0x0C04 ([byte s.trellis.masterSlot, byte (ownSlot s), byte cause, 0] ++
      wordBytes 2 (s.trellis.term + 1) ++ zeros 2 ++ wordBytes 4 s.trellis.frame ++ zeros 4)) := by
  rw [becomeMaster_eq, sendSync_logs, logMastership, log_general_head, masterNamed_trellis]
  rfl

/-- Becoming master leaves time, energy, links, sessions and protection. -/
theorem becomeMaster_keeps {α : Type} (g : State → α) (hl : ∀ l d t, g { t with logs := l, dom := d } = g t)
    (ht : ∀ x w t, g { t with trellis := x, wadi := w } = g t) (ho : ∀ o t, g { t with out := o } = g t)
    (cause : Nat) (s : State) :
    g (becomeMaster cause s) = g s := by
  rw [becomeMaster_eq, sendSync, emit]
  refine (ho _ _).trans ((ht _ _ _).trans ?_)
  rw [logMastership, log_eq]
  exact (hl _ _ _).trans ((ht _ _ _).trans (ht _ _ s))

/-- A module that is to become master and knows no spare. -/
theorem takes_mastership {c : Instr} {s u : State} {cause : Nat} (hc : exec c s = .next (becomeMaster cause u))
    (hu : ∃ b, u = setTrellis (fun x => { x with spareSlot := 255, backoff := b }) s) :
    Completes c s (fun t =>
      t.trellis.role = 3 ∧ t.trellis.term = s.trellis.term + 1 ∧ t.trellis.masterSlot = ownSlot s ∧
      t.trellis.spareSlot = (spareCandidates s).headD 255 ∧ t.trellis.listening = false ∧ t.trellis.silent = false ∧
      t.trellis.allocs = s.trellis.shadow ∧
      t.logs.general.head? = some (newEntry s 4 0x0C 0x0C04 ([byte s.trellis.masterSlot, byte (ownSlot s), byte cause, 0] ++
        wordBytes 2 (s.trellis.term + 1) ++ zeros 2 ++ wordBytes 4 s.trellis.frame ++ zeros 4)) ∧
      (∃ b, t.out = .trellisSync b :: s.out ∧ b.length = 64 ∧ fieldN b 16 2 = (s.trellis.term + 1).toNat ∧
        fieldN b 14 1 = ownSlot s)) := by
  obtain ⟨b, rfl⟩ := hu
  have hspare : (becomeMaster cause (setTrellis (fun x => { x with spareSlot := 255, backoff := b }) s)).trellis.spareSlot =
      (spareCandidates s).headD 255 := by
    rw [becomeMaster_trellis]
    exact if_neg (not_mem_spareCandidates _ (show 16 ≤ 255 by decide))
  refine ⟨_, hc, ?_⟩
  dsimp only
  rw [hspare, becomeMaster_trellis]
  exact ⟨rfl, rfl, rfl, rfl, rfl, rfl, rfl, becomeMaster_logs .., becomeMaster_out ..⟩

end Sys2Proof.Machine

/-! # The stack link: frame starts, reception and presence (R367 to R378, R383) -/

namespace Sys2Proof.Machine

/-! ### TRELLIS_FRAME_START (R368, R378) -/

/-- The dial as a frame start finds it. -/
def frameDial (k : Fin 20) (s : State) : State :=
  if up s && k.val < framesPerCycle s then reachAngle (k.val * 65536 / framesPerCycle s) s else s

/-- The frame start is counted. -/
def frameCounted (k : Fin 20) (s : State) : State :=
  setTrellis (fun x => { x with
    index := k.val, frames := framesPerCycle s, absentRun := x.absentRun.map (fun n => n + 1)
    backoff := x.backoff - 1, listening := x.listening || x.backoff == 1 }) s

/-- The master's frame. -/
def masterFrame (k : Fin 20) (s : State) : State :=
  let t := setTrellis (fun x => { x with frame := x.frame + 1 }) (frameCounted k s)
  if s.trellis.transfer.any (fun x => x.2 == 0) then sendSlot k.val (setTrellis (fun x => { x with transfer := none }) t)
  else if s.trellis.transfer.isSome then sendSlot k.val (sendSync t)
  else sendSlot k.val (sendSync (nameSpare t))

/-- The link of a member at a frame start: the target of a transfer becomes master. -/
def memberCounted (k : Fin 20) (s : State) : State :=
  if s.trellis.transfer.any (fun x => x.1 == ownSlot s && x.2 == 0) then becomeMaster 3 (frameCounted k s)
  else setTrellis (fun x => { x with missed := x.missed + 1 }) (frameCounted k s)

/-- A member's frame. -/
def memberFrame (k : Fin 20) (s : State) : State :=
  if s.trellis.listening || s.trellis.silent || 0 < s.trellis.backoff then memberCounted k s
  else sendSlot k.val (memberCounted k s)

/-- A frame starts. -/
def frameStarted (k : Fin 20) (s : State) : State :=
  if !trellisRuns s || s.trellis.role == 0 || framesPerCycle s ≤ k.val then s
  else if s.trellis.role = 3 then masterFrame k s else memberFrame k s

theorem exec_trellisFrameStart (k : Fin 20) (s : State) :
    exec (.trellisFrameStart k) s = .next (frameStarted k (frameDial k s)) := rfl

/-- The link is at work, and the frame is one of the cycle. -/
def frameRuns (k : Fin 20) (s : State) : Prop := trellisRuns s = true ∧ s.trellis.role ≠ 0 ∧ k.val < framesPerCycle s

theorem frameDial_of_runs {k : Fin 20} {s : State} (h : frameRuns k s) :
    frameDial k s = reachAngle (k.val * 65536 / framesPerCycle s) s := by
  obtain ⟨hruns, -, hk⟩ := h
  have hup : up s = true := (Bool.and_eq_true_iff.mp hruns).1
  exact if_pos (by simp [hup, hk])

/-- The dial alone goes on to a frame start. -/
theorem frameDial_eq (k : Fin 20) (s : State) : frameDial k s = { s with
    sun := (frameDial k s).sun, fabric := (frameDial k s).fabric, out := (frameDial k s).out } := by
  unfold frameDial
  split
  · rw [reachAngle_eq]
  · rfl

theorem frameStarted_rests {k : Fin 20} {s : State} (h : ¬ frameRuns k s) : frameStarted k (frameDial k s) = frameDial k s := by
  refine if_pos ?_
  rw [frameDial_eq]
  show (!trellisRuns s || s.trellis.role == 0 || decide (framesPerCycle s ≤ k.val)) = true
  unfold frameRuns at h
  by_cases hruns : trellisRuns s = true
  · by_cases hrole : s.trellis.role = 0
    · simp [hrole]
    · simp only [hruns, true_and, ne_eq, hrole, not_false_eq_true, Nat.not_lt] at h
      simp [h]
  · simp [hruns]

theorem frameStarted_runs {k : Fin 20} {s : State} (h : frameRuns k s) : frameStarted k (frameDial k s) =
    if s.trellis.role = 3 then masterFrame k (frameDial k s) else memberFrame k (frameDial k s) := by
  obtain ⟨hruns, hrole, hk⟩ := h
  have hguard : ¬ (!trellisRuns (frameDial k s) || (frameDial k s).trellis.role == 0 ||
      framesPerCycle (frameDial k s) ≤ k.val) = true := by
    rw [frameDial_eq]
    show ¬ (!trellisRuns s || s.trellis.role == 0 || decide (framesPerCycle s ≤ k.val)) = true
    simp [hruns, hrole, Nat.not_le.mpr hk]
  have hrole' : (frameDial k s).trellis.role = s.trellis.role := by rw [frameDial_eq]
  rw [frameStarted, if_neg hguard, hrole']

/-- Time, energy and vehicle links, which a frame start leaves alone beside the dial. -/
def atFrame (s : State) : Sundial × Energy × PerOutlet Link := (s.sun, s.energy, s.link)

theorem atFrame_sendSlot (k : Nat) (s : State) : atFrame (sendSlot k s) = atFrame s := by
  rw [sendSlot_eq]
  rfl

theorem atFrame_setTrellis (f : Trellis → Trellis) (s : State) : atFrame (setTrellis f s) = atFrame s := rfl

theorem atFrame_sendSync (s : State) : atFrame (sendSync s) = atFrame s := rfl

theorem atFrame_nameSpare (s : State) : atFrame (nameSpare s) = atFrame s := rfl

theorem atFrame_frameCounted (k : Fin 20) (s : State) : atFrame (frameCounted k s) = atFrame s := rfl

theorem atFrame_becomeMaster (cause : Nat) (s : State) : atFrame (becomeMaster cause s) = atFrame s :=
  becomeMaster_keeps atFrame (fun _ _ _ => rfl) (fun _ _ _ => rfl) (fun _ _ => rfl) cause s

theorem atFrame_masterFrame (k : Fin 20) (s : State) : atFrame (masterFrame k s) = atFrame s := by
  unfold masterFrame
  dsimp only
  split_ifs
  · rw [atFrame_sendSlot, atFrame_setTrellis, atFrame_setTrellis, atFrame_frameCounted]
  · rw [atFrame_sendSlot, atFrame_sendSync, atFrame_setTrellis, atFrame_frameCounted]
  · rw [atFrame_sendSlot, atFrame_sendSync, atFrame_nameSpare, atFrame_setTrellis, atFrame_frameCounted]

theorem atFrame_memberFrame (k : Fin 20) (s : State) : atFrame (memberFrame k s) = atFrame s := by
  have hcounted : atFrame (memberCounted k s) = atFrame s := by
    unfold memberCounted
    split
    · exact (atFrame_becomeMaster ..).trans (atFrame_frameCounted k s)
    · exact (atFrame_setTrellis ..).trans (atFrame_frameCounted k s)
  unfold memberFrame
  split
  · exact hcounted
  · exact (atFrame_sendSlot ..).trans hcounted

theorem trellisFrameStart_keeps {k : Fin 20} {s : State} (h : frameRuns k s) :
    Completes (.trellisFrameStart k) s (fun t =>
      t.sun = { s.sun with angle := k.val * 65536 / framesPerCycle s, frac := 0 } ∧ t.energy = s.energy ∧ t.link = s.link) := by
  have hat : atFrame (frameStarted k (frameDial k s)) = atFrame (frameDial k s) := by
    rw [frameStarted_runs h]
    split
    · exact atFrame_masterFrame ..
    · exact atFrame_memberFrame ..
  have hdial : (frameDial k s).sun = { s.sun with angle := k.val * 65536 / framesPerCycle s, frac := 0 } := by
    rw [frameDial_of_runs h]
    exact reachAngle_sun ..
  have henergy : (frameDial k s).energy = s.energy := by rw [frameDial_eq]
  have hlink : (frameDial k s).link = s.link := by rw [frameDial_eq]
  exact ⟨_, exec_trellisFrameStart k s, (congrArg (·.1) hat).trans hdial, (congrArg (·.2.1) hat).trans henergy,
    (congrArg (·.2.2) hat).trans hlink⟩

/-! ### The master's frame -/

/-- The link of a master at a frame start. -/
def masterCounted (k : Fin 20) (s : State) : State :=
  setTrellis (fun x => { x with frame := x.frame + 1 }) (frameCounted k s)

theorem masterFrame_plain {k : Fin 20} {s : State} (h : s.trellis.transfer = none) :
    masterFrame k s = sendSlot k.val (sendSync (nameSpare (masterCounted k s))) := by
  unfold masterFrame
  rw [h]
  rfl

theorem masterFrame_ends {k : Fin 20} {s : State} {m : Nat} (h : s.trellis.transfer = some (m, 0)) :
    masterFrame k s = sendSlot k.val (setTrellis (fun x => { x with transfer := none }) (masterCounted k s)) := by
  unfold masterFrame
  rw [h]
  rfl

theorem masterFrame_pending {k : Fin 20} {s : State} {m j : Nat} (h : s.trellis.transfer = some (m, j + 1)) :
    masterFrame k s = sendSlot k.val (sendSync (masterCounted k s)) := by
  unfold masterFrame
  rw [h]
  rfl

/-- The master's sync and slot frame go out. -/
theorem masterFrame_sends {k : Fin 20} {s t : State} (h : s.trellis.transfer = none) (ht : t = masterFrame k s) :
    t.trellis.frame = s.trellis.frame + 1 ∧ t.trellis.index = k.val ∧ t.hedge = { s.hedge with safeWait := none } ∧
    t.sess = s.sess ∧ ∃ f b, t.out = .trellisSlot (ownSlot s) f :: .trellisSync b :: s.out ∧ b.length = 64 ∧
      fieldN b 4 4 = (s.trellis.frame + 1).toNat ∧ fieldN b 8 4 = s.sun.cycle.toNat ∧ fieldN b 12 1 = k.val := by
  obtain ⟨u, hu⟩ : ∃ u, u = nameSpare (masterCounted k s) := ⟨_, rfl⟩
  have hframe : u.trellis.frame = s.trellis.frame + 1 := by rw [hu]; rfl
  have hindex : u.trellis.index = k.val := by rw [hu]; rfl
  have hcycle : u.sun.cycle = s.sun.cycle := by rw [hu]; rfl
  have hhedge : u.hedge = s.hedge := by rw [hu]; rfl
  have hsess : u.sess = s.sess := by rw [hu]; rfl
  have hout : u.out = s.out := by rw [hu]; rfl
  have hown : ownSlot u = ownSlot s := by rw [hu]; rfl
  have hsent := sendSlot_sends k.val (sendSync u)
  rw [hu, ← masterFrame_plain h, ← ht, ← hu] at hsent
  obtain ⟨f, hslot⟩ := hsent.out
  refine ⟨hsent.frame.trans hframe, hsent.index.trans hindex, ?_, hsent.sess.trans hsess, f, syncFrame u, ?_,
    syncFrame_length u, ?_, ?_, ?_⟩
  · rw [← hhedge]
    exact hsent.hedge
  · rw [← hown, ← hout]
    exact hslot
  · rw [syncFrame_frame, hframe]
  · rw [syncFrame_cycle, hcycle]
  · rw [syncFrame_index u (by omega), hindex]

/-- The frame in which a transfer takes place carries no sync of the old master. -/
theorem masterFrame_hands_over {k : Fin 20} {s t : State} {m : Nat} (h : s.trellis.transfer = some (m, 0))
    (ht : t = masterFrame k s) :
    t.trellis.transfer = none ∧ t.trellis.role = s.trellis.role ∧ ∃ f, t.out = .trellisSlot (ownSlot s) f :: s.out := by
  have hsent := sendSlot_sends k.val (setTrellis (fun x => { x with transfer := none }) (masterCounted k s))
  rw [← masterFrame_ends h, ← ht] at hsent
  exact ⟨hsent.transfer, hsent.role, hsent.out⟩

/-- A frame with transfer pending. -/
theorem masterFrame_announces {k : Fin 20} {s t : State} {m j : Nat} (h : s.trellis.transfer = some (m, j + 1))
    (ht : t = masterFrame k s) :
    t.trellis.transfer = some (m, j) ∧
      ∃ f b, t.out = .trellisSlot (ownSlot s) f :: .trellisSync b :: s.out ∧ fieldN b 3 1 = 1 := by
  have hsent := sendSlot_sends k.val (sendSync (masterCounted k s))
  rw [← masterFrame_pending h, ← ht] at hsent
  obtain ⟨f, hout⟩ := hsent.out
  have hcounted : (masterCounted k s).trellis.transfer = some (m, j + 1) := h
  refine ⟨?_, f, syncFrame (masterCounted k s), hout, syncFrame_pending _ ?_⟩
  · rw [hsent.transfer, sendSync_trellis, hcounted]
    rfl
  · rw [hcounted]
    simp

/-! ### A member's frame -/

/-- What a member counts at a frame start. -/
theorem memberCounted_plain {k : Fin 20} {s : State} (h : s.trellis.transfer ≠ some (ownSlot s, 0)) :
    memberCounted k s = setTrellis (fun x => { x with missed := x.missed + 1 }) (frameCounted k s) := by
  refine if_neg fun hc => h ?_
  cases hx : s.trellis.transfer with
  | none =>
    rw [hx] at hc
    cases hc
  | some x =>
    rw [hx, Option.any_some, Bool.and_eq_true, beq_iff_eq, beq_iff_eq] at hc
    exact congrArg some (Prod.ext hc.1 hc.2)

theorem memberCounted_target {k : Fin 20} {s : State} (h : s.trellis.transfer = some (ownSlot s, 0)) :
    memberCounted k s = becomeMaster 3 (frameCounted k s) := if_pos (by simp [h])

/-- A member that listens, is silent or waits sends nothing. -/
def memberQuiet (s : State) : Bool := s.trellis.listening || s.trellis.silent || 0 < s.trellis.backoff

theorem memberFrame_quiet {k : Fin 20} {s : State} (h : memberQuiet s = true) : memberFrame k s = memberCounted k s := if_pos h

theorem memberFrame_speaks {k : Fin 20} {s : State} (h : memberQuiet s = false) :
    memberFrame k s = sendSlot k.val (memberCounted k s) := if_neg (ne_true_of_eq_false h)

theorem memberQuiet_iff {s : State} : memberQuiet s = true ↔
    s.trellis.listening = true ∨ s.trellis.silent = true ∨ 0 < s.trellis.backoff := by
  simp [memberQuiet, or_assoc]

theorem memberFrame_sends {k : Fin 20} {s t : State} (h : s.trellis.transfer ≠ some (ownSlot s, 0)) (ht : t = memberFrame k s) :
    t.trellis.missed = s.trellis.missed + 1 ∧ t.trellis.role = s.trellis.role ∧ t.trellis.backoff = s.trellis.backoff - 1 ∧
    (s.trellis.listening = false → s.trellis.silent = false → s.trellis.backoff = 0 →
      ∃ f, t.out = .trellisSlot (ownSlot s) f :: s.out) ∧
    ((s.trellis.listening = true ∨ s.trellis.silent = true ∨ 0 < s.trellis.backoff) → t.out = s.out) := by
  cases hquiet : memberQuiet s with
  | true =>
    rw [memberFrame_quiet hquiet, memberCounted_plain h] at ht
    subst ht
    refine ⟨rfl, rfl, rfl, fun hlisten hsilent hwait => ?_, fun _ => rfl⟩
    simp [memberQuiet, hlisten, hsilent, hwait] at hquiet
  | false =>
    have hsent := sendSlot_sends k.val (memberCounted k s)
    rw [← memberFrame_speaks hquiet, ← ht, memberCounted_plain h] at hsent
    refine ⟨hsent.missed, hsent.role, hsent.backoff, fun _ _ _ => hsent.out, fun hc => ?_⟩
    rw [memberQuiet_iff.mpr hc] at hquiet
    cases hquiet

theorem memberFrame_takes {k : Fin 20} {s t : State} (h : s.trellis.transfer = some (ownSlot s, 0)) (ht : t = memberFrame k s) :
    t.trellis.role = 3 ∧ t.trellis.term = s.trellis.term + 1 ∧ t.trellis.masterSlot = ownSlot s ∧ t.trellis.transfer = none := by
  have hmaster := becomeMaster_trellis 3 (frameCounted k s)
  cases hquiet : memberQuiet s with
  | true =>
    rw [memberFrame_quiet hquiet, memberCounted_target h] at ht
    rw [ht, hmaster]
    exact ⟨rfl, rfl, rfl, rfl⟩
  | false =>
    have hsent := sendSlot_sends k.val (memberCounted k s)
    rw [← memberFrame_speaks hquiet, ← ht, memberCounted_target h] at hsent
    rw [hsent.role, hsent.term, hsent.masterSlot, hsent.transfer, hmaster]
    exact ⟨rfl, rfl, rfl, rfl⟩

/-! ### Frame starts of a link at work -/

/-- A frame start: what a frame does on the state as the dial has reached it. -/
theorem trellisFrameStart_runs {k : Fin 20} {s : State} (h : frameRuns k s) :
    exec (.trellisFrameStart k) s =
      .next (if s.trellis.role = 3 then masterFrame k (frameDial k s) else memberFrame k (frameDial k s)) := by
  rw [exec_trellisFrameStart, frameStarted_runs h]

/-- What the frames read of the state is as before the dial went on. -/
theorem frameDial_keeps {α : Type} (g : State → α) (hg : ∀ x f o t, g { t with sun := x, fabric := f, out := o } = g t)
    (k : Fin 20) (s : State) : g (frameDial k s) = g s := by
  rw [frameDial_eq]
  exact hg _ _ _ s

section FrameStarts

variable {k : Fin 20} {s : State} (h : frameRuns k s)
include h

theorem trellisFrameStart_master (hrole : s.trellis.role = 3) (hplain : s.trellis.transfer = none) :
    Completes (.trellisFrameStart k) s (fun t =>
      t.trellis.frame = s.trellis.frame + 1 ∧ t.trellis.index = k.val ∧ t.hedge = { s.hedge with safeWait := none } ∧
      t.sess = s.sess ∧
      (∃ f b, t.out = .trellisSlot (ownSlot s) f :: .trellisSync b :: (frameDial k s).out ∧ b.length = 64 ∧
        fieldN b 4 4 = (s.trellis.frame + 1).toNat ∧ fieldN b 8 4 = s.sun.cycle.toNat ∧ fieldN b 12 1 = k.val)) := by
  have htrellis : (frameDial k s).trellis = s.trellis := frameDial_keeps State.trellis (fun _ _ _ _ => rfl) k s
  have hhedge : (frameDial k s).hedge = s.hedge := frameDial_keeps State.hedge (fun _ _ _ _ => rfl) k s
  have hsess : (frameDial k s).sess = s.sess := frameDial_keeps State.sess (fun _ _ _ _ => rfl) k s
  have hown : ownSlot (frameDial k s) = ownSlot s := frameDial_keeps ownSlot (fun _ _ _ _ => rfl) k s
  have hcycle : (frameDial k s).sun.cycle = s.sun.cycle := by rw [frameDial_of_runs h, reachAngle_sun]
  have hsends := masterFrame_sends (k := k) (s := frameDial k s) (by rw [htrellis, hplain]) rfl
  rw [htrellis, hhedge, hsess, hown, hcycle] at hsends
  exact ⟨_, (trellisFrameStart_runs h).trans (congrArg Host.Outcome.next (if_pos hrole)), hsends⟩

theorem trellisFrameStart_hands_over {m : Nat} (hrole : s.trellis.role = 3) (htransfer : s.trellis.transfer = some (m, 0)) :
    Completes (.trellisFrameStart k) s (fun t =>
      t.trellis.transfer = none ∧ t.trellis.role = 3 ∧ (∃ f, t.out = .trellisSlot (ownSlot s) f :: (frameDial k s).out)) := by
  have htrellis : (frameDial k s).trellis = s.trellis := frameDial_keeps State.trellis (fun _ _ _ _ => rfl) k s
  have hown : ownSlot (frameDial k s) = ownSlot s := frameDial_keeps ownSlot (fun _ _ _ _ => rfl) k s
  have hends := masterFrame_hands_over (k := k) (s := frameDial k s) (m := m) (by rw [htrellis, htransfer]) rfl
  rw [htrellis, hown, hrole] at hends
  exact ⟨_, (trellisFrameStart_runs h).trans (congrArg Host.Outcome.next (if_pos hrole)), hends⟩

theorem trellisFrameStart_announces {m j : Nat} (hrole : s.trellis.role = 3)
    (htransfer : s.trellis.transfer = some (m, j + 1)) :
    Completes (.trellisFrameStart k) s (fun t => t.trellis.transfer = some (m, j) ∧
      (∃ f b, t.out = .trellisSlot (ownSlot s) f :: .trellisSync b :: (frameDial k s).out ∧ fieldN b 3 1 = 1)) := by
  have htrellis : (frameDial k s).trellis = s.trellis := frameDial_keeps State.trellis (fun _ _ _ _ => rfl) k s
  have hown : ownSlot (frameDial k s) = ownSlot s := frameDial_keeps ownSlot (fun _ _ _ _ => rfl) k s
  have hannounces := masterFrame_announces (k := k) (s := frameDial k s) (m := m) (j := j) (by rw [htrellis, htransfer]) rfl
  rw [hown] at hannounces
  exact ⟨_, (trellisFrameStart_runs h).trans (congrArg Host.Outcome.next (if_pos hrole)), hannounces⟩

theorem trellisFrameStart_member (hrole : s.trellis.role ≠ 3) (hother : s.trellis.transfer ≠ some (ownSlot s, 0)) :
    Completes (.trellisFrameStart k) s (fun t =>
      t.trellis.missed = s.trellis.missed + 1 ∧ t.trellis.role = s.trellis.role ∧
      t.trellis.backoff = s.trellis.backoff - 1 ∧
      (s.trellis.listening = false → s.trellis.silent = false → s.trellis.backoff = 0 →
        ∃ f, t.out = .trellisSlot (ownSlot s) f :: (frameDial k s).out) ∧
      ((s.trellis.listening = true ∨ s.trellis.silent = true ∨ 0 < s.trellis.backoff) → t.out = (frameDial k s).out)) := by
  have htrellis : (frameDial k s).trellis = s.trellis := frameDial_keeps State.trellis (fun _ _ _ _ => rfl) k s
  have hown : ownSlot (frameDial k s) = ownSlot s := frameDial_keeps ownSlot (fun _ _ _ _ => rfl) k s
  have hsends := memberFrame_sends (k := k) (s := frameDial k s) (by rw [htrellis, hown]; exact hother) rfl
  rw [htrellis, hown] at hsends
  exact ⟨_, (trellisFrameStart_runs h).trans (congrArg Host.Outcome.next (if_neg hrole)), hsends⟩

theorem trellisFrameStart_takes (hrole : s.trellis.role ≠ 3) (htarget : s.trellis.transfer = some (ownSlot s, 0)) :
    Completes (.trellisFrameStart k) s (fun t =>
      t.trellis.role = 3 ∧ t.trellis.term = s.trellis.term + 1 ∧ t.trellis.masterSlot = ownSlot s ∧
      t.trellis.transfer = none) := by
  have htrellis : (frameDial k s).trellis = s.trellis := frameDial_keeps State.trellis (fun _ _ _ _ => rfl) k s
  have hown : ownSlot (frameDial k s) = ownSlot s := frameDial_keeps ownSlot (fun _ _ _ _ => rfl) k s
  have htakes := memberFrame_takes (k := k) (s := frameDial k s) (by rw [htrellis, hown]; exact htarget) rfl
  rw [htrellis, hown] at htakes
  exact ⟨_, (trellisFrameStart_runs h).trans (congrArg Host.Outcome.next (if_neg hrole)), htakes⟩

end FrameStarts

end Sys2Proof.Machine

/-! # The stack link: reception, presence and its opcode (R369 to R378, R383) -/

namespace Sys2Proof.Machine

/-! ### SYNC_RECEIVED (R369, R371, R377) -/

/-- What a state has of the sync frame that the module followed. -/
structure SyncFollowed (b : List Byte) (s t : State) : Prop where
  role : t.trellis.role = if fieldN b 15 1 = ownSlot s then 2 else 1
  term : t.trellis.term = BitVec.ofNat 16 (fieldN b 16 2)
  masterSlot : t.trellis.masterSlot = fieldN b 14 1
  spareSlot : t.trellis.spareSlot = fieldN b 15 1
  missed : t.trellis.missed = 0
  listening : t.trellis.listening = false
  frame : t.trellis.frame = BitVec.ofNat 32 (fieldN b 4 4)
  present : t.trellis.present = BitVec.ofNat 16 (fieldN b 18 2)
  budget : t.trellis.budget = fieldI b 20 4
  budgetDiffers : t.trellis.budgetDiffers = (fieldN b 24 4 != budgetCheck s)
  sess : t.sess = s.sess
  out : t.out = s.out

/-- The entry of a new master leaves what was followed. -/
theorem SyncFollowed.logged {b : List Byte} {s t : State} (h : SyncFollowed b s t) (old new cause : Nat) :
    SyncFollowed b s (logMastership old new cause t) := by
  have htrellis := logMastership_trellis old new cause t
  have hsess : (logMastership old new cause t).sess = t.sess := log_sess ..
  have hout : (logMastership old new cause t).out = t.out := log_out ..
  constructor
  all_goals first | rw [htrellis] | rw [hsess] | rw [hout]
  exacts [h.role, h.term, h.masterSlot, h.spareSlot, h.missed, h.listening, h.frame, h.present, h.budget, h.budgetDiffers,
    h.sess, h.out]

theorem followSync_follows (b : List Byte) (s : State) : SyncFollowed b s (followSync b s) := by
  unfold followSync
  dsimp only
  split
  · refine SyncFollowed.logged ?_ _ _ _
    exact ⟨rfl, rfl, rfl, rfl, rfl, rfl, rfl, rfl, rfl, rfl, rfl, rfl⟩
  · exact ⟨rfl, rfl, rfl, rfl, rfl, rfl, rfl, rfl, rfl, rfl, rfl, rfl⟩

theorem syncReceived_ignores {s : State} (bytes : List Byte) (h : trellisRuns s = false) :
    Ignores (.syncReceived bytes) s ∧ ∀ slot, Ignores (.slotFrameReceived slot bytes) s :=
  ⟨congrArg Host.Outcome.next (if_pos (by simp [h])), fun _ => congrArg Host.Outcome.next (if_pos (by simp [h]))⟩

/-- A frame that fails its checks counts as an error of both pairs. -/
def errorsCounted (s : State) : State := setTrellis (fun x => { x with errorsA := x.errorsA + 1, errorsB := x.errorsB + 1 }) s

section Sync

variable {s : State} {bytes : List Byte} (hruns : trellisRuns s = true)
include hruns

theorem syncReceived_counts (h : bytes.length ≠ 64 ∨ checkIsGood bytes = false) :
    exec (.syncReceived bytes) s = .next (errorsCounted s) := by
  refine congrArg Host.Outcome.next ((if_neg (by simp [hruns])).trans (if_pos ?_))
  rcases h with h | h <;> simp [h]

variable (hlen : bytes.length = 64) (hcheck : checkIsGood bytes = true)
include hlen hcheck

theorem syncReceived_foreign (h : fieldN bytes 0 2 ≠ stackId s ∨ fieldN bytes 2 1 ≠ 2) : Ignores (.syncReceived bytes) s :=
  congrArg Host.Outcome.next ((if_neg (by simp [hruns])).trans ((if_neg (by simp [hlen, hcheck])).trans (if_pos h)))

variable (hstack : fieldN bytes 0 2 = stackId s) (htype : fieldN bytes 2 1 = 2)
include hstack htype

/-- A frame of the own stack: what its MAC and its term make of it. -/
theorem exec_syncReceived : exec (.syncReceived bytes) s = .next (
    if !macIsGood s (bytes.take 44) (slice bytes 44 16) then
      if s.trellis.role = 3 then setTrellis (fun x => { x with macFails := x.macFails + 1 }) s
      else setTrellis (fun x => { x with
        role := if x.role = 2 then 2 else 1, listening := false, silent := false, missed := 0
        joining := if s.trellis.listening ∨ s.trellis.silent then 20 else x.joining
        frame := BitVec.ofNat 32 (fieldN bytes 4 4) }) (setTrellis (fun x => { x with macFails := x.macFails + 1 }) s)
    else if s.trellis.role = 3 then
      (if laterTerm (BitVec.ofNat 16 (fieldN bytes 16 2)) s.trellis.term then followSync bytes s else s)
    else if s.trellis.listening ∨ ¬ laterTerm s.trellis.term (BitVec.ofNat 16 (fieldN bytes 16 2)) then followSync bytes s
    else s) :=
  congrArg Host.Outcome.next ((if_neg (by simp [hruns])).trans ((if_neg (by simp [hlen, hcheck])).trans
    (if_neg (by simp [hstack, htype]))))

section BadMac

variable (hbad : macIsGood s (bytes.take 44) (slice bytes 44 16) = false)
include hbad

theorem syncReceived_bad_master (hrole : s.trellis.role = 3) :
    exec (.syncReceived bytes) s = .next (setTrellis (fun x => { x with macFails := x.macFails + 1 }) s) := by
  rw [exec_syncReceived hruns hlen hcheck hstack htype, if_pos (by simp [hbad]), if_pos hrole]

/-- A bad MAC gives a member its timing only. -/
theorem syncReceived_bad_member (hrole : s.trellis.role ≠ 3) : Completes (.syncReceived bytes) s (fun t =>
    t.trellis.frame = BitVec.ofNat 32 (fieldN bytes 4 4) ∧ t.trellis.missed = 0 ∧ t.trellis.listening = false ∧
    t.trellis.silent = false ∧ t.trellis.term = s.trellis.term ∧ t.trellis.masterSlot = s.trellis.masterSlot ∧
    t.trellis.present = s.trellis.present ∧ t.trellis.macFails = s.trellis.macFails + 1) := by
  have hexec := exec_syncReceived hruns hlen hcheck hstack htype
  rw [if_pos (by simp [hbad]), if_neg hrole] at hexec
  exact ⟨_, hexec, rfl, rfl, rfl, rfl, rfl, rfl, rfl, rfl⟩

end BadMac

section GoodMac

variable (hgood : macIsGood s (bytes.take 44) (slice bytes 44 16) = true)
include hgood

theorem syncReceived_stale_master (hrole : s.trellis.role = 3)
    (hterm : laterTerm (BitVec.ofNat 16 (fieldN bytes 16 2)) s.trellis.term = false) : Ignores (.syncReceived bytes) s := by
  have hexec := exec_syncReceived hruns hlen hcheck hstack htype
  rwa [if_neg (by simp [hgood]), if_pos hrole, if_neg (ne_true_of_eq_false hterm)] at hexec

theorem syncReceived_stale_member (hrole : s.trellis.role ≠ 3) (hlisten : s.trellis.listening = false)
    (hterm : laterTerm s.trellis.term (BitVec.ofNat 16 (fieldN bytes 16 2)) = true) : Ignores (.syncReceived bytes) s := by
  have hexec := exec_syncReceived hruns hlen hcheck hstack htype
  rwa [if_neg (by simp [hgood]), if_neg hrole, if_neg (by simp [hlisten, hterm])] at hexec

theorem syncReceived_follows
    (h : (s.trellis.role = 3 ∧ laterTerm (BitVec.ofNat 16 (fieldN bytes 16 2)) s.trellis.term = true) ∨
      (s.trellis.role ≠ 3 ∧ (s.trellis.listening = true ∨
        laterTerm s.trellis.term (BitVec.ofNat 16 (fieldN bytes 16 2)) = false))) :
    exec (.syncReceived bytes) s = .next (followSync bytes s) := by
  have hexec := exec_syncReceived hruns hlen hcheck hstack htype
  rcases h with ⟨hrole, hterm⟩ | ⟨hrole, hterm⟩
  · rwa [if_neg (by simp [hgood]), if_pos hrole, if_pos hterm] at hexec
  · rwa [if_neg (by simp [hgood]), if_neg hrole, if_pos (hterm.imp_right ne_true_of_eq_false)] at hexec

end GoodMac
end Sync

/-! ### SLOT_FRAME_RECEIVED (R370, R371, R374) -/

/-- What the messages of a slot frame leave alone. -/
def memberView (s : State) : Nat × U16 × BitVec 16 × Hedge := (s.trellis.role, s.trellis.term, s.trellis.present, s.hedge)

theorem memberView_log (origin sub code : Nat) (detail : List Byte) (legal : Bool) (s : State) :
    memberView (log origin sub code detail legal s) = memberView s := by
  rw [memberView, log_trellis, log_hedge]
  rfl

theorem memberView_compareShadow (slot : Nat) (watts : List Int) (s : State) :
    memberView (compareShadow slot watts s) = memberView s := by
  unfold compareShadow
  split
  · rfl
  · refine foldl_keeps memberView _ (fun t o => ?_) _ s
    split
    · rfl
    · exact (show memberView (setTrellis _ _) = memberView _ from rfl).trans (memberView_log ..)

theorem memberView_setNextAlloc (watts : List Int) (s : State) : memberView (setNextAlloc watts s) = memberView s := by
  rw [setNextAlloc_eq]
  rfl

/-- An allocation message: a spare compares it with its shadow, and the module of its slot takes it. -/
theorem memberView_allocation (own spare : Prop) [Decidable own] [Decidable spare] (slot : Nat) (watts : List Int) (s : State) :
    memberView (if own then setNextAlloc watts (if spare then compareShadow slot watts s else s)
      else (if spare then compareShadow slot watts s else s)) = memberView s := by
  have hshadow : memberView (if spare then compareShadow slot watts s else s) = memberView s := by
    split
    · exact memberView_compareShadow ..
    · rfl
  split
  · exact (memberView_setNextAlloc ..).trans hshadow
  · exact hshadow

theorem memberView_takeMessage (slot : Nat) (m : Nat × List Byte) (s : State) :
    memberView (takeMessage slot m s) = memberView s := by
  unfold takeMessage
  dsimp only
  by_cases hreport : m.1 = 1
  · rw [if_pos hreport]
    rfl
  rw [if_neg hreport]
  by_cases halloc : m.1 = 2 ∧ slot = s.trellis.masterSlot
  · rw [if_pos halloc]
    exact memberView_allocation ..
  rw [if_neg halloc]
  split
  · rfl
  · split <;> rfl

/-- What a slot frame's safe frame makes of the state, whatever its source and its MAC. -/
def safeTaken (bytes : List Byte) (s : State) : State :=
  if leNat (slice bytes 8 32) = 0 then s else receiveSafe .trellis (slice bytes 8 32) s

theorem safeTaken_trellis (bytes : List Byte) (s : State) : (safeTaken bytes s).trellis = s.trellis := by
  unfold safeTaken
  split
  · rfl
  · exact congrArg Calm.trellis (receiveSafe_calm ..)

/-- The member of a slot is present. -/
def presenceNoted (slot : Slot) (s : State) : State :=
  setTrellis (fun x => { x with
    present := withBit x.present slot.val, absentRun := modifyAt x.absentRun slot.val (fun _ => 0) }) s

/-- The messages of a slot frame are taken. -/
def frameTaken (slot : Slot) (bytes : List Byte) (s u : State) : State :=
  (messagesOf 42 (slice bytes 40 84)).foldl (fun t m => takeMessage slot.val m t)
    (if s.trellis.role = 3 && !s.trellis.present.getLsbD slot.val then logMember slot.val 0 (presenceNoted slot u)
     else presenceNoted slot u)

theorem memberView_frameTaken (slot : Slot) (bytes : List Byte) (s u : State) :
    memberView (frameTaken slot bytes s u) = memberView (presenceNoted slot u) := by
  refine (foldl_keeps memberView _ (fun t m => memberView_takeMessage ..) _ _).trans ?_
  split
  · exact memberView_log ..
  · rfl

section SlotFrame

variable {s : State} {slot : Slot} {bytes : List Byte}

theorem slotFrameReceived_own (h : slot.val = ownSlot s) : Ignores (.slotFrameReceived slot bytes) s :=
  congrArg Host.Outcome.next (if_pos (by simp [h]))

variable (hruns : trellisRuns s = true)
include hruns

variable (hother : slot.val ≠ ownSlot s)
include hother

theorem slotFrameReceived_counts (h : bytes.length ≠ 144 ∨ checkIsGood bytes = false) :
    exec (.slotFrameReceived slot bytes) s = .next (errorsCounted s) := by
  refine congrArg Host.Outcome.next ((if_neg (by simp [hruns, hother])).trans (if_pos ?_))
  rcases h with h | h <;> simp [h]

variable (hlen : bytes.length = 144) (hcheck : checkIsGood bytes = true)
include hlen hcheck

theorem exec_slotFrameReceived : exec (.slotFrameReceived slot bytes) s = .next (
    if fieldN bytes 0 2 ≠ sourceId s slot.val ∨ fieldN bytes 2 1 ≠ 1 then safeTaken bytes s
    else if !macIsGood s (bytes.take 8 ++ slice bytes 40 84) (slice bytes 124 16) then
      setTrellis (fun x => { x with macFails := x.macFails + 1 }) (safeTaken bytes s)
    else frameTaken slot bytes s (safeTaken bytes s)) :=
  congrArg Host.Outcome.next ((if_neg (by simp [hruns, hother])).trans (if_neg (by simp [hlen, hcheck])))

theorem slotFrameReceived_foreign (h : fieldN bytes 0 2 ≠ sourceId s slot.val ∨ fieldN bytes 2 1 ≠ 1) :
    exec (.slotFrameReceived slot bytes) s = .next (safeTaken bytes s) :=
  (exec_slotFrameReceived hruns hother hlen hcheck).trans (congrArg Host.Outcome.next (if_pos h))

variable (hsource : fieldN bytes 0 2 = sourceId s slot.val) (htype : fieldN bytes 2 1 = 1)
include hsource htype

theorem slotFrameReceived_takes
    (hgood : macIsGood s (bytes.take 8 ++ slice bytes 40 84) (slice bytes 124 16) = true) :
    Completes (.slotFrameReceived slot bytes) s (fun t =>
      t.trellis.present.getLsbD slot.val = true ∧ t.trellis.role = s.trellis.role ∧ t.trellis.term = s.trellis.term ∧
        t.hedge = (safeTaken bytes s).hedge) := by
  have hexec := exec_slotFrameReceived hruns hother hlen hcheck
  rw [if_neg (by simp [hsource, htype]), if_neg (by simp [hgood])] at hexec
  have hview := memberView_frameTaken slot bytes s (safeTaken bytes s)
  have htrellis := safeTaken_trellis bytes s
  generalize frameTaken slot bytes s (safeTaken bytes s) = t at hexec hview
  have hpresent : t.trellis.present = withBit (safeTaken bytes s).trellis.present slot.val := congrArg (·.2.2.1) hview
  have hrole : t.trellis.role = (safeTaken bytes s).trellis.role := congrArg (·.1) hview
  have hterm : t.trellis.term = (safeTaken bytes s).trellis.term := congrArg (·.2.1) hview
  refine ⟨t, hexec, ?_, by rw [hrole, htrellis], by rw [hterm, htrellis], congrArg (·.2.2.2) hview⟩
  rw [hpresent]
  exact getLsbD_withBit _ slot.isLt

theorem slotFrameReceived_bad
    (hbad : macIsGood s (bytes.take 8 ++ slice bytes 40 84) (slice bytes 124 16) = false) :
    Completes (.slotFrameReceived slot bytes) s (fun t =>
      t.trellis.present = s.trellis.present ∧ t.trellis.macFails = s.trellis.macFails + 1 ∧
        t.trellis.demands = s.trellis.demands ∧ t.hedge = (safeTaken bytes s).hedge) := by
  have hexec := exec_slotFrameReceived hruns hother hlen hcheck
  rw [if_neg (by simp [hsource, htype]), if_pos (by simp [hbad])] at hexec
  have htrellis : (setTrellis (fun x => { x with macFails := x.macFails + 1 }) (safeTaken bytes s)).trellis =
      { s.trellis with macFails := s.trellis.macFails + 1 } := by
    rw [← safeTaken_trellis bytes s]
    rfl
  refine ⟨_, hexec, ?_⟩
  dsimp only
  rw [htrellis]
  exact ⟨rfl, rfl, rfl, rfl⟩

end SlotFrame

/-! ### SLOT_ABSENT (R374) -/

/-- A slot is dropped. -/
def slotDropped (slot : Slot) (s : State) : State :=
  setTrellis (fun x => { x with
    present := withoutBit x.present slot.val, demands := x.demands.filter (fun d => d.slot != slot.val)
    allocs := x.allocs.filter (fun a => a.slot != slot.val)
    rotation := 0 }) s

theorem slotDropped_drops (slot : Slot) (s : State) :
    (slotDropped slot s).trellis.present.getLsbD slot.val = false ∧
    (∀ d ∈ (slotDropped slot s).trellis.demands, d.slot ≠ slot.val) ∧
    (∀ y ∈ (slotDropped slot s).trellis.allocs, y.slot ≠ slot.val) := by
  refine ⟨getLsbD_withoutBit _, fun d hd => ?_, fun y hy => ?_⟩
  · simpa using (List.mem_filter.mp hd).2
  · simpa using (List.mem_filter.mp hy).2

theorem slotAbsent_drops {s : State} {slot : Slot} (hruns : trellisRuns s = true)
    (hrole : s.trellis.role = 3 ∨ s.trellis.role = 2) (hpresent : s.trellis.present.getLsbD slot.val = true)
    (hother : slot.val ≠ ownSlot s) :
    Completes (.slotAbsent slot) s (fun t =>
      t.trellis.present.getLsbD slot.val = false ∧ (∀ d ∈ t.trellis.demands, d.slot ≠ slot.val) ∧
      (∀ y ∈ t.trellis.allocs, y.slot ≠ slot.val) ∧ t.trellis.role = s.trellis.role ∧
      (s.trellis.role = 3 → t.logs.general.head? = some (newEntry s 4 0x0C 0x0C05 ([byte slot.val, 1, 0, 0] ++
        wordBytes 4 s.trellis.frame ++ zeros 8))) ∧
      (s.trellis.role = 2 → t.logs = s.logs)) := by
  have hguard : (trellisRuns s && (s.trellis.role == 3 || s.trellis.role == 2) && s.trellis.present.getLsbD slot.val &&
      slot.val ≠ ownSlot s) = true := by
    have hlink : (s.trellis.role == 3 || s.trellis.role == 2) = true := by
      rcases hrole with h | h <;> simp [h]
    rw [hruns, hlink, hpresent, decide_eq_true hother]
    rfl
  have hexec : exec (.slotAbsent slot) s = .next (if s.trellis.role = 3 then logMember slot.val 1 (nameSpare (slotDropped slot s))
      else slotDropped slot s) := congrArg Host.Outcome.next (if_pos hguard)
  obtain ⟨hbit, hdemands, hallocs⟩ := slotDropped_drops slot s
  rcases hrole with hrole | hrole
  · rw [if_pos hrole] at hexec
    have htrellis : (logMember slot.val 1 (nameSpare (slotDropped slot s))).trellis = (nameSpare (slotDropped slot s)).trellis :=
      log_trellis ..
    refine ⟨_, hexec, ?_⟩
    dsimp only
    rw [htrellis]
    exact ⟨hbit, hdemands, hallocs, rfl, fun _ => log_general_head .., fun h => by omega⟩
  · rw [if_neg (by omega)] at hexec
    exact ⟨_, hexec, hbit, hdemands, hallocs, rfl, fun h => by omega, fun _ => rfl⟩

theorem slotAbsent_ignores {s : State} {slot : Slot} (h : ¬((s.trellis.role = 3 ∨ s.trellis.role = 2) ∧
    s.trellis.present.getLsbD slot.val = true ∧ slot.val ≠ ownSlot s)) : Ignores (.slotAbsent slot) s := by
  refine congrArg Host.Outcome.next (if_neg fun hc => h ?_)
  simp only [Bool.and_eq_true, Bool.or_eq_true, beq_iff_eq, decide_eq_true_eq] at hc
  obtain ⟨⟨⟨-, hrole⟩, hpresent⟩, hother⟩ := hc
  exact ⟨hrole, hpresent, hother⟩

/-! ### TRELLIS_PAIR_FAILED (R367) -/

theorem trellisPairFailed_notes {s : State} {pairB failed : Bool} (n : Nat) (hruns : trellisRuns s = true)
    (h : (if pairB then s.trellis.failedB else s.trellis.failedA) ≠ failed) :
    Completes (.trellisPairFailed pairB failed n) s (fun t =>
      (if pairB then t.trellis.failedB else t.trellis.failedA) = failed ∧
      (if pairB then t.trellis.failedA else t.trellis.failedB) = (if pairB then s.trellis.failedA else s.trellis.failedB) ∧
      (∃ e, t.logs.general.head? = some e ∧ e.sub = 0x0C ∧ e.code = 0x0C07)) := by
  have hguard : ¬ (!trellisRuns s || (if pairB then s.trellis.failedB else s.trellis.failedA) == failed) = true := by
    simp [hruns, h]
  refine ⟨_, congrArg Host.Outcome.next (if_neg hguard), ?_⟩
  dsimp only
  rw [log_trellis]
  cases pairB with
  | true => exact ⟨rfl, rfl, _, log_general_head .., rfl, rfl⟩
  | false => exact ⟨rfl, rfl, _, log_general_head .., rfl, rfl⟩

/-! ### MASTERSHIP_TRANSFER (R378, R383) -/

/-- A transfer of mastership to a target is pending. -/
def transferAsked (target : Nat) (s : State) : State :=
  setTrellis (fun t => { t with spareSlot := target, transfer := some (target, 2) }) s

section Transfer

variable {s : State} {r : Request} (hres : fieldN r.payload 1 3 = 0)
include hres

theorem mastershipTransfer_asks (hrole : s.trellis.role = 3) (htarget : fieldN r.payload 0 1 ∈ spareCandidates s) :
    Admitted (opLen 0x0C04 [clsN] 4) r s → Completes (.mastershipTransfer r) s (fun t =>
      Answers s r 0x0C04 St.ok [] t ∧ SameModule (transferAsked (fieldN r.payload 0 1) s) t) :=
  host_leads (op := opLen 0x0C04 [clsN] 4) rfl (sameSender_of rfl rfl rfl) fun x => by
    have htarget' : fieldN r.payload 0 1 ∈ spareCandidates (withHost x s) := htarget
    have hrole' : (withHost x s).trellis.role = 3 := hrole
    exact (guarded_pass (by simp [need, reservedOk_of hres, htarget', hrole'])).trans rfl

theorem mastershipTransfer_range (hrole : s.trellis.role = 3) (htarget : fieldN r.payload 0 1 ∉ spareCandidates s) :
    Admitted (opLen 0x0C04 [clsN] 4) r s → Completes (.mastershipTransfer r) s (fun t =>
      Answers s r 0x0C04 St.range [] t ∧ SameModule s t) :=
  host_refuses (op := opLen 0x0C04 [clsN] 4) rfl fun x => by
    have htarget' : fieldN r.payload 0 1 ∉ spareCandidates (withHost x s) := htarget
    have hrole' : (withHost x s).trellis.role = 3 := hrole
    exact guarded_stop (by simp [need, reservedOk_of hres, htarget', hrole', St.ok, St.range])

theorem mastershipTransfer_refused (hrole : s.trellis.role ≠ 3) :
    Admitted (opLen 0x0C04 [clsN] 4) r s → Completes (.mastershipTransfer r) s (fun t =>
      Answers s r 0x0C04 St.refusedState [] t ∧ SameModule s t) :=
  host_refuses (op := opLen 0x0C04 [clsN] 4) rfl fun x => by
    have hrole' : (withHost x s).trellis.role ≠ 3 := hrole
    exact guarded_stop (by simp [need, reservedOk_of hres, hrole', St.ok, St.refusedState])

end Transfer

/-! ### Mastership, silence and the statement (R368, R375 to R377) -/

theorem spareTakeover_ignores {s : State} (h : trellisRuns s = false ∨ s.trellis.role ≠ 2) : Ignores .spareTakeover s := by
  refine congrArg Host.Outcome.next (if_neg fun hc => ?_)
  obtain ⟨hruns, hrole⟩ := hc
  rcases h with h | h
  · exact ne_true_of_eq_false h hruns
  · exact h hrole

theorem memberSilence_ignores {s : State} (h : trellisRuns s = false ∨ (s.trellis.role ≠ 1 ∧ s.trellis.role ≠ 2)) :
    Ignores .memberSilence s := by
  refine congrArg Host.Outcome.next (if_neg fun hc => ?_)
  obtain ⟨hruns, hrole⟩ := hc
  rcases h with h | ⟨h1, h2⟩
  · exact ne_true_of_eq_false h hruns
  · exact hrole.elim h1 h2

theorem syncReadbackMismatch_ignores {s : State} (h : trellisRuns s = false ∨ s.trellis.role ≠ 3) :
    Ignores .syncReadbackMismatch s := by
  refine congrArg Host.Outcome.next (if_neg fun hc => ?_)
  obtain ⟨hruns, hrole⟩ := hc
  rcases h with h | h
  · exact ne_true_of_eq_false h hruns
  · exact h hrole

/-- A module whose listening time may end in mastership. -/
def listensInVain (s : State) : Bool :=
  trellisRuns s && s.trellis.listening && (ownSlot s == 0 || (candidateMask s).testBit (ownSlot s))

theorem listensInVain_of {s : State} (hruns : trellisRuns s = true) (hlisten : s.trellis.listening = true)
    (h : ownSlot s = 0 ∨ (candidateMask s).testBit (ownSlot s) = true) : listensInVain s = true := by
  rw [listensInVain, hruns, hlisten]
  rcases h with h | h <;> simp [h]

theorem listenTimeExpiry_ignores {s : State} (h : trellisRuns s = false ∨ s.trellis.listening = false ∨
    (ownSlot s ≠ 0 ∧ (candidateMask s).testBit (ownSlot s) = false)) : Ignores .listenTimeExpiry s := by
  have hvain : listensInVain s = false := by
    rw [listensInVain]
    rcases h with h | h | ⟨h0, h1⟩
    · simp [h]
    · simp [h]
    · simp [h0, h1]
  exact congrArg Host.Outcome.next (if_neg (ne_true_of_eq_false hvain))

theorem trellisPairFailed_ignores {s : State} {pairB failed : Bool} (n : Nat)
    (h : trellisRuns s = false ∨ (if pairB then s.trellis.failedB else s.trellis.failedA) = failed) :
    Ignores (.trellisPairFailed pairB failed n) s := by
  refine congrArg Host.Outcome.next (if_pos ?_)
  rcases h with h | h <;> simp [h]

/-- Settles O54, by the frames that a member sends and those that it takes. -/
theorem stackCommands : Obligations.StackCommands := by
  intro s r k bytes pairB failed n
  refine ⟨fun h => ⟨_, exec_trellisFrameStart k s, frameStarted_rests h⟩, trellisFrameStart_keeps, trellisFrameStart_master,
    fun h hrole ⟨m, htransfer⟩ => trellisFrameStart_hands_over h hrole htransfer,
    fun h hrole m j htransfer => trellisFrameStart_announces h hrole htransfer, trellisFrameStart_member,
    trellisFrameStart_takes, ⟨syncReceived_ignores bytes, fun h hbad => ⟨_, syncReceived_counts h hbad, rfl⟩, ?sync⟩, ?slot,
    fun h hrole => takes_mastership (congrArg Host.Outcome.next (if_pos ⟨h, hrole⟩)) ⟨s.trellis.backoff, rfl⟩,
    spareTakeover_ignores,
    fun h hlisten hcandidate => takes_mastership (congrArg Host.Outcome.next (if_pos (listensInVain_of h hlisten hcandidate)))
      ⟨0, rfl⟩,
    listenTimeExpiry_ignores, fun h hrole => ⟨_, congrArg Host.Outcome.next (if_pos ⟨h, hrole⟩), rfl⟩, memberSilence_ignores,
    fun h hrole => ⟨_, congrArg Host.Outcome.next (if_pos ⟨h, hrole⟩), rfl⟩, syncReadbackMismatch_ignores,
    ⟨trellisPairFailed_notes n, trellisPairFailed_ignores n⟩,
    fun hres => ⟨mastershipTransfer_asks hres, mastershipTransfer_range hres, mastershipTransfer_refused hres⟩⟩
  case sync =>
    intro h hlen hcheck
    refine ⟨syncReceived_foreign h hlen hcheck, fun hstack htype => ⟨fun hbad hrole => ?_, ?_, ?_, ?_, fun hgood hterm => ?_⟩⟩
    · exact ⟨_, syncReceived_bad_master h hlen hcheck hstack htype hbad hrole, rfl⟩
    · exact syncReceived_bad_member h hlen hcheck hstack htype
    · exact syncReceived_stale_master h hlen hcheck hstack htype
    · exact syncReceived_stale_member h hlen hcheck hstack htype
    · obtain ⟨hrole, hnew, hmaster, hspare, hmissed, hlistening, hframe, hpresent, hbudget, hdiffers, hsess, hout⟩ :=
        followSync_follows bytes s
      exact ⟨_, syncReceived_follows h hlen hcheck hstack htype hgood hterm, hrole, hnew, hmaster, hspare, hmissed, hlistening,
        hframe, hpresent, hbudget, hdiffers, hsess, hout⟩
  case slot =>
    intro slot h
    refine ⟨slotFrameReceived_own, fun hother hbad => ⟨_, slotFrameReceived_counts h hother hbad, rfl⟩,
      fun hother hlen hcheck => ⟨fun hforeign => ⟨_, slotFrameReceived_foreign h hother hlen hcheck hforeign, rfl⟩,
        fun hsource htype => ⟨slotFrameReceived_takes h hother hlen hcheck hsource htype,
          slotFrameReceived_bad h hother hlen hcheck hsource htype⟩⟩,
      slotAbsent_drops h, slotAbsent_ignores⟩

end Sys2Proof.Machine

/-! # The site line: what a node sends (R390 to R400, R404) -/

namespace Sys2Proof.Machine

/-! ### Frames as bytes (R394) -/

/-- An own frame ahead of its tag. -/
def ownMessage (type dest : Nat) (body : List Byte) (s : State) : List Byte :=
  wadiHeader (wadiSite s) (wadiNode s) dest (wadiSlot s) type (s.sun.epoch % 65536) body.length (nextCounter s) 0 ++ body

/-- An own frame. -/
def ownFrame (key : BitVec 256) (type dest : Nat) (body : List Byte) (s : State) : List Byte :=
  ownMessage type dest body s ++ wordBytes 8 (Config.gcmTag key
    (wadiNonce (wadiNode s) (wadiSlot s) (s.sun.epoch % 65536) (nextCounter s)) (ownMessage type dest body s))

theorem length_wadiHeader (site source dest slot type epoch len : Nat) (counter : U32) (flagBits : Nat) :
    (wadiHeader site source dest slot type epoch len counter flagBits).length = 20 := by
  simp [wadiHeader, length_leBytes, length_wordBytes]

section Fields

variable (key : BitVec 256) (type dest : Nat) (body : List Byte) (s : State)

theorem ownFrame_site : fieldN (ownFrame key type dest body s) 0 2 = wadiSite s % 65536 := by
  have hsplit : ∃ q, ownFrame key type dest body s = leBytes 2 (wadiSite s) ++ q := by
    simp only [ownFrame, ownMessage, wadiHeader, List.append_assoc]
    exact ⟨_, rfl⟩
  obtain ⟨q, hq⟩ := hsplit
  rw [hq, fieldN_append q (by rw [length_leBytes])]
  show leNat ((leBytes 2 (wadiSite s)).take 2) = _
  rw [List.take_of_length_le (by rw [length_leBytes]), leNat_leBytes]
  norm_num

theorem ownFrame_type (h : type < 256) : fieldN (ownFrame key type dest body s) 7 1 = type := by
  have hsplit : ∃ q, ownFrame key type dest body s =
      (leBytes 2 (wadiSite s) ++ leBytes 2 (wadiNode s) ++ leBytes 2 dest ++ [byte (wadiSlot s)]) ++ byte type :: q := by
    simp only [ownFrame, ownMessage, wadiHeader, List.append_assoc, List.cons_append, List.nil_append]
    exact ⟨_, rfl⟩
  obtain ⟨q, hq⟩ := hsplit
  rw [hq]
  exact fieldN_byte (by simp [length_leBytes]) h

theorem ownFrame_body {n : Nat} (h : body.length = n) : slice (ownFrame key type dest body s) 20 n = body := by
  rw [slice, ownFrame, ownMessage, List.append_assoc, List.drop_left' (length_wadiHeader ..), List.take_left' h]

theorem ownFrame_word {w : Nat} (v : BitVec w) (rest : List Byte) (hw : w ≤ 32) :
    fieldN (ownFrame key type dest (wordBytes 4 v ++ rest) s) 20 4 = v.toNat := by
  simp only [ownFrame, ownMessage, List.append_assoc]
  rw [← List.append_assoc]
  exact fieldN_word v (length_wadiHeader ..) hw

end Fields

/-! ### Sending -/

/-- The link after a new frame. -/
def afterSending (type dest mode : Nat) (body : List Byte) (s : State) : Wadi :=
  { s.wadi with
    txEpoch := BitVec.ofNat 16 (s.sun.epoch % 65536), txCounter := nextCounter s + 1, sent := s.wadi.sent + 1
    history := (⟨nextCounter s, dest, type, mode, body, 0⟩ :: s.wadi.history).take 8 }

/-- A frame that fits its mode goes out. -/
theorem sendWadi_sends {s : State} {key : BitVec 256} {mode : Nat} {body : List Byte} (type dest : Nat)
    (hkey : s.cis.wadi = some key) (hdup : s.wadi.duplicate = false) (hfits : body.length + 28 ≤ payloadLimit s mode) :
    sendWadi type dest mode 0 body s = { s with
      wadi := afterSending type dest mode body s
      out := .wadi type mode (ownFrame key type dest body s) (wadiAir s mode (ownFrame key type dest body s)) :: s.out } := by
  have hgoes : ¬ (s.wadi.duplicate = true ∨ payloadLimit s mode < body.length + 28) := by
    simp only [hdup, Bool.false_eq_true, false_or]
    omega
  unfold sendWadi
  rw [hkey]
  exact if_neg hgoes

/-- Every mode carries the beacons, of 60 bytes at most. -/
theorem le_payloadLimit (s : State) (mode : Nat) : 60 ≤ payloadLimit s mode := by
  unfold payloadLimit
  split <;> split <;> decide

theorem wadiAir_congr {s t : State} (mode : Nat) (bytes : List Byte) (h : t.cfg = s.cfg) :
    wadiAir t mode bytes = wadiAir s mode bytes := by
  rw [wadiAir, wadiAir, wadiPorts, wadiPorts, wadiLevel, wadiLevel, cfgN_congr h, cfgN_congr h]

/-! ### The beacon of the site master (R397) -/

/-- What a superframe that starts leaves to the beacon. -/
structure SuperframeStarted (s t : State) : Prop where
  superframe : t.wadi.superframe = s.wadi.superframe + 1
  counter : nextCounter t = nextCounter s
  sent : t.wadi.sent = s.wadi.sent
  duplicate : t.wadi.duplicate = s.wadi.duplicate
  key : t.cis.wadi = s.cis.wadi
  cfg : t.cfg = s.cfg
  sess : t.sess = s.sess
  out : t.out = s.out

theorem startSuperframe_starts (s : State) : SuperframeStarted s (startSuperframe s) := by
  unfold startSuperframe
  split <;> exact ⟨rfl, rfl, rfl, rfl, rfl, rfl, rfl, rfl⟩

theorem length_beaconBody (s : State) : (beaconBody s).length = 20 := by
  simp [beaconBody, length_leBytes, length_wordBytes]

/-- The beacon of the site master goes out. -/
theorem beacon_sent {s : State} {key : BitVec 256} (hrole : s.wadi.role = 4) (hkey : s.cis.wadi = some key)
    (hdup : s.wadi.duplicate = false) :
    let t := sendWindow 0 s
    t.wadi.superframe = s.wadi.superframe + 1 ∧ t.wadi.txCounter = nextCounter s + 1 ∧ t.wadi.sent = s.wadi.sent + 1 ∧
    t.sess = s.sess ∧ ∃ b, t.out = .wadi 1 0 b (wadiAir s 0 b) :: s.out ∧ fieldN b 0 2 = wadiSite s % 65536 ∧
      fieldN b 7 1 = 1 ∧ fieldN b 20 4 = (s.wadi.superframe + 1).toNat := by
  have hwindow : sendWindow 0 s = sendWadi 1 0xFFFF 0 0 (beaconBody (startSuperframe s)) (startSuperframe s) :=
    (if_pos rfl).trans (if_pos hrole)
  obtain ⟨hsuper, hcounter, hsent, hdup', hkey', hcfg, hsess, hout⟩ := startSuperframe_starts s
  rw [hwindow]
  generalize startSuperframe s = t at *
  have hfits : (beaconBody t).length + 28 ≤ payloadLimit t 0 := by
    have hlimit := le_payloadLimit t 0
    rw [length_beaconBody]
    omega
  rw [sendWadi_sends 1 0xFFFF (hkey'.trans hkey) (hdup'.trans hdup) hfits, ← hcounter, ← hsuper, ← hsent, ← hsess, ← hout]
  have hsite : wadiSite t = wadiSite s := cfgN_congr hcfg ..
  refine ⟨rfl, rfl, rfl, rfl, ownFrame key 1 0xFFFF (beaconBody t) t, ?_, ?_, ?_, ?_⟩
  · rw [← wadiAir_congr 0 (ownFrame key 1 0xFFFF (beaconBody t) t) hcfg]
  · rw [← hsite]
    exact ownFrame_site ..
  · exact ownFrame_type _ _ _ _ _ (by decide)
  · simp only [beaconBody, List.append_assoc]
    exact ownFrame_word _ _ _ _ _ _ (by decide)

/-! ### The node beacon (R400, R410) -/

/-- Three pieces of one length. -/
theorem length_threePieces {f : Nat → List Byte} {n : Nat} (h : ∀ e, (f e).length = n) :
    ((List.range 3).flatMap f).length = 3 * n := by
  rw [List.length_flatMap, List.map_congr_left fun e _ => h e, List.map_const', List.sum_replicate, List.length_range]
  rfl

theorem length_requestBytesOf (l : List Resend) : (requestBytesOf l).length = 12 := by
  refine length_threePieces (n := 4) fun e => ?_
  split
  · simp [length_leBytes]
  · rfl

theorem length_nodeBeaconBody (s : State) : (nodeBeaconBody s).length = 32 := by
  have hac : ((ownNode s).ac.flatMap (fun a => leBytes 2 (min 65535 a))).length = 6 := by
    rw [List.length_flatMap, List.map_congr_left fun a _ => length_leBytes 2 (min 65535 a)]
    rfl
  simp [nodeBeaconBody, length_leBytes, leInt, hac, length_requestBytesOf]

/-- What a state has of a node beacon that went out with the content of another state. -/
structure NodeBeaconSent (t u : State) : Prop where
  sent : u.wadi.sent = t.wadi.sent + 1
  lastBeacon : u.wadi.lastBeacon = true
  requests : u.wadi.requests = t.wadi.requests
  beacon : u.wadi.beacon = t.wadi.beacon
  out : ∃ b, u.out = .wadi 3 t.wadi.ownMode b (wadiAir t t.wadi.ownMode b) :: t.out ∧ fieldN b 7 1 = 3 ∧
    slice b 20 32 = t.wadi.beacon

/-- A node beacon goes out with its content. -/
theorem nodeBeacon_sent {s t : State} {key : BitVec 256} (ht : writeNodeBeacon s = t)
    (hkey : t.cis.wadi = some key) (hdup : t.wadi.duplicate = false) (hlen : t.wadi.beacon.length = 32) :
    NodeBeaconSent t (sendNodeBeacon s) := by
  have hnonempty : t.wadi.beacon ≠ [] := by
    intro h
    rw [h] at hlen
    cases hlen
  have hfits := le_payloadLimit t t.wadi.ownMode
  have hsends := sendWadi_sends (s := setWadi (fun w => { w with lastBeacon := true }) t) (mode := t.wadi.ownMode)
    (body := t.wadi.beacon) 3 0xFFFF hkey hdup (by rw [hlen]; exact hfits)
  unfold sendNodeBeacon
  rw [ht]
  dsimp only
  rw [if_neg hnonempty, hsends]
  exact ⟨rfl, rfl, rfl, rfl, _, rfl, ownFrame_type _ _ _ _ _ (by decide), ownFrame_body _ _ _ _ _ hlen⟩

end Sys2Proof.Machine

/-! # The site line: windows (R396, R398, R400, R404, R410) -/

namespace Sys2Proof.Machine

/-! ### WADI_FRAME_START -/

/-- The dial as a window finds it. -/
def windowDial (s : State) : State := if up s then reachAngle 4096 s else s

theorem windowDial_eq (s : State) : windowDial s = { s with
    sun := (windowDial s).sun, fabric := (windowDial s).fabric, out := (windowDial s).out } := by
  unfold windowDial
  split
  · rw [reachAngle_eq]
  · rfl

theorem windowDial_sun (s : State) :
    (windowDial s).sun.quality = s.sun.quality ∧ (windowDial s).sun.epoch = s.sun.epoch := by
  unfold windowDial
  split
  · rw [reachAngle_sun]
    exact ⟨rfl, rfl⟩
  · exact ⟨rfl, rfl⟩

/-- The state in which a window opens. -/
def windowOpen (position : Fin 256) (s : State) : State :=
  { windowDial s with
    wadi := { s.wadi with position := some position.val, heldBack := s.wadi.heldBack && decide (position.val ≠ 0) } }

/-- What the sending of a frame reads of the state, beside the link itself. -/
structure WindowSame (s v : State) : Prop where
  cis : v.cis = s.cis
  cfg : v.cfg = s.cfg
  sess : v.sess = s.sess
  runs : domainRuns v = domainRuns s
  quality : v.sun.quality = s.sun.quality
  counter : nextCounter v = nextCounter s

theorem windowOpen_same (position : Fin 256) (s : State) : WindowSame s (windowOpen position s) := by
  obtain ⟨hquality, hepoch⟩ := windowDial_sun s
  have hcounter : nextCounter (windowOpen position s) = nextCounter s := by
    show (if s.wadi.txEpoch.toNat = (windowDial s).sun.epoch % 65536 then s.wadi.txCounter else 0) = nextCounter s
    rw [hepoch]
    rfl
  refine ⟨?_, ?_, ?_, ?_, hquality, hcounter⟩
  all_goals rw [windowOpen, windowDial_eq]
  rfl

section FrameStart

variable {position : Fin 256} {s : State}

theorem exec_wadiFrameStart (position : Fin 256) (s : State) : exec (.wadiFrameStart position) s = .next (
    if wadiRuns s && s.wadi.test.isNone then
      if s.sun.quality.getLsbD 0 && wadiSender (windowOpen position s) then sendWindow position.val (windowOpen position s)
      else windowOpen position s
    else windowDial s) := by
  have hruns : wadiRuns (windowDial s) = wadiRuns s := by
    rw [windowDial_eq]
    rfl
  have hwadi : (windowDial s).wadi = s.wadi := by rw [windowDial_eq]
  have hopen : setWadi (fun w => { w with
      position := some position.val, heldBack := w.heldBack && position.val ≠ 0 }) (windowDial s) = windowOpen position s := by
    rw [setWadi, hwadi]
    rfl
  have hquality := (windowOpen_same position s).quality
  show Host.Outcome.next (
    if wadiRuns (windowDial s) && (windowDial s).wadi.test.isNone then
      if (setWadi _ (windowDial s)).sun.quality.getLsbD 0 && wadiSender (setWadi _ (windowDial s)) then
        sendWindow position.val (setWadi _ (windowDial s))
      else setWadi _ (windowDial s)
    else windowDial s) = _
  rw [hopen, hruns, hwadi, hquality]

theorem wadiFrameStart_rests (h : wadiRuns s = false ∨ s.wadi.test ≠ none) :
    exec (.wadiFrameStart position) s = .next (windowDial s) := by
  rw [exec_wadiFrameStart, if_neg]
  rcases h with h | h
  · simp [h]
  · simp [h]

variable (hruns : wadiRuns s = true) (htest : s.wadi.test = none)
include hruns htest

theorem wadiFrameStart_opens : exec (.wadiFrameStart position) s = .next (
    if s.sun.quality.getLsbD 0 && wadiSender (windowOpen position s) then sendWindow position.val (windowOpen position s)
    else windowOpen position s) := by
  rw [exec_wadiFrameStart, if_pos (by rw [hruns, htest]; rfl)]

theorem wadiFrameStart_waits (h : s.sun.quality.getLsbD 0 = false ∨ wadiSender (windowOpen position s) = false) :
    exec (.wadiFrameStart position) s = .next (windowOpen position s) := by
  rw [wadiFrameStart_opens hruns htest, if_neg]
  rcases h with h | h
  · rw [h]
    exact Bool.false_ne_true
  · rw [h, Bool.and_false]
    exact Bool.false_ne_true

variable (hlocked : s.sun.quality.getLsbD 0 = true) (hsender : wadiSender (windowOpen position s) = true)
include hlocked hsender

theorem wadiFrameStart_sends :
    exec (.wadiFrameStart position) s = .next (sendWindow position.val (windowOpen position s)) := by
  rw [wadiFrameStart_opens hruns htest, if_pos (by rw [hlocked, hsender]; rfl)]

theorem wadiFrameStart_beacon (hrole : s.wadi.role = 4) (hkey : s.cis.wadi ≠ none) (hdup : s.wadi.duplicate = false)
    (hfirst : position.val = 0) : Completes (.wadiFrameStart position) s (fun t =>
      t.wadi.superframe = s.wadi.superframe + 1 ∧ t.wadi.txCounter = nextCounter s + 1 ∧ t.wadi.sent = s.wadi.sent + 1 ∧
      t.sess = s.sess ∧ ∃ b, t.out = .wadi 1 0 b (wadiAir s 0 b) :: (windowDial s).out ∧ fieldN b 0 2 = wadiSite s % 65536 ∧
        fieldN b 7 1 = 1 ∧ fieldN b 20 4 = (s.wadi.superframe + 1).toNat) := by
  have hexec := wadiFrameStart_sends hruns htest hlocked hsender
  obtain ⟨key, hkey⟩ := Option.ne_none_iff_exists'.mp hkey
  obtain ⟨hcis, hcfg, hsess, -, -, hcounter⟩ := windowOpen_same position s
  rw [hfirst] at hexec
  obtain ⟨hsuper, htx, hsent, hkept, b, hout, hsite, htype, hfield⟩ :=
    beacon_sent (s := windowOpen position s) (key := key) hrole (by rw [hcis, hkey]) hdup
  refine ⟨_, hexec, hsuper, by rw [htx, hcounter], hsent, by rw [hkept, hsess], b, ?_, ?_, htype, hfield⟩
  · rw [hout, wadiAir_congr 0 b hcfg]
    rfl
  · rw [hsite, wadiSite, cfgN_congr hcfg]
    rfl

theorem wadiFrameStart_silent (hrole : s.wadi.role ≠ 4) (hfirst : position.val = 0) :
    exec (.wadiFrameStart position) s = .next (windowOpen position s) := by
  rw [wadiFrameStart_sends hruns htest hlocked hsender]
  exact congrArg Host.Outcome.next ((if_pos hfirst).trans (if_neg hrole))

end FrameStart

/-! ### A window of the own node -/

/-- A window beyond the bulk windows that belongs to the node: it has nothing to send again. -/
structure OwnWindow (position : Nat) (s : State) : Prop where
  first : 24 ≤ position
  last : position < 240
  eighth : position % 8 = 0
  role : s.wadi.role = 3 ∨ s.wadi.role = 4
  index : s.wadi.index ≠ none
  beyond : s.wadi.windows ≤ (position - 24) / 8
  own : windowIndex s ((position - 24) / 8) = s.wadi.index
  again : s.wadi.again = []

theorem sendWindow_own {position : Nat} {s : State} (h : OwnWindow position s) : sendWindow position s = sendNodeBeacon s := by
  obtain ⟨hfirst, hlast, heighth, hrole, hindex, hbeyond, hown, hagain⟩ := h
  have hsome : s.wadi.index.isSome = true := Option.isSome_iff_ne_none.mpr hindex
  unfold sendWindow sendOwnWindow
  rw [if_neg (by omega), if_neg (by omega), if_pos ⟨hfirst, hlast, heighth⟩, if_pos ⟨hrole, hsome, hown⟩,
    if_neg (by omega), hagain]
  rfl

section OwnBeacon

variable {position : Fin 256} {s : State} (hruns : wadiRuns s = true) (htest : s.wadi.test = none)
  (hlocked : s.sun.quality.getLsbD 0 = true) (hsender : wadiSender (windowOpen position s) = true)
  (hwindow : OwnWindow position.val s)
include hruns htest hlocked hsender hwindow

theorem wadiFrameStart_own : exec (.wadiFrameStart position) s = .next (sendNodeBeacon (windowOpen position s)) := by
  obtain ⟨hfirst, hlast, heighth, hrole, hindex, hbeyond, hown, hagain⟩ := hwindow
  rw [wadiFrameStart_sends hruns htest hlocked hsender,
    sendWindow_own (s := windowOpen position s) ⟨hfirst, hlast, heighth, hrole, hindex, hbeyond, hown, hagain⟩]

theorem wadiFrameStart_node (hkey : s.cis.wadi ≠ none) (hdup : s.wadi.duplicate = false) (hdom : domainRuns s = true) :
    Completes (.wadiFrameStart position) s (fun t =>
      t.wadi.sent = s.wadi.sent + 1 ∧ t.wadi.lastBeacon = true ∧ t.wadi.requests = s.wadi.requests.drop 3 ∧
      (∃ b, t.out = .wadi 3 s.wadi.ownMode b (wadiAir s s.wadi.ownMode b) :: (windowDial s).out ∧ fieldN b 7 1 = 3 ∧
        slice b 20 32 = t.wadi.beacon)) := by
  obtain ⟨key, hkey⟩ := Option.ne_none_iff_exists'.mp hkey
  obtain ⟨hcis, hcfg, -, hdomain, -, -⟩ := windowOpen_same position s
  have hexec := wadiFrameStart_own hruns htest hlocked hsender hwindow
  have hwrite : writeNodeBeacon (windowOpen position s) = setWadi (fun w => { w with
      beacon := nodeBeaconBody (windowOpen position s), requests := w.requests.drop 3 }) (windowOpen position s) :=
    if_pos (hdomain.trans hdom)
  obtain ⟨hsent, hlast, hrequests, hbeacon, b, hout, htype, hslice⟩ := nodeBeacon_sent (key := key) hwrite
    (hcis ▸ hkey) hdup (length_nodeBeaconBody _)
  refine ⟨_, hexec, hsent, hlast, hrequests, b, ?_, htype, hslice.trans hbeacon.symm⟩
  rw [hout, ← wadiAir_congr s.wadi.ownMode b hcfg]
  rfl

theorem wadiFrameStart_node_kept (hkey : s.cis.wadi ≠ none) (hdup : s.wadi.duplicate = false) (hdom : domainRuns s = false)
    (hlen : s.wadi.beacon.length = 32) : Completes (.wadiFrameStart position) s (fun t =>
      t.wadi.sent = s.wadi.sent + 1 ∧ t.wadi.beacon = s.wadi.beacon ∧ t.wadi.requests = s.wadi.requests ∧
      (∃ b, t.out = .wadi 3 s.wadi.ownMode b (wadiAir s s.wadi.ownMode b) :: (windowDial s).out ∧
        slice b 20 32 = s.wadi.beacon)) := by
  obtain ⟨key, hkey⟩ := Option.ne_none_iff_exists'.mp hkey
  obtain ⟨hcis, hcfg, -, hdomain, -, -⟩ := windowOpen_same position s
  have hexec := wadiFrameStart_own hruns htest hlocked hsender hwindow
  have hwrite : writeNodeBeacon (windowOpen position s) = windowOpen position s :=
    if_neg (ne_true_of_eq_false (hdomain.trans hdom))
  obtain ⟨hsent, -, hrequests, hbeacon, b, hout, -, hslice⟩ := nodeBeacon_sent (key := key) hwrite (hcis ▸ hkey) hdup hlen
  refine ⟨_, hexec, hsent, hbeacon, hrequests, b, ?_, hslice⟩
  rw [hout, ← wadiAir_congr s.wadi.ownMode b hcfg]
  rfl

theorem wadiFrameStart_node_empty (hdom : domainRuns s = false) (hempty : s.wadi.beacon = []) :
    exec (.wadiFrameStart position) s = .next (windowOpen position s) := by
  have hwrite : writeNodeBeacon (windowOpen position s) = windowOpen position s :=
    if_neg (ne_true_of_eq_false ((windowOpen_same position s).runs.trans hdom))
  rw [wadiFrameStart_own hruns htest hlocked hsender hwindow, sendNodeBeacon, hwrite]
  exact congrArg Host.Outcome.next (if_pos hempty)

end OwnBeacon

end Sys2Proof.Machine

/-! # The site line: reception (R388, R392 to R395, R401, R402, R415) -/

namespace Sys2Proof.Machine

/-! ### What a frame's message leaves of the link: updates do not act on it -/

theorem wadi_setUpdate (f : Update → Update) (s : State) : (setUpdate f s).wadi = s.wadi := rfl

theorem wadi_setSowing (f : Sowing → Sowing) (s : State) : (setSowing f s).wadi = s.wadi := rfl

theorem wadi_setRegion (r : Nat) (f : Region → Region) (s : State) : (setRegion r f s).wadi = s.wadi := rfl

theorem wadi_setSlot (r : Nat) (b : Bool) (f : RegionSlot → RegionSlot) (s : State) : (setSlot r b f s).wadi = s.wadi := rfl

theorem wadi_writeDirectory (f : Update → Update) (s : State) : (writeDirectory f s).wadi = s.wadi := rfl

theorem wadi_eraseTail (b : Bool) (s : State) : (eraseTail b s).wadi = s.wadi := rfl

theorem wadi_clockSlew (origin : Nat) (delta : Int) (s : State) : (clockSlew origin delta s).1.wadi = s.wadi := by
  unfold clockSlew
  split
  · rfl
  · split
    · rfl
    · exact log_wadi ..

theorem wadi_followTime (body : List Byte) (s : State) : (followTime body s).wadi = s.wadi := by
  unfold followTime
  dsimp only
  split
  · exact wadi_clockSlew ..
  · rfl

theorem wadi_logPackage (origin r status step : Nat) (h : List Byte) (s : State) :
    (logPackage origin r status step h s).wadi = s.wadi := log_wadi ..

theorem wadi_openUpdate (origin path id : Nat) (h : List Byte) (s : State) : (openUpdate origin path id h s).wadi = s.wadi := by
  have hlog (t : State) (mask : Nat) (detail : List Byte) : (updateLog origin 0x0E01 mask detail t).wadi = t.wadi := log_wadi ..
  unfold openUpdate
  dsimp only
  simp only [hlog, wadi_setRegion, apply_ite State.wadi, wadi_eraseTail, wadi_writeDirectory, wadi_setSlot, ite_self]

theorem wadi_completeUpdate (origin : Nat) (h : List Byte) (s : State) : (completeUpdate origin h s).1.wadi = s.wadi := by
  unfold completeUpdate
  dsimp only
  simp only [wadi_logPackage, apply_ite State.wadi, wadi_writeDirectory, wadi_setSlot, wadi_setRegion, ite_self]

theorem wadi_takeSowHeader (id : Nat) (data : List Byte) (s : State) : (takeSowHeader id data s).wadi = s.wadi := by
  unfold takeSowHeader
  simp only [wadi_setUpdate, apply_ite State.wadi, wadi_openUpdate, wadi_logPackage, ite_self]

theorem wadi_takeSowPiece (id off : Nat) (data : List Byte) (s : State) : (takeSowPiece id off data s).wadi = s.wadi := by
  unfold takeSowPiece
  simp only [apply_ite State.wadi, wadi_takeSowHeader, wadi_setUpdate, ite_self]

theorem wadi_takeSowData (off : Nat) (data : List Byte) (x : Sowing) (s : State) : (takeSowData off data x s).wadi = s.wadi := by
  unfold takeSowData
  simp only [apply_ite State.wadi, wadi_setUpdate, wadi_setSowing, wadi_completeUpdate, wadi_setRegion, wadi_setSlot, ite_self]

theorem wadi_takeBulk (body : List Byte) (s : State) : (takeBulk body s).wadi = s.wadi := by
  unfold takeBulk
  dsimp only
  split
  · split
    · rfl
    · exact wadi_takeSowPiece ..
  · split
    · split
      · split
        · exact wadi_takeSowData ..
        · rfl
      · rfl
    · rfl

theorem wadi_logSowing (x : Sowing) (t : SowTarget) (s : State) : (logSowing x t s).wadi = s.wadi := log_wadi ..

theorem wadi_masterHears (src dest : Nat) (body : List Byte) (s : State) : (masterHears src dest body s).wadi = s.wadi := by
  unfold masterHears
  split
  · rfl
  · dsimp only
    split
    · rfl
    · split
      · exact foldl_keeps State.wadi _ (fun t g => wadi_logSowing _ g t) _ _
      · rfl

/-! ### What a frame's message leaves of the count and of the replay state -/

/-- The received frames, the failures, and the replay state. -/
def heardView (s : State) : U32 × U32 × List Replay := (s.wadi.received, s.wadi.checkFails, s.wadi.replays)

theorem heardView_of_wadi {s t : State} (h : t.wadi = s.wadi) : heardView t = heardView s := by
  rw [heardView, h]
  rfl

theorem heardView_log (origin sub code : Nat) (detail : List Byte) (legal : Bool) (s : State) :
    heardView (log origin sub code detail legal s) = heardView s := heardView_of_wadi (log_wadi ..)

theorem heardView_setRole (role : Nat) (s : State) : heardView (setRole role s) = heardView s := by
  unfold setRole
  split
  · rfl
  · exact (heardView_log ..).trans rfl

theorem heardView_chooseJoin (s : State) : heardView (chooseJoin s) = heardView s := rfl

theorem heardView_putNeighbour (n : Neighbour) (s : State) : heardView (putNeighbour n s) = heardView s := rfl

theorem heardView_assignIndex (node : Nat) (s : State) : heardView (assignIndex node s) = heardView s := by
  unfold assignIndex
  split <;> rfl

theorem heardView_followBeacon (source slot : Nat) (snr : Int) (body : List Byte) (s : State) :
    heardView (followBeacon source slot snr body s) = heardView s := by
  unfold followBeacon
  dsimp only
  rw [heardView_of_wadi (wadi_followTime ..)]
  simp only [apply_ite heardView, heardView_chooseJoin, heardView_setRole]
  split_ifs <;> rfl

theorem heardView_takeBeacon (source slot : Nat) (snr : Int) (body : List Byte) (s : State) :
    heardView (takeBeacon source slot snr body s) = heardView s := by
  unfold takeBeacon
  dsimp only
  split_ifs
  · exact heardView_followBeacon ..
  · rw [heardView_followBeacon, heardView_setRole]
    rfl
  · rfl

theorem heardView_takeSiteEntry (budget : Int) (caps : List Nat) (s : State) :
    heardView (takeSiteEntry budget caps s) = heardView s := rfl

theorem heardView_takeAllocation (body : List Byte) (s : State) : heardView (takeAllocation body s) = heardView s := by
  unfold takeAllocation
  split
  · rfl
  · dsimp only
    simp only [apply_ite heardView, heardView_takeSiteEntry, heardView_setRole, ite_self]
    rfl

theorem heardView_takeResend (low : Nat) (s : State) : heardView (takeResend low s) = heardView s := by
  unfold takeResend
  split
  · rfl
  · split_ifs <;> rfl

theorem heardView_takeNodeBeacon (source : Nat) (body : List Byte) (s : State) :
    heardView (takeNodeBeacon source body s) = heardView s := by
  unfold takeNodeBeacon
  dsimp only
  refine (foldl_keeps heardView _ (fun t e => ?_) _ _).trans ?_
  · split
    · exact heardView_takeResend ..
    · rfl
  · split <;> rfl

theorem heardView_takeFrame (source slot dest type : Nat) (snr : Int) (body : List Byte) (s : State) :
    heardView (takeFrame source slot dest type snr body s) = heardView s := by
  unfold takeFrame
  dsimp only
  split_ifs
  · exact heardView_takeBeacon ..
  · exact heardView_takeAllocation ..
  · exact heardView_takeNodeBeacon ..
  · exact heardView_assignIndex ..
  · rfl
  · exact heardView_of_wadi ((wadi_takeBulk ..).trans (wadi_masterHears ..))
  · exact heardView_of_wadi (wadi_masterHears ..)
  · rfl

theorem heardView_ownClass (q : Nat) (s : State) : heardView (setWadi (fun w => { w with ownQ := q }) s) = heardView s := rfl

theorem heardView_measurePhase (node start : Nat) (s : State) : heardView (measurePhase node start s) = heardView s := by
  unfold measurePhase
  split
  · rfl
  · extract_lets theta q run m t u
    have hu : heardView u = heardView s := by
      unfold u
      split
      · exact heardView_ownClass ..
      · exact heardView_putNeighbour ..
    split
    · exact (heardView_log ..).trans hu
    · exact heardView_putNeighbour ..

/-- A frame that is accepted is counted, and its counter is the latest of its source. -/
theorem heardView_hearNode (node slot mode : Nat) (snr : Int) (epoch : U16) (counter : U32) (s : State) :
    heardView (hearNode node slot mode snr epoch counter s) = (s.wadi.received + 1, s.wadi.checkFails,
      ⟨node, slot, epoch, counter⟩ :: s.wadi.replays.filter (fun r => !(r.node == node && r.slot == slot))) := by
  unfold hearNode
  simp only [apply_ite heardView, logNodePresence, heardView_log, ite_self]
  rfl

/-- A counter that is the latest of its source is stale. -/
theorem freshFrame_latest {s : State} {node slot : Nat} {epoch : U16} {counter : U32} {l : List Replay}
    (h : s.wadi.replays = ⟨node, slot, epoch, counter⟩ :: l) : freshFrame s node slot epoch counter = false := by
  unfold freshFrame
  rw [h, List.find?_cons_of_pos (by simp)]
  simp [freshFrame.laterGen16]

/-! ### The input that is decoded (R388) -/

/-- The better of two inputs: the first of equals. -/
def betterInput (b : Option WadiHeard) (x : WadiHeard) : Option WadiHeard :=
  match b with
  | none => some x
  | some y => if y.snr < x.snr then some x else some y

/-- An input is at least as good as those before. -/
theorem le_betterInput {b : Option WadiHeard} {x y : WadiHeard} (h : betterInput b x = some y) :
    x.snr ≤ y.snr ∧ ∀ z, b = some z → z.snr ≤ y.snr := by
  cases b with
  | none =>
    obtain rfl : x = y := Option.some.inj h
    exact ⟨le_rfl, fun z hz => nomatch hz⟩
  | some z =>
    simp only [betterInput] at h
    split at h
    next hless =>
      obtain rfl : x = y := Option.some.inj h
      exact ⟨le_rfl, fun w hw => Option.some.inj hw ▸ hless.le⟩
    next hless =>
      obtain rfl : z = y := Option.some.inj h
      exact ⟨not_lt.mp hless, fun w hw => Option.some.inj hw ▸ le_rfl⟩

theorem le_bestOf (l : List WadiHeard) {b : Option WadiHeard} {x : WadiHeard} (h : l.foldl betterInput b = some x) :
    (∀ y ∈ l, y.snr ≤ x.snr) ∧ ∀ z, b = some z → z.snr ≤ x.snr := by
  induction l generalizing b with
  | nil =>
    refine ⟨fun y hy => ?_, fun z hz => ?_⟩
    · cases hy
    · rw [hz] at h
      exact Option.some.inj h ▸ le_rfl
  | cons a l ih =>
    obtain ⟨hrest, hbest⟩ := ih h
    obtain ⟨c, hc⟩ : ∃ c, betterInput b a = some c := by
      cases b with
      | none => exact ⟨a, rfl⟩
      | some z =>
        simp only [betterInput]
        split <;> exact ⟨_, rfl⟩
    obtain ⟨ha, hb⟩ := le_betterInput hc
    have hcx := hbest c hc
    exact ⟨fun y hy => (List.mem_cons.mp hy).elim (fun hya => hya ▸ ha.trans hcx) (hrest y), fun z hz => (hb z hz).trans hcx⟩

theorem le_bestInput {s : State} {f : WadiRx} {x : WadiHeard} (h : bestInput s f = some x) :
    ∀ y ∈ f.inputs.take (wadiPorts s).length, y.snr ≤ x.snr := by
  refine (le_bestOf (b := none) (f.inputs.take (wadiPorts s).length) (x := x) ?_).1
  rw [← h]
  rfl

end Sys2Proof.Machine

/-! # The site line: a frame that is decoded, roles and allocation (R392 to R406, R415) -/

namespace Sys2Proof.Machine

/-! ### WADI_FRAME_RECEIVED -/

theorem wadiFrameReceived_ignores {s : State} {f : WadiRx}
    (h : wadiRuns s = false ∨ s.cis.wadi = none ∨ bestInput s f = none) : Ignores (.wadiFrameReceived f.inputs f.syncAngle) s := by
  show Host.Outcome.next (match s.cis.wadi, bestInput s f with
    | some key, some x => if !wadiRuns s then s else if !controlOk x.control then discardFrame false false 0 0 0 s
      else decodeFrame key f x s
    | _, _ => s) = .next s
  rcases h with h | h | h
  · rw [h]
    split <;> rfl
  · rw [h]
  · rw [h]
    split <;> simp_all

/-- A check of a frame fails. -/
def failCounted (s : State) : State := { s with wadi := { s.wadi with checkFails := s.wadi.checkFails + 1 } }

/-- A frame holds what its header says, and its tag is that of the network key (R395). -/
def TagGood (key : BitVec 256) (p : List Byte) : Prop :=
  28 + fieldN p 10 2 ≤ p.length ∧ slice p (20 + fieldN p 10 2) 8 = wordBytes 8 (Config.gcmTag key
    (wadiNonce (fieldN p 2 2) (fieldN p 6 1) (fieldN p 8 2) (BitVec.ofNat 32 (fieldN p 12 4))) (p.take (20 + fieldN p 10 2)))

/-- More than the tolerated part of a frame was blanked (R393). -/
def isBlanked (s : State) (x : WadiHeard) : Bool :=
  frameBlanked (cfgN s 0x0D03 0 0 1 8) (cfgN s 0x0D03 0 1 1 5) x.preamble x.samples

/-- The counter of a frame is later than the last one of its source. -/
def isFresh (s : State) (p : List Byte) : Bool :=
  freshFrame s (fieldN p 2 2) (fieldN p 6 1) (BitVec.ofNat 16 (fieldN p 8 2)) (BitVec.ofNat 32 (fieldN p 12 4))

/-- What an accepted frame makes of the state ahead of its message. -/
def frameHeard (f : WadiRx) (x : WadiHeard) (s : State) : State :=
  let p := x.payload
  let t := hearNode (fieldN p 2 2) (fieldN p 6 1) (controlMode x.control) x.snr (BitVec.ofNat 16 (fieldN p 8 2))
    (BitVec.ofNat 32 (fieldN p 12 4)) s
  if s.sun.quality.getLsbD 0 then measurePhase (fieldN p 2 2) (startAngle f.syncAngle.val s.sun.dialFreq) t else t

section Received

variable {s : State} {f : WadiRx} {key : BitVec 256} {x : WadiHeard} (hruns : wadiRuns s = true)
  (hkey : s.cis.wadi = some key) (hbest : bestInput s f = some x)
include hruns hkey hbest

theorem exec_wadiFrameReceived : exec (.wadiFrameReceived f.inputs f.syncAngle) s = .next (
    if !controlOk x.control then failCounted s else decodeFrame key f x s) := by
  show Host.Outcome.next (match s.cis.wadi, bestInput s f with
    | some key, some x => if !wadiRuns s then s else if !controlOk x.control then discardFrame false false 0 0 0 s
      else decodeFrame key f x s
    | _, _ => s) = _
  rw [hkey, hbest, hruns]
  rfl

theorem wadiFrameReceived_control (h : controlOk x.control = false) :
    exec (.wadiFrameReceived f.inputs f.syncAngle) s = .next (failCounted s) := by
  rw [exec_wadiFrameReceived hruns hkey hbest, h]
  rfl

variable (hcontrol : controlOk x.control = true)
include hcontrol

theorem exec_wadiFrame : exec (.wadiFrameReceived f.inputs f.syncAngle) s = .next (decodeFrame key f x s) := by
  rw [exec_wadiFrameReceived hruns hkey hbest, hcontrol]
  rfl

theorem wadiFrameReceived_blanked (h : isBlanked s x = true) :
    Completes (.wadiFrameReceived f.inputs f.syncAngle) s (fun t =>
      t = { s with wadi := { s.wadi with blanked := s.wadi.blanked + 1, requests := t.wadi.requests } }) := by
  refine ⟨_, (exec_wadiFrame hruns hkey hbest hcontrol).trans (congrArg Host.Outcome.next (if_pos h)), ?_⟩
  rfl

variable (hclear : isBlanked s x = false)
include hclear

theorem wadiFrameReceived_foreign (h : fieldN x.payload 0 2 ≠ wadiSite s) :
    exec (.wadiFrameReceived f.inputs f.syncAngle) s = .next (failCounted s) :=
  (exec_wadiFrame hruns hkey hbest hcontrol).trans (congrArg Host.Outcome.next
    ((if_neg (ne_true_of_eq_false hclear)).trans (if_pos h)))

variable (hsite : fieldN x.payload 0 2 = wadiSite s) (htag : TagGood key x.payload)
include hsite htag

/-- A frame of the site with a good tag: the own source is a duplicate, and a counter is accepted once. -/
theorem exec_taggedFrame : exec (.wadiFrameReceived f.inputs f.syncAngle) s = .next (
    if fieldN x.payload 2 2 = wadiNode s ∧ fieldN x.payload 6 1 = wadiSlot s then
      setWadi (fun w => { w with duplicate := true }) (log 5 0x0D 0x0D04 (leBytes 2 (fieldN x.payload 2 2) ++
        [byte (fieldN x.payload 6 1), 0] ++ leBytes 4 (fieldN x.payload 12 4) ++ zeros 8) false s)
    else if !isFresh s x.payload then failCounted s
    else takeFrame (fieldN x.payload 2 2) (fieldN x.payload 6 1) (fieldN x.payload 4 2) (fieldN x.payload 7 1) x.snr
      (slice x.payload 20 (fieldN x.payload 10 2)) (frameHeard f x s)) := by
  obtain ⟨hlen, hequal⟩ := htag
  refine (exec_wadiFrame hruns hkey hbest hcontrol).trans (congrArg Host.Outcome.next
    ((if_neg (ne_true_of_eq_false hclear)).trans ((if_neg (not_not.mpr hsite)).trans (if_neg ?_))))
  rintro (hshort | hwrong)
  · exact absurd hshort (by omega)
  · exact hwrong hequal

theorem wadiFrameReceived_duplicate (hsource : fieldN x.payload 2 2 = wadiNode s) (hslot : fieldN x.payload 6 1 = wadiSlot s) :
    Completes (.wadiFrameReceived f.inputs f.syncAngle) s (fun t =>
      t.wadi = { s.wadi with duplicate := true } ∧
        (∃ e, t.logs.general.head? = some e ∧ e.sub = 0x0D ∧ e.code = 0x0D04)) := by
  have hexec := exec_taggedFrame hruns hkey hbest hcontrol hclear hsite htag
  rw [if_pos ⟨hsource, hslot⟩] at hexec
  refine ⟨_, hexec, ?_, _, log_general_head .., rfl, rfl⟩
  dsimp only [setWadi]
  rw [log_wadi]

variable (hother : fieldN x.payload 2 2 ≠ wadiNode s ∨ fieldN x.payload 6 1 ≠ wadiSlot s)
include hother

theorem wadiFrameReceived_stale (h : isFresh s x.payload = false) :
    exec (.wadiFrameReceived f.inputs f.syncAngle) s = .next (failCounted s) := by
  rw [exec_taggedFrame hruns hkey hbest hcontrol hclear hsite htag, if_neg (not_and_or.mpr hother), h]
  rfl

theorem wadiFrameReceived_accepts (h : isFresh s x.payload = true) :
    Completes (.wadiFrameReceived f.inputs f.syncAngle) s (fun t =>
      t.wadi.received = s.wadi.received + 1 ∧ t.wadi.checkFails = s.wadi.checkFails ∧ isFresh t x.payload = false) := by
  have hexec := exec_taggedFrame hruns hkey hbest hcontrol hclear hsite htag
  rw [if_neg (not_and_or.mpr hother), h] at hexec
  have hview := heardView_takeFrame (fieldN x.payload 2 2) (fieldN x.payload 6 1) (fieldN x.payload 4 2)
    (fieldN x.payload 7 1) x.snr (slice x.payload 20 (fieldN x.payload 10 2)) (frameHeard f x s)
  have hheard : heardView (frameHeard f x s) = (s.wadi.received + 1, s.wadi.checkFails,
      ⟨fieldN x.payload 2 2, fieldN x.payload 6 1, BitVec.ofNat 16 (fieldN x.payload 8 2),
        BitVec.ofNat 32 (fieldN x.payload 12 4)⟩ ::
        s.wadi.replays.filter (fun r => !(r.node == fieldN x.payload 2 2 && r.slot == fieldN x.payload 6 1))) := by
    unfold frameHeard
    dsimp only
    split
    · rw [heardView_measurePhase, heardView_hearNode]
    · exact heardView_hearNode ..
  rw [hheard] at hview
  exact ⟨_, hexec, congrArg (·.1) hview, congrArg (·.2.1) hview, freshFrame_latest (congrArg (·.2.2) hview)⟩

end Received

/-! ### WADI_ALLOCATION (R406) -/

/-- The phase checks keep the nodes. -/
theorem site_sitePhaseCheck (limit dc : Rat) (phase : Nat) (l : List SiteShare) :
    (sitePhaseCheck limit dc phase l).map SiteShare.site = l.map SiteShare.site := by
  unfold sitePhaseCheck
  dsimp only
  split
  · rfl
  · rw [List.map_map]
    rfl

/-- A share belongs to a node that demands power. -/
theorem site_mem_siteShares {s : State} {x : SiteShare} (h : x ∈ siteShares s) : x.site ∈ siteNodes s := by
  have hsites : ∀ l : List SiteShare, (∀ y ∈ l.map SiteShare.site, y ∈ siteNodes s) → ∀ y ∈ l, y.site ∈ siteNodes s :=
    fun l hl y hy => hl _ (List.mem_map_of_mem hy)
  refine hsites (siteShares s) ?_ x h
  have hfirst : ∀ y ∈ (((siteNodes s).zip (waterFill ((siteNodes s).map (fun n => (n.demand, max 1 n.weight)))
      (cfgN s 0x0D02 0 0 4 400000))).map (fun x => siteShare (nominalVolts s) x.1 x.2)).map SiteShare.site, y ∈ siteNodes s := by
    intro y hy
    rw [List.map_map] at hy
    obtain ⟨z, hz, rfl⟩ := List.mem_map.mp hy
    exact (List.of_mem_zip hz).1
  have hchecks : ∀ (limits : List Rat) (dc : Rat) (l : List SiteShare),
      ((List.range 3).foldl (fun l x => sitePhaseCheck (limits.getD x 0) dc x l) l).map SiteShare.site = l.map SiteShare.site :=
    fun limits dc l => List.foldlRecOn (motive := fun m : List SiteShare => m.map SiteShare.site = l.map SiteShare.site) _ _ rfl
      fun m hm x _ => (site_sitePhaseCheck ..).trans hm
  unfold siteShares
  dsimp only
  split
  · rw [hchecks]
    exact hfirst
  · rw [List.map_map]
    show ∀ y ∈ List.map SiteShare.site (List.foldl _ _ _), _
    rw [hchecks]
    exact hfirst

/-- The budget and the caps of a node: none without a share. -/
def siteEntry (s : State) (node : Nat) : Int × List Nat :=
  match (siteShares s).find? (fun x => x.site.node == node) with
  | some x => (shareBudget (nominalVolts s) x, shareCaps (nominalVolts s) x)
  | none => (0, [0, 0, 0])

theorem siteEntry_of_no_demand {s : State} {node : Nat} (h : ∀ y ∈ siteNodes s, y.node ≠ node) :
    siteEntry s node = (0, [0, 0, 0]) := by
  have hnone : (siteShares s).find? (fun x => x.site.node == node) = none :=
    List.find?_eq_none.mpr fun x hx => by simpa using h _ (site_mem_siteShares hx)
  rw [siteEntry, hnone]

/-- The allocation of a site master. -/
def siteAllocated (s : State) : State :=
  takeSiteEntry (siteEntry s (wadiNode s)).1 (siteEntry s (wadiNode s)).2 (setWadi (fun w => { w with
    neighbours := w.neighbours.map (fun n => { n with budget := (siteEntry s n.node).1, caps := (siteEntry s n.node).2 }) }) s)

theorem wadiAllocation_allocates {s : State} (hruns : wadiRuns s = true) (hrole : s.wadi.role = 4) :
    Completes .wadiAllocation s (fun t =>
      t.sess.siteAt = s.clockMs ∧ t.sess.siteStale = false ∧ t.sess.siteBudget = t.wadi.siteBudget ∧ t.sess.siteBudget ≠ none ∧
      (∀ n ∈ t.wadi.neighbours, (∀ y ∈ siteNodes s, y.node ≠ n.node) → n.budget = 0 ∧ n.caps = [0, 0, 0]) ∧
      t.wadi.neighbours.length = s.wadi.neighbours.length ∧
        t.sess = { s.sess with siteBudget := t.sess.siteBudget, siteAt := s.clockMs, siteStale := false }) := by
  have hexec : exec .wadiAllocation s = .next (siteAllocated s) := congrArg Host.Outcome.next (if_pos ⟨hruns, hrole⟩)
  refine ⟨_, hexec, rfl, rfl, rfl, Option.some_ne_none _, fun n hn hnone => ?_, List.length_map .., rfl⟩
  obtain ⟨m, -, rfl⟩ := List.mem_map.mp hn
  have hentry := siteEntry_of_no_demand (node := m.node) hnone
  exact ⟨congrArg (·.1) hentry, congrArg (·.2) hentry⟩

theorem siteMaster_ignores {s : State} (index : Fin 256) (h : wadiRuns s = false ∨ s.wadi.role ≠ 4) :
    Ignores .wadiAllocation s ∧ Ignores (.indexFree index) s := by
  have hguard : ¬ (wadiRuns s = true ∧ s.wadi.role = 4) := by
    rintro ⟨hruns, hrole⟩
    rcases h with h | h
    · exact ne_true_of_eq_false h hruns
    · exact h hrole
  exact ⟨congrArg Host.Outcome.next (if_neg hguard), congrArg Host.Outcome.next (if_neg hguard)⟩

theorem indexFree_frees {s : State} (index : Fin 256) (hruns : wadiRuns s = true) (hrole : s.wadi.role = 4) :
    Completes (.indexFree index) s (fun t =>
      t = { s with wadi := { s.wadi with indices := t.wadi.indices } } ∧
      (∀ y, y ∈ t.wadi.indices ↔ y ∈ s.wadi.indices ∧ y.2 ≠ index.val)) := by
  refine ⟨_, congrArg Host.Outcome.next (if_pos ⟨hruns, hrole⟩), rfl, fun y => ?_⟩
  exact List.mem_filter.trans (and_congr_right fun _ => by simp)

/-! ### NODE_ABSENT (R402) -/

/-- A neighbour that is absent. -/
def absentNeighbour (n : Neighbour) : Neighbour :=
  { n with present := false, demand := 0, dcDemand := 0, acDemand := [0, 0, 0], budget := 0 }

theorem neighbourOf_putNeighbour {s : State} {n m : Neighbour} (h : neighbourOf s m.node = some n) :
    neighbourOf (putNeighbour m s) m.node = some m := by
  have hmem := List.mem_of_find?_eq_some h
  have hnode : n.node = m.node := by simpa using List.find?_some h
  have hknown : s.wadi.neighbours.any (fun x => x.node == m.node) = true :=
    List.any_eq_true.mpr ⟨n, hmem, by simp [hnode]⟩
  unfold neighbourOf at h ⊢
  unfold putNeighbour
  dsimp only [setWadi]
  rw [hknown, if_pos rfl]
  clear hknown hmem
  generalize s.wadi.neighbours = l at h ⊢
  induction l with
  | nil => cases h
  | cons a l ih =>
    by_cases ha : a.node = m.node
    · simp [ha]
    · rw [List.find?_cons_of_neg (by simpa using ha)] at h
      rw [List.map_cons, if_neg ha, List.find?_cons_of_neg (by simpa using ha)]
      exact ih h

theorem nodeAbsent_drops {s : State} {node : Nat} (hruns : wadiRuns s = true) (n : Neighbour) (h : neighbourOf s node = some n)
    (hpresent : n.present = true) : Completes (.nodeAbsent node) s (fun t =>
      (∃ m, neighbourOf t node = some m ∧ m.present = false ∧ m.demand = 0 ∧ m.dcDemand = 0 ∧ m.budget = 0 ∧
        m.index = n.index) ∧
      (∀ y ∈ t.wadi.replays, y.node ≠ node) ∧
      t.logs.general.head? = some (newEntry s 5 0x0D 0x0D02 (leBytes 2 node ++ [1, byte n.index] ++ superframeBytes s))) := by
  have hnode : n.node = node := by simpa using List.find?_some h
  have hdrop : dropNode node s = logNodePresence node 1 n.index
      (setWadi (fun w => { w with replays := w.replays.filter (fun r => r.node != node) })
        (putNeighbour (absentNeighbour n) s)) := by
    unfold dropNode
    rw [h]
    dsimp only
    rw [if_neg (by simp [hpresent])]
    rfl
  have hexec : exec (.nodeAbsent node) s = .next (dropNode node s) := congrArg Host.Outcome.next (if_pos hruns)
  rw [hdrop] at hexec
  subst hnode
  refine ⟨_, hexec, ⟨absentNeighbour n, ?_, rfl, rfl, rfl, rfl, rfl⟩, ?_, log_general_head ..⟩
  · have hput := neighbourOf_putNeighbour (m := absentNeighbour n) h
    unfold neighbourOf at hput ⊢
    dsimp only [logNodePresence]
    rw [log_wadi]
    exact hput
  · dsimp only [logNodePresence]
    rw [log_wadi]
    intro y hy
    simpa using (List.mem_filter.mp hy).2

theorem nodeAbsent_ignores {s : State} {node : Nat}
    (h : wadiRuns s = false ∨ ∀ n, neighbourOf s node = some n → n.present = false) : Ignores (.nodeAbsent node) s := by
  rcases h with h | h
  · exact congrArg Host.Outcome.next (if_neg (ne_true_of_eq_false h))
  · have hdrop : dropNode node s = s := by
      unfold dropNode
      split
      · rfl
      next n hn =>
        rw [h n hn]
        rfl
    refine congrArg Host.Outcome.next ?_
    split
    · exact hdrop
    · rfl

end Sys2Proof.Machine

/-! # The site line: roles, joining, the transmit test and the statement (R399 to R403, R414) -/

namespace Sys2Proof.Machine

/-! ### MASTER_LOST and MASTER_CANDIDATE_START (R403) -/

theorem setRole_wadi (role : Nat) (s : State) : (setRole role s).wadi = { s.wadi with role := role } := by
  unfold setRole
  split
  next h =>
    rw [h]
  next =>
    exact log_wadi ..

/-- A change of role is logged. -/
theorem setRole_logs {role : Nat} {s : State} (h : role ≠ s.wadi.role) :
    ∃ e, (setRole role s).logs.general.head? = some e ∧ e.sub = 0x0D ∧ e.code = 0x0D01 := by
  unfold setRole
  rw [if_neg h]
  exact ⟨_, log_general_head .., rfl, rfl⟩

theorem setRole_sess (role : Nat) (s : State) : (setRole role s).sess = s.sess := by
  unfold setRole
  split
  · rfl
  · exact log_sess ..

theorem masterLost_listens {s : State} (hruns : wadiRuns s = true) (hrole : s.wadi.role ≠ 4) :
    Completes .masterLost s (fun t => t.wadi = { s.wadi with role := 1, silent := 3 } ∧ t.sess = s.sess) :=
  ⟨_, congrArg Host.Outcome.next (if_pos ⟨hruns, hrole⟩), setRole_wadi .., setRole_sess ..⟩

/-- A module that may become site master. -/
def mayLead (s : State) : Bool := wadiRuns s && wadiSender s && wadiPriority s ≠ 0 && s.wadi.role ≠ 4

theorem masterCandidateStart_rests {s : State} (h : mayLead s = false) : Ignores .masterCandidateStart s :=
  congrArg Host.Outcome.next (if_neg (ne_true_of_eq_false h))

theorem siteMember_ignores {s : State} (h : wadiRuns s = false ∨ s.wadi.role = 4) :
    Ignores .masterLost s ∧ Ignores .masterCandidateStart s := by
  refine ⟨congrArg Host.Outcome.next (if_neg ?_), masterCandidateStart_rests ?_⟩
  · rintro ⟨hruns, hrole⟩
    rcases h with h | h
    · exact ne_true_of_eq_false h hruns
    · exact hrole h
  · rcases h with h | h <;> simp [mayLead, h]

theorem masterCandidateStart_ignores {s : State} (h : wadiSender s = false ∨ wadiPriority s = 0) :
    Ignores .masterCandidateStart s := by
  refine masterCandidateStart_rests ?_
  rcases h with h | h <;> simp [mayLead, h]

/-- An index stands in the list of a node that was given one. -/
theorem assignIndex_assigns (node : Nat) (s : State) : (assignIndex node s).wadi.indices.find? (fun x => x.1 == node) ≠ none := by
  unfold assignIndex
  split
  next h =>
    obtain ⟨x, hx, hnode⟩ := List.any_eq_true.mp h
    exact fun hnone => List.find?_eq_none.mp hnone x hx hnode
  next =>
    intro hnone
    exact List.find?_eq_none.mp hnone (node, freeIndex s) (List.mem_append_right _ (List.mem_singleton_self _)) (by simp)

theorem assignIndex_wadi (node : Nat) (s : State) :
    (assignIndex node s).wadi = { s.wadi with indices := (assignIndex node s).wadi.indices } := by
  unfold assignIndex
  split <;> rfl

/-- The link of a candidate that leads, before it has an index. -/
def leadLink (s : State) : State :=
  setWadi (fun w => { w with
    masterNode := wadiNode s, masterSlot := wadiSlot s, masterPriority := wadiPriority s
    superframe := w.superframe + BitVec.ofNat 32 (candidateWait s)
    indices := (w.index.elim [] (fun i => [(wadiNode s, i)])) ++
      (s.wadi.neighbours.filter (fun n => n.present)).map (fun n => (n.node, n.index))
    rotation := 0, windows := 0, owner := none, silent := 0, joinWait := 0, joinAt := none }) s

/-- A candidate that leads has an index of its own. -/
def leadIndexed (s : State) : State :=
  setWadi (fun w => { w with index := (w.indices.find? (fun x => x.1 == wadiNode s)).map (fun x => x.2) })
    (assignIndex (wadiNode s) (leadLink s))

theorem masterCandidateStart_leads {s : State} (hruns : wadiRuns s = true) (hsender : wadiSender s = true)
    (hpriority : wadiPriority s ≠ 0) (hrole : s.wadi.role ≠ 4) : Completes .masterCandidateStart s (fun t =>
      t.wadi.role = 4 ∧ t.wadi.masterNode = wadiNode s ∧ t.wadi.masterPriority = wadiPriority s ∧ t.wadi.index ≠ none ∧
      t.wadi.superframe = s.wadi.superframe + BitVec.ofNat 32 (candidateWait s) ∧
      (∃ e, t.logs.general.head? = some e ∧ e.sub = 0x0D ∧ e.code = 0x0D01)) := by
  have hlead : mayLead s = true := by simp [mayLead, hruns, hsender, hpriority, hrole]
  have hexec : exec .masterCandidateStart s = .next (setRole 4 (leadIndexed s)) := congrArg Host.Outcome.next (if_pos hlead)
  have hassign := assignIndex_wadi (wadiNode s) (leadLink s)
  have hindexed := assignIndex_assigns (wadiNode s) (leadLink s)
  have hlink : (leadIndexed s).wadi = { (leadLink s).wadi with
      indices := (assignIndex (wadiNode s) (leadLink s)).wadi.indices
      index := ((assignIndex (wadiNode s) (leadLink s)).wadi.indices.find? (fun x => x.1 == wadiNode s)).map (fun x => x.2) } := by
    rw [leadIndexed, setWadi, hassign]
  refine ⟨_, hexec, ?_⟩
  dsimp only
  rw [setRole_wadi, hlink]
  refine ⟨rfl, rfl, rfl, ?_, rfl, setRole_logs ?_⟩
  · exact fun hnone => hindexed (Option.map_eq_none_iff.mp hnone)
  · rw [hlink]
    exact hrole.symm

/-! ### JOIN_TIMEOUT (R399) -/

theorem chooseJoin_joinAt (s : State) : (chooseJoin s).wadi.joinAt = if Config.freeBool s.freeCount = true then
    some (if Config.freeBool (s.freeCount + 1) = true then 248 else 240) else none := rfl

theorem joinTimeout_chooses {s : State} (hruns : wadiRuns s = true) (hrole : s.wadi.role = 2) :
    Completes .joinTimeout s (fun t => t.wadi.joinWait = 0 ∧ t.wadi.role = 2 ∧
      (t.wadi.joinAt = none ∨ t.wadi.joinAt = some 240 ∨ t.wadi.joinAt = some 248)) := by
  refine ⟨_, congrArg Host.Outcome.next (if_pos ⟨hruns, hrole⟩), rfl, hrole, ?_⟩
  rw [chooseJoin_joinAt]
  split_ifs
  · exact .inr (.inr rfl)
  · exact .inr (.inl rfl)
  · exact .inl rfl

theorem joinTimeout_ignores {s : State} (h : wadiRuns s = false ∨ s.wadi.role ≠ 2) : Ignores .joinTimeout s := by
  refine congrArg Host.Outcome.next (if_neg ?_)
  rintro ⟨hruns, hrole⟩
  rcases h with h | h
  · exact ne_true_of_eq_false h hruns
  · exact h hrole

/-! ### TRANSMIT_TEST (R414) -/

theorem sendCopies_keeps {o : Out} (n : Nat) (p : Packet) {s : State} (h : o ∈ s.out) :
    o ∈ ((List.replicate (n + 1) ()).foldl (fun t _ => sendPacket p t) s).out :=
  List.foldlRecOn (motive := fun t : State => o ∈ t.out) _ _ h fun _ ht _ _ => List.mem_cons_of_mem _ ht

/-- A response goes out after what was sent before it. -/
theorem mem_completeRequest_out {o : Out} {s : State} (port : Port) (cls code : Nat) (seq : U32) (st : Nat) (pl : List Byte)
    (h : o ∈ s.out) : o ∈ (completeRequest port cls code seq st pl s).out := by
  unfold completeRequest
  dsimp only
  rw [setOrigin_out]
  refine sendCopies_keeps _ _ ?_
  unfold journal
  split
  · exact h
  · exact h

/-- A transmit test runs. -/
def testSent (mode : Nat) (s : State) : State :=
  emit (.wadiTest mode (wadiPorts s) (wadiLevel s)) (setWadi (fun w => { w with test := some mode }) s)

/-- The action of TRANSMIT_TEST. -/
def transmitTestAct (r : Request) (s : State) : State × Answer :=
  guarded [ need (fieldN r.payload 0 1 ≤ 3) St.range, reservedOk r.payload 1 1, need (fieldN r.payload 2 2 ≠ 0) St.lenZero
          , need (fieldN r.payload 2 2 ≤ 60) St.range, need (inService s && allIdle s) St.refusedState ]
    (fun s => done (testSent (fieldN r.payload 0 1) s)) s

theorem exec_transmitTest (r : Request) (s : State) :
    exec (.transmitTest r) s = .next (hostRequest (opLen 0x0D03 [clsN] 4) r (transmitTestAct r) s) := rfl

section TransmitTest

variable {s : State} {r : Request} (hmode : fieldN r.payload 0 1 ≤ 3) (hres : fieldN r.payload 1 1 = 0)
include hmode hres

theorem transmitTest_passes (hlow : 1 ≤ fieldN r.payload 2 2) (hhigh : fieldN r.payload 2 2 ≤ 60) (hservice : inService s = true)
    (hidle : allIdle s = true) (x : HostLink) :
    transmitTestAct r (withHost x s) = (withHost x (testSent (fieldN r.payload 0 1) s), .now St.ok []) := by
  have hservice' : inService (withHost x s) = true := hservice
  have hidle' : allIdle (withHost x s) = true := hidle
  have hzero : fieldN r.payload 2 2 ≠ 0 := by omega
  exact (guarded_pass (by simp [need, hmode, reservedOk_of hres, hzero, hhigh, hservice', hidle'])).trans rfl

theorem transmitTest_runs (hlow : 1 ≤ fieldN r.payload 2 2) (hhigh : fieldN r.payload 2 2 ≤ 60) (hservice : inService s = true)
    (hidle : allIdle s = true) : Admitted (opLen 0x0D03 [clsN] 4) r s → Completes (.transmitTest r) s (fun t =>
      Answers s r 0x0D03 St.ok [] t ∧
        SameModule { s with wadi := { s.wadi with test := some (fieldN r.payload 0 1) } } t) :=
  host_leads (op := opLen 0x0D03 [clsN] 4) (u := testSent (fieldN r.payload 0 1) s) (exec_transmitTest r s)
    (sameSender_of rfl rfl rfl)
    (transmitTest_passes hmode hres hlow hhigh hservice hidle)

theorem transmitTest_emits (hlow : 1 ≤ fieldN r.payload 2 2) (hhigh : fieldN r.payload 2 2 ≤ 60) (hservice : inService s = true)
    (hidle : allIdle s = true) (h : Admitted (opLen 0x0D03 [clsN] 4) r s) : Completes (.transmitTest r) s (fun t =>
      .wadiTest (fieldN r.payload 0 1) (wadiPorts s) (wadiLevel s) ∈ t.out) := by
  have hadmitted : transmitTestAct r (admitted 0x0D03 r s) =
      (withHost (admitted 0x0D03 r s).host (testSent (fieldN r.payload 0 1) s), .now St.ok []) := by
    rw [admitted_eq]
    exact transmitTest_passes hmode hres hlow hhigh hservice hidle _
  refine ⟨_, (exec_transmitTest r s).trans (congrArg Host.Outcome.next (host_completes h (by decide) hadmitted)), ?_⟩
  exact mem_completeRequest_out _ _ _ _ _ _ (List.mem_cons_self ..)

theorem transmitTest_refused (hlow : 1 ≤ fieldN r.payload 2 2) (hhigh : fieldN r.payload 2 2 ≤ 60)
    (h : inService s = false ∨ allIdle s = false) : Admitted (opLen 0x0D03 [clsN] 4) r s → Completes (.transmitTest r) s (fun t =>
      Answers s r 0x0D03 St.refusedState [] t ∧ SameModule s t) :=
  host_refuses (op := opLen 0x0D03 [clsN] 4) (exec_transmitTest r s) fun x => by
    have hzero : fieldN r.payload 2 2 ≠ 0 := by omega
    have hrest : (inService (withHost x s) && allIdle (withHost x s)) = false := by
      show (inService s && allIdle s) = false
      rcases h with h | h <;> simp [h]
    exact guarded_stop (by rw [hrest]; simp [need, hmode, reservedOk_of hres, hzero, hhigh, St.ok, St.refusedState])

theorem transmitTest_zero (h : fieldN r.payload 2 2 = 0) :
    Admitted (opLen 0x0D03 [clsN] 4) r s → Completes (.transmitTest r) s (fun t =>
      Answers s r 0x0D03 St.lenZero [] t ∧ SameModule s t) :=
  host_refuses (op := opLen 0x0D03 [clsN] 4) (exec_transmitTest r s) fun x =>
    guarded_stop (by simp [need, hmode, reservedOk_of hres, h, St.ok, St.lenZero])

theorem transmitTest_range (h : 60 < fieldN r.payload 2 2) :
    Admitted (opLen 0x0D03 [clsN] 4) r s → Completes (.transmitTest r) s (fun t =>
      Answers s r 0x0D03 St.range [] t ∧ SameModule s t) :=
  host_refuses (op := opLen 0x0D03 [clsN] 4) (exec_transmitTest r s) fun x => by
    have hzero : fieldN r.payload 2 2 ≠ 0 := by omega
    exact guarded_stop (by simp [need, hmode, reservedOk_of hres, hzero, Nat.not_le.mpr h, St.ok, St.range])

end TransmitTest

/-! ### The statement -/

/-- Settles O55, by the frames that a node sends, takes and discards. -/
theorem wadiCommands : Obligations.WadiCommands := by
  intro s r position index f node
  refine ⟨fun h => ⟨_, wadiFrameStart_rests h, rfl⟩, ?start, wadiFrameReceived_ignores, ?received, wadiAllocation_allocates,
    siteMaster_ignores index, indexFree_frees index, nodeAbsent_drops, nodeAbsent_ignores, masterLost_listens,
    siteMember_ignores, masterCandidateStart_leads, masterCandidateStart_ignores, joinTimeout_chooses, joinTimeout_ignores,
    fun hmode hres => ⟨transmitTest_runs hmode hres, transmitTest_emits hmode hres, transmitTest_refused hmode hres,
      transmitTest_zero hmode hres, transmitTest_range hmode hres⟩, ⟨_, rfl, rfl⟩⟩
  case start =>
    intro hruns htest
    refine ⟨fun h => ⟨_, wadiFrameStart_waits hruns htest h, rfl⟩, fun hlocked hsender => ⟨?_, ?_, ?_⟩⟩
    · exact wadiFrameStart_beacon hruns htest hlocked hsender
    · exact fun hrole hfirst => ⟨_, wadiFrameStart_silent hruns htest hlocked hsender hrole hfirst, rfl⟩
    · intro hfirst hlast heighth hrole hindex hbeyond hown hagain hkey hdup
      have hwindow : OwnWindow position.val s := ⟨hfirst, hlast, heighth, hrole, hindex, hbeyond, hown, hagain⟩
      exact ⟨wadiFrameStart_node hruns htest hlocked hsender hwindow hkey hdup,
        wadiFrameStart_node_kept hruns htest hlocked hsender hwindow hkey hdup,
        fun hdom hempty => ⟨_, wadiFrameStart_node_empty hruns htest hlocked hsender hwindow hdom hempty, rfl⟩⟩
  case received =>
    intro key x hruns hkey hbest
    refine ⟨le_bestInput hbest, fun h => ⟨_, wadiFrameReceived_control hruns hkey hbest h, rfl⟩,
      wadiFrameReceived_blanked hruns hkey hbest, fun hcontrol hclear =>
        ⟨fun h => ⟨_, wadiFrameReceived_foreign hruns hkey hbest hcontrol hclear h, rfl⟩, fun hsite hlen hequal => ?_⟩⟩
    exact ⟨wadiFrameReceived_duplicate hruns hkey hbest hcontrol hclear hsite ⟨hlen, hequal⟩,
      fun hother h => ⟨_, wadiFrameReceived_stale hruns hkey hbest hcontrol hclear hsite ⟨hlen, hequal⟩ hother h, rfl⟩,
      wadiFrameReceived_accepts hruns hkey hbest hcontrol hclear hsite ⟨hlen, hequal⟩⟩

end Sys2Proof.Machine

/-! # Regions and their slots (R416, R417, R436) -/

namespace Sys2Proof.Machine

/-! ### A region that changes -/

/-- A change of a region leaves the directory and what is not a region. -/
theorem setRegion_update (r : Nat) (f : Region → Region) (s : State) : (setRegion r f s).update = { s.update with
    boot := (setRegion r f s).update.boot, legal := (setRegion r f s).update.legal, app := (setRegion r f s).update.app
    engine := (setRegion r f s).update.engine, config := (setRegion r f s).update.config } := by
  match r with
  | 0 => rfl
  | 1 => rfl
  | 2 => rfl
  | 3 => rfl
  | _ + 4 => rfl

theorem setRegion_eq (r : Nat) (f : Region → Region) (s : State) :
    setRegion r f s = { s with update := (setRegion r f s).update } := rfl

theorem regionOf_setRegion (r : Nat) (f : Region → Region) (s : State) : regionOf (setRegion r f s) r = f (regionOf s r) := by
  match r with
  | 0 => rfl
  | 1 => rfl
  | 2 => rfl
  | 3 => rfl
  | _ + 4 => rfl

theorem regionOf_setRegion_other {r x : Nat} (f : Region → Region) (s : State) (hr : r < 5) (hx : x < 5) (h : x ≠ r) :
    regionOf (setRegion r f s) x = regionOf s x := by
  interval_cases r <;> interval_cases x <;> simp_all [regionOf, setRegion, setUpdate]

theorem regionOf_congr {s t : State} (h : t.update = s.update) (r : Nat) : regionOf t r = regionOf s r := by
  unfold regionOf
  rw [h]

/-- The regions, which a write of the directory leaves. -/
theorem regionOf_writeDirectory {f : Update → Update} (h : ∀ u, (f u).boot = u.boot ∧ (f u).legal = u.legal ∧ (f u).app = u.app ∧
    (f u).engine = u.engine ∧ (f u).config = u.config) (s : State) (r : Nat) :
    regionOf (writeDirectory f s) r = regionOf s r := by
  obtain ⟨hboot, hlegal, happ, hengine, hconfig⟩ := h s.update
  unfold regionOf
  dsimp only [writeDirectory, setUpdate]
  rw [hboot, hlegal, happ, hengine, hconfig]

/-! ### A slot that changes -/

theorem slotOf_congr {s t : State} {r : Nat} (h : regionOf t r = regionOf s r) (b : Bool) : slotOf t r b = slotOf s r b := by
  rw [slotOf, slotOf, h]

theorem slotOf_setSlot (r : Nat) (b : Bool) (f : RegionSlot → RegionSlot) (s : State) :
    slotOf (setSlot r b f s) r b = f (slotOf s r b) := by
  rw [slotOf, slotOf, setSlot, regionOf_setRegion]
  cases b <;> rfl

/-- The other slot of the region stays. -/
theorem slotOf_setSlot_not (r : Nat) (b : Bool) (f : RegionSlot → RegionSlot) (s : State) :
    slotOf (setSlot r (!b) f s) r b = slotOf s r b := by
  rw [slotOf, slotOf, setSlot, regionOf_setRegion]
  cases b <;> rfl

theorem slotOf_setSlot_other {r x : Nat} (b c : Bool) (f : RegionSlot → RegionSlot) (s : State) (hr : r < 5) (hx : x < 5)
    (h : x ≠ r) : slotOf (setSlot r b f s) x c = slotOf s x c :=
  slotOf_congr (regionOf_setRegion_other _ s hr hx h) c

/-- A change of a region that leaves its slots. -/
theorem slotOf_setRegion {f : Region → Region} (h : ∀ x, (f x).slotA = x.slotA ∧ (f x).slotB = x.slotB) (r : Nat) (b : Bool)
    (s : State) : slotOf (setRegion r f s) r b = slotOf s r b := by
  obtain ⟨ha, hb⟩ := h (regionOf s r)
  rw [slotOf, slotOf, regionOf_setRegion, ha, hb]

/-- A region beside its slots. -/
theorem regionOf_setSlot (r : Nat) (b : Bool) (f : RegionSlot → RegionSlot) (s : State) :
    (regionOf (setSlot r b f s) r).incoming = (regionOf s r).incoming ∧
    (regionOf (setSlot r b f s) r).received = (regionOf s r).received := by
  rw [setSlot, regionOf_setRegion]
  cases b <;> exact ⟨rfl, rfl⟩

/-! ### What an update in the course of a region reads of the state beside the region -/

/-- The parts of a state that an update's own steps leave. -/
structure UpdateBeside where
  trial : BitVec 5
  confirmed : BitVec 5
  waiting : Option Nat
  migrating : Option Nat
  otp : Otp
  power : Power
  cfg : Configuration
  hostKey : Option (BitVec 256)

/-- Those parts of a state. -/
def updateBeside (s : State) : UpdateBeside :=
  ⟨s.update.trial, s.update.confirmed, s.update.waiting, s.cis.migrating, s.otp, s.power, s.cfg, s.cis.hostKey⟩

theorem updateBeside_setRegion (r : Nat) (f : Region → Region) (s : State) :
    updateBeside (setRegion r f s) = updateBeside s := by
  unfold updateBeside
  rw [setRegion_update]
  rfl

theorem updateBeside_setSlot (r : Nat) (b : Bool) (f : RegionSlot → RegionSlot) (s : State) :
    updateBeside (setSlot r b f s) = updateBeside s := updateBeside_setRegion ..

theorem updateBeside_log (origin sub code : Nat) (detail : List Byte) (legal : Bool) (s : State) :
    updateBeside (log origin sub code detail legal s) = updateBeside s := by
  simp only [updateBeside, log_update, log_cis, log_otp, log_power, log_cfg]

theorem updateBeside_updateLog (origin code mask : Nat) (detail : List Byte) (s : State) :
    updateBeside (updateLog origin code mask detail s) = updateBeside s := updateBeside_log ..

theorem sender_of_updateBeside {s t : State} (h : updateBeside t = updateBeside s) : SameSender s t :=
  sameSender_of (congrArg UpdateBeside.power h) (congrArg UpdateBeside.cfg h) (congrArg UpdateBeside.hostKey h)

theorem updateLog_update (origin code mask : Nat) (detail : List Byte) (s : State) :
    (updateLog origin code mask detail s).update = s.update := log_update ..

end Sys2Proof.Machine

/-! # Updates: writing a package (R421, R422, R429) -/

namespace Sys2Proof.Machine

/-! ### UPDATE_WRITE -/

/-- The action of a block of a package. -/
def packageAct (r : Request) (s : State) : State × Answer :=
  guarded (blockChecks longestPackage r.payload) (fun s =>
    match findTransfer s (fieldN r.payload 0 4) with
    | some t => continuePackage t r s
    | none => openPackage r s) s

theorem exec_updateWrite (head : Request) (data : List Byte) (s : State) : exec (.updateWrite head data) s =
    .next (hostRequest (opBulk 0x0E01 [clsB]) (head.append data) (packageAct (head.append data)) s) := rfl

theorem packageAct_known {r : Request} {s : State} {t : Transfer} (hfits : BlockFits longestPackage r.payload)
    (ht : findTransfer s (fieldN r.payload 0 4) = some t) : packageAct r s = continuePackage t r s := by
  rw [packageAct, guarded_pass (blockChecks_pass hfits), ht]

theorem packageAct_new {r : Request} {s : State} (hfits : BlockFits longestPackage r.payload)
    (ht : findTransfer s (fieldN r.payload 0 4) = none) : packageAct r s = openPackage r s := by
  rw [packageAct, guarded_pass (blockChecks_pass hfits), ht]

theorem findTransfer_withHost {s : State} {x : HostLink} (h : x.transfers = s.host.transfers) (id : Nat) :
    findTransfer (withHost x s) id = findTransfer s id := by
  simp only [findTransfer, withHost, h]

/-- A block of a package whose action is known beside every host link that holds the module's transfers. -/
theorem updateWrite_answers {s v : State} {head : Request} {data : List Byte} {st : Nat} {pl : List Byte} (hk : SameSender s v)
    (ha : ∀ x : HostLink, x.transfers = s.host.transfers →
      packageAct (head.append data) (withHost x s) = (withHost x v, .now st pl)) :
    Admitted (opBulk 0x0E01 [clsB]) (head.append data) s → Completes (.updateWrite head data) s (fun t =>
      Answers s (head.append data) 0x0E01 st pl t ∧ SameModule v t) :=
  host_answers (exec_updateWrite head data s) fun x hx _ => ⟨withHost x v, ha x hx, hk, rfl⟩

/-! ### A further block (R422) -/

section Known

variable {s : State} {head : Request} {data : List Byte} {t : Transfer}
  (hfits : BlockFits longestPackage (head.append data).payload)
  (ht : findTransfer s (fieldN (head.append data).payload 0 4) = some t)
include hfits ht

theorem packageAct_withHost_known {x : HostLink} (hx : x.transfers = s.host.transfers) :
    packageAct (head.append data) (withHost x s) = continuePackage t (head.append data) (withHost x s) :=
  packageAct_known hfits ((findTransfer_withHost hx _).trans ht)

theorem updateWrite_ended (hstate : t.state ≠ .receiving) :
    Admitted (opBulk 0x0E01 [clsB]) (head.append data) s → Completes (.updateWrite head data) s (fun u =>
      Answers s (head.append data) 0x0E01 t.status (if t.status = St.ok then (head.append data).payload.take 16 else []) u ∧
        SameModule s u) :=
  updateWrite_answers (sameSender_of rfl rfl rfl) fun x hx => by
    rw [packageAct_withHost_known hfits ht hx]
    exact if_pos hstate

theorem updateWrite_busy (hstate : t.state = .receiving) (hport : t.port ≠ (head.append data).port) :
    Admitted (opBulk 0x0E01 [clsB]) (head.append data) s → Completes (.updateWrite head data) s (fun u =>
      Answers s (head.append data) 0x0E01 St.busy [] u ∧ SameModule s u) :=
  updateWrite_answers (sameSender_of rfl rfl rfl) fun x hx => by
    rw [packageAct_withHost_known hfits ht hx]
    have hother : need (t.port == (head.append data).port) St.busy = St.busy := if_neg (by simpa using hport)
    have hfails : need (t.port == (head.append data).port) St.busy ≠ St.ok := by
      rw [hother]
      decide
    refine (if_neg (not_not.mpr hstate)).trans ((guarded_head hfails).trans ?_)
    rw [hother]
    rfl

end Known

/-! ### The first block (R422, R429) -/

/-- The header in a first block. -/
def packageHeader (r : Request) : List Byte := slice r.payload 16 256

/-- The region of a package. -/
def packageRegion (r : Request) : Nat := fieldN (packageHeader r) 8 1

theorem packageRegion_eq (r : Request) : fieldN r.payload (16 + 8) 1 = packageRegion r := by
  unfold packageRegion packageHeader fieldN slice
  rw [List.drop_take, List.drop_drop, List.take_take]
  rfl

/-- A request that opens an update, as far as its transfer goes. -/
structure OpensTransfer (r : Request) (s : State) : Prop where
  off : fieldN r.payload 4 4 = 0
  len : fieldN r.payload 12 2 = 256
  room : openTransfers s < 4
  phase : s.power.phase ≠ .recovery

theorem OpensTransfer.withHost {r : Request} {s : State} (h : OpensTransfer r s) {x : HostLink}
    (hx : x.transfers = s.host.transfers) : OpensTransfer r (withHost x s) := by
  obtain ⟨hoff, hlen, hroom, hphase⟩ := h
  refine ⟨hoff, hlen, ?_, hphase⟩
  simpa only [openTransfers, Machine.withHost, hx] using hroom

theorem openPackage_locked {r : Request} {s : State} (h : OpensTransfer r s) (hlock : s.update.lock = true) :
    openPackage r s = (s, .now St.locked []) := by
  obtain ⟨hoff, hlen, hroom, hphase⟩ := h
  have hfirst : (openChecks s r).find? (fun c => c != St.ok) = some St.locked := by
    simp [openChecks, need, hoff, hlen, hroom, hphase, hlock, St.ok, St.locked]
  unfold openPackage
  exact guarded_stop hfirst

/-- The checks ahead of the overlap rules pass. -/
theorem openChecks_pass {r : Request} {s : State} (h : OpensTransfer r s) (hlock : s.update.lock = false)
    (hregion : packageRegion r ≤ 4) : ∀ c ∈ openChecks s r, c = St.ok := by
  obtain ⟨hoff, hlen, hroom, hphase⟩ := h
  simp [openChecks, need, hoff, hlen, hroom, hphase, hlock, packageRegion_eq, hregion]

theorem openPackage_refused {r : Request} {s : State} (h : OpensTransfer r s) (hlock : s.update.lock = false)
    (hregion : packageRegion r ≤ 4) {st : Nat}
    (hover : overlap s (packageRegion r) (packageCounter (packageHeader r)) (r.flags.getLsbD 2) = .refused st) :
    openPackage r s = (s, .now st []) := by
  unfold openPackage
  refine (guarded_pass (openChecks_pass h hlock hregion)).trans ?_
  dsimp only
  rw [show overlap s (fieldN (slice r.payload 16 256) 8 1) (packageCounter (slice r.payload 16 256)) (r.flags.getLsbD 2) =
    .refused st from hover]
  rfl

theorem openPackage_opens {r : Request} {s : State} (h : OpensTransfer r s) (hlock : s.update.lock = false)
    (hregion : packageRegion r ≤ 4)
    (hover : overlap s (packageRegion r) (packageCounter (packageHeader r)) (r.flags.getLsbD 2) = .opens) :
    openPackage r s = beginPackage r (packageHeader r) s := by
  unfold openPackage
  refine (guarded_pass (openChecks_pass h hlock hregion)).trans ?_
  dsimp only
  rw [show overlap s (fieldN (slice r.payload 16 256) 8 1) (packageCounter (slice r.payload 16 256)) (r.flags.getLsbD 2) =
    .opens from hover]
  rfl

/-- A package whose header fails a check. -/
theorem beginPackage_fails {r : Request} {s : State} {h : List Byte} {step st : Nat}
    (hchecks : headerChecks s h = some (step, st)) :
    beginPackage r h s = (logPackage (portOrigin r.port) (fieldN h 8 1) st step h s, .now st []) := by
  unfold beginPackage
  dsimp only
  rw [hchecks]

theorem logPackage_withHost (origin r st step : Nat) (h : List Byte) (x : HostLink) (s : State) :
    logPackage origin r st step h (withHost x s) = withHost x (logPackage origin r st step h s) := log_withHost ..

section New

variable {s : State} {head : Request} {data : List Byte}
  (hfits : BlockFits longestPackage (head.append data).payload)
  (ht : findTransfer s (fieldN (head.append data).payload 0 4) = none)
  (hopens : OpensTransfer (head.append data) s)
include hfits ht

theorem packageAct_withHost_new {x : HostLink} (hx : x.transfers = s.host.transfers) :
    packageAct (head.append data) (withHost x s) = openPackage (head.append data) (withHost x s) :=
  packageAct_new hfits ((findTransfer_withHost hx _).trans ht)

include hopens

theorem updateWrite_locked (hlock : s.update.lock = true) :
    Admitted (opBulk 0x0E01 [clsB]) (head.append data) s → Completes (.updateWrite head data) s (fun u =>
      Answers s (head.append data) 0x0E01 St.locked [] u ∧ SameModule s u) :=
  updateWrite_answers (sameSender_of rfl rfl rfl) fun x hx => by
    rw [packageAct_withHost_new hfits ht hx]
    exact openPackage_locked (hopens.withHost hx) hlock

variable (hlock : s.update.lock = false) (hregion : packageRegion (head.append data) ≤ 4)
include hlock hregion

theorem updateWrite_refused {st : Nat} (hover : overlap s (packageRegion (head.append data))
      (packageCounter (packageHeader (head.append data))) ((head.append data).flags.getLsbD 2) = .refused st) :
    Admitted (opBulk 0x0E01 [clsB]) (head.append data) s → Completes (.updateWrite head data) s (fun u =>
      Answers s (head.append data) 0x0E01 st [] u ∧ SameModule s u) :=
  updateWrite_answers (sameSender_of rfl rfl rfl) fun x hx => by
    rw [packageAct_withHost_new hfits ht hx]
    exact openPackage_refused (hopens.withHost hx) hlock hregion hover

variable (hover : overlap s (packageRegion (head.append data)) (packageCounter (packageHeader (head.append data)))
  ((head.append data).flags.getLsbD 2) = .opens)
include hover

theorem packageAct_begins {x : HostLink} (hx : x.transfers = s.host.transfers) : packageAct (head.append data) (withHost x s) =
    beginPackage (head.append data) (packageHeader (head.append data)) (withHost x s) := by
  rw [packageAct_withHost_new hfits ht hx]
  exact openPackage_opens (hopens.withHost hx) hlock hregion hover

theorem updateWrite_fails {step st : Nat} (hchecks : headerChecks s (packageHeader (head.append data)) = some (step, st)) :
    Admitted (opBulk 0x0E01 [clsB]) (head.append data) s → Completes (.updateWrite head data) s (fun u =>
      Answers s (head.append data) 0x0E01 st [] u ∧ SameModule (logPackage (portOrigin (head.append data).port)
        (packageRegion (head.append data)) st step (packageHeader (head.append data)) s) u) :=
  updateWrite_answers (log_sender ..) fun x hx => by
    rw [packageAct_begins hfits ht hopens hlock hregion hover hx, beginPackage_fails (s := withHost x s) hchecks,
      logPackage_withHost]
    rfl

end New

end Sys2Proof.Machine

/-! # Updates: a package that opens (R421, R422) -/

namespace Sys2Proof.Machine

/-! ### A header that passes its checks -/

/-- What the checks of R421 say of the length of a header and of its image. -/
structure GoodHeader (h : List Byte) : Prop where
  length : h.length = 256
  image : fieldN h 28 4 ≠ 0
  blocks : fieldN h 32 2 = blockCount (fieldN h 28 4)

theorem goodHeader_of_checks {s : State} {h : List Byte} (hchecks : headerChecks s h = none) : GoodHeader h := by
  unfold headerChecks at hchecks
  dsimp only at hchecks
  split_ifs at hchecks with hfields hkey hbinding hfloor hlength
  simp only [Bool.not_eq_true', Bool.not_eq_false, Bool.and_eq_true, and_assoc, beq_iff_eq] at hfields
  simp only [not_or, not_not] at hlength
  exact ⟨hfields.1, hlength.1, hlength.2.2⟩

theorem GoodHeader.blocks_pos {h : List Byte} (hgood : GoodHeader h) : 0 < fieldN h 32 2 := by
  have himage := Nat.pos_of_ne_zero hgood.image
  rw [hgood.blocks, blockCount, ceilDiv]
  exact Nat.div_pos (by omega) (by decide)

/-! ### The bytes of a first block -/

theorem byteAt_whole (d : List Byte) (i : Nat) : byteAt [(0, d)] i = d[i]? := by
  simp [byteAt]

theorem receivedBytes_whole {d : List Byte} {total : Nat} (h : d.length ≤ total) :
    receivedBytes [(0, d)] total = d.length := by
  have hsplit : List.range total = List.range d.length ++ (List.range (total - d.length)).map (d.length + ·) := by
    rw [← List.range_add]
    congr 1
    omega
  have hfront : (List.range d.length).filter (fun i => (byteAt [(0, d)] i).isSome) = List.range d.length := by
    refine List.filter_eq_self.mpr fun i hi => ?_
    rw [byteAt_whole, List.getElem?_eq_getElem (List.mem_range.mp hi)]
    rfl
  have hback : ((List.range (total - d.length)).map (d.length + ·)).filter (fun i => (byteAt [(0, d)] i).isSome) = [] := by
    refine List.filter_eq_nil_iff.mpr fun i hi => ?_
    obtain ⟨j, -, rfl⟩ := List.mem_map.mp hi
    rw [byteAt_whole, List.getElem?_eq_none (by omega)]
    exact Bool.false_ne_true
  rw [receivedBytes, hsplit, List.filter_append, hfront, hback, List.append_nil, List.length_range]

theorem length_takeWhile_le {α : Type} {p : α → Bool} {l : List α} {n : Nat} (h : ∀ x, l[n]? = some x → p x = false) :
    (l.takeWhile p).length ≤ n := by
  by_contra hlong
  have hlt : n < (l.takeWhile p).length := by omega
  have hmem := List.mem_takeWhile_imp (List.getElem_mem hlt)
  have hat : l[n]? = some ((l.takeWhile p)[n]) :=
    List.prefix_iff_getElem?.mp (List.takeWhile_prefix p) n hlt
  rw [h _ hat] at hmem
  cases hmem

/-- Nothing of the stream has arrived with the header. -/
theorem stream_of_header {d : List Byte} (total : Nat) (h : d.length = 256) : (prefixBytes [(0, d)] total).drop 256 = [] := by
  refine List.drop_eq_nil_of_le ((List.length_filterMap_le ..).trans (length_takeWhile_le fun x hx => ?_))
  rw [List.getElem?_map] at hx
  obtain ⟨i, hi, rfl⟩ := Option.map_eq_some_iff.mp hx
  obtain ⟨-, rfl⟩ := List.getElem?_eq_some_iff.mp hi
  rw [List.getElem_range, byteAt_whole, List.getElem?_eq_none (by omega)]
  rfl

theorem verifyBlocks_header {h : List Byte} (hgood : GoodHeader h) : verifyBlocks (fieldN h 32 2 + 1) h [] 0 = (0, false) := by
  have hpos := hgood.blocks_pos
  have hblock : (slice ([] : List Byte) (1024 * 0) (blockData h 0 + 32)).length < blockData h 0 + 32 := by
    simp [slice]
  unfold verifyBlocks
  rw [if_neg (by omega)]
  exact if_pos hblock

/-- The first block of a package, its header alone, enters an empty slot. -/
theorem takePackageBlock_header {h : List Byte} {t : Transfer} {s : State} (origin : Nat) (hgood : GoodHeader h)
    (hblocks : t.blocks = []) (htotal : 256 ≤ t.total)
    (hempty : (slotOf s (fieldN h 8 1) (!confirmedB s (fieldN h 8 1))).data = []) :
    takePackageBlock origin h t 0 h s = (putTransfer { t with blocks := [(0, h)], received := 256 }
      (setRegion (fieldN h 8 1) (fun x => { x with received := 256 })
        (setSlot (fieldN h 8 1) (!confirmedB s (fieldN h 8 1)) (fun x => { x with data := x.data ++ [] }) s)), St.ok) := by
  have hpos := hgood.blocks_pos
  have hstored : storedBlocks h [] = 0 := if_neg fun hzero => hgood.image hzero.symm
  have hreceived : receivedBytes [(0, h)] t.total = 256 := by
    rw [receivedBytes_whole (by rw [hgood.length]; exact htotal), hgood.length]
  have hdata : blocksData h [] 0 0 = [] := rfl
  unfold takePackageBlock
  dsimp only
  rw [hblocks, hempty, List.nil_append, stream_of_header _ hgood.length, hstored, verifyBlocks_header hgood]
  dsimp only
  rw [if_neg (show ¬ (0 = fieldN h 32 2) by omega), if_neg Bool.false_ne_true, hreceived, hdata]
  rfl

/-! ### The update that opens -/

/-- What the opening of an update makes of its region, and what it leaves. -/
structure UpdateOpened (h : List Byte) (s t : State) : Prop where
  beside : updateBeside t = updateBeside s
  slot : slotOf t (fieldN h 8 1) (!confirmedB s (fieldN h 8 1)) = .empty
  incoming : (regionOf t (fieldN h 8 1)).incoming = some h

/-- The state in which an update opens, ahead of the region's own fields. -/
def slotEmptied (h : List Byte) (s : State) : State :=
  let r := fieldN h 8 1
  let t := setSlot r (!confirmedB s r) (fun _ => .empty) s
  let t := if (otherSlot s r).header.isSome then writeDirectory (fun u => u) t else t
  if r = 2 then eraseTail (!confirmedB s r) t else t

/-- A state in which the slot of a package has been emptied, and little else. -/
structure SlotEmpty (h : List Byte) (s t : State) : Prop where
  beside : updateBeside t = updateBeside s
  slot : slotOf t (fieldN h 8 1) (!confirmedB s (fieldN h 8 1)) = .empty

theorem SlotEmpty.of_same {h : List Byte} {s t u : State} (ht : SlotEmpty h s t) (hbeside : updateBeside u = updateBeside t)
    (hregion : ∀ r, regionOf u r = regionOf t r) : SlotEmpty h s u :=
  ⟨hbeside.trans ht.beside, (slotOf_congr (hregion _) _).trans ht.slot⟩

theorem SlotEmpty.written {h : List Byte} {s t : State} (ht : SlotEmpty h s t) (c : Prop) [Decidable c] :
    SlotEmpty h s (if c then writeDirectory (fun u => u) t else t) := by
  split
  · exact ht.of_same rfl fun r => regionOf_writeDirectory (fun _ => ⟨rfl, rfl, rfl, rfl, rfl⟩) t r
  · exact ht

theorem SlotEmpty.erased {h : List Byte} {s t : State} (ht : SlotEmpty h s t) (c : Prop) [Decidable c] (b : Bool) :
    SlotEmpty h s (if c then eraseTail b t else t) := by
  split
  · refine ht.of_same ?_ fun r => regionOf_congr rfl r
    cases b <;> rfl
  · exact ht

theorem slotEmptied_empty (h : List Byte) (s : State) : SlotEmpty h s (slotEmptied h s) := by
  have hfirst : SlotEmpty h s (setSlot (fieldN h 8 1) (!confirmedB s (fieldN h 8 1)) (fun _ => .empty) s) :=
    ⟨updateBeside_setSlot .., slotOf_setSlot ..⟩
  exact (hfirst.written _).erased _ _

theorem openUpdate_opens (origin path id : Nat) (h : List Byte) (s : State) : UpdateOpened h s (openUpdate origin path id h s) := by
  obtain ⟨hbeside, hslot⟩ := slotEmptied_empty h s
  have hopen : openUpdate origin path id h s = updateLog origin 0x0E01 (2 ^ fieldN h 8 1) ([byte (fieldN h 8 1), byte path, 0, 0] ++
      leBytes 4 (packageCounter h) ++ leBytes 4 (fieldN h 12 4) ++ leBytes 4 id) (setRegion (fieldN h 8 1) (fun x => { x with
        status := St.ok, transfer := id, received := 0, incoming := some h, path := path }) (slotEmptied h s)) := rfl
  rw [hopen]
  refine ⟨?_, ?_, ?_⟩
  · rw [updateBeside_updateLog, updateBeside_setRegion, hbeside]
  · rw [slotOf_congr (regionOf_congr (updateLog_update ..) _)]
    refine (slotOf_setRegion ?_ _ _ _).trans hslot
    exact fun _ => ⟨rfl, rfl⟩
  · rw [regionOf_congr (updateLog_update ..), regionOf_setRegion]

/-! ### A transfer that opens -/

theorem findTransfer_putTransfer (t : Transfer) (s : State) : findTransfer (putTransfer t s) t.id = some t := by
  unfold findTransfer putTransfer
  dsimp only
  split
  next h =>
    obtain ⟨x, hx, hid⟩ := List.any_eq_true.mp h
    clear h
    generalize s.host.transfers = l at hx
    induction l with
    | nil => cases hx
    | cons a l ih =>
      by_cases ha : a.id = t.id
      · simp [ha]
      · rw [List.map_cons, if_neg ha, List.find?_cons_of_neg (by simpa using ha)]
        exact ih ((List.mem_cons.mp hx).resolve_left fun hxa => ha (by rw [← hxa]; simpa using hid))
  next =>
    rw [List.take_succ_cons, List.find?_cons_of_pos (by simp)]

theorem completeRequest_transfers (port : Port) (cls code : Nat) (seq : U32) (st : Nat) (pl : List Byte) (s : State) :
    (completeRequest port cls code seq st pl s).host.transfers = s.host.transfers := by
  have horigin (p : Port) (f : Origin → Origin) (t : State) : (setOrigin p f t).host.transfers = t.host.transfers := by
    cases p <;> rfl
  unfold completeRequest
  dsimp only
  rw [horigin]
  have hpacket (p : Packet) (t : State) : (sendPacket p t).host.transfers = t.host.transfers := rfl
  refine (foldl_keeps (fun t : State => t.host.transfers) _ (fun t _ => hpacket _ t) _ _).trans ?_
  unfold journal
  split <;> rfl

/-- The update of a package opens with its transfer. -/
def packagePlaced (r : Request) (s : State) : State :=
  putTransfer (openedTransfer 0x0E01 r) (openUpdate (portOrigin r.port) 0 (fieldN r.payload 0 4) (packageHeader r) s)

/-- The header of a package has arrived. -/
def headerStored (h : List Byte) (s : State) : State :=
  setRegion (fieldN h 8 1) (fun x => { x with received := 256 })
    (setSlot (fieldN h 8 1) (!confirmedB s (fieldN h 8 1)) (fun x => { x with data := x.data ++ [] }) s)

/-- The state in which a package has opened its update and its header has arrived. -/
def packageBegun (r : Request) (s : State) : State :=
  putTransfer { openedTransfer 0x0E01 r with blocks := [(0, packageHeader r)], received := 256 }
    (headerStored (packageHeader r) (packagePlaced r s))

theorem confirmedB_of_beside {s t : State} (h : updateBeside t = updateBeside s) (r : Nat) : confirmedB t r = confirmedB s r := by
  have hconfirmed : t.update.confirmed = s.update.confirmed := congrArg UpdateBeside.confirmed h
  rw [confirmedB, confirmedB, hconfirmed]

theorem beginPackage_begins {r : Request} {s : State} (hopens : OpensTransfer r s) (hgood : headerChecks s (packageHeader r) = none)
    (htotal : fieldN r.payload 8 4 = 256 + streamLength (packageHeader r)) :
    beginPackage r (packageHeader r) s = (packageBegun r s, .now St.ok (r.payload.take 16)) := by
  obtain ⟨hoff, hlen, hroom, hphase⟩ := hopens
  obtain ⟨hbeside, hslot, -⟩ := openUpdate_opens (portOrigin r.port) 0 (fieldN r.payload 0 4) (packageHeader r) s
  unfold beginPackage
  dsimp only
  rw [hgood]
  dsimp only
  rw [if_neg (not_not.mpr htotal), if_neg hphase, hlen]
  rw [show slice r.payload 16 256 = packageHeader r from rfl]
  refine (congrArg (fun x : State × Nat => (x.1, Answer.now x.2 (if x.2 = St.ok then r.payload.take 16 else [])))
    (takePackageBlock_header (portOrigin r.port) (goodHeader_of_checks hgood) rfl ?_ ?_)).trans rfl
  · show 256 ≤ fieldN r.payload 8 4
    omega
  · show (slotOf (openUpdate (portOrigin r.port) 0 (fieldN r.payload 0 4) (packageHeader r) s) _ (!confirmedB (openUpdate
      (portOrigin r.port) 0 (fieldN r.payload 0 4) (packageHeader r) s) _)).data = []
    rw [confirmedB_of_beside hbeside, hslot]
    rfl

/-! ### What an opened package leaves -/

/-- A region without an update under way. -/
structure RegionFree (r : Nat) (s : State) : Prop where
  trial : onTrial s r = false
  migrating : s.cis.migrating ≠ some r
  waiting : s.update.waiting.any (fun m => m.testBit r) = false

/-- An update opens in a region that has none under way (R429). -/
theorem regionFree_of_opens {s : State} {r counter : Nat} {supersede : Bool} (h : overlap s r counter supersede = .opens) :
    RegionFree r s := by
  have hstate : regionState s r = 0 ∨ regionState s r = 2 := by
    by_contra hbusy
    unfold overlap at h
    dsimp only at h
    rw [if_neg hbusy] at h
    split_ifs at h
  have htrial : ¬ onTrial s r = true := fun htrial => by
    have hfive : regionState s r = 5 := if_pos htrial
    omega
  have hmigrating : s.cis.migrating ≠ some r := fun hmigrating => by
    have hthree : regionState s r = 3 := (if_neg htrial).trans (if_pos hmigrating)
    omega
  have hwaiting : ¬ s.update.waiting.any (fun m => m.testBit r) = true := fun hwaiting => by
    have hfour : regionState s r = 4 := (if_neg htrial).trans ((if_neg hmigrating).trans (if_pos hwaiting))
    omega
  exact ⟨eq_false_of_ne_true htrial, hmigrating, eq_false_of_ne_true hwaiting⟩

/-- What a package's first block has made of its region. -/
structure PackageOpened (r : Request) (s t : State) : Prop where
  state : regionState t (packageRegion r) = 1
  incoming : (regionOf t (packageRegion r)).incoming = some (packageHeader r)
  received : (regionOf t (packageRegion r)).received = 256
  data : (otherSlot t (packageRegion r)).data = []
  header : (otherSlot t (packageRegion r)).header = none
  transfer : findTransfer t (fieldN r.payload 0 4) =
    some { openedTransfer 0x0E01 r with blocks := [(0, packageHeader r)], received := 256 }
  beside : updateBeside t = updateBeside s

theorem regionState_receiving {s : State} {r : Nat} {h : List Byte} (hfree : RegionFree r s)
    (hincoming : (regionOf s r).incoming = some h) : regionState s r = 1 := by
  obtain ⟨htrial, hmigrating, hwaiting⟩ := hfree
  unfold regionState
  rw [if_neg (ne_true_of_eq_false htrial), if_neg hmigrating, if_neg (ne_true_of_eq_false hwaiting), hincoming]
  rfl

theorem RegionFree.of_beside {r : Nat} {s t : State} (h : RegionFree r s) (hbeside : updateBeside t = updateBeside s) :
    RegionFree r t := by
  have htrial : t.update.trial = s.update.trial := congrArg UpdateBeside.trial hbeside
  have hwaiting : t.update.waiting = s.update.waiting := congrArg UpdateBeside.waiting hbeside
  have hmigrating : t.cis.migrating = s.cis.migrating := congrArg UpdateBeside.migrating hbeside
  obtain ⟨h1, h2, h3⟩ := h
  exact ⟨by rw [onTrial, htrial]; exact h1, by rw [hmigrating]; exact h2, by rw [hwaiting]; exact h3⟩

theorem packagePlaced_opened (r : Request) (s : State) : UpdateOpened (packageHeader r) s (packagePlaced r s) := by
  obtain ⟨hbeside, hslot, hincoming⟩ := openUpdate_opens (portOrigin r.port) 0 (fieldN r.payload 0 4) (packageHeader r) s
  exact ⟨hbeside, hslot, hincoming⟩

theorem headerStored_beside (h : List Byte) (s : State) : updateBeside (headerStored h s) = updateBeside s :=
  (updateBeside_setRegion ..).trans (updateBeside_setSlot ..)

theorem headerStored_region (h : List Byte) (s : State) :
    (regionOf (headerStored h s) (fieldN h 8 1)).incoming = (regionOf s (fieldN h 8 1)).incoming ∧
    (regionOf (headerStored h s) (fieldN h 8 1)).received = 256 := by
  rw [headerStored, regionOf_setRegion]
  exact ⟨(regionOf_setSlot ..).1, rfl⟩

theorem headerStored_slot (h : List Byte) (s : State) : otherSlot (headerStored h s) (fieldN h 8 1) =
    { otherSlot s (fieldN h 8 1) with data := (otherSlot s (fieldN h 8 1)).data ++ [] } := by
  rw [otherSlot, confirmedB_of_beside (headerStored_beside h s), headerStored]
  refine (slotOf_setRegion ?_ _ _ _).trans (slotOf_setSlot ..)
  exact fun _ => ⟨rfl, rfl⟩

theorem packageBegun_opened (r : Request) {s : State} (hfree : RegionFree (packageRegion r) s) :
    PackageOpened r s (packageBegun r s) := by
  obtain ⟨hbeside, hslot, hincoming⟩ := packagePlaced_opened r s
  obtain ⟨hkept, hreceived⟩ := headerStored_region (packageHeader r) (packagePlaced r s)
  have hstored := (headerStored_beside (packageHeader r) (packagePlaced r s)).trans hbeside
  have hempty : otherSlot (headerStored (packageHeader r) (packagePlaced r s)) (packageRegion r) = .empty := by
    refine (headerStored_slot ..).trans ?_
    rw [otherSlot, confirmedB_of_beside hbeside, hslot]
    rfl
  have hbegun : updateBeside (packageBegun r s) = updateBeside s := hstored
  have hregion (x : Nat) : regionOf (packageBegun r s) x = regionOf (headerStored (packageHeader r) (packagePlaced r s)) x := rfl
  have hother : otherSlot (packageBegun r s) (packageRegion r) = .empty := hempty
  exact ⟨regionState_receiving (hfree.of_beside hbegun) (hkept.trans hincoming), hkept.trans hincoming, hreceived,
    congrArg RegionSlot.data hother, congrArg RegionSlot.header hother, findTransfer_putTransfer .., hbegun⟩

/-! ### The request that opens a package -/

theorem PackageOpened.completed {r : Request} {s t u : State} (ht : PackageOpened r s t) (hsame : SameModule t u)
    (htransfers : u.host.transfers = t.host.transfers) : PackageOpened r s u := by
  obtain ⟨hstate, hincoming, hreceived, hdata, hheader, htransfer, hbeside⟩ := ht
  have hfind : findTransfer u (fieldN r.payload 0 4) = findTransfer t (fieldN r.payload 0 4) := by
    rw [findTransfer, findTransfer, htransfers]
  rw [hsame] at hfind ⊢
  exact ⟨hstate, hincoming, hreceived, hdata, hheader, hfind.trans htransfer, hbeside⟩

theorem updateWrite_opens {s : State} {head : Request} {data : List Byte}
    (hfits : BlockFits longestPackage (head.append data).payload)
    (ht : findTransfer s (fieldN (head.append data).payload 0 4) = none)
    (hopens : OpensTransfer (head.append data) s) (hlock : s.update.lock = false)
    (hregion : packageRegion (head.append data) ≤ 4)
    (hover : overlap s (packageRegion (head.append data)) (packageCounter (packageHeader (head.append data)))
      ((head.append data).flags.getLsbD 2) = .opens)
    (htotal : fieldN (head.append data).payload 8 4 = 256 + streamLength (packageHeader (head.append data)))
    (h : Admitted (opBulk 0x0E01 [clsB]) (head.append data) s) : Completes (.updateWrite head data) s (fun t =>
      headerChecks s (packageHeader (head.append data)) = none →
        Answers s (head.append data) 0x0E01 St.ok ((head.append data).payload.take 16) t ∧
        PackageOpened (head.append data) s t) := by
  refine ⟨_, exec_updateWrite head data s, fun hgood => ?_⟩
  obtain ⟨x, hx⟩ : ∃ x, x = (admitted 0x0E01 (head.append data) s).host := ⟨_, rfl⟩
  have htransfers : x.transfers = s.host.transfers := by rw [hx, admitted_transfers]
  have hadmitted : admitted 0x0E01 (head.append data) s = withHost x s := by
    rw [admitted_eq, ← hx]
    rfl
  have hact : packageAct (head.append data) (admitted 0x0E01 (head.append data) s) =
      (packageBegun (head.append data) (withHost x s), .now St.ok ((head.append data).payload.take 16)) := by
    rw [hadmitted, packageAct_begins hfits ht hopens hlock hregion hover htransfers]
    exact beginPackage_begins (hopens.withHost htransfers) hgood htotal
  obtain ⟨hstate, hincoming, hreceived, hdata, hheader, htransfer, hbeside⟩ :=
    packageBegun_opened (head.append data) (s := withHost x s) (regionFree_of_opens hover)
  have hopened : PackageOpened (head.append data) s (packageBegun (head.append data) (withHost x s)) :=
    ⟨hstate, hincoming, hreceived, hdata, hheader, htransfer, hbeside⟩
  obtain ⟨hanswer, hsame⟩ := host_now h hact (sender_of_updateBeside hopened.beside)
  have hlist := (congrArg (fun t : State => t.host.transfers) (host_completes h (by decide) hact)).trans
    (completeRequest_transfers ..)
  exact ⟨hanswer, hopened.completed hsame hlist⟩

end Sys2Proof.Machine

/-! # Updates: activation (R423, R424) -/

namespace Sys2Proof.Machine

/-! ### What the migration of keys leaves (R345) -/

/-- The parts of a state that no key's migration changes. -/
def besideKeys (s : State) : Update × Otp × Sessions × Energy := (s.update, s.otp, s.sess, s.energy)

theorem besideKeys_log (origin sub code : Nat) (detail : List Byte) (legal : Bool) (s : State) :
    besideKeys (log origin sub code detail legal s) = besideKeys s := by
  rw [log_eq]
  rfl

theorem besideKeys_putStatements (xs : List Statement) (s : State) : besideKeys (putStatements xs s) = besideKeys s :=
  putStatements_keeps besideKeys (fun _ _ _ => rfl) xs s

theorem besideKeys_migrateApp (s : State) : besideKeys (migrateApp s) = besideKeys s := rfl

theorem besideKeys_migrateLegal (s : State) : besideKeys (migrateLegal s) = besideKeys s := by
  unfold migrateLegal
  dsimp only
  split
  · exact besideKeys_putStatements ..
  · rfl

theorem besideKeys_migrateKeys (mask : Nat) (s : State) : besideKeys (migrateKeys mask s) = besideKeys s := by
  have hcis (f : Cistern → Cistern) (t : State) : besideKeys (setCis f t) = besideKeys t := rfl
  unfold migrateKeys
  simp only [hcis, apply_ite besideKeys, besideKeys_migrateApp, besideKeys_migrateLegal, ite_self]

theorem besideKeys_keysConfirm (mask : Nat) (s : State) : besideKeys (keysConfirm mask s) = besideKeys s := by
  unfold keysConfirm
  split <;> rfl

theorem besideKeys_keysFallBack (mask : Nat) (s : State) : besideKeys (keysFallBack mask s) = besideKeys s := by
  unfold keysFallBack
  dsimp only
  split
  · cases statementInForce (supersede (keysConfirm mask s)) with
    | none => exact (besideKeys_putStatements ..).trans (besideKeys_keysConfirm ..)
    | some x =>
      have hlog : besideKeys (logStatement x (supersede (keysConfirm mask s))) = besideKeys (supersede (keysConfirm mask s)) :=
        besideKeys_log ..
      exact hlog.trans ((besideKeys_putStatements ..).trans (besideKeys_keysConfirm ..))
  · exact besideKeys_keysConfirm ..

/-! ### An activation proceeds (R424) -/

/-- The state whose warm reset boots the trial. -/
def activated (origin mask : Nat) (s : State) : State :=
  let t := setUpdate (fun u => { u with waiting := none, go := none }) (migrateKeys mask s)
  let t := writeDirectory (fun u => { u with trial := BitVec.ofNat 5 mask, trialStart := utcNow s }) t
  updateLog origin 0x0E03 mask ([byte mask, 0, 0, 0] ++ versionTriples t mask) t

theorem activated_trial (origin mask : Nat) (s : State) :
    (activated origin mask s).update.trial = BitVec.ofNat 5 mask ∧ (activated origin mask s).update.trialStart = utcNow s ∧
    (activated origin mask s).update.waiting = none ∧ (activated origin mask s).update.confirmed = s.update.confirmed ∧
    (activated origin mask s).update.generation = s.update.generation + 1 ∧ (activated origin mask s).otp = s.otp ∧
    (activated origin mask s).sess = s.sess ∧ (activated origin mask s).energy = s.energy ∧
    (∃ e, (activated origin mask s).logs.general.head? = some e ∧ e.origin = origin ∧ e.sub = 0x0E ∧ e.code = 0x0E03) := by
  have hkeys := besideKeys_migrateKeys mask s
  unfold activated
  generalize migrateKeys mask s = t at hkeys ⊢
  have hupdate : t.update = s.update := congrArg (·.1) hkeys
  have hotp : t.otp = s.otp := congrArg (·.2.1) hkeys
  have hsess : t.sess = s.sess := congrArg (·.2.2.1) hkeys
  have henergy : t.energy = s.energy := congrArg (·.2.2.2) hkeys
  dsimp only [updateLog]
  rw [log_update, log_otp, log_sess, log_energy]
  refine ⟨rfl, rfl, rfl, ?_, ?_, hotp, hsess, henergy, _, log_general_head .., rfl, rfl, rfl⟩
  · rw [← hupdate]
    rfl
  · rw [← hupdate]
    rfl

theorem activateNow_eq (origin mask : Nat) (i : StartInput) (s : State) :
    activateNow origin mask i s = warmRestart 4 i (activated origin mask s) := rfl

/-! ### ACTIVATE (R423) -/

/-- The checks of ACTIVATE. -/
def activationChecks (r : Request) (s : State) : List Nat :=
  [ need (fieldN r.payload 0 1 ≠ 0 ∧ fieldN r.payload 0 1 < 32 ∧ fieldN r.payload 1 1 ≤ 1) St.range, reservedOk r.payload 2 2 ] ++
    activateChecks s (fieldN r.payload 0 1) (fieldN r.payload 1 1 = 1)

/-- What ACTIVATE asks for: the activation now, or once the module is idle. -/
def activationAsked (r : Request) (s : State) : State :=
  setUpdate (fun u =>
    if fieldN r.payload 1 1 = 1 then { u with waiting := some (fieldN r.payload 0 1), waitingBy := portOrigin r.port }
    else { u with go := some (fieldN r.payload 0 1) }) s

/-- The action of ACTIVATE. -/
def activateAct (r : Request) (s : State) : State × Answer :=
  guarded (activationChecks r s) (fun s => done (activationAsked r s)) s

/-- An activation that was asked for follows the response. -/
def activationRun (r : Request) (i : StartInput) (t : State) : State :=
  match t.update.go with
  | some m => activateNow (portOrigin r.port) m i t
  | none => t

theorem exec_activate (r : Request) (i : StartInput) (s : State) : exec (.activate r i) s =
    .next (activationRun r i (hostRequest (opLen 0x0E03 [clsN] 4) r (activateAct r) s)) := rfl

theorem activationRun_rests {r : Request} {i : StartInput} {t : State} (h : t.update.go = none) :
    activationRun r i t = t := by
  unfold activationRun
  rw [h]

theorem activationRun_goes {r : Request} {i : StartInput} {t : State} {m : Nat} (h : t.update.go = some m) :
    activationRun r i t = activateNow (portOrigin r.port) m i t := by
  unfold activationRun
  rw [h]

theorem SameModule.update_eq {s t : State} (h : SameModule s t) : t.update = s.update := by rw [h]

section Activate

variable {s : State} {r : Request} (i : StartInput)

/-- A request whose checks fail has no effect. -/
theorem activate_refuses {st : Nat} (hgo : s.update.go = none)
    (hchecks : (activationChecks r s).find? (fun c => c != St.ok) = some st) (h : Admitted (opLen 0x0E03 [clsN] 4) r s) :
    Completes (.activate r i) s (fun t => Answers s r 0x0E03 st [] t ∧ SameModule s t) := by
  have hact : ∀ x, activateAct r (withHost x s) = (withHost x s, .now st []) := fun x => guarded_stop hchecks
  obtain ⟨hanswer, hsame⟩ := host_takes (s := s) (u := s) (sameSender_of rfl rfl rfl) hact h
  refine ⟨_, (exec_activate r i s).trans (congrArg Host.Outcome.next (activationRun_rests ?_)), hanswer, hsame⟩
  rw [hsame.update_eq]
  exact hgo

/-- A request whose checks pass is answered, and what it asks for follows. -/
theorem activate_takes (hchecks : ∀ c ∈ activationChecks r s, c = St.ok) (h : Admitted (opLen 0x0E03 [clsN] 4) r s) :
    ∃ v, exec (.activate r i) s = .next (activationRun r i v) ∧ Answers s r 0x0E03 St.ok [] v ∧
      SameModule (activationAsked r s) v := by
  have hact : ∀ x, activateAct r (withHost x s) = (withHost x (activationAsked r s), .now St.ok []) :=
    fun x => (guarded_pass hchecks).trans rfl
  obtain ⟨hanswer, hsame⟩ := host_takes (s := s) (u := activationAsked r s) (sameSender_of rfl rfl rfl) hact h
  exact ⟨_, exec_activate r i s, hanswer, hsame⟩

end Activate

/-- A request of ACTIVATE whose fields are in range. -/
structure ActivateFields (r : Request) : Prop where
  low : 1 ≤ fieldN r.payload 0 1
  high : fieldN r.payload 0 1 < 32
  res : fieldN r.payload 2 2 = 0
  flag : fieldN r.payload 1 1 ≤ 1

/-- The conditions of R423 beside the module's state conditions. -/
structure MayActivate (mask : Nat) (s : State) : Prop where
  lock : s.update.lock = false
  trial : s.update.trial = 0
  verified : ∀ x ∈ regionsOf mask, regionState s x = 2
  migrating : s.cis.migrating = none
  minimums : minimumsMet s mask = true
  formats : formatsMet s mask = true
  room : mask.testBit 1 = true → legalRoom s = true

section Checks

variable {s : State} {r : Request} (hfields : ActivateFields r)
include hfields

theorem activationFields_pass : need (fieldN r.payload 0 1 ≠ 0 ∧ fieldN r.payload 0 1 < 32 ∧ fieldN r.payload 1 1 ≤ 1) St.range =
    St.ok ∧ reservedOk r.payload 2 2 = St.ok := by
  obtain ⟨hlow, hhigh, hres, hflag⟩ := hfields
  have hzero : fieldN r.payload 0 1 ≠ 0 := by omega
  exact ⟨need_of (by simp [hzero, hhigh, hflag]) _, reservedOk_of hres⟩

theorem activationChecks_locked (hlock : s.update.lock = true) :
    (activationChecks r s).find? (fun c => c != St.ok) = some St.locked := by
  obtain ⟨hrange, hres⟩ := activationFields_pass hfields
  rw [activationChecks, hrange, hres]
  simp [activateChecks, need, hlock, St.ok, St.locked]

theorem activationChecks_trial (hlock : s.update.lock = false) (htrial : s.update.trial ≠ 0) :
    (activationChecks r s).find? (fun c => c != St.ok) = some St.refusedState := by
  obtain ⟨hrange, hres⟩ := activationFields_pass hfields
  rw [activationChecks, hrange, hres]
  have hstate : ((regionsOf (fieldN r.payload 0 1)).all (fun x => regionState s x == 2) && s.update.trial == 0) = false := by
    rw [beq_false_of_ne htrial, Bool.and_false]
  rw [activateChecks, hlock, hstate]
  simp [need, St.ok, St.refusedState]

variable (hmay : MayActivate (fieldN r.payload 0 1) s)
include hmay

/-- The checks of an activation that the update's own conditions allow, one by one. -/
theorem activationChecks_eq : activationChecks r s = [St.ok, St.ok, St.ok, St.ok,
    need (decide (fieldN r.payload 1 1 = 1) || stateConditions s) St.refusedState, St.ok, St.ok, St.ok] := by
  obtain ⟨hrange, hres⟩ := activationFields_pass hfields
  obtain ⟨hlock, htrial, hverified, hmigrating, hminimums, hformats, hroom⟩ := hmay
  have hregions : (regionsOf (fieldN r.payload 0 1)).all (fun x => regionState s x == 2) = true :=
    List.all_eq_true.mpr fun x hx => beq_iff_eq.mpr (hverified x hx)
  have hlegal : (!(fieldN r.payload 0 1).testBit 1 || legalRoom s) = true := by
    cases hbit : (fieldN r.payload 0 1).testBit 1 with
    | false => rfl
    | true => rw [hroom hbit]; rfl
  rw [activationChecks, hrange, hres, activateChecks, hlock, hregions, htrial, hminimums, hformats, hmigrating, hlegal]
  rfl

theorem activationChecks_pass (h : fieldN r.payload 1 1 = 1 ∨ stateConditions s = true) :
    ∀ c ∈ activationChecks r s, c = St.ok := by
  have hlast : need (decide (fieldN r.payload 1 1 = 1) || stateConditions s) St.refusedState = St.ok :=
    need_of (by rcases h with h | h <;> simp [h]) _
  rw [activationChecks_eq hfields hmay, hlast]
  simp

theorem activationChecks_waits (hnow : fieldN r.payload 1 1 = 0) (h : stateConditions s = false) :
    (activationChecks r s).find? (fun c => c != St.ok) = some St.refusedState := by
  rw [activationChecks_eq hfields hmay, h]
  simp [need, hnow, St.ok, St.refusedState]

end Checks

theorem activate_now {s : State} {r : Request} (i : StartInput) (hfields : ActivateFields r)
    (hmay : MayActivate (fieldN r.payload 0 1) s) (hnow : fieldN r.payload 1 1 = 0) (hconditions : stateConditions s = true)
    (h : Admitted (opLen 0x0E03 [clsN] 4) r s) : ∃ t, exec (.activate r i) s = .next t ∧ ∃ v, Answers s r 0x0E03 St.ok [] v ∧
      SameModule { s with update := { s.update with go := some (fieldN r.payload 0 1) } } v ∧
      t = activateNow (portOrigin r.port) (fieldN r.payload 0 1) i v := by
  obtain ⟨v, hexec, hanswer, hsame⟩ := activate_takes i (activationChecks_pass hfields hmay (.inr hconditions)) h
  have hasked : activationAsked r s = { s with update := { s.update with go := some (fieldN r.payload 0 1) } } := by
    rw [activationAsked, setUpdate, if_neg (by omega)]
  rw [hasked] at hsame
  refine ⟨_, hexec, v, hanswer, hsame, activationRun_goes ?_⟩
  rw [hsame.update_eq]

theorem activate_whenIdle {s : State} {r : Request} (i : StartInput) (hgo : s.update.go = none) (hfields : ActivateFields r)
    (hmay : MayActivate (fieldN r.payload 0 1) s) (hlater : fieldN r.payload 1 1 = 1)
    (h : Admitted (opLen 0x0E03 [clsN] 4) r s) : ∃ t, exec (.activate r i) s = .next t ∧ Answers s r 0x0E03 St.ok [] t ∧
      SameModule { s with update := { s.update with
        waiting := some (fieldN r.payload 0 1), waitingBy := portOrigin r.port } } t := by
  obtain ⟨v, hexec, hanswer, hsame⟩ := activate_takes i (activationChecks_pass hfields hmay (.inl hlater)) h
  have hasked : activationAsked r s = { s with update := { s.update with
      waiting := some (fieldN r.payload 0 1), waitingBy := portOrigin r.port } } := by
    rw [activationAsked, setUpdate, if_pos hlater]
  rw [hasked] at hsame
  refine ⟨v, hexec.trans (congrArg Host.Outcome.next (activationRun_rests ?_)), hanswer, hsame⟩
  rw [hsame.update_eq]
  exact hgo

/-! ### An activation that waits (R423) -/

theorem waiting_ignores {s : State} (i : StartInput) (h : s.update.waiting = none) :
    Ignores (.activationWhenIdle i) s ∧ Ignores .idleWaitExpiry s := by
  constructor
  · show Host.Outcome.next (activateWaiting i s) = .next s
    unfold activateWaiting
    rw [h]
  · show Host.Outcome.next (match s.update.waiting with
      | none => s
      | some mask => (regionsOf mask).foldl (fun t r => setRegion r (fun x => { x with status := St.timeout }) t)
        (setUpdate (fun u => { u with waiting := none }) s)) = .next s
    rw [h]

/-- The conditions under which an activation that waits proceeds. -/
def mayProceed (m : Nat) (s : State) : Bool :=
  domainRuns s && stateConditions s && allWaiting s &&
    (activateChecks { s with update := { s.update with waiting := none } } m true).all (fun c => c == St.ok)

theorem exec_activationWhenIdle {s : State} (i : StartInput) {m : Nat} (h : s.update.waiting = some m) :
    exec (.activationWhenIdle i) s = .next (if mayProceed m s then activateNow s.update.waitingBy m i s else s) := by
  show Host.Outcome.next (activateWaiting i s) = _
  unfold activateWaiting
  rw [h]
  rfl

/-- The regions of an activation that has waited too long. -/
def waitTimedOut (m : Nat) (s : State) : State :=
  (regionsOf m).foldl (fun t r => setRegion r (fun x => { x with status := St.timeout }) t)
    (setUpdate (fun u => { u with waiting := none }) s)

theorem mem_regionsOf {mask x : Nat} : x ∈ regionsOf mask ↔ x < 5 ∧ mask.testBit x = true := by
  rw [regionsOf, List.mem_filter, List.mem_range]

/-- A run of changes of regions leaves the regions that are not named. -/
theorem regionOf_foldl_other (f : Nat → Region → Region) {l : List Nat} (hl : ∀ r ∈ l, r < 5) {x : Nat} (hx : x < 5)
    (h : x ∉ l) (s : State) : regionOf (l.foldl (fun t r => setRegion r (f r) t) s) x = regionOf s x := by
  induction l generalizing s with
  | nil => rfl
  | cons r l ih =>
    rw [List.mem_cons, not_or] at h
    rw [List.foldl_cons, ih (fun y hy => hl y (List.mem_cons_of_mem _ hy)) h.2,
      regionOf_setRegion_other _ _ (hl r List.mem_cons_self) hx h.1]

/-- A region that is named once is changed once. -/
theorem regionOf_foldl (f : Nat → Region → Region) {l : List Nat} (hl : ∀ r ∈ l, r < 5) (hdup : l.Nodup) {x : Nat}
    (h : x ∈ l) (s : State) : regionOf (l.foldl (fun t r => setRegion r (f r) t) s) x = f x (regionOf s x) := by
  induction l generalizing s with
  | nil => cases h
  | cons r l ih =>
    obtain ⟨hnot, hdup⟩ := List.nodup_cons.mp hdup
    have hrest : ∀ y ∈ l, y < 5 := fun y hy => hl y (List.mem_cons_of_mem _ hy)
    rw [List.foldl_cons]
    rcases List.mem_cons.mp h with rfl | hmem
    · rw [regionOf_foldl_other f hrest (hl x List.mem_cons_self) hnot, regionOf_setRegion]
    · have hne : x ≠ r := fun hxr => hnot (hxr ▸ hmem)
      rw [ih hrest hdup hmem, regionOf_setRegion_other _ _ (hl r List.mem_cons_self) (hrest x hmem) hne]

theorem regionsOf_lt (mask : Nat) : ∀ r ∈ regionsOf mask, r < 5 := fun _ hr => (mem_regionsOf.mp hr).1

theorem nodup_regionsOf (mask : Nat) : (regionsOf mask).Nodup := List.nodup_range.filter _

/-- The directory, the waiting activation and the power state, which no change of a region touches. -/
def besideRegions (s : State) : BitVec 5 × BitVec 5 × Option Nat × Power :=
  (s.update.trial, s.update.confirmed, s.update.waiting, s.power)

theorem besideRegions_setRegion (r : Nat) (f : Region → Region) (s : State) :
    besideRegions (setRegion r f s) = besideRegions s := by
  unfold besideRegions
  rw [setRegion_update]
  rfl

theorem idleWaitExpiry_times_out {s : State} {m : Nat} (h : s.update.waiting = some m) :
    Completes .idleWaitExpiry s (fun t => t.update.waiting = none ∧ (∀ x ∈ regionsOf m, (regionOf t x).status = St.timeout) ∧
      t.update.trial = s.update.trial ∧ t.power = s.power) := by
  have hexec : exec .idleWaitExpiry s = .next (waitTimedOut m s) := by
    show Host.Outcome.next (match s.update.waiting with
      | none => s
      | some mask => (regionsOf mask).foldl (fun t r => setRegion r (fun x => { x with status := St.timeout }) t)
        (setUpdate (fun u => { u with waiting := none }) s)) = _
    rw [h]
    rfl
  have hkept : besideRegions (waitTimedOut m s) = besideRegions (setUpdate (fun u => { u with waiting := none }) s) :=
    foldl_keeps besideRegions _ (fun t r => besideRegions_setRegion r _ t) _ _
  refine ⟨_, hexec, congrArg (·.2.2.1) hkept, fun x hx => ?_, congrArg (·.1) hkept, congrArg (·.2.2.2) hkept⟩
  exact congrArg Region.status (regionOf_foldl (fun _ x => { x with status := St.timeout }) (regionsOf_lt m)
    (nodup_regionsOf m) hx _)

end Sys2Proof.Machine

/-! # Updates: the end of a trial (R425, R427, R428) -/

namespace Sys2Proof.Machine

/-! ### ENGINE_SAFE_POINT (R425) -/

theorem engineSafePoint_changes {s : State} {elem : Fin 14} (k : Nat) (hplace : enginePlace elem.val = some k)
    (hup : up s = true) (hother : s.update.inForce.getD k false ≠ s.update.engineB) (hsafe : atSafePoint s elem.val = true) :
    exec (.engineSafePoint elem) s = .next (engineRestart elem.val
      { s with update := { s.update with inForce := s.update.inForce.modify k (fun _ => s.update.engineB) } }) := by
  have hguard : (up s && s.update.inForce.getD k false != s.update.engineB && atSafePoint s elem.val) = true := by
    rw [hup, hsafe, bne_iff_ne.mpr hother]
    rfl
  show Host.Outcome.next (match enginePlace elem.val with
    | none => s
    | some p => if up s && s.update.inForce.getD p false != s.update.engineB && atSafePoint s elem.val then
        engineRestart elem.val (setUpdate (fun u => { u with inForce := modifyAt u.inForce p (fun _ => u.engineB) }) s)
      else s) = _
  rw [hplace]
  exact congrArg Host.Outcome.next (if_pos hguard)

theorem engineSafePoint_ignores {s : State} {elem : Fin 14}
    (h : enginePlace elem.val = none ∨ up s = false ∨ atSafePoint s elem.val = false) : Ignores (.engineSafePoint elem) s := by
  show Host.Outcome.next (match enginePlace elem.val with
    | none => s
    | some p => if up s && s.update.inForce.getD p false != s.update.engineB && atSafePoint s elem.val then
        engineRestart elem.val (setUpdate (fun u => { u with inForce := modifyAt u.inForce p (fun _ => u.engineB) }) s)
      else s) = .next s
  cases hplace : enginePlace elem.val with
  | none => rfl
  | some k =>
    refine congrArg Host.Outcome.next (if_neg ?_)
    rcases h with h | h | h
    · rw [hplace] at h
      cases h
    · simp [h]
    · simp [h]

/-! ### A trial that is confirmed (R427, R428) -/

theorem raiseFloors_otp (mask : Nat) (s : State) :
    (raiseFloors mask s).1 = { s with otp := (raiseFloors mask s).1.otp } := by
  refine List.foldlRecOn (motive := fun acc : State × Nat => acc.1 = { s with otp := acc.1.otp }) _ _ rfl fun acc hacc r _ => ?_
  split
  · exact hacc
  · dsimp only
    split
    · rw [hacc]
    · exact hacc

theorem raiseFloors_withHost (x : HostLink) (mask : Nat) (s : State) :
    raiseFloors mask (withHost x s) = (withHost x (raiseFloors mask s).1, (raiseFloors mask s).2) := by
  refine List.foldl_hom (fun acc : State × Nat => (withHost x acc.1, acc.2)) (init := (s, 0)) fun acc r => ?_
  have hslot : otherSlot (withHost x acc.1) r = otherSlot acc.1 r := rfl
  have hotp : (withHost x acc.1).otp = acc.1.otp := rfl
  dsimp only
  rw [hslot]
  split
  · rfl
  · rw [hotp]
    split_ifs <;> rfl

/-- The state in which the trial slots are the confirmed ones, ahead of the entry. -/
def trialConfirmed (s : State) : State :=
  keysConfirm s.update.trial.toNat (writeDirectory (fun u => { u with
    confirmed := u.confirmed ^^^ u.trial, trial := 0, trialStart := none, fallback := none })
      (raiseFloors s.update.trial.toNat s).1)

theorem confirmTrial_eq (origin : Nat) (s : State) : confirmTrial origin s =
    updateLog origin 0x0E04 s.update.trial.toNat ([byte s.update.trial.toNat, byte (raiseFloors s.update.trial.toNat s).2, 0, 0] ++
      versionTriples s s.update.trial.toNat) (trialConfirmed s) := rfl

theorem keysConfirm_withHost (x : HostLink) (mask : Nat) (s : State) :
    keysConfirm mask (withHost x s) = withHost x (keysConfirm mask s) := by
  unfold keysConfirm
  split <;> rfl

theorem confirmTrial_withHost (origin : Nat) (x : HostLink) (s : State) :
    confirmTrial origin (withHost x s) = withHost x (confirmTrial origin s) := by
  have htrial : (withHost x s).update = s.update := rfl
  have hversions : versionTriples (withHost x s) s.update.trial.toNat = versionTriples s s.update.trial.toNat := rfl
  have hdirectory (f : Update → Update) (t : State) : writeDirectory f (withHost x t) = withHost x (writeDirectory f t) := rfl
  rw [confirmTrial_eq, confirmTrial_eq, trialConfirmed, trialConfirmed, htrial, raiseFloors_withHost, hversions]
  dsimp only
  rw [hdirectory, keysConfirm_withHost]
  exact log_withHost ..

theorem trialConfirmed_update (s : State) : (trialConfirmed s).update = { s.update with
    confirmed := s.update.confirmed ^^^ s.update.trial, trial := 0, trialStart := none, fallback := none
    generation := s.update.generation + 1, copyB := !s.update.copyB } := by
  have hfloors : (raiseFloors s.update.trial.toNat s).1.update = s.update := by rw [raiseFloors_otp]
  refine (congrArg (·.1) (besideKeys_keysConfirm ..)).trans ?_
  dsimp only [besideKeys, writeDirectory, setUpdate]
  rw [hfloors]

theorem confirmTrial_update (origin : Nat) (s : State) : (confirmTrial origin s).update = { s.update with
    confirmed := s.update.confirmed ^^^ s.update.trial, trial := 0, trialStart := none, fallback := none
    generation := s.update.generation + 1, copyB := !s.update.copyB } := by
  rw [confirmTrial_eq, updateLog_update, trialConfirmed_update]

theorem confirmTrial_sender (origin : Nat) (s : State) : SameSender s (confirmTrial origin s) := by
  have hconfirmed : SameSender s (trialConfirmed s) := by
    unfold trialConfirmed keysConfirm
    rw [raiseFloors_otp]
    split <;> exact sameSender_of rfl rfl rfl
  exact hconfirmed.trans (log_sender ..)

/-! ### CONFIRM (R427) -/

/-- The checks of CONFIRM. -/
def confirmChecks (r : Request) (s : State) : List Nat :=
  [ reservedOk r.payload 1 3, need (fieldN r.payload 0 1 = s.update.trial.toNat) St.range
  , need (s.update.trial ≠ 0 ∧ s.update.completed = true) St.refusedState
  , need (!onTrial s 3 || enginesChanged s) St.refusedState ]

/-- The action of CONFIRM. -/
def confirmAct (r : Request) (s : State) : State × Answer :=
  guarded (confirmChecks r s) (fun s => done (confirmTrial (portOrigin r.port) s)) s

theorem exec_confirm (r : Request) (s : State) :
    exec (.confirm r) s = .next (hostRequest (opLen 0x0E04 [clsN] 4) r (confirmAct r) s) := rfl

section Confirm

variable {s : State} {r : Request} (hres : fieldN r.payload 1 3 = 0)
include hres

theorem confirm_range (h : fieldN r.payload 0 1 ≠ s.update.trial.toNat) :
    Admitted (opLen 0x0E04 [clsN] 4) r s → Completes (.confirm r) s (fun t =>
      Answers s r 0x0E04 St.range [] t ∧ SameModule s t) := by
  have hchecks : (confirmChecks r s).find? (fun c => c != St.ok) = some St.range := by
    rw [confirmChecks, reservedOk_of hres, need_fails (decide_eq_false h)]
    rfl
  exact host_refuses (exec_confirm r s) fun x => guarded_stop (s := withHost x s) hchecks

theorem confirm_refused (hmask : fieldN r.payload 0 1 = s.update.trial.toNat)
    (h : s.update.trial = 0 ∨ s.update.completed = false ∨ (onTrial s 3 = true ∧ enginesChanged s = false)) :
    Admitted (opLen 0x0E04 [clsN] 4) r s → Completes (.confirm r) s (fun t =>
      Answers s r 0x0E04 St.refusedState [] t ∧ SameModule s t) := by
  have hchecks : (confirmChecks r s).find? (fun c => c != St.ok) = some St.refusedState := by
    rw [confirmChecks, reservedOk_of hres, need_of (decide_eq_true hmask)]
    by_cases hcompleted : s.update.trial ≠ 0 ∧ s.update.completed = true
    · have hengines : (!onTrial s 3 || enginesChanged s) = false := by
        rcases h with h | h | ⟨htrial, hchanged⟩
        · exact absurd h hcompleted.1
        · exact absurd hcompleted.2 (ne_true_of_eq_false h)
        · rw [htrial, hchanged]
          rfl
      rw [need_of (decide_eq_true hcompleted), need_fails hengines]
      rfl
    · rw [need_fails (decide_eq_false hcompleted)]
      rfl
  exact host_refuses (exec_confirm r s) fun x => guarded_stop (s := withHost x s) hchecks

theorem confirm_confirms (hmask : fieldN r.payload 0 1 = s.update.trial.toNat) (htrial : s.update.trial ≠ 0)
    (hcompleted : s.update.completed = true) (h : onTrial s 3 = false ∨ enginesChanged s = true) :
    Admitted (opLen 0x0E04 [clsN] 4) r s → Completes (.confirm r) s (fun t =>
      Answers s r 0x0E04 St.ok [] t ∧ SameModule (confirmTrial (portOrigin r.port) s) t) := by
  have hengines : (!onTrial s 3 || enginesChanged s) = true := by
    rcases h with h | h <;> simp [h]
  have hchecks : ∀ c ∈ confirmChecks r s, c = St.ok := by
    rw [confirmChecks, reservedOk_of hres, need_of (decide_eq_true hmask), need_of (decide_eq_true ⟨htrial, hcompleted⟩),
      need_of hengines]
    simp
  refine host_leads (exec_confirm r s) (confirmTrial_sender ..) fun x => (guarded_pass (s := withHost x s) hchecks).trans ?_
  rw [done, confirmTrial_withHost]

end Confirm

/-! ### A trial that falls back (R418, R427) -/

/-- A slot of a region is emptied. -/
def slotCleared (b : Bool) (x : Region) : Region := if b then { x with slotB := .empty } else { x with slotA := .empty }

/-- The trial slots are emptied. -/
def trialCleared (s : State) : State :=
  (regionsOf s.update.trial.toNat).foldl (fun t r => setRegion r (slotCleared (!confirmedB s r)) t) s

/-- The directory no longer names a trial. -/
def trialEnded (s : State) : State :=
  keysFallBack s.update.trial.toNat (writeDirectory (fun u => { u with trial := 0, trialStart := none, fallback := none })
    (trialCleared s))

theorem fallBackTrial_eq {s : State} (origin cause : Nat) (h : s.update.trial ≠ 0) : fallBackTrial origin cause s =
    updateLog origin 0x0E05 s.update.trial.toNat ([byte s.update.trial.toNat, byte cause] ++ zeros 14) (trialEnded s) := by
  have hmask : s.update.trial.toNat ≠ 0 := fun hzero => h (BitVec.eq_of_toNat_eq hzero)
  exact if_neg hmask

theorem trialEnded_update (s : State) : (trialEnded s).update =
    (writeDirectory (fun u => { u with trial := 0, trialStart := none, fallback := none }) (trialCleared s)).update :=
  congrArg (·.1) (besideKeys_keysFallBack ..)

theorem trialCleared_confirmed (s : State) : (trialCleared s).update.confirmed = s.update.confirmed :=
  congrArg (·.2.1) (foldl_keeps besideRegions _ (fun t r => besideRegions_setRegion r _ t) _ s)

theorem regionOf_trialEnded (x : Nat) (s : State) : regionOf (trialEnded s) x = regionOf (trialCleared s) x :=
  (regionOf_congr (trialEnded_update s) x).trans (regionOf_writeDirectory (fun _ => ⟨rfl, rfl, rfl, rfl, rfl⟩) _ x)

theorem slotOf_cleared (b : Bool) (s t : State) (x : Nat) (h : regionOf t x = slotCleared (!b) (regionOf s x)) :
    (slotOf t x (!b)).header = none ∧ slotOf t x b = slotOf s x b := by
  rw [slotOf, slotOf, slotOf, h]
  cases b <;> exact ⟨rfl, rfl⟩

theorem fallBackTrial_ends {s : State} (origin cause : Nat) (h : s.update.trial ≠ 0) :
    let t := fallBackTrial origin cause s
    t.update.trial = 0 ∧ t.update.confirmed = s.update.confirmed ∧ t.update.fallback = none ∧
    (∀ x, x < 5 → s.update.trial.getLsbD x = true → (otherSlot t x).header = none ∧
      slotOf t x (confirmedB s x) = slotOf s x (confirmedB s x)) ∧
    (∃ e, t.logs.general.head? = some e ∧ e.origin = origin ∧ e.sub = 0x0E ∧ e.code = 0x0E05) := by
  have hupdate : (fallBackTrial origin cause s).update = (trialEnded s).update := by
    rw [fallBackTrial_eq origin cause h, updateLog_update]
  have hconfirmed : (fallBackTrial origin cause s).update.confirmed = s.update.confirmed := by
    rw [hupdate, trialEnded_update]
    exact trialCleared_confirmed s
  refine ⟨?_, hconfirmed, ?_, fun x hx hbit => ?_, ?_⟩
  · rw [hupdate, trialEnded_update]
    rfl
  · rw [hupdate, trialEnded_update]
    rfl
  · have hregion : regionOf (fallBackTrial origin cause s) x = slotCleared (!confirmedB s x) (regionOf s x) := by
      rw [regionOf_congr hupdate, regionOf_trialEnded]
      exact regionOf_foldl (fun r => slotCleared (!confirmedB s r)) (regionsOf_lt _) (nodup_regionsOf _)
        (mem_regionsOf.mpr ⟨hx, hbit⟩) s
    obtain ⟨hempty, hkept⟩ := slotOf_cleared (confirmedB s x) s _ x hregion
    have hside : confirmedB (fallBackTrial origin cause s) x = confirmedB s x := by
      rw [confirmedB, confirmedB, hconfirmed]
    rw [otherSlot, hside]
    exact ⟨hempty, hkept⟩
  · rw [fallBackTrial_eq origin cause h]
    exact ⟨_, log_general_head .., rfl, rfl, rfl⟩

/-! ### REJECT (R427) -/

/-- The state in which a fallback is due. -/
def fallbackDue (origin cause : Nat) (s : State) : State :=
  setUpdate (fun u => { u with fallback := some cause, fallbackBy := origin }) s

theorem runFallback_rests {s : State} (i : StartInput) (h : s.update.fallback = none) : runFallback i s = s := by
  unfold runFallback
  rw [h]

theorem runFallback_goes {s : State} (i : StartInput) {cause : Nat} (h : s.update.fallback = some cause)
    (hconditions : stateConditions s = true) :
    runFallback i s = warmRestart 4 i (fallBackTrial s.update.fallbackBy cause s) := by
  unfold runFallback
  rw [h]
  exact if_pos hconditions

theorem runFallback_waits {s : State} (i : StartInput) {cause : Nat} (h : s.update.fallback = some cause)
    (hconditions : stateConditions s = false) : runFallback i s = s := by
  unfold runFallback
  rw [h]
  exact if_neg (ne_true_of_eq_false hconditions)

theorem stateConditions_of_same {s t : State} (h : SameModule s t) : stateConditions t = stateConditions s := by
  rw [h]
  rfl

/-- The checks of REJECT. -/
def rejectChecks (r : Request) (s : State) : List Nat :=
  [ reservedOk r.payload 1 3
  , need (s.update.trial ≠ 0 ∧ fieldN r.payload 0 1 = s.update.trial.toNat) St.refusedState ]

/-- The action of REJECT. -/
def rejectAct (r : Request) (s : State) : State × Answer :=
  guarded (rejectChecks r s) (fun s => done (fallbackDue (portOrigin r.port) 2 s)) s

theorem exec_reject (r : Request) (i : StartInput) (s : State) : exec (.reject r i) s =
    .next (runFallback i (hostRequest (opLen 0x0E05 [clsN] 4) r (rejectAct r) s)) := rfl

section Reject

variable {s : State} {r : Request} (i : StartInput) (hres : fieldN r.payload 1 3 = 0)
include hres

theorem reject_takes (htrial : s.update.trial ≠ 0) (hmask : fieldN r.payload 0 1 = s.update.trial.toNat)
    (h : Admitted (opLen 0x0E05 [clsN] 4) r s) : ∃ v, exec (.reject r i) s = .next (runFallback i v) ∧
      Answers s r 0x0E05 St.ok [] v ∧ SameModule (fallbackDue (portOrigin r.port) 2 s) v := by
  have hchecks : ∀ c ∈ rejectChecks r s, c = St.ok := by
    rw [rejectChecks, reservedOk_of hres, need_of (decide_eq_true ⟨htrial, hmask⟩)]
    simp
  have hact : ∀ x, rejectAct r (withHost x s) = (withHost x (fallbackDue (portOrigin r.port) 2 s), .now St.ok []) :=
    fun x => (guarded_pass hchecks).trans rfl
  obtain ⟨hanswer, hsame⟩ := host_takes (s := s) (u := fallbackDue (portOrigin r.port) 2 s) (sameSender_of rfl rfl rfl) hact h
  exact ⟨_, exec_reject r i s, hanswer, hsame⟩

theorem reject_falls_back (htrial : s.update.trial ≠ 0) (hmask : fieldN r.payload 0 1 = s.update.trial.toNat)
    (hconditions : stateConditions s = true) (h : Admitted (opLen 0x0E05 [clsN] 4) r s) :
    ∃ t, exec (.reject r i) s = .next t ∧ ∃ v, Answers s r 0x0E05 St.ok [] v ∧
      SameModule (fallbackDue (portOrigin r.port) 2 s) v ∧
      t = (fun v => warmRestart 4 i (fallBackTrial (portOrigin r.port) 2 v)) v := by
  obtain ⟨v, hexec, hanswer, hsame⟩ := reject_takes i hres htrial hmask h
  have hdue : v.update.fallback = some 2 := by rw [hsame.update_eq]; rfl
  have hby : v.update.fallbackBy = portOrigin r.port := by rw [hsame.update_eq]; rfl
  have hgoes := runFallback_goes i hdue ((stateConditions_of_same hsame).trans hconditions)
  rw [hby] at hgoes
  exact ⟨_, hexec, v, hanswer, hsame, hgoes⟩

theorem reject_waits (htrial : s.update.trial ≠ 0) (hmask : fieldN r.payload 0 1 = s.update.trial.toNat)
    (hconditions : stateConditions s = false) (h : Admitted (opLen 0x0E05 [clsN] 4) r s) :
    ∃ t, exec (.reject r i) s = .next t ∧ Answers s r 0x0E05 St.ok [] t ∧
      SameModule (fallbackDue (portOrigin r.port) 2 s) t := by
  obtain ⟨v, hexec, hanswer, hsame⟩ := reject_takes i hres htrial hmask h
  have hdue : v.update.fallback = some 2 := by rw [hsame.update_eq]; rfl
  have hwaits := runFallback_waits i hdue ((stateConditions_of_same hsame).trans hconditions)
  exact ⟨v, hexec.trans (congrArg Host.Outcome.next hwaits), hanswer, hsame⟩

theorem reject_refused (hfallback : s.update.fallback = none)
    (hwrong : s.update.trial = 0 ∨ fieldN r.payload 0 1 ≠ s.update.trial.toNat) (h : Admitted (opLen 0x0E05 [clsN] 4) r s) :
    ∃ t, exec (.reject r i) s = .next t ∧ Answers s r 0x0E05 St.refusedState [] t ∧ SameModule s t := by
  have hfails : ¬ (s.update.trial ≠ 0 ∧ fieldN r.payload 0 1 = s.update.trial.toNat) := by
    rintro ⟨htrial, hmask⟩
    exact hwrong.elim htrial fun hne => hne hmask
  have hchecks : (rejectChecks r s).find? (fun c => c != St.ok) = some St.refusedState := by
    rw [rejectChecks, reservedOk_of hres, need_fails (decide_eq_false hfails)]
    rfl
  have hact : ∀ x, rejectAct r (withHost x s) = (withHost x s, .now St.refusedState []) := fun x => guarded_stop hchecks
  obtain ⟨hanswer, hsame⟩ := host_takes (s := s) (u := s) (sameSender_of rfl rfl rfl) hact h
  refine ⟨_, (exec_reject r i s).trans (congrArg Host.Outcome.next (runFallback_rests i ?_)), hanswer, hsame⟩
  rw [hsame.update_eq]
  exact hfallback

end Reject

/-! ### TRIAL_LIMIT_EXPIRY (R425, R427) -/

theorem trialLimitExpiry_ignores {s : State} (i : StartInput) (h : s.update.trial = 0 ∨ up s = false) :
    Ignores (.trialLimitExpiry i) s := congrArg Host.Outcome.next (if_pos h)

/-- A trial that is confirmed when its time is over. -/
def ConfirmsAtLimit (s : State) : Prop :=
  cfgN s 0x0E01 0 0 1 1 = 2 ∧ s.update.completed = true ∧ (onTrial s 3 = false ∨ enginesChanged s = true)

section TrialLimit

variable {s : State} (i : StartInput) (htrial : s.update.trial ≠ 0) (hup : up s = true)
include htrial hup

theorem trial_runs : ¬ (s.update.trial = 0 ∨ up s = false) := by
  rintro (h | h)
  · exact htrial h
  · exact ne_true_of_eq_false h hup

theorem trialLimitExpiry_confirms (h : ConfirmsAtLimit s) : exec (.trialLimitExpiry i) s = .next (confirmTrial 0 s) :=
  congrArg Host.Outcome.next ((if_neg (trial_runs htrial hup)).trans (if_pos h))

theorem exec_trialLimitExpiry (h : ¬ ConfirmsAtLimit s) :
    exec (.trialLimitExpiry i) s = .next (runFallback i (fallbackDue 0 3 s)) :=
  congrArg Host.Outcome.next ((if_neg (trial_runs htrial hup)).trans (if_neg h))

theorem trialLimitExpiry_falls_back (h : ¬ ConfirmsAtLimit s) (hconditions : stateConditions s = true) :
    exec (.trialLimitExpiry i) s = .next (warmRestart 4 i (fallBackTrial 0 3 (fallbackDue 0 3 s))) :=
  (exec_trialLimitExpiry i htrial hup h).trans (congrArg Host.Outcome.next
    (runFallback_goes (s := fallbackDue 0 3 s) i rfl hconditions))

theorem trialLimitExpiry_waits (h : ¬ ConfirmsAtLimit s) (hconditions : stateConditions s = false) :
    exec (.trialLimitExpiry i) s = .next (fallbackDue 0 3 s) :=
  (exec_trialLimitExpiry i htrial hup h).trans (congrArg Host.Outcome.next
    (runFallback_waits (s := fallbackDue 0 3 s) i rfl hconditions))

end TrialLimit

end Sys2Proof.Machine

/-! # Updates: sowing, the owner lock and the statement (R428, R430, R436) -/

namespace Sys2Proof.Machine

/-! ### SOW (R430) -/

/-- The form of SOW. -/
def opSow (r : Request) : OpSpec := ⟨0x0E06, [clsN], false, fun n => decide (8 ≤ n) && n == 8 + 2 * fieldN r.payload 4 2⟩

/-- The slot that SOW names. -/
def sowSlot (r : Request) (s : State) : RegionSlot := slotOf s (fieldN r.payload 0 1) (fieldN r.payload 1 1 = 1)

/-- The checks of SOW. -/
def sowChecks (r : Request) (s : State) : List Nat :=
  [ need (fieldN r.payload 0 1 ≤ 4 ∧ fieldN r.payload 1 1 ≤ 1 ∧ fieldN r.payload 2 1 ≤ 1) St.range, reservedOk r.payload 3 1
  , need (fieldN r.payload 4 2 ≠ 0) St.lenZero, need (fieldN r.payload 4 2 ≤ 64) St.range, reservedOk r.payload 6 2
  , need ((sowNodes r.payload).all (fun n => 1 ≤ n && n ≤ 65534)) St.range
  , need (s.wadi.role = 4) St.refusedState
  , need ((sowSlot r s).header.isSome) St.refusedState
  , need (!s.update.sowing.any (fun x => x.running)) St.busy ]

/-- The state in which the master sows an image. -/
def sowingStarted (r : Request) (h : List Byte) (s : State) : State :=
  setUpdate (fun u => { u with sowing := some (newSowing r.payload h (sowSlot r s).data) }) s

/-- The action of SOW. -/
def sowAct (r : Request) (s : State) : State × Answer :=
  guarded (sowChecks r s) (fun s => match (sowSlot r s).header with
    | some h => done (sowingStarted r h s)
    | none => refuse St.refusedState s) s

theorem exec_sow (r : Request) (s : State) : exec (.sow r) s = .next (hostRequest (opSow r) r (sowAct r) s) := rfl

/-- A request of SOW whose fields are in range. -/
structure SowFields (r : Request) : Prop where
  region : fieldN r.payload 0 1 ≤ 4
  slot : fieldN r.payload 1 1 ≤ 1
  policy : fieldN r.payload 2 1 ≤ 1
  res : fieldN r.payload 3 1 = 0
  some : 1 ≤ fieldN r.payload 4 2
  few : fieldN r.payload 4 2 ≤ 64
  tail : fieldN r.payload 6 2 = 0
  nodes : ∀ n ∈ sowNodes r.payload, 1 ≤ n ∧ n ≤ 65534

theorem sow_refuses {s : State} {r : Request} {st : Nat} (hchecks : (sowChecks r s).find? (fun c => c != St.ok) = some st) :
    Admitted (opSow r) r s → Completes (.sow r) s (fun t => Answers s r 0x0E06 st [] t ∧ SameModule s t) :=
  host_refuses (exec_sow r s) fun x => guarded_stop (s := withHost x s) hchecks

section Sow

variable {s : State} {r : Request} (hfields : SowFields r)
include hfields

/-- The fields pass, and the state's own checks remain. -/
theorem sowChecks_eq : sowChecks r s = [St.ok, St.ok, St.ok, St.ok, St.ok, St.ok, need (s.wadi.role = 4) St.refusedState,
    need ((sowSlot r s).header.isSome) St.refusedState, need (!s.update.sowing.any (fun x => x.running)) St.busy] := by
  obtain ⟨hregion, hslot, hpolicy, hres, hsome, hfew, htail, hnodes⟩ := hfields
  have hzero : fieldN r.payload 4 2 ≠ 0 := by omega
  have hall : (sowNodes r.payload).all (fun n => 1 ≤ n && n ≤ 65534) = true :=
    List.all_eq_true.mpr fun n hn => by simpa using hnodes n hn
  rw [sowChecks, need_of (decide_eq_true ⟨hregion, hslot, hpolicy⟩), reservedOk_of hres, need_of (decide_eq_true hzero),
    need_of (decide_eq_true hfew), reservedOk_of htail, need_of hall]

theorem sow_member (hrole : s.wadi.role ≠ 4) : Admitted (opSow r) r s → Completes (.sow r) s (fun t =>
    Answers s r 0x0E06 St.refusedState [] t ∧ SameModule s t) := by
  refine sow_refuses ?_
  rw [sowChecks_eq hfields, need_fails (decide_eq_false hrole)]
  rfl

variable (hrole : s.wadi.role = 4)
include hrole

theorem sow_empty (hslot : (sowSlot r s).header = none) : Admitted (opSow r) r s → Completes (.sow r) s (fun t =>
    Answers s r 0x0E06 St.refusedState [] t ∧ SameModule s t) := by
  refine sow_refuses ?_
  rw [sowChecks_eq hfields, need_of (decide_eq_true hrole), hslot,
    need_fails (show (none : Option (List Byte)).isSome = false from rfl)]
  rfl

variable {h : List Byte} (hslot : (sowSlot r s).header = some h)
include hslot

theorem sow_busy (hbusy : ∃ x, s.update.sowing = some x ∧ x.running = true) :
    Admitted (opSow r) r s → Completes (.sow r) s (fun t => Answers s r 0x0E06 St.busy [] t ∧ SameModule s t) := by
  obtain ⟨x, hx, hrunning⟩ := hbusy
  have hrunning' : (!s.update.sowing.any (fun x => x.running)) = false := by
    rw [hx, Option.any_some, hrunning]
    rfl
  refine sow_refuses ?_
  rw [sowChecks_eq hfields, need_of (decide_eq_true hrole), hslot, need_of (show (some h).isSome = true from rfl),
    need_fails hrunning']
  rfl

theorem sow_starts (hfree : ∀ x, s.update.sowing = some x → x.running = false) :
    Admitted (opSow r) r s → Completes (.sow r) s (fun t =>
      Answers s r 0x0E06 St.ok [] t ∧ SameModule (sowingStarted r h s) t) := by
  have hrunning : (!s.update.sowing.any (fun x => x.running)) = true := by
    cases hsowing : s.update.sowing with
    | none => rfl
    | some x =>
      rw [Option.any_some, hfree x hsowing]
      rfl
  have hchecks : ∀ c ∈ sowChecks r s, c = St.ok := by
    rw [sowChecks_eq hfields, need_of (decide_eq_true hrole), hslot, need_of (show (some h).isSome = true from rfl),
      need_of hrunning]
    simp
  refine host_leads (exec_sow r s) (sameSender_of rfl rfl rfl) fun x => (guarded_pass (s := withHost x s) hchecks).trans ?_
  have hslot' : (sowSlot r (withHost x s)).header = some h := hslot
  rw [hslot']
  rfl

end Sow

/-- A sowing's targets are the nodes of the request. -/
theorem newSowing_targets (p h data : List Byte) : (newSowing p h data).targets.map (fun t => t.node) = sowNodes p := by
  show ((List.range (sowNodes p).length).map fun i =>
    (⟨(sowNodes p).getD i 0, 0xFF, i + 1, 0⟩ : SowTarget)).map (fun t => t.node) = sowNodes p
  rw [List.map_map]
  refine List.ext_getElem (by simp) fun i hi hlt => ?_
  simp [List.getD_eq_getElem?_getD, List.getElem?_eq_getElem hlt]

/-! ### OWNER_LOCK (R428) -/

/-- The action of OWNER_LOCK. -/
def ownerLockAct (r : Request) (s : State) : State × Answer :=
  guarded [need (fieldN r.payload 0 1 ≤ 1) St.range, reservedOk r.payload 1 3]
    (fun s => done (writeDirectory (fun u => { u with lock := fieldN r.payload 0 1 == 1 }) s)) s

theorem exec_ownerLock (r : Request) (s : State) :
    exec (.ownerLock r) s = .next (hostRequest (opLen 0x0E07 [clsN] 4) r (ownerLockAct r) s) := rfl

theorem ownerLock_sets {s : State} {r : Request} (hres : fieldN r.payload 1 3 = 0) (hlow : fieldN r.payload 0 1 ≤ 1) :
    Admitted (opLen 0x0E07 [clsN] 4) r s → Completes (.ownerLock r) s (fun t => Answers s r 0x0E07 St.ok [] t ∧
      SameModule { s with update := { s.update with
        lock := fieldN r.payload 0 1 == 1, generation := s.update.generation + 1, copyB := !s.update.copyB } } t) := by
  refine host_leads (exec_ownerLock r s) (sameSender_of rfl rfl rfl) fun x => (guarded_pass ?_).trans rfl
  rw [need_of (decide_eq_true hlow), reservedOk_of hres]
  simp

theorem ownerLock_range {s : State} {r : Request} (hhigh : 1 < fieldN r.payload 0 1) :
    Admitted (opLen 0x0E07 [clsN] 4) r s → Completes (.ownerLock r) s (fun t =>
      Answers s r 0x0E07 St.range [] t ∧ SameModule s t) := by
  refine host_refuses (exec_ownerLock r s) fun x => guarded_stop ?_
  rw [need_fails (decide_eq_false (Nat.not_le.mpr hhigh))]
  rfl

/-! ### The statement -/

/-- Settles O56, request by request: what opens, activates, confirms, falls back, sows and locks. -/
theorem updateCommands : Obligations.UpdateCommands := by
  intro s r data i elem
  refine ⟨?write, ?activate, fun origin => ⟨_, activateNow_eq .., activated_trial ..⟩, waiting_ignores i, ?waiting,
    ⟨fun k hplace hup hother hsafe => ⟨_, engineSafePoint_changes k hplace hup hother hsafe, rfl⟩, engineSafePoint_ignores⟩,
    ?confirm, ?reject, fun origin cause htrial => fallBackTrial_ends origin cause htrial, trialLimitExpiry_ignores i, ?limit,
    ?sow, fun hres => ⟨ownerLock_sets hres, ownerLock_range⟩⟩
  case write =>
    intro op q p h reg hfits
    refine ⟨fun x hx => ⟨fun hstate hok h => ?_, fun hstate hbad h => ?_, updateWrite_busy hfits hx⟩,
      fun hnone hoff hlen hroom hphase => ?_⟩
    · have hended := updateWrite_ended hfits hx hstate h
      rwa [if_pos hok, hok] at hended
    · have hended := updateWrite_ended hfits hx hstate h
      rwa [if_neg hbad] at hended
    · have hopens : OpensTransfer (r.append data) s := ⟨hoff, hlen, hroom, hphase⟩
      refine ⟨updateWrite_locked hfits hnone hopens, fun hlock hregion =>
        ⟨fun st hover => updateWrite_refused hfits hnone hopens hlock hregion hover, fun hover =>
          ⟨fun step st hchecks => updateWrite_fails hfits hnone hopens hlock hregion hover hchecks, fun htotal h => ?_⟩⟩⟩
      obtain ⟨t, hexec, hopened⟩ := updateWrite_opens hfits hnone hopens hlock hregion hover htotal h
      refine ⟨t, hexec, fun hgood => ?_⟩
      obtain ⟨hanswer, hstate, hincoming, hreceived, hdata, hheader, htransfer, hbeside⟩ := hopened hgood
      exact ⟨hanswer, hstate, hincoming, hreceived, hdata, hheader, ⟨_, htransfer, rfl, rfl, rfl⟩,
        congrArg UpdateBeside.otp hbeside, congrArg UpdateBeside.trial hbeside, congrArg UpdateBeside.confirmed hbeside⟩
  case activate =>
    intro op hlow hhigh hres hgo
    refine ⟨fun hflag hlock => activate_refuses i hgo (activationChecks_locked ⟨hlow, hhigh, hres, hflag⟩ hlock),
      fun hflag hlock htrial => activate_refuses i hgo (activationChecks_trial ⟨hlow, hhigh, hres, hflag⟩ hlock htrial),
      fun hlock htrial hverified hmigrating hminimums hformats hroom => ?_⟩
    have hmay : MayActivate (fieldN r.payload 0 1) s := ⟨hlock, htrial, hverified, hmigrating, hminimums, hformats, hroom⟩
    exact ⟨fun hnow => activate_now i ⟨hlow, hhigh, hres, by omega⟩ hmay hnow,
      fun hnow hconditions => activate_refuses i hgo
        (activationChecks_waits ⟨hlow, hhigh, hres, by omega⟩ hmay hnow hconditions),
      fun hlater => activate_whenIdle i hgo ⟨hlow, hhigh, hres, by omega⟩ hmay hlater⟩
  case waiting =>
    intro m hm
    refine ⟨fun hproceeds => ⟨_, (exec_activationWhenIdle i hm).trans (congrArg Host.Outcome.next (if_pos hproceeds)), rfl⟩,
      fun hwaits => (exec_activationWhenIdle i hm).trans (congrArg Host.Outcome.next (if_neg (ne_true_of_eq_false hwaits))),
      idleWaitExpiry_times_out hm⟩
  case confirm =>
    intro op t hres
    refine ⟨confirm_range hres, confirm_refused hres, fun hmask htrial hcompleted h =>
      ⟨confirm_confirms hres hmask htrial hcompleted h, ?_⟩⟩
    rw [confirmTrial_update]
    exact ⟨rfl, rfl, rfl, rfl⟩
  case reject =>
    intro op rejected hres hfallback
    exact ⟨reject_falls_back i hres, reject_waits i hres, reject_refused i hres hfallback⟩
  case limit =>
    intro htrial hup
    exact ⟨fun h => ⟨_, trialLimitExpiry_confirms i htrial hup h, rfl⟩,
      fun h hconditions => ⟨_, trialLimitExpiry_falls_back i htrial hup h hconditions, rfl⟩,
      fun h hconditions => ⟨_, trialLimitExpiry_waits i htrial hup h hconditions, rfl⟩⟩
  case sow =>
    intro op slot hregion hslot hpolicy hres hsome hfew htail hnodes
    have hfields : SowFields r := ⟨hregion, hslot, hpolicy, hres, hsome, hfew, htail, hnodes⟩
    exact ⟨sow_member hfields, sow_empty hfields, fun hrole h hheader => ⟨sow_busy hfields hrole hheader,
      fun hfree => ⟨sow_starts hfields hrole hheader hfree, newSowing_targets .., rfl⟩⟩⟩

end Sys2Proof.Machine
